-- ==== Sys2Proof/Word.lean ====
section
/-! DEFINITION. Word.lean: the word types of the block. A byte of memory or of a payload is a bit vector; counts,
object numbers and addresses that nothing masks are natural numbers. -/

namespace Sys2Proof

/-- One byte (00_scope R6: every multi-byte field is a sequence of these). -/
abbrev Byte := BitVec 8

/-- A bit map over the 64 ports, the 16 stacks or the 16 fields (19 Table 19-2). -/
abbrev Map64 := BitVec 64
abbrev Map16 := BitVec 16

end Sys2Proof
end

