-- ==== Sys2Proof/Syntax.lean ====
section
/-! DEFINITION. Syntax.lean: the commands of the block, one constructor per row of spec/opcode_table.json, with the
operands the spec's chapters give each row, and the types of those operands. The table gives no row any bits, so a
command has no word encoding. What a cryptographic check answered (a signature, a tag, an unwrap) is an operand (log 8). -/

namespace Sys2Proof

/-- The role a CCP requester claims (17 Table 17-3). -/
inductive Role where
  | operator
  | tenant
  deriving DecidableEq, Repr

/-- One whole CCP command (17 R444, R450): the Ethernet port on which its last missing fragment arrived (0 A, 1 B)
and that fragment's priority class, its session (0 in the pre-session exchange), its `cmd_id`, its `total`, and the parameter block read as a
little-endian number (18 R468). -/
structure CcpCmd where
  port    : Nat
  cls     : Nat
  session : Nat
  cmdId   : Nat
  total   : Nat
  block   : Nat
  deriving DecidableEq, Repr

/-- One packet that arrives at a fabric port: the port, the fields of 13 Table 13-1 but the opcode (the row names it),
and the payload bytes. `rsvd` holds the reserved bits of the header as one number. -/
structure Packet where
  port      : Nat
  hdrVer    : Nat
  dst       : Nat
  src       : Nat
  tag       : Nat
  tgen      : Nat
  ngen      : Nat
  fnum      : Nat
  prior     : Nat
  session   : Nat
  age       : Nat
  status    : Nat
  fence     : Bool
  mcast     : Bool
  epoch     : Nat
  escape    : Bool
  synthetic : Bool
  wbPending : Bool
  length    : Nat
  address   : Nat
  rsvd      : Nat
  payload   : List Byte
  deriving DecidableEq, Repr

/-- What an identity chain verifies to, under both of its signatures (09 R252, R253): no root, the Olizon root, or the root whose
256-byte entry (19 Table 19-13, `roots`) has this value, little-endian. -/
inductive Chain where
  | fails
  | olizon
  | further (entry : Nat)
  deriving DecidableEq, Repr

/-- What LINK_SESSION_OPEN carries (09 R256): the tenant, the sender's generation, its nonce, its chain as sent, the identity hash
of the chain's key and the root it verifies to, and whether the signature verifies. -/
structure LinkOpen where
  tenant   : Nat
  gen      : Nat
  nonce    : Nat := 0
  certs    : List Byte := []
  identity : Nat
  chain    : Chain
  sigOk    : Bool
  deriving DecidableEq, Repr

/-- A completion-cache record with its tag table entry, as a PAIR_MIRROR or PAIR_META carries it (13 R355, 16 R433). -/
structure CacheRec where
  src    : Nat
  ngen   : Nat
  tag    : Nat
  tgen   : Nat
  opcode : Nat
  status : Nat
  word   : Option Nat
  deriving DecidableEq, Repr

/-- What PAIR_MIRROR carries (16 Table 16-5): sector writes to one mirrored extent, and their cache records. -/
structure MirrorMsg where
  term   : Nat
  extent : Nat
  writes : List (Nat × List Byte)   -- byte offset, bytes
  bad    : List Nat := []           -- offsets of the sectors that carry poison
  caches : List CacheRec
  deriving DecidableEq, Repr

/-- One metadata record of PAIR_META (16 R433): the absolute contents of one object. `block` is the object's
descriptor or parameter block, `arg` the further value the kind needs. -/
inductive PairRec where
  | tenant (number keyHash : Nat)
  | noTenant (number : Nat)
  | reserve (tenant granules : Nat)
  | space (asid tenant block : Nat)
  | noSpace (asid : Nat)
  | mapping (tenant block : Nat)
  | unmap (block : Nat)
  | extent (number tenant block state version : Nat)
  | noExtent (number : Nat)
  | window (number tenant block state outcome : Nat)
  | noWindow (number : Nat)
  | context (number tenant block state : Nat) (frontiers scales : List Nat)
  | noContext (number : Nat)
  | common (number tenant block state : Nat)
  | noCommon (number : Nat)
  | lineOwned (common line : Nat)
  | lineClean (common line : Nat) (lost : Bool)
  | checkout (extent page holder gen : Nat) (recalling : Bool)
  | checkin (extent page holder gen : Nat) (reverted : Bool)
  | node (number : Nat) (gen : Option Nat) (loss : Nat)
  | devSet (tenant number : Nat) (entries : List Nat)
  | sched (block : Nat)
  | police (block : Nat)
  | arb (block : Nat)
  | isolate (block : Nat)
  | cadence (block : Nat)
  | power (block : Nat)
  | cache (r : CacheRec)
  | synced (tenant : Nat)
  deriving DecidableEq, Repr

/-- What a unit reports of itself with its heartbeat and in answer to one (16 R426, R428, R435, R440): its identity
hash, its pair, the security version of its management image, whether it is ACTIVE, whether it is SYNCING, whether it
counts its peer as in service, and the tenants whose session is open on it. -/
structure PeerInfo where
  identity : Nat
  pairId   : Nat
  secVer   : Nat
  active   : Bool
  syncing  : Bool
  peerIn   : Bool
  tenants  : List Nat
  deriving DecidableEq, Repr

/-- One flit as the receiver sees it (12 Tables 12-2 and 12-3), with the receiver's verdicts: whether its CRC checks
(a flit that overlaps an uncorrectable codeword fails), whether it carries a tag, whether the tag verifies, and the
corrected FEC symbols per wavelength that came with it. In an idle flit `idleCount` is payload bytes 0 to 7. -/
structure Flit where
  seq         : Nat
  ackSeq      : Nat
  ackValid    : Bool
  nak         : Bool
  keyPhase    : Nat
  ftype       : Nat
  vc          : Nat
  pktFirst    : Bool
  pktLast     : Bool
  payLenM1    : Nat
  creditVc    : Nat
  creditTotal : Nat
  txNum       : Nat
  idleCount   : Nat
  payload     : List Byte
  crcOk       : Bool
  tagged      : Bool
  tagOk       : Bool
  fec         : List Nat
  deriving DecidableEq, Repr

/-- What the checks of a station say at the end of a step (01 R17). -/
inductive StepCheck where
  | ok
  | store
  | residue
  deriving DecidableEq, Repr

/-- What a refusal mark stands on (06 R182, 08 R218, 09 R241). -/
inductive MarkOf where
  | extent (number : Nat)
  | mapping (asid vaBase : Nat)
  | tenant (number : Nat)
  deriving DecidableEq, Repr

/-- Raw bit errors of one sector's eight codewords (11 R297): (burst, pin, the 8-bit error of that symbol). -/
abbrev RawErr := List (Nat × Nat × Nat)

/-- What one attempt to read a sector meets on the pins beside the errors its codewords already carry, and what the stack's
on-die ECC reports of it: 0 nothing, 1 a correction, 2 an uncorrectable error (10 Table 10-1, 11 R307, R315). -/
structure ReadErr where
  sym   : RawErr := []
  onDie : Nat := 0
  deriving DecidableEq, Repr

/-- The eyes measured at one pin: read, write and reference widths in steps, and the read delay at the centre of the read eye (10
R291, 18 R473). -/
structure PinEye where
  pin   : Nat
  read  : Nat
  write : Nat
  vref  : Nat
  mid   : Nat := 0x40
  deriving DecidableEq, Repr

/-- What the power controller measures for one 10 µs period, in milliwatts (15 R406, R410, R414): the demand and the
calibrated estimate of links, memory and compute, the fixed domain's estimate, the compute estimate with every station
idle, the power of the dedicated stations at `iso_issue`, and the uncalibrated estimate of each monitored rail. -/
structure PowerSample where
  demand   : List Nat
  estimate : List Nat
  fixed    : Nat
  idle     : Nat
  iso      : Nat
  rails    : List Nat
  deriving DecidableEq, Repr

/-- A domain that a wake makes ready (15 R420, R421). -/
inductive WakeDomain where
  | station (number : Nat)
  | field (number : Nat)
  | device
  deriving DecidableEq, Repr

/-- What wakes the device from SL3 or SL4 (15 R423). -/
inductive WakeSource where
  | light (port : Nat)
  | pattern (port : Nat)
  | ccpFrame (port : Nat)
  deriving DecidableEq, Repr

/-- One CCP frame after decryption (17 Table 17-2), with its priority class and the verdict of its
GCM tag. -/
structure CcpFrame where
  port    : Nat
  cls     : Nat
  ccpVer  : Nat
  ftype   : Nat
  first   : Bool
  last    : Bool
  rsvd    : Nat
  session : Nat
  seq     : Nat
  cmdId   : Nat
  frag    : Nat
  opcode  : Nat
  mailbox : Nat
  status  : Nat
  reason  : Nat
  length  : Nat
  total   : Nat
  bulkOff : Nat
  body    : List Byte
  tagOk   : Bool
  deriving DecidableEq, Repr

/-- One Ethernet frame at the intake (17 R443). `kind` 0 is a UDP datagram, 1 ARP, 2 neighbour discovery, 3 echo,
4 a PFC frame of the link partner, 5 anything else; `pcp` is its class. For a PFC frame `pcp` is the priority it
names and `udpLen` the pause time in quanta (0 ends the pause). -/
structure EthFrame where
  fcsOk   : Bool
  kind    : Nat
  dstMac  : Nat
  vlan    : Nat
  pcp     : Nat
  dstIp   : Nat
  udpPort : Nat
  udpLen  : Nat
  ccp     : CcpFrame
  deriving DecidableEq, Repr

/-- What the key engine finds at boot (19 Table 19-1 steps 3 to 5, R478, R495): the known-answer and TRNG tests, the
two components of the slots, the configuration, and the recovery package and provisioning file of the SD card. -/
structure BootVerdict where
  testsOk     : Bool
  mgmtSlotOk  : Bool
  mgmtOtherOk : Bool
  keSlotOk    : Bool
  keOtherOk   : Bool
  configOk    : Bool
  hssReadable : Bool
  recoverOk   : Bool
  provision   : Option (List (Nat × List Byte))
  deriving DecidableEq, Repr

/-- How a stage ends (19 Table 19-9): done with the image's version, security version and digest, or the failing
step (1 to 5) with, for step 2, whether a record was found. -/
inductive StageResult where
  | done (imgVer secVer digest : Nat)
  | failed (step : Nat) (recordFound : Bool)
  deriving DecidableEq, Repr

/-- The commands of the block. -/
inductive Instr where
  /-- CCP_HELLO (R447). -/
  | ccpHello (port ver : Nat) (role : Role) (tenant keyHash : Nat)
  /-- CCP_FINISH (R447). -/
  | ccpFinish (port session : Nat) (sigOk : Bool)
  /-- CCP_CLOSE (R475). -/
  | ccpClose (c : CcpCmd)
  /-- MBX_DROP (R453). -/
  | mbxDrop (c : CcpCmd)
  /-- ETH_SET (R456). -/
  | ethSet (c : CcpCmd)
  /-- CAPABILITY_QUERY (R474). -/
  | capabilityQuery (c : CcpCmd)
  /-- READY_QUERY (R479). -/
  | readyQuery (c : CcpCmd)
  /-- EXP_TABLE_QUERY (R529). -/
  | expTableQuery (c : CcpCmd)
  /-- DEVICE_RESET_COLD (R481). -/
  | deviceResetCold (c : CcpCmd)
  /-- DEVICE_RESET_MGMT (R481). -/
  | deviceResetMgmt (c : CcpCmd)
  /-- DEVICE_RESET_FIELD (R481). -/
  | deviceResetField (c : CcpCmd)
  /-- DEVICE_RESET_PORT (R481). -/
  | deviceResetPort (c : CcpCmd)
  /-- SPDM_GET_VERSION (R268). -/
  | spdmGetVersion (c : CcpCmd)
  /-- SPDM_GET_CAPABILITIES (R268). -/
  | spdmGetCapabilities (c : CcpCmd)
  /-- SPDM_NEGOTIATE_ALGORITHMS (R268). -/
  | spdmNegotiateAlgorithms (c : CcpCmd)
  /-- SPDM_GET_DIGESTS (R268). -/
  | spdmGetDigests (c : CcpCmd)
  /-- SPDM_GET_CERTIFICATE (R267). -/
  | spdmGetCertificate (c : CcpCmd)
  /-- SPDM_CHALLENGE (R270). -/
  | spdmChallenge (c : CcpCmd)
  /-- SPDM_GET_MEASUREMENTS (R269). -/
  | spdmGetMeasurements (c : CcpCmd)
  /-- TENANT_CREATE (R237). -/
  | tenantCreate (c : CcpCmd)
  /-- TENANT_DELETE (R238). -/
  | tenantDelete (c : CcpCmd)
  /-- TENANT_SESSION_END (R241). -/
  | tenantSessionEnd (c : CcpCmd)
  /-- TENANT_EVICT (R240). -/
  | tenantEvict (c : CcpCmd)
  /-- KEY_ROTATE (R250). -/
  | keyRotate (c : CcpCmd)
  /-- ADMIT (R255). -/
  | admitIdentity (c : CcpCmd)
  /-- ADMIT_WITHDRAW (R255). -/
  | admitWithdraw (c : CcpCmd)
  /-- SET_LOAD (R260). -/
  | setLoad (c : CcpCmd) (sigOk : Bool)
  /-- SET_DELETE (R261). -/
  | setDelete (c : CcpCmd)
  /-- WEIGHT_IMPORT_BEGIN (R263). -/
  | weightImportBegin (c : CcpCmd) (unwrapOk : Bool)
  /-- WEIGHT_IMPORT_END (R264). -/
  | weightImportEnd (c : CcpCmd)
  /-- WEIGHT_IMPORT_BIND (R472). -/
  | weightImportBind (c : CcpCmd)
  /-- RESERVE_SET (R153). -/
  | reserveSet (c : CcpCmd)
  /-- CAPACITY_QUERY (R155). -/
  | capacityQuery (c : CcpCmd)
  /-- SPACE_CREATE (R211). -/
  | spaceCreate (c : CcpCmd)
  /-- SPACE_DELETE (R213). -/
  | spaceDelete (c : CcpCmd)
  /-- EXTENT_CREATE (R156). -/
  | extentCreate (c : CcpCmd)
  /-- EXTENT_ENABLE (R157). -/
  | extentEnable (c : CcpCmd)
  /-- EXTENT_DELETE (R182). -/
  | extentDelete (c : CcpCmd)
  /-- EXTENT_QUERY (R161). -/
  | extentQuery (c : CcpCmd)
  /-- EXTENT_RECLAIM (R181). -/
  | extentReclaim (c : CcpCmd)
  /-- EXTENT_MAP (R216). -/
  | extentMap (c : CcpCmd)
  /-- EXTENT_UNMAP (R218). -/
  | extentUnmap (c : CcpCmd)
  /-- L2_PARTITION (R232). -/
  | l2Partition (c : CcpCmd)
  /-- COMMON_CREATE (R185). -/
  | commonCreate (c : CcpCmd)
  /-- COMMON_ENABLE (R186). -/
  | commonEnable (c : CcpCmd)
  /-- COMMON_DELETE (R187). -/
  | commonDelete (c : CcpCmd)
  /-- DIR_PARTITION (R196). -/
  | dirPartition (c : CcpCmd)
  /-- STREAM_CREATE (R33). -/
  | streamCreate (c : CcpCmd)
  /-- STREAM_CLOSE_CCP (R48). -/
  | streamCloseCcp (c : CcpCmd)
  /-- STREAM_ABORT_CCP (R50). -/
  | streamAbortCcp (c : CcpCmd)
  /-- STREAM_PRIORITY (R394). -/
  | streamPriority (c : CcpCmd)
  /-- FORMAT_LOAD (R66). -/
  | formatLoad (c : CcpCmd)
  /-- VECTOR_PROG_LOAD (R80). -/
  | vectorProgLoad (c : CcpCmd)
  /-- WINDOW_CREATE (R99). -/
  | windowCreate (c : CcpCmd)
  /-- WINDOW_ENABLE (R103). -/
  | windowEnable (c : CcpCmd)
  /-- WINDOW_ABORT (R119). -/
  | windowAbort (c : CcpCmd)
  /-- WINDOW_RETIRE (R121). -/
  | windowRetire (c : CcpCmd)
  /-- WINDOW_DELETE (R118). -/
  | windowDelete (c : CcpCmd)
  /-- WINDOW_QUERY (R123). -/
  | windowQuery (c : CcpCmd)
  /-- SEQ_CREATE (R124). -/
  | seqCreate (c : CcpCmd)
  /-- SEQ_ENABLE (R129). -/
  | seqEnable (c : CcpCmd)
  /-- SEQ_TRUNCATE (R128). -/
  | seqTruncate (c : CcpCmd)
  /-- SEQ_DISABLE (R127). -/
  | seqDisable (c : CcpCmd)
  /-- SEQ_DELETE (R127). -/
  | seqDelete (c : CcpCmd)
  /-- SEQ_QUERY (R130). -/
  | seqQuery (c : CcpCmd)
  /-- PORT_SET (R346). -/
  | portSet (c : CcpCmd)
  /-- PORT_QUERY (R346). -/
  | portQuery (c : CcpCmd)
  /-- ROUTE_SET (R370). -/
  | routeSet (c : CcpCmd)
  /-- ROUTE_EPOCH (R370). -/
  | routeEpoch (c : CcpCmd)
  /-- ROUTE_QUERY (R370). -/
  | routeQuery (c : CcpCmd)
  /-- MCAST_SET (R372). -/
  | mcastSet (c : CcpCmd)
  /-- POLICE_SET_METER (R386). -/
  | policeSetMeter (c : CcpCmd)
  /-- POLICE_SET_PROFILE (R386). -/
  | policeSetProfile (c : CcpCmd)
  /-- SCHED_SET (R387). -/
  | schedSet (c : CcpCmd)
  /-- ARB_SET (R393). -/
  | arbSet (c : CcpCmd)
  /-- ISOLATE_SET_ENABLE (R395). -/
  | isolateSetEnable (c : CcpCmd)
  /-- ISOLATE_SET_DISABLE (R395). -/
  | isolateSetDisable (c : CcpCmd)
  /-- CADENCE_SET (R146). -/
  | cadenceSet (c : CcpCmd)
  /-- HIST_QUERY (R401). -/
  | histQuery (c : CcpCmd)
  /-- POWER_SET (R409). -/
  | powerSet (c : CcpCmd)
  /-- POWER_QUERY (R409). -/
  | powerQuery (c : CcpCmd)
  /-- SLEEP_SET (R422). -/
  | sleepSet (c : CcpCmd)
  /-- SLEEP_ENTER_SL3 (R422). -/
  | sleepEnterSl3 (c : CcpCmd)
  /-- SLEEP_ENTER_SL4 (R422). -/
  | sleepEnterSl4 (c : CcpCmd)
  /-- SLEEP_ENTER_WAKE (R422). -/
  | sleepEnterWake (c : CcpCmd)
  /-- PAIR_SET_ENABLE (R425). -/
  | pairSetEnable (c : CcpCmd)
  /-- PAIR_SET_DISABLE (R425). -/
  | pairSetDisable (c : CcpCmd)
  /-- PAIR_QUERY (R425). -/
  | pairQuery (c : CcpCmd)
  /-- FW_STAGE (R487). -/
  | fwStage (c : CcpCmd)
  /-- FW_ACTIVATE_MGMT (R490). -/
  | fwActivateMgmt (c : CcpCmd)
  /-- FW_ACTIVATE_KE (R490). -/
  | fwActivateKe (c : CcpCmd)
  /-- FW_ACTIVATE_BOTH (R490). -/
  | fwActivateBoth (c : CcpCmd)
  /-- FW_ACTIVATE_COMMIT_SEC (R490). -/
  | fwActivateCommitSec (c : CcpCmd)
  /-- FW_QUERY (R493). -/
  | fwQuery (c : CcpCmd)
  /-- CONFIG_SET (R494). -/
  | configSet (c : CcpCmd)
  /-- CONFIG_QUERY (R494). -/
  | configQuery (c : CcpCmd)
  /-- DEBUG_UNLOCK (R236). -/
  | debugUnlock (c : CcpCmd) (sigOk nameOk : Bool)
  /-- EVENT_READ (R506). -/
  | eventRead (c : CcpCmd)
  /-- STATS_QUERY (R507). -/
  | statsQuery (c : CcpCmd)
  /-- MEM_ERR_LOG (R309). -/
  | memErrLog (c : CcpCmd)
  /-- MOW_SET (R312). -/
  | mowSet (c : CcpCmd)
  /-- CHECKER_TEST_ARM (R313). -/
  | checkerTestArm (c : CcpCmd)
  /-- CHECKER_TEST_WRITE (R313). -/
  | checkerTestWrite (c : CcpCmd)
  /-- CHECKER_TEST_READ (R313). -/
  | checkerTestRead (c : CcpCmd)
  /-- CHECKER_TEST_RELEASE (R313). -/
  | checkerTestRelease (c : CcpCmd)
  /-- RANK_RETIRE_NOW (R320). -/
  | rankRetireNow (c : CcpCmd)
  /-- RANK_RETIRE_CLEAR (R320). -/
  | rankRetireClear (c : CcpCmd)
  /-- STACK_DIAG_READ (R473). -/
  | stackDiagRead (c : CcpCmd)
  /-- STACK_DIAG_RUN (R473). -/
  | stackDiagRun (c : CcpCmd)
  /-- STACK_DIAG_READ_CLEAR (R473). -/
  | stackDiagReadClear (c : CcpCmd)
  /-- BULK_OPEN (R457). -/
  | bulkOpen (c : CcpCmd)
  /-- BULK_CLOSE (R457). -/
  | bulkClose (c : CcpCmd)
  /-- BULK_STATUS (R459). -/
  | bulkStatus (c : CcpCmd)
  /-- STREAM_OPEN (R33). -/
  | streamOpen (p : Packet)
  /-- STREAM_CLOSE (R47). -/
  | streamClose (p : Packet)
  /-- STREAM_ABORT (R50). -/
  | streamAbort (p : Packet)
  /-- TILE (R52). -/
  | tile (p : Packet)
  /-- RESULT_READ (R116). -/
  | resultRead (p : Packet)
  /-- PAGE_FETCH (R164). -/
  | pageFetch (p : Packet)
  /-- PAGE_STORE (R164). -/
  | pageStore (p : Packet)
  /-- PAGE_CHECKOUT (R168). -/
  | pageCheckout (p : Packet)
  /-- PAGE_CHECKIN (R168). -/
  | pageCheckin (p : Packet)
  /-- VERSION_OPEN (R173). -/
  | versionOpen (p : Packet)
  /-- VERSION_DRAFT (R173). -/
  | versionDraft (p : Packet)
  /-- VERSION_CLOSE (R177). -/
  | versionClose (p : Packet)
  /-- VERSION_COMMIT (R176). -/
  | versionCommit (p : Packet)
  /-- VERSION_DISCARD (R177). -/
  | versionDiscard (p : Packet)
  /-- LINE_READ_S (R199). -/
  | lineReadS (p : Packet)
  /-- LINE_READ_X (R199). -/
  | lineReadX (p : Packet)
  /-- LINE_UPGRADE (R199). -/
  | lineUpgrade (p : Packet)
  /-- LINE_WRITEBACK (R199). -/
  | lineWriteback (p : Packet)
  /-- FETCH_ADD (R202). -/
  | fetchAdd (p : Packet)
  /-- FETCH_FADDX (R203). -/
  | fetchFaddx (p : Packet)
  /-- CAS (R202). -/
  | cas (p : Packet)
  /-- SWAP (R202). -/
  | swap (p : Packet)
  /-- FETCH_MIN (R202). -/
  | fetchMin (p : Packet)
  /-- FETCH_MAX (R202). -/
  | fetchMax (p : Packet)
  /-- FETCH_UMIN (R202). -/
  | fetchUmin (p : Packet)
  /-- FETCH_UMAX (R202). -/
  | fetchUmax (p : Packet)
  /-- BARRIER_ARRIVE (R205). -/
  | barrierArrive (p : Packet)
  /-- LOCK_ACQUIRE (R206). -/
  | lockAcquire (p : Packet)
  /-- LOCK_RELEASE (R206). -/
  | lockRelease (p : Packet)
  /-- SNP_DATA (R190). -/
  | snpData (p : Packet)
  /-- SNP_CLEAN (R190). -/
  | snpClean (p : Packet)
  /-- SNP_NOT_PRESENT (R193). -/
  | snpNotPresent (p : Packet)
  /-- COMPLETION (R353). -/
  | completion (p : Packet)
  /-- LINK_SESSION_OPEN (R256). -/
  | linkSessionOpen (p : Packet) (o : LinkOpen)
  /-- LINK_SESSION_CLOSE (R257). -/
  | linkSessionClose (p : Packet)
  /-- MCAST_WRITE (R373). -/
  | mcastWrite (p : Packet)
  /-- PACKET_FORWARD (R376). -/
  | packetForward (opcode : Nat) (p : Packet)
  /-- PAIR_MIRROR (R433). -/
  | pairMirror (p : Packet) (m : MirrorMsg)
  /-- PAIR_META (R433). -/
  | pairMeta (p : Packet) (term : Nat) (r : PairRec)
  /-- PAIR_BEAT (R428). -/
  | pairBeat (p : Packet) (term : Nat) (info : PeerInfo)
  /-- PAIR_FETCH (R302). -/
  | pairFetch (p : Packet) (term extent offset : Nat)
  /-- PAIR_COPY (R440). -/
  | pairCopy (p : Packet) (term extent offset : Nat) (data : List Byte)
  /-- PAIR_FENCE (R428). -/
  | pairFence (p : Packet) (term : Nat)
  /-- LEASE_COMPLETION (R429). -/
  | leaseCompletion (p : Packet) (sigOk : Bool)
  /-- LEASE_RENEW_TIMER (R431). -/
  | leaseRenewTimer
  /-- LEASE_LAPSE (R428). -/
  | leaseLapse
  /-- PAIR_SILENCE (R428). -/
  | pairSilence
  /-- PAIR_BEAT_SEND (R432). -/
  | pairBeatSend
  /-- MIRROR_TIMEOUT (R434). -/
  | mirrorTimeout (tag : Nat)
  /-- PAIR_PEER_WAIT_EXPIRY (R428). -/
  | pairPeerWaitExpiry
  /-- RESYNC_COPY_DONE (R440). -/
  | resyncCopyDone
  /-- PORT_LIGHT_DETECT (R341). -/
  | portLightDetect (port : Nat)
  /-- PORT_TRAINING_DONE (R325). -/
  | portTrainingDone (port tNs : Nat)
  /-- PORT_TRAINING_TIMEOUT (R341). -/
  | portTrainingTimeout (port : Nat)
  /-- PS_HELLO (R338). -/
  | psHello (port peerHash : Nat) (chain : Chain)
  /-- PS_KEM (R338). -/
  | psKem (port : Nat) (chain : Chain)
  /-- PS_FINISH (R338). -/
  | psFinish (port : Nat) (sigOk : Bool)
  /-- LINK_PARAMS (R331). -/
  | linkParams (port : Nat) (buffers : List Nat)
  /-- PORT_SESSION_TIMEOUT (R341). -/
  | portSessionTimeout (port : Nat)
  /-- DATA_FLIT_RX (R334). -/
  | dataFlitRx (port : Nat) (f : Flit)
  /-- IDLE_FLIT_RX (R328). -/
  | idleFlitRx (port : Nat) (f : Flit)
  /-- FLIT_SEND (R332). -/
  | flitSend (port : Nat)
  /-- ACK_TIMER_EXPIRY (R335). -/
  | ackTimerExpiry (port : Nat)
  /-- REPLAY_TIMEOUT (R336). -/
  | replayTimeout (port : Nat)
  /-- RETRAIN_DONE (R341). -/
  | retrainDone (port : Nat)
  /-- RETRAIN_TIMEOUT (R337). -/
  | retrainTimeout (port : Nat)
  /-- REKEY_START (R340). -/
  | rekeyStart (port : Nat)
  /-- KEY_NEXT (R340). -/
  | keyNext (port : Nat)
  /-- KEY_NEXT_KEM (R340). -/
  | keyNextKem (port : Nat)
  /-- DOWN_NOTICE (R341). -/
  | downNotice (port reason : Nat)
  /-- DOWN_PATTERN_RX (R341). -/
  | downPatternRx (port : Nat)
  /-- ALIGNMENT_LOSS (R341). -/
  | alignmentLoss (port : Nat)
  /-- LASER_FAULT_ALARM (R324). -/
  | laserFaultAlarm (engine : Nat)
  /-- LASER_LIGHT_LOSS (R324). -/
  | laserLightLoss (engine fibre : Nat)
  /-- PORT_DOWN_HOLD_EXPIRY (R341). -/
  | portDownHoldExpiry (port : Nat)
  /-- OUTSTANDING_ENTRY_EXPIRY (R343). -/
  | outstandingEntryExpiry (port src tag tgen : Nat)
  /-- PACKET_AGE_OUT (R375). -/
  | packetAgeOut (id : Nat)
  /-- FENCE_HOLD_AGE_OUT (R361). -/
  | fenceHoldAgeOut (src tag : Nat)
  /-- ESCAPE_WAIT_EXPIRY (R365). -/
  | escapeWaitExpiry (id : Nat)
  /-- REACHABILITY_TIMEOUT (R358). -/
  | reachabilityTimeout (node : Nat)
  /-- BANK_QUIET (R369). -/
  | bankQuiet (bank : Nat)
  /-- TILE_STEP_END (R18). -/
  | tileStepEnd (station stream index cycles : Nat) (check : StepCheck)
  /-- STEP_WATCHDOG_EXPIRY (R17). -/
  | stepWatchdogExpiry (station : Nat)
  /-- FENCE_STATE_MOVED (R19). -/
  | fenceStateMoved (station : Nat) (lost : List (Nat × Nat))
  /-- TILE_FINAL_WRITE_DONE (R53). -/
  | tileFinalWriteDone (stream index : Nat)
  /-- EXTENT_TILE_ISSUE (R59). -/
  | extentTileIssue (stream : Nat)
  /-- STREAM_IDLE_TIMEOUT (R47). -/
  | streamIdleTimeout (stream : Nat)
  /-- STREAM_RELEASE_TIMEOUT (R47). -/
  | streamReleaseTimeout (stream : Nat)
  /-- LEDGER_CONTRIBUTION (R107). -/
  | ledgerContribution (stream index : Nat)
  /-- LEDGER_FINAL_WRITE_DONE (R110). -/
  | ledgerFinalWriteDone (window ltile : Nat)
  /-- WINDOW_IDLE_TIMEOUT (R118). -/
  | windowIdleTimeout (window : Nat)
  /-- QUERY_SCORE_RELEASE (R138). -/
  | queryScoreRelease (stream index : Nat)
  /-- SPLIT_FINISH (R144). -/
  | splitFinish (stream index split : Nat)
  /-- SEQ_HOLD_RELEASE (R127). -/
  | seqHoldRelease (context : Nat)
  /-- CADENCE_PERIOD_END (R148). -/
  | cadencePeriodEnd (cls : Nat)
  /-- RECALL_TIMEOUT (R170). -/
  | recallTimeout (extent page : Nat)
  /-- DRAFT_WRITES_DRAINED (R176). -/
  | draftWritesDrained (extent : Nat)
  /-- REFUSAL_MARK_IN_FORCE (R182). -/
  | refusalMarkInForce (m : MarkOf)
  /-- RANGE_INVALIDATION_ACK (R230). -/
  | rangeInvalidationAck (inval engine : Nat)
  /-- REVOCATION_SLOW_EXPIRY (R183). -/
  | revocationSlowExpiry (inval : Nat)
  /-- GRANULE_ZEROED (R184). -/
  | granuleZeroed (granule : Nat)
  /-- SNOOP_TIMEOUT (R207). -/
  | snoopTimeout (line node : Nat)
  /-- WRITEBACK_RECORD_EXPIRY (R191). -/
  | writebackRecordExpiry (line node : Nat)
  /-- LOST_HOLDER_SWEEP (R207). -/
  | lostHolderSweep (line : Nat)
  /-- IDENT_INVALIDATION_IN_FORCE (R228). -/
  | identInvalidationInForce (asid : Nat)
  /-- TRANSLATION_WALK_DONE (R219). -/
  | translationWalkDone (engine asid va : Nat)
  /-- POPULATION_DONE (R227). -/
  | populationDone (asid granule : Nat)
  /-- POPULATION_WAIT_EXPIRY (R226). -/
  | populationWaitExpiry (src tag : Nat)
  /-- KEY_SLOT_ERASE (R241). -/
  | keySlotErase (tenant : Nat)
  /-- SESSION_END_SLOW_EXPIRY (R241). -/
  | sessionEndSlowExpiry (tenant : Nat)
  /-- ROTATION_REWRITE_DONE (R250). -/
  | rotationRewriteDone (tenant : Nat)
  /-- WEIGHT_CHUNK (R263). -/
  | weightChunk (extent : Nat) (plain : List Byte) (tagOk : Bool)
  /-- SESSION_ID_BAR_EXPIRY (R257). -/
  | sessionIdBarExpiry (id : Nat)
  /-- SECTOR_READ_DONE (R300). -/
  | sectorReadDone (stack sector : Nat) (e1 e2 : ReadErr)
  /-- SECTOR_WRITE_DONE (R299). -/
  | sectorWriteDone (stack sector offset : Nat) (data : List Byte)
  /-- CA_PARITY_ERROR (R279). -/
  | caParityError (stack rank : Nat)
  /-- ACCESS_AGE_LIMIT (R278). -/
  | accessAgeLimit (stack pch : Nat)
  /-- REFRESH_DUE (R283). -/
  | refreshDue (stack pch rank bank : Nat)
  /-- STACK_TEMPERATURE_READ (R283). -/
  | stackTemperatureRead (stack : Nat) (celsius : Int)
  /-- STACK_SELF_REFRESH_ENTRY (R286). -/
  | stackSelfRefreshEntry (stack : Nat)
  /-- STACK_SELF_REFRESH_EXIT (R286). -/
  | stackSelfRefreshExit (stack : Nat) (celsius : Int)
  /-- TRAINING_STEP_DONE (R288). -/
  | trainingStepDone (stack : Nat) (passed : Bool) (pins : Nat)
  /-- STACK_INIT_DONE (R305). -/
  | stackInitDone (stack : Nat)
  /-- PGEN_RUN_DONE (R287). -/
  | pgenRunDone (stack pch : Nat) (mismatches : List Nat)
  /-- READ_TRACKING (R291). -/
  | readTracking (stack pch : Nat) (eyes : List PinEye)
  /-- RETRAIN_SLICE_TIMER (R292). -/
  | retrainSliceTimer (stack pch : Nat) (starts passed : Bool) (eyes : List PinEye)
  /-- MOW_READ (R310). -/
  | mowRead (stack : Nat) (e1 e2 : ReadErr)
  /-- MIRROR_FETCH_TIMEOUT (R302). -/
  | mirrorFetchTimeout (stack sector : Nat)
  /-- RANK_ERROR_WINDOW_END (R315). -/
  | rankErrorWindowEnd
  /-- MIGRATION_GRANULE_COPIED (R318). -/
  | migrationGranuleCopied (errors : List (Nat × Nat))
  /-- POLICE_REFILL (R383). -/
  | policeRefill
  /-- HIST_DEPTH_SAMPLE (R400). -/
  | histDepthSample
  /-- POWER_PERIOD (R410). -/
  | powerPeriod (m : PowerSample)
  /-- LINK_POWER_DECISION (R412). -/
  | linkPowerDecision (estimate : Nat)
  /-- PMBUS_TELEMETRY (R407). -/
  | pmbusTelemetry (milliwatts : List (Option Nat))
  /-- STATION_CEILING_UPDATE (R416). -/
  | stationCeilingUpdate (station used : Nat)
  /-- DROOP_TRIP (R417). -/
  | droopTrip (field : Nat)
  /-- DROOP_CLAMP_LIFT (R417). -/
  | droopClampLift
  /-- DROOP_WINDOW_END (R417). -/
  | droopWindowEnd
  /-- THERMAL_READING (R418). -/
  | thermalReading (celsius : Int)
  /-- PLL_LOCK (R404). -/
  | pllLock
  /-- REGULATOR_VDONE (R405). -/
  | regulatorVdone
  /-- REGULATOR_ACK_TIMEOUT (R405). -/
  | regulatorAckTimeout
  /-- STATION_SL1_IDLE (R420). -/
  | stationSl1Idle (station : Nat)
  /-- FIELD_SL2_IDLE (R420). -/
  | fieldSl2Idle (field : Nat)
  /-- DOMAIN_WAKE_READY (R421). -/
  | domainWakeReady (d : WakeDomain)
  /-- WAKE_EVENT (R423). -/
  | wakeEvent (w : WakeSource)
  /-- ETH_FRAME_RX (R443). -/
  | ethFrameRx (port : Nat) (f : EthFrame)
  /-- INTAKE_FIFO_READ (R454). -/
  | intakeFifoRead (port : Nat)
  /-- CCP_FRAGMENT (R450). -/
  | ccpFragment (f : CcpFrame)
  /-- BULK_FRAME (R458). -/
  | bulkFrame (f : CcpFrame)
  /-- PFC_REPEAT_TIMER (R455). -/
  | pfcRepeatTimer (port : Nat)
  /-- PFC_PAUSE_EXPIRY (R462). -/
  | pfcPauseExpiry (session cmdId : Nat)
  /-- HANDSHAKE_TIMEOUT (R462). -/
  | handshakeTimeout (session : Nat)
  /-- FRAGMENT_TIMEOUT (R462). -/
  | fragmentTimeout (mailbox : Nat)
  /-- BULK_CHANNEL_IDLE (R457). -/
  | bulkChannelIdle (channel : Nat)
  /-- CCP_SESSION_IDLE (R448). -/
  | ccpSessionIdle (session : Nat)
  /-- EVENT_NOTICE_SEND (R465). -/
  | eventNoticeSend (session : Nat)
  /-- RESET_N_ASSERT (R517). -/
  | resetNAssert
  /-- COLD_BOOT (R477). -/
  | coldBoot (initMode : Bool)
  /-- KEY_ENGINE_BOOT_DONE (R477). -/
  | keyEngineBootDone (v : BootVerdict)
  /-- MGMT_START (R477). -/
  | mgmtStart
  /-- STATION_TEST_DONE (R14). -/
  | stationTestDone (field passMask : Nat)
  /-- FIELD_RESET_DONE (R20). -/
  | fieldResetDone (field passMask : Nat)
  /-- ETH_LINK_UP (R442). -/
  | ethLinkUp (port : Nat)
  /-- MGMT_WATCHDOG_EXPIRY (R482). -/
  | mgmtWatchdogExpiry (core : Nat)
  /-- MGMT_RESTART_DONE (R482). -/
  | mgmtRestartDone
  /-- KEY_ENGINE_WATCHDOG (R500). -/
  | keyEngineWatchdog
  /-- REFCLK_LOSS (R26). -/
  | refclkLoss
  /-- VDD_AON_LOSS (R517). -/
  | vddAonLoss
  /-- FW_STAGE_DONE (R488). -/
  | fwStageDone (r : StageResult)
  /-- FW_STAGE_TIMEOUT (R487). -/
  | fwStageTimeout
  /-- MGMT_RUNNING_REPORT (R492). -/
  | mgmtRunningReport
  /-- FW_TRIAL_TIMEOUT (R492). -/
  | fwTrialTimeout
  /-- KE_ACTIVATION_DONE (R491). -/
  | keActivationDone
  /-- SD_CARD_REMOVAL (R524). -/
  | sdCardRemoval
  /-- PMB_ALERT_EDGE (R522). -/
  | pmbAlertEdge
  /-- PMBUS_CLOCK_TIMEOUT (R522). -/
  | pmbusClockTimeout (rail : Nat)
  /-- LEASE_CLAIM_RETRY (R431). -/
  | leaseClaimRetry
  /-- ETH_LINK_DOWN (R479). -/
  | ethLinkDown (port : Nat)
  deriving DecidableEq, Repr

end Sys2Proof
end

