-- ==== Sys2Proof/WellFormed.lean ====
section
/-! DEFINITION. WellFormed.lean: which commands name things the block has: every operand inside the width or the
range the spec gives it (00 Table 0-1, 12 Table 12-3, 13 Table 13-1, 17 Table 17-2), and, where several rows share one
CCP opcode or one KFP opcode, the field that tells them apart holding the row's value. -/

namespace Sys2Proof

/-- A CCP command's numbers lie in their fields, and the block has no bit beyond `total` bytes (17 Table 17-2). -/
def CcpCmd.wf (c : CcpCmd) : Bool :=
  c.port < 2 && c.cls < 8 && c.session < 65536 && c.cmdId < 65536 && c.total ≤ 524288 && c.block < 2 ^ (8 * c.total)

/-- A packet's header fields lie in their widths and its payload has at most 65,552 bytes (13 R348). -/
def Packet.wf (p : Packet) : Bool :=
  p.port < 64 && p.hdrVer < 16 && p.dst < 65536 && p.src < 65536 && p.tag < 4096 && p.tgen < 16 &&
  p.ngen < 16 && p.fnum < 16 && p.prior < 4096 && p.session < 65536 && p.age < 65536 && p.status < 256 &&
  p.epoch < 2 && p.length ≤ 65552 && p.address < 2 ^ 48 && p.payload.length == p.length

/-- A further root's entry has 256 bytes (19 Table 19-13). -/
def Chain.wf : Chain → Bool
  | .further e => e < 2 ^ 2048
  | _ => true

/-- LINK_SESSION_OPEN's fields (09 R256). -/
def LinkOpen.wf (o : LinkOpen) : Bool :=
  o.tenant < 65536 && o.gen < 16 && o.nonce < 2 ^ 256 && o.certs.length ≤ 65536 && o.identity < 2 ^ 384 && o.chain.wf

/-- Each write of a PAIR_MIRROR stays in a sector (16 Table 16-5). -/
def MirrorMsg.wf (m : MirrorMsg) : Bool :=
  m.term < 2 ^ 32 && m.extent < 65536 && m.writes.all fun w => w.1 % 256 + w.2.length ≤ 256

/-- A metadata record's block fits the longest block its kind has (18 Table 18-6). -/
def PairRec.wf : PairRec → Bool
  | .extent n t b _ _ => n < 65536 && t < 65536 && b < 2 ^ 256
  | .window n t b _ _ => n < 4096 && t < 65536 && b < 2 ^ 512
  | .context n t b _ _ _ => n < 4096 && t < 65536 && b < 2 ^ 512
  | .space a t b => a < 4096 && t < 65536 && b < 2 ^ 256
  | _ => true

/-- The peer's identity hash has 384 bits (16 R425). -/
def PeerInfo.wf (i : PeerInfo) : Bool := i.identity < 2 ^ 384 && i.pairId < 65536 && i.secVer < 32

/-- A flit's header fields lie in their widths (12 Table 12-3). -/
def Flit.wf (f : Flit) : Bool :=
  f.seq < 4096 && f.ackSeq < 4096 && f.keyPhase < 2 && f.ftype < 4 && f.vc < 8 && f.payLenM1 < 256 &&
  f.creditVc < 8 && f.creditTotal < 2048 && f.txNum < 256 && f.idleCount < 2 ^ 63 && f.payload.length ≤ 232

/-- A mark stands on an object in range (06 R182, 08 R218, 09 R241). -/
def MarkOf.wf : MarkOf → Bool
  | .extent n => n < 65536
  | .mapping a v => a < 4096 && v < 2 ^ 48
  | .tenant n => n < 65536

/-- Every raw error names a burst, a pin and a symbol error of a sector (11 Table 11-1). -/
def rawErrWf (e : RawErr) : Bool := e.all fun x => x.1 < 8 && x.2.1 < 36 && x.2.2 < 256

/-- What one read meets lies in its fields: an on-die report is one of three. -/
def ReadErr.wf (e : ReadErr) : Bool := rawErrWf e.sym && e.onDie < 3

/-- One value for links, memory and compute each (15 R406). -/
def PowerSample.wf (m : PowerSample) : Bool := m.demand.length == 3 && m.estimate.length == 3 && m.rails.length ≤ 8

/-- A domain of the device (15 R420). -/
def WakeDomain.wf : WakeDomain → Bool
  | .station n => n < 144
  | .field n => n < 16
  | .device => true

/-- A port of the device (15 R423). -/
def WakeSource.wf : WakeSource → Bool
  | .light p => p < 64
  | .pattern p => p < 64
  | .ccpFrame p => p < 2

/-- A CCP frame's header fields lie in their widths (17 Table 17-2). -/
def CcpFrame.wf (f : CcpFrame) : Bool :=
  f.port < 2 && f.cls < 8 && f.ccpVer < 16 && f.ftype < 16 && f.session < 65536 && f.seq < 2 ^ 32 && f.cmdId < 65536 &&
  f.frag < 65536 && f.opcode < 65536 && f.length < 65536 && f.total < 2 ^ 32 && f.bulkOff < 2 ^ 64

/-- An Ethernet frame's class and VLAN lie in their fields (17 R442). -/
def EthFrame.wf (f : EthFrame) : Bool := f.pcp < 8 && f.vlan < 4096 && f.udpPort < 65536 && f.ccp.wf

/-- A stage ends with an image of the header's widths, or at one of the steps 1 to 5 (19 Tables 19-7, 19-9). -/
def StageResult.wf : StageResult → Bool
  | .done i v d => i < 2 ^ 24 && v < 32 && d < 2 ^ 384
  | .failed n _ => 1 ≤ n && n ≤ 5

/-- The well-formedness of a command. -/
def Instr.wf : Instr → Bool
  | .ccpHello port ver _ tenant keyHash => port < 2 && (1 ≤ ver && ver ≤ 3) && tenant < 65536 && keyHash < 2 ^ 384
  | .ccpFinish port session _ => port < 2 && session < 65536
  | .ccpClose c => c.wf
  | .mbxDrop c => c.wf
  | .ethSet c => c.wf
  | .capabilityQuery c => c.wf
  | .readyQuery c => c.wf
  | .expTableQuery c => c.wf
  | .deviceResetCold c => c.wf && c.block / 2 ^ 0 % 2 ^ 2 == 0
  | .deviceResetMgmt c => c.wf && c.block / 2 ^ 0 % 2 ^ 2 == 1
  | .deviceResetField c => c.wf && c.block / 2 ^ 0 % 2 ^ 2 == 2
  | .deviceResetPort c => c.wf && c.block / 2 ^ 0 % 2 ^ 2 == 3
  | .spdmGetVersion c => c.wf && c.block / 2 ^ 8 % 2 ^ 8 == 132
  | .spdmGetCapabilities c => c.wf && c.block / 2 ^ 8 % 2 ^ 8 == 225
  | .spdmNegotiateAlgorithms c => c.wf && c.block / 2 ^ 8 % 2 ^ 8 == 227
  | .spdmGetDigests c => c.wf && c.block / 2 ^ 8 % 2 ^ 8 == 129
  | .spdmGetCertificate c => c.wf && c.block / 2 ^ 8 % 2 ^ 8 == 130
  | .spdmChallenge c => c.wf && c.block / 2 ^ 8 % 2 ^ 8 == 131
  | .spdmGetMeasurements c => c.wf && c.block / 2 ^ 8 % 2 ^ 8 == 224
  | .tenantCreate c => c.wf
  | .tenantDelete c => c.wf
  | .tenantSessionEnd c => c.wf
  | .tenantEvict c => c.wf
  | .keyRotate c => c.wf
  | .admitIdentity c => c.wf && c.block / 2 ^ 0 % 2 ^ 1 == 1
  | .admitWithdraw c => c.wf && c.block / 2 ^ 0 % 2 ^ 1 == 0
  | .setLoad c _ => c.wf
  | .setDelete c => c.wf
  | .weightImportBegin c _ => c.wf
  | .weightImportEnd c => c.wf
  | .weightImportBind c => c.wf
  | .reserveSet c => c.wf
  | .capacityQuery c => c.wf
  | .spaceCreate c => c.wf
  | .spaceDelete c => c.wf
  | .extentCreate c => c.wf
  | .extentEnable c => c.wf
  | .extentDelete c => c.wf
  | .extentQuery c => c.wf
  | .extentReclaim c => c.wf
  | .extentMap c => c.wf
  | .extentUnmap c => c.wf
  | .l2Partition c => c.wf
  | .commonCreate c => c.wf
  | .commonEnable c => c.wf
  | .commonDelete c => c.wf
  | .dirPartition c => c.wf
  | .streamCreate c => c.wf
  | .streamCloseCcp c => c.wf
  | .streamAbortCcp c => c.wf
  | .streamPriority c => c.wf
  | .formatLoad c => c.wf
  | .vectorProgLoad c => c.wf
  | .windowCreate c => c.wf
  | .windowEnable c => c.wf
  | .windowAbort c => c.wf
  | .windowRetire c => c.wf
  | .windowDelete c => c.wf
  | .windowQuery c => c.wf
  | .seqCreate c => c.wf
  | .seqEnable c => c.wf
  | .seqTruncate c => c.wf
  | .seqDisable c => c.wf
  | .seqDelete c => c.wf
  | .seqQuery c => c.wf
  | .portSet c => c.wf
  | .portQuery c => c.wf
  | .routeSet c => c.wf
  | .routeEpoch c => c.wf
  | .routeQuery c => c.wf
  | .mcastSet c => c.wf
  | .policeSetMeter c => c.wf && c.block / 2 ^ 16 % 2 ^ 1 == 0
  | .policeSetProfile c => c.wf && c.block / 2 ^ 16 % 2 ^ 1 == 1
  | .schedSet c => c.wf
  | .arbSet c => c.wf
  | .isolateSetEnable c => c.wf && c.block / 2 ^ 0 % 2 ^ 1 == 1
  | .isolateSetDisable c => c.wf && c.block / 2 ^ 0 % 2 ^ 1 == 0
  | .cadenceSet c => c.wf
  | .histQuery c => c.wf
  | .powerSet c => c.wf
  | .powerQuery c => c.wf
  | .sleepSet c => c.wf
  | .sleepEnterSl3 c => c.wf && c.block / 2 ^ 0 % 2 ^ 3 == 3
  | .sleepEnterSl4 c => c.wf && c.block / 2 ^ 0 % 2 ^ 3 == 4
  | .sleepEnterWake c => c.wf && c.block / 2 ^ 0 % 2 ^ 3 == 0
  | .pairSetEnable c => c.wf && c.block / 2 ^ 0 % 2 ^ 1 == 1
  | .pairSetDisable c => c.wf && c.block / 2 ^ 0 % 2 ^ 1 == 0
  | .pairQuery c => c.wf
  | .fwStage c => c.wf
  | .fwActivateMgmt c => c.wf && c.block / 2 ^ 0 % 2 ^ 2 == 0
  | .fwActivateKe c => c.wf && c.block / 2 ^ 0 % 2 ^ 2 == 1
  | .fwActivateBoth c => c.wf && c.block / 2 ^ 0 % 2 ^ 2 == 2
  | .fwActivateCommitSec c => c.wf && c.block / 2 ^ 0 % 2 ^ 2 == 3
  | .fwQuery c => c.wf
  | .configSet c => c.wf
  | .configQuery c => c.wf
  | .debugUnlock c _ _ => c.wf
  | .eventRead c => c.wf
  | .statsQuery c => c.wf
  | .memErrLog c => c.wf
  | .mowSet c => c.wf
  | .checkerTestArm c => c.wf && c.block / 2 ^ 0 % 2 ^ 2 == 0
  | .checkerTestWrite c => c.wf && c.block / 2 ^ 0 % 2 ^ 2 == 1
  | .checkerTestRead c => c.wf && c.block / 2 ^ 0 % 2 ^ 2 == 2
  | .checkerTestRelease c => c.wf && c.block / 2 ^ 0 % 2 ^ 2 == 3
  | .rankRetireNow c => c.wf && c.block / 2 ^ 16 % 2 ^ 2 == 0
  | .rankRetireClear c => c.wf && c.block / 2 ^ 16 % 2 ^ 2 == 1
  | .stackDiagRead c => c.wf && c.block / 2 ^ 0 % 2 ^ 2 == 0
  | .stackDiagRun c => c.wf && c.block / 2 ^ 0 % 2 ^ 2 == 1
  | .stackDiagReadClear c => c.wf && c.block / 2 ^ 0 % 2 ^ 2 == 2
  | .bulkOpen c => c.wf
  | .bulkClose c => c.wf
  | .bulkStatus c => c.wf
  | .streamOpen p => p.wf
  | .streamClose p => p.wf
  | .streamAbort p => p.wf
  | .tile p => p.wf
  | .resultRead p => p.wf
  | .pageFetch p => p.wf
  | .pageStore p => p.wf
  | .pageCheckout p => p.wf
  | .pageCheckin p => p.wf
  | .versionOpen p => p.wf
  | .versionDraft p => p.wf
  | .versionClose p => p.wf
  | .versionCommit p => p.wf
  | .versionDiscard p => p.wf
  | .lineReadS p => p.wf
  | .lineReadX p => p.wf
  | .lineUpgrade p => p.wf
  | .lineWriteback p => p.wf
  | .fetchAdd p => p.wf && (p.payload.headD 0).toNat == 1
  | .fetchFaddx p => p.wf && (p.payload.headD 0).toNat == 2
  | .cas p => p.wf && (p.payload.headD 0).toNat == 3
  | .swap p => p.wf && (p.payload.headD 0).toNat == 4
  | .fetchMin p => p.wf && (p.payload.headD 0).toNat == 5
  | .fetchMax p => p.wf && (p.payload.headD 0).toNat == 6
  | .fetchUmin p => p.wf && (p.payload.headD 0).toNat == 7
  | .fetchUmax p => p.wf && (p.payload.headD 0).toNat == 8
  | .barrierArrive p => p.wf && (p.payload.headD 0).toNat == 16
  | .lockAcquire p => p.wf && (p.payload.headD 0).toNat == 32
  | .lockRelease p => p.wf && (p.payload.headD 0).toNat == 33
  | .snpData p => p.wf
  | .snpClean p => p.wf
  | .snpNotPresent p => p.wf
  | .completion p => p.wf
  | .linkSessionOpen p o => p.wf && o.wf
  | .linkSessionClose p => p.wf
  | .mcastWrite p => p.wf
  | .packetForward opcode p => opcode < 256 && p.wf
  | .pairMirror p m => p.wf && m.wf
  | .pairMeta p term r => p.wf && term < 2 ^ 32 && r.wf
  | .pairBeat p term info => p.wf && term < 2 ^ 32 && info.wf
  | .pairFetch p term extent offset => p.wf && term < 2 ^ 32 && extent < 65536 && offset < 256
  | .pairCopy p term extent offset _ => p.wf && term < 2 ^ 32 && extent < 65536 && offset < 256
  | .pairFence p term => p.wf && term < 2 ^ 32
  | .leaseCompletion p _ => p.wf
  | .leaseRenewTimer => true
  | .leaseLapse => true
  | .pairSilence => true
  | .pairBeatSend => true
  | .mirrorTimeout tag => tag < 4096
  | .pairPeerWaitExpiry => true
  | .resyncCopyDone => true
  | .portLightDetect port => port < 64
  | .portTrainingDone port tNs => port < 64 && tNs < 2 ^ 32
  | .portTrainingTimeout port => port < 64
  | .psHello port peerHash _ => port < 64 && peerHash < 2 ^ 384
  | .psKem port _ => port < 64
  | .psFinish port _ => port < 64
  | .linkParams port b => port < 64 && b.length == 6 && b.all (· < 65536)
  | .portSessionTimeout port => port < 64
  | .dataFlitRx port f => port < 64 && f.wf
  | .idleFlitRx port f => port < 64 && f.wf
  | .flitSend port => port < 64
  | .ackTimerExpiry port => port < 64
  | .replayTimeout port => port < 64
  | .retrainDone port => port < 64
  | .retrainTimeout port => port < 64
  | .rekeyStart port => port < 64
  | .keyNext port => port < 64
  | .keyNextKem port => port < 64
  | .downNotice port reason => port < 64 && reason < 256
  | .downPatternRx port => port < 64
  | .alignmentLoss port => port < 64
  | .laserFaultAlarm engine => engine < 16
  | .laserLightLoss engine fibre => engine < 16 && fibre < 4
  | .portDownHoldExpiry port => port < 64
  | .outstandingEntryExpiry port src tag tgen => port < 64 && src < 65536 && tag < 4096 && tgen < 16
  | .packetAgeOut id => id < 2 ^ 64
  | .fenceHoldAgeOut src tag => src < 65536 && tag < 4096
  | .escapeWaitExpiry id => id < 2 ^ 64
  | .reachabilityTimeout node => node < 65536
  | .bankQuiet bank => bank < 2
  | .tileStepEnd station stream index cycles _ => station < 144 && stream < 16384 && index < 2 ^ 32 && cycles < 2 ^ 64
  | .stepWatchdogExpiry station => station < 144
  | .fenceStateMoved station _ => station < 144
  | .tileFinalWriteDone stream index => stream < 16384 && index < 2 ^ 32
  | .extentTileIssue stream => stream < 16384
  | .streamIdleTimeout stream => stream < 16384
  | .streamReleaseTimeout stream => stream < 16384
  | .ledgerContribution stream index => stream < 16384 && index < 2 ^ 32
  | .ledgerFinalWriteDone window ltile => window < 4096 && ltile < 2 ^ 20
  | .windowIdleTimeout window => window < 4096
  | .queryScoreRelease stream index => stream < 16384 && index < 2 ^ 32
  | .splitFinish stream index split => stream < 16384 && index < 2 ^ 32 && split < 256
  | .seqHoldRelease context => context < 4096
  | .cadencePeriodEnd cls => (1 ≤ cls && cls < 16)
  | .recallTimeout extent page => extent < 65536 && page < 2 ^ 25
  | .draftWritesDrained extent => extent < 65536
  | .refusalMarkInForce m => m.wf
  | .rangeInvalidationAck inval engine => inval < 2 ^ 64 && engine < 161
  | .revocationSlowExpiry inval => inval < 2 ^ 64
  | .granuleZeroed granule => granule < 589824
  | .snoopTimeout line node => line < 2 ^ 36 && node < 65536
  | .writebackRecordExpiry line node => line < 2 ^ 36 && node < 65536
  | .lostHolderSweep line => line < 2 ^ 36
  | .identInvalidationInForce asid => asid < 4096
  | .translationWalkDone engine asid va => engine < 161 && asid < 4096 && va < 2 ^ 48
  | .populationDone asid granule => asid < 4096 && granule < 2 ^ 27
  | .populationWaitExpiry src tag => src < 65536 && tag < 4096
  | .keySlotErase tenant => tenant < 65536
  | .sessionEndSlowExpiry tenant => tenant < 65536
  | .rotationRewriteDone tenant => tenant < 65536
  | .weightChunk extent _ _ => extent < 65536
  | .sessionIdBarExpiry id => id < 2 ^ 64
  | .sectorReadDone stack sector e1 e2 => stack < 16 && sector < 2 ^ 28 && e1.wf && e2.wf
  | .sectorWriteDone stack sector offset data => stack < 16 && sector < 2 ^ 28 && offset < 256 && (0 < data.length && offset + data.length ≤ 256)
  | .caParityError stack rank => stack < 16 && rank < 4
  | .accessAgeLimit stack pch => stack < 16 && pch < 64
  | .refreshDue stack pch rank bank => stack < 16 && pch < 64 && rank < 4 && bank < 16
  | .stackTemperatureRead stack _ => stack < 16
  | .stackSelfRefreshEntry stack => stack < 16
  | .stackSelfRefreshExit stack _ => stack < 16
  | .trainingStepDone stack _ pins => stack < 16 && pins < 2 ^ 36
  | .stackInitDone stack => stack < 16
  | .pgenRunDone stack pch _ => stack < 16 && pch < 64
  | .readTracking stack pch _ => stack < 16 && pch < 64
  | .retrainSliceTimer stack pch _ _ _ => stack < 16 && pch < 64
  | .mowRead stack e1 e2 => stack < 16 && e1.wf && e2.wf
  | .mirrorFetchTimeout stack sector => stack < 16 && sector < 2 ^ 28
  | .rankErrorWindowEnd => true
  | .migrationGranuleCopied _ => true
  | .policeRefill => true
  | .histDepthSample => true
  | .powerPeriod m => m.wf
  | .linkPowerDecision estimate => estimate < 2 ^ 32
  | .pmbusTelemetry _ => true
  | .stationCeilingUpdate station used => station < 144 && used < 65
  | .droopTrip field => field < 16
  | .droopClampLift => true
  | .droopWindowEnd => true
  | .thermalReading _ => true
  | .pllLock => true
  | .regulatorVdone => true
  | .regulatorAckTimeout => true
  | .stationSl1Idle station => station < 144
  | .fieldSl2Idle field => field < 16
  | .domainWakeReady d => d.wf
  | .wakeEvent w => w.wf
  | .ethFrameRx port f => port < 2 && f.wf
  | .intakeFifoRead port => port < 2
  | .ccpFragment f => f.wf
  | .bulkFrame f => f.wf
  | .pfcRepeatTimer port => port < 2
  | .pfcPauseExpiry session cmdId => session < 65536 && cmdId < 65536
  | .handshakeTimeout session => session < 65536
  | .fragmentTimeout mailbox => mailbox < 256
  | .bulkChannelIdle channel => channel < 32
  | .ccpSessionIdle session => session < 65536
  | .eventNoticeSend session => session < 65536
  | .resetNAssert => true
  | .coldBoot _ => true
  | .keyEngineBootDone _ => true
  | .mgmtStart => true
  | .stationTestDone field passMask => field < 16 && passMask < 512
  | .fieldResetDone field passMask => field < 16 && passMask < 512
  | .ethLinkUp port => port < 2
  | .mgmtWatchdogExpiry core => core < 4
  | .mgmtRestartDone => true
  | .keyEngineWatchdog => true
  | .refclkLoss => true
  | .vddAonLoss => true
  | .fwStageDone r => r.wf
  | .fwStageTimeout => true
  | .mgmtRunningReport => true
  | .fwTrialTimeout => true
  | .keActivationDone => true
  | .sdCardRemoval => true
  | .pmbAlertEdge => true
  | .pmbusClockTimeout rail => rail < 8
  | .leaseClaimRetry => true
  | .ethLinkDown port => port < 2

end Sys2Proof
end

