-- ==== Sys2Proof/Config.lean ====
section
/-! DEFINITION. Config.lean: what one implementation fixes and the spec leaves open. Every constant here is opaque:
nothing can evaluate it, so a statement that mentions one holds for every value of it. -/

namespace Sys2Proof.Config

/-- The value of the n-th free draw (log 3): State.draws counts the draws, and the caller cuts it to the width the
spec gives the value. -/
opaque freeValue : Nat → Nat

/-- The device's identity hash (09 R267). -/
opaque identityHash : BitVec 384

/-- The device certificate chain (09 R267). -/
opaque certChain : List Byte

/-- The ECDSA P-384 signature of the device's identity key over a message (09 Table 9-4). -/
opaque ecdsaSign : List Byte → List Byte

/-- The HSS signature with a given leaf over a message (09 R270). -/
opaque hssSign : Nat → List Byte → List Byte

/-- What SPDM (DSP0274) frames around the contents of a response: by the request, and the contents that the spec gives (09
R268, log 39). -/
opaque spdmFrame : List Byte → List Byte → List Byte

/-- The SPDM error UnsupportedRequest for a request (09 R268, log 39). -/
opaque spdmError : List Byte → List Byte

/-- The SHA-384 of the plaintext of the stored configuration, whose file layout the spec does not give (09 Table 9-13). -/
opaque configDigest : List (Nat × List Byte) → BitVec 384

/-- The SHA-384 of format slots 14 to 31 (09 Table 9-13). -/
opaque formatDigest : List (Nat × Nat) → BitVec 384

/-- What a control message of a port session carries after its type byte: by type, and by the draws so far (12 Table
12-5): chains, public keys and ciphertexts, whose encodings the spec does not give. -/
opaque portMessage : Nat → Nat → List Byte

/-- The identity hash of the chain in a PS_HELLO, and whether the chain verifies (12 R338): log 8. -/
opaque helloChain : List Byte → Nat × Option Nat

/-- Whether the chain of the peer whose PS_KEM this is verifies (12 R338): log 8. -/
opaque kemVerdict : List Byte → Option Nat

/-- What the payload of a LINK_SESSION_OPEN carries (09 R256), whose encoding the spec does not give: the tenant, the
sender's generation, its nonce, its chain, the chain's identity hash and root, and whether the signature verifies. -/
opaque linkOpen : List Byte → Option LinkOpen

/-- What the payloads of the pair opcodes carry, which are internal to the pair (16 R432, log 24): the term, and the
rest by opcode. -/
opaque pairTerm : List Byte → Nat
opaque pairMirror : List Byte → Option MirrorMsg
opaque pairMeta : List Byte → Option PairRec
opaque pairInfo : List Byte → Option PeerInfo
opaque pairPlace : List Byte → Nat × Nat × List Byte

/-- What a CCP_HELLO body names (17 Table 17-3 step 1): the role (true operator), the tenant, the key's hash. -/
opaque helloFields : List Byte → Bool × Nat × Nat

/-- The IP addresses of an `eth_a` or `eth_b` item (19 Table 19-13), whose layout the spec does not give. -/
opaque ethAddresses : List Byte → List Nat

/-- Whether the signature that a body carries verifies (17 Table 17-3 step 4, 09 R236 R260): log 8. -/
opaque sigVerdict : List Byte → Bool

/-- Whether the content key of a weight header unwraps (09 R263): log 8. -/
opaque unwrapVerdict : List Byte → Bool

/-- Whether an unlock token names this device (09 R236): log 8. -/
opaque nameVerdict : List Byte → Bool

/-- The fused core voltage drop of a performance level in millivolts, which the spec bounds and does not give
(15 R402). -/
opaque fusedDrop : Nat → Nat

/-- The activate count at which a stack asks for a refresh-management command, as its mode registers report it (10
R285). -/
opaque refreshThreshold : Nat → Nat

/-- What the management firmware has written at a byte address of the metadata region (11 R305, log 177). -/
opaque metadata : Nat → Byte

/-- The settings and eyes of a pin that training finds: by the draw, the pseudo-channel and the pin (10 Table 10-7, log 174). -/
opaque pinTrim : Nat → Nat → Nat → Nat

/-- The memory key of a tenant's key epoch, by the number of its session's keys: 64 bytes for XTS, 32 for the MAC (09 Table 9-5,
R246). -/
opaque memoryKey : Nat → Nat → List Byte

/-- The device null key, as a memory key (09 Table 9-5). -/
opaque nullKey : List Byte

end Sys2Proof.Config
end

