-- ==== Sys2Proof/Machine/Bits.lean ====
section
/-! DEFINITION. Bits.lean: fields of blocks held as numbers (bit numbering of 00 R6 and 18 R468), and byte orders. -/

namespace Sys2Proof.Machine

/-- Bits hi..lo of a number. -/
def bits (x hi lo : Nat) : Nat := x / 2 ^ lo % 2 ^ (hi + 1 - lo)

/-- Bit i of a number. -/
def bit (x i : Nat) : Bool := x / 2 ^ i % 2 == 1

/-- A number with bits hi..lo replaced. -/
def setBits (x hi lo v : Nat) : Nat :=
  x / 2 ^ (hi + 1) * 2 ^ (hi + 1) + v % 2 ^ (hi + 1 - lo) * 2 ^ lo + x % 2 ^ lo

/-- A number with bit i set or cleared. -/
def setBit (x i : Nat) (b : Bool) : Nat := setBits x i i (if b then 1 else 0)

/-- One or zero. -/
def b2n (b : Bool) : Nat := if b then 1 else 0

/-- How many of the low `w` bits are set. -/
def popcount (x : Nat) : Nat → Nat
  | 0 => 0
  | w + 1 => popcount x w + x / 2 ^ w % 2

/-- The positions of the set bits below `w`, rising. -/
def bitsOf (x w : Nat) : List Nat := (List.range w).filter (bit x)

/-- The map with the listed bits set. -/
def maskOf (l : List Nat) : Nat := l.foldl (fun m i => setBit m i true) 0

/-- `len` little-endian bytes of a number (00 R6). -/
def leBytes (x : Nat) : Nat → List Byte
  | 0 => []
  | len + 1 => BitVec.ofNat 8 x :: leBytes (x / 256) len

/-- The number that little-endian bytes spell. -/
def leNat : List Byte → Nat
  | [] => 0
  | b :: r => b.toNat + 256 * leNat r

/-- `len` big-endian bytes of a number. -/
def beBytes (x len : Nat) : List Byte := (leBytes x len).reverse

/-- The signed value of the low `w` bits. -/
def signed (x w : Nat) : Int := if x % 2 ^ w < 2 ^ (w - 1) then (x % 2 ^ w : Nat) else ((x % 2 ^ w : Nat) : Int) - (2 ^ w : Nat)

/-- The low `w` bits of an integer, two's complement. -/
def unsigned (x : Int) (w : Nat) : Nat := (x % (2 ^ w : Nat)).toNat

/-- Quotient rounded up. -/
def ceilDiv (a b : Nat) : Nat := (a + b - 1) / b

/-- Slice of a list. -/
def slice {α : Type} (l : List α) (off len : Nat) : List α := (l.drop off).take len

/-- Bytes cut or zero-filled to a length. -/
def padTo (l : List Byte) (n : Nat) : List Byte := l.take n ++ List.replicate (n - l.length) 0

/-- The signature of the identity key over a message: 96 bytes, r then s (09 R260, 16 R429). -/
def ecdsaOf (m : List Byte) : List Byte := padTo (Config.ecdsaSign m) 96

/-- The HSS signature over a message with a leaf: 3,604 bytes (09 R270). -/
def hssOf (leaf : Nat) (m : List Byte) : List Byte := padTo (Config.hssSign leaf m) 3604

end Sys2Proof.Machine
end

