-- ==== Sys2Proof/Machine/Crypto.lean ====
section
/-! DEFINITION. Crypto.lean: the algorithms of 09 Table 9-4 that work on data: SHA-384, HKDF-SHA-384, and AES-256 with its modes XTS,
CMAC, GCM and key wrap. The spec names them by their standards; their steps are those of the standards (log 197). -/

namespace Sys2Proof.Machine

/-! SHA-384 (FIPS 180-4). -/

/-- Round constants 0 to 19 of SHA-384. -/
def sha384K0 : List Nat :=
  [ 0x428a2f98d728ae22, 0x7137449123ef65cd, 0xb5c0fbcfec4d3b2f, 0xe9b5dba58189dbbc,
    0x3956c25bf348b538, 0x59f111f1b605d019, 0x923f82a4af194f9b, 0xab1c5ed5da6d8118,
    0xd807aa98a3030242, 0x12835b0145706fbe, 0x243185be4ee4b28c, 0x550c7dc3d5ffb4e2,
    0x72be5d74f27b896f, 0x80deb1fe3b1696b1, 0x9bdc06a725c71235, 0xc19bf174cf692694,
    0xe49b69c19ef14ad2, 0xefbe4786384f25e3, 0x0fc19dc68b8cd5b5, 0x240ca1cc77ac9c65 ]

/-- Round constants 20 to 39 of SHA-384. -/
def sha384K1 : List Nat :=
  [ 0x2de92c6f592b0275, 0x4a7484aa6ea6e483, 0x5cb0a9dcbd41fbd4, 0x76f988da831153b5,
    0x983e5152ee66dfab, 0xa831c66d2db43210, 0xb00327c898fb213f, 0xbf597fc7beef0ee4,
    0xc6e00bf33da88fc2, 0xd5a79147930aa725, 0x06ca6351e003826f, 0x142929670a0e6e70,
    0x27b70a8546d22ffc, 0x2e1b21385c26c926, 0x4d2c6dfc5ac42aed, 0x53380d139d95b3df,
    0x650a73548baf63de, 0x766a0abb3c77b2a8, 0x81c2c92e47edaee6, 0x92722c851482353b ]

/-- Round constants 40 to 59 of SHA-384. -/
def sha384K2 : List Nat :=
  [ 0xa2bfe8a14cf10364, 0xa81a664bbc423001, 0xc24b8b70d0f89791, 0xc76c51a30654be30,
    0xd192e819d6ef5218, 0xd69906245565a910, 0xf40e35855771202a, 0x106aa07032bbd1b8,
    0x19a4c116b8d2d0c8, 0x1e376c085141ab53, 0x2748774cdf8eeb99, 0x34b0bcb5e19b48a8,
    0x391c0cb3c5c95a63, 0x4ed8aa4ae3418acb, 0x5b9cca4f7763e373, 0x682e6ff3d6b2b8a3,
    0x748f82ee5defb2fc, 0x78a5636f43172f60, 0x84c87814a1f0ab72, 0x8cc702081a6439ec ]

/-- Round constants 60 to 79 of SHA-384. -/
def sha384K3 : List Nat :=
  [ 0x90befffa23631e28, 0xa4506cebde82bde9, 0xbef9a3f7b2c67915, 0xc67178f2e372532b,
    0xca273eceea26619c, 0xd186b8c721c0c207, 0xeada7dd6cde0eb1e, 0xf57d4f7fee6ed178,
    0x06f067aa72176fba, 0x0a637dc5a2c898a6, 0x113f9804bef90dae, 0x1b710b35131c471b,
    0x28db77f523047d84, 0x32caab7b40c72493, 0x3c9ebe0a15c9bebc, 0x431d67c49c100d4c,
    0x4cc5d4becb3e42b6, 0x597f299cfc657e2a, 0x5fcb6fab3ad6faec, 0x6c44198c4a475817 ]

/-- The initial hash value of SHA-384. -/
def sha384Init : List Nat :=
  [ 0xcbbb9d5dc1059ed8, 0x629a292a367cd507, 0x9159015a3070dd17, 0x152fecd8f70e5939,
    0x67332667ffc00b31, 0x8eb44a8768581511, 0xdb0c2e0d64f98fa7, 0x47b5481dbefa4fa4 ]

/-- A 64-bit word rotated right. -/
def rotr64 (x n : Nat) : Nat := (x / 2 ^ n + x * 2 ^ (64 - n)) % 2 ^ 64

/-- The message schedule, newest word first, after `n` more words. -/
def sha384Schedule : Nat → List Nat → List Nat
  | 0, w => w
  | n + 1, w =>
    let a := w.getD 1 0
    let b := w.getD 14 0
    let s1 := Nat.xor (Nat.xor (rotr64 a 19) (rotr64 a 61)) (a / 2 ^ 6)
    let s0 := Nat.xor (Nat.xor (rotr64 b 1) (rotr64 b 8)) (b / 2 ^ 7)
    sha384Schedule n ((s1 + w.getD 6 0 + s0 + w.getD 15 0) % 2 ^ 64 :: w)

/-- One round on the eight working variables with its constant and its schedule word. -/
def sha384Round (v : List Nat) (kw : Nat × Nat) : List Nat :=
  match v with
  | [a, b, c, d, e, f, g, h] =>
    let s1 := Nat.xor (Nat.xor (rotr64 e 14) (rotr64 e 18)) (rotr64 e 41)
    let ch := Nat.xor (Nat.land e f) (Nat.land (2 ^ 64 - 1 - e) g)
    let t1 := h + s1 + ch + kw.1 + kw.2
    let s0 := Nat.xor (Nat.xor (rotr64 a 28) (rotr64 a 34)) (rotr64 a 39)
    let maj := Nat.xor (Nat.xor (Nat.land a b) (Nat.land a c)) (Nat.land b c)
    [(t1 + s0 + maj) % 2 ^ 64, a, b, c, (d + t1) % 2 ^ 64, e, f, g]
  | _ => v

/-- One block of 128 bytes. -/
def sha384Block (h : List Nat) (block : List Byte) : List Nat :=
  let w := (List.range 16).foldl (fun w i => leNat (slice block (8 * i) 8).reverse :: w) []
  let ks := sha384K0 ++ sha384K1 ++ sha384K2 ++ sha384K3
  let v := (ks.zip (sha384Schedule 64 w).reverse).foldl sha384Round h
  (h.zip v).map fun x => (x.1 + x.2) % 2 ^ 64

/-- The blocks of a padded message. -/
def sha384Blocks : Nat → List Nat → List Byte → List Nat
  | 0, h, _ => h
  | n + 1, h, m => sha384Blocks n (sha384Block h (m.take 128)) (m.drop 128)

/-- The 48 bytes of the SHA-384 of a message. -/
def sha384Bytes (m : List Byte) : List Byte :=
  let n := m.length
  let fill := (239 - n % 128) % 128
  let p := m ++ [0x80#8] ++ List.replicate fill 0#8 ++ beBytes (8 * n) 16
  ((sha384Blocks (p.length / 128) sha384Init p).take 6).flatMap fun x => beBytes x 8

/-- The SHA-384 of a message as a number, the first byte of the digest lowest. -/
@[irreducible] def sha384 (m : List Byte) : BitVec 384 := BitVec.ofNat 384 (leNat (sha384Bytes m))

/-! HKDF-SHA-384 (RFC 5869). -/

/-- HMAC-SHA-384. -/
def hmac384 (key m : List Byte) : List Byte :=
  let k := padTo (if 128 < key.length then sha384Bytes key else key) 128
  let pad (c : Byte) : List Byte := k.map (· ^^^ c)
  sha384Bytes (pad 0x5C ++ sha384Bytes (pad 0x36 ++ m))

/-- The blocks of the expansion, from the last one and its number on. -/
def hkdfBlocks (prk info : List Byte) : Nat → Nat → List Byte → List Byte
  | 0, _, _ => []
  | n + 1, i, last =>
    let t := hmac384 prk (last ++ info ++ [BitVec.ofNat 8 i])
    t ++ hkdfBlocks prk info n (i + 1) t

/-- `len` bytes of HKDF-SHA-384 from keying material, salt and info. -/
def hkdf384 (ikm salt info : List Byte) (len : Nat) : List Byte :=
  (hkdfBlocks (hmac384 salt ikm) info (ceilDiv len 48) 1 []).take len

/-! AES-256 (FIPS 197). A block is its 16 bytes in order, as numbers. -/

/-- Rows 0 to 3 of the AES substitution box. -/
def aesBox0 : List (List Nat) :=
  [ [0x63, 0x7c, 0x77, 0x7b, 0xf2, 0x6b, 0x6f, 0xc5, 0x30, 0x01, 0x67, 0x2b, 0xfe, 0xd7, 0xab, 0x76],
    [0xca, 0x82, 0xc9, 0x7d, 0xfa, 0x59, 0x47, 0xf0, 0xad, 0xd4, 0xa2, 0xaf, 0x9c, 0xa4, 0x72, 0xc0],
    [0xb7, 0xfd, 0x93, 0x26, 0x36, 0x3f, 0xf7, 0xcc, 0x34, 0xa5, 0xe5, 0xf1, 0x71, 0xd8, 0x31, 0x15],
    [0x04, 0xc7, 0x23, 0xc3, 0x18, 0x96, 0x05, 0x9a, 0x07, 0x12, 0x80, 0xe2, 0xeb, 0x27, 0xb2, 0x75] ]

/-- Rows 4 to 7 of the AES substitution box. -/
def aesBox1 : List (List Nat) :=
  [ [0x09, 0x83, 0x2c, 0x1a, 0x1b, 0x6e, 0x5a, 0xa0, 0x52, 0x3b, 0xd6, 0xb3, 0x29, 0xe3, 0x2f, 0x84],
    [0x53, 0xd1, 0x00, 0xed, 0x20, 0xfc, 0xb1, 0x5b, 0x6a, 0xcb, 0xbe, 0x39, 0x4a, 0x4c, 0x58, 0xcf],
    [0xd0, 0xef, 0xaa, 0xfb, 0x43, 0x4d, 0x33, 0x85, 0x45, 0xf9, 0x02, 0x7f, 0x50, 0x3c, 0x9f, 0xa8],
    [0x51, 0xa3, 0x40, 0x8f, 0x92, 0x9d, 0x38, 0xf5, 0xbc, 0xb6, 0xda, 0x21, 0x10, 0xff, 0xf3, 0xd2] ]

/-- Rows 8 to 11 of the AES substitution box. -/
def aesBox2 : List (List Nat) :=
  [ [0xcd, 0x0c, 0x13, 0xec, 0x5f, 0x97, 0x44, 0x17, 0xc4, 0xa7, 0x7e, 0x3d, 0x64, 0x5d, 0x19, 0x73],
    [0x60, 0x81, 0x4f, 0xdc, 0x22, 0x2a, 0x90, 0x88, 0x46, 0xee, 0xb8, 0x14, 0xde, 0x5e, 0x0b, 0xdb],
    [0xe0, 0x32, 0x3a, 0x0a, 0x49, 0x06, 0x24, 0x5c, 0xc2, 0xd3, 0xac, 0x62, 0x91, 0x95, 0xe4, 0x79],
    [0xe7, 0xc8, 0x37, 0x6d, 0x8d, 0xd5, 0x4e, 0xa9, 0x6c, 0x56, 0xf4, 0xea, 0x65, 0x7a, 0xae, 0x08] ]

/-- Rows 12 to 15 of the AES substitution box. -/
def aesBox3 : List (List Nat) :=
  [ [0xba, 0x78, 0x25, 0x2e, 0x1c, 0xa6, 0xb4, 0xc6, 0xe8, 0xdd, 0x74, 0x1f, 0x4b, 0xbd, 0x8b, 0x8a],
    [0x70, 0x3e, 0xb5, 0x66, 0x48, 0x03, 0xf6, 0x0e, 0x61, 0x35, 0x57, 0xb9, 0x86, 0xc1, 0x1d, 0x9e],
    [0xe1, 0xf8, 0x98, 0x11, 0x69, 0xd9, 0x8e, 0x94, 0x9b, 0x1e, 0x87, 0xe9, 0xce, 0x55, 0x28, 0xdf],
    [0x8c, 0xa1, 0x89, 0x0d, 0xbf, 0xe6, 0x42, 0x68, 0x41, 0x99, 0x2d, 0x0f, 0xb0, 0x54, 0xbb, 0x16] ]

/-- The substitution box. -/
def aesBox : List (List Nat) := aesBox0 ++ aesBox1 ++ aesBox2 ++ aesBox3

def aesSub (x : Nat) : Nat := (aesBox.getD (x / 16) []).getD (x % 16) 0

/-- Double in the field of AES. -/
def aesDouble (x : Nat) : Nat := if x < 128 then 2 * x else Nat.xor (2 * x - 256) 0x1B

/-- Key words in order, each four bytes, newest first, after words `i` and on. -/
def aesExpand : Nat → Nat → Nat → List (List Nat) → List (List Nat)
  | 0, _, _, w => w
  | n + 1, i, rcon, w =>
    let t := w.headD []
    let t := if i % 8 == 0 then
        match (t.drop 1 ++ t.take 1).map aesSub with
        | x :: r => Nat.xor x rcon :: r
        | [] => []
      else if i % 8 == 4 then t.map aesSub else t
    let x := (t.zip (w.getD 7 [])).map fun y => Nat.xor y.1 y.2
    aesExpand n (i + 1) (if i % 8 == 0 then aesDouble rcon else rcon) (x :: w)

/-- The fifteen round keys of a 32-byte key. -/
def aesKeys (key : List Byte) : List (List Nat) :=
  let k := (padTo key 32).map (·.toNat)
  let w := (List.range 8).foldl (fun w i => slice k (4 * i) 4 :: w) []
  let all := (aesExpand 52 8 1 w).reverse
  (List.range 15).map fun i => (slice all (4 * i) 4).flatten

def xorNats (a b : List Nat) : List Nat := (a.zip b).map fun x => Nat.xor x.1 x.2

/-- Row r of the block moves r columns. -/
def aesShift (b : List Nat) : List Nat := (List.range 16).map fun i => b.getD ((i + 4 * (i % 4)) % 16) 0

/-- A column is mixed. -/
def aesMix (c : List Nat) : List Nat :=
  (List.range 4).map fun i =>
    let at' (j : Nat) : Nat := c.getD ((i + j) % 4) 0
    Nat.xor (Nat.xor (aesDouble (at' 0)) (Nat.xor (aesDouble (at' 1)) (at' 1))) (Nat.xor (at' 2) (at' 3))

/-- The rounds that follow the first key addition; the last mixes no column. -/
def aesRounds : List (List Nat) → List Nat → List Nat
  | [], b => b
  | [k], b => xorNats (aesShift (b.map aesSub)) k
  | k :: rest, b =>
    let s := aesShift (b.map aesSub)
    aesRounds rest (xorNats ((List.range 4).flatMap fun i => aesMix (slice s (4 * i) 4)) k)

/-- A block under round keys. -/
def aesBlock (keys : List (List Nat)) (b : List Nat) : List Nat := aesRounds keys.tail (xorNats b (keys.headD []))

/-- The number that a block spells, big-endian, and back. -/
def blockNum (b : List Nat) : Nat := b.foldl (fun n x => 256 * n + x) 0
def numBlock (n : Nat) : List Nat := (beBytes n 16).map (·.toNat)

/-- A block given and wanted as a number. -/
def aesNum (keys : List (List Nat)) (n : Nat) : Nat := blockNum (aesBlock keys (numBlock n))

/-- Bytes as blocks of 16, the last one short or whole. -/
def chunks16 : Nat → List Byte → List (List Byte)
  | 0, _ => []
  | n + 1, l => if l.isEmpty then [] else l.take 16 :: chunks16 n (l.drop 16)

def blocksOf (l : List Byte) : List (List Byte) := chunks16 l.length l

def bytesNum (l : List Byte) : Nat := leNat l.reverse

/-! XTS (IEEE 1619): data units of whole blocks. -/

/-- The tweak of the next block: doubled, in a little-endian field of 128 bits. -/
def xtsNext (t : Nat) : Nat := if t < 2 ^ 127 then 2 * t else Nat.xor (2 * t - 2 ^ 128) 0x87

/-- The blocks of a data unit under a tweak that is already encrypted. -/
def xtsBlocks (keys : List (List Nat)) : Nat → List (List Byte) → List Byte
  | _, [] => []
  | t, b :: rest =>
    let tw := (leBytes t 16).map (·.toNat)
    let x := xorNats (aesBlock keys (xorNats (b.map (·.toNat)) tw)) tw
    x.map (BitVec.ofNat 8 ·) ++ xtsBlocks keys (xtsNext t) rest

/-- AES-256-XTS of a data unit under a 64-byte key and a tweak (09 R246). -/
def xts (key : List Byte) (tweak : Nat) (plain : List Byte) : List Byte :=
  let t := aesBlock (aesKeys (key.drop 32)) ((leBytes tweak 16).map (·.toNat))
  xtsBlocks (aesKeys (key.take 32)) (leNat (t.map (BitVec.ofNat 8 ·))) (blocksOf plain)

/-! CMAC (NIST SP 800-38B). -/

def cmacDouble (x : Nat) : Nat := if x < 2 ^ 127 then 2 * x else Nat.xor (2 * x - 2 ^ 128) 0x87

/-- AES-256-CMAC of a message, 16 bytes. -/
def cmac (key m : List Byte) : List Byte :=
  let keys := aesKeys key
  let k1 := cmacDouble (aesNum keys 0)
  let l := blocksOf m
  let last := l.getLast?.getD []
  let final := if last.length == 16 then Nat.xor (bytesNum last) k1
    else Nat.xor (bytesNum (padTo (last ++ [0x80#8]) 16)) (cmacDouble k1)
  let c := l.dropLast.foldl (fun c b => aesNum keys (Nat.xor c (bytesNum b))) 0
  beBytes (aesNum keys (Nat.xor c final)) 16

/-! GCM (NIST SP 800-38D), with 96-bit IVs. -/

/-- Product in the field of GCM, whose first bit is the highest: `n` more bits of `y` from the top, with `v` the present multiple of
`x`. -/
def gcmMul (y : Nat) : Nat → Nat → Nat → Nat
  | 0, _, z => z
  | n + 1, v, z =>
    let z := if bit y n then Nat.xor z v else z
    gcmMul y n (if v % 2 == 1 then Nat.xor (v / 2) (0xE1 * 2 ^ 120) else v / 2) z

/-- GHASH of whole blocks. -/
def ghash (h : Nat) (l : List Nat) : Nat := l.foldl (fun y x => gcmMul (Nat.xor y x) 128 h 0) 0

/-- Bytes as blocks filled with zeros, as numbers. -/
def gcmNums (l : List Byte) : List Nat := (blocksOf l).map fun b => bytesNum (padTo b 16)

/-- The key stream over some bytes, from a counter block on. -/
def gcmStream (keys : List (List Nat)) : Nat → List (List Byte) → List Byte
  | _, [] => []
  | c, b :: rest =>
    ((b.zip (beBytes (aesNum keys c) 16)).map fun x => x.1 ^^^ x.2) ++ gcmStream keys (c + 1) rest

/-- AES-256-GCM: ciphertext, and a tag of 16 bytes. -/
def gcm (key iv aad plain : List Byte) : List Byte × List Byte :=
  let keys := aesKeys key
  let j := bytesNum (padTo iv 12) * 2 ^ 32 + 1
  let c := gcmStream keys (j + 1) (blocksOf plain)
  let s := ghash (aesNum keys 0) (gcmNums aad ++ gcmNums c ++ [8 * aad.length * 2 ^ 64 + 8 * c.length])
  (c, beBytes (Nat.xor s (aesNum keys j)) 16)

/-! Key wrap (RFC 3394). -/

/-- One pass over the registers, from step number `t` on. -/
def wrapPass (keys : List (List Nat)) : Nat → Nat → List Nat → Nat × List Nat
  | _, a, [] => (a, [])
  | t, a, r :: rest =>
    let b := aesNum keys (a * 2 ^ 64 + r)
    let x := wrapPass keys (t + 1) (Nat.xor (b / 2 ^ 64) t) rest
    (x.1, b % 2 ^ 64 :: x.2)

/-- AES-256 key wrap of a key of whole 8-byte words. -/
def keyWrap (kek key : List Byte) : List Byte :=
  let n := key.length / 8
  let r := (List.range n).map fun i => bytesNum (slice key (8 * i) 8)
  let x := (List.range 6).foldl (fun (x : Nat × List Nat) j => wrapPass (aesKeys kek) (n * j + 1) x.1 x.2) (0xA6A6A6A6A6A6A6A6, r)
  (x.1 :: x.2).flatMap fun w => beBytes w 8

end Sys2Proof.Machine
end

