-- ==== Sys2Proof/Machine/Flags.lean ====
section
/-! DEFINITION. Flags.lean: the statuses of 20 Table 20-1, the reason codes of 00 R10 and 20 Table 20-2, and how several
data conditions of one request combine (20 R497). -/

namespace Sys2Proof.Machine

/-- Completion statuses (20 Table 20-1). -/
inductive Status where
  | ok
  | okLostUpdate
  | alreadyComplete
  | notReady
  | retired
  | busyRetry
  | throttled
  | faultUnmapped
  | faultRevoked
  | faultVersion
  | faultRange
  | faultFormat
  | poisoned
  | integrity
  | overflow
  | linkLost
  | timeout
  | lockAbandoned
  | aborted
  | denied
  | unsupported
  | malformed
  | failover
  deriving DecidableEq, Repr

/-- The code of a status. -/
def Status.code : Status → Nat
  | .ok => 0x00
  | .okLostUpdate => 0x01
  | .alreadyComplete => 0x02
  | .notReady => 0x10
  | .retired => 0x11
  | .busyRetry => 0x12
  | .throttled => 0x13
  | .faultUnmapped => 0x20
  | .faultRevoked => 0x21
  | .faultVersion => 0x22
  | .faultRange => 0x23
  | .faultFormat => 0x24
  | .poisoned => 0x30
  | .integrity => 0x31
  | .overflow => 0x32
  | .linkLost => 0x40
  | .timeout => 0x41
  | .lockAbandoned => 0x43
  | .aborted => 0x44
  | .denied => 0x50
  | .unsupported => 0x51
  | .malformed => 0x52
  | .failover => 0x60

/-- The class of a status: the high half of its code (00 R8). -/
def Status.cls (s : Status) : Nat := s.code / 16

/-- The status with a code, where one has it. -/
def Status.ofCode (n : Nat) : Option Status :=
  [Status.ok, .okLostUpdate, .alreadyComplete, .notReady, .retired, .busyRetry, .throttled, .faultUnmapped,
    .faultRevoked, .faultVersion, .faultRange, .faultFormat, .poisoned, .integrity, .overflow, .linkLost, .timeout,
    .lockAbandoned, .aborted, .denied, .unsupported, .malformed, .failover].find? (·.code == n)

/-- Rank of a data condition: the higher decides (20 R497). -/
def Status.dataRank : Status → Nat
  | .integrity => 4
  | .poisoned => 3
  | .overflow => 2
  | .okLostUpdate => 1
  | _ => 0

/-- The condition that decides between two (20 R497). -/
def Status.worse (a b : Status) : Status := if a.dataRank < b.dataRank then b else a

/-- The condition that decides among many, OK for none (20 R497). -/
def Status.worst (l : List Status) : Status := l.foldl Status.worse .ok

/-- Reason classes (00 R10). -/
inductive RClass where
  | range
  | resource
  | conflict
  | dependency
  | policy
  | state
  | version
  deriving DecidableEq, Repr

/-- The number of a reason class (00 R10). -/
def RClass.num : RClass → Nat
  | .range => 1
  | .resource => 2
  | .conflict => 3
  | .dependency => 4
  | .policy => 5
  | .state => 6
  | .version => 7

/-- The status of a refusal whose chapter names only the class (17 Table 17-5). -/
def RClass.status : RClass → Status
  | .range => .faultRange
  | .resource => .busyRetry
  | .conflict => .faultRange
  | .dependency => .notReady
  | .policy => .denied
  | .state => .busyRetry
  | .version => .unsupported

/-- A reason code: class and detail (20 R498). -/
def reason (c : RClass) (detail : Nat) : Nat := c.num * 256 + detail

/-- A refusal: its status and its reason code. -/
structure Refuse where
  status : Status
  reason : Nat
  deriving DecidableEq, Repr

/-- A refusal whose chapter names only a class and whose detail is of Table 20-2. -/
def rf (c : RClass) (detail : Nat) : Refuse := ⟨c.status, reason c detail⟩

/-- A refusal by row `n` of a consistency-check table (20 R498). -/
def rfRow (c : RClass) (n : Nat) : Refuse := ⟨c.status, reason c (0x80 + n)⟩

/-- The first failing check of an ordered list of (failed, refusal). -/
def firstRefuse : List (Bool × Refuse) → Option Refuse
  | [] => none
  | (true, r) :: _ => some r
  | (false, _) :: l => firstRefuse l

/-- A consistency check (17 R460): the row that requires the initial state first, then the others in order. -/
def checkTable (rows : List (Bool × RClass)) (stateRow : Nat) : Option Refuse :=
  let numbered := rows.zipIdx.map fun x => (x.1.1, rfRow x.1.2 (x.2 + 1))
  match (rows.zipIdx.find? fun x => x.2 + 1 == stateRow && x.1.1) with
  | some x => some (rfRow x.1.2 stateRow)
  | none => firstRefuse numbered

end Sys2Proof.Machine
end

