-- ==== Sys2Proof/Machine/Tbl.lean ====
section
/-! DEFINITION. Tbl.lean: a table from numbers to values, as a list of pairs with rising keys; an absent key is an
object that does not exist. Every table of the state is one, so equal tables are equal lists. -/

namespace Sys2Proof.Machine

/-- A table: pairs with rising keys. -/
abbrev Tbl (α : Type) := List (Nat × α)

/-- The value at a key. -/
def Tbl.find {α : Type} : Tbl α → Nat → Option α
  | [], _ => none
  | (a, v) :: r, k => if a == k then some v else Tbl.find r k

/-- The value at a key, or a default. -/
def Tbl.findD {α : Type} (t : Tbl α) (k : Nat) (d : α) : α := (t.find k).getD d

/-- Whether a key is present. -/
def Tbl.has {α : Type} (t : Tbl α) (k : Nat) : Bool := (t.find k).isSome

/-- The table with a value at a key, keys kept rising. -/
def Tbl.put {α : Type} : Tbl α → Nat → α → Tbl α
  | [], k, v => [(k, v)]
  | (a, w) :: r, k, v => if k < a then (k, v) :: (a, w) :: r else if k == a then (k, v) :: r else (a, w) :: Tbl.put r k v

/-- The table without a key. -/
def Tbl.del {α : Type} : Tbl α → Nat → Tbl α
  | [], _ => []
  | (a, w) :: r, k => if a == k then r else (a, w) :: Tbl.del r k

/-- The table with the value at a key changed, where the key is present. -/
def Tbl.adjust {α : Type} (t : Tbl α) (k : Nat) (f : α → α) : Tbl α :=
  match t.find k with
  | some v => t.put k (f v)
  | none => t

/-- The entries a predicate keeps. -/
def Tbl.keep {α : Type} (t : Tbl α) (p : Nat → α → Bool) : Tbl α := t.filter fun e => p e.1 e.2

/-- The keys of the entries a predicate accepts, rising. -/
def Tbl.keysWhere {α : Type} (t : Tbl α) (p : α → Bool) : List Nat := (t.filter fun e => p e.2).map (·.1)

/-- How many entries a predicate accepts. -/
def Tbl.count {α : Type} (t : Tbl α) (p : α → Bool) : Nat := (t.filter fun e => p e.2).length

/-- Every value changed. -/
def Tbl.each {α : Type} (t : Tbl α) (f : Nat → α → α) : Tbl α := t.map fun e => (e.1, f e.1 e.2)

/-- The first number of `len` numbers from `i` that is not taken. -/
def firstFree (taken : Nat → Bool) : Nat → Nat → Option Nat
  | _, 0 => none
  | i, len + 1 => if taken i then firstFree taken (i + 1) len else some i

/-- The first free number in cyclic order after `last` in lo..hi; with no last one, from `lo` (18 R527). -/
def cyclicFree (taken : Nat → Bool) (last : Option Nat) (lo hi : Nat) : Option Nat :=
  let from' := match last with
    | none => lo
    | some l => if l < hi then l + 1 else lo
  match firstFree taken from' (hi + 1 - from') with
  | some n => some n
  | none => firstFree taken lo (from' - lo)

/-- Element `i` of a list replaced. -/
def listSet {α : Type} : List α → Nat → α → List α
  | [], _, _ => []
  | _ :: r, 0, v => v :: r
  | a :: r, i + 1, v => a :: listSet r i v

/-- Element `i` of a list changed. -/
def listMod {α : Type} : List α → Nat → (α → α) → List α
  | [], _, _ => []
  | a :: r, 0, f => f a :: r
  | a :: r, i + 1, f => a :: listMod r i f

/-- Sum of a list. -/
def sumOf (l : List Nat) : Nat := l.foldl (· + ·) 0

/-- A number put into a rising list without repeats. -/
def insertNum : List Nat → Nat → List Nat
  | [], n => [n]
  | a :: r, n => if n < a then n :: a :: r else if n == a then a :: r else a :: insertNum r n

end Sys2Proof.Machine
end

