-- ==== Sys2Proof/Machine/State/Ctl.lean ====
section
/-! DEFINITION. State/Ctl.lean: the always-on domain and boot (01, 19), the event queues and counters (20), and the
control plane over Ethernet (17, 18). The default of a field is its value after a cold reset. -/

namespace Sys2Proof.Machine

/-- Where the device stands between power-up and service (19 Table 19-1, R478, 21 R517). `off`: VDD_AON below its
range. `inReset`: waiting for RESET_N and the reference. `keyBoot`: the key engine boots (steps 1 to 5). `keyUp`:
management may start (step 6). -/
inductive Phase where
  | off
  | inReset
  | keyBoot
  | keyUp
  | running
  deriving DecidableEq, Repr

/-- Instructions of the JTAG port (21 R525); `debug` stands for every function beyond boundary scan (09 R236). -/
inductive TapInstr where
  | bypass
  | idcode
  | samplePreload
  | extest
  | extestPulse
  | debug
  deriving DecidableEq, Repr

/-- Always-on domain, boot and resets. -/
structure Dev where
  tick        : Nat := 0            -- slow-clock count (01 R25)
  phase       : Phase := .inReset
  halt        : Option Nat := none  -- the R26 state and its cause: 0 reference, 1 thermal trip, 2 key engine
  mgmtReset   : Option Nat := none  -- a management-only reset and its cause: 0 command, 1 watchdog, 2 activation
  keRestart   : Bool := false       -- a key-engine activation in progress (19 R491)
  resetN      : Bool := true        -- level of RESET_N after its filter (17 R463)
  initMode    : Bool := true        -- false FILL, true VALIDMAP (11 R304), log 5
  strap       : Bool := true        -- the INIT_MODE strap as the last cold boot sampled it (11 R304), log 5
  tap         : TapInstr := .idcode -- instruction register of the JTAG port (21 R525), log 195
  pmbAlerts   : Nat := 0            -- falling edges of PMB_ALERT_N (21 R522), log 6
  fieldReset  : Nat := 0            -- fields under a field reset, a map (19 R483)
  fieldTested : Nat := 0            -- fields whose station test has ended since cold reset (01 R14)
  deriving DecidableEq, Repr

/-- The READY map (19 Table 19-2): `port` bit p, `stack` bit k, `field` bit k. -/
structure Ready where
  port      : Nat := 0
  stack     : Nat := 0
  field     : Nat := 0
  mgmt      : Bool := false
  keyEngine : Bool := false
  ethA      : Bool := false
  ethB      : Bool := false
  config    : Bool := false
  pairLink  : Bool := false
  deriving DecidableEq, Repr

/-- One event record (20 Table 20-4). A continuation record (R503) has code 0xFFFF and its six numbers in `arg0` and
`arg1`. -/
structure EvRec where
  tick    : Nat
  seq     : Nat
  code    : Nat
  lost    : Nat
  kind    : Nat
  subject : Nat
  arg0    : Nat
  arg1    : Nat
  deriving DecidableEq, Repr

/-- An event queue (20 R501): the records oldest first, the next `seq`, and the lost count. -/
structure EvQueue where
  recs    : List EvRec := []
  nextSeq : Nat := 0
  lost    : Nat := 0
  deriving DecidableEq, Repr

/-- A queue of event records: the operator's, or a tenant's. -/
inductive EvDest where
  | operator
  | tenant (number : Nat)
  deriving DecidableEq, Repr

/-- An event on its way into a queue: its head without `seq` and `lost`, and the numbers its continuations list. -/
structure EvNew where
  tick    : Nat
  code    : Nat
  kind    : Nat
  subject : Nat
  arg0    : Nat
  arg1    : Nat
  more    : List Nat
  deriving DecidableEq, Repr

/-- Event queues (20 R501) and the records held during a management-only reset (R505). -/
structure Log where
  op       : EvQueue := {}
  ten      : Tbl EvQueue := []
  held     : List (EvDest × EvNew) := []   -- oldest first
  heldLost : List EvDest := []             -- one entry for each record lost while held
  deriving DecidableEq, Repr

/-- Counter sets 0 and 3 (20 Table 20-8) and the per-port refusal counts (09 R259); sets 1 and 2 stand with the link
sessions and the cadence classes. -/
structure Stats where
  ten     : Tbl (List Nat) := []
  dev     : List Nat := List.replicate 12 0
  portRef : Tbl Nat := []
  deriving DecidableEq, Repr

/-- A response without its address: status, reason code, body (17 Table 17-2). -/
structure Reply where
  status : Nat
  reason : Nat
  body   : List Byte
  deriving DecidableEq, Repr

/-- What the device knows of a `cmd_id` of a session (17 R451): its command is in a mailbox or in execution, its
response is kept (with opcode and mailbox), or it was answered with a status that is not kept. -/
inductive CmdRec where
  | mailbox
  | kept (opcode mailbox : Nat) (r : Reply)
  | again
  deriving DecidableEq, Repr

/-- A CCP session (17 R446, R448, R451; 18 R472). -/
structure Session where
  ver        : Nat
  role       : Role
  tenant     : Nat
  port       : Nat
  high       : Option Nat := none          -- h
  seen       : List Nat := []              -- cmd_ids accepted within half a turn of h
  cmds       : Tbl CmdRec := []
  rxTop      : Option Nat := none          -- highest seq accepted
  rxMask     : Nat := 0                    -- bit i: seq rxTop - 1 - i accepted
  txSeq      : Nat := 0
  idleDue    : Nat := 0
  binding    : Option (Nat × Nat) := none  -- import binding: extent, channel
  noticeDue  : Bool := false
  noticeTick : Option Nat := none
  deriving DecidableEq, Repr

/-- A CCP handshake past step 2 (17 Table 17-3). -/
structure Handshake where
  ver     : Nat
  role    : Role
  tenant  : Nat
  keyHash : Nat
  due     : Nat
  deriving DecidableEq, Repr

/-- A mailbox in use (17 R450): its command, the fragments present, and whether the command is in execution. Session 0
is the pre-session exchange. -/
structure Mailbox where
  session : Nat
  cmdId   : Nat
  opcode  : Nat
  port    : Nat
  cls     : Nat
  total   : Nat
  frags   : Tbl (List Byte) := []
  running : Bool := false
  due     : Nat := 0
  deriving DecidableEq, Repr

/-- What consumes a bulk channel. -/
inductive Consumer where
  | setLoad (session cmdId : Nat) (sigOk : Bool)
  | weights (extent : Nat)
  | stage
  deriving DecidableEq, Repr

/-- A bulk channel (17 R457): its session, `bytes`, the offset register, the bytes in its buffer, how many it has given
up since the last acknowledgement, and its consumer. -/
structure Bulk where
  session  : Nat
  bytes    : Nat
  offset   : Nat := 0
  buffer   : List Byte := []
  sinceAck : Nat := 0
  nakTick  : Option Nat := none
  consumer : Option Consumer := none
  due      : Nat
  deriving DecidableEq, Repr

/-- A response held by a received PFC pause (17 R462). -/
structure HeldTx where
  session : Nat
  cmdId   : Nat
  cls     : Nat
  due     : Nat
  opcode  : Nat
  mailbox : Nat
  reply   : Reply
  deriving DecidableEq, Repr

/-- An Ethernet port (17 R442, R454 to R456): link, the ETH_SET values with their selections for zero, the intake FIFO
oldest first, the full state of R455, and the pauses received per priority. The MAC and IP addresses are numbers: the
MAC is fused and the IP addresses come from the configuration. -/
structure EthPort where
  up        : Bool := false
  mac       : Nat := 0
  ips       : List Nat := []
  udpPort   : Nat := 48620
  vlan      : Nat := 0
  idleUnits : Nat := 894
  hiMark    : Nat := 24
  loMark    : Nat := 8
  pfcOff    : Bool := false
  fifo      : List CcpFrame := []
  full      : Bool := false
  pfcDue    : Nat := 0
  pausedTo  : Tbl Nat := []        -- priority to the tick its pause ends
  heldTx    : List HeldTx := []
  txDropped : Nat := 0             -- transmissions dropped by the bound of R462
  echoes    : Nat := 0             -- echo frames answered in the current second
  modPrs    : Bool := false        -- MOD_PRS pin (17 R463)
  modInt    : Bool := false        -- MOD_INT pin
  deriving DecidableEq, Repr

/-- The control plane (17, 18). -/
structure Ctl where
  sessions    : Tbl Session := []
  lastSession : Option Nat := none
  handshakes  : Tbl Handshake := []
  mailboxes   : Tbl Mailbox := []
  bulk        : Tbl Bulk := []
  lastChannel : Option Nat := none
  ethA        : EthPort := {}
  ethB        : EthPort := {}
  lastStream  : Option Nat := none   -- cursors of 18 R527
  lastExtent  : Option Nat := none
  lastWindow  : Option Nat := none
  lastContext : Option Nat := none
  lastCommon  : Option Nat := none
  expActive   : Nat := 1             -- exp_table_active (03 R92, R529)
  expStaged   : Nat := 1
  deriving DecidableEq, Repr

/-- The address of a CCP response: session, cmd_id, opcode, mailbox. -/
structure CmdRef where
  session : Nat
  cmdId   : Nat
  deriving DecidableEq, Repr

end Sys2Proof.Machine
end

