-- ==== Sys2Proof/Machine/State/Ten.lean ====
section
/-! DEFINITION. State/Ten.lean: tenants, keys, link sessions and imports (09), the pair (16), firmware, fuses, flash and
configuration (19). The default of a field is its value after a cold reset of a part as manufactured (log 9). -/

namespace Sys2Proof.Machine

/-- A tenant session (09 R239 to R241): none, open, or ending. -/
inductive TenSess where
  | closed
  | opened
  | ending
  deriving DecidableEq, Repr

/-- A tenant (09 R237). `keyId` names the keys of its open session: keys themselves are nowhere visible (R235), so a
key is a number drawn fresh for each session, and the keys of one session differ by epoch (log 8). -/
structure Tenant where
  keyHash   : Nat
  sess      : TenSess := .closed
  keyId     : Nat := 0
  epoch     : Nat := 1
  keyless   : Bool := false           -- a key-engine activation has destroyed its memory keys (R245)
  oldEpoch  : Option Nat := none      -- a rotation in progress (R250)
  reserve   : Nat := 0                -- reservation in granules (06 R153)
  endCmds   : List CmdRef := []       -- the commands that ended the session, answered at step 3 (R241)
  endTick   : Nat := 0
  slowNoted : Bool := false
  markDone  : Bool := false           -- the refusal of step 1 is in force at every hedge-check unit
  deriving DecidableEq, Repr

/-- A link session (09 R256). -/
structure Link where
  node     : Nat
  gen      : Nat
  tenant   : Nat
  identity : Nat
  refusals : Nat := 0
  deriving DecidableEq, Repr

/-- A weight import in progress (09 R263). -/
structure Import where
  session    : Nat
  tenant     : Nat
  channel    : Nat
  setId      : Nat
  plainBytes : Nat
  chunkCount : Nat
  taken      : Nat := 0
  failed     : Bool := false          -- a chunk has failed its tag: the import has ended, and END says so (R264)
  held       : Bool := false          -- a written chunk waits for the standby (16 R434)
  endCmd     : Option CmdRef := none  -- a WEIGHT_IMPORT_END that waits for chunks that have arrived
  deriving DecidableEq, Repr

/-- Tenants, keys, link sessions, device sets, imports. -/
structure Ten where
  tenants    : Tbl Tenant := []
  nextKey    : Nat := 1                -- next key identity; 0 is the device null key
  admissions : List (Nat × Nat) := []  -- tenant, identity hash
  links      : Tbl Link := []
  lastLink   : Option Nat := none
  barred     : Tbl (Nat × Nat) := []   -- identifier to the tick from which it may be used again (R257), and the tenant it served
  sets       : Tbl (List Nat) := []    -- tenant × 65,536 + set_id to its identity hashes (R260)
  imports    : Tbl Import := []        -- by extent
  hssNext    : Nat := 0                -- next HSS leaf (R271)
  hssLimit   : Nat := 0                -- leaves reserved by the checkpoint
  hssMark    : Nat := 0                -- fuse marks blown
  deriving DecidableEq, Repr

/-- Pair roles (16 Table 16-2). -/
inductive PairRole where
  | unpaired
  | syncing
  | standby
  | takeover
  | active
  | fenced
  | out
  deriving DecidableEq, Repr

/-- Where a request is charged: the hub queue of a field, its subscriber and service, and the sectors it moves (14 R388). -/
structure HubUse where
  field   : Nat
  sub     : Nat
  svc     : Nat
  sectors : Nat
  deriving DecidableEq, Repr

/-- A request the device serves: its opcode, its packet, its colour (14 R384), and its hub queue where it has one. -/
structure Req where
  opcode : Nat
  p      : Packet
  yellow : Bool := false
  hub    : Option HubUse := none
  deriving DecidableEq, Repr

/-- What waits for the standby to hold mirrored writes: it goes on with the last of its messages (16 R434). -/
inductive MirrorWait where
  | request (r : Req) (status : Nat) (word : Option Nat) (payload : List Byte) (address : Nat)
  | tile (stream index : Nat)
  | ledger (window ltile : Nat)
  | weights (extent : Nat)
  | none
  deriving DecidableEq, Repr

/-- The pair (16). `block` is the 128-byte block of Table 16-1 as stored. -/
structure Pair where
  block      : Nat := 0
  role       : PairRole := .unpaired
  enabled    : Bool := false          -- paired by PAIR_SET or by the stored block
  term       : Nat := 0
  peerIn     : Bool := false          -- the peer is STANDBY and holds every mirrored write
  syncing    : Bool := false          -- the peer is SYNCING: the copy runs
  copyPtr    : Nat := 0               -- copied so far: extent × 2^48 + offset (R440)
  copyTen    : List Nat := []         -- tenants whose extents are being copied (R435, R440)
  leaseOk    : Nat := 0               -- tick of sending of the last renewal that completed OK
  renewDue   : Nat := 0
  claiming   : Bool := false          -- a LEASE_CLAIM is outstanding
  retryDue   : Option Nat := none     -- when a standby claims again (R431)
  lastRx     : Nat := 0               -- tick of the last pair traffic received
  lastTx     : Nat := 0               -- tick of the last pair traffic sent
  noAck      : Bool := false          -- a standby that has stopped acknowledging PAIR_MIRROR
  waitDue    : Option Nat := none     -- end of the 1 s wait for an ACTIVE peer
  handover   : Bool := false          -- fenced for a planned handover (19 R491)
  peerTook   : Bool := false          -- and the peer has been heard as ACTIVE since
  peerTen    : List Nat := []         -- tenants whose session is open on the peer (R435)
  mirror     : Tbl (Nat × MirrorWait) := []   -- tag of a PAIR_MIRROR to its due tick and what waits
  received   : List MirrorMsg := []   -- PAIR_MIRRORs received, neither acknowledged nor applied, oldest first
  drafts     : List (Nat × Nat × List Byte) := []   -- a standby's writes to drafts: extent, offset, bytes
  stale      : List Nat := []         -- tenants whose extents here are not yet resynchronised (R435)
  deriving DecidableEq, Repr

/-- The state of a slot (19 R485). -/
inductive SlotState where
  | empty
  | staging
  | bootable
  | failed
  deriving DecidableEq, Repr

/-- A slot: its state and the image it holds (19 Table 19-12). -/
structure Slot where
  state  : SlotState := .empty
  imgVer : Nat := 0
  secVer : Nat := 0
  digest : Nat := 0
  deriving DecidableEq, Repr

/-- A copy of the slot control record (19 R485). `valid` is that its signature verifies; `trial` is the previous slot while a trial
runs. -/
structure SlotRecord where
  valid    : Bool := false
  seq      : Nat := 0
  mgmtSlot : Nat := 0
  keSlot   : Nat := 0
  stateA   : SlotState := .bootable
  stateB   : SlotState := .empty
  trial    : Option Nat := none
  deriving DecidableEq, Repr

/-- A stage in progress (19 R487). -/
structure Stage where
  channel : Option Nat               -- none: the SD card
  cmd     : Option CmdRef            -- none: staged by the key engine in recovery
  target  : Nat
  due     : Nat
  head    : List Byte := []          -- header and wrap records of the package, as far as they have come (R486)
  deriving DecidableEq, Repr

/-- Firmware, fuses, flash and configuration (19, 09 R236). Slot 0 is A, slot 1 is B. -/
structure Fw where
  mgmtSlot : Nat := 0
  keSlot   : Nat := 0
  runMgmt  : Nat := 0                 -- slot of the running management image
  runKe    : Nat := 0
  trial    : Option Nat := none       -- the previous slot while a trial runs (R492)
  trialDue : Nat := 0
  copyA    : SlotRecord := { valid := true }   -- the two copies of the slot control record (R485)
  copyB    : SlotRecord := {}
  slotA    : Slot := { state := .bootable }
  slotB    : Slot := {}
  staging  : Option Stage := none
  activate : Option (Nat × Nat × CmdRef) := none   -- a key-engine activation in progress: op, slot, command (R490, R491)
  fresh    : Bool := false            -- the slot that is not in use holds a staged image that has not run yet (Table 9-13)
  fusedSec : Nat := 0
  debugLock : Bool := true
  token    : Bool := false            -- an accepted unlock token waits for the next cold reset (R236)
  unlocked : Bool := false            -- a token took effect at the last cold reset
  config   : Tbl (List Byte) := []    -- the stored items (Table 19-13)
  live     : Tbl (List Byte) := []    -- the items in force: those stored at the last cold reset (R494)
  cardIn   : Bool := false            -- an SD card is present (21 R524)
  cardFile : Bool := false            -- it holds the update package (R489)
  thermal  : Nat := 0x7300006D6A676400    -- fused thermal limit word (15 Table 15-6), log 9
  romHash  : Nat := 0                 -- measurement 1 (09 Table 9-13), log 9
  deriving DecidableEq, Repr

end Sys2Proof.Machine
end

