-- ==== Sys2Proof/Machine/State/Pool.lean ====
section
/-! DEFINITION. State/Pool.lean: pool memory and its objects (06), translation (08), stored sectors and ranks (11), and
the commons (07). Granule g of the device is 36,864 × stack + 9,216 × rank + i; a sector of the device is 8,192 × granule
+ s; a page of the device is 32 × granule + p (10 R281, 11 R304). -/

namespace Sys2Proof.Machine

/-- What a sector holds beside its data, where that is not the state of an initialisation (11 Table 11-2, R301).
`keyId` names the key of `epoch` (09 R246), `rawErr` the symbol errors its stored codewords carry, `macBad` that its
ciphertext or tag does not match its MAC, `macNoted` that the owner has its event. -/
structure SecMeta where
  epoch    : Nat := 0
  keyId    : Nat := 0
  lost     : Bool := false
  poison   : Bool := false
  written  : Bool := false
  macBad   : Bool := false
  macNoted : Bool := false
  rawErr   : RawErr := []
  deriving DecidableEq, Repr

/-- Granule states (06 Table 6-1). `unfilled` is a FREE granule that is not yet allocatable (10 R296). -/
inductive GranSt where
  | metadata
  | fallow
  | free
  | unfilled
  | allocated
  | quarantine
  | moving       -- a migration has copied another granule here, whose state it takes with the last acknowledgement (11 R318)
  | retired
  deriving DecidableEq, Repr

/-- What an allocated granule belongs to. -/
inductive GranUse where
  | extent (number : Nat)
  | version (extent : Nat)
  | space (asid : Nat)
  | test
  | none
  deriving DecidableEq, Repr

/-- A granule that is not in its rank's default state. -/
structure Gran where
  st    : GranSt
  owner : Nat := 0
  use   : GranUse := .none
  deriving DecidableEq, Repr

/-- Where a rank stands (06 R150, 11 R315 to R321). -/
inductive RankSt where
  | inService
  | fallow
  | leaving      -- out of service: its migration runs or waits
  | filling      -- no longer fallow: the destination of the migration that runs (11 R316)
  | retired
  deriving DecidableEq, Repr

/-- Extent states (06 Table 6-6); an absent extent is FREE. -/
inductive ExtSt where
  | disabled
  | enabled
  | revoking
  deriving DecidableEq, Repr

/-- A live version of a versioned extent (06 Versions): the frames of the pages that differ from the extent's own
granules, and the streams bound to it as readers. A frame is a page of the device. -/
structure Version where
  frames  : Tbl Nat := []
  streams : Nat := 0
  deriving DecidableEq, Repr

/-- The open draft of an extent (06 R173, R176). -/
structure Draft where
  handle : Nat
  base   : Nat
  number : Nat
  commit : Option Req := none   -- the VERSION_COMMIT that waits for the writes to drain
  owed   : List (Nat × Nat) := []   -- source and tag of page stores that passed the hedge check before it and wait (R176)
  deriving DecidableEq, Repr

/-- An extent (06 R156 to R161). `desc` is the block of Table 6-4. -/
structure Extent where
  tenant    : Nat
  desc      : Nat
  state     : ExtSt := .disabled
  grans     : List Nat := []       -- granule i of the extent
  lostPages : Nat := 0
  current   : Nat := 0
  versions  : Tbl Version := []
  draft     : Option Draft := none
  verGrans  : List Nat := []       -- version granules
  cmd       : Option CmdRef := none  -- the revoking command, until its mark is in force
  reclaimed : Bool := false
  deriving DecidableEq, Repr

/-- A version handle (06 R172): a reader of its node, or a draft with its outcome. -/
inductive HandleSt where
  | reader
  | draft
  | committed
  | discarded
  deriving DecidableEq, Repr

structure Handle where
  extent  : Nat
  node    : Nat
  version : Nat
  st      : HandleSt
  deriving DecidableEq, Repr

/-- An access that waits: a request, a tile of a stream, the final write of a ledger tile, a held CCP command that reads
pool memory (its opcode, its sender and its block), or one sector's read or write at its stack controller. -/
inductive Access where
  | request (r : Req)
  | tile (stream index : Nat)
  | ledger (window ltile : Nat)
  | command (opcode : Nat) (ref : CmdRef) (tenant block total : Nat)
  | sector (number : Nat) (write : Option (Nat × List Byte))
  deriving DecidableEq, Repr

/-- A page held by a node (06 Table 6-10). -/
structure Checkout where
  node      : Nat
  gen       : Nat
  recalling : Bool := false
  due       : Nat := 0
  opening   : Option Nat := none    -- tag of the PAGE_CHECKOUT, until that completes
  waiting   : List Access := []     -- in arrival order
  deriving DecidableEq, Repr

/-- How the last checkout of a page ended (06 R170). -/
structure PastCheckout where
  node     : Nat
  gen      : Nat
  reverted : Bool
  deriving DecidableEq, Repr

/-- A population under way (08 R226): its granule and the writes that wait with their arrival ticks. -/
structure Population where
  granule : Nat
  waiting : List (Access × Nat) := []
  deriving DecidableEq, Repr

/-- An address space (08 R211). `desc` is the block of Table 8-1. After SPACE_DELETE the entry stays, with `dead`, until
the identifier is allocated again, for the refusal mark of R229 stays so long. -/
structure Space where
  tenant  : Nat
  desc    : Nat
  marked  : Bool := false           -- invalidation by identifier issued
  inForce : Bool := false           -- and in force at every engine
  dead    : Bool := false
  cmd     : Option CmdRef := none
  pops    : Tbl Nat := []           -- virtual granule to granule
  growing : Tbl Population := []
  deriving DecidableEq, Repr

/-- A mapping (08 R215). -/
structure Mapping where
  asid      : Nat
  vaBase    : Nat
  first     : Nat
  count     : Nat
  pageSize  : Nat
  extent    : Nat
  removing  : Bool := false
  cmd       : Option CmdRef := none
  deriving DecidableEq, Repr

/-- What a range invalidation covers (08 Table 8-6): granules of one space's addresses, granules of the device in
every space, or one page of an extent wherever it is mapped. -/
inductive InvalRange where
  | virt (asid lo count : Nat)
  | phys (grans : List Nat)
  | page (extent page : Nat)
  | mappings (extent : Nat)
  deriving DecidableEq, Repr

/-- What follows the last acknowledgement. -/
inductive InvalFor where
  | revoke (extent : Nat)
  | unmap (asid vaBase : Nat)
  | spaceMap (asid vaBase : Nat)
  | spaceGrans (asid : Nat) (grans : List Nat)
  | frames (extent : Nat) (frames : List Nat)
  | dropped (grans : List Nat)
  | checkout (extent page : Nat) (r : Req)
  | migrate (source dest : Nat)
  deriving DecidableEq, Repr

/-- A range invalidation (08 R230): the engines that have not acknowledged, as a map (bits 0 to 143 stations, 144 + f
the port-attach engine of field f, 160 the level two). -/
structure Inval where
  range     : InvalRange
  purpose   : InvalFor
  engines   : Nat
  issued    : Nat
  slowNoted : Bool := false
  deriving DecidableEq, Repr

/-- A translation in a buffer (08 R219, R220): the space, the address it covers from, whether it covers a whole granule,
the version it was resolved under, the page of the device, and its way of the level two. -/
structure BufEntry where
  asid    : Nat
  va      : Nat
  whole   : Bool := false
  version : Nat
  tenant  : Nat
  page    : Nat
  way     : Nat
  deriving DecidableEq, Repr

/-- A walk in progress (08 R219): its engine, the space, the address the entry covers from, and the version (R220). -/
structure Walk where
  engine  : Nat
  asid    : Nat
  va      : Nat
  version : Nat
  deriving DecidableEq, Repr

/-- An address log entry (11 Table 11-4). -/
structure LogEntry where
  tick   : Nat
  count  : Nat
  pin    : Nat
  kind   : Nat
  sector : Nat
  deriving DecidableEq, Repr

/-- A sector that waits for its mirror copy (11 R302). -/
structure MirrorFetch where
  extent : Nat
  offset : Nat
  tag    : Nat
  due    : Nat
  waiting : List Access := []
  deriving DecidableEq, Repr

/-- A rank migration (11 R316 to R319): the failing rank (4 × stack + rank), the destination rank, or none when
granules scatter, and the next granule. Granules copied whose acknowledgements are not all in stand in the range
invalidations. -/
structure Migration where
  rank    : Nat
  dest    : Option Nat
  next    : Nat := 0
  stalled : Bool := false
  copied  : Nat := 0
  deriving DecidableEq, Repr

/-- The armed flip mask of a stack (11 R313). -/
structure FlipMask where
  sector : Nat
  mask   : Nat
  burst  : Nat
  stage  : Bool
  deriving DecidableEq, Repr

/-- Pool memory. `mem` holds the plaintext of the sectors as their owner reads it, by physical byte address. -/
structure Pool where
  mem       : List Host.Cell := []
  sectors   : Tbl SecMeta := []          -- by sector of the device
  wmap      : List Nat := []             -- pages of the device whose written bit is set (11 R304)
  grans     : Tbl Gran := []
  unfilled  : List Nat := []             -- segments of 1,152 granules whose FREE granules wait for a fill (10 R296)
  ranks     : List RankSt := List.replicate 64 .inService
  fallowF   : Nat := 0                   -- current F (06 R150), set at cold boot
  fallowOf  : List Nat := []             -- ranks of the fallow set in order of j
  metaRank  : List (Option Nat) := List.replicate 16 (some 0)
  extents   : Tbl Extent := []
  handles   : Tbl Handle := []
  lastHandle : Option Nat := none
  oldHandles : Bool := false             -- the unit has taken over: handles that it does not know are old ones (R180)
  checkouts : Tbl Checkout := []         -- by extent × 2^25 + page
  past      : Tbl PastCheckout := []
  spaces    : Tbl Space := []
  maps      : List Mapping := []
  invals    : Tbl Inval := []            -- by number, the oldest 64 in progress
  nextInval : Nat := 0
  walks     : List Walk := []
  l1        : Tbl (List BufEntry) := []  -- by engine
  l2        : List BufEntry := []
  l2part    : Tbl Nat := []              -- by tenant (08 R232)
  fetches   : Tbl MirrorFetch := []      -- by sector of the device
  armed     : Tbl FlipMask := []         -- by stack
  migration : Option Migration := none
  leaving   : List Nat := []             -- ranks that wait for their migration
  badSecs   : Tbl (List Nat) := []       -- by rank: distinct uncorrectable sectors of the window (R315)
  parity    : Tbl Nat := []              -- by rank: parity errors of the window
  rankWin   : Nat := 0                   -- the window of 16,777,216 ticks that both belong to (R315)
  mowPeriod : Nat := 128746              -- pass_units (11 Table 11-5)
  deriving DecidableEq, Repr

/-- A directory entry (07): the line's state and holders. -/
inductive DirSt where
  | shared
  | exclusive
  | owned
  deriving DecidableEq, Repr

/-- Who shares a line beside its owner (07 R192): up to 8 nodes, or 128 groups of 512 nodes. -/
inductive Sharers where
  | precise (nodes : List Nat)
  | coarse (groups : Nat)
  deriving DecidableEq, Repr

/-- A directory entry (07 R192). `owner` and `gen` have a meaning in EX and OW; `set`, `way` and `order` place it. -/
structure DirEntry where
  st      : DirSt
  owner   : Nat := 0
  gen     : Nat := 0
  sharers : Sharers := .precise []
  tenant  : Nat
  set     : Nat
  way     : Nat
  order   : Nat
  deriving DecidableEq, Repr

/-- Snoops (07 Table 7-5). -/
inductive SnoopKind where
  | share
  | inv
  | recover
  | drop
  deriving DecidableEq, Repr

/-- A snoop that is not yet answered: its node and generation, the link session it was sent in, its tag, its bound. -/
structure Snoop where
  node    : Nat
  gen     : Nat
  session : Nat
  tag     : Nat
  kind    : SnoopKind
  due     : Nat
  deriving DecidableEq, Repr

/-- What a line transaction serves (07 R187, R195, R197, R201, R207, R210). -/
inductive LineJob where
  | request (r : Req)
  | access (a : Access) (write : Bool)
  | delete
  | drop
  | evict (forLine : Nat)
  | sweep
  deriving DecidableEq, Repr

/-- A line transaction (07 R197): its job, its unanswered snoops, the data its snoops returned (with the owner's answer
apart), whether it is recovering an OW line, whether its snoops are answered, whether it holds the line for an access that does
not cache until that has run (R201), and the jobs that wait. -/
structure Trans where
  job       : LineJob
  snoops    : List Snoop := []
  data      : Option (List Byte) := none
  ownerData : Bool := false          -- `data` came from the owner
  recovering : Bool := false
  asked     : Bool := false
  ready     : Bool := false
  stalled   : Bool := false          -- waits for a way of its set, for a mirror copy, or for a held pseudo-channel
  waiting   : List LineJob := []
  deriving DecidableEq, Repr

/-- Common states (07); an absent common is FREE. -/
inductive ComSt where
  | disabled
  | enabled
  | ending       -- COMMON_DELETE or revocation: its entries are being taken back
  deriving DecidableEq, Repr

/-- A common (07 R185). `desc` is the block of Table 7-1. -/
structure Common where
  tenant : Nat
  desc   : Nat
  state  : ComSt := .disabled
  cmd    : Option CmdRef := none
  deriving DecidableEq, Repr

/-- The commons directory (07). A line is named by its handle: 2^28 × common + index (13 R351). -/
structure Com where
  commons : Tbl Common := []
  dir     : Tbl DirEntry := []
  order   : Nat := 0
  trans   : Tbl Trans := []
  wbRecs  : Tbl Nat := []              -- 65,536 × line + node to the tick the record is dropped (R191)
  part    : Tbl Nat := []              -- by tenant (R196)
  lost    : List (Nat × Nat) := []     -- (line, node) lost by a snoop timeout and not yet resolved (R207)
  got     : List (Access × Nat × List Byte) := []   -- owners' data that accesses without caching have taken (R201)
  deriving DecidableEq, Repr

end Sys2Proof.Machine
end

