-- ==== Sys2Proof/Machine/State/Stack.lean ====
section
/-! DEFINITION. State/Stack.lean: the sixteen stacks and their controllers (10, 11). A stack is listed once it has left
its reset state; the defaults are that state. -/

namespace Sys2Proof.Machine

/-- The timing of one pin and the eyes last measured there (10 Table 10-6, R291). -/
structure Pin where
  trim : Nat := 0x00404040
  cmp  : Nat := 0
  eyeR : Nat := 0       -- log 16
  eyeW : Nat := 0
  eyeV : Nat := 0
  deriving DecidableEq, Repr

/-- A full retrain of a pseudo-channel (10 R292): the tick the present slice or gap began, whether a slice holds the
pseudo-channel, and the tick its first slice began. -/
structure Retrain where
  since   : Nat
  inSlice : Bool
  first   : Option Nat := none
  deriving DecidableEq, Repr

/-- A command of a stack controller to its stack (10 R276, R284 to R286). -/
inductive DramCmd where
  | activate (rank bank row : Nat)
  | column (write : Bool) (burst : Nat) (precharge : Bool)
  | refresh (rank bank count : Nat)
  | manage (rank bank : Nat)          -- per-bank refresh management
  | refreshAll (rank : Nat)
  deriving DecidableEq, Repr

/-- What a sector access of a queue does: a read with what its two attempts meet, or a write of bytes from an offset. -/
inductive SecOp where
  | read (e1 e2 : ReadErr)
  | write (offset : Nat) (data : List Byte)
  deriving DecidableEq, Repr

/-- A sector access in the queue of a pseudo-channel (10 R278): the sector of the device, its subscriber (14 R398), the
tick of its arrival. -/
structure SecAccess where
  sector : Nat
  sub    : Nat
  since  : Nat
  op     : SecOp
  deriving DecidableEq, Repr

/-- What the DRAM of one bank has been sent (10 R284, R285): refreshes postponed and issued, the activate count, and the
refresh-management commands. Keyed by rank × 16 + bank. -/
structure DramBank where
  postponed : Nat := 0
  refreshed : Nat := 0
  activates : Nat := 0
  managed   : Nat := 0
  deriving DecidableEq, Repr

/-- One pseudo-channel (10 Tables 10-5, 10-6, R278, R291; 11 R307). -/
structure Pch where
  ctl       : Nat := 0
  user      : Nat := 0
  pins      : Tbl Pin := []
  beats     : Nat := 0
  running   : Option CmdRef := none    -- the STACK_DIAG that waits for the run
  training  : Option (Nat × Nat) := none   -- PGEN_CTL and PGEN_USER of the pattern in the training area (R287)
  corrected : Nat := 0
  onDie     : Nat := 0
  sinceTrk  : Nat := 0                 -- corrections since the last read tracking
  lastTrk   : Nat := 0                 -- tick of the last read tracking
  trkTemp   : Int := 0                 -- stack temperature then
  trkDue    : Bool := false            -- read tracking must precede the first access (R286)
  retrain   : Option Retrain := none
  fullDue   : Bool := false            -- a full retrain must precede the first access (R293)
  queue     : List SecAccess := []     -- in arrival order; the first 128 are the controller's queue (R278)
  aged      : Bool := false            -- the oldest access has waited its bound and goes first (R278)
  writing   : Bool := false            -- the direction of the last access (R278)
  group     : Nat := 0                 -- accesses of that direction since the turnaround
  flight    : List SecAccess := []     -- carried out in the present tick, not yet confirmed (R279, log 176)
  win       : Nat := 0                 -- the window of 1,024 cycles that `slots` belongs to (R280)
  slots     : Tbl Nat := []            -- sector slots used in it, by isolated tenant; 0xFFFF: all others (14 R398)
  banks     : Tbl DramBank := []
  last      : List DramCmd := []       -- the commands of the last access or refresh (R276)
  pinLogs   : Tbl Nat := []            -- by pin: kind-0 log entries that named it (11 R308)
  deriving DecidableEq, Repr

/-- Where a stack stands on its way into or out of self-refresh (10 R286). -/
inductive SelfRefresh where
  | none
  | entering
  | entered
  deriving DecidableEq, Repr

/-- One stack. -/
structure Stack where
  step      : Nat := 1                 -- the training step that runs (10 Table 10-7); 10 when all are done
  attempt   : Nat := 1
  failed    : Bool := false
  badPins   : Nat := 0                 -- pins that failed step 5 or 6: bit 36 × pch + pin
  readSet   : Option Nat := none       -- draw of the settings that step 5 found (log 174)
  writeSet  : Option Nat := none       -- draw of the settings that step 6 found
  eyeSet    : Option Nat := none       -- draw of the eyes that step 8 measured
  temp      : Int := 0                 -- last temperature reading, log 16
  lowReads  : Nat := 0                 -- consecutive readings at or below 83 degrees
  shortWin  : Bool := false            -- the 16 ms refresh window (R283)
  hot       : Bool := false            -- its access-rate limit is held at 32/64 (15 R419)
  selfRef   : SelfRefresh := .none
  entryTemp : Int := 0
  dueAll    : Bool := false            -- banks without a refresh since the exit have one due (R286)
  pasr      : Nat := 1                 -- PASR_RETAIN (Table 10-8)
  pchs      : Tbl Pch := []
  win       : Nat := 0                 -- the window of 1,024 cycles that `used` belongs to (R280)
  used      : Tbl Nat := []            -- sector slots of all pseudo-channels used in it, keyed as `Pch.slots`
  log       : List LogEntry := []      -- address log, at most 16 (11 R307)
  testCount : Nat × Nat × Nat := (0, 0, 0)   -- corrected, uncorrectable, MAC failures in test granules (11 R314)
  mowNext   : Nat := 0                 -- next stack-local sector of the pass (11 R310)
  mowFrom   : Nat := 0                 -- tick at which the pass began
  mowPaused : Bool := false
  caErrors  : Nat := 0
  deriving DecidableEq, Repr

/-- The stacks and the map masks all of them use (10 R282). `lanes` outlives a cold reset: the lane repairs that are stored
(Table 10-7 steps 2 and 7), by stack, bit 36 × pch + pin. -/
structure Stk where
  units   : Tbl Stack := []
  pc      : List Nat := [0x00002001, 0x00004002, 0x00008004, 0x00010008, 0x00020010, 0x00040020]
  bk      : List Nat := [0x00080040, 0x00100080, 0x00200100, 0x00400200]
  lanes   : Tbl Nat := []
  waiting : Tbl (List Access) := []    -- by stack: accesses that wait for a hold to end (R293)
  deriving DecidableEq, Repr

end Sys2Proof.Machine
end

