-- ==== Sys2Proof/Machine/State/Stream.lean ====
section
/-! DEFINITION. State/Stream.lean: streams and stations (01, 02), formats and programs (03), windows (04), sequence
contexts and cadence (05), arbiters, shares and policing (14). -/

namespace Sys2Proof.Machine

/-- Where an accepted tile stands. `ready`: with its stream, bound to no station. `bound`: parked at a station's
arbiter or behind the stream's running tile. `running`: in its step. `splitting`: a query whose splits run. `recall`:
waiting for a page, a line or a mirror copy. `order`: its last step is done and it waits for SCATTER order or for its
ledger tile. `writing`: in its final write. `mirror`: written and waiting for the standby. -/
inductive TileSt where
  | ready
  | bound (station : Nat)
  | running (station : Nat)
  | splitting
  | recall (station : Nat)
  | order
  | writing
  | mirror
  deriving DecidableEq, Repr

/-- A partial result of a split (05 R141 to R144), per query head: the running maximum, the sum and the accumulators as
binary32 patterns (none where the split does not take part for the query position), the condition met, and the elements of
the output under it. -/
structure Partial where
  heads  : List (Option (Nat × Nat × List Nat)) := []
  status : Nat := 0
  marks  : List Nat := []
  deriving DecidableEq, Repr

/-- A translation that work holds while it moves bytes (08 R223): the page of the device, and the extent and page that it
belongs to where it lies in one. -/
structure HeldPage where
  page : Nat
  ext  : Option (Nat × Nat) := none
  deriving DecidableEq, Repr

/-- A split of a query (05 R137): its station, whether it runs, the translations it then holds, whether its work is done but
for bytes that it waits for, its partial once finished. -/
structure Split where
  station : Option Nat := none
  running : Bool := false
  tr      : Tbl HeldPage := []
  ended   : Bool := false
  result  : Option Partial := none
  deriving DecidableEq, Repr

/-- Bytes that a final write puts in place: the device address, the extent and offset they belong to where they lie in
one, the bytes, and the sectors of the device among them that carry poison. -/
structure TileWrite where
  dev   : Nat
  ext   : Option (Nat × Nat) := none
  bytes : List Byte
  bad   : List Nat := []
  deriving DecidableEq, Repr

/-- A write-back operand of a tile that waits for its final write (02 R39): its address, its packed bytes, and which of
its sectors carry poison. -/
structure BackWrite where
  va    : Nat
  bytes : List Byte
  bad   : List Nat := []
  deriving DecidableEq, Repr

/-- An accepted tile that is not yet settled (02 R52). `hdr` is the 64-byte header as a number, `data` the payload as it
stands before step `step` (`loaded` once an extent source has been read), `cond` the worst data condition so far, `marks`
the elements of `data` under it, `tr` the translations it holds from the first byte it moves (08 R223), `ended` that its
step or its final write waits only for bytes to be at hand, `writes` what its final write puts in place, and `began` that
its final write has begun (R51). -/
structure Tile where
  req     : Option Req
  hdr     : Nat
  data    : List Byte
  count   : Nat
  step    : Nat := 0
  st      : TileSt := .ready
  prev    : Option Nat := none          -- station of the previous step
  yellow  : Bool := false
  cond    : Nat := 0
  marks   : List Nat := []
  tr      : Tbl HeldPage := []
  ended   : Bool := false
  began   : Bool := false
  outs    : List BackWrite := []
  writes  : List TileWrite := []
  loaded  : Bool := false
  splits  : Tbl Split := []
  diff    : Nat := 0                    -- CHECK op 0: differing elements
  deriving DecidableEq, Repr

/-- A VECTOR operand (02 Table 2-8): address, format, write-back. -/
structure Operand where
  addr      : Nat
  format    : Nat
  writeback : Bool
  deriving DecidableEq, Repr

/-- A version binding of a stream (06 R178): an extent and the version it reads, or the draft handle it writes. -/
structure Binding where
  extent  : Nat
  version : Nat
  draft   : Option Nat
  deriving DecidableEq, Repr

/-- A stream context (02). `head` is the 64-byte descriptor head, `steps` its recipe steps. -/
structure Stream where
  tenant    : Nat
  session   : Option Nat            -- the link session that opened it; none over CCP
  ccp       : Option Nat := none    -- the CCP session that created it
  node      : Nat := 0
  head      : Nat
  steps     : List Nat
  operands  : List (List Operand) := []   -- the operand tables read at open, per step (02 R39)
  progs     : Tbl Nat := []               -- VECTOR programs copied at open, by step (03 R80)
  bindings  : List Binding := []
  priority  : Nat := 0
  closed    : Bool := false
  ended     : Bool := false         -- its tenant session ends: it goes to FREE with its last tile (09 R241)
  outcome   : Nat := 0
  count     : Option Nat := none    -- tile count, once known (02 R55)
  lowest    : Nat := 0              -- lowest unsettled index: the progress count
  settled   : List Nat := []        -- settled indices above it
  tiles     : Tbl Tile := []
  issued    : Nat := 0
  done      : Nat := 0
  flagged   : Nat := 0
  firstTile : Nat := 0xFFFFFFFF
  firstStat : Nat := 0
  check     : Nat := 0              -- CHECK count or running CRC
  checkHeld : Tbl (List Byte) := [] -- packed elements of settled tiles that wait for their turn in the CRC
  stuck     : Bool := false         -- a tile marked last came below an accepted index (02 R55)
  preempts  : Nat := 0
  hogCut    : Bool := false
  closeReq  : List Req := []        -- held STREAM_CLOSE requests
  closeCmd  : List CmdRef := []     -- and commands
  idleDue   : Nat := 0
  freeDue   : Nat := 0              -- release timer, once the record is complete
  deriving DecidableEq, Repr

/-- A VECTOR program slot (03 R80). -/
structure Prog where
  tenant : Nat
  block  : Nat
  deriving DecidableEq, Repr

/-- Streams, formats and programs. -/
structure Str where
  streams : Tbl Stream := []
  epochs  : Tbl Nat := []           -- by context, absent is 0 (02 R47)
  formats : Tbl Nat := []           -- slots 14 to 31 (03 R65); slots 0 to 13 are fixed
  progs   : Tbl Prog := []
  deriving DecidableEq, Repr

/-- The state of a physical station (01 Table 1-2). -/
inductive StnSt where
  | absent
  | bound (slot : Nat)
  | spare
  | fenced (slot : Nat)
  deriving DecidableEq, Repr

/-- A stream parked at an arbiter (14 Table 14-5): when it was parked. -/
structure Parked where
  stream : Nat
  since  : Nat
  order  : Nat
  deriving DecidableEq, Repr

/-- A station and its arbiter (01, 14). `work` lists the tiles and splits bound to it that have not begun: stream,
index, split. `run` is the one in its step. -/
structure Station where
  st      : StnSt := .absent
  sl1     : Bool := false
  waking  : Bool := false
  ceiling : Nat := 64
  granted : Option Nat := none
  burst   : Nat := 0
  hold    : Nat := 0
  parked  : List Parked := []
  nextOrd : Nat := 0
  limits  : Nat × Nat := (1024, 64)           -- hold and burst limits of the grant (14 R393)
  cut     : List (Nat × List Nat) := []       -- a cut stream and the parked streams that go first (14 R392)
  resident : List (Nat × Nat) := []           -- resident ledger tiles, window and number, newest first (04 R105)
  run     : Option (Nat × Nat × Option Nat) := none
  work    : List (Nat × Nat × Option Nat) := []
  idleFrom : Nat := 0
  worked   : Option Nat := none               -- the tenant whose work the station began last (09 R274)
  reassigned : Bool := false                  -- a change of assignment takes effect at its next boundary (14 R396)
  deriving DecidableEq, Repr

/-- Stations and fields. -/
structure Stn where
  stations : Tbl Station := []
  sl2      : Nat := 0               -- fields whose stations are power-gated, a map
  waking   : Nat := 0               -- fields on their way out of SL2, a map
  fieldIdle : Tbl Nat := []         -- by field: the tick its stations were all in SL1
  deriving DecidableEq, Repr

/-- Window states (04 Table 4-6); an absent window is FREE. -/
inductive WinSt where
  | disabled
  | opened
  | closed
  | retired
  deriving DecidableEq, Repr

/-- Where a ledger tile stands (04 R110): open; in its final write (begun; its words written, with the delivery still to
come; or waiting for the standby); closed. -/
inductive LPhase where
  | opened
  | writing
  | written
  | mirror
  | closed
  deriving DecidableEq, Repr

/-- A ledger tile that has been addressed (04 R104 to R115). `home` is its home station, `placed` that its first
contribution has come. A resident tile holds its words in `words`, and a closed one its final words; the words of a spilled
one are in its image. `tr` holds the translations of a final write that has begun (08 R223). -/
structure LTile where
  home     : Option Nat := none
  placed   : Bool := false
  spilled  : Bool := false
  words    : List Nat := []
  bitmap   : Nat := 0
  next     : Nat := 0               -- next expected contributor in ordered mode
  overflow : Bool := false
  poison   : Bool := false
  marks    : List Nat := []         -- elements under poison
  flag     : Nat := 0               -- status of a failed destination write or delivery
  tr       : Tbl HeldPage := []
  writes   : List TileWrite := []   -- the result tile as its delivery waits (R110)
  phase    : LPhase := .opened
  deriving DecidableEq, Repr

/-- A reduce window (04). `desc` is the block of Table 4-1; `resBytes` is *res_bytes*, fixed at its creation (R100). -/
structure Window where
  tenant    : Nat
  desc      : Nat
  resBytes  : Nat := 0
  state     : WinSt := .disabled
  outcome   : Nat := 0
  dups      : Nat := 0
  spilled   : Nat := 0
  overflow  : Nat := 0
  poisoned  : Nat := 0
  closedN   : Nat := 0
  firstTile : Nat := 0xFFFFFFFF
  firstStat : Nat := 0
  tiles     : Tbl LTile := []
  retireCmd : Option CmdRef := none
  idleDue   : Nat := 0
  deriving DecidableEq, Repr

/-- What a sequence context holds back until its accepted tiles have completed (05 Table 5-3). -/
inductive SeqHold where
  | truncate (n : Nat) (cmd : CmdRef)
  | disable (cmd : CmdRef)
  deriving DecidableEq, Repr

/-- A sequence context (05). `desc` is the block of Table 5-1. -/
structure Context where
  tenant    : Nat
  desc      : Nat
  enabled   : Bool := false
  frontiers : List Nat := []
  scales    : List Nat := []        -- copy of the scale table, binary32 patterns
  queries   : Nat := 0
  rows      : Nat := 0
  holds     : List SeqHold := []    -- oldest first
  deriving DecidableEq, Repr

/-- A cadence class (05 Table 5-7, R146 to R148): its block, the one for the next period, the cycles that the stations it
takes its share of have had in the present period, and its use of them. -/
structure Cadence where
  block  : Nat := 0
  next   : Option Nat := none
  cycles : Nat := 0
  used   : Nat := 0
  last   : Nat := 0
  short  : Nat := 0
  due    : Nat := 0
  deriving DecidableEq, Repr

/-- A RESULT_READ that had passed the hedge check when its window retired, and the answer it still gets (04 R117): its
status, its tile, the tile's poisoned elements. -/
structure LateRead where
  r      : Req
  status : Nat
  tile   : List Byte
  marks  : List Nat
  deriving DecidableEq, Repr

/-- Windows and attention. -/
structure Seq where
  windows  : Tbl Window := []
  late     : List LateRead := []
  contexts : Tbl Context := []
  cadence  : Tbl Cadence := []
  deriving DecidableEq, Repr

/-- A meter or bucket with its tokens (14 R383). `block` is the block in force, `next` the one for the next refill. -/
structure Meter where
  block : Nat := 0
  next  : Option Nat := none
  tc    : Nat := 0
  tp    : Nat := 0
  deriving DecidableEq, Repr

/-- A node block (14 Table 14-4). -/
structure Node where
  minShare : Nat := 0
  maxShare : Nat := 1024
  weight   : Nat := 1
  deriving DecidableEq, Repr

/-- A histogram of a scheduling point (14 R400): 16 depth and 16 delay counts. -/
structure Hist where
  depth : List Nat := List.replicate 16 0
  delay : List Nat := List.replicate 16 0
  left  : Nat := 0                   -- items that have left the queue
  tick  : Nat := 0                   -- slow-clock count of its last entry (01 R25)
  deriving DecidableEq, Repr

/-- A request in a hub queue (14 R388): where it is charged, when it came, its place, and the sectors whose slots an isolated
tenant's request has yet to get (R398). -/
structure HubEntry where
  r     : Req
  use   : HubUse
  since : Nat
  order : Nat
  need  : List Nat := []
  deriving DecidableEq, Repr

/-- Scheduling and policing (14). Node blocks are keyed by (subscriber × 2 + resource) × 8 + node. -/
structure Sch where
  nodes   : Tbl Node := [((0 * 2 + 0) * 8 + 7, ⟨64, 1024, 1⟩), ((0 * 2 + 1) * 8 + 7, ⟨64, 1024, 1⟩)]
  olds    : Tbl (Tbl Node) := []      -- by point: replaced blocks that its present round still uses (14 R389)
  arb     : List (Nat × Nat) := List.replicate 5 (1024, 64)   -- hold and burst limits by service (14 R393)
  iso     : Tbl Nat := []             -- by tenant: ISOLATE_SET block with enable 1
  dedicated : Tbl Nat := []           -- by physical station: the isolated tenant that has it
  short   : List (Nat × Nat) := []    -- (tenant, field) recorded as short
  meters  : Tbl Meter := []           -- by tenant
  profs   : Tbl Meter := []           -- by tenant: requester profile (tokens unused)
  buckets : Tbl Meter := []           -- by link session
  used    : Tbl (Tbl Nat) := []       -- by point: units used, keyed by subscriber × 8 + service
  hists   : Tbl Hist := []            -- by (point × 65,536 + index) × 65,536 + subscriber
  hubs    : Tbl (List HubEntry) := [] -- by field: its hub queue, oldest first
  hubNext : Nat := 0                  -- place of the next entry
  deriving DecidableEq, Repr

end Sys2Proof.Machine
end

