-- ==== Sys2Proof/Machine/State/Fabric.lean ====
section
/-! DEFINITION. State/Fabric.lean: the fabric protocol and routing (13), the 64 ports and their links (12), power,
levels and sleep (15). -/

namespace Sys2Proof.Machine

/-- Where the request of a tag stands (13 R355). -/
inductive TagSt where
  | executing
  | done
  | free         -- open for retry
  deriving DecidableEq, Repr

/-- A tag table entry (13 R355) with the retries that wait for the original (Table 13-5 row 8). -/
structure TagRec where
  tgen : Nat
  st   : TagSt
  dups : List Packet := []
  deriving DecidableEq, Repr

/-- A node table entry (13 R355, R358). -/
structure NodeRec where
  gen       : Option Nat := none
  loss      : Nat := 0
  reachable : Bool := false
  noRoute   : Option Nat := none    -- tick since which its entry has no candidate UP or RETRAIN
  deriving DecidableEq, Repr

/-- Fence state of a source (13 R360): x and the counts of fnum x to x + 7. -/
structure Fence where
  x      : Nat := 0
  counts : List Nat := List.replicate 8 0
  deriving DecidableEq, Repr

/-- A fenced request that is held (13 R360), with its arrival tick. -/
structure HeldFence where
  r      : Req
  since  : Nat
  deriving DecidableEq, Repr

/-- A routing bank (13 R362, R369, R370). -/
structure Bank where
  entries : Tbl Nat := []
  opened  : Bool := false
  quiet   : Bool := false
  lastUse : Nat := 0       -- tick of the later moment of R369
  deriving DecidableEq, Repr

/-- A packet the router holds (13 R364): its opcode, arrival port, how long it is here, and its subscriber and service (14
R379). -/
structure Transit where
  opcode : Nat
  p      : Packet
  inPort : Option Nat      -- none: originated here
  since  : Nat
  sub    : Nat × Nat
  deriving DecidableEq, Repr

/-- What a request the device issued is for (13 R353). -/
inductive IssuedFor where
  | snoop (line node : Nat)
  | recall (extent page : Nat)
  | mirror
  | beat
  | metaRec
  | fetch (stack sector : Nat)
  | copy (extent offset : Nat)
  | fence
  | renew (sent : Nat) (out back : Bool)
  | claim (sent : Nat)
  | place (extent : Nat) (cmd : CmdRef)
  deriving DecidableEq, Repr

/-- A request this device issued and waits for. -/
structure Issued where
  tgen : Nat
  dst  : Nat
  what : IssuedFor
  deriving DecidableEq, Repr

/-- REQ credits of a packet that came in flits, which its port returns when the request moves on (15 R421). -/
structure OwedCredit where
  port  : Nat
  flits : Nat
  src   : Nat
  tag   : Nat
  deriving DecidableEq, Repr

/-- The fabric protocol and the router. -/
structure Fab where
  nodeId   : Option Nat := none       -- from the configuration (log 7)
  ngen     : Nat := 0
  nodes    : Tbl NodeRec := []
  tags     : Tbl TagRec := []         -- by node × 4,096 + tag
  cache    : List CacheRec := []      -- newest used first, at most 1,048,576 (13 R355)
  fences   : Tbl Fence := []          -- by source node
  held     : List HeldFence := []
  bank0    : Bank := {}
  bank1    : Bank := { quiet := true }
  epoch    : Nat := 0                 -- epoch_cur
  escWait  : Nat := 100
  misses   : Nat := 0                 -- epoch misses (13 R370)
  unrouted : Nat := 0
  aged     : Nat := 0
  late     : Nat := 0
  escaped  : Nat := 0
  groups   : Tbl (Nat × Bool) := []   -- multicast group: ports, enable
  transit  : Tbl Transit := []
  nextId   : Nat := 0
  issued   : Tbl Issued := []         -- by tag
  nextTag  : Nat := 0
  tagGens  : Tbl Nat := []            -- the last generation this device used of its tag
  waiting  : List Req := []           -- requests that wait in receive buffers for the device to wake (15 R421)
  atomics  : List (Nat × Req) := []   -- atomics that wait in receive buffers for a station to wake (15 R421): station, request
  owed     : List OwedCredit := []
  deriving DecidableEq, Repr

/-- Port states (12 Table 12-7). -/
inductive PortSt where
  | dark
  | training
  | session
  | up
  | retrain
  | down
  deriving DecidableEq, Repr

/-- A sequenced flit as the replay buffer holds it (12 R333). -/
structure TxFlit where
  e       : Nat
  ctl     : Bool
  vc      : Nat
  first   : Bool
  last    : Bool
  payload : List Byte
  txNum   : Nat := 0
  deriving DecidableEq, Repr

/-- A packet in a transmit queue: its bytes not yet sent, and its subscriber and service (14 Table 14-1). -/
structure TxPkt where
  opcode : Nat
  p      : Packet
  bytes  : List Byte
  sub    : Nat
  svc    : Nat
  own    : Bool
  begun  : Bool := false
  since  : Nat
  deriving DecidableEq, Repr

/-- An outstanding-table entry (12 R343). -/
structure Outst where
  src    : Nat
  dst    : Nat
  tag    : Nat
  tgen   : Nat
  ngen   : Nat
  link   : Nat           -- the request's link session, for its completion
  own    : Bool
  due    : Nat
  deriving DecidableEq, Repr

/-- How far a port session has come (12 Table 12-6), and a rekey (R340). -/
structure PortSess where
  peerHash  : Nat := 0
  higher    : Bool := false      -- this end is the higher end
  helloIn   : Bool := false
  kemDone   : Bool := false
  finishOut : Bool := false
  finishSent : Bool := false     -- this end's PS_FINISH has left: every flit is protected from now on
  ctlBegun  : Bool := false      -- the control message in front has begun
  finishIn  : Bool := false
  paramsIn  : Bool := false
  rekeyOut  : Bool := false      -- KEY_NEXT sent
  rekeyIn   : Bool := false      -- the peer's KEY_NEXT received
  nextReady : Bool := false      -- next keys are loaded
  txNew     : Bool := false      -- this end transmits under its next key
  rxNew     : Bool := false      -- a flit of the peer's next key has been accepted
  deriving DecidableEq, Repr

/-- One fabric port (12). -/
structure Port where
  st        : PortSt := .dark
  enable    : Bool := true       -- log 14
  mode      : Nat := 0
  replayTo  : Nat := 20
  ackTimer  : Nat := 20
  ackEvery  : Nat := 64
  replayLim : Nat := 4
  wMax      : Nat := 8
  w         : Nat := 0
  tNs       : Nat := 0
  laser     : Bool := true       -- log 14
  lastLight : Option Nat := some 0   -- tick since which its receiver has been dark; none: light present
  sess      : PortSess := {}
  txE       : Nat := 0           -- E of the next sequenced flit
  unacked   : List TxFlit := []  -- oldest first
  toReplay  : Nat := 0           -- the last flits of `unacked` that a replay in progress still has to send
  credits   : List Nat := List.replicate 6 0
  lastTot   : List Nat := List.replicate 6 0
  keyPhase  : Nat := 0
  keyFlits  : Nat := 0           -- flits the transmit key has protected
  idleCount : Nat := 0
  slot      : Nat := 0           -- slot of the present frame (14 R397)
  queues    : List (List TxPkt) := List.replicate 6 []
  ctlQueue  : List (List Byte) := []
  rxX       : Nat := 0           -- E expected next
  nakSent   : Bool := false
  nakDue    : Bool := false
  ackDue    : Bool := false
  sinceAck  : Nat := 0
  freed     : List Nat := List.replicate 6 0
  reported  : List Nat := List.replicate 6 0
  nextRep   : Nat := 0           -- channel reported next
  rxParts   : Tbl (List Byte) := []   -- partly received packets by channel; 6 for control messages
  reqFlits  : Nat := 0           -- flits of the REQ packet in receipt whose credits are not returned yet (15 R421)
  rxIdle    : Option Nat := none
  rxPhase   : Nat := 0
  replays   : Nat := 0           -- replays of the oldest unacknowledged flit
  acked     : Nat := 0           -- flits acknowledged since the last retrain completed
  ran       : Bool := false      -- a counted retrain has been completed in this session
  counted   : Bool := false      -- the retrain in progress counts as a run
  nextW     : Option Nat := none -- the w it realigns at
  ackedUp   : Nat := 0           -- flits acknowledged since the port came UP from SESSION (20 Table 20-5)
  keys      : List Nat := [0, 0, 0, 0]   -- slots: transmit current and next, receive current and next; 0 empty
  outst     : List Outst := []
  crcFails  : Nat := 0
  replayN   : Nat := 0
  retrains  : Nat := 0
  downs     : List Nat := List.replicate 7 0   -- by reason, 1 to 6
  security  : Nat := 0
  idleDisc  : Nat := 0
  fec       : List Nat := List.replicate 8 0
  flitsMs   : Nat := 0           -- flits sent in the present millisecond (15 R412)
  downDue   : Nat := 0
  deriving DecidableEq, Repr

/-- A change of performance level in progress (15 Table 15-3). -/
structure LevelChange where
  target  : Nat
  tries   : Nat := 0      -- voltage writes sent for it
  written : Bool := false -- a voltage write waits for VDone
  acked   : Bool := false -- it was acknowledged
  locked  : Bool := false -- the idle PLLs are locked
  deriving DecidableEq, Repr

/-- A monitored rail (15 R407, R408). `k` in units of 1/65,536; powers in milliwatts; `ests` newest first. -/
structure Rail where
  k        : Nat := 65536
  m        : Nat := 0
  ests     : List Nat := []
  frozen   : Bool := false
  disagree : Nat := 0
  agree    : Nat := 0
  deriving DecidableEq, Repr

/-- Device sleep states (15 Table 15-7). -/
inductive SleepSt where
  | active
  | sl3
  | sl4
  | waking
  deriving DecidableEq, Repr

/-- The power controller (15). -/
structure Pwr where
  level     : Nat := 4             -- 21 R516: a cold reset runs PL4
  plMax     : Nat := 0             -- `pl_max` of the last POWER_SET
  block     : Nat := 0             -- POWER_SET block in force
  next      : Option Nat := none   -- the one for the next period
  thermal   : Nat := 0             -- fastest level the thermal limits allow
  coolReads : List Nat := [0, 0, 0, 0]   -- consecutive cool readings of PL0 to PL3, to 10
  droopLvl  : Nat := 0             -- fastest level droop allows
  change    : Option LevelChange := none
  held      : Nat := 520           -- voltage last acknowledged, mV, log 17
  fault     : Bool := false
  issue     : Nat := 64
  rate      : Nat := 64            -- access-rate limit of the stacks
  budgets   : List Nat := [0, 0, 0]      -- links, memory, compute
  ests      : List Nat := [0, 0, 0, 0]   -- links, memory, compute, fixed: last estimates
  compute   : List Nat := []             -- the last ten compute estimates, newest first
  floor     : Nat := 0                   -- grazing floor
  rails     : Tbl Rail := []
  droops    : Nat := 0
  clamp     : Nat := 0                   -- fields whose detector holds the droop clamp, a map
  window    : Nat := 0                   -- trips in the present droop window
  persisted : Bool := false
  thermals  : Nat := 0
  grazes    : Nat := 0
  isoShorts : Nat := 0
  isoShort  : Bool := false              -- the cap divides as if no tenant were isolated (R414)
  sleepSet  : Nat := 0
  sleep     : SleepSt := .active
  wakeTick  : Nat := 0
  deriving DecidableEq, Repr

end Sys2Proof.Machine
end

