-- ==== Sys2Proof/Machine/State.lean ====
section
/-! DEFINITION. State.lean: the state of the block, its faults and refusals, and the state after a cold reset. -/

namespace Sys2Proof.Machine

/-- What leaves the block. Newest first in `State.out` (log 2). -/
inductive Output where
  /-- A CCP response on an Ethernet port in a class (17 R451). -/
  | ccpResponse (port cls session opcode cmdId mailbox : Nat) (r : Reply)
  /-- CCP_HELLO_REPLY with the new session (17 Table 17-3 step 2). -/
  | helloReply (port session : Nat)
  /-- An event notice with its count of unread records (17 R465). -/
  | notice (port session count : Nat)
  /-- A bulk acknowledgement (17 R459). -/
  | bulkAck (port session channel offset : Nat)
  /-- A PFC frame on all eight priorities with a pause time in quanta (17 R455). -/
  | pfc (port quanta : Nat)
  /-- A packet the device forms: a completion, a snoop, a recall, a multicast copy, pair or witness traffic. -/
  | packet (opcode : Nat) (p : Packet)
  /-- A flit on a port: its header fields and payload (12 Table 12-3). -/
  | flit (port : Nat) (f : Flit)
  /-- The down pattern on a port (12 R341). -/
  | downPattern (port : Nat)
  /-- A voltage write to the core regulator, in millivolts (15 R405). -/
  | voltage (mv : Nat)
  /-- The level of XSPI_RESET_N changes with RESET_N (21 R523). -/
  | xspiResetN (high : Bool)
  /-- What a read of one sector answers: its address, the condition's code, the data (11 Table 11-3). -/
  | sector (number status : Nat) (data : List Byte)
  /-- The sector writes and cache records a PAIR_MIRROR carries (16 Table 16-5); its payload is internal to the pair. -/
  | mirrored (tag : Nat) (m : MirrorMsg)
  /-- The metadata record a PAIR_META carries (16 R433). -/
  | metaSent (tag : Nat) (r : PairRec)
  /-- The poisoned elements of a RESULT or ATT_OUT tile that leaves for a node under a tag (03 R96, 04 R116, log 167). -/
  | marks (node tag : Nat) (elems : List Nat)
  /-- The extent and offset a PAIR_FETCH or PAIR_COPY names, and a copy's bytes (11 R302, 16 R440). -/
  | pairSector (tag extent offset : Nat) (data : List Byte)
  /-- The lease operand of a LEASE_RENEW or LEASE_CLAIM (16 Table 16-3). -/
  | lease (tag : Nat) (claim : Bool) (operand : Nat)
  /-- The answer to an ARP, neighbour discovery or echo frame (17 R442). -/
  | ethAnswer (port kind : Nat)
  deriving DecidableEq, Repr

/-- What follows from a command inside the same step (log 23). -/
inductive Todo where
  /-- A request or tile runs, or runs again after a wait. -/
  | run (a : Access)
  /-- A request has been accepted: it enters its hub queue, or runs where it has none (14 R380). -/
  | accept (r : Req)
  /-- A hub queue decides who goes next (14 R388). -/
  | hub (field : Nat)
  /-- A request this device issued, with this tag, is lost (12 R344). -/
  | lost (tag : Nat)
  /-- A node has become unreachable or its generation has advanced (13 R358, 06 R170, 07 R207). -/
  | gone (node : Nat)
  /-- A line's queue goes on (07 R197). -/
  | line (handle : Nat)
  /-- A packet has come in whole on a port (12 R329). -/
  | packet (opcode : Nat) (p : Packet)
  /-- A control message has come in whole on a port (12 Table 12-5). -/
  | control (port : Nat) (bytes : List Byte)
  /-- A station decides who runs next (14 R390). -/
  | arbitrate (station : Nat)
  /-- A station begins the step of its item: everything the step touches is translated (08 R222). -/
  | start (station : Nat)
  /-- An accepted append has ended with its rows unwritten: its head's frontier goes back (05 R135, log 163): sequence
  context, head, position. -/
  | unappend (context head position : Nat)
  /-- A tile has waited its bound for a population (08 Table 8-5). -/
  | late (stream index : Nat)
  /-- A split has been granted: the station's store makes room for it (04 R105). -/
  | spill (station : Nat)
  /-- A stream binds its tiles that can run (02 R45, R59). -/
  | bind (stream : Nat)
  /-- A granule has become FREE, or a stalled migration may go on (11 R319). -/
  | migrate
  /-- A ledger tile's held contributions are looked at again (04 R109). -/
  | ledger (window ltile : Nat)
  /-- Open windows look at the mappings of their scratch areas (04 Table 4-6). -/
  | scratch
  /-- A rank is examined against its limits (11 R315). -/
  | rank (rank : Nat)
  deriving DecidableEq, Repr

/-- The state of the block. -/
structure State where
  dev     : Dev := {}
  ready   : Ready := {}
  log     : Log := {}
  stats   : Stats := {}
  ctl     : Ctl := {}
  ten     : Ten := {}
  pair    : Pair := {}
  fw      : Fw := {}
  pool    : Pool := {}
  com     : Com := {}
  stk     : Stk := {}
  str     : Str := {}
  stn     : Stn := {}
  seq     : Seq := {}
  sch     : Sch := {}
  fab     : Fab := {}
  ports   : Tbl Port := []       -- ports that have left their reset state
  pwr     : Pwr := {}
  todo    : List Todo := []      -- what still follows in the present step; empty between steps (log 23)
  pending : List Instr := []     -- the commands that wait, first in first out (log 1)
  out     : List Output := []    -- what left the block, newest first (log 2)
  draws   : Nat := 0             -- free values drawn (log 3)
  deriving DecidableEq, Repr

/-- Why the block stops. -/
inductive Fault where
  /-- A command names a unit the device does not have (a port, stack, station, ... beyond its count): raised by
  every meaning before anything else. Safe: no such command exists. -/
  | noSuchUnit
  deriving DecidableEq, Repr

/-- Why the block refuses a command. -/
inductive Refusal where
  /-- The row has no meaning yet: raised by its arm of exec alone. Safe. -/
  | notModelled (mnemonic : String)
  deriving DecidableEq, Repr

/-- The state right after a cold reset: every field at its default, which is the value the spec gives or the one its
log entry names. -/
def State.reset : State :=
  { dev := {}, ready := {}, log := {}, stats := {}, ctl := {}, ten := {}, pair := {}, fw := {},
    pool := {}, com := {}, stk := {}, str := {}, stn := {}, seq := {}, sch := {}, fab := {}, ports := [], pwr := {},
    todo := [], pending := [], out := [], draws := 0 }

end Sys2Proof.Machine
end

