-- ==== Sys2Proof/Machine/Ops.lean ====
section
/-! DEFINITION. Ops.lean: the named operations over the state: tables, free values, outputs, event records (20 R501 to
R505), counters (20 R507), and who a unit answers to. -/

namespace Sys2Proof.Machine

/-! One value of a table replaced (put) or taken out (del). -/

def State.putTenant (s : State) (k : Nat) (v : Tenant) : State := { s with ten.tenants := s.ten.tenants.put k v }
def State.delTenant (s : State) (k : Nat) : State := { s with ten.tenants := s.ten.tenants.del k }

def State.putLink (s : State) (k : Nat) (v : Link) : State := { s with ten.links := s.ten.links.put k v }
def State.delLink (s : State) (k : Nat) : State := { s with ten.links := s.ten.links.del k }

def State.putImport (s : State) (k : Nat) (v : Import) : State := { s with ten.imports := s.ten.imports.put k v }
def State.delImport (s : State) (k : Nat) : State := { s with ten.imports := s.ten.imports.del k }

def State.putExtent (s : State) (k : Nat) (v : Extent) : State := { s with pool.extents := s.pool.extents.put k v }
def State.delExtent (s : State) (k : Nat) : State := { s with pool.extents := s.pool.extents.del k }

def State.putHandle (s : State) (k : Nat) (v : Handle) : State := { s with pool.handles := s.pool.handles.put k v }
def State.delHandle (s : State) (k : Nat) : State := { s with pool.handles := s.pool.handles.del k }

def State.putCheckout (s : State) (k : Nat) (v : Checkout) : State := { s with pool.checkouts := s.pool.checkouts.put k v }
def State.delCheckout (s : State) (k : Nat) : State := { s with pool.checkouts := s.pool.checkouts.del k }

def State.putSpace (s : State) (k : Nat) (v : Space) : State := { s with pool.spaces := s.pool.spaces.put k v }
def State.delSpace (s : State) (k : Nat) : State := { s with pool.spaces := s.pool.spaces.del k }

def State.putInval (s : State) (k : Nat) (v : Inval) : State := { s with pool.invals := s.pool.invals.put k v }
def State.delInval (s : State) (k : Nat) : State := { s with pool.invals := s.pool.invals.del k }

def State.putGran (s : State) (k : Nat) (v : Gran) : State := { s with pool.grans := s.pool.grans.put k v }
def State.delGran (s : State) (k : Nat) : State := { s with pool.grans := s.pool.grans.del k }

def State.putSector (s : State) (k : Nat) (v : SecMeta) : State := { s with pool.sectors := s.pool.sectors.put k v }
def State.delSector (s : State) (k : Nat) : State := { s with pool.sectors := s.pool.sectors.del k }

def State.putCommon (s : State) (k : Nat) (v : Common) : State := { s with com.commons := s.com.commons.put k v }
def State.delCommon (s : State) (k : Nat) : State := { s with com.commons := s.com.commons.del k }

def State.putDir (s : State) (k : Nat) (v : DirEntry) : State := { s with com.dir := s.com.dir.put k v }
def State.delDir (s : State) (k : Nat) : State := { s with com.dir := s.com.dir.del k }

def State.putTrans (s : State) (k : Nat) (v : Trans) : State := { s with com.trans := s.com.trans.put k v }
def State.delTrans (s : State) (k : Nat) : State := { s with com.trans := s.com.trans.del k }

def State.putStream (s : State) (k : Nat) (v : Stream) : State := { s with str.streams := s.str.streams.put k v }
def State.delStream (s : State) (k : Nat) : State := { s with str.streams := s.str.streams.del k }

def State.putStation (s : State) (k : Nat) (v : Station) : State := { s with stn.stations := s.stn.stations.put k v }
def State.delStation (s : State) (k : Nat) : State := { s with stn.stations := s.stn.stations.del k }

def State.putWindow (s : State) (k : Nat) (v : Window) : State := { s with seq.windows := s.seq.windows.put k v }
def State.delWindow (s : State) (k : Nat) : State := { s with seq.windows := s.seq.windows.del k }

def State.putContext (s : State) (k : Nat) (v : Context) : State := { s with seq.contexts := s.seq.contexts.put k v }
def State.delContext (s : State) (k : Nat) : State := { s with seq.contexts := s.seq.contexts.del k }

def State.putCadence (s : State) (k : Nat) (v : Cadence) : State := { s with seq.cadence := s.seq.cadence.put k v }
def State.delCadence (s : State) (k : Nat) : State := { s with seq.cadence := s.seq.cadence.del k }

def State.putSession (s : State) (k : Nat) (v : Session) : State := { s with ctl.sessions := s.ctl.sessions.put k v }
def State.delSession (s : State) (k : Nat) : State := { s with ctl.sessions := s.ctl.sessions.del k }

def State.putMailbox (s : State) (k : Nat) (v : Mailbox) : State := { s with ctl.mailboxes := s.ctl.mailboxes.put k v }
def State.delMailbox (s : State) (k : Nat) : State := { s with ctl.mailboxes := s.ctl.mailboxes.del k }

def State.putBulk (s : State) (k : Nat) (v : Bulk) : State := { s with ctl.bulk := s.ctl.bulk.put k v }
def State.delBulk (s : State) (k : Nat) : State := { s with ctl.bulk := s.ctl.bulk.del k }

def State.putIssued (s : State) (k : Nat) (v : Issued) : State := { s with fab.issued := s.fab.issued.put k v }
def State.delIssued (s : State) (k : Nat) : State := { s with fab.issued := s.fab.issued.del k }

def State.putTagRec (s : State) (k : Nat) (v : TagRec) : State := { s with fab.tags := s.fab.tags.put k v }
def State.delTagRec (s : State) (k : Nat) : State := { s with fab.tags := s.fab.tags.del k }

def State.putNodeRec (s : State) (k : Nat) (v : NodeRec) : State := { s with fab.nodes := s.fab.nodes.put k v }
def State.delNodeRec (s : State) (k : Nat) : State := { s with fab.nodes := s.fab.nodes.del k }

def State.putStack (s : State) (k : Nat) (v : Stack) : State := { s with stk.units := s.stk.units.put k v }
def State.delStack (s : State) (k : Nat) : State := { s with stk.units := s.stk.units.del k }

def State.putPort (s : State) (k : Nat) (v : Port) : State := { s with ports := s.ports.put k v }
def State.delPort (s : State) (k : Nat) : State := { s with ports := s.ports.del k }

def State.tenantOf (s : State) (t : Nat) : Option Tenant := s.ten.tenants.find t
def State.port (s : State) (p : Nat) : Port := s.ports.findD p {}
def State.stack (s : State) (k : Nat) : Stack := s.stk.units.findD k {}
def State.station (s : State) (n : Nat) : Station := s.stn.stations.findD n {}
def State.nodeRec (s : State) (n : Nat) : NodeRec := s.fab.nodes.findD n {}
def State.modPort (s : State) (p : Nat) (f : Port → Port) : State := s.putPort p (f (s.port p))
def State.modStack (s : State) (k : Nat) (f : Stack → Stack) : State := s.putStack k (f (s.stack k))
def State.modStation (s : State) (n : Nat) (f : Station → Station) : State := s.putStation n (f (s.station n))
def Stack.pch (k : Stack) (p : Nat) : Pch := k.pchs.findD p {}
def State.pch (s : State) (k p : Nat) : Pch := (s.stack k).pch p
def State.modPch (s : State) (k p : Nat) (f : Pch → Pch) : State :=
  s.modStack k fun st => { st with pchs := st.pchs.put p (f (st.pch p)) }

/-- The step of a meaning: its next state. -/
abbrev Out := Host.Outcome State Fault Refusal

/-- What still follows in this step (log 23). -/
def State.later (s : State) (l : List Todo) : State := { s with todo := s.todo ++ l }

/-- Something leaves the block. -/
def State.emit (s : State) (o : Output) : State := { s with out := o :: s.out }

/-- The next free value of `w` bits, and the state after the draw (log 3). -/
def State.draw (s : State) (w : Nat) : Nat × State :=
  (Config.freeValue s.draws % 2 ^ w, { s with draws := s.draws + 1 })

/-- The port ready map with a port's bit set or cleared, with the pair link's bit (19 Table 19-2, 16 R426). -/
def State.setPortReady (s : State) (p : Nat) (up : Bool) : State :=
  let m := setBit s.ready.port p up
  let pp := bits s.pair.block 255 192
  { s with ready.port := m, ready.pairLink := s.pair.enabled && (List.range 64).any fun i => bit m i && bit pp i }

/-! Event queues. -/

/-- Up to six numbers of a continuation record as the bits [95:0] (20 R503). -/
def contBits (l : List Nat) : Nat := leNat (l.flatMap fun n => leBytes n 2)

/-- The numbers of a chain cut into groups of six. -/
def sixes : Nat → List Nat → List (List Nat)
  | 0, _ => []
  | _ + 1, [] => []
  | n + 1, l => l.take 6 :: sixes n (l.drop 6)

/-- The records of an event: its head and its continuations, `seq` from `q` (20 R503). -/
def chainOf (e : EvNew) (q lost : Nat) : List EvRec :=
  ⟨e.tick, q % 2 ^ 32, e.code, min lost 65535, e.kind, e.subject, e.arg0, e.arg1⟩ ::
    (sixes e.more.length e.more).zipIdx.map fun c =>
      let b := contBits c.1
      ⟨e.tick, (q + 1 + c.2) % 2 ^ 32, 0xFFFF, 0, 0, 0, b / 2 ^ 32, b % 2 ^ 32⟩

/-- An event enters a queue of capacity `cap`, or is counted as one lost record (20 R501, R503). -/
def EvQueue.push (cap : Nat) (q : EvQueue) (e : EvNew) : EvQueue :=
  let c := chainOf e q.nextSeq q.lost
  if q.recs.length + c.length ≤ cap then
    { recs := q.recs ++ c, nextSeq := (q.nextSeq + c.length) % 2 ^ 32, lost := 0 }
  else { q with lost := q.lost + 1 }

/-- The sessions that read a queue owe a notice (17 R465). -/
def State.owe (s : State) (d : EvDest) : State :=
  let reads (v : Session) : Bool := match d with
    | .operator => v.role == .operator
    | .tenant t => v.role == .tenant && v.tenant == t
  { s with ctl.sessions := s.ctl.sessions.each fun _ v => if reads v then { v with noticeDue := true } else v }

/-- An event enters its queue; a tenant without an open session has none (20 R501). -/
def State.enqueue (s : State) (d : EvDest) (e : EvNew) : State :=
  match d with
  | .operator => ({ s with log.op := s.log.op.push 65536 e }).owe d
  | .tenant t =>
    match s.log.ten.find t with
    | some q => ({ s with log.ten := s.log.ten.put t (q.push 4096 e) }).owe d
    | none => s

/-- Records that wait in the always-on domain. -/
def heldCount (l : List (EvDest × EvNew)) : Nat := sumOf (l.map fun x => 1 + ceilDiv x.2.more.length 6)

/-- An event is recorded: at once, or in the always-on domain during a management-only reset (20 R504, R505). -/
def State.record (s : State) (d : EvDest) (code kind subject arg0 arg1 : Nat) (more : List Nat := []) : State :=
  let e : EvNew := ⟨s.dev.tick, code, kind, subject, arg0 % 2 ^ 64, arg1 % 2 ^ 32, more⟩
  match s.dev.mgmtReset with
  | none => s.enqueue d e
  | some _ =>
    if heldCount s.log.held + 1 + ceilDiv more.length 6 ≤ 1024 then { s with log.held := s.log.held ++ [(d, e)] }
    else { s with log.heldLost := d :: s.log.heldLost }

/-- A record for the operator. -/
def State.recOp (s : State) (code kind subject arg0 arg1 : Nat) : State := s.record .operator code kind subject arg0 arg1

/-- A record for a tenant. -/
def State.recTen (s : State) (t code kind subject arg0 arg1 : Nat) : State := s.record (.tenant t) code kind subject arg0 arg1

/-- A record for the operator and for every tenant queue. The tenants' copy may name other things (20 R502). -/
def State.recAll (s : State) (code kind subject arg0 arg1 tKind tSubject tArg0 tArg1 : Nat) : State :=
  s.log.ten.foldl (fun s q => s.recTen q.1 code tKind tSubject tArg0 tArg1) (s.recOp code kind subject arg0 arg1)

/-- The held records enter their queues in tick order when management returns (20 R505). -/
def State.releaseHeld (s : State) : State :=
  let s1 := s.log.held.foldl (fun s x => s.enqueue x.1 x.2) { s with log.held := [], log.heldLost := [] }
  s.log.heldLost.foldl (fun s d => match d with
    | .operator => { s with log.op.lost := s.log.op.lost + 1 }
    | .tenant t => { s with log.ten := s.log.ten.adjust t fun q => { q with lost := q.lost + 1 } }) s1

/-! Counters. -/

/-- A 64-bit saturating count after `n` more. -/
def sat64 (x n : Nat) : Nat := min (x + n) (2 ^ 64 - 1)

/-- A 32-bit saturating count after `n` more. -/
def sat32 (x n : Nat) : Nat := min (x + n) (2 ^ 32 - 1)

/-- Counter set 3 (20 Table 20-8). -/
def State.countDev (s : State) (i : Nat) (n : Nat := 1) : State :=
  { s with stats.dev := listMod s.stats.dev i (sat64 · n) }

/-- Counter set 0 of a tenant (20 Table 20-8). -/
def State.countTen (s : State) (t i : Nat) (n : Nat := 1) : State :=
  { s with stats.ten := s.stats.ten.put t (listMod (s.stats.ten.findD t (List.replicate 9 0)) i (sat64 · n)) }

/-- A refusal charged to a link session, with its event at multiples of 1,024 (09 R259). -/
def State.chargeLink (s : State) (id : Nat) : State :=
  match s.ten.links.find id with
  | none => s
  | some l =>
    let n := sat32 l.refusals 1
    let s := (s.putLink id { l with refusals := n }).countTen l.tenant 2
    if n % 1024 == 0 && n != l.refusals then s.recTen l.tenant 0x0101 10 id n 0 else s

/-- A refusal counted at a port (09 R259). -/
def State.chargePort (s : State) (p : Nat) : State :=
  let n := sat32 (s.stats.portRef.findD p 0) 1
  let s := { s with stats.portRef := s.stats.portRef.put p n }
  if n % 1024 == 0 then s.recOp 0x0101 6 p n 0 else s

/-! The pair and the device as a whole. -/

/-- Whether the unit is a member of a pair and not ACTIVE in it (18 R471, 16 R436): UNPAIRED serves everything. -/
def State.passive (s : State) : Bool :=
  match s.pair.role with
  | .unpaired => false
  | .active => false
  | _ => true

/-- Whether writes to mirrored extents go to the standby too (16 R434). -/
def State.mirrors (s : State) : Bool := s.pair.role == .active && s.pair.peerIn

/-- Whether the management complex can execute commands. -/
def State.mgmtUp (s : State) : Bool := s.dev.phase == .running && s.ready.mgmt && s.dev.mgmtReset.isNone

/-- Whether a tenant is under isolation mode (14 R395). -/
def State.isolated (s : State) (t : Nat) : Bool := s.sch.iso.has t

end Sys2Proof.Machine
end

