-- ==== Sys2Proof/Machine/Ccp.lean ====
section
/-! DEFINITION. Ccp.lean: how a CCP command travels: sessions, mailboxes, kept responses and the checks common to every
command (17 R448 to R452, R464; 18 R467 to R471). -/

namespace Sys2Proof.Machine

/-- Command kinds (18 Command kinds). -/
inductive CmdKind where
  | session
  | query
  | unit
  | object
  deriving DecidableEq, Repr

/-- One row of 18 Table 18-6: opcode, first version, senders, kind, block length (by block and total), the reserved
fields of the block with those of what it nests (`also`), and the fields an older session may not set (R470, by version and
block). -/
structure CcpSpec where
  opcode : Nat
  first  : Nat
  op     : Bool
  tn     : Bool
  kind   : CmdKind
  len    : Nat → Nat → Bool
  resv   : List (Nat × Nat)
  also   : Nat → Bool := fun _ => false
  old    : Nat → Nat → Bool := fun _ _ => false

/-- A block of a fixed length. -/
def lenIs (n : Nat) : Nat → Nat → Bool := fun _ t => t == n

/-- The object block (18 Table 18-1): every command but SEQ_TRUNCATE has `arg` zero. -/
def objSpec (opcode first : Nat) (op tn : Bool) (kind : CmdKind) : CcpSpec :=
  { opcode, first, op, tn, kind, len := lenIs 8, resv := [(63, 32), (31, 16)] }

/-- What a command's meaning sees: its session, cmd_id, block and length, and the verdicts on what it carries. -/
structure CcpCtx where
  sid   : Nat
  sess  : Session
  cmdId : Nat
  block : Nat
  total : Nat
  sigOk : Bool := true
  auxOk : Bool := true

/-- What a command's meaning answers: the state, the reply (none when its chapter holds it), and what follows once the
reply has left. -/
structure CcpOut where
  s     : State
  reply : Option Reply
  after : State → State := id

abbrev CcpBody := CcpCtx → State → CcpOut

def CcpCtx.ref (c : CcpCtx) : CmdRef := ⟨c.sid, c.cmdId⟩
def CcpCtx.tenant (c : CcpCtx) : Nat := c.sess.tenant
def CcpCtx.isOp (c : CcpCtx) : Bool := c.sess.role == .operator
/-- The object of an object block. -/
def CcpCtx.object (c : CcpCtx) : Nat := bits c.block 15 0

def okBytes (s : State) (b : List Byte) : CcpOut := { s, reply := some ⟨0, 0, b⟩ }
def okEmpty (s : State) : CcpOut := okBytes s []
/-- "With the number" (18 R469). -/
def okNum (s : State) (n : Nat) : CcpOut := okBytes s (leBytes n 8)
/-- A command ends with a status that its chapter names with no reason class; only OK carries reason 0x0000, and any other
names class state (00 R10, log 22). -/
def done (s : State) (st : Status) (body : List Byte := []) : CcpOut :=
  { s, reply := some ⟨st.code, if st == .ok then 0 else 0x0601, body⟩ }
def refuse (s : State) (r : Refuse) : CcpOut := { s, reply := some ⟨r.status.code, r.reason, []⟩ }
def heldCmd (s : State) : CcpOut := { s, reply := none }
/-- The first failing check decides, or the command goes on. -/
def checked (s : State) (l : List (Bool × Refuse)) (k : CcpOut) : CcpOut :=
  match firstRefuse l with
  | some r => refuse s r
  | none => k

/-! Refusals by Table 20-2. -/
def rRange : Refuse := rf .range 1
def rObject : Refuse := rf .range 4
def rNoObject : Refuse := ⟨.faultRange, 0x0401⟩
def rPolicy : Refuse := rf .policy 1
def rForeign : Refuse := rf .policy 2
def rState : Refuse := rf .state 1
def rBusy : Refuse := rf .state 2
def rNotReady : Refuse := rf .dependency 3
def rMalformed : Refuse := ⟨.malformed, 0x0103⟩

def State.eth (s : State) (p : Nat) : EthPort := if p == 0 then s.ctl.ethA else s.ctl.ethB
def State.putEth (s : State) (p : Nat) (e : EthPort) : State :=
  if p == 0 then { s with ctl.ethA := e } else { s with ctl.ethB := e }

/-- Whether a status is kept for retransmission (17 R451). -/
def keptStatus (st : Nat) : Bool := !(st == 0x10 || st == 0x12 || st == 0x13)

/-- The answered commands that stay: the 16 up to and including h, and those in mailboxes (17 R451, log 21). -/
def pruneCmds (h : Nat) (cmds : Tbl CmdRec) : Tbl CmdRec :=
  let dist (k : Nat) : Nat := (h + 65536 - k) % 65536
  let answered := cmds.filter fun e => e.2 != .mailbox
  cmds.filter fun e => e.2 == .mailbox || (answered.filter fun o => dist o.1 < dist e.1).length < 16

/-- A CCP session ends (17 R448): its keys, handshake state and bulk channels go; its commands run on unanswered. -/
def State.endSession (s : State) (sid : Nat) : State :=
  let s := s.delSession sid
  let loads (c : Nat) : Bool := s.ctl.bulk.any fun b => match b.2.consumer with
    | some (.setLoad i k _) => i == sid && k == c
    | _ => false
  { s with
    ctl.bulk := s.ctl.bulk.keep fun _ b => b.session != sid
    ctl.mailboxes := s.ctl.mailboxes.keep fun _ m => m.session != sid || (m.running && !loads m.cmdId) }

/-- A response leaves on the port of its command, in its class, unless a received PFC pause holds it (17 R451, R462). -/
def State.sendResponse (s : State) (port cls sid opcode cmdId mailbox : Nat) (r : Reply) : State :=
  let e := s.eth port
  if s.dev.tick < e.pausedTo.findD cls 0 then
    s.putEth port { e with heldTx := e.heldTx ++ [⟨sid, cmdId, cls, s.dev.tick + 1048576, opcode, mailbox, r⟩] }
  else s.emit (.ccpResponse port cls sid opcode cmdId mailbox r)

/-- The device's frames of a session are numbered; at the last number the session ends (17 R446). -/
def State.numberFrames (s : State) (sid len : Nat) : State :=
  match s.ctl.sessions.find sid with
  | none => s
  | some v =>
    let t := v.txSeq + max 1 (ceilDiv len 8192)
    if 2 ^ 32 - 1 ≤ t then s.endSession sid else s.putSession sid { v with txSeq := t }

/-- The mailbox of a command. -/
def State.mailboxOf (s : State) (sid cmdId : Nat) : Option (Nat × Mailbox) :=
  s.ctl.mailboxes.find? fun m => m.2.session == sid && m.2.cmdId == cmdId

/-- A command completes (17 R451): its mailbox is free, its response is kept or not, and it leaves unless the session
has ended (R448) or management is down (R464). -/
def State.respond (s : State) (ref : CmdRef) (r : Reply) : State :=
  match s.mailboxOf ref.session ref.cmdId with
  | none => s
  | some (mb, m) =>
    let s := s.delMailbox mb
    match s.ctl.sessions.find ref.session with
    | none => s
    | some v =>
      let rec' : CmdRec := if keptStatus r.status then .kept m.opcode mb r else .again
      let cmds := pruneCmds (v.high.getD 0) (v.cmds.put ref.cmdId rec')
      let s := s.putSession ref.session { v with cmds }
      if s.dev.mgmtReset.isSome then s
      else (s.numberFrames ref.session r.body.length).sendResponse m.port m.cls ref.session m.opcode ref.cmdId mb r

/-- A command completes with a status and no reason or body. -/
def State.respondOk (s : State) (ref : CmdRef) : State := s.respond ref ⟨0, 0, []⟩

/-- A held command that ends outside the success class names the reason class state (17 Table 17-5, log 22). -/
def State.respondBad (s : State) (ref : CmdRef) (st : Status) : State := s.respond ref ⟨st.code, 0x0601, []⟩

/-- Whether a `cmd_id` is ahead of h (17 R451). -/
def isNewCmd (v : Session) (c : Nat) : Bool :=
  match v.high with
  | none => true
  | some h => let d := (c + 65536 - h) % 65536; 1 ≤ d && d ≤ 32767

/-- A `cmd_id` is accepted (17 R451): h follows it, and what half a turn has passed is new again. -/
def acceptCmd (v : Session) (c : Nat) : Session :=
  let h := if isNewCmd v c then c else v.high.getD c
  { v with high := some h, seen := insertNum (v.seen.filter fun x => (h + 65536 - x) % 65536 ≤ 32767) c }

/-- The lowest free mailbox of sessions, where the session has fewer than 8 (17 R450). -/
def State.freeMailbox (s : State) (sid : Nat) : Option Nat :=
  if 8 ≤ s.ctl.mailboxes.count (fun m => m.session == sid) then none
  else firstFree (fun n => s.ctl.mailboxes.has n) 8 248

/-- The checks common to every command, in order (18 R467); during a takeover object commands get BUSY_RETRY (16 R438), and from
SLEEP_ENTER until the device has woken new commons, streams and windows do (15 Table 15-9 step 1). -/
def commonChecks (spec : CcpSpec) (c : CcpCtx) (s : State) : List (Bool × Refuse) :=
  [ (c.sess.ver < spec.first, rf .version 1),
    (!spec.len c.block c.total, ⟨.malformed, 0x0102⟩),
    ((spec.resv.any fun r => bits c.block r.1 r.2 != 0) || spec.also c.block, rMalformed),
    (spec.old c.sess.ver c.block, rf .version 2),
    (!(if c.isOp then spec.op else spec.tn), rPolicy),
    (spec.kind == .object && s.passive, if s.pair.role == .takeover then rBusy else ⟨.failover, 0x0604⟩),
    (s.pwr.sleep != .active && [0x0301, 0x0401, 0x0420].contains spec.opcode, rBusy) ]

/-- A command begins (17 R452): the common checks, then its chapter; a reply completes it in the same action. -/
def ccpBegin (spec : CcpSpec) (body : CcpBody) (c : CcpCtx) (s : State) : State :=
  let o := checked s (commonChecks spec c s) (body c s)
  match o.reply with
  | some r => o.after (o.s.respond c.ref r)
  | none => o.after o.s

/-- A session's frame has been accepted: its idle limit runs anew (17 R448). -/
def State.touchSession (s : State) (sid port : Nat) : State :=
  match s.ctl.sessions.find sid with
  | none => s
  | some v => s.putSession sid { v with port, idleDue := s.dev.tick + (s.eth port).idleUnits * 2 ^ 20 }

/-- A kept response is sent again in full (17 R451); one kept by MBX_DROP takes the opcode of the command it meets. -/
def State.resendKept (s : State) (port cls sid cmdId opcode op mb : Nat) (r : Reply) : State :=
  (s.numberFrames sid r.body.length).sendResponse port cls sid (if op == 0 then opcode else op) cmdId mb r

/-- Whether a CCP frame on an Ethernet port meets a device that answers at all (19 Table 19-3, 01 R26). -/
def State.ccpAnswers (s : State) (port : Nat) : Bool :=
  s.dev.phase == .running && (if port == 0 then s.ready.ethA else s.ready.ethB)

/-- A frame wakes the device from SL3 or SL4 (15 R423), unless it has halted, which only a cold reset ends (01 R26). A stack that
has not entered self-refresh yet does not enter it (10 R286). -/
def State.wakeByFrame (s : State) : State :=
  if s.dev.halt.isSome || (s.pwr.sleep != .sl3 && s.pwr.sleep != .sl4) then s
  else { s with
    pwr.sleep := .waking, pwr.wakeTick := s.dev.tick
    stk.units := s.stk.units.each fun _ x => if x.selfRef == .entering then { x with selfRef := .none } else x }

/-- The fragments of a command as frames of the intake FIFO (17 R450), of a session's version, from a `seq` on. -/
def framesOf (opcode : Nat) (c : CcpCmd) (ver seq : Nat) : List CcpFrame :=
  let body := leBytes c.block c.total
  let n := max 1 (ceilDiv c.total 8192)
  (List.range n).map fun i =>
    let part := slice body (i * 8192) 8192
    { port := c.port, cls := c.cls, ccpVer := ver, ftype := 2, first := i == 0, last := i + 1 == n, rsvd := 0,
      session := c.session, seq := seq + i, cmdId := c.cmdId, frag := i, opcode := opcode, mailbox := 0, status := 0,
      reason := 0, length := part.length, total := c.total, bulkOff := 0, body := part, tagOk := true }

/-- The comparison with the watermarks after an entry or a read (R455). -/
def State.fifoMarks (s : State) (p : Nat) : State :=
  let e := s.eth p
  let n := e.fifo.length
  let send (s : State) (q : Nat) : State := if e.pfcOff then s else s.emit (.pfc p q)
  if !e.full && e.hiMark ≤ n then send (s.putEth p { e with full := true, pfcDue := s.dev.tick + 200 }) 0xFFFF
  else if e.full && n ≤ e.loMark then send (s.putEth p { e with full := false }) 0
  else s

/-- Frames that a device in SL4 holds in the intake FIFO (15 R424, 17 R455). -/
def State.holdFrames (s : State) (port : Nat) (l : List CcpFrame) : State :=
  let e := s.eth port
  let room := 32 - e.fifo.length
  ((s.putEth port { e with fifo := e.fifo ++ l.take room }).fifoMarks port).countDev 4 (l.length - room)

/-- Whether a frame finds management down with nothing that answers in its place (19 Table 19-3, 15 R424). A halted device answers
(01 R26). -/
def State.intakeHolds (s : State) : Bool := !s.ready.mgmt && s.dev.mgmtReset.isNone && s.dev.halt.isNone

/-- The frames of a whole command that a device in SL4 holds: numbered after what its session and the FIFOs hold. -/
def State.heldFrames (s : State) (opcode : Nat) (c : CcpCmd) : List CcpFrame :=
  match s.ctl.sessions.find c.session with
  | none => []
  | some v => framesOf opcode c v.ver (v.rxTop.getD 0 + 1 + s.ctl.ethA.fifo.length + s.ctl.ethB.fifo.length)

/-- The answer of the intake logic, which accepts nothing (17 R464). -/
def State.intakeAnswer (s : State) (port cls sid opcode cmdId reason : Nat) : State :=
  (s.numberFrames sid 0).sendResponse port cls sid opcode cmdId 0 ⟨Status.busyRetry.code, reason, []⟩

/-- An attestation request that comes in SL4, or while the management cores restart from it, is answered and not held (15 R424). -/
def State.attestBusy (s : State) (opcode : Nat) : Bool := opcode == 0x0100 && s.intakeHolds && s.pwr.sleep != .active

/-- A whole command is taken from the intake (17 R450 to R452, R464). -/
def ccpServe (spec : CcpSpec) (body : CcpBody) (c : CcpCmd) (sigOk auxOk : Bool) (s : State) : State :=
  if !s.ccpAnswers c.port then s
  else if s.wakeByFrame.attestBusy spec.opcode && s.ctl.sessions.has c.session then
    s.wakeByFrame.intakeAnswer c.port c.cls c.session spec.opcode c.cmdId 0x0603
  else if s.intakeHolds then (s.wakeByFrame).holdFrames c.port (s.heldFrames spec.opcode c)
  else
    match s.ctl.sessions.find c.session with
    | none => s.countDev (2 + c.port)
    | some _ =>
      let s := (s.wakeByFrame).touchSession c.session c.port
      match s.ctl.sessions.find c.session with
      | none => s
      | some v =>
        if s.dev.halt.isSome then s.intakeAnswer c.port c.cls c.session spec.opcode c.cmdId 0x0601
        else if s.dev.mgmtReset.isSome then s.intakeAnswer c.port c.cls c.session spec.opcode c.cmdId 0x0603
        else
          let retry := v.cmds.find c.cmdId == some .again
          if !(isNewCmd v c.cmdId || retry) then
            match v.cmds.find c.cmdId with
            | some (.kept op mb r) => s.resendKept c.port c.cls c.session c.cmdId spec.opcode op mb r
            | _ => s.countDev (2 + c.port)
          else
            let v := acceptCmd v c.cmdId
            match s.freeMailbox c.session with
            | none =>
              let s := s.putSession c.session { v with cmds := v.cmds.put c.cmdId .again }
              s.intakeAnswer c.port c.cls c.session spec.opcode c.cmdId 0x0203
            | some mb =>
              let v := { v with cmds := v.cmds.put c.cmdId .mailbox }
              let s := (s.putSession c.session v).putMailbox mb
                { session := c.session, cmdId := c.cmdId, opcode := spec.opcode, port := c.port, cls := c.cls,
                  total := c.total, running := true }
              ccpBegin spec body
                { sid := c.session, sess := v, cmdId := c.cmdId, block := c.block, total := c.total, sigOk, auxOk } s

end Sys2Proof.Machine
end

