-- ==== Sys2Proof/Machine/Sched.lean ====
section
/-! DEFINITION. Sched.lean: the scheduling points with their shares (14 R387 to R389), the stations a subscriber may use
(02 R45, 14 R396), and the station arbiter (14 R390 to R394). Points are numbered: station n is n, hub queue f is
256 + f, egress of port p is 512 + p. -/

namespace Sys2Proof.Machine

/-! Shares. -/

/-- The resource of a point: 0 stations and hub queues, 1 ports (Table 14-4). -/
def resourceOf (point : Nat) : Nat := if point < 512 then 0 else 1

/-- The units of a point's round (Table 14-2). -/
def roundUnits (point : Nat) : Nat := if point < 512 then 65536 else 1024

def nodeKey (sub res node : Nat) : Nat := (sub * 2 + res) * 8 + node

/-- The node block in force at a point: one that its present round began with stays (R389); an isolated tenant's blocks
are kept and not used (R399). -/
def State.nodeAt (s : State) (point sub node : Nat) : Node :=
  let k := nodeKey sub (resourceOf point) node
  if s.isolated sub then {} else match (s.sch.olds.findD point []).find k with
  | some n => n
  | none => s.sch.nodes.findD k {}

def useKey (sub svc : Nat) : Nat := sub * 8 + svc

/-- Units a subscriber has used in the present round of a point. -/
def State.subUsed (s : State) (point sub : Nat) : Nat :=
  sumOf (((s.sch.used.findD point []).filter fun u => u.1 / 8 == sub).map (·.2))

def State.svcUsed (s : State) (point sub svc : Nat) : Nat := (s.sch.used.findD point []).findD (useKey sub svc) 0

/-- Work that ended is charged; the round that used its last unit ends (R380, R388). -/
def State.chargeUnits (s : State) (point sub svc n : Nat) : State :=
  let t := s.sch.used.findD point []
  let t := t.put (useKey sub svc) (t.findD (useKey sub svc) 0 + n)
  if roundUnits point ≤ sumOf (t.map (·.2)) then
    { s with sch.used := s.sch.used.del point, sch.olds := s.sch.olds.del point }
  else { s with sch.used := s.sch.used.put point t }

/-- The part of a round that a subscriber may use, which its services share (log 30). -/
def State.subPart (s : State) (point sub : Nat) : Nat := (s.nodeAt point sub 7).maxShare * roundUnits point

/-- Whether a subscriber has reached its `max_share`. -/
def State.subSpent (s : State) (point sub : Nat) : Bool := s.subPart point sub ≤ s.subUsed point sub * 1024

/-- Whether a service has reached its `max_share`. -/
def State.svcSpent (s : State) (point sub svc : Nat) : Bool :=
  (s.nodeAt point sub svc).maxShare * s.subPart point sub ≤ s.svcUsed point sub svc * 1024 * 1024

/-- An entry that waits at a point (R388). `id` is the stream, or the place in a queue. -/
structure Entry where
  id      : Nat
  sub     : Nat
  svc     : Nat
  pri     : Nat := 0
  since   : Nat := 0
  order   : Nat := 0
  green   : Bool := true
  cadence : Option Nat := none
  deriving DecidableEq, Repr

/-- The tier of an entry: 3 cadence, 2 reserved, 1 excess, 0 not eligible (R385, R388). What has reached its `max_share` gets nothing
in any tier (R389, log 191). -/
def State.tierOf (s : State) (point : Nat) (e : Entry) : Nat :=
  if s.subSpent point e.sub || s.svcSpent point e.sub e.svc then 0
  else if e.cadence.isSome then 3
  else if e.green && s.subUsed point e.sub * 1024 < (s.nodeAt point e.sub 7).minShare * roundUnits point then 2
  else 1

/-- The entry of a list with the least value of a measure; ties to the earlier one. -/
def leastBy (l : List Entry) (less : Entry → Entry → Bool) : Option Entry :=
  l.foldl (fun b e => match b with
    | none => some e
    | some x => if less e x then some e else b) none

/-- `best` of R388 among entries of one tier. -/
def State.bestOf (s : State) (point tier : Nat) (l : List Entry) : Option Entry :=
  let den (e : Entry) : Nat := let n := s.nodeAt point e.sub 7; if tier == 2 then n.minShare else n.weight
  let subLess (a b : Entry) : Bool :=
    let x := s.subUsed point a.sub * den b
    let y := s.subUsed point b.sub * den a
    x < y || (x == y && a.sub < b.sub)
  match leastBy l subLess with
  | none => none
  | some w =>
    let l := l.filter fun e => e.sub == w.sub
    let used (e : Entry) : Nat := s.svcUsed point e.sub e.svc
    let min' (e : Entry) : Nat := (s.nodeAt point e.sub e.svc).minShare
    let under (e : Entry) : Bool := used e * 1024 * 1024 < min' e * s.subPart point e.sub
    let svcLess (d : Entry → Nat) (a b : Entry) : Bool :=
      let x := used a * d b
      let y := used b * d a
      x < y || (x == y && a.svc < b.svc)
    let first := match leastBy (l.filter under) (svcLess min') with
      | some e => some e
      | none => leastBy l (svcLess fun e => (s.nodeAt point e.sub e.svc).weight)
    match first with
    | none => none
    | some v =>
      leastBy (l.filter fun e => e.svc == v.svc) fun a b =>
        b.pri < a.pri || (a.pri == b.pri && (a.since < b.since || (a.since == b.since && a.order < b.order)))

/-- `pick` of R388. -/
def State.pickEntry (s : State) (point : Nat) (l : List Entry) : Option Entry :=
  let cad := l.filter fun e => s.tierOf point e == 3
  match leastBy cad fun a b =>
      a.cadence.getD 16 < b.cadence.getD 16 || (a.cadence == b.cadence && (b.pri < a.pri || (a.pri == b.pri &&
        (a.since < b.since || (a.since == b.since && a.order < b.order))))) with
  | some e => some e
  | none =>
    match s.bestOf point 2 (l.filter fun e => s.tierOf point e == 2) with
    | some e => some e
    | none => s.bestOf point 1 (l.filter fun e => s.tierOf point e == 1)

/-! Histograms (R400). -/

def histKey (kind index sub : Nat) : Nat := (kind * 65536 + index) * 65536 + sub

/-- Bin of a depth. -/
def depthBin (n : Nat) : Nat := if n == 0 then 0 else min (Nat.log2 n + 1) 15

/-- Bin of a wait in nanoseconds. -/
def delayBin (ns : Nat) : Nat := if ns < 16 then 0 else min (Nat.log2 ns - 3) 15

/-- An item leaves a queue; every 64th one adds its wait. A slow tick is 640 ns. -/
def State.leaveQueue (s : State) (kind index sub since : Nat) : State :=
  let k := histKey kind index sub
  let h := s.sch.hists.findD k {}
  let n := h.left + 1
  let h := { h with left := n % 64, tick := if n == 64 then s.dev.tick else h.tick }
  let h := if n == 64 then { h with delay := listMod h.delay (delayBin ((s.dev.tick - since) * 640)) (sat32 · 1) } else h
  { s with sch.hists := s.sch.hists.put k h }

/-! Stations. -/

def slotOf (x : Station) : Option Nat := match x.st with
  | .bound k => some k
  | _ => none

/-- Whether a physical station is bound and in service (01 R16, R20). -/
def State.inService (s : State) (n : Nat) : Bool :=
  (slotOf (s.station n)).isSome && !bit s.dev.fieldReset (n / 9)

/-- The logical number of a bound station (01 Station numbering). -/
def State.logical (s : State) (n : Nat) : Nat := 8 * (n / 9) + (slotOf (s.station n)).getD 0

/-- The physical station with a logical number that is bound and in service. -/
def State.stationAt (s : State) (l : Nat) : Option Nat :=
  (List.range 9).findSome? fun j =>
    let n := 9 * (l / 8) + j
    if slotOf (s.station n) == some (l % 8) && s.inService n then some n else none

/-- The stations in service in order of logical number. -/
def State.serving (s : State) : List Nat :=
  s.stn.stations.foldl (fun l x => if s.inService x.1 then insertNum l (s.logical x.1) else l) []
    |>.filterMap s.stationAt

/-- Whether a station may work for a tenant: its own dedicated ones under isolation mode, and otherwise those that are
dedicated to nobody (14 R396). -/
def State.serves (s : State) (t n : Nat) : Bool :=
  match s.sch.dedicated.find n with
  | some x => x == t
  | none => !s.isolated t

/-- The candidate set: the stations of a field, or all where the field has none (02 R45, 14 R396). -/
def State.candidates (s : State) (t : Nat) (field : Option Nat) : List Nat :=
  let all := s.serving.filter (s.serves t)
  match field with
  | none => all
  | some f =>
    let here := all.filter fun n => n / 9 == f
    if here.isEmpty then all else here

/-- The candidate with the least of a measure; ties to the lowest logical number. -/
def leastStation (l : List Nat) (m : Nat → Nat) : Option Nat :=
  l.foldl (fun b n => match b with
    | none => some n
    | some x => if m n < m x then some n else b) none

/-- The assignment of stations to isolated tenants (14 R396): it is made anew, with a record of each tenant that is short
in a field. It takes effect at each station's next boundary. -/
def State.assignStations (s : State) : State :=
  let res := (List.range 16).foldl (fun (r : Tbl Nat × List (Nat × Nat)) f =>
    let here := s.serving.filter fun n => n / 9 == f
    let q := s.sch.iso.foldl (fun (q : List Nat × Tbl Nat × List (Nat × Nat)) t =>
      let want := bits t.2 27 25
      let n := min want (q.1.length - 1)
      let mine := q.1.take n
      (q.1.drop n, mine.foldl (fun d x => d.put x t.1) q.2.1,
        if n < want then q.2.2 ++ [(t.1, f)] else q.2.2)) (here, r.1, r.2)
    (q.2.1, q.2.2)) ([], [])
  let changed := (List.range 144).filter fun n => s.sch.dedicated.find n != res.1.find n
  let new := res.2.filter fun x => !s.sch.short.contains x
  let s := { s with
    sch.dedicated := res.1
    sch.short := res.2
    stn.stations := s.stn.stations.each fun n x => if changed.contains n then { x with reassigned := true } else x }
  let s := new.foldl (fun s x =>
    let got := (res.1.filter fun d => d.2 == x.1 && d.1 / 9 == x.2).length
    let want := bits (s.sch.iso.findD x.1 0) 27 25
    (s.recOp 0x0402 8 x.2 got want).recTen x.1 0x0402 8 x.2 got want) s
  s.later (changed.map .arbitrate)

end Sys2Proof.Machine
end

