-- ==== Sys2Proof/Machine/Kfp.lean ====
section
/-! DEFINITION. Kfp.lean: packets (13 R348), routing (R362 to R367), completions and the completion cache (R352 to R357),
the requests this device issues, policing (14 R381 to R385) and the fence (13 R359 to R361). -/

namespace Sys2Proof.Machine

/-! Packets. -/

/-- The channel of an opcode: 0 REQ, 1 RSP, 2 SNP, 3 CTL, 4 MCAST (13 Table 13-2, 12 Table 12-4). -/
def channelOf (op : Nat) : Nat :=
  if 0x30 ≤ op && op ≤ 0x34 then 2
  else if 0x40 ≤ op && op ≤ 0x43 then 1
  else if op == 0x50 || op == 0x51 then 3
  else if op == 0x60 then 4
  else 0

/-- Whether an opcode is a request, which has one completion (13 R352, R374). -/
def isRequest (op : Nat) : Bool := channelOf op != 1 && channelOf op != 4

/-- Whether an opcode belongs to the pair link (16 R426). -/
def isPairOp (op : Nat) : Bool := 0x70 ≤ op && op ≤ 0x75

/-- The 32 header bytes and the payload of a packet (13 Table 13-1, big-endian). -/
def packetBytes (op : Nat) (p : Packet) : List Byte :=
  let h := p.hdrVer * 2 ^ 252 + op * 2 ^ 240 + p.dst * 2 ^ 224 + p.src * 2 ^ 208 + p.tag * 2 ^ 196 + p.tgen * 2 ^ 192 +
    p.ngen * 2 ^ 188 + p.fnum * 2 ^ 184 + p.prior * 2 ^ 172 + p.session * 2 ^ 156 + p.age * 2 ^ 140 + p.status * 2 ^ 132 +
    b2n p.fence * 2 ^ 131 + b2n p.mcast * 2 ^ 130 + p.epoch * 2 ^ 129 + b2n p.escape * 2 ^ 128 +
    b2n p.synthetic * 2 ^ 127 + b2n p.wbPending * 2 ^ 126 + p.length * 2 ^ 96 + p.address * 2 ^ 48
  beBytes h 32 ++ p.payload

/-- The opcode and the packet that bytes spell, arriving on a port. The reserved bits go to `rsvd`. -/
def parsePacket (port : Nat) (b : List Byte) : Nat × Packet :=
  let h := leNat (b.take 32).reverse
  (bits h 247 240,
   { port, hdrVer := bits h 255 252, dst := bits h 239 224, src := bits h 223 208, tag := bits h 207 196,
     tgen := bits h 195 192, ngen := bits h 191 188, fnum := bits h 187 184, prior := bits h 183 172,
     session := bits h 171 156, age := bits h 155 140, status := bits h 139 132, fence := bit h 131, mcast := bit h 130,
     epoch := bits h 129 129, escape := bit h 128, synthetic := bit h 127, wbPending := bit h 126,
     length := bits h 112 96, address := bits h 95 48,
     rsvd := bits h 251 248 + bits h 125 113 * 16 + bits h 47 0 * 2 ^ 17, payload := b.drop 32 })

/-- The age of a packet `ticks` slow ticks later, saturating (one tick is 40 units of 16 ns; 13 R375). -/
def ageAfter (age ticks : Nat) : Nat := min (age + 40 * ticks) 0xFFFF

/-! Routing. -/

def State.bank (s : State) (e : Nat) : Bank := if e == 0 then s.fab.bank0 else s.fab.bank1
def State.putBank (s : State) (e : Nat) (b : Bank) : State :=
  if e == 0 then { s with fab.bank0 := b } else { s with fab.bank1 := b }

/-- The bank that routes a packet of an epoch: the other one while its own is open (13 R370). -/
def State.routeBank (s : State) (e : Nat) : Nat := if (s.bank e).opened then 1 - e else e

/-- The candidates of an entry in order: (safe, port) (13 Table 13-6). -/
def entryCands (entry : Nat) : List (Bool × Nat) :=
  (List.range (min (bits entry 30 28) 4)).map fun i =>
    let c := bits entry (7 * i + 6) (7 * i)
    (bit c 6, bits c 5 0)

/-- Whether a port's mode carries a channel (12 R347). -/
def modeCarries (mode ch : Nat) : Bool := mode == 0 || ch == 0 || ch == 1 || ch == 3 || ch == 5

/-- Whether a port is one of the pair's (16 R426). -/
def State.isPairPort (s : State) (p : Nat) : Bool := s.pair.enabled && bit (bits s.pair.block 255 192) p

/-- The eligible candidates of a packet, whose ports are UP or RETRAIN, with their index (13 R363). -/
def State.eligible (s : State) (entry ch : Nat) (inPort : Option Nat) (esc pairOp : Bool) : List (Nat × Nat) :=
  let l := (entryCands entry).zipIdx.filter fun c =>
    let q := s.port c.1.2
    some c.1.2 != inPort && (q.st == .up || q.st == .retrain) && modeCarries q.mode (if esc then 5 else ch) &&
      (ch == 0 || ch == 4 || c.1.1) && (!esc || c.2 == 0) && (s.isPairPort c.1.2 == pairOp)
  l.map fun c => (c.2, c.1.2)

/-- The pair ports that are UP or RETRAIN, as candidates for pair traffic (16 R426). -/
def State.pairPorts (s : State) : List (Nat × Nat) :=
  ((bitsOf (bits s.pair.block 255 192) 64).zipIdx.map fun x => (x.2, x.1)).filter fun c =>
    (s.port c.2).st == .up || (s.port c.2).st == .retrain

/-- Among the candidates that are UP with a credit, and with room in the outstanding table for a request, the one with
the most credits, ties to the lowest index (13 R364, 12 R343). -/
def State.pickPort (s : State) (l : List (Nat × Nat)) (ch : Nat) (request : Bool) : Option Nat :=
  let ok := l.filter fun c =>
    let q := s.port c.2
    q.st == .up && 0 < q.credits.getD ch 0 && (!request || q.outst.length < 8192)
  let best := ok.foldl (fun b c => match b with
    | none => some c
    | some x => if (s.port x.2).credits.getD ch 0 < (s.port c.2).credits.getD ch 0 then some c else b) none
  best.map (·.2)

/-- A packet is committed to a port's transmit queue, with its entry in the outstanding table (13 R364, 12 R343). -/
def State.commit (s : State) (port op : Nat) (p : Packet) (own : Bool) (held sub svc : Nat) : State :=
  let p := { p with age := ageAfter p.age held }
  let ch := if p.escape then 5 else channelOf op
  s.modPort port fun q =>
    let q := { q with queues := listMod q.queues ch fun l =>
      l ++ [{ opcode := op, p, bytes := packetBytes op p, sub, svc, own, since := s.dev.tick }] }
    if isRequest op then
      { q with outst := q.outst ++ [⟨p.src, p.dst, p.tag, p.tgen, p.ngen, p.session, own, s.dev.tick + 400⟩] }
    else q

/-- The completion a node beside a break makes (12 R344, 13 R367). -/
def synthetic (p : Packet) (epoch : Nat) : Packet :=
  { p with dst := p.src, src := p.dst, fnum := 0, prior := 0, age := 0, status := Status.linkLost.code, fence := false,
           mcast := false, epoch, escape := false, synthetic := true, wbPending := false, length := 0, address := 0,
           rsvd := 0, payload := [] }

/-- Subscriber and service of a packet at an egress point (14 Table 14-1) by its link session and opcode. -/
def State.subscriber (s : State) (op : Nat) (p : Packet) (own : Bool) : Nat × Nat :=
  if !own then (0xFFFF, 7)
  else if op == 0x60 then ((s.ten.links.find p.session).elim 0 (·.tenant), 4)
  else if 0x70 ≤ op then (0, 5)
  else match s.ten.links.find p.session with
    | some l => (l.tenant, if 0x30 ≤ op && op ≤ 0x33 then 3 else 2)
    | none => (0, 5)

/-- Whether a packet the device forms goes by the pair ports: a pair request, or the completion of one (16 R426). -/
def State.pairBound (s : State) (op : Nat) (p : Packet) : Bool :=
  isPairOp op || (op == 0x40 && s.isPairPort p.port && p.dst == bits s.pair.block 191 176)

/-- A packet finds its way: to a port, to the router's hold, or out as unroutable (13 R362 to R367). `sub` is its subscriber
and service. `fuel` 1 lets an unroutable request be answered. -/
def State.route (s : State) (op : Nat) (p : Packet) (inPort : Option Nat) (own : Bool) (since : Nat) (sub : Nat × Nat) : Nat → State
  | 0 => s
  | fuel + 1 =>
    let pairOp := own && s.pairBound op p
    let b := s.routeBank p.epoch
    let s := if b != p.epoch && !pairOp then { s with fab.misses := s.fab.misses + 1 } else s
    let ch := channelOf op
    let cands := if pairOp then s.pairPorts
      else s.eligible ((s.bank b).entries.findD p.dst 0) ch inPort p.escape false
    let chan := if p.escape then 5 else ch
    match cands with
    | [] =>
      let s := ({ s with fab.unrouted := s.fab.unrouted + 1 }).countDev 8
      if !isRequest op then s
      else if own then { s with todo := s.todo ++ [.lost p.tag] }
      else
        let c := synthetic p s.fab.epoch
        (s.emit (.packet 0x40 c)).route 0x40 c none true s.dev.tick (s.subscriber 0x40 c true) fuel
    | _ :: _ =>
      match s.pickPort cands chan (isRequest op) with
      | some port => s.commit port op p own (s.dev.tick - since) sub.1 sub.2
      | none =>
        { s with
          fab.transit := s.fab.transit.put s.fab.nextId ⟨op, p, if own then none else inPort, since, sub⟩
          fab.nextId := s.fab.nextId + 1 }

/-- A packet this device forms leaves for a subscriber and service (13 R368, 14 R379). -/
def State.sendAs (s : State) (op : Nat) (p : Packet) (sub : Nat × Nat) : State :=
  (s.emit (.packet op p)).route op p none true s.dev.tick sub 2

/-- A packet this device forms leaves, for the subscriber its link session and opcode tell. -/
def State.send (s : State) (op : Nat) (p : Packet) : State := s.sendAs op p (s.subscriber op p true)

/-- The router picks again for the packets it holds, each in the order it came (13 R364). -/
def State.repick (s : State) : State :=
  s.fab.transit.foldl (fun s t =>
    let x := t.2
    let own := x.inPort.isNone
    let b := s.routeBank x.p.epoch
    let ch := channelOf x.opcode
    let cands := if own && s.pairBound x.opcode x.p then s.pairPorts
      else s.eligible ((s.bank b).entries.findD x.p.dst 0) ch x.inPort x.p.escape false
    let chan := if x.p.escape then 5 else ch
    match cands with
    | [] => ({ s with fab.transit := s.fab.transit.del t.1 }).route x.opcode x.p x.inPort own x.since x.sub 2
    | _ :: _ =>
      match s.pickPort cands chan (isRequest x.opcode) with
      | some port =>
        ({ s with fab.transit := s.fab.transit.del t.1 }).commit port x.opcode x.p own (s.dev.tick - x.since) x.sub.1 x.sub.2
      | none => s) s

/-- Packets of an epoch of which a port has received a part, its header included. -/
def Port.partsOf (q : Port) (e : Nat) : Nat :=
  (q.rxParts.filter fun x => x.1 < 6 && 32 ≤ x.2.length && (parsePacket 0 x.2).2.epoch == e).length

/-- Packets of an epoch that the router holds in whole or in part (13 R369). -/
def State.drainOf (s : State) (e : Nat) : Nat :=
  s.fab.transit.count (fun t => t.p.epoch == e) +
    sumOf (s.ports.map fun q => sumOf (q.2.queues.map fun l => (l.filter fun t => t.p.epoch == e).length) + q.2.partsOf e)

/-! Completions. -/

/-- Whether the status and word of an opcode are cached (13 Table 13-2). -/
def isCached (op : Nat) : Bool :=
  [0x01, 0x02, 0x03, 0x04, 0x11, 0x13, 0x18, 0x19, 0x1A, 0x1B, 0x1C, 0x23, 0x28, 0x51].contains op

/-- Whether a request's completion carries its cookie (06 R163, 07 R189, R202). -/
def hasCookie (op : Nat) : Bool := 0x10 ≤ op && op ≤ 0x28

/-- The cookie of a page operand or an atomic operand: its second eight bytes. -/
def cookieOf (payload : List Byte) : List Byte := padTo (slice payload 8 8) 8

/-- What a completion carries when it has only a word to give (13 R352, R356). -/
def wordPayload (op : Nat) (payload : List Byte) (word : Option Nat) : List Byte :=
  (if hasCookie op then cookieOf payload else []) ++ (match word with
    | some w => leBytes w 8
    | none => [])

/-- The completion of a request (13 R352). -/
def completionOf (r : Req) (epoch status address : Nat) (payload : List Byte) : Packet :=
  { port := r.p.port, hdrVer := r.p.hdrVer, dst := r.p.src, src := r.p.dst, tag := r.p.tag, tgen := r.p.tgen,
    ngen := r.p.ngen, fnum := 0, prior := 0, session := r.p.session, age := 0, status, fence := false, mcast := false,
    epoch, escape := false, synthetic := false, wbPending := false, length := payload.length, address, rsvd := 0, payload }

/-- Subscriber and service of a request, and so of its completion (14 Table 14-1): a stream's requests have the service of the
stream, those of link sessions themselves belong to the device. -/
def State.serviceOf (s : State) (r : Req) : Nat × Nat :=
  let op := r.opcode
  let low := leNat (r.p.payload.take 64)
  let ofStream (sid : Nat) : Nat := ((s.str.streams.find sid).map fun v => bits v.head 14 12).getD 0
  match s.ten.links.find r.p.session with
  | none => (0, 5)
  | some l =>
    if 0x50 ≤ op then (0, 5)
    else (l.tenant,
      if op == 0x01 then bits low 14 12
      else if op == 0x02 || op == 0x03 then ofStream (bits low 13 0)
      else if op == 0x04 then ofStream (bits low 25 12)
      else if op == 0x05 then 0
      else if op < 0x20 then 2
      else 3)

/-- A completion is sent without any trace in the tag table (13 Table 13-5 rows 3, 4 and 6, 16 R436). -/
def State.answer (s : State) (r : Req) (st : Status) (payload : List Byte := []) (address : Nat := 0) : State :=
  s.sendAs 0x40 (completionOf r s.fab.epoch st.code address payload) (s.serviceOf r)

def tagKey (src tag : Nat) : Nat := src * 4096 + tag

/-- The cache with a record in front of it, the least recently used gone (13 R355). -/
def cachePut (c : List CacheRec) (x : CacheRec) : List CacheRec :=
  (x :: c.filter fun y => !(y.src == x.src && y.ngen == x.ngen && y.tag == x.tag && y.tgen == x.tgen)).take 1048576

def cacheFind (c : List CacheRec) (src ngen tag tgen : Nat) : Option CacheRec :=
  c.find? fun y => y.src == src && y.ngen == ngen && y.tag == tag && y.tgen == tgen

/-- The counts of a tenant that follow from a completion (20 Table 20-8). -/
def State.countStatus (s : State) (session : Nat) (st : Status) : State :=
  match s.ten.links.find session with
  | none => s
  | some l => match st with
    | .throttled => s.countTen l.tenant 1
    | .poisoned => s.countTen l.tenant 3
    | .integrity => s.countTen l.tenant 4
    | .lockAbandoned => s.countTen l.tenant 6
    | _ => s

/-- A request that ends is charged the sectors it moved: those of its operation, unless its status says that it had no effect on
memory (14 R388, log 190). Its hub queue decides anew. -/
def State.chargeHub (s : State) (r : Req) (st : Status) : State :=
  match r.hub with
  | none => s
  | some h =>
    let moved := st == .ok || st == .okLostUpdate || st.cls == 3
    (if moved then s.chargeUnits (256 + h.field) h.sub h.svc h.sectors else s).later
      (if (s.sch.hubs.findD h.field []).isEmpty then [] else [.hub h.field])

/-- A request completes (13 R352, R357): the tag table, the cache, its completion and those of the retries that waited
for it. -/
def State.complete (s : State) (r : Req) (st : Status) (word : Option Nat := none) (payload : Option (List Byte) := none)
    (address : Nat := 0) : State :=
  let k := tagKey r.p.src r.p.tag
  let again := st.cls == 1 || st.cls == 6
  let own := s.fab.tags.findD k ⟨r.p.tgen, .executing, []⟩
  let mine := own.tgen == r.p.tgen
  let s := if mine then s.putTagRec k { own with st := if again then .free else .done, dups := [] } else s
  let s := if isCached r.opcode && !again then
      { s with fab.cache := cachePut s.fab.cache ⟨r.p.src, r.p.ngen, r.p.tag, r.p.tgen, r.opcode, st.code, word⟩ }
    else s
  let s := (s.countStatus r.p.session st).chargeHub r st
  let s := s.answer r st (payload.getD (wordPayload r.opcode r.p.payload word)) address
  (if mine then own.dups else []).foldl (fun s p => s.answer { opcode := r.opcode, p } st (wordPayload r.opcode p.payload word)) s

/-! Requests this device issues (13 R353, R359). -/

/-- A request of the device's own: a tag of the next generation, the packet with a payload made for them, and what waits
for it. -/
def State.issueWith (s : State) (what : IssuedFor) (op dst session address : Nat) (payloadOf : Nat → Nat → List Byte) :
    Nat × State :=
  match cyclicFree (fun t => s.fab.issued.has t) (some ((s.fab.nextTag + 4095) % 4096)) 0 4095 with
  | none => (s.fab.nextTag, { s with todo := s.todo })
  | some tag =>
    let tgen := (s.fab.tagGens.findD tag 15 + 1) % 16
    let payload := payloadOf tag tgen
    let p : Packet :=
      { port := 0, hdrVer := 3, dst, src := s.fab.nodeId.getD 0, tag, tgen, ngen := s.fab.ngen, fnum := 0, prior := 0,
        session, age := 0, status := 0, fence := false, mcast := false, epoch := s.fab.epoch, escape := false,
        synthetic := false, wbPending := false, length := payload.length, address, rsvd := 0, payload }
    let s := { s with
      fab.tagGens := s.fab.tagGens.put tag tgen
      fab.nextTag := (tag + 1) % 4096
      fab.issued := s.fab.issued.put tag ⟨tgen, dst, what⟩ }
    (tag, s.send op p)

/-- A request whose payload does not name its tag. -/
def State.issue (s : State) (what : IssuedFor) (op dst session address : Nat) (payload : List Byte) : Nat × State :=
  s.issueWith what op dst session address fun _ _ => payload

/-! Policing (14 R381 to R385). -/

/-- A meter or bucket that is full under a block. -/
def Meter.full (b : Nat) : Meter := { block := b, tc := bits b 59 40 * 256, tp := bits b 103 84 * 256 }

/-- A meter's token counts after a refill with the block that is then in force; one that is being enabled is full (14 R383,
R384). -/
def Meter.refill (m : Meter) : Meter :=
  let b := m.next.getD m.block
  if bit b 17 && !bit m.block 17 then Meter.full b
  else { block := b
         tc := min (m.tc + bits b 83 60) (bits b 59 40 * 256)
         tp := min (m.tp + bits b 127 104) (bits b 103 84 * 256) }

/-- The charged length of a request under a block (14 R382). -/
def charged (length draw block : Nat) : Nat :=
  let o := bits block 39 32
  length + draw + (if o == 0 then 40 else o)

/-- What policing decides (14 R383): none is THROTTLED; otherwise whether the request is yellow. -/
def State.police (s : State) (session tenant length draw : Nat) : Option Bool × State :=
  let bk := s.sch.buckets.findD session {}
  let m := s.sch.meters.findD tenant {}
  let lb := charged length draw bk.block
  let lm := charged length draw m.block
  let onB := bit bk.block 17
  let onM := bit m.block 17
  if onB && bk.tc < lb then (none, s)
  else if onM && m.tp < lm then (none, s)
  else
    let yellow := onM && m.tc < lm
    if yellow && s.isolated tenant then (none, s)
    else
      let s := if onM then
          { s with sch.meters := s.sch.meters.put tenant { m with tp := m.tp - lm, tc := if yellow then m.tc else m.tc - lm } }
        else s
      let s := if onB then { s with sch.buckets := s.sch.buckets.put session { bk with tc := bk.tc - lb } } else s
      (some yellow, s)

/-! The fence (13 R359 to R361). -/

def Fence.advance (f : Fence) : Fence := { x := (f.x + 1) % 16, counts := f.counts.drop 1 ++ [0] }

/-- Whether a fenced request may go on (13 R360). -/
def Fence.open' (f : Fence) (p : Packet) : Bool := p.fnum == f.x && p.prior ≤ f.counts.headD 0

/-- The held fenced requests of a source go on as its fence state allows (13 R360). -/
def State.releaseFences (s : State) (src : Nat) : Nat → State
  | 0 => s
  | fuel + 1 =>
    let f := s.fab.fences.findD src {}
    match s.fab.held.find? fun h => h.r.p.src == src && f.open' h.r.p with
    | none => s
    | some h =>
      State.releaseFences { s with
        fab.fences := s.fab.fences.put src f.advance
        fab.held := s.fab.held.filter (· != h)
        todo := s.todo ++ [.accept h.r] } src fuel

/-- A request of row 10 meets the fence rules (13 R360, R361). -/
def State.fenceIn (s : State) (r : Req) : State :=
  let p := r.p
  let f := s.fab.fences.findD p.src {}
  let go (s : State) : State := { s with todo := s.todo ++ [.accept r] }
  if !p.fence then
    let d := (p.fnum + 16 - f.x) % 16
    let s := if d < 8 then
        { s with fab.fences := s.fab.fences.put p.src { f with counts := listMod f.counts d (· + 1) } }
      else s
    (go s).releaseFences p.src 1024
  else if f.open' p then (go { s with fab.fences := s.fab.fences.put p.src f.advance }).releaseFences p.src 1024
  else if 1024 ≤ s.fab.held.length then s.complete r .busyRetry
  else { s with fab.held := s.fab.held ++ [⟨r, s.dev.tick⟩] }

end Sys2Proof.Machine
end

