-- ==== Sys2Proof/Machine/Links.lean ====
section
/-! DEFINITION. Links.lean: the ports and the link layer (12): training, the port session, flits, acknowledgement and
replay, rekeying, link down, and the port commands. -/

namespace Sys2Proof.Machine

/-! Link down. -/

/-- The reason a port goes down for, as a DOWN_NOTICE and an event name it: reasons of Table 12-5, or 0 where that table
lists none for the cause, whose byte is then free (log 31). -/
def State.downCode (s : State) (reason w : Nat) : Nat × State := if reason == 0 then s.draw w else (reason, s)

/-- What stays of a port when it goes down: its settings and its counts (R342). -/
def Port.cleared (q : Port) (due : Nat) : Port :=
  { st := .down, enable := q.enable, mode := q.mode, replayTo := q.replayTo, ackTimer := q.ackTimer,
    ackEvery := q.ackEvery, replayLim := q.replayLim, wMax := q.wMax, w := q.w, tNs := q.tNs, laser := q.laser,
    lastLight := q.lastLight, crcFails := q.crcFails, replayN := q.replayN, retrains := q.retrains, downs := q.downs,
    security := q.security, idleDisc := q.idleDisc, fec := q.fec, flitsMs := q.flitsMs, downDue := due }

/-- The present header fields of a port: acknowledgement, NAK, and the channel whose total is reported (R331, R335). -/
def Port.reportVc (q : Port) : Nat :=
  let order := (List.range 6).map fun i => (q.nextRep + i) % 6
  match order.find? fun c => q.freed.getD c 0 != q.reported.getD c 0 with
  | some c => c
  | none => q.nextRep

/-- A flit as it leaves, with a header formed afresh (R333), and the port after it. -/
def Port.form (q : Port) (seq ftype vc : Nat) (first last : Bool) (payload : List Byte) (txNum idle : Nat) : Flit × Port :=
  let c := q.reportVc
  let tot := q.freed.getD c 0 % 2048
  let ack := q.ackDue || q.nakDue
  let f : Flit :=
    { seq, ackSeq := (q.rxX + 2 ^ 56 - 1) % 4096, ackValid := ack, nak := q.nakDue, keyPhase := q.keyPhase, ftype, vc,
      pktFirst := first, pktLast := last, payLenM1 := payload.length - 1, creditVc := c, creditTotal := tot, txNum,
      idleCount := idle, payload, crcOk := true, tagged := q.keys.getD 0 0 != 0 && q.sess.finishSent, tagOk := true, fec := [] }
  (f, { q with
    ackDue := false, nakDue := false, nakSent := q.nakSent || q.nakDue, sinceAck := if ack then 0 else q.sinceAck
    reported := listSet q.reported c (q.freed.getD c 0), nextRep := (c + 1) % 6, flitsMs := q.flitsMs + 1
    slot := (q.slot + 1) % 1024 })

/-- A sequenced flit goes out for the first time (R333). -/
def Port.sendNew (q : Port) (ctl : Bool) (vc : Nat) (first last : Bool) (payload : List Byte) : Flit × Port :=
  let x := q.form (q.txE % 4096) (if ctl then 2 else 1) vc first last payload 0 0
  (x.1, { x.2 with txE := q.txE + 1, unacked := q.unacked ++ [⟨q.txE, ctl, vc, first, last, payload, 0⟩],
                   keyFlits := q.keyFlits + b2n x.1.tagged })

/-- The LINK_LOST of an outstanding-table entry (R344). -/
def State.lostEntry (s : State) (port : Nat) (o : Outst) : State :=
  if o.own then s.later [.lost o.tag]
  else s.send 0x40
    { port, hdrVer := 3, dst := o.src, src := o.dst, tag := o.tag, tgen := o.tgen, ngen := o.ngen, fnum := 0, prior := 0,
      session := o.link, age := 0, status := Status.linkLost.code, fence := false, mcast := false, epoch := s.fab.epoch,
      escape := false, synthetic := true, wbPending := false, length := 0, address := 0, rsvd := 0, payload := [] }

/-- Whether this end has sent its PS_FINISH and holds no key yet: it can protect no flit, and sends none (Table 12-6 step 6). -/
def Port.mute (q : Port) : Bool := q.sess.finishSent && q.keys.getD 0 0 == 0

/-- A port that is in use goes down (R341, R342, R344). A transmit key that has protected 2^31 flits protects no DOWN_NOTICE
(09 R254). -/
def State.portDown (s : State) (p reason : Nat) : State :=
  let q := s.port p
  if q.st == .dark || q.st == .down then s
  else
    let x := s.downCode reason 8
    let s := x.2
    let s := if (q.st == .up || q.st == .session) && q.unacked.length < 1024 && q.keyFlits < 2 ^ 31 && !q.mute then
        let y := q.sendNew true 0 true true [7#8, BitVec.ofNat 8 x.1]
        s.emit (.flit p y.1)
      else s
    let s := s.emit (.downPattern p)
    let y := s.downCode reason 32
    let s := y.2.recOp 0x0501 6 p q.ackedUp y.1
    let c := q.cleared (s.dev.tick + 1048576)
    let s := (s.putPort p { c with downs := listMod q.downs reason (sat32 · 1) }).setPortReady p false
    q.outst.foldl (fun s o => s.lostEntry p o) { s with fab.owed := s.fab.owed.filter fun c => c.port != p }

/-! Training and the port session. -/

/-- The largest `w` that is no greater than `w_max` and that the reach allows (R325, R347); 0 for none. -/
def reachW (mode wMax tNs ackNs : Nat) : Nat :=
  let lim := if mode == 0 then 10485 else 5242
  ((List.range 9).filter fun (w : Nat) => w ≤ wMax && (tNs + ackNs) * w ≤ lim).foldl max 0

/-- A control message waits to be sent (R329). -/
def Port.say (q : Port) (m : List Byte) : Port := { q with ctlQueue := q.ctlQueue ++ [m] }

/-- A control message of Table 12-5 whose content is free. -/
def State.sayFree (s : State) (p type : Nat) : State :=
  let s := s.modPort p fun q => q.say (BitVec.ofNat 8 type :: Config.portMessage type s.draws)
  { s with draws := s.draws + 1 }

/-- Whether the ports may train: a configuration with a node ID is in force and the device runs (19 Tables 19-1, 19-3,
01 R26). -/
def State.portsMayTrain (s : State) : Bool :=
  s.dev.phase == .running && s.dev.halt.isNone && s.ready.config && s.fab.nodeId.isSome

/-- Whether a chain verifies to a root that the device accepts: Olizon's, or one of its configuration (09 R253). -/
def State.accepts (s : State) (c : Chain) : Bool :=
  match c with
  | .fails => false
  | .olizon => true
  | .further e =>
    let l := s.fw.config.findD 0x21 []
    (List.range (l.length / 256)).any fun i => slice l (256 * i) 256 == leBytes e 256

/-- The chain that a verdict over the bytes of a message names: Olizon's is the one of value 0 (log 8). -/
def identChain (v : Option Nat) : Chain :=
  match v with
  | none => .fails
  | some 0 => .olizon
  | some (e + 1) => .further e

/-- PORT_LIGHT_DETECT (Table 12-7). -/
def State.portLight (s : State) (p : Nat) : State :=
  let s := s.modPort p fun q => { q with lastLight := none }
  let q := s.port p
  if q.st == .dark && q.enable && q.laser && s.portsMayTrain && s.pwr.sleep != .sl3 && s.pwr.sleep != .sl4 then s.putPort p { q with st := .training }
  else s

/-- PORT_TRAINING_DONE (R325, Table 12-7). A device that is unlocked for debugging begins no session (09 R236). -/
def State.trained (s : State) (p tNs : Nat) : State :=
  let q := s.port p
  if q.st != .training then s
  else
    let w := reachW q.mode q.wMax tNs (q.ackTimer * 10)
    if w == 0 then
      let s := s.recOp 0x0503 6 p tNs 0
      s.putPort p { q.cleared (s.dev.tick + 1048576) with tNs, downs := listMod q.downs 0 (sat32 · 1) }
    else
      let s := s.putPort p { q with st := .session, w, tNs, txE := 0, rxX := 0 }
      if s.fw.unlocked then s else s.sayFree p 0x01

/-- PORT_TRAINING_TIMEOUT (Table 12-7). -/
def State.trainTimeout (s : State) (p : Nat) : State := if (s.port p).st == .training then s.portDown p 0 else s

def State.modSess (s : State) (p : Nat) (f : PortSess → PortSess) : State :=
  s.modPort p fun q => { q with sess := f q.sess }

/-- PS_FINISH leaves (Table 12-6 step 4). -/
def State.finishOut (s : State) (p : Nat) : State :=
  (s.modSess p fun x => { x with finishOut := true, kemDone := true }).sayFree p 0x03

/-- PS_HELLO (R338): the higher end sends PS_KEM, verifies the chain and sends PS_FINISH. -/
def State.hello (s : State) (p peerHash : Nat) (chain : Chain) : State :=
  let q := s.port p
  if q.st != .session || q.sess.helloIn || s.fw.unlocked then s
  else
    let higher : Bool := peerHash < Config.identityHash.toNat
    let s := s.modSess p fun x => { x with peerHash, helloIn := true, higher }
    if !higher then s
    else
      let s := s.sayFree p 0x02
      if s.accepts chain then s.finishOut p else s.portDown p 2

/-- PS_KEM (R338): the lower end verifies the chain and sends PS_FINISH. -/
def State.kem (s : State) (p : Nat) (chain : Chain) : State :=
  let q := s.port p
  if q.st != .session || !q.sess.helloIn || q.sess.higher || q.sess.kemDone then s
  else if s.accepts chain then s.finishOut p
  else s.portDown p 2

/-- The receive buffers of a port, by channel (Tables 12-4, 12-9). -/
def buffersOf (mode : Nat) : List Nat := if mode == 0 then [1024, 384, 128, 64, 384, 64] else [1024, 512, 0, 64, 0, 64]

/-- PS_FINISH (Table 12-6 steps 4 to 6): keys are loaded and LINK_PARAMS is sent. -/
def State.finish (s : State) (p : Nat) (sigOk : Bool) : State :=
  let q := s.port p
  if q.st != .session || !q.sess.kemDone || q.sess.finishIn then s
  else if !sigOk then s.portDown p 2
  else
    let k := s.ten.nextKey
    let s := { s with ten.nextKey := k + 2 }
    s.putPort p (({ q with sess := { q.sess with finishIn := true }, keys := [k, 0, k + 1, 0], keyPhase := 0, rxPhase := 0,
                           keyFlits := 0, idleCount := 0, rxIdle := none }).say
      (4#8 :: (buffersOf q.mode).flatMap fun n => beBytes n 2))

/-- The port retrains at a `w` (Table 12-7). -/
def State.retrain (s : State) (p w : Nat) (counted : Bool) : State :=
  s.modPort p fun q => { q with st := .retrain, counted, nextW := some w, retrains := sat32 q.retrains 1, toReplay := 0 }

/-- A `w_max` below the present `w` causes a retrain, one in progress realigns within it (R346). A port in SESSION retrains once it
is UP (log 199). -/
def State.lowerW (s : State) (p : Nat) : State :=
  let q := s.port p
  if q.st == .up && q.wMax < q.w then s.retrain p q.wMax false
  else if q.st == .retrain then s.modPort p fun q => { q with nextW := some (min q.wMax (q.nextW.getD q.w)) }
  else s

/-- LINK_PARAMS (R331, Table 12-7): its numbers become credits and the port is UP. More than 2,047 buffers is a protocol
error (log 32). -/
def State.params (s : State) (p : Nat) (buffers : List Nat) : State :=
  let q := s.port p
  if q.st != .session || !q.sess.finishIn || q.sess.paramsIn then s
  else if buffers.any fun n => 2047 < n then s.portDown p 3
  else
    let s := (s.putPort p { q with st := .up, sess := { q.sess with paramsIn := true }, credits := buffers, lastTot := List.replicate 6 0,
                                   ackedUp := 0, acked := 0, ran := false }).setPortReady p true
    s.lowerW p

/-- PORT_SESSION_TIMEOUT (Table 12-7). -/
def State.sessTimeout (s : State) (p : Nat) : State := if (s.port p).st == .session then s.portDown p 0 else s

/-! Retraining and replay. -/

/-- A replay of the unacknowledged flits starts, or the replay limit is met (R336, R337). In SESSION, from which no
retrain leads, the limit is not counted (log 33). -/
def State.replay (s : State) (p : Nat) : State :=
  let q := s.port p
  if q.unacked.isEmpty then s
  else if q.replayLim < q.replays + 1 && q.st == .up then
    if q.ran && q.acked < 1048576 then s.portDown p 1 else s.retrain p q.w true
  else s.putPort p { q with replays := q.replays + 1, toReplay := q.unacked.length, replayN := sat32 q.replayN 1 }

/-- REPLAY_TIMEOUT (R336). -/
def State.replayTimeout (s : State) (p : Nat) : State :=
  let q := s.port p
  if (q.st == .up || q.st == .session) && q.toReplay == 0 then s.replay p else s

/-- RETRAIN_DONE (Table 12-7). -/
def State.retrainDone (s : State) (p : Nat) : State :=
  let q := s.port p
  if q.st != .retrain then s
  else
    let n := q.unacked.length
    s.putPort p { q with st := .up, w := q.nextW.getD q.w, nextW := none, toReplay := n,
                         replays := if n == 0 then q.replays else q.replays + 1,
                         replayN := if n == 0 then q.replayN else sat32 q.replayN 1,
                         ran := q.ran || q.counted, acked := if q.counted then 0 else q.acked, counted := false }

/-- RETRAIN_TIMEOUT (R337). -/
def State.retrainTimeout (s : State) (p : Nat) : State :=
  let q := s.port p
  if q.st == .retrain then s.portDown p (if q.counted then 1 else 0) else s

/-! Rekeying (R340). -/

/-- This end's KEY_NEXT, sent once per rekey. -/
def State.keyNextOut (s : State) (p : Nat) : State :=
  if (s.port p).sess.rekeyOut then s
  else (s.modSess p fun x => { x with rekeyOut := true }).sayFree p 0x05

/-- REKEY_START. -/
def State.rekeyStart (s : State) (p : Nat) : State :=
  let q := s.port p
  if q.st == .up && 2 ^ 30 ≤ q.keyFlits then s.keyNextOut p else s

/-- The next keys are loaded into the next slots. -/
def State.loadNext (s : State) (p : Nat) : State :=
  let k := s.ten.nextKey
  let s := { s with ten.nextKey := k + 2 }
  s.modPort p fun q => { q with
    keys := [q.keys.getD 0 0, k, q.keys.getD 2 0, k + 1]
    sess := { q.sess with nextReady := true, txNew := false, rxNew := false } }

/-- KEY_NEXT: this end answers with its own, and the higher end with KEY_NEXT_KEM. -/
def State.keyNext (s : State) (p : Nat) : State :=
  let q := s.port p
  if q.st != .up || q.sess.rekeyIn then s
  else
    let s := (s.keyNextOut p).modSess p fun x => { x with rekeyIn := true }
    if q.sess.higher then (s.sayFree p 0x06).loadNext p else s

/-- KEY_NEXT_KEM. -/
def State.keyNextKem (s : State) (p : Nat) : State :=
  let q := s.port p
  if q.st != .up || !q.sess.rekeyOut || !q.sess.rekeyIn || q.sess.nextReady || q.sess.higher then s else s.loadNext p

/-- When both directions have switched, the old keys are destroyed and the next slots become current. -/
def Port.settleKeys (q : Port) : Port :=
  if q.sess.nextReady && q.sess.txNew && q.sess.rxNew then
    { q with keys := [q.keys.getD 1 0, 0, q.keys.getD 3 0, 0]
             sess := { q.sess with nextReady := false, txNew := false, rxNew := false, rekeyOut := false, rekeyIn := false } }
  else q

/-- The transmitter switches to its next key at a flit boundary once the peer has acknowledged the messages of the rekey
(log 34). -/
def Port.switchTx (q : Port) : Port :=
  if q.sess.nextReady && !q.sess.txNew && q.ctlQueue.isEmpty && !q.unacked.any (·.ctl) then
    Port.settleKeys { q with keyPhase := 1 - q.keyPhase, keyFlits := 0, idleCount := 0, sess := { q.sess with txNew := true } }
  else q

/-! Receiving. -/

/-- What a receiver makes of a flit before its place in the sequence: discarded for its CRC, a security event, a protocol
error, or good (R326, R334, R339). -/
inductive FlitCheck where
  | crc
  | security
  | protocol
  | good
  deriving DecidableEq, Repr

/-- Whether the receive key that a phase names is loaded (R340). -/
def Port.hasRxKey (q : Port) (phase : Nat) : Bool :=
  if phase == q.rxPhase then q.keys.getD 2 0 != 0 || q.sess.rxNew else q.sess.nextReady && !q.sess.rxNew

/-- The checks of R326, R334 and R339. -/
def Port.check (q : Port) (f : Flit) : FlitCheck :=
  let maxLen := if q.mode == 0 then 231 else 103
  if !f.crcOk then .crc
  else if q.sess.finishIn && !(f.tagged && f.tagOk && q.hasRxKey f.keyPhase) then .security
  else if f.ftype == 3 || 6 ≤ f.vc || (q.mode == 1 && (f.vc == 2 || f.vc == 4)) || maxLen < f.payLenM1 ||
      (f.ftype == 0 && f.txNum != 0) then .protocol
  else .good

/-- A flit of the peer's next key has been accepted: the old receive key is destroyed (R340). -/
def Port.switchRx (q : Port) (f : Flit) : Port :=
  if q.sess.finishIn && f.keyPhase != q.rxPhase then
    Port.settleKeys { q with rxPhase := f.keyPhase, rxIdle := none, keys := listSet q.keys 2 0
                             sess := { q.sess with rxNew := true } }
  else q

/-- The acknowledgement of a header (R335, R336). -/
def Port.takeAck (q : Port) (f : Flit) : Port :=
  match q.unacked with
  | [] => q
  | o :: _ =>
    let n := (f.ackSeq + 4096 - o.e % 4096 + 1) % 4096
    if !f.ackValid || n == 0 || q.unacked.length < n then q
    else
      let left := q.unacked.drop n
      { q with unacked := left, acked := q.acked + n, ackedUp := q.ackedUp + n, replays := 0,
               toReplay := min q.toReplay left.length }

/-- The credits of a header (R331). -/
def Port.takeCredit (q : Port) (f : Flit) : Port :=
  if q.sess.paramsIn && f.creditVc < 6 then
    let d := (f.creditTotal + 2048 - q.lastTot.getD f.creditVc 0) % 2048
    { q with credits := listMod q.credits f.creditVc (· + d), lastTot := listSet q.lastTot f.creditVc f.creditTotal }
  else q

/-- A port in a state whose flits it reads. -/
def Port.hears (q : Port) : Bool := q.st == .up || q.st == .session

/-- Corrected FEC symbols that came with a flit are counted (R323). -/
def Port.addFec (q : Port) (f : Flit) : Port :=
  { q with fec := q.fec.zipIdx.map fun x => sat32 x.1 (f.fec.getD x.2 0) }

/-- The link-layer answers to a flit that is not good. -/
def State.badFlit (s : State) (p : Nat) : FlitCheck → State
  | .crc => s.modPort p fun q => { q with crcFails := sat32 q.crcFails 1 }
  | .security => ((s.modPort p fun q => { q with security := sat32 q.security 1 }).recOp 0x0502 6 p 0 0).portDown p 2
  | .protocol => s.portDown p 3
  | .good => s

/-- A NAK starts a replay unless one of the same flit is in flight (R336). -/
def State.takeNak (s : State) (p : Nat) (f : Flit) : State :=
  if f.nak && f.ackValid && (s.port p).replays == 0 then s.replay p else s

/-- The receive buffers that a data flit frees (R331). A packet of REQ frees the buffer of its last flit, and of all its flits while
the device wakes, only when it moves on (15 R421). -/
def State.freeBuffer (s : State) (p : Nat) (f : Flit) : State :=
  if f.ftype != 1 then s
  else if f.vc == 0 && (f.pktLast || s.pwr.sleep != .active) then s.modPort p fun q => { q with reqFlits := q.reqFlits + 1 }
  else s.modPort p fun q => { q with freed := listMod q.freed f.vc (· + 1) }

/-- A whole packet owes the credits of its flits. -/
def State.oweCredit (s : State) (p vc : Nat) (x : Packet) : State :=
  if vc != 0 then s
  else
    { s.modPort p fun q => { q with reqFlits := 0 } with
      fab.owed := s.fab.owed ++ [⟨p, (s.port p).reqFlits, x.src, x.tag⟩] }

/-- Whether a request of a node waits in a receive buffer (15 R421). -/
def State.inBuffer (s : State) (src tag : Nat) : Bool :=
  (s.fab.waiting.any fun r => r.p.src == src && r.p.tag == tag) || s.fab.atomics.any fun x => x.2.p.src == src && x.2.p.tag == tag

/-- Packets that have moved on free their buffers (15 R421). -/
def State.payCredits (s : State) : State :=
  let held (c : OwedCredit) : Bool := s.inBuffer c.src c.tag
  (s.fab.owed.filter fun c => !held c).foldl (fun s c => s.modPort c.port fun q =>
    { q with freed := listMod q.freed 0 (· + c.flits) }) { s with fab.owed := s.fab.owed.filter held }

/-- The payload of an accepted flit joins its packet or control message (R329). -/
def State.gather (s : State) (p : Nat) (f : Flit) : State :=
  let q := s.port p
  let k := if f.ftype == 2 then 6 else f.vc
  let part := q.rxParts.find k
  if f.pktFirst == part.isSome then s.portDown p 3
  else
    let b := part.getD [] ++ f.payload.take (f.payLenM1 + 1)
    let s := s.freeBuffer p f
    let q := s.port p
    if !f.pktLast then s.putPort p { q with rxParts := q.rxParts.put k b }
    else
      let s := s.putPort p { q with rxParts := q.rxParts.del k }
      if f.ftype == 2 then s.later [.control p b]
      else
        let x := parsePacket p b
        (s.oweCredit p f.vc x.2).later [.packet x.1 x.2]

/-- DATA_FLIT_RX (R334). -/
def State.dataFlit (s : State) (p : Nat) (f : Flit) : State :=
  let q := s.port p
  if !q.hears || f.ftype == 0 then s
  else
    let s := s.putPort p (q.addFec f)
    match q.check f with
    | .good =>
      let d := (f.seq + 4096 - q.rxX % 4096) % 4096
      let s := s.modPort p fun q => (q.takeAck f).takeCredit f
      let s := s.takeNak p f
      let q := s.port p
      if !q.hears then s
      else if d == 0 then
        let q := q.switchRx f
        let n := q.sinceAck + 1
        (s.putPort p { q with rxX := q.rxX + 1, nakSent := false, sinceAck := n,
                              ackDue := q.ackDue || q.ackEvery ≤ n }).gather p f
      else if d ≤ 1023 then s.putPort p { q with nakDue := q.nakDue || !q.nakSent, nakSent := true }
      else if 3072 ≤ d then s.putPort p { q with ackDue := true }
      else s.portDown p 3
    | c => s.badFlit p c

/-- IDLE_FLIT_RX (R328). -/
def State.idleFlit (s : State) (p : Nat) (f : Flit) : State :=
  let q := s.port p
  if !q.hears || f.ftype != 0 then s
  else
    let s := s.putPort p (q.addFec f)
    match q.check f with
    | .good =>
      let fresh := q.sess.finishIn && f.keyPhase != q.rxPhase
      if !fresh && q.rxIdle.any (f.idleCount ≤ ·) then s.modPort p fun q => { q with idleDisc := sat32 q.idleDisc 1 }
      else
        let s := s.modPort p fun q => (({ q.switchRx f with rxIdle := some f.idleCount }).takeAck f).takeCredit f
        s.takeNak p f
    | c => s.badFlit p c

/-- ACK_TIMER_EXPIRY (R335). -/
def State.ackTimer (s : State) (p : Nat) : State :=
  s.modPort p fun q => { q with ackDue := q.ackDue || (q.hears && 0 < q.sinceAck) }

/-! Sending. -/

/-- The 10-bit bit-reversal (14 R397). -/
def bitRev10 (n : Nat) : Nat := maskOf ((bitsOf n 10).map (9 - ·))

/-- The isolated tenant that owns a slot of every frame (14 R397). -/
def State.slotOwner (s : State) (slot : Nat) : Option Nat :=
  let i := bitRev10 slot
  (s.sch.iso.foldl (fun (a : Nat × Option Nat) t =>
    let n := bits t.2 47 38
    (a.1 + n, if a.2.isNone && a.1 ≤ i && i < a.1 + n then some t.1 else a.2)) (0, none)).2

/-- The age of a packet in a transmit queue (13 R375). -/
def State.txAge (s : State) (x : TxPkt) : Nat := ageAfter x.p.age (s.dev.tick - x.since)

/-- Packets whose age has reached its limit leave the queues, but one that has begun (13 R375). -/
def State.dropAged (s : State) (p : Nat) : State :=
  let q := s.port p
  let old (x : TxPkt) : Bool := !x.begun && 16000 ≤ s.txAge x
  let live : List (List TxPkt) := q.queues.map fun l => l.filter fun x => !old x
  let n := sumOf (q.queues.map (·.length)) - sumOf (live.map (·.length))
  if n == 0 then s
  else
    let s := { s with fab.aged := s.fab.aged + n }
    let gone := q.queues.flatMap fun l => l.filter old
    let unsent (o : Outst) : Bool := gone.any fun x => x.p.src == o.src && x.p.tag == o.tag && x.p.tgen == o.tgen
    (s.countDev 7 n).putPort p { q with queues := live, outst := q.outst.filter fun o => !unsent o }

/-- The packets of a channel that may give the next flit: the one that has begun, or all (R329). -/
def chanHeads (l : List TxPkt) : List (TxPkt × Nat) :=
  match l.zipIdx.find? (·.1.begun) with
  | some x => [x]
  | none => l.zipIdx

/-- The packets of some channels that hold a credit and may use this slot, with their channel and place (R330, 14 R397). -/
def State.txHeads (s : State) (p : Nat) (chans : List Nat) : List (Nat × TxPkt × Nat) :=
  let q := s.port p
  let owner := s.slotOwner q.slot
  chans.flatMap fun c =>
    if q.credits.getD c 0 == 0 then []
    else ((chanHeads (q.queues.getD c [])).filter fun x =>
      match owner with
      | some t => x.1.sub == t
      | none => !s.isolated x.1.sub).map fun x => (c, x.1, x.2)

/-- The next data flit's channel and packet (R332; 14 R388 chooses the subscriber on RSP, REQ and MCAST). In an isolated
tenant's slot there is one subscriber, and its reserved slots need no share. -/
def State.nextData (s : State) (p : Nat) : Option (Nat × TxPkt × Nat) :=
  let owned := (s.slotOwner (s.port p).slot).isSome
  let egress (chans : List Nat) : Option (Nat × TxPkt × Nat) :=
    let l := s.txHeads p chans
    if owned then l.head?
    else
      let es : List Entry := l.zipIdx.map fun x =>
        { id := x.2, sub := x.1.2.1.sub, svc := x.1.2.1.svc, since := x.1.2.1.since, order := x.2 }
      (s.pickEntry (512 + p) es).bind fun e => l[e.id]?
  let plain (c : Nat) : Option (Nat × TxPkt × Nat) := (s.txHeads p [c]).head?
  (egress [1]).or ((plain 2).or ((plain 5).or ((plain 3).or (egress [0, 4]))))

/-- A slot of a frame has passed; a new frame begins a new round of shares (14 R380, Table 14-2). -/
def State.frameTick (s : State) (p : Nat) : State :=
  if (s.port p).slot == 0 then { s with sch.used := s.sch.used.del (512 + p), sch.olds := s.sch.olds.del (512 + p) } else s

/-- Largest payload of a flit (R326, R347). -/
def flitMax (mode : Nat) : Nat := if mode == 0 then 232 else 104

/-- The lifetime of a request counts from its sending (12 R343). -/
def Port.outSent (q : Port) (x : TxPkt) (due : Nat) : Port :=
  if x.begun then q
  else { q with outst := q.outst.map fun o => if o.src == x.p.src && o.tag == x.p.tag && o.tgen == x.p.tgen then { o with due } else o }

/-- A data flit leaves. -/
def State.sendData (s : State) (p c i : Nat) (x : TxPkt) : State :=
  let q := s.port p
  let point := 512 + p
  let b := if x.begun then x.bytes else packetBytes x.opcode { x.p with age := s.txAge x }
  let n := flitMax q.mode
  let y := q.sendNew false c (!x.begun) (b.length ≤ n) (b.take n)
  let l := y.2.queues.getD c []
  let l := if b.length ≤ n then l.take i ++ l.drop (i + 1) else listSet l i { x with begun := true, bytes := b.drop n }
  let s := s.putPort p
    ({ y.2 with credits := listMod y.2.credits c (· - 1), queues := listSet y.2.queues c l }.outSent x (s.dev.tick + 400))
  let s := if x.begun then s else s.leaveQueue 2 p x.sub x.since
  let s := if c == 0 || c == 1 || c == 4 then
      let t := s.sch.used.findD point []
      { s with sch.used := s.sch.used.put point (t.put (useKey x.sub x.svc) (t.findD (useKey x.sub x.svc) 0 + 1)) }
    else s
  (s.emit (.flit p y.1)).frameTick p

/-- Whether PS_FINISH is out of the queue once this end has formed it: at most LINK_PARAMS stands behind it (Table 12-6). -/
def finishLeft (rest : List (List Byte)) : Bool := rest.all fun m => m.head? == some 4#8

/-- FLIT_SEND (R332, R333). -/
def State.flitSend (s : State) (p : Nat) : State :=
  let s := s.dropAged p
  let s := s.modPort p Port.switchTx
  let q := s.port p
  if !q.hears then s
  else if 2 ^ 31 ≤ q.keyFlits || 2 ^ 55 ≤ q.txE then s.portDown p 5
  else if 0 < q.toReplay then
    let i := q.unacked.length - q.toReplay
    match q.unacked[i]? with
    | none => s
    | some f =>
      if 255 ≤ f.txNum then s.portDown p 1
      else
        let y := q.form (f.e % 4096) (if f.ctl then 2 else 1) f.vc f.first f.last f.payload (f.txNum + 1) 0
        ((s.putPort p { y.2 with toReplay := q.toReplay - 1
                                 unacked := listSet q.unacked i { f with txNum := f.txNum + 1 } }).emit (.flit p y.1)).frameTick p
  else
    let owned := (s.slotOwner q.slot).isSome
    let room := q.unacked.length < 1024
    let idle (s : State) : State :=
      let y := q.form (q.txE % 4096) 0 0 false false [] 0 q.idleCount
      if q.mute then s
      else ((s.putPort p { y.2 with idleCount := q.idleCount + 1, keyFlits := q.keyFlits + b2n y.1.tagged }).emit (.flit p y.1)).frameTick p
    match q.ctlQueue with
    | m :: rest =>
      if room && !owned then
        let n := flitMax q.mode
        let first := !q.sess.ctlBegun
        let y := q.sendNew true 0 first (m.length ≤ n) (m.take n)
        let more := if m.length ≤ n then rest else m.drop n :: rest
        let sent := q.sess.finishSent || (m.length ≤ n && q.sess.finishOut && finishLeft rest)
        ((s.putPort p { y.2 with ctlQueue := more, sess := { q.sess with ctlBegun := n < m.length, finishSent := sent } }).emit
          (.flit p y.1)).frameTick p
      else idle s
    | [] =>
      if q.st == .up && room then
        match s.nextData p with
        | some x => s.sendData p x.1 x.2.2 x.2.1
        | none => idle s
      else idle s

/-! What takes ports down. -/

/-- DOWN_NOTICE and the down pattern (R341). -/
def State.peerDown (s : State) (p reason : Nat) : State :=
  let q := s.port p
  if q.st == .up || q.st == .session || q.st == .retrain then s.portDown p (if 1 ≤ reason && reason ≤ 6 then reason else 0) else s

/-- ALIGNMENT_LOSS (R341): a port that retrains is already realigning. -/
def State.alignLoss (s : State) (p : Nat) : State :=
  let q := s.port p
  if q.st == .up || q.st == .session then s.portDown p 0 else s

/-- LASER_FAULT_ALARM (R324). -/
def State.laserFault (s : State) (engine : Nat) : State :=
  (List.range 4).foldl (fun s i => s.portDown (4 * engine + i) 6) s

/-- PORT_DOWN_HOLD_EXPIRY (Table 12-7). -/
def State.holdOver (s : State) (p : Nat) : State :=
  let q := s.port p
  if q.st == .down && q.enable && q.downDue ≤ s.dev.tick then s.putPort p { q with st := .dark } else s

/-- A port goes to DARK at once after it was taken down (R346, 19 Table 19-4). -/
def State.darkNow (s : State) (p : Nat) : State :=
  s.modPort p fun q => if q.st == .down && q.enable then { q with st := .dark } else q

/-- OUTSTANDING_ENTRY_EXPIRY (R343). -/
def State.outstExpiry (s : State) (p src tag tgen : Nat) : State :=
  s.modPort p fun q => { q with outst := q.outst.filter fun o =>
    !(o.src == src && o.tag == tag && o.tgen == tgen && o.due ≤ s.dev.tick) }

/-- A control message that has come in whole (Table 12-5). One of another type has no effect (log 35). -/
def State.controlIn (s : State) (p : Nat) (b : List Byte) : State :=
  match b with
  | [] => s
  | t :: body =>
    match t.toNat with
    | 1 => let x := Config.helloChain body; s.hello p x.1 (identChain x.2)
    | 2 => s.kem p (identChain (Config.kemVerdict body))
    | 3 => s.finish p (Config.sigVerdict body)
    | 4 => s.params p ((List.range 6).map fun i => leNat (slice body (2 * i) 2).reverse)
    | 5 => s.keyNext p
    | 6 => s.keyNextKem p
    | 7 => s.peerDown p (leNat (body.take 1))
    | _ => s

/-! Port commands (R346). -/

def orDefault (v d : Nat) : Nat := if v == 0 then d else v

/-- PORT_SET. -/
def bodyPortSet : CcpBody := fun c s =>
  let b := c.block
  let mode := bits b 17 16
  let top := if mode == 0 then 8 else 4
  let p := bits b 5 0
  checked s [ (512 < bits b 45 36 || 8 < bits b 31 28 || 2 ≤ mode, rRange), (top < bits b 31 28, rf .range 5) ]
    (let q := s.port p
     let en := bit b 8
     let new (q : Port) : Port := { q with
       replayTo := orDefault (bits b 63 56) 20, ackTimer := orDefault (bits b 55 48) 20
       ackEvery := orDefault (bits b 45 36) 64, replayLim := orDefault (bits b 35 32) 4
       wMax := orDefault (bits b 31 28) top, mode, enable := en }
     let s :=
       if mode != q.mode || en != q.enable then
         let s := (s.portDown p 4).modPort p new
         if en then (s.modPort p fun q => { q with st := .down }).darkNow p else s.modPort p fun q => { q with st := .down }
       else
         (s.modPort p new).lowerW p
     okEmpty s)

/-- The number of a port state in Table 12-7's order. -/
def PortSt.code : PortSt → Nat
  | .dark => 0
  | .training => 1
  | .session => 2
  | .up => 3
  | .retrain => 4
  | .down => 5

/-- PORT_QUERY (R346, 09 R259, log 29). -/
def bodyPortQuery : CcpBody := fun c s =>
  checked s [ (63 < c.object, rObject) ]
    (let q := s.port c.object
     okBytes s (([q.st.code, q.w, q.tNs, q.crcFails, q.replayN, q.retrains] ++ (q.downs.drop 1).take 6 ++
       [q.security, q.idleDisc] ++ q.fec ++ [s.stats.portRef.findD c.object 0]).flatMap fun n => leBytes n 8))

end Sys2Proof.Machine
end

