-- ==== Sys2Proof/Machine/Mem.lean ====
section
/-! DEFINITION. Mem.lean: the memory behind the pool: bytes, granules and their states (06 R150 to R155, R158), the
Reed-Solomon code (11 R297), one sector's read and write with everything they count and log (11 R299 to R303, R306 to
R308, R314), and pages of 256 sectors. -/

namespace Sys2Proof.Machine

/-! Bytes. -/

/-- The byte at an address; an unlisted one is zero (11 R305, R306). -/
def memAt (m : List Host.Cell) (a : Nat) : Byte := ((m.find? fun c => c.1 == a).map (·.2)).getD 0

/-- `len` bytes from an address. -/
def memRead (m : List Host.Cell) (a len : Nat) : List Byte :=
  let w := m.filter fun c => a ≤ c.1 && c.1 < a + len
  (List.range len).map fun i => memAt w (a + i)

/-- The cells that bytes at an address make: zero bytes are not listed. -/
def newCells : Nat → List Byte → List Host.Cell
  | _, [] => []
  | a, b :: r => if b == 0 then newCells (a + 1) r else (a, b) :: newCells (a + 1) r

/-- Bytes written at an address. -/
def memWrite (m : List Host.Cell) (a : Nat) (b : List Byte) : List Host.Cell :=
  (m.filter fun c => c.1 < a) ++ newCells a b ++ m.filter fun c => a + b.length ≤ c.1

/-- `len` bytes from an address become zero. -/
def memZero (m : List Host.Cell) (a len : Nat) : List Host.Cell :=
  (m.filter fun c => c.1 < a) ++ m.filter fun c => a + len ≤ c.1

/-- The addresses rise strictly. -/
def rising : List Host.Cell → Bool
  | [] => true
  | [_] => true
  | a :: b :: r => a.1 < b.1 && rising (b :: r)

/-- The canonical form of memory: rising addresses, no zero byte listed. -/
def Memory.wf (m : List Host.Cell) : Bool := rising m && m.all fun c => c.2 != 0

/-! Granules. -/

def granRank (g : Nat) : Nat := g / 9216
def granStack (g : Nat) : Nat := g / 36864
def sectorGran (n : Nat) : Nat := n / 8192
def pageGran (p : Nat) : Nat := p / 32
def sectorPage (n : Nat) : Nat := n / 256
def sectorAddr (n : Nat) : Nat := n * 256

/-- Stack-local sector number (10 R281). -/
def localSector (n : Nat) : Nat := n % (36864 * 8192)

/-! Where a sector lies in its stack (10 R281). -/

/-- The parity of a number of 32 bits. -/
def parity (x : Nat) : Nat :=
  let x := x ^^^ x / 2 ^ 16
  let x := x ^^^ x / 2 ^ 8
  let x := x ^^^ x / 2 ^ 4
  let x := x ^^^ x / 2 ^ 2
  (x ^^^ x / 2) % 2

/-- The number whose bit j is the parity of the bits of `n` that mask j selects. -/
def xorBits (masks : List Nat) (n : Nat) : Nat :=
  match masks with
  | [] => 0
  | m :: r => parity (Nat.land m n) + 2 * xorBits r n

/-- The pseudo-channel of a stack-local sector number. -/
def State.pchOf (s : State) (n : Nat) : Nat := xorBits s.stk.pc n

/-- The bank of a stack-local sector number. -/
def State.bankOf (s : State) (n : Nat) : Nat := xorBits s.stk.bk n

/-- A place in a stack. -/
structure DramLoc where
  pch    : Nat
  rank   : Nat
  bank   : Nat
  row    : Nat
  column : Nat
  deriving DecidableEq, Repr

/-- The place of a stack-local sector number. -/
def State.locOf (s : State) (n : Nat) : DramLoc :=
  let g := n / 8192
  { pch := s.pchOf n, rank := g / 9216, bank := s.bankOf n, row := 2 * (g % 9216) + n / 1024 % 2, column := n / 2048 % 4 }

/-! What an access sends to the DRAM (10 R276, R284, R285). -/

/-- The commands of one sector access (R276): one activate, eight bursts, the last with auto-precharge. -/
def accessCmds (l : DramLoc) (write : Bool) : List DramCmd :=
  .activate l.rank l.bank l.row :: (List.range 8).map fun j => .column write (8 * l.column + j) (j == 7)

def bankKey (rank bank : Nat) : Nat := rank * 16 + bank

/-- Refreshes of a bank: each takes a threshold's worth of activates off its count, as the standard's refresh management does
(R285, log 175). -/
def DramBank.refresh (b : DramBank) (limit n : Nat) : DramBank :=
  { b with postponed := 0, refreshed := b.refreshed + n, activates := b.activates - n * limit }

/-- Refreshes that an access to a bank may not pass: those postponed to their limit (R284), and the one due since the stack left
self-refresh (R286). -/
def DramBank.owed (b : DramBank) (dueAll : Bool) : Nat :=
  if dueAll && b.refreshed == 0 then b.postponed + 1 else if 8 ≤ b.postponed then b.postponed else 0

/-- An activate of a bank, with the refresh-management command that the threshold asks for first (R285). -/
def DramBank.activate (b : DramBank) (limit : Nat) : DramBank :=
  if limit ≤ b.activates then { b with managed := b.managed + 1, activates := b.activates - limit + 1 }
  else { b with activates := b.activates + 1 }

/-- One access of a sector of the device: what is owed to its bank goes first (R276, R284, R285). -/
def State.touch (s : State) (n : Nat) (write : Bool) : State :=
  let k := granStack (sectorGran n)
  let limit := Config.refreshThreshold k
  let l := s.locOf (localSector n)
  let key := bankKey l.rank l.bank
  s.modStack k fun x =>
    let q := x.pch l.pch
    let b := q.banks.findD key {}
    let owed := b.owed x.dueAll
    let b := if owed == 0 then b else b.refresh limit owed
    let cmds := (if owed == 0 then [] else [DramCmd.refresh l.rank l.bank owed]) ++
      (if limit ≤ b.activates then [DramCmd.manage l.rank l.bank] else []) ++ accessCmds l write
    { x with pchs := x.pchs.put l.pch { q with banks := q.banks.put key (b.activate limit), last := cmds } }

/-- Accesses of every sector of a granule: eight to each bank of each pseudo-channel of its rank (Table 10-2). -/
def State.touchGran (s : State) (g : Nat) : State :=
  let k := granStack g
  let limit := Config.refreshThreshold k
  let rank := granRank g % 4
  s.modStack k fun x => { x with pchs := (List.range 64).foldl (fun (t : Tbl Pch) p =>
    let q := x.pch p
    t.put p { q with banks := (List.range 16).foldl (fun (u : Tbl DramBank) j =>
      let key := bankKey rank j
      u.put key ((List.range 8).foldl (fun b _ => b.activate limit) (u.findD key {}))) q.banks }) x.pchs }

/-! Slots and holds (10 R280, R292 to R294; 14 R398). -/

/-- The access-rate limit of a stack in 64ths (15 R411, R419). -/
def State.stackRate (s : State) (k : Nat) : Nat := if (s.stack k).hot then min 32 s.pwr.rate else s.pwr.rate

/-- Whether a pseudo-channel is held: for tracking after self-refresh, for a full retrain, or for a run of its pattern
generator (10 R286, R292 to R294). -/
def Stack.holds (x : Stack) (p : Nat) : Bool :=
  let q := x.pch p
  q.fullDue || q.trkDue || q.retrain.any (·.inSlice) || q.running.isSome

/-- Whether any pseudo-channel of a stack is held. -/
def Stack.held (x : Stack) : Bool := x.pchs.any fun q => x.holds q.1

/-- The first stack with a held pseudo-channel among those that some sectors of the device lie in. -/
def State.heldFor (s : State) (l : List Nat) : Option Nat :=
  if !s.stk.units.any fun x => x.2.held then none
  else (l.find? fun n => (s.stack (granStack (sectorGran n))).holds (s.pchOf (localSector n))).map fun n => granStack (sectorGran n)

/-- An access to some sectors waits in the queues of pseudo-channels that are held (10 R293). False: nothing holds it. -/
def State.awaitStack (s : State) (who : Access) (l : List Nat) : Bool × State :=
  match s.heldFor l with
  | none => (false, s)
  | some k =>
    let w := s.stk.waiting.findD k []
    (true, if w.contains who then s else { s with stk.waiting := s.stk.waiting.put k (w ++ [who]) })

/-- The window of 1,024 controller cycles that the present tick lies in: a tick is 640 cycles (10 R280). -/
def State.stackWindow (s : State) : Nat := s.dev.tick * 5 / 8

/-- `stack_share` of an isolated tenant in 1,024ths; none for 0xFFFF, the class of all others (14 R398). -/
def State.stackShare (s : State) (cls : Nat) : Nat :=
  if cls == 0xFFFF then 1024 - sumOf (s.sch.iso.map fun x => bits x.2 37 28) else bits (s.sch.iso.findD cls 0) 37 28

/-- The class whose slots a subscriber's accesses use (14 R398). -/
def State.slotClass (s : State) (sub : Nat) : Nat := if s.isolated sub then sub else 0xFFFF

/-- The part of `n` slots in every window that a share gives in window `w`: parts of slots add up over the windows. -/
def slotPart (n share w : Nat) : Nat := (w + 1) * n * share / 1024 - w * n * share / 1024

/-- The slots of the present window that a class has: of one pseudo-channel, of whose bus a sector takes eight cycles, and of all
64 under the access-rate limit (10 R276, R280; 14 R398). -/
def State.slotsOf (s : State) (k cls : Nat) : Nat × Nat :=
  let share := s.stackShare cls
  let w := s.stackWindow
  (slotPart 128 share w, slotPart (128 * s.stackRate k) share w)

/-- A sector slot of a pseudo-channel is used by a class; none where no slot of the window is left for it. -/
def State.takeSlot (s : State) (k p cls : Nat) : Option State :=
  let w := s.stackWindow
  let x := s.stack k
  let q := x.pch p
  let mine := if q.win == w then q.slots else []
  let all := if x.win == w then x.used else []
  let room := s.slotsOf k cls
  if room.1 ≤ mine.findD cls 0 || room.2 ≤ all.findD cls 0 then none
  else some (s.putStack k { x with
    win := w, used := all.put cls (all.findD cls 0 + 1)
    pchs := x.pchs.put p { q with win := w, slots := mine.put cls (mine.findD cls 0 + 1) } })

/-! Granule states. -/

/-- Whether a granule lies where the metadata region is (06 R150). -/
def State.inMetadata (s : State) (g : Nat) : Bool :=
  g % 9216 < 128 && s.pool.metaRank.getD (g / 36864) none == some (granRank g % 4)

def State.rankSt (s : State) (r : Nat) : RankSt := s.pool.ranks.getD r .inService

/-- The state of a granule of which nothing else is recorded (06 R150, R151, 10 R289). -/
def State.granDefault (s : State) (g : Nat) : GranSt :=
  match s.rankSt (granRank g) with
  | .fallow => .fallow
  | .filling => .fallow
  | .retired => if s.inMetadata g && (s.stack (granStack g)).failed then .metadata else .retired
  | _ => if s.inMetadata g then .metadata else if s.pool.unfilled.contains (g / 1152) then .unfilled else .free

/-- Granules of a rank that wait for a fill by default (10 R296). -/
def State.unfilledIn (s : State) (r : Nat) : Nat := 1152 * (s.pool.unfilled.filter fun k => k / 8 == r).length

def State.gran (s : State) (g : Nat) : Gran := (s.pool.grans.find g).getD { st := s.granDefault g }

/-- A granule's state, listed only where it is not the default. -/
def State.setGran (s : State) (g : Nat) (x : Gran) : State :=
  if x == { st := s.granDefault g } then s.delGran g else s.putGran g x

/-- Whether a granule is allocatable (06 Table 6-1). -/
def State.granFree (s : State) (g : Nat) : Bool := (s.gran g).st == .free

/-- The lowest-numbered FREE granule of a rank. -/
def State.freeInRank (s : State) (r : Nat) : Option Nat :=
  match s.rankSt r with
  | .inService => firstFree (fun g => !s.granFree g) (9216 * r) 9216
  | .leaving => firstFree (fun g => !s.granFree g) (9216 * r) 9216
  | _ => (s.pool.grans.find? fun e => granRank e.1 == r && e.2.st == .free).map (·.1)

/-- The lowest-numbered FREE granule of a stack, outside one rank where one is named. -/
def State.freeInStack (s : State) (k : Nat) (but : Option Nat := none) : Option Nat :=
  (List.range 4).findSome? fun r => if but == some (4 * k + r) then none else s.freeInRank (4 * k + r)

/-- The next ready stack of a mask, in cyclic order from `pos`, that has a FREE granule, and that granule (06 R158). -/
def State.nextFree (s : State) (mask pos : Nat) (but : Option Nat := none) : Option Nat :=
  (List.range 16).findSome? fun j =>
    let k := (pos + j) % 16
    if bit mask k && bit s.ready.stack k then s.freeInStack k but else none

/-- How many granules are in a state: the defaults of the ranks, and what the list changes. -/
def State.granCount (s : State) (st : GranSt) : Nat :=
  let base (r : Nat) : Nat :=
    let m := if s.pool.metaRank.getD (r / 4) none == some (r % 4) then 128 else 0
    match s.rankSt r with
    | .fallow => if st == .fallow then 9216 else 0
    | .filling => if st == .fallow then 9216 else 0
    | .retired =>
      let m := if (s.stack (r / 4)).failed then m else 0
      if st == .retired then 9216 - m else if st == .metadata then m else 0
    | _ => if st == .metadata then m else if st == .free then 9216 - m - s.unfilledIn r else if st == .unfilled then s.unfilledIn r else 0
  sumOf ((List.range 64).map base) + s.pool.grans.count (fun x => x.st == st)
    - (s.pool.grans.filter fun e => s.granDefault e.1 == st).length

/-- FREE granules in the ready stacks of a mask (06 Table 6-5). -/
def State.freeIn (s : State) (mask : Nat) : Nat :=
  let free (r : Nat) : Nat :=
    let m := if s.pool.metaRank.getD (r / 4) none == some (r % 4) then 128 else 0
    let base := match s.rankSt r with
      | .inService => 9216 - m - s.unfilledIn r
      | .leaving => 9216 - m - s.unfilledIn r
      | _ => 0
    let l := s.pool.grans.filter fun e => granRank e.1 == r
    base + (l.filter fun e => e.2.st == .free).length - (l.filter fun e => s.granDefault e.1 == .free).length
  sumOf ((List.range 64).map fun r => if bit mask (r / 4) && bit s.ready.stack (r / 4) then free r else 0)

/-- Allocatable capacity (06 R152). A granule that a migration is copied to counts once its source is RETIRED (11 R318). -/
def State.capacity (s : State) : Nat :=
  589824 - s.granCount .metadata - s.granCount .fallow - s.granCount .retired - s.granCount .moving

/-- A tenant's charge (06 R154). -/
def State.charge (s : State) (t : Nat) : Nat :=
  s.pool.grans.count fun x => x.owner == t && x.use != .test && (x.st == .allocated || x.st == .quarantine)

def State.reserveOf (s : State) (t : Nat) : Nat := ((s.tenantOf t).map (·.reserve)).getD 0

/-! The code over the pins (11 R297). -/

/-- Product in GF(2^8) modulo x^8 + x^4 + x^3 + x^2 + 1. -/
def gfMul (a : Nat) : Nat → Nat → Nat
  | _, 0 => 0
  | b, n + 1 =>
    let d := 2 * a
    Nat.xor (if b % 2 == 1 then a else 0) (gfMul (if 256 ≤ d then Nat.xor (d - 256) 0x1D else d) (b / 2) n)

/-- α to a power. -/
def gfPow : Nat → Nat
  | 0 => 1
  | n + 1 => gfMul (gfPow n) 2 8

/-- What the decoder makes of one codeword: its error pattern after correction, and the pin it corrected; none when it
is uncorrectable. -/
def decodeBurst (e : List (Nat × Nat)) : Option (List (Nat × Nat) × Option Nat) :=
  let syn (k : Nat) : Nat := e.foldl (fun a x => Nat.xor a (gfMul x.2 (gfPow (k * (35 - x.1))) 8)) 0
  let s0 := syn 0
  let s1 := syn 1
  let s2 := syn 2
  if s0 == 0 && s1 == 0 && s2 == 0 then some (e, none)
  else
    match (List.range 36).find? fun p => s0 != 0 && s1 == gfMul s0 (gfPow (35 - p)) 8 && s2 == gfMul s1 (gfPow (35 - p)) 8 with
    | none => none
    | some p =>
      let was := (e.filter fun x => x.1 == p).foldl (fun a x => Nat.xor a x.2) 0
      let left := Nat.xor was s0
      some ((e.filter fun x => x.1 != p) ++ (if left == 0 then [] else [(p, left)]), some p)

/-- Errors that fall on the same symbols, combined. -/
def xorErr (a b : RawErr) : RawErr :=
  b.foldl (fun l x =>
    let was := (l.filter fun y => y.1 == x.1 && y.2.1 == x.2.1).foldl (fun v y => Nat.xor v y.2.2) 0
    let v := Nat.xor was x.2.2
    (l.filter fun y => !(y.1 == x.1 && y.2.1 == x.2.1)) ++ (if v == 0 then [] else [(x.1, x.2.1, v)])) a

/-- The eight codewords of a sector: whether any error is left, and the corrected (burst, pin); none when a codeword is
uncorrectable. -/
def decodeSector (e : RawErr) : Option (Bool × List (Nat × Nat)) :=
  let l := (List.range 8).map fun k => (k, decodeBurst ((e.filter fun x => x.1 == k).map (·.2)))
  if l.any fun x => x.2.isNone then none
  else some (l.any fun x => (x.2.map fun y => !y.1.isEmpty).getD false,
    l.filterMap fun x => x.2.bind fun y => y.2.map fun p => (x.1, p))

/-! A sector. -/

def State.secMeta (s : State) (n : Nat) : SecMeta := s.pool.sectors.findD n {}

def State.setSecMeta (s : State) (n : Nat) (m : SecMeta) : State := if m == {} then s.delSector n else s.putSector n m

/-- The tenant that owns a granule in use, none for a test granule or one without owner. -/
def State.granOwner (s : State) (g : Nat) : Option Nat :=
  let x := s.gran g
  match x.st, x.use with
  | _, .test => none
  | .allocated, _ => some x.owner
  | .quarantine, _ => some x.owner
  | .moving, _ => some x.owner
  | _, _ => none

/-- The epoch and key of writes to a granule (09 R246, R248). -/
def State.writeKey (s : State) (g : Nat) : Nat × Nat :=
  match (s.granOwner g).bind s.tenantOf with
  | some t => if t.sess == .closed then (0, 0) else (t.epoch, t.keyId)
  | none => (0, 0)

/-- Whether the key that a sector's tag names is one its owner holds (09 R245, R247). -/
def State.keyHeld (s : State) (n : Nat) (m : SecMeta) : Bool :=
  m.epoch == 0 || match (s.granOwner (sectorGran n)).bind s.tenantOf with
    | some t => t.sess != .closed && !t.keyless && t.keyId == m.keyId && (t.epoch == m.epoch || t.oldEpoch == some m.epoch)
    | none => false

/-- Whether a page belongs to what the management firmware has put into the metadata region of a ready stack (11 R305, log
177): its map bits are set from step 9 on. -/
def State.firmPage (s : State) (p : Nat) : Bool :=
  bit s.ready.stack (granStack (pageGran p)) && s.inMetadata (pageGran p) && s.rankSt (granRank (pageGran p)) != .retired

/-- Whether a page's written-map bit is set (11 R304). -/
def State.written (s : State) (p : Nat) : Bool := s.pool.wmap.contains p || s.firmPage p

/-- Whether a read of a page answers zeros without the DRAM (11 R306). -/
def State.unwritten (s : State) (p : Nat) : Bool := s.dev.initMode && !s.written p

def State.isTest (s : State) (g : Nat) : Bool := (s.gran g).use == .test

/-- How a sector read ends, before anything is done about it (11 Table 11-3). -/
inductive SecCond where
  | unread                                      -- the map bit is clear
  | unc
  | mac
  | poison
  | good (lost : Bool) (fixed : Option (List (Nat × Nat)))
  deriving DecidableEq, Repr

/-- The first matching row of Table 11-3, with the errors of a first and a second attempt. -/
def State.secCond (s : State) (n : Nat) (e1 e2 : RawErr) : SecCond :=
  if s.unwritten (sectorPage n) then .unread
  else
    let m := s.secMeta n
    let finish (left : Bool) (fixed : Option (List (Nat × Nat))) : SecCond :=
      if left || m.macBad || !s.keyHeld n m then .mac else if m.poison then .poison else .good m.lost fixed
    match decodeSector (xorErr m.rawErr e1) with
    | some (left, []) => finish left none
    | some (left, fixed) => finish left (some fixed)
    | none =>
      match decodeSector (xorErr m.rawErr e2) with
      | some (left, fixed) => finish left (some fixed)
      | none => .unc

/-- The status a condition contributes (11 Table 11-3). -/
def SecCond.status : SecCond → Status
  | .unread => .ok
  | .unc => .poisoned
  | .mac => .integrity
  | .poison => .poisoned
  | .good lost _ => if lost then .okLostUpdate else .ok

/-- What a sector belongs to: tenant, subject kind, subject, byte offset (20 Table 20-4). -/
def State.nameSector (s : State) (n : Nat) : Option (Nat × Nat × Nat × Nat) :=
  let g := sectorGran n
  let x := s.gran g
  let byte := n % 8192 * 256
  match x.use with
  | .extent e => (s.pool.extents.find e).map fun v => (x.owner, 1, e, (v.grans.findIdx (· == g)) * 2097152 + byte)
  | .version e =>
    (s.pool.extents.find e).bind fun v =>
      (v.versions.findSome? fun w => (w.2.frames.find? fun f => f.2 == sectorPage n).map (·.1)).map fun p =>
        (x.owner, 1, e, p * 65536 + n % 256 * 256)
  | .space a => (s.pool.spaces.find a).bind fun v =>
      (v.pops.find? fun f => f.2 == g).map fun f => (x.owner, 5, a, f.1 * 2097152 + byte)
  | _ => none

/-! The address log and the counts (11 R307, R308). -/

/-- Of the entries a predicate accepts, the one that comes first by a measure, with its place. -/
def leastEntry (l : List LogEntry) (ok : LogEntry → Bool) (m : LogEntry → Nat) : Option Nat :=
  ((l.zipIdx.filter fun x => ok x.1).foldl (fun b x => match b with
    | none => some x
    | some y => if m x.1 < m y.1 then some x else b) none).map (·.2)

/-- An event enters an address log (11 R307). -/
def logPut (l : List LogEntry) (tick pin kind sector : Nat) : List LogEntry :=
  match l.findIdx? fun e => e.sector == sector with
  | some i => listMod l i fun e =>
      { e with tick, count := min (e.count + 1) 65535, kind := max e.kind kind, pin := if e.pin == pin then pin else 63 }
  | none =>
    let new : LogEntry := { tick, count := 1, pin, kind, sector }
    if l.length < 16 then l ++ [new]
    else
      let put (i : Option Nat) : List LogEntry := match i with
        | some i => l.eraseIdx i ++ [new]
        | none => l
      if kind == 0 then put (leastEntry l (fun e => e.kind == 0) fun e => e.count * 2 ^ 64 + e.tick)
      else
        match leastEntry l (fun e => e.kind == 0) (·.tick) with
        | some i => put (some i)
        | none => put (leastEntry l (fun _ => true) (·.tick))

/-- An error of a sector is logged at its stack (11 R307). -/
def State.logSector (s : State) (n pin kind : Nat) : State :=
  let k := granStack (sectorGran n)
  s.modStack k fun st => { st with log := logPut st.log s.dev.tick pin kind (localSector n) }

/-- A new kind-0 log entry names a pin; with the 32nd its wear is recorded (11 R308). The next training remaps the pin as every
pin that fails steps 5 or 6. -/
def State.wearPin (s : State) (k p pin : Nat) : State :=
  if 36 ≤ pin then s
  else
    let c := (s.pch k p).pinLogs.findD pin 0 + 1
    let s := s.modPch k p fun q => { q with pinLogs := q.pinLogs.put pin c }
    if c == 32 then s.recOp 0x0209 7 k p pin else s

/-- A corrected sector read is counted and logged (11 R306, R307, R314). -/
def State.countFixed (s : State) (n : Nat) (fixed : List (Nat × Nat)) : State :=
  let k := granStack (sectorGran n)
  if s.isTest (sectorGran n) then
    s.modStack k fun st => { st with testCount := (sat32 st.testCount.1 1, st.testCount.2) }
  else
    let p := s.pchOf (localSector n)
    let pins := fixed.map (·.2)
    let pin := match pins with
      | [] => 63
      | a :: r => if r.all (· == a) then a else 63
    let s := s.modPch k p fun q => { q with corrected := sat32 q.corrected 1, sinceTrk := q.sinceTrk + 1 }
    let logged (s : State) : Bool := (s.stack k).log.any fun e => e.sector == localSector n
    let t := s.logSector n pin 0
    if logged t && !logged s then t.wearPin k p pin else t

/-- The window of 16,777,216 ticks that the present tick lies in; the counts of one that has passed are gone (11 R315). -/
def State.rankNow (s : State) : State :=
  let w := s.dev.tick / 16777216
  if s.pool.rankWin == w then s else { s with pool.rankWin := w, pool.badSecs := [], pool.parity := [] }

/-- A sector of a rank counts as uncorrectable in the present window (11 R315). -/
def State.countBad (s : State) (n : Nat) : State :=
  let r := granRank (sectorGran n)
  let s := s.rankNow
  { s with
    pool.badSecs := s.pool.badSecs.put r (insertNum (s.pool.badSecs.findD r []) n)
    todo := s.todo ++ [.rank r] }

/-- A poison sector takes the place of a sector (11 R302). -/
def State.poisonSector (s : State) (n : Nat) : State :=
  let k := s.writeKey (sectorGran n)
  (({ s with pool.mem := memZero s.pool.mem (sectorAddr n) 256 }).touch n true).putSector n
    { epoch := k.1, keyId := k.2, poison := true, written := true }

/-- An uncorrectable sector that no mirror recovers (11 R302, R314). -/
def State.loseSector (s : State) (n : Nat) : State :=
  let g := sectorGran n
  let who := s.nameSector n
  let s := s.poisonSector n
  if s.isTest g then
    s.modStack (granStack g) fun st => { st with testCount := (st.testCount.1, sat32 st.testCount.2.1 1, st.testCount.2.2) }
  else
    let s := (s.logSector n 63 1).countBad n
    match who with
    | some (t, kind, subj, off) => s.recTen t 0x0201 kind subj off 0x30
    | none => s

/-- What the stack's on-die ECC reports of a read: a correction is counted, an uncorrectable error is logged and counts as an
uncorrectable sector (11 R307, R315); in a test granule it goes into the test counts (R314). -/
def State.onDie (s : State) (n report : Nat) : State :=
  let k := granStack (sectorGran n)
  if report == 0 then s
  else if s.isTest (sectorGran n) then
    s.modStack k fun st => { st with testCount :=
      if report == 1 then (sat32 st.testCount.1 1, st.testCount.2) else (st.testCount.1, sat32 st.testCount.2.1 1, st.testCount.2.2) }
  else if report == 1 then s.modPch k (s.pchOf (localSector n)) fun q => { q with onDie := sat32 q.onDie 1 }
  else (s.logSector n 63 3).countBad n

/-- A MAC failure that a read finds; the sector fails every read until a full write replaces it (11 R301, R314). -/
def State.macFail (s : State) (n : Nat) : State :=
  let g := sectorGran n
  let m := s.secMeta n
  let s := s.putSector n { m with macBad := true }
  if s.isTest g then
    s.modStack (granStack g) fun st => { st with testCount := (st.testCount.1, st.testCount.2.1, sat32 st.testCount.2.2 1) }
  else
    let s := s.logSector n 63 2
    if m.macNoted then s
    else
      let s := s.putSector n { m with macBad := true, macNoted := true }
      match s.nameSector n with
      | some (t, kind, subj, off) => s.recTen t 0x0202 kind subj off 0x31
      | none => s

/-- What a condition makes happen: the correction written back, the poison sector, the log (11 Table 11-3). -/
def State.secEffect (s : State) (n : Nat) : SecCond → State
  | .unread => s
  | .unc => s.loseSector n
  | .mac => s.macFail n
  | .poison => s
  | .good _ none => s
  | .good _ (some fixed) => ((s.setSecMeta n { s.secMeta n with rawErr := [] }).touch n true).countFixed n fixed

/-- Whether a sector holds what the management firmware has put into the metadata region (11 R305). -/
def State.firmwareSector (s : State) (n : Nat) : Bool :=
  let x := s.gran (sectorGran n)
  (x.st == .metadata || (x.st == .moving && x.use == .none && x.owner == 0)) && !s.pool.sectors.has n

/-- The bytes a condition returns (11 Table 11-3). What the metadata region holds the firmware alone decides (log 177). -/
def State.secData (s : State) (n : Nat) : SecCond → List Byte
  | .good _ _ =>
    if s.firmwareSector n then (List.range 256).map fun i => Config.metadata (sectorAddr n + i)
    else memRead s.pool.mem (sectorAddr n) 256
  | _ => List.replicate 256 0

/-- The DRAM accesses of a read that ends in a condition: a second attempt where the first does not decode (10 R276, 11
R300). -/
def State.readTouch (s : State) (n : Nat) (e1 : RawErr) (c : SecCond) : State :=
  if c == .unread then s
  else
    let s := s.touch n false
    if (decodeSector (xorErr (s.secMeta n).rawErr e1)).isNone then s.touch n false else s

/-- A sector read (11 R300), its uncorrectable handling without a mirror included. -/
def State.readSector (s : State) (n : Nat) (e1 e2 : RawErr := []) : Status × List Byte × State :=
  let c := s.secCond n e1 e2
  (c.status, s.secData n c, (s.readTouch n e1 c).secEffect n c)

/-- The first write to a page sets its map bit; under VALIDMAP every sector of it is then zeros under the owner's epoch
(11 R306). -/
def State.openPage (s : State) (p : Nat) : State :=
  if s.written p then s
  else
    let first := s.dev.initMode
    let k := s.writeKey (pageGran p)
    let s := { s with pool.wmap := insertNum s.pool.wmap p }
    if !first then s
    else
      let s := { s with
        pool.mem := memZero s.pool.mem (p * 65536) 65536
        pool.sectors := s.pool.sectors.keep fun n _ => sectorPage n != p }
      let s := (List.range 256).foldl (fun s i => s.touch (p * 256 + i) true) s
      if k.1 == 0 then s
      else (List.range 256).foldl (fun s i => s.putSector (p * 256 + i) { epoch := k.1, keyId := k.2 }) s

/-- A write of bytes inside one sector, with or without poison (11 R303, 06 R167). -/
def State.writeSector (s : State) (n off : Nat) (b : List Byte) (bad : Bool) : Status × State :=
  let full := off == 0 && 256 ≤ b.length
  let c := if full then .unread else s.secCond n [] []
  let s := (s.readTouch n [] c).secEffect n c
  match c with
  | .mac => (.integrity, s)
  | _ =>
    let was := c == .unc || c == .poison
    let s := s.openPage (sectorPage n)
    let k := s.writeKey (sectorGran n)
    let s := ({ s with pool.mem := memWrite s.pool.mem (sectorAddr n + off) (b.take (256 - off)) }).touch n true
    (if was then .poisoned else .ok,
      s.setSecMeta n { epoch := k.1, keyId := k.2, poison := was || bad, written := true })

/-- Bytes at a device address, sector by sector, and the worst condition. `fuel` bounds the sectors. -/
def State.writeBytes (s : State) (a : Nat) (b : List Byte) (bad : Bool) : Nat → Status × State
  | 0 => (.ok, s)
  | fuel + 1 =>
    match b with
    | [] => (.ok, s)
    | _ :: _ =>
      let off := a % 256
      let r := s.writeSector (a / 256) off (b.take (256 - off)) bad
      let q := State.writeBytes r.2 (a - off + 256) (b.drop (256 - off)) bad fuel
      (r.1.worse q.1, q.2)

/-- Bytes at a device address written, each sector in turn: at most a page, a tile or an image of a ledger tile, all far below
the bound of 65,536 sectors. -/
def State.store (s : State) (a : Nat) (b : List Byte) (bad : Bool := false) : Status × State :=
  s.writeBytes a b bad 65536

/-- The sectors that bytes at an address touch. -/
def sectorsOf (a len : Nat) : List Nat :=
  if len == 0 then [] else (List.range ((a + len - 1) / 256 + 1 - a / 256)).map fun i => a / 256 + i

/-- Bytes at a device address read: the condition of each sector, the bytes, and what the reads did. -/
def State.load (s : State) (a len : Nat) : List (Nat × Status) × List Byte × State :=
  let r := (sectorsOf a len).foldl (fun (x : List (Nat × Status) × List Byte × State) n =>
    let q := x.2.2.readSector n
    (x.1 ++ [(n, q.1)], x.2.1 ++ q.2.1, q.2.2)) ([], [], s)
  (r.1, slice r.2.1 (a % 256) len, r.2.2)

/-- A sector gets the lost-update mark and keeps its data (06 R170, 07 R207, 11 R306). -/
def State.markLost (s : State) (n : Nat) : State :=
  let fresh := s.unwritten (sectorPage n)
  let s := s.openPage (sectorPage n)
  let m := s.secMeta n
  s.putSector n { m with lost := true, written := m.written && !fresh }

/-! Pages. -/

/-- A page read: its 32-byte sector mask for a status, the status, the bytes (06 R163, R165). -/
def State.readPage (s : State) (p : Nat) : Status × List Byte × List Byte × State :=
  let r := s.load (p * 65536) 65536
  let st := Status.worst (r.1.map (·.2))
  let mask := maskOf ((r.1.filter fun x => x.2 == st && st != .ok).map fun x => x.1 % 256)
  (st, leBytes mask 32, r.2.1, r.2.2)

/-- Every sector of a page gets the lost-update mark (06 R170). -/
def State.revertPage (s : State) (p : Nat) : State :=
  (List.range 256).foldl (fun s i => s.markLost (p * 256 + i)) s

/-- A page becomes a copy of another one, its marks with it, under the owner's current epoch (06 R175). -/
def State.copyPage (s : State) (src dst : Nat) : State :=
  (List.range 256).foldl (fun s i =>
    let r := s.readSector (src * 256 + i)
    let n := dst * 256 + i
    let w := (r.2.2.writeSector n 0 r.2.1 (r.1 == .poisoned || r.1 == .integrity)).2
    if r.1 == .okLostUpdate then w.putSector n { w.secMeta n with lost := true } else w) s

/-- A granule is zeroed: its bytes, marks and map bits (06 R184, 11 R305, R306). -/
def State.zeroGran (s : State) (g : Nat) : State :=
  let s := { s with
    pool.mem := memZero s.pool.mem (g * 2097152) 2097152
    pool.sectors := s.pool.sectors.keep fun n _ => sectorGran n != g
    pool.wmap := s.pool.wmap.filter fun p => pageGran p != g }
  if s.dev.initMode then s else s.touchGran g

/-- The sectors among some that wait for the mirror: uncorrectable, in a mirrored extent of an ACTIVE unit whose peer is
in (11 R302), with the extent and the byte offset. -/
def State.mirrorWants (s : State) (l : List Nat) : List (Nat × Nat × Nat) :=
  if !s.mirrors then []
  else l.filterMap fun n =>
    if s.secCond n [] [] != .unc then none
    else (s.nameSector n).bind fun x =>
      if x.2.1 == 1 && ((s.pool.extents.find x.2.2.1).map fun e => bit e.desc 8).getD false
      then some (n, x.2.2.1, x.2.2.2) else none

end Sys2Proof.Machine
end

