-- ==== Sys2Proof/Machine/PairOut.lean ====
section
/-! DEFINITION. PairOut.lean: what an active unit sends its standby (16 R432 to R435, 11 R302). The payloads are internal
to the pair, so a packet carries none and the contents stand beside it in the output list (log 24). -/

namespace Sys2Proof.Machine

def State.peerNode (s : State) : Nat := bits s.pair.block 191 176
def State.witnessNode (s : State) : Nat := bits s.pair.block 175 160

/-- The lease in slow ticks (16 Table 16-1). -/
def State.leaseTicks (s : State) : Nat :=
  let u := bits s.pair.block 127 112
  1024 * (if u == 0 then 12 else u)

/-- The mirror timeout in slow ticks (16 Table 16-1). -/
def State.mirrorTicks (s : State) : Nat :=
  let u := bits s.pair.block 111 104
  64 * (if u == 0 then 24 else u)

/-- A pair request leaves (16 R432). -/
def State.pairSend (s : State) (what : IssuedFor) (op : Nat) : Nat × State :=
  { s with pair.lastTx := s.dev.tick }.issue what op s.peerNode 0 0 []

/-- A change of mirrored metadata goes to the standby (16 R433), and to a SYNCING peer, whose metadata is copied first
(16 R440). -/
def State.sendMeta (s : State) (r : PairRec) : State :=
  if s.mirrors || (s.pair.role == .active && s.pair.syncing) then
    let x := s.pairSend .metaRec 0x71
    x.2.emit (.metaSent x.1 r)
  else s

/-- A change of mirrored metadata goes to the standby, and something waits until it is held there (16 R433, R434). False: nothing
waits. -/
def State.sendMetaFor (s : State) (r : PairRec) (w : MirrorWait) : Bool × State :=
  if s.mirrors then
    let x := s.pairSend .metaRec 0x71
    let s := x.2.emit (.metaSent x.1 r)
    (true, { s with pair.mirror := s.pair.mirror.put x.1 (s.dev.tick + s.mirrorTicks, w) })
  else (false, s.sendMeta r)

/-- Whether an extent is mirrored now: it is so created, and its tenant's session is open on the peer (16 R434, R435). -/
def State.isMirrored (s : State) (e : Nat) : Bool :=
  match s.pool.extents.find e with
  | some v => bit v.desc 8 && s.pair.peerTen.contains v.tenant
  | none => false

/-- Sector writes, the offsets of the sectors they leave poisoned, and cache records go to the standby, and what waits for them
(16 R433, R434). Without a peer that is in, nothing waits. -/
def State.mirrorOut (s : State) (ext : Nat) (writes : List (Nat × List Byte)) (bad : List Nat) (caches : List CacheRec)
    (w : MirrorWait) : State :=
  let x := s.pairSend .mirror 0x70
  let s := x.2.emit (.mirrored x.1 ⟨s.pair.term, ext, writes, bad, caches⟩)
  { s with pair.mirror := s.pair.mirror.put x.1 (s.dev.tick + s.mirrorTicks, w) }

/-- Whether a write to an extent waits for the standby (16 R434). -/
def State.mirrorsTo (s : State) (e : Nat) : Bool := s.mirrors && s.isMirrored e

/-- Whether a write goes to a SYNCING peer because it lies below the copy pointer; nothing waits for it (16 R440). -/
def State.copiesTo (s : State) (e off : Nat) : Bool :=
  s.pair.role == .active && s.pair.syncing && s.isMirrored e && e * 2 ^ 48 + off < s.pair.copyPtr

/-- The bytes of an extent cut at sector boundaries, as a PAIR_MIRROR carries them (16 Table 16-5). -/
def cutSectors : Nat → Nat → List Byte → List (Nat × List Byte)
  | 0, _, _ => []
  | _ + 1, _, [] => []
  | fuel + 1, off, b :: r =>
    let n := 256 - off % 256
    (off, (b :: r).take n) :: cutSectors fuel (off + n) ((b :: r).drop n)

/-- The device asks the standby for a sector (11 R302): one fetch per sector at a time. -/
def State.fetchMirror (s : State) (n ext off : Nat) : State :=
  if s.pool.fetches.has n then s
  else
    let x := s.pairSend (.fetch (granStack (sectorGran n)) (localSector n)) 0x73
    let s := x.2.emit (.pairSector x.1 ext off [])
    { s with pool.fetches := s.pool.fetches.put n { extent := ext, offset := off, tag := x.1, due := s.dev.tick + 64 } }

end Sys2Proof.Machine
end

