-- ==== Sys2Proof/Machine/Shares.lean ====
section
/-! DEFINITION. Shares.lean: the commands of policing, shares, arbitration, isolation and histograms (14). -/

namespace Sys2Proof.Machine

/-- POLICE_SET (R386): a tenant meter or the requester profile of the session's own tenant. It is in force at the next
refill (R384). -/
def bodyPoliceSet : CcpBody := fun c s =>
  let b := c.block
  let t := bits b 15 0
  let profile := bit b 16
  let cir := bits b 83 60
  let pir := bits b 127 104
  let pbs := bits b 103 84
  checked s
    [ (c.isOp == profile, rPolicy),
      (profile && t != c.tenant, rForeign),
      ((s.tenantOf t).isNone, rf .dependency 1),
      (bit b 17 && (bits b 59 40 < 258 || (!profile && (pbs < 258 || pir < cir)) || (profile && (pir != 0 || pbs != 0))), rRange) ]
    (let set (m : Meter) : Meter := { m with next := some b }
     let s := if profile then
         let mine := s.ten.links.keysWhere fun l => l.tenant == t
         { s with
           sch.profs := s.sch.profs.put t (set (s.sch.profs.findD t {}))
           sch.buckets := mine.foldl (fun bs id => bs.put id (set (bs.findD id {}))) s.sch.buckets }
       else { s with sch.meters := s.sch.meters.put t (set (s.sch.meters.findD t {})) }
     okEmpty (s.sendMeta (.police b)))

/-- POLICE_REFILL: every bucket and meter takes its tokens (R383, R384). -/
def State.policeRefill (s : State) : State :=
  { s with
    sch.meters := s.sch.meters.each fun _ m => m.refill
    sch.profs := s.sch.profs.each fun _ m => m.refill
    sch.buckets := s.sch.buckets.each fun _ m => m.refill }

/-- A new link session's bucket is full (R386). -/
def State.newBucket (s : State) (id t : Nat) : State :=
  let p := s.sch.profs.findD t {}
  { s with sch.buckets := s.sch.buckets.put id { Meter.full p.block with next := p.next } }

/-- The points of a resource (Table 14-2). -/
def pointsOf (res : Nat) : List Nat :=
  if res == 0 then (List.range 144) ++ (List.range 16).map (256 + ·) else (List.range 64).map (512 + ·)

/-- SCHED_SET (R387, R389). -/
def bodySchedSet : CcpBody := fun c s =>
  let b := c.block
  let sub := bits b 63 48
  let node := bits b 43 41
  let res := bits b 40 40
  let lo := bits b 39 29
  let hi := bits b 28 18
  let w := bits b 17 10
  let k := nodeKey sub res node
  let others := s.sch.nodes.filter fun x => x.1 != k && x.1 / 8 % 2 == res
  let sum := sumOf ((others.filter fun x => if node == 7 then x.1 % 8 == 7 else x.1 % 8 != 7 && x.1 / 16 == sub).map (·.2.minShare))
  checked s
    [ (hi < lo || 1024 < lo || hi == 0 || 1024 < hi || node == 6 || (sub == 65535 && (res == 0 || node != 7)) ||
        (sub == 0 && node != 7 && node != 5), rRange),
      (sub != 0 && sub != 65535 && (s.tenantOf sub).isNone, rf .dependency 1),
      (1024 < sum + lo, ⟨.busyRetry, 0x0204⟩) ]
    (let old := s.sch.nodes.findD k {}
     let keep (o : Tbl (Tbl Node)) (p : Nat) : Tbl (Tbl Node) :=
       let t := o.findD p []
       if (s.sch.used.findD p []).isEmpty || t.has k then o else o.put p (t.put k old)
     let s := { s with sch.olds := (pointsOf res).foldl keep s.sch.olds }
     let s := { s with sch.nodes := s.sch.nodes.put k ⟨lo, hi, if w == 0 then 1 else w⟩ }
     okEmpty (s.sendMeta (.sched b)))

/-- ARB_SET (R393). -/
def bodyArbSet : CcpBody := fun c s =>
  let b := c.block
  let hold := bits b 63 48
  let burst := bits b 47 32
  checked s [ (4 < bits b 2 0, rRange) ]
    (let lim := (if hold == 0 then 1024 else hold, if burst == 0 then 64 else burst)
     let s := { s with sch.arb := listSet s.sch.arb (bits b 2 0) lim }
     okEmpty (s.sendMeta (.arb b)))

/-- ISOLATE_SET (R395, R396). -/
def bodyIsolateSet : CcpBody := fun c s =>
  let b := c.block
  let t := bits b 63 48
  let others := (s.sch.iso.filter fun x => x.1 != t).map (·.2)
  let sum (f : Nat → Nat) : Nat := sumOf ((b :: others).map f)
  let port (x : Nat) : Nat := bits x 47 38
  let stk (x : Nat) : Nat := bits x 37 28
  let st (x : Nat) : Nat := bits x 27 25
  checked s
    [ ((s.tenantOf t).isNone, rf .dependency 1),
      (bit b 0 && (port b == 0 || stk b == 0 || st b == 0), rRange),
      (bit b 0 && (7 < sum st || 896 < sum port || 896 < sum stk), ⟨.busyRetry, 0x0204⟩) ]
    (let s := { s with sch.iso := if bit b 0 then s.sch.iso.put t b else s.sch.iso.del t }
     okEmpty (s.assignStations.sendMeta (.isolate b)))

/-! Histograms. -/

/-- The subscribers of a device: itself, transit, the tenants. -/
def State.subscribers (s : State) : List Nat := 0 :: 65535 :: s.ten.tenants.map (·.1)

/-- How many entries of a subscriber wait in a queue: a station's parking queue by logical number, a hub queue, a port's egress
queues. -/
def State.queueDepth (s : State) (kind index sub : Nat) : Nat :=
  if kind == 0 then match s.stationAt index with
    | some n => ((s.station n).parked.filter fun p => (s.str.streams.find p.stream).any fun v => v.tenant == sub).length
    | none => 0
  else if kind == 2 then sumOf ((s.port index).queues.map fun l => (l.filter fun x => x.sub == sub).length)
  else ((s.sch.hubs.findD index []).filter fun e => e.use.sub == sub).length

/-- The queues of a kind. -/
def State.queuesOf (s : State) (kind : Nat) : List Nat :=
  if kind == 0 then s.serving.map s.logical else List.range (if kind == 1 then 16 else 64)

/-- HIST_DEPTH_SAMPLE (R400). -/
def State.depthSample (s : State) : State :=
  let one (h : Tbl Hist) (kind index sub : Nat) : Tbl Hist :=
    let k := histKey kind index sub
    let x := h.findD k {}
    h.put k { x with tick := s.dev.tick, depth := listMod x.depth (depthBin (s.queueDepth kind index sub)) (sat32 · 1) }
  { s with sch.hists := [0, 1, 2].foldl (fun h kind => (s.queuesOf kind).foldl (fun h i =>
      s.subscribers.foldl (fun h t => one h kind i t) h) h) s.sch.hists }

def addLists (a b : List Nat) : List Nat := (a.zip b).map fun x => sat32 x.1 x.2

/-- HIST_QUERY (R401). -/
def bodyHistQuery : CcpBody := fun c s =>
  let b := c.block
  let sub := bits b 63 48
  let kind := bits b 41 40
  let i := bits b 7 0
  let top := if kind == 0 then 128 else if kind == 1 then 16 else 64
  let allowed := if c.isOp then sub == 0 || sub == 65535 || i == 255 else sub == c.tenant
  let mine (k : Nat) : Bool := k / 2 ^ 32 == kind && k % 65536 == sub && (i == 255 || k / 65536 % 65536 == i)
  checked s [ (!allowed, rForeign), (kind == 3 || (i != 255 && top ≤ i), rRange) ]
    (let l := (s.sch.hists.filter fun x => mine x.1).map (·.2)
     let zero := List.replicate 16 0
     let depth := l.foldl (fun a h => addLists a h.depth) zero
     let delay := l.foldl (fun a h => addLists a h.delay) zero
     let clr (h : Hist) : Hist := { left := h.left, tick := h.tick }
     let s := if bit b 8 then { s with sch.hists := s.sch.hists.each fun k h => if mine k then clr h else h } else s
     okBytes s ((depth ++ delay).flatMap fun x => leBytes x 4))

end Sys2Proof.Machine
end

