-- ==== Sys2Proof/Machine/Arith.lean ====
section
/-! DEFINITION. Arith.lean: number formats and their conversions (03 R61 to R73), binary32 operations, the ledger's
conversions (R81 to R85), and the exact dot products of R87 and R89. A number is held exactly, as sign, integer and power
of two. -/

namespace Sys2Proof.Machine

/-- An exact value: a NaN, an infinity, or ±m × 2^e (a zero keeps its sign). -/
inductive Val where
  | nan
  | inf (neg : Bool)
  | fin (neg : Bool) (m : Nat) (e : Int)
  deriving DecidableEq, Repr

def Val.zero : Val := .fin false 0 0
def Val.ofNat (n : Nat) : Val := .fin false n 0

def Val.isNeg : Val → Bool
  | .nan => false
  | .inf n => n
  | .fin n _ _ => n

def Val.isZero : Val → Bool
  | .fin _ m _ => m == 0
  | _ => false

/-- A value times a power of two, exactly. -/
def Val.scale (k : Int) : Val → Val
  | .fin n m e => .fin n m (e + k)
  | v => v

def Val.neg : Val → Val
  | .nan => .nan
  | .inf n => .inf (!n)
  | .fin n m e => .fin (!n) m e

/-- The integer that a finite value is at a lower exponent. -/
def mant (neg : Bool) (m : Nat) (e lo : Int) : Int :=
  let v : Int := ((m * 2 ^ (e - lo).toNat : Nat) : Int)
  if neg then -v else v

/-- Exact sum. A cancellation is +0; two zeros of one sign keep it (IEEE 754, round to nearest). -/
def Val.add : Val → Val → Val
  | .nan, _ => .nan
  | _, .nan => .nan
  | .inf a, .inf b => if a == b then .inf a else .nan
  | .inf a, _ => .inf a
  | _, .inf b => .inf b
  | .fin na ma ea, .fin nb mb eb =>
    let lo := min ea eb
    let s := mant na ma ea lo + mant nb mb eb lo
    if s == 0 then .fin (na && nb && ma == 0 && mb == 0) 0 lo else .fin (decide (s < 0)) s.natAbs lo

/-- Exact product. -/
def Val.mul : Val → Val → Val
  | .nan, _ => .nan
  | _, .nan => .nan
  | .inf a, .inf b => .inf (a != b)
  | .inf a, .fin nb mb _ => if mb == 0 then .nan else .inf (a != nb)
  | .fin na ma _, .inf b => if ma == 0 then .nan else .inf (na != b)
  | .fin na ma ea, .fin nb mb eb => .fin (na != nb) (ma * mb) (ea + eb)

/-- Exact sum of a list; an exact zero is +0 (log 25). -/
def sumVals (l : List Val) : Val :=
  match l.foldl Val.add Val.zero with
  | .fin _ 0 e => .fin false 0 e
  | v => v

/-- Compare two finite or infinite values. -/
def Val.lt : Val → Val → Bool
  | .nan, _ => false
  | _, .nan => false
  | .inf a, .inf b => a && !b
  | .inf a, _ => a
  | _, .inf b => !b
  | .fin na ma ea, .fin nb mb eb =>
    let lo := min ea eb
    mant na ma ea lo < mant nb mb eb lo

/-- ⌊log2⌋ of a non-zero magnitude. -/
def log2Of (m : Nat) (e : Int) : Int := (Nat.log2 m : Int) + e

/-! Formats. -/

/-- A format: its slot and its descriptor (Table 3-1). -/
structure Fmt where
  slot : Nat
  desc : Nat
  deriving DecidableEq, Repr

def Fmt.kind (f : Fmt) : Nat := bits f.desc 2 0
def Fmt.width (f : Fmt) : Nat := bits f.desc 10 6 + 1
def Fmt.saturate (f : Fmt) : Bool := bit f.desc 12
def Fmt.special (f : Fmt) : Nat := bits f.desc 14 13
def Fmt.sig (f : Fmt) : Nat := bits f.desc 19 15
def Fmt.expBits (f : Fmt) : Nat := bits f.desc 23 20
def Fmt.bias (f : Fmt) : Nat := bits f.desc 31 24
def Fmt.intExp (f : Fmt) : Int := signed (bits f.desc 39 32) 8
def Fmt.blockLen (f : Fmt) : Nat := bits f.desc 46 40
def Fmt.scaleBits (f : Fmt) : Nat := bits f.desc 50 47
def Fmt.scaleBias (f : Fmt) : Nat := bits f.desc 58 51
def Fmt.scaleNan (f : Fmt) : Bool := bit f.desc 59
def Fmt.isFloat (f : Fmt) : Bool := f.kind == 1 || f.kind == 4
def Fmt.isBlock (f : Fmt) : Bool := f.kind == 4 || f.kind == 5

/-- A descriptor from the columns of Table 3-3; the block and scale are those of E8M0 with 32 elements. -/
def descOf (kind width expBits bias sig special sat intExp : Nat) (block : Bool) : Nat :=
  kind + (width - 1) * 2 ^ 6 + sat * 2 ^ 12 + special * 2 ^ 13 + sig * 2 ^ 15 + expBits * 2 ^ 20 + bias * 2 ^ 24 +
    intExp * 2 ^ 32 + (if block then 32 * 2 ^ 40 + 8 * 2 ^ 47 + 127 * 2 ^ 51 + 2 ^ 59 else 0)

/-- The preloaded slots 0 to 13 (03 R65, Table 3-3). -/
def preloaded : List Nat :=
  [ descOf 1 32 8 127 23 1 0 0 false, descOf 1 16 5 15 10 1 0 0 false, descOf 1 16 8 127 7 1 0 0 false,
    descOf 1 8 4 7 3 2 1 0 false, descOf 1 8 5 15 2 1 1 0 false, descOf 4 8 4 7 3 2 1 0 true,
    descOf 4 8 5 15 2 1 1 0 true, descOf 4 6 2 1 3 0 1 0 true, descOf 4 6 3 3 2 0 1 0 true,
    descOf 4 4 2 1 1 0 1 0 true, descOf 5 8 0 0 0 0 1 250 true, descOf 2 8 0 0 0 0 1 0 false,
    descOf 2 4 0 0 0 0 1 0 false, descOf 3 8 0 0 0 0 1 0 false ]

/-- The format in a slot; an empty slot has kind 0. -/
def State.fmt (s : State) (slot : Nat) : Fmt :=
  ⟨slot, if slot < 14 then preloaded.getD slot 0 else s.str.formats.findD slot 0⟩

def f32 : Fmt := ⟨0, preloaded.getD 0 0⟩
def bf16 : Fmt := ⟨2, preloaded.getD 2 0⟩
def mxfp8 : Fmt := ⟨5, preloaded.getD 5 0⟩

/-- Largest normal exponent (R67). -/
def Fmt.emax (f : Fmt) : Int :=
  if f.isFloat then (2 ^ f.expBits - 1 : Nat) - (f.bias : Int) - (if f.special == 1 then 1 else 0)
  else (Nat.log2 (if f.kind == 3 then 2 ^ f.width - 1 else 2 ^ (f.width - 1) - 1) : Int) + f.intExp

/-- Code of the largest finite float magnitude. -/
def Fmt.maxCode (f : Fmt) : Nat :=
  let all := 2 ^ (f.expBits + f.sig)
  if f.special == 1 then all - 2 ^ f.sig - 1 else if f.special == 2 then all - 2 else all - 1

/-- The largest finite integer of an integer format (R69). -/
def Fmt.maxInt (f : Fmt) : Nat := if f.kind == 3 then 2 ^ f.width - 1 else 2 ^ (f.width - 1) - 1

/-- The value of an element code, its block's scale apart (R67). -/
def Fmt.value (f : Fmt) (c : Nat) : Val :=
  if f.isFloat then
    let neg := bit c (f.width - 1)
    let e := bits c (f.expBits + f.sig - 1) f.sig
    let fr := c % 2 ^ f.sig
    let top := e == 2 ^ f.expBits - 1
    if f.special == 1 && top then (if fr == 0 then .inf neg else .nan)
    else if f.special == 2 && top && fr == 2 ^ f.sig - 1 then .nan
    else if e == 0 then .fin neg fr (1 - (f.bias : Int) - f.sig)
    else .fin neg (fr + 2 ^ f.sig) (e - (f.bias : Int) - f.sig)
  else if f.kind == 3 then .fin false (c % 2 ^ f.width) f.intExp
  else
    let v := signed c f.width
    .fin (decide (v < 0)) v.natAbs f.intExp

/-- How a conversion rounds (R72): to nearest even, or stochastically with the 32 bits `r`. -/
inductive Round where
  | even
  | dsr (r : Nat)
  deriving DecidableEq, Repr

/-- The multiple of 2^q that a magnitude rounds to, as an integer; `odd` tells whether a lower candidate's code is odd
(R72). -/
def roundMag (m : Nat) (e q : Int) (mode : Round) (odd : Nat → Bool) : Nat :=
  if q ≤ e then m * 2 ^ (e - q).toNat
  else
    let d := 2 ^ (q - e).toNat
    let n := m / d
    let r := m % d
    if r == 0 then n
    else match mode with
      | .even => if 2 * r < d then n else if d < 2 * r then n + 1 else if odd n then n + 1 else n
      | .dsr x => if 2 ^ 32 ≤ r * 2 ^ 32 / d + x then n + 1 else n

/-- Whether a float format has a code for NaN (Table 3-5): with `special` 1 and no fraction bits the all-ones exponent is
infinity alone. -/
def Fmt.hasNan (f : Fmt) : Bool := f.special != 0 && !(f.special == 1 && f.sig == 0)

/-- Canonical NaN code (R69). -/
def Fmt.nanCode (f : Fmt) : Nat :=
  let e := (2 ^ f.expBits - 1) * 2 ^ f.sig
  if f.special == 1 && f.slot < 14 then e + 2 ^ (f.sig - 1) else e + 2 ^ f.sig - 1

def Fmt.signBit (f : Fmt) (neg : Bool) : Nat := if neg then 2 ^ (f.width - 1) else 0

/-- The code of an integer of an integer format. -/
def Fmt.intCode (f : Fmt) (neg : Bool) (n : Nat) : Nat := unsigned (if neg then -(n : Int) else n) f.width

/-- One value converted: its code and whether the element is marked unrepresentable (R69, Table 3-5). -/
def Fmt.encode (f : Fmt) (v : Val) (mode : Round) : Nat × Bool :=
  if f.isFloat then
    match v with
    | .nan => if f.hasNan then (f.nanCode, false) else (0, true)
    | .inf n =>
      if f.special == 1 then (f.signBit n + (2 ^ f.expBits - 1) * 2 ^ f.sig, false) else (f.signBit n + f.maxCode, true)
    | .fin n m e =>
      if m == 0 then (f.signBit n, false)
      else
        let lo : Int := 1 - (f.bias : Int) - f.sig
        let q := max (log2Of m e - f.sig) lo
        let up := (q - lo).toNat * 2 ^ f.sig
        let c := up + roundMag m e q mode fun k => (up + k) % 2 == 1
        if c ≤ f.maxCode then (f.signBit n + c, false)
        else if f.saturate then (f.signBit n + f.maxCode, true)
        else (f.signBit n + (2 ^ f.expBits - 1) * 2 ^ f.sig, false)
  else
    match v with
    | .nan => (0, true)
    | .inf n => if f.kind == 3 && n then (0, true) else (f.intCode n f.maxInt, true)
    | .fin n m e =>
      let k := roundMag m e f.intExp mode fun k => k % 2 == 1
      if f.kind == 3 && n then (0, k != 0)
      else if k ≤ f.maxInt then (f.intCode n k, false)
      else (f.intCode n f.maxInt, true)

/-! Packing (R63). -/

/-- Bytes of the scale area of `n` elements. -/
def Fmt.scaleArea (f : Fmt) (n : Nat) : Nat := if f.isBlock then 32 * ceilDiv (ceilDiv n f.blockLen) 32 else 0

/-- Packed size of `n` elements. -/
def Fmt.packed (f : Fmt) (n : Nat) : Nat := ceilDiv (n * f.width) 8 + f.scaleArea n

/-- Codes as one bit stream. -/
def packCodes (w : Nat) : List Nat → Nat
  | [] => 0
  | c :: r => c % 2 ^ w + 2 ^ w * packCodes w r

/-- `n` codes of a bit stream. -/
def takeCodes (w x : Nat) : Nat → List Nat
  | 0 => []
  | n + 1 => x % 2 ^ w :: takeCodes w (x / 2 ^ w) n

/-- The codes of the elements of packed data. -/
def Fmt.codes (f : Fmt) (b : List Byte) (n : Nat) : List Nat :=
  takeCodes f.width (leNat (slice b (f.scaleArea n) (ceilDiv (n * f.width) 8))) n

/-- The values of packed data (R67). -/
def Fmt.values (f : Fmt) (b : List Byte) (n : Nat) : List Val :=
  (f.codes b n).zipIdx.map fun c =>
    if f.isBlock then
      let x := (b.getD (c.2 / f.blockLen) 0).toNat % 2 ^ f.scaleBits
      if f.scaleNan && x == 2 ^ f.scaleBits - 1 then .nan else (f.value c.1).scale ((x : Int) - f.scaleBias)
    else f.value c.1

/-- A list cut into groups of `n`. -/
def groupsOf {α : Type} (n : Nat) : Nat → List α → List (List α)
  | 0, _ => []
  | _ + 1, [] => []
  | fuel + 1, a :: l => (a :: l).take n :: groupsOf n fuel ((a :: l).drop n)

/-- A magnitude at least as large as another, of two finite values. -/
def maxMag (a b : Nat × Int) : Nat × Int :=
  if Val.lt (.fin false a.1 a.2) (.fin false b.1 b.2) then b else a

/-- One block converted: its scale field, its codes, its marks (R71). `at` is the index of its first element. Where no
finite value of the block is other than zero, every finite element is a zero of its source's sign (Table 3-5, log 162). An element
above the largest finite magnitude ends as `saturate` says (log 200). -/
def Fmt.encodeBlock (f : Fmt) (l : List Val) (at' : Nat) (mode : Nat → Round) : Nat × List (Nat × Bool) :=
  let special := l.any fun v => match v with
    | .fin _ _ _ => false
    | _ => true
  let top := 2 ^ f.scaleBits - (if f.scaleNan then 2 else 1)
  if special && f.scaleNan then
    (2 ^ f.scaleBits - 1, l.map fun v => (0, match v with
      | .inf _ => true
      | _ => false))
  else
    let a := l.foldl (fun (b : Nat × Int) v => match v with
      | .fin _ m e => if m == 0 then b else if b.1 == 0 then (m, e) else maxMag b (m, e)
      | _ => b) (0, 0)
    let x : Int := if a.1 == 0 then 0 else log2Of a.1 a.2 - f.emax + f.scaleBias
    let xc := min x.toNat top
    let high := decide ((top : Int) < x)
    (xc, l.zipIdx.map fun v => match v.1 with
      | .fin _ _ _ =>
        let r := f.encode (v.1.scale ((f.scaleBias : Int) - xc)) (mode (at' + v.2))
        (r.1, r.2 && high)
      | w => f.encode w (mode (at' + v.2)))

/-- Values converted and packed, and the indexes of the elements marked unrepresentable (R68 to R71). -/
def Fmt.pack (f : Fmt) (l : List Val) (mode : Nat → Round) : List Byte × List Nat :=
  let blocks := if f.isBlock then (groupsOf f.blockLen l.length l).zipIdx.map fun g =>
      f.encodeBlock g.1 (g.2 * f.blockLen) mode
    else []
  let el := if f.isBlock then blocks.flatMap (·.2) else l.zipIdx.map fun v => f.encode v.1 (mode v.2)
  let scales := blocks.map fun b => BitVec.ofNat 8 b.1
  (padTo scales (f.scaleArea l.length) ++ leBytes (packCodes f.width (el.map (·.1))) (ceilDiv (l.length * f.width) 8),
    (el.zipIdx.filter fun e => e.1.2).map (·.2))

/-- Every conversion that is not stochastic. -/
def toEven : Nat → Round := fun _ => .even

/-! Deterministic stochastic rounding (R72, R73). -/

def mix64 (z : Nat) : Nat :=
  let z := Nat.xor z (z / 2 ^ 30) * 0xBF58476D1CE4E5B9 % 2 ^ 64
  let z := Nat.xor z (z / 2 ^ 27) * 0x94D049BB133111EB % 2 ^ 64
  Nat.xor z (z / 2 ^ 31)

def dsrBits (seed tile elem opnd : Nat) : Nat :=
  let h := mix64 (seed * 2 ^ 32 + tile)
  mix64 ((h + Nat.lor (opnd * 2 ^ 16) elem) % 2 ^ 64) / 2 ^ 32

/-- The rounding of a step or window: `rounding` 1 is stochastic (R73). -/
def roundOf (rounding : Bool) (seed tile opnd : Nat) : Nat → Round :=
  fun elem => if rounding then .dsr (dsrBits seed tile elem opnd) else .even

/-! binary32 (every operation rounds to nearest even). -/

/-- The value of a binary32 pattern. -/
def fval (x : Nat) : Val := f32.value x
/-- The binary32 pattern nearest a value. -/
def fround (v : Val) : Nat := (f32.encode v .even).1
def fnan : Nat := 0x7FC00000
def fone : Nat := 0x3F800000
def fneginf : Nat := 0xFF800000

def fadd (a b : Nat) : Nat := fround ((fval a).add (fval b))
def fneg (a : Nat) : Nat := Nat.xor a 0x80000000
def fabs (a : Nat) : Nat := a % 2 ^ 31
/-- Subtraction adds the negated operand. -/
def fsub (a b : Nat) : Nat := fround ((fval a).add (fval b).neg)
def fmul (a b : Nat) : Nat := fround ((fval a).mul (fval b))
def ffma (a b c : Nat) : Nat := fround (((fval a).mul (fval b)).add (fval c))

/-- Quotient with a sticky last bit, enough to round once. -/
def fdiv (a b : Nat) : Nat :=
  fround (match fval a, fval b with
    | .nan, _ => .nan
    | _, .nan => .nan
    | .inf _, .inf _ => .nan
    | .inf n, .fin k _ _ => .inf (n != k)
    | .fin n _ _, .inf k => .fin (n != k) 0 0
    | .fin n m e, .fin k d g =>
      if d == 0 then (if m == 0 then .nan else .inf (n != k))
      else
        let w := m * 2 ^ 64
        .fin (n != k) (2 * (w / d) + b2n (w % d != 0)) (e - g - 65))

/-- Integer square root by bits, from bit `n` down. -/
def isqrt (x : Nat) : Nat → Nat → Nat
  | 0, r => r
  | n + 1, r => let t := r + 2 ^ n; isqrt x n (if t * t ≤ x then t else r)

/-- Square root with a sticky last bit; −0 gives −0, other negative values give NaN (Table 3-7). -/
def fsqrt (a : Nat) : Nat :=
  fround (match fval a with
    | .nan => .nan
    | .inf n => if n then .nan else .inf false
    | .fin n m e =>
      if m == 0 then .fin n 0 0
      else if n then .nan
      else
        let m' := (if e % 2 == 0 then m else 2 * m) * 2 ^ 64
        let e' := (if e % 2 == 0 then e else e - 1) - 64
        let r := isqrt m' 60 0
        .fin false (2 * r + b2n (r * r != m')) (e' / 2 - 1))

def isNan (a : Nat) : Bool := fval a == .nan

/-- IEEE 754-2019 minimum and maximum: a NaN propagates, −0 is below +0. -/
def fmin (a b : Nat) : Nat :=
  if isNan a || isNan b then fnan
  else if (fval a).lt (fval b) then a else if (fval b).lt (fval a) then b else if (fval a).isNeg then a else b
def fmax (a b : Nat) : Nat :=
  if isNan a || isNan b then fnan
  else if (fval a).lt (fval b) then b else if (fval b).lt (fval a) then a else if (fval a).isNeg then b else a

/-- ⌊v⌋ of a finite value. -/
def floorOf (n : Bool) (m : Nat) (e : Int) : Int :=
  if 0 ≤ e then mant n m e 0
  else
    let d : Int := ((2 ^ (-e).toNat : Nat) : Int)
    (if n then -(m : Int) else m) / d

/-! The ledger (R81 to R85). -/

/-- A contribution element in exact mode, and whether it was clamped (R81). -/
def ledgerQ (v : Val) (frame : Int) : Int × Bool :=
  let lim : Int := 2 ^ 50 - 1
  match v with
  | .nan => (0, false)
  | .inf n => (if n then -lim else lim, true)
  | .fin n m e =>
    let k : Int := roundMag m e frame .even fun k => k % 2 == 1
    if lim < k then (if n then -lim else lim, true) else (if n then -k else k, false)

/-- The exact value of an integer of a frame. -/
def ofFrame (q frame : Int) : Val := .fin (decide (q < 0)) q.natAbs frame

/-! Dot products (R86, R87, R89). -/

/-- One chunk: products added exactly, rounded once. -/
def chunkDot (a b : List Val) : Nat := fround (sumVals ((a.zip b).map fun x => x.1.mul x.2))

/-- Chunk sums added in ascending order, starting from chunk 0 (R87). -/
def dot (a b : List Val) : Nat :=
  match (groupsOf 32 a.length a).zip (groupsOf 32 b.length b) with
  | [] => 0
  | c :: r => r.foldl (fun t x => fadd t (chunkDot x.1 x.2)) (chunkDot c.1 c.2)

/-- Values converted to a format in chunks of 32 and read back (R86, R89). -/
def through (f : Fmt) (l : List Val) : List Val :=
  (groupsOf 32 l.length l).flatMap fun g => f.values (f.pack g toEven).1 g.length

end Sys2Proof.Machine
end

