-- ==== Sys2Proof/Machine/Recipe.lean ====
section
/-! DEFINITION. Recipe.lean: the fields of stream heads, recipe steps and tile headers (02 Tables 2-1 to 2-8), the sizes
they fix (R30, R34), and which bytes an element lies in. -/

namespace Sys2Proof.Machine

/-! Stream heads (Table 2-4). -/

def hdSteps (h : Nat) : Nat := bits h 5 4 + 1
def hdSrc (h : Nat) : Nat := bits h 7 6
def hdSink (h : Nat) : Nat := bits h 9 8
def hdService (h : Nat) : Nat := bits h 14 12
def hdPriority (h : Nat) : Nat := bits h 18 16
def hdAsid (h : Nat) : Nat := bits h 35 24
def hdElems (h : Nat) : Nat := bits h 63 48
def hdCount (h : Nat) : Nat := bits h 95 64
def hdSrcAddr (h : Nat) : Nat := bits h 175 128
def hdSinkAddr (h : Nat) : Nat := bits h 239 192
def hdSinkObj (h : Nat) : Nat := bits h 251 240
def hdCookie (h : Nat) : Nat := bits h 319 256

/-- The idle timeout in slow ticks. -/
def hdIdle (h : Nat) : Nat := let u := bits h 111 96; 65536 * (if u == 0 then 64 else u)

/-! Recipe steps (Tables 2-5 and 2-6). -/

def rsKind (w : Nat) : Nat := bits w 2 0
def rsRole (w : Nat) : Nat := bits w 7 4
def rsIn (w : Nat) : Nat := bits w 12 8
def rsOut (w : Nat) : Nat := bits w 17 13
def rsRounding (w : Nat) : Bool := bit w 18
def rsOp (w : Nat) : Nat := bits w 23 20
def rsProg (w : Nat) : Nat := bits w 31 24
def rsSeed (w : Nat) : Nat := bits w 63 32
def rsWindow (w : Nat) : Nat := bits w 75 64
def rsRef (w : Nat) : Nat := bits w 111 64
def rsOpnds (w : Nat) : Nat := bits w 114 112
def rsRow (w : Nat) : Nat := bits w 127 112
def rsLimit (w : Nat) : Nat := bits w 159 128
def rsBag (w : Nat) : Nat := bits w 167 160

/-- Step kinds (Table 2-7). -/
def kMove : Nat := 0
def kGather : Nat := 1
def kScatter : Nat := 2
def kLedger : Nat := 3
def kScore : Nat := 4
def kBlend : Nat := 5
def kVector : Nat := 6
def kCheck : Nat := 7

/-! Tile headers (Tables 2-1 and 2-3). -/

def thVer (h : Nat) : Nat := bits h 3 0
def thKind (h : Nat) : Nat := bits h 11 4
def thStream (h : Nat) : Nat := bits h 25 12
def thSectors (h : Nat) : Nat := bits h 31 26
def thFormat (h : Nat) : Nat := bits h 36 32
def thElems (h : Nat) : Nat := bits h 55 40
def thStatus (h : Nat) : Nat := bits h 63 56
def thIndex (h : Nat) : Nat := bits h 95 64
def thLast (h : Nat) : Bool := bit h 96
def thEpoch (h : Nat) : Nat := bits h 111 104
def thArea (h : Nat) : Nat := bits h 319 192
def thCookie (h : Nat) : Nat := bits h 383 320
def thObj (h : Nat) : Nat := bits h 203 192
def thContrib (h : Nat) : Nat := bits h 215 204
def thLedger (h : Nat) : Nat := bits h 235 216
def thPosition (h : Nat) : Nat := bits h 235 204
def thHead (h : Nat) : Nat := bits h 243 236
def thRows (h : Nat) : Nat := bits h 251 244 + 1
def thQHeads (h : Nat) : Nat := bits h 247 244 + 1

/-- Tile kinds (Table 2-2). -/
def tkData : Nat := 1
def tkIndex : Nat := 2
def tkContrib : Nat := 3
def tkAppend : Nat := 4
def tkQuery : Nat := 5

/-- The reserved bits of a header that must be zero: those of Table 2-1, and of Table 2-3 by kind. -/
def thReserved (h : Nat) : Bool :=
  let k := thKind h
  bits h 511 384 != 0 || bits h 191 112 != 0 || bits h 103 97 != 0 || bits h 39 37 != 0 || thStatus h != 0 ||
    bits h 319 252 != 0 ||
    (if k == tkContrib then bits h 251 236 != 0
     else if k == tkAppend then false
     else if k == tkQuery then bits h 251 248 != 0
     else bits h 251 192 != 0)

/-! Sizes. -/

/-- Bytes rounded up to whole sectors. -/
def toSectors (n : Nat) : Nat := ceilDiv n 256 * 256

/-- Elements of a row (R34, R76). -/
def rowElems (f : Fmt) (rowBytes : Nat) : Nat := rowBytes * 8 / f.width

/-- Rows that a GATHER step makes of `n` indices (R34, R76). -/
def gatherRows (w n : Nat) : Nat := if rsOp w == 0 then n else ceilDiv n (rsBag w)

/-- Elements that leave the route for `n` elements or indices of input. -/
def State.outElems (s : State) (steps : List Nat) (n : Nat) : Nat :=
  match steps.head? with
  | some w => if rsKind w == kGather then gatherRows w n * rowElems (s.fmt (rsIn w)) (rsRow w) else n
  | none => n

/-- Packed size of `n` elements in a slot's format; an empty slot has none. -/
def State.packed (s : State) (slot n : Nat) : Nat :=
  let f := s.fmt slot
  if f.kind == 0 then 0 else f.packed n

/-- Sectors of the expected payload of `n` elements or indices by the first step (R30, R34). -/
def State.inSectors (s : State) (steps : List Nat) (n : Nat) : Nat :=
  match steps.head? with
  | none => 0
  | some w =>
    if rsKind w == kGather then ceilDiv (4 * n) 256
    else if rsKind w == kScatter then ceilDiv (4 * n) 256 + ceilDiv (n * rsRow w) 256
    else ceilDiv (s.packed (rsIn w) n) 256

/-- *in_bytes* (R34). -/
def State.inBytes (s : State) (head : Nat) (steps : List Nat) : Nat := 256 * s.inSectors steps (hdElems head)

/-- The format of the route's output. -/
def routeOut (steps : List Nat) : Nat := ((steps.getLast?).map rsOut).getD 0

/-- Bytes of the route's output for `n` elements or indices of input (R34): behind a GATHER, whose rows the other steps take, the
elements are those of the rows (log 188). -/
def State.outLen (s : State) (steps : List Nat) (n : Nat) : Nat :=
  match steps.getLast? with
  | some w => if rsKind w == kGather then gatherRows w n * rsRow w else s.packed (routeOut steps) (s.outElems steps n)
  | none => 0

/-- *out_bytes* (R34). -/
def State.outBytes (s : State) (head : Nat) (steps : List Nat) : Nat := toSectors (s.outLen steps (hdElems head))

/-! Elements and bytes. -/

/-- The bytes of packed data that hold element `i` of `n`: its code's, and its block's scale. -/
def Fmt.bytesOf (f : Fmt) (n i : Nat) : List Nat :=
  let base := f.scaleArea n
  let lo := base + i * f.width / 8
  let hi := base + ((i + 1) * f.width - 1) / 8
  (if f.isBlock then [i / f.blockLen] else []) ++ (List.range (hi + 1 - lo)).map (lo + ·)

/-- The elements of packed data of which a byte is bad. -/
def Fmt.badElems (f : Fmt) (n : Nat) (bad : Nat → Bool) : List Nat := (List.range n).filter fun i => (f.bytesOf n i).any bad

/-- Whether a byte of packed data holds a marked element. -/
def Fmt.marked (f : Fmt) (n : Nat) (marks : List Nat) (b : Nat) : Bool := marks.any fun i => (f.bytesOf n i).contains b

/-- Little-endian 32-bit words of bytes (R124, Table 2-2). -/
def words32 (n : Nat) (b : List Byte) : List Nat := (List.range n).map fun i => leNat (slice b (4 * i) 4)

end Sys2Proof.Machine
end

