-- ==== Sys2Proof/Machine/Arb.lean ====
section
/-! DEFINITION. Arb.lean: the station arbiter: who is parked, granted, preempted or cut (14 R390 to R394), cadence classes
(05 R147), and binding (02 R45). -/

namespace Sys2Proof.Machine

/-- Station cycles in one slow tick at a performance level (15 Table 15-1: 1.75, 1.50, 1.20, 0.80, 0.40 GHz × 640 ns). -/
def cyclesPerTick (level : Nat) : Nat := [1120, 960, 768, 512, 256].getD level 256

/-! Cadence classes (05 R146 to R148). -/

def cdEnabled (b : Nat) : Bool := bit b 8
def cdShare (b : Nat) : Nat := bits b 41 32
def cdPeriod (b : Nat) : Nat := bits b 95 64
def cdTenant (b : Nat) : Nat := bits b 111 96

/-- The stations whose cycles a class takes its share of: all bound ones, or an isolated tenant's own (14 R396). -/
def State.cadenceStations (s : State) (t : Nat) : Nat :=
  if s.isolated t then (s.sch.dedicated.filter fun d => d.2 == t).length
  else (s.stn.stations.filter fun x => (slotOf x.2).isSome).length

/-- The cycles that the stations of a class have in one slow tick at present. -/
def State.cadenceRate (s : State) (b : Nat) : Nat := cyclesPerTick s.pwr.level * s.cadenceStations (cdTenant b)

/-- The cycles a class may use ahead of others in its period (R147): its share of those that its stations have had, and have
in the rest of the period as things stand. -/
def State.cadenceCap (s : State) (v : Cadence) : Nat :=
  cdShare v.block * (v.cycles + (v.due - s.dev.tick) * s.cadenceRate v.block) / 1024

/-- One tick of every class's period passes: its stations' cycles at the level and the binding in force (R147). -/
def State.cadenceTick (s : State) : State :=
  { s with seq.cadence := s.seq.cadence.each fun _ v =>
      if cdEnabled v.block && s.dev.tick ≤ v.due then { v with cycles := v.cycles + s.cadenceRate v.block } else v }

/-- The enabled class of a context's tenant that the context names. -/
def State.classOf (s : State) (ctx : Nat) : Option Nat :=
  (s.seq.contexts.find ctx).bind fun c =>
    let k := bits c.desc 103 100
    (s.seq.cadence.find k).bind fun v =>
      if k != 0 && cdEnabled v.block && cdTenant v.block == c.tenant then some k else none

/-- The class of a split of a context that still goes ahead of other work. -/
def State.cadenceOf (s : State) (ctx : Nat) : Option Nat :=
  (s.classOf ctx).bind fun k => (s.seq.cadence.find k).bind fun v =>
    if v.used < s.cadenceCap v then some k else none

/-! Work at a station. -/

/-- The next split of a query to merge: the lowest without a partial (R144). -/
def nextMerge (t : Tile) : Nat := ((t.splits.find? fun x => x.2.result.isNone).map (·.1)).getD 0

/-- Whether an item of work may begin: a split not more than 7 partials ahead of the merge (R144). -/
def State.mayRun (s : State) (w : Nat × Nat × Option Nat) : Bool :=
  match w.2.2 with
  | none => true
  | some j =>
    match (s.str.streams.find w.1).bind fun v => v.tiles.find w.2.1 with
    | some t => (t.splits.filter fun x => nextMerge t ≤ x.1 && x.1 < j).length ≤ 7
    | none => false

/-- The next item of a stream at a station: ascending index, then ascending split (R59). -/
def State.nextItem (s : State) (n stream : Nat) : Option (Nat × Nat × Option Nat) :=
  ((s.station n).work.filter fun w => w.1 == stream && s.mayRun w).foldl (fun b w => match b with
    | none => some w
    | some x => if w.2.1 < x.2.1 || (w.2.1 == x.2.1 && w.2.2.getD 0 < x.2.2.getD 0) then some w else b) none

/-- A stream's request as an entry of a station's arbiter. -/
def State.entryOf (s : State) (n stream since order : Nat) : Option Entry :=
  match s.str.streams.find stream, s.nextItem n stream with
  | some v, some w =>
    let t := v.tiles.find w.2.1
    some { id := stream, sub := v.tenant, svc := hdService v.head, pri := v.priority, since, order
           green := !((t.map (·.yellow)).getD false)
           cadence := if w.2.2.isSome then (t.map fun t => thObj t.hdr).bind s.cadenceOf else none }
  | _, _ => none

/-- The parked requests that may be picked: a cut stream waits for those that were parked with it (R392). -/
def State.entries (s : State) (n : Nat) : List Entry :=
  let x := s.station n
  (x.parked.filter fun p => !x.cut.any fun c => c.1 == p.stream && c.2.any fun q => x.parked.any (·.stream == q)).filterMap
    fun p => s.entryOf n p.stream p.since p.order

/-- Whether a station may start work: in service, awake, the device not halted (01 R16, R26, 15 R421). -/
def State.canStart (s : State) (n : Nat) : Bool :=
  s.inService n && !(s.station n).sl1 && !bit s.stn.sl2 (n / 9) && s.dev.halt.isNone

/-- The tile of a stream changed. -/
def State.modTile (s : State) (sid i : Nat) (f : Tile → Tile) : State :=
  match s.str.streams.find sid with
  | some v => s.putStream sid { v with tiles := v.tiles.adjust i f }
  | none => s

def State.modStream (s : State) (sid : Nat) (f : Stream → Stream) : State :=
  match s.str.streams.find sid with
  | some v => s.putStream sid (f v)
  | none => s

def State.tileOf (s : State) (sid i : Nat) : Option (Stream × Tile) :=
  (s.str.streams.find sid).bind fun v => (v.tiles.find i).map fun t => (v, t)

/-- A station clears its level-one buffer where its assignment has changed (R396), and under isolation mode where it passes from one
tenant's work to another's (09 R274). -/
def State.passTo (s : State) (n t : Nat) : State :=
  let x := s.station n
  let other : Bool := x.worked.any fun u => u != t && (s.isolated u || s.isolated t)
  let s := s.modStation n fun x => { x with worked := some t, reassigned := false }
  if x.reassigned || other then { s with pool.l1 := s.pool.l1.del n } else s

/-- The granted stream begins its next item. -/
def State.beginItem (s : State) (n : Nat) (w : Nat × Nat × Option Nat) : State :=
  let s := match s.str.streams.find w.1 with
    | some v => s.passTo n v.tenant
    | none => s
  let s := s.modStation n fun x => { x with run := some w, work := x.work.filter (· != w) }
  match w.2.2 with
  | none => (s.modTile w.1 w.2.1 fun t => { t with st := .running n }).later [.start n]
  | some j => (s.modTile w.1 w.2.1 fun t => { t with splits := t.splits.adjust j fun x => { x with running := true } }).later
      [.spill n, .start n]

/-- The item that a station was about to run goes from it, with no byte moved: no tile boundary. -/
def State.yieldStation (s : State) (n : Nat) : State := (s.modStation n fun x => { x with run := none }).later [.arbitrate n]

/-- The stream's items at a station go back to it, to be bound again (R58). -/
def State.returnItems (s : State) (n sid : Nat) : State :=
  let l := (s.station n).work.filter fun w => w.1 == sid
  let s := s.modStation n fun x => { x with work := x.work.filter fun w => w.1 != sid }
  let s := l.foldl (fun s w => match w.2.2 with
    | none => s.modTile sid w.2.1 fun t => { t with st := .ready }
    | some j => s.modTile sid w.2.1 fun t => { t with splits := t.splits.adjust j fun x => { x with station := none } }) s
  if l.isEmpty then s else s.later [.bind sid]

/-- A parking queue keeps some of its entries; those that left hold no cut stream back any more (R392). -/
def Station.keepParked (x : Station) (keep : Parked → Bool) : Station :=
  let l := x.parked.filter keep
  { x with parked := l
           cut := (x.cut.map fun c => (c.1, c.2.filter fun q => l.any (·.stream == q))).filter fun c => !c.2.isEmpty }

/-- A holder loses its grant. It is parked while it has work at the station that may not begin yet (R144, Table 14-5). -/
def State.dropGrant (s : State) (n : Nat) : State :=
  s.modStation n fun x => match x.granted with
    | none => x
    | some sid =>
      if x.work.any fun w => w.1 == sid then
        { x with granted := none, parked := x.parked ++ [⟨sid, s.dev.tick, x.nextOrd⟩], nextOrd := x.nextOrd + 1 }
      else { x with granted := none }

/-- Parked streams that a station no longer serves leave it (R396, 01 R20). -/
def State.dropForeign (s : State) (n : Nat) : State :=
  let gone := (s.station n).parked.filter fun p =>
    !s.inService n || !((s.str.streams.find p.stream).any fun v => s.serves v.tenant n)
  gone.foldl (fun s p => (s.modStation n fun x => x.keepParked (·.stream != p.stream)).returnItems n p.stream) s

/-- Streams whose tiles wait for a place in a parking queue are offered again once an entry frees (Table 14-5). -/
def State.offerAgain (s : State) : State :=
  s.later ((s.str.streams.keysWhere fun v => v.tiles.any fun t => t.2.st == .ready || t.2.st == .splitting).map .bind)

/-- A station without a holder grants what `pick` chooses; one with a holder goes on with it (R390). Parked requests that
ask for nothing any more leave the queue. -/
def State.arbitrate (s : State) (n : Nat) : State :=
  let s := s.dropForeign n
  if !s.canStart n || (s.station n).run.isSome then s
  else
    let s := s.modStation n fun x => x.keepParked fun p => x.work.any fun w => w.1 == p.stream
    let x := s.station n
    match x.granted.bind (s.nextItem n) with
    | some w => s.beginItem n w
    | none =>
      let s := s.dropGrant n
      match s.pickEntry n (s.entries n) with
      | none => s
      | some e =>
        match s.nextItem n e.id with
        | none => s
        | some w =>
          let lim := s.sch.arb.getD e.svc (1024, 64)
          let s := s.modStation n fun x =>
            { x with granted := some e.id, burst := 0, hold := 0, limits := lim }.keepParked (·.stream != e.id)
          let s := if 256 ≤ x.parked.length then s.offerAgain else s
          (s.leaveQueue 0 (s.logical n) e.sub e.since).beginItem n w

/-- Both limits count up at a boundary, and the rows of Table 14-5 for a holder apply in their order (R390). A change of assignment
takes effect (R396). A stream's `preempts` counts a preemption at each station that it happens at (02 R57, log 186). -/
def State.boundary (s : State) (n : Nat) : State :=
  let s := if (s.station n).reassigned then
      { s.modStation n fun x => { x with reassigned := false } with pool.l1 := s.pool.l1.del n }
    else s
  let s := s.modStation n fun x => { x with run := none, burst := x.burst + 1, hold := x.hold + 1, idleFrom := s.dev.tick }
  let x := s.station n
  match x.granted with
  | none => s.later [.arbitrate n]
  | some sid =>
    match s.entryOf n sid 0 0 with
    | none => (s.dropGrant n).later [.arbitrate n]
    | some e =>
      let tier := s.tierOf n e
      let others := s.entries n
      let parked := !(x.parked.isEmpty)
      let release (s : State) (mark : Stream → Stream) (cut : Bool) : State :=
        let s := s.modStream sid mark
        let s := s.modStation n fun x => { x with
          granted := none
          parked := x.parked ++ [⟨sid, s.dev.tick, x.nextOrd⟩]
          nextOrd := x.nextOrd + 1
          cut := if cut then x.cut.filter (·.1 != sid) ++ [(sid, x.parked.map (·.stream))] else x.cut }
        (s.returnItems n sid).later [.arbitrate n]
      if tier == 0 || others.any (fun o => tier < s.tierOf n o) || !s.serves e.sub n || !s.inService n then
        release s (fun v => { v with preempts := min (v.preempts + 1) 65535 }) false
      else if x.limits.1 ≤ x.hold && parked then release s (fun v => { v with hogCut := true }) true
      else if x.limits.2 != 65535 && x.limits.2 ≤ x.burst then
        if parked then release s id false
        else (s.modStation n fun x => { x with burst := 0 }).later [.arbitrate n]
      else s.later [.arbitrate n]

/-- A tile or split is bound to a station: its stream asks for a grant there; false where the parking queue is full
(R390, R391). A station in SL1 or SL2 begins to wake (15 R420, R421). -/
def State.bindTo (s : State) (n sid i : Nat) (split : Option Nat) : Bool × State :=
  let x := s.station n
  let known := x.granted == some sid || x.parked.any (·.stream == sid)
  if !known && 256 ≤ x.parked.length then (false, s)
  else
    let s := s.modStation n fun x => { x with
      work := x.work ++ [(sid, i, split)]
      parked := if known then x.parked else x.parked ++ [⟨sid, s.dev.tick, x.nextOrd⟩]
      nextOrd := if known then x.nextOrd else x.nextOrd + 1
      waking := x.waking || x.sl1 }
    let s := if bit s.stn.sl2 (n / 9) then { s with stn.waking := setBit s.stn.waking (n / 9) true } else s
    (true, s.later [.arbitrate n])

/-- Whether an item of work belongs to a tile whose final write has begun: it goes on whatever becomes of its stream
(02 R51). -/
def State.begunItem (s : State) (w : Nat × Nat × Option Nat) : Bool := (s.tileOf w.1 w.2.1).any fun t => t.2.began

/-- A stream leaves every parking queue, and its work is taken out (Table 14-5), but for tiles in their final write that run
again after a fence (01 R19). -/
def State.dropWork (s : State) (sid : Nat) : State :=
  let gone (w : Nat × Nat × Option Nat) : Bool := w.1 == sid && !s.begunItem w
  s.stn.stations.foldl (fun s x =>
    if x.2.granted == some sid || x.2.parked.any (·.stream == sid) || x.2.work.any (·.1 == sid) ||
        (x.2.run.map (·.1)) == some sid then
      let work := x.2.work.filter fun w => !gone w
      let keeps := work.any (·.1 == sid)
      (s.modStation x.1 fun v => { v with
        granted := if v.granted == some sid && !keeps then none else v.granted
        run := if (v.run.map gone).getD false then none else v.run
        work }.keepParked fun p => keeps || p.stream != sid).later [.arbitrate x.1]
    else s) s

/-- Atomics that wait for a station go on (15 R421). -/
def State.releaseAtomics (s : State) (n : Nat) : State :=
  let go := s.fab.atomics.filter fun x => x.1 == n
  let s := { s with fab.atomics := s.fab.atomics.filter fun x => x.1 != n }
  s.later (go.map fun x => .run (.request x.2))

/-- Cycles of an item that ended are charged (R388), and to the class of a split (05 R148). -/
def State.chargeCycles (s : State) (n sid cycles : Nat) (ctx : Option Nat) : State :=
  match s.str.streams.find sid with
  | none => s
  | some v =>
    let s := s.chargeUnits n v.tenant (hdService v.head) cycles
    match ctx.bind s.classOf with
    | some k => { s with seq.cadence := s.seq.cadence.adjust k fun c => { c with used := sat64 c.used cycles } }
    | none => s

/-! Binding (R45). -/

/-- The candidate with the fewest tiles waiting, or the station that ran the tile's previous step (R45). -/
def State.chooseStation (s : State) (l : List Nat) (prev : Option Nat) : Option Nat :=
  match prev with
  | some p => if l.contains p then some p else leastStation l fun n => (s.station n).work.length
  | none => leastStation l fun n => (s.station n).work.length

end Sys2Proof.Machine
end

