-- ==== Sys2Proof/Machine/Xlate.lean ====
section
/-! DEFINITION. Xlate.lean: from a pool virtual address to a page of the device (08 R215 to R222, 06 R174), demand-zero
regions (R224 to R227), the translation buffers (R219, R220, R232) and invalidation (R228 to R231). -/

namespace Sys2Proof.Machine

/-! Spaces and mappings. -/

def dzBase (s : Space) : Nat := bits s.desc 111 64
def dzGranules (s : Space) : Nat := bits s.desc 147 128
def dzMask (s : Space) : Nat := bits s.desc 175 160

def extCookie (e : Extent) : List Byte := leBytes (bits e.desc 255 192) 8
def extCount (e : Extent) : Nat := bits e.desc 83 64
def extVersioned (e : Extent) : Bool := bit e.desc 7
def extCheckout (e : Extent) : Bool := bit e.desc 10
def extSealed (e : Extent) : Bool := bit e.desc 9

/-- The recall timeout in slow ticks (06 Table 6-4). -/
def extRecall (e : Extent) : Nat :=
  let u := bits e.desc 39 32
  1024 * (if u == 0 then 4 else u)

/-- Where an address of a space leads (08 R217, R222, R224). -/
inductive Loc where
  | ext (extent page : Nat)
  | pop (page : Nat)
  | hole (v : Nat)        -- an unpopulated granule of the demand-zero region
  | revoked
  | absent
  deriving DecidableEq, Repr

/-- A mapping covers an address. -/
def Mapping.covers (m : Mapping) (asid va : Nat) : Bool :=
  m.asid == asid && m.vaBase ≤ va && va < m.vaBase + m.count * 2097152

/-- The page of the extent that a mapped address reaches. -/
def Mapping.pageOf (m : Mapping) (va : Nat) : Nat := (m.first * 2097152 + (va - m.vaBase)) / 65536

/-- The walk (08 Table 8-4, R222, R224). -/
def State.locate (s : State) (asid va : Nat) : Loc :=
  match s.pool.maps.find? fun m => !m.removing && m.covers asid va with
  | some m =>
    match s.pool.extents.find m.extent with
    | some e => if e.state == .revoking then .revoked else .ext m.extent (m.pageOf va)
    | none => .absent
  | none =>
    match s.pool.spaces.find asid with
    | none => .absent
    | some a =>
      if dzBase a ≤ va && va < dzBase a + 2097152 * dzGranules a then
        let v := (va - dzBase a) / 2097152
        match a.pops.find v with
        | some g => .pop (32 * g + (va - dzBase a) % 2097152 / 65536)
        | none => .hole v
      else .absent

/-- The page of the device that holds a page of an extent in a version, the current one where none is named (06 R174,
08 R220). -/
def State.framePage (s : State) (ext page : Nat) (ver : Option Nat) : Nat :=
  match s.pool.extents.find ext with
  | none => 0
  | some e =>
    let own := 32 * e.grans.getD (page / 32) 0 + page % 32
    match e.versions.find (ver.getD e.current) with
    | some v => v.frames.findD page own
    | none => own

/-- The page of the device that an address reaches, and the extent and version it was found in. -/
def State.pageAt (s : State) (asid va : Nat) (ver : Nat → Option Nat) : Option Nat :=
  match s.locate asid va with
  | .ext e p => some (s.framePage e p (ver e))
  | .pop p => some p
  | _ => none

/-- Whether a space serves requests (08 R229). -/
def State.spaceLive (s : State) (asid : Nat) : Option Space :=
  match s.pool.spaces.find asid with
  | some a => if a.dead || a.marked then none else some a
  | none => none

/-! Invalidation. -/

/-- Whether a range covers an address of a space that leads to a page of the device (08 Table 8-6). -/
def State.inRange (s : State) (r : InvalRange) (asid va page : Nat) : Bool :=
  match r with
  | .virt a lo n => a == asid && lo ≤ va / 2097152 && va / 2097152 < lo + n
  | .phys l => l.contains (page / 32)
  | .page e p => s.pool.maps.any fun m => m.extent == e && m.covers asid va && m.pageOf va == p
  | .mappings e => s.pool.maps.any fun m => m.extent == e && m.covers asid va

/-- The engines that must acknowledge: the bound stations in service, with those of a field reset that still run a step, the
sixteen port-attach engines, the level two (08 R230). -/
def State.engineMap (s : State) : Nat :=
  let st := (s.stn.stations.filter fun x => (!bit s.dev.fieldReset (x.1 / 9) || x.2.run.isSome) && match x.2.st with
    | .bound _ => true
    | _ => false).map (·.1)
  maskOf (st ++ (List.range 17).map (144 + ·))

/-- A range invalidation is issued (08 R230). -/
def State.invalidate (s : State) (range : InvalRange) (purpose : InvalFor) : State :=
  ({ s with pool.nextInval := s.pool.nextInval + 1 }).putInval s.pool.nextInval
    { range, purpose, engines := s.engineMap, issued := s.dev.tick }

/-- Whether a range invalidation is one of the 64 in progress (08 R230). -/
def State.inProgress (s : State) (id : Nat) : Bool := ((s.pool.invals.map (·.1)).take 64).contains id

/-- The key of a held translation: space, page address, and whether it is one for writing. -/
def heldKey (asid va : Nat) (write : Bool) : Nat := (asid * 2 ^ 32 + va / 65536) * 2 + b2n write

/-- Whether work that moves bytes holds a translation in a range (08 R223). -/
def State.holds (s : State) (r : InvalRange) (t : Tbl HeldPage) : Bool :=
  t.any fun x => s.inRange r (x.1 / 2 ^ 33) (x.1 / 2 % 2 ^ 32 * 65536) x.2.page

/-- Whether a tile moves bytes at a station: its step runs there, or its final write goes on from there. -/
def Tile.movesAt (t : Tile) (n : Nat) : Bool :=
  match t.st with
  | .running m => m == n
  | .writing => t.prev == some n
  | .mirror => t.prev == some n
  | _ => false

/-- Whether an engine holds a translation in a range for work that is moving bytes (08 R223, R230): a tile in its step or its
final write, a split that runs, the final write of a ledger tile. A request reads and writes its bytes in one step. -/
def State.engineBusy (s : State) (engine : Nat) (r : InvalRange) : Bool :=
  engine < 144 &&
    ((s.str.streams.any fun v => v.2.tiles.any fun t =>
      (t.2.movesAt engine && s.holds r t.2.tr) ||
        t.2.splits.any fun x => x.2.running && x.2.station == some engine && s.holds r x.2.tr) ||
    s.seq.windows.any fun w => w.2.tiles.any fun l => l.2.home == some engine && s.holds r l.2.tr)

/-- An engine's buffer entries in a range are discarded (08 R223). -/
def State.dropEntries (s : State) (engine : Nat) (r : InvalRange) : State :=
  let keep (b : BufEntry) : Bool := !s.inRange r b.asid b.va b.page
  if engine == 160 then { s with pool.l2 := s.pool.l2.filter keep }
  else { s with pool.l1 := s.pool.l1.adjust engine fun l => l.filter keep }

/-- Every entry of some spaces is discarded at every engine (08 R228, R233). -/
def State.dropSpaces (s : State) (of : Nat → Bool) : State :=
  { s with
    pool.l1 := s.pool.l1.each fun _ l => l.filter fun b => !of b.asid
    pool.l2 := s.pool.l2.filter fun b => !of b.asid
    pool.walks := s.pool.walks.filter fun w => !of w.asid }

/-! The translation buffers (R219, R220, R232): they change latency alone. -/

/-- Whether one entry covers a whole granule (08 R219): pages of 2 MiB and 1 GiB, and the demand-zero region. -/
def State.wholeEntry (s : State) (asid va : Nat) : Bool :=
  match s.pool.maps.find? fun m => !m.removing && m.covers asid va with
  | some m => m.pageSize != 0
  | none => true

/-- The address that one buffer entry covers from (08 R219). -/
def State.entryVa (s : State) (asid va : Nat) : Nat :=
  if s.wholeEntry asid va then va / 2097152 * 2097152 else va / 65536 * 65536

/-- The level-two set of an entry: the low bits of the number of the granule or page it covers (08 R219, log 164). -/
def entrySet (whole : Bool) (va : Nat) : Nat := (if whole then va / 2097152 else va / 65536) % 4096

/-- The version under which an address is looked up (08 R220): the one named for its extent, or the extent's current one;
and whether it is an open draft's. Addresses outside versioned extents have version 0. -/
def State.versionAt (s : State) (asid va : Nat) (ver : Nat → Option Nat) : Nat × Bool :=
  match s.locate asid va with
  | .ext e _ =>
    match s.pool.extents.find e with
    | some v => if extVersioned v then
        let n := (ver e).getD v.current
        (n, v.draft.any fun d => d.number == n)
      else (0, false)
    | none => (0, false)
  | _ => (0, false)

/-- Whether a station keeps translations of a tenant: under isolation mode it keeps none of a tenant whose work it has passed from
(09 R274). -/
def State.keepsFor (s : State) (engine tenant : Nat) : Bool :=
  143 < engine || match (s.station engine).worked with
    | none => true
    | some t => t == tenant || !(s.isolated t || s.isolated tenant)

/-- An engine takes a translation into its level one, which holds 64; the level two holds no copy of its own (engine 160). -/
def State.fillL1 (s : State) (engine : Nat) (b : BufEntry) : State :=
  if engine < 160 && s.keepsFor engine b.tenant then { s with pool.l1 := s.pool.l1.put engine ((b :: s.pool.l1.findD engine []).take 64) } else s

/-- An engine looks up an address; a miss of both levels starts a walk where one of the 256 is free. A draft's translation
stays in the level two alone (08 R219, R220). -/
def State.lookup (s : State) (engine asid va : Nat) (ver : Nat → Option Nat) : State :=
  let a := s.entryVa asid va
  let v := s.versionAt asid va ver
  let hit (b : BufEntry) : Bool := b.asid == asid && b.va == a && b.version == v.1
  if (s.pool.l1.findD engine []).any hit then s
  else
    match s.pool.l2.find? hit with
    | some b => if v.2 then s else s.fillL1 engine b
    | none =>
      let w : Walk := { engine, asid, va := a, version := v.1 }
      if 256 ≤ s.pool.walks.length || s.pool.walks.contains w then s
      else { s with pool.walks := s.pool.walks ++ [w] }

/-- The ways a tenant's new entries may use (08 R232). -/
def waysOf (part : Tbl Nat) (t : Nat) : Nat :=
  match part.find t with
  | some w => w
  | none => Nat.xor 0xFFFF (part.foldl (fun m x => Nat.lor m x.2) 0)

/-- Whether a version of the extent at an address is still live: only then does a walk find its translation (08 R220). -/
def State.versionLives (s : State) (asid va version : Nat) : Bool :=
  match s.locate asid va with
  | .ext e _ => match s.pool.extents.find e with
    | some v => !extVersioned v || v.versions.has version
    | none => false
  | _ => true

/-- The level two takes an entry: a free way of its tenant in its set, or one that a free value chooses (08 R219, R232). -/
def State.fillL2 (s : State) (b : BufEntry) : State :=
  let ways := bitsOf (waysOf s.pool.l2part b.tenant) 16
  let same (c : BufEntry) : Bool := entrySet c.whole c.va == entrySet b.whole b.va
  let here := s.pool.l2.filter same
  let put (s : State) (w : Nat) : State :=
    { s with pool.l2 := { b with way := w } :: s.pool.l2.filter fun c => !(same c && c.way == w) }
  match ways.find? fun w => here.all (·.way != w) with
  | some w => put s w
  | none =>
    if ways.isEmpty then s
    else let x := s.draw 16; put x.2 (ways.getD (x.1 % ways.length) 0)

/-- A walk ends: the level two takes the translation under the version it was walked for, and so does the engine's level
one, but for a draft's (08 R219, R220). -/
def State.walkDone (s : State) (engine asid va : Nat) : State :=
  match s.pool.walks.find? fun w => w.engine == engine && w.asid == asid && w.va == va with
  | none => s
  | some w =>
    let s := { s with pool.walks := s.pool.walks.filter (· != w) }
    match s.pageAt asid va (fun _ => some w.version), s.pool.spaces.find asid with
    | some page, some a =>
      if !s.versionLives asid va w.version then s
      else
        let b : BufEntry :=
          { asid, va, whole := s.wholeEntry asid va, version := w.version, tenant := a.tenant, page, way := 0 }
        let s := s.fillL2 b
        if (s.versionAt asid va (fun _ => some w.version)).2 then s else s.fillL1 engine b
    | _, _ => s

/-- The walker replaces the level-two entries of a draft's page as the page gets its own frame (08 R220). -/
def State.redraft (s : State) (ext page version frame : Nat) : State :=
  { s with pool.l2 := s.pool.l2.map fun b =>
      if b.version == version && s.pool.maps.any (fun m => m.extent == ext && m.covers b.asid b.va && m.pageOf b.va == page) then
        { b with page := frame } else b }

/-! Demand-zero populations. -/

/-- What a write to an unpopulated granule meets (08 Table 8-5, R225): none when the population goes on and the write
waits. -/
def State.populate (s : State) (asid v : Nat) (who : Access) : Option Status × State :=
  match s.pool.spaces.find asid with
  | none => (some .faultUnmapped, s)
  | some a =>
    match a.growing.find v with
    | some p =>
      (none, s.putSpace asid { a with growing := a.growing.put v { p with waiting := p.waiting ++ [(who, s.dev.tick)] } })
    | none =>
      if s.reserveOf a.tenant ≤ s.charge a.tenant then
        (some .faultUnmapped, s.recTen a.tenant 0x0205 5 asid (dzBase a + v * 2097152) 0)
      else
        match s.nextFree (dzMask a) (v % 16) with
        | none => (some .faultUnmapped, s)
        | some g =>
          let s := s.putGran g { st := .allocated, owner := a.tenant, use := .space asid }
          (none, s.putSpace asid { a with growing := a.growing.put v { granule := g, waiting := [(who, s.dev.tick)] } })

/-- A population ends, and the writes that wait for it run (08 R227). -/
def State.populationDone (s : State) (asid v : Nat) : State :=
  match s.pool.spaces.find asid with
  | none => s
  | some a =>
    match a.growing.find v with
    | none => s
    | some p =>
      let s := s.putSpace asid { a with growing := a.growing.del v, pops := a.pops.put v p.granule }
      s.later (p.waiting.map fun w => .run w.1)

/-- The request behind a waiting access: its own, or that of a requester's tile. -/
def State.requestOf (s : State) (a : Access) : Option Req :=
  match a with
  | .request r => some r
  | .tile sid i => ((s.str.streams.find sid).bind fun v => v.tiles.find i).bind (·.req)
  | .ledger _ _ => none
  | .command _ _ _ _ _ => none
  | .sector _ _ => none

/-- The request `src`, `tag` that waits for a population and has waited 64 ticks (08 R226): its space, region and record. -/
def State.popWaiter (s : State) (src tag : Nat) : Option (Nat × Space × Nat × Population × Access × Nat) :=
  let mine (w : Access × Nat) : Bool :=
    w.2 + 64 ≤ s.dev.tick && (s.requestOf w.1).any fun r => r.p.src == src && r.p.tag == tag
  s.pool.spaces.findSome? fun a =>
    a.2.growing.findSome? fun p => (p.2.waiting.find? mine).map fun w => (a.1, a.2, p.1, p.2, w)

/-- A write has waited its bound for a population (08 Table 8-5, R227): a request or a tile completes BUSY_RETRY. -/
def State.populationWait (s : State) (src tag : Nat) : State :=
  match s.popWaiter src tag with
  | some (asid, a, v, p, w) =>
    let s := s.putSpace asid { a with growing := a.growing.put v { p with waiting := p.waiting.filter (· != w) } }
    match w.1 with
    | .request r => s.complete r .busyRetry
    | .tile sid i => s.later [.late sid i]
    | .ledger _ _ => s
    | .command _ _ _ _ _ => s
    | .sector _ _ => s
  | none => s

/-- Waiting writes that nobody has asked for (tiles of an extent source, final writes of ledger tiles) count the same bound:
a tile is not settled and is issued again, a ledger's write begins its wait anew (08 R226, R227, 02 R54, log 165). -/
def State.populationTick (s : State) : State :=
  s.pool.spaces.foldl (fun s a => a.2.growing.foldl (fun s p =>
    let late (w : Access × Nat) : Bool := (s.requestOf w.1).isNone && w.2 + 64 ≤ s.dev.tick
    let gone := (p.2.waiting.filter late).map (·.1)
    if gone.isEmpty then s
    else
      let s := match s.pool.spaces.find a.1 with
        | some b => s.putSpace a.1 { b with growing := b.growing.adjust p.1 fun q => { q with waiting := q.waiting.filter fun w => !late w } }
        | none => s
      s.later (gone.map fun w => match w with
        | .tile sid i => .late sid i
        | w => .run w)) s) s

/-! Granules that leave their owner. -/

/-- The granule whose state a granule has: itself, or the source that a migration still copies into it (11 R318). -/
def State.granHome (s : State) (g : Nat) : Nat :=
  (s.pool.invals.findSome? fun x => match x.2.purpose with
    | .migrate src dst => if dst == g then some src else none
    | _ => none).getD g

/-- Granules go to QUARANTINE (06 R183, 08 R213). -/
def State.quarantine (s : State) (l : List Nat) : State :=
  l.foldl (fun s g =>
    let s := if (s.gran g).st == .moving then s.putGran g { s.gran g with use := .none } else s
    let h := s.granHome g
    s.putGran h { s.gran h with st := .quarantine, use := .none }) s

/-- Every mapping changed. -/
def State.eachMap (s : State) (f : Mapping → Mapping) : State := { s with pool.maps := s.pool.maps.map f }

/-- A mapping leaves its space. -/
def State.dropMap (s : State) (asid va : Nat) : State :=
  { s with pool.maps := s.pool.maps.filter fun m => !(m.asid == asid && m.vaBase == va) }

/-- A space's identifier is free for SPACE_CREATE (08 R213, R229). -/
def State.spaceFree (s : State) (asid : Nat) : Bool :=
  match s.pool.spaces.find asid with
  | none => true
  | some a =>
    a.dead && a.inForce && !(s.pool.maps.any fun m => m.asid == asid) &&
      !(s.pool.invals.any fun i => match i.2.purpose with
        | .spaceGrans x _ => x == asid
        | .spaceMap x _ => x == asid
        | .unmap x _ => x == asid
        | _ => false)

/-- A space is deleted (08 R213): its identifier is invalidated. The rest follows once that is in force. -/
def State.deleteSpace (s : State) (asid : Nat) (cmd : Option CmdRef) : State :=
  match s.pool.spaces.find asid with
  | none => s
  | some a =>
    if a.dead then s
    else
      let s := s.putSpace asid { a with marked := true, dead := true, cmd }
      let s := s.eachMap fun m => if m.asid == asid then { m with removing := true } else m
      (s.sendMeta (.noSpace asid)).later [.scratch]

/-- The invalidation by identifier is in force (08 R213, R229): the command completes, the waiting writes are refused,
and the mappings and populated granules follow by range invalidation. -/
def State.identInForce (s : State) (asid : Nat) : State :=
  match s.pool.spaces.find asid with
  | none => s
  | some a =>
    if !a.dead || a.inForce then s
    else
      let waits := a.growing.flatMap fun p => p.2.waiting.map (·.1)
      let grans := a.pops.map (·.2) ++ a.growing.map (·.2.granule)
      let s := s.putSpace asid { a with inForce := true, cmd := none, pops := [], growing := [] }
      let s := s.dropSpaces (· == asid)
      let s := (s.pool.maps.filter fun m => m.asid == asid && m.cmd.isNone).foldl
        (fun s m => s.invalidate (.virt asid (m.vaBase / 2097152) m.count) (.spaceMap asid m.vaBase)) s
      let s := if grans.isEmpty then s else s.invalidate (.phys grans) (.spaceGrans asid grans)
      let s := s.later (waits.map .run)
      match a.cmd with
      | some c => s.respondOk c
      | none => s

/-! Command bodies. -/

/-- SPACE_CREATE (08 R211, R212). -/
def bodySpaceCreate : CcpBody := fun c s =>
  let b := c.block
  let n := bits b 147 128
  let base := bits b 111 64
  let mask := bits b 175 160
  checked s
    [ (bits b 3 0 != 3, rRange),
      (n > 587776, rRange),
      (n != 0 && (base % 2097152 != 0 || base + 2097152 * n > 2 ^ 48 || mask == 0), rRange),
      (n == 0 && (base != 0 || mask != 0), rf .range 5) ]
    (match firstFree (fun a => !s.spaceFree a) 0 4096 with
     | none => refuse s ⟨.busyRetry, 0x0201⟩
     | some asid =>
       let s := s.putSpace asid { tenant := c.tenant, desc := b }
       okBytes (s.sendMeta (.space asid c.tenant b)) (leBytes (bits b 255 192) 8 ++ leBytes asid 8))

/-- SPACE_DELETE (08 R213). -/
def bodySpaceDelete : CcpBody := fun c s =>
  let asid := c.object
  let dead := match s.pool.spaces.find asid with
    | none => true
    | some a => a.dead
  let foreign := match s.pool.spaces.find asid with
    | none => false
    | some a => a.tenant != c.tenant
  checked s [ (4096 ≤ asid, rObject), (dead, rNoObject), (foreign, rForeign) ]
    (heldCmd (s.deleteSpace asid (some c.ref)))

/-- How many numbers ranges cover together, the ranges taken by rising start. -/
def coverCount (l : List (Nat × Nat)) : Nat :=
  let put (l : List (Nat × Nat)) (x : Nat × Nat) : List (Nat × Nat) :=
    (l.filter fun y => y.1 ≤ x.1) ++ x :: l.filter fun y => x.1 < y.1
  ((l.foldl put []).foldl (fun (a : Nat × Nat) x => (a.1 + (x.2 - max a.2 x.1), max a.2 x.2)) (0, 0)).1

/-- The mapping that a block of Table 8-2 asks for. -/
def mapOf (b : Nat) : Mapping :=
  { asid := bits b 35 24, vaBase := bits b 127 80, first := bits b 59 40, count := bits b 79 60
    pageSize := bits b 17 16, extent := bits b 15 0 }

/-- The bytes of the translation tables of a space's mappings (08 Table 8-4): tables of 512 entries at levels 0 to 2, of 32
entries at level 3, and the list of 512 granules of each leaf of 1 GiB; an entry takes 8 bytes (log 166). -/
def tableBytes (l : List Mapping) : Nat :=
  let span (k : Nat) (m : Mapping) : Nat × Nat := (m.vaBase / k, ceilDiv (m.vaBase + 2097152 * m.count) k)
  let big := l.filter fun m => m.pageSize == 2
  let l2 := l.filter fun m => m.pageSize != 2
  let l3 := l.filter fun m => m.pageSize == 0
  4096 * (1 + coverCount (l.map (span (2 ^ 39))) + coverCount (l2.map (span (2 ^ 30)))) +
    256 * sumOf (l3.map (·.count)) + 8 * sumOf (big.map (·.count))

/-- Whether the metadata region has room for the tables of some mappings (08 Table 8-3 row 5, log 166). -/
def State.tablesFit (s : State) (l : List Mapping) : Bool :=
  let asids := l.foldl (fun a m => insertNum a m.asid) []
  sumOf (asids.map fun a => tableBytes (l.filter fun m => m.asid == a)) ≤ s.granCount .metadata * 2097152

/-- The rows of Table 8-3 (08 R216). -/
def mapRows (c : CcpCtx) (s : State) : List (Bool × RClass) :=
  let b := c.block
  let va := bits b 127 80
  let n := bits b 79 60
  let first := bits b 59 40
  let asid := bits b 35 24
  let size := bits b 17 16
  let ext := bits b 15 0
  let mine := (s.pool.extents.find ext).bind fun e => if e.tenant == c.tenant then some e else none
  let space := (s.spaceLive asid).bind fun a => if a.tenant == c.tenant then some a else none
  let badExt := match mine with
    | some e => size > bits e.desc 13 12 || first + n > extCount e
    | none => false
  let hi := va + 2097152 * n
  [ (va % (if size == 2 then 2 ^ 30 else 2097152) != 0 || n == 0 || size == 3 || badExt || hi > 2 ^ 48 ||
      (size == 2 && (first % 512 != 0 || n % 512 != 0)), .range),
    (mine.isNone || space.isNone, .policy),
    ((match mine with
      | some e => e.state != .enabled
      | none => true), .dependency),
    ((s.pool.maps.any fun m => m.asid == asid && m.vaBase < hi && va < m.vaBase + m.count * 2097152) ||
      (match space with
       | some a => dzBase a < hi && va < dzBase a + 2097152 * dzGranules a
       | none => false), .conflict),
    (65536 ≤ s.pool.maps.length || !s.tablesFit (s.pool.maps ++ [mapOf b]), .resource) ]

/-- Whether a weight import into an extent is in progress: one whose chunk has failed its tag has ended (09 R263, R264). -/
def State.importing (s : State) (e : Nat) : Bool := (s.ten.imports.find e).any fun m => !m.failed

/-- EXTENT_MAP (08 R215 to R217). An extent under import is refused where Table 8-3 does not refuse it (09 R265, log 185). -/
def bodyExtentMap : CcpBody := fun c s =>
  let b := c.block
  match checkTable (mapRows c s) 0 with
  | some r => refuse s r
  | none =>
   if s.importing (bits b 15 0) then refuse s rBusy
   else
    let m := mapOf b
    okEmpty ({ s with pool.maps := s.pool.maps ++ [m] }.sendMeta (.mapping c.tenant b))

/-- EXTENT_UNMAP (08 R215, R218; of a mapping that is being removed, log 204). -/
def bodyExtentUnmap : CcpBody := fun c s =>
  let b := c.block
  let asid := bits b 35 24
  let va := bits b 127 80
  let ext := bits b 15 0
  let own := (match s.spaceLive asid with
    | some a => a.tenant == c.tenant
    | none => false)
  match s.pool.maps.find? fun m => m.asid == asid && m.vaBase == va && m.extent == ext with
  | none => refuse s rNoObject
  | some m =>
    checked s [ (!own, rNoObject), (m.removing, rBusy) ]
      (let s := s.eachMap fun x =>
         if x.asid == asid && x.vaBase == va then { x with removing := true, cmd := some c.ref } else x
       heldCmd ((s.sendMeta (.unmap b)).later [.scratch]))

/-- L2_PARTITION (08 R232, 07 Table 7-6); a partition is the unit's own (log 202). -/
def bodyL2Partition : CcpBody := fun c s =>
  let t := bits c.block 15 0
  let ways := bits c.block 31 16
  checked s
    [ ((s.tenantOf t).isNone, rNoObject),
      (s.pool.l2part.any fun x => x.1 != t && Nat.land x.2 ways != 0, ⟨.faultRange, 0x0304⟩) ]
    (okEmpty { s with pool.l2part := if ways == 0 then s.pool.l2part.del t else s.pool.l2part.put t ways })

end Sys2Proof.Machine
end

