-- ==== Sys2Proof/Machine/Commons.lean ====
section
/-! DEFINITION. Commons.lean: coherent shared regions (07): commons, the directory, line transactions with their snoops,
atomics, barriers and locks, and lost holders. A line is named by its handle, 2^28 × common + index (13 R351). -/

namespace Sys2Proof.Machine

def comExtent (c : Common) : Nat := bits c.desc 31 16

/-- Snoop timeout in slow ticks (Table 7-1). -/
def comTimeout (c : Common) : Nat :=
  let u := bits c.desc 47 40
  64 * (if u == 0 then 16 else u)

def lineCommon (h : Nat) : Nat := h / 2 ^ 28
def lineIndex (h : Nat) : Nat := h % 2 ^ 28

/-- The enabled or ending common of an extent. -/
def State.commonOf (s : State) (ext : Nat) : Option (Nat × Common) :=
  s.com.commons.find? fun c => comExtent c.2 == ext && c.2.state != .disabled

/-- The extent of a line. -/
def State.lineExt (s : State) (h : Nat) : Nat := ((s.com.commons.find (lineCommon h)).map comExtent).getD 0

/-- The sector of a line. -/
def State.lineSector (s : State) (h : Nat) : Nat :=
  s.framePage (s.lineExt h) (lineIndex h / 256) none * 256 + lineIndex h % 256

/-- The directory set of a line: stack × 32,768 + set (07 R192, log 27). -/
def State.lineSet (s : State) (h : Nat) : Nat :=
  let n := s.lineSector h
  granStack (sectorGran n) * 32768 + localSector n % 32768

/-- The granule of a line. -/
def State.lineGran (s : State) (h : Nat) : Nat := sectorGran (s.lineSector h)

/-- The tenant of a common. -/
def State.lineTenant (s : State) (h : Nat) : Nat := ((s.com.commons.find (lineCommon h)).map (·.tenant)).getD 0

/-! Holders. -/

/-- Whether an entry lists a node as a sharer (R192). -/
def Sharers.has (l : Sharers) (n : Nat) : Bool :=
  match l with
  | .precise p => p.contains n
  | .coarse g => bit g (n / 512)

/-- A node becomes a sharer; the ninth turns the entry coarse (R194). -/
def Sharers.add (l : Sharers) (n : Nat) : Sharers :=
  match l with
  | .precise p =>
    if p.contains n then l
    else if p.length < 8 then .precise (insertNum p n)
    else .coarse (maskOf ((n :: p).map (· / 512)))
  | .coarse g => .coarse (setBit g (n / 512) true)

/-- A node is no longer a sharer; a coarse vector keeps its groups. -/
def Sharers.drop (l : Sharers) (n : Nat) : Sharers :=
  match l with
  | .precise p => .precise (p.filter (· != n))
  | .coarse g => .coarse g

def Sharers.none? (l : Sharers) : Bool :=
  match l with
  | .precise p => p.isEmpty
  | .coarse g => g == 0

/-- The nodes that a snoop to the sharers goes to (R194). -/
def State.sharerNodes (s : State) (h : Nat) (l : Sharers) : List Nat :=
  match l with
  | .precise p => p
  | .coarse g =>
    (s.ten.links.foldl (fun a x => if x.2.tenant == s.lineTenant h && bit g (x.2.node / 512) then insertNum a x.2.node else a) [])

/-- An entry in its canonical place: an entry without any holder does not exist (R192). -/
def State.setEntry (s : State) (h : Nat) (e : DirEntry) : State :=
  if e.st == .shared && e.sharers.none? then s.delDir h else s.putDir h e

def owned (e : DirEntry) : Bool := e.st != .shared

/-- A node is lost to a line and the loss is not resolved (R207). -/
def State.isLost (s : State) (h n : Nat) : Bool := s.com.lost.contains (h, n)

def State.clearLost (s : State) (h : Nat) : State := { s with com.lost := s.com.lost.filter fun x => x.1 != h }

/-- Losses of nodes that a line's entry no longer lists are resolved (R207). -/
def State.trimLost (s : State) (h : Nat) : State :=
  let lists (n : Nat) : Bool := match s.com.dir.find h with
    | some e => (owned e && e.owner == n) || e.sharers.has n
    | none => false
  { s with com.lost := s.com.lost.filter fun x => x.1 != h || lists x.2 }

/-! Memory of a line. -/

/-- Data written to a line, at both units of a pair where the extent is mirrored (R199, 16 R434). -/
def State.writeLine (s : State) (h : Nat) (d : List Byte) : State :=
  let s := (s.writeSector (s.lineSector h) 0 (padTo d 256) false).2
  if s.mirrorsTo (s.lineExt h) || s.copiesTo (s.lineExt h) (lineIndex h * 256) then
    s.mirrorOut (s.lineExt h) [(lineIndex h * 256, padTo d 256)] [] [] .none
  else s

/-- The owner of an EX line is lost: the line keeps its memory data and takes the mark (R207). -/
def State.loseLine (s : State) (h : Nat) : State := (s.markLost (s.lineSector h)).delDir h

/-! Snoops. -/

def SnoopKind.opcode : SnoopKind → Nat
  | .share => 0x30
  | .inv => 0x31
  | .recover => 0x32
  | .drop => 0x33

/-- The open link session of a node for a tenant (R194). -/
def State.linkTo (s : State) (node tenant : Nat) : Option (Nat × Link) :=
  s.ten.links.find? fun x => x.2.node == node && x.2.tenant == tenant

/-- Snoops are sent for a line's transaction; a node without a link session cannot be asked and is lost (log 28). -/
def State.sendSnoops (s : State) (h : Nat) (dests : List (Nat × SnoopKind)) : State :=
  dests.foldl (fun s x =>
    match s.linkTo x.1 (s.lineTenant h), s.com.commons.find (lineCommon h), s.com.trans.find h with
    | some (id, l), some c, some t =>
      let q := s.issue (.snoop h x.1) x.2.opcode x.1 id h []
      q.2.putTrans h { t with snoops := t.snoops ++
        [{ node := x.1, gen := l.gen, session := id, tag := q.1, kind := x.2, due := s.dev.tick + comTimeout c }] }
    | _, _, _ => { s with com.lost := if s.com.lost.contains (h, x.1) then s.com.lost else (h, x.1) :: s.com.lost }) s

/-- The snoops a job needs in the line's state (Table 7-8, R187, R195, R201, R202, R210). -/
def State.jobSnoops (s : State) (h : Nat) (e : DirEntry) (job : LineJob) : List (Nat × SnoopKind) :=
  let l := s.sharerNodes h e.sharers
  let all (k : SnoopKind) (but : Option Nat) : List (Nat × SnoopKind) :=
    (((if owned e then [e.owner] else []) ++ l.filter (fun n => !(owned e && n == e.owner))).filter
      fun n => some n != but).map (·, k)
  match job with
  | .request r =>
    let x := r.p.src
    if r.opcode == 0x20 then (if owned e then [(e.owner, .share)] else [])
    else if r.opcode == 0x21 then
      match e.st with
      | .exclusive => if e.owner == x then [] else [(e.owner, .inv)]
      | .owned => all .inv none
      | .shared => all .inv (some x)
    else if r.opcode == 0x22 then
      match e.st with
      | .exclusive => if e.owner == x then [] else [(e.owner, .inv)]
      | .owned => if e.owner == x || e.sharers.has x then all .inv (some x) else all .inv none
      | .shared => all .inv (some x)
    else if r.opcode == 0x28 then all .inv none
    else []
  | .access _ write => if write then all .inv none else if owned e then [(e.owner, .share)] else []
  | .delete => all .inv none
  | .evict _ => all .inv none
  | .drop => all .drop none
  | .sweep => []

/-! The end of a transaction. -/

/-- The line's queue goes on with the next job, and transactions that stalled look again (R197, R195). -/
def State.lineNext (s : State) (h : Nat) : State :=
  let s := s.trimLost h
  let stalled := (s.com.trans.filter fun t => t.2.stalled).map (·.1)
  match s.com.trans.find h with
  | none => s
  | some t =>
    let s := match t.waiting with
      | [] => s.delTrans h
      | j :: r => (s.putTrans h { job := j, waiting := r }).later [.line h]
    s.later (stalled.map .line)

/-- A transaction stalls until something ends (R195, 11 R302). -/
def State.lineStall (s : State) (h : Nat) : State :=
  match s.com.trans.find h with
  | some t => s.putTrans h { t with stalled := true, snoops := [] }
  | none => s

/-- What a grant still waits for on a mirrored common (R209): the record of EX or OW at the standby. -/
def State.grant (s : State) (h : Nat) (r : Req) (st : Status) (payload : List Byte) : State :=
  if s.mirrorsTo (s.lineExt h) then
    let x := s.pairSend .mirror 0x71
    let s := x.2.emit (.metaSent x.1 (.lineOwned (lineCommon h) (lineIndex h)))
    { s with pair.mirror := s.pair.mirror.put x.1 (s.dev.tick + s.mirrorTicks, .request r st.code none payload h) }
  else
    let s := if s.isMirrored (s.lineExt h) then s.sendMeta (.lineOwned (lineCommon h) (lineIndex h)) else s
    s.complete r st none (some payload) h

/-- A line leaves EX or OW on a mirrored common, with or without the lost-update mark (R209). -/
def State.lineCleaned (s : State) (h : Nat) (lost : Bool := false) : State :=
  if s.isMirrored (s.lineExt h) then s.sendMeta (.lineClean (lineCommon h) (lineIndex h) lost) else s

/-- A completion that follows a write of memory: on a mirrored extent it waits for the standby (16 R434). -/
def State.afterWrite (s : State) (h off : Nat) (b : List Byte) (r : Req) (st : Status) (word : Option Nat)
    (payload : List Byte) : State :=
  if s.mirrorsTo (s.lineExt h) then
    s.mirrorOut (s.lineExt h) [(lineIndex h * 256 + off, b)] []
      [⟨r.p.src, r.p.ngen, r.p.tag, r.p.tgen, r.opcode, st.code, word⟩] (.request r st.code word payload h)
  else
    let s := if s.copiesTo (s.lineExt h) (lineIndex h * 256) then
        s.mirrorOut (s.lineExt h) [(lineIndex h * 256 + off, b)] [] [] .none
      else s
    s.complete r st word (some payload) h

/-! Atomics. -/

/-- The result of an atomic on a word: its status, the new word (none when nothing is written), and the word it answers
(R202, R203, R205, R206). -/
def State.atomicOf (s : State) (op : Nat) (src ngen old : Nat) : Status × Option Nat × Nat :=
  let aop := op % 256
  let w := if bit op 8 then 64 else 32
  let v := bits op 191 128
  let cmp := bits op 255 192
  let nr := s.nodeRec src
  let live (n g l : Nat) : Bool := (s.nodeRec n).gen == some g && (s.nodeRec n).loss % 256 == l
  let holder := bits old 63 48
  let leaseLive := live holder (bits old 47 44) (bits old 43 36)
  let granted := src * 2 ^ 48 + ngen * 2 ^ 44 + nr.loss % 256 * 2 ^ 36 + (bits old 31 1 + 1) % 2 ^ 31 * 2 + 1
  let freed := bits old 31 1 * 2
  match aop with
  | 1 => (.ok, some ((old + v) % 2 ^ w), old)
  | 2 =>
    let f := s.fmt (bits op 52 48)
    let q := ledgerQ (f.value (v % 2 ^ f.width)) (signed (bits op 63 56) 8)
    let sum := signed old 64 + q.1
    let hi : Int := 2 ^ 63 - 1
    let sat := if hi < sum then hi else if sum < -hi - 1 then -hi - 1 else sum
    (if q.2 || sat != sum then .overflow else .ok, some (unsigned sat 64), old)
  | 3 => (.ok, some (if old == cmp then v else old), old)
  | 4 => (.ok, some v, old)
  | 5 => (.ok, some (if signed v w < signed old w then v else old), old)
  | 6 => (.ok, some (if signed old w < signed v w then v else old), old)
  | 7 => (.ok, some (min old v), old)
  | 8 => (.ok, some (max old v), old)
  | 16 =>
    let arrived := bits old 15 0
    let expected := bits old 31 16
    if expected == 0 || expected ≤ arrived then (.faultRange, none, old)
    else
      let n := if arrived + 1 == expected then (bits old 63 32 + 1) % 2 ^ 32 * 2 ^ 32 + expected * 2 ^ 16 else old + 1
      (.ok, some n, n)
  | 32 =>
    if !bit old 0 then (.ok, some granted, granted)
    else if leaseLive then (if holder == src then .alreadyComplete else .busyRetry, none, old)
    else (.lockAbandoned, some granted, granted)
  | _ =>
    if !bit old 0 then (.alreadyComplete, none, old)
    else if holder != src then (.faultRange, none, old)
    else (if leaseLive then .ok else .lockAbandoned, some freed, freed)

/-- An atomic runs on a line in state U (R202, R204). -/
def State.runAtomic (s : State) (h : Nat) (r : Req) : State :=
  let op := leNat (r.p.payload.take 32)
  let n := s.lineSector h
  let bytes := if bit op 8 then 8 else 4
  let off := r.p.address % 256
  let x := s.readSector n
  let s := x.2.2
  let old := leNat (slice x.2.1 off bytes)
  let cookie := cookieOf r.p.payload
  let answer (s : State) (st : Status) (w : Nat) : State := s.complete r st (some w) (some (cookie ++ leBytes w 8)) h
  if x.1 == .integrity || x.1 == .poisoned then answer s x.1 0
  else
    let a := s.atomicOf op r.p.src r.p.ngen old
    let st := if a.1 == .ok && x.1 == .okLostUpdate then .okLostUpdate else a.1
    match a.2.1 with
    | none => answer s st a.2.2
    | some w =>
      let b := leBytes w bytes
      let s := (s.writeSector n off b false).2
      s.afterWrite h off b r st (some a.2.2) (cookie ++ leBytes a.2.2 8)

/-! Table 7-8. -/

/-- The line's data from its owner, or from memory, with the status of the line's marks (R199, R200, R208). A mark that the sector
carries stays until a write, so data of an owner is returned under it (log 182). -/
def State.lineData (s : State) (h : Nat) (own : Option (List Byte)) : Status × List Byte × State :=
  let m := s.secMeta (s.lineSector h)
  match own with
  | some d => (if m.poison then .poisoned else if m.lost then .okLostUpdate else .ok, padTo d 256, s)
  | none => s.readSector (s.lineSector h)

/-- An entry for a line: its own, or a new one in a free way of its set that the tenant may use; none when the set is
full (R195, R196). -/
def State.newEntry (s : State) (h : Nat) : Option DirEntry :=
  let set := s.lineSet h
  let t := s.lineTenant h
  let ways := bitsOf (waysOf s.com.part t) 16
  (ways.find? fun w => !(s.com.dir.any fun e => e.2.set == set && e.2.way == w)).map fun w =>
    { st := .shared, tenant := t, set, way := w, order := s.com.order }

/-- The victim of an eviction: the earliest-allocated entry of the set, in the tenant's ways, in no transaction (R195). -/
def State.victim (s : State) (h : Nat) : Option Nat :=
  let set := s.lineSet h
  let ways := waysOf s.com.part (s.lineTenant h)
  let l := s.com.dir.filter fun e => e.2.set == set && bit ways e.2.way && !s.com.trans.has e.1
  (l.foldl (fun b e => match b with
    | none => some e
    | some x => if e.2.order < x.2.order then some e else b) none).map (·.1)

/-- A line request whose snoops are answered changes the directory and completes (Table 7-8). `own` is the data its owner
returned. -/
def State.serveLine (s : State) (h : Nat) (r : Req) (own : Option (List Byte)) : State :=
  let x := r.p.src
  let cookie := cookieOf r.p.payload
  let old := s.com.dir.find h
  let noEx := ((s.com.commons.find (lineCommon h)).map fun c => bit c.desc 32).getD false
  let gen := (s.nodeRec x).gen.getD r.p.ngen
  let withData (s : State) : Status × List Byte × State :=
    let q := s.lineData h own
    (q.1, cookie ++ q.2.1, q.2.2)
  if r.opcode == 0x23 then
    let k := h * 65536 + x
    match old with
    | some e =>
      if owned e && e.owner == x && e.gen == r.p.ngen then
        let d := slice r.p.payload 16 256
        let s := (s.writeSector (s.lineSector h) 0 (padTo d 256) false).2
        let s := if e.st == .exclusive then s.delDir h else s.setEntry h { e with st := .shared }
        (s.lineCleaned h).afterWrite h 0 (padTo d 256) r .ok none cookie
      else if s.com.wbRecs.has k then
        ({ s with com.wbRecs := s.com.wbRecs.del k }).complete r .alreadyComplete none (some cookie) h
      else s.complete r .aborted none (some cookie) h
    | none =>
      if s.com.wbRecs.has k then
        ({ s with com.wbRecs := s.com.wbRecs.del k }).complete r .alreadyComplete none (some cookie) h
      else s.complete r .aborted none (some cookie) h
  else if r.opcode == 0x28 then
    let s := match own with
      | some d => s.writeLine h d
      | none => s
    (if old.isSome then (s.delDir h).lineCleaned h else s).runAtomic h r
  else
    let grantM (s : State) (e : DirEntry) (data : Bool) : State :=
      let s := s.putDir h { e with st := .exclusive, owner := x, gen, sharers := .precise [] }
      if data then
        let q := withData s
        q.2.2.grant h r q.1 q.2.1
      else s.grant h r .ok cookie
    let fresh (s : State) : Option (DirEntry × State) :=
      (s.newEntry h).map fun e => (e, { s with com.order := s.com.order + 1 })
    match old with
    | none =>
      match fresh s with
      | none => s
      | some (e, s) =>
        if r.opcode == 0x20 && noEx then
          let s := s.putDir h { e with sharers := .precise [x] }
          let q := withData s
          q.2.2.complete r q.1 none (some q.2.1) h
        else grantM s e true
    | some e =>
      if r.opcode == 0x20 then
        match e.st with
        | .shared =>
          let s := s.putDir h { e with sharers := e.sharers.add x }
          let q := withData s
          q.2.2.complete r q.1 none (some q.2.1) h
        | .exclusive =>
          match own with
          | some _ =>
            let s := s.putDir h { e with st := .owned, sharers := .precise [x] }
            let q := withData s
            q.2.2.grant h r q.1 q.2.1
          | none =>
            let s := (s.putDir h { e with st := .shared, sharers := (Sharers.precise [e.owner]).add x }).lineCleaned h
            let q := withData s
            q.2.2.complete r q.1 none (some q.2.1) h
        | .owned =>
          let s := s.putDir h { e with sharers := e.sharers.add x }
          let q := withData s
          q.2.2.complete r q.1 none (some q.2.1) h
      else if r.opcode == 0x22 && e.st == .exclusive && e.owner == x then
        s.complete r .alreadyComplete none (some cookie) h
      else
        let listed := (owned e && e.owner == x) || (e.st != .exclusive && e.sharers.has x)
        grantM s e (!(r.opcode == 0x22 && listed))

/-- The sectors of a job whose memory data it needs, for the mirror (11 R302). -/
def State.lineWaits (s : State) (h : Nat) (t : Trans) : Bool :=
  match t.job, t.data with
  | .request _, none => !(s.mirrorWants [s.lineSector h]).isEmpty
  | _, _ => false

/-- Whether a request's line lies in a pseudo-channel that is held (10 R293). -/
def State.lineHeld (s : State) (h : Nat) (t : Trans) : Bool :=
  match t.job with
  | .request _ => (s.heldFor [s.lineSector h]).isSome
  | _ => false

def LineJob.isAccess (j : LineJob) (a : Access) : Bool :=
  match j with
  | .access b _ => b == a
  | _ => false

/-- Whether an access that does not cache has its turn at every line that it queues for (R201). -/
def State.linesReady (s : State) (a : Access) : Bool :=
  !(s.com.trans.any fun t => (t.2.job.isAccess a && !t.2.ready) || t.2.waiting.any (·.isAccess a))

/-- Whether the extent of a line is being revoked. -/
def State.lineRevoked (s : State) (h : Nat) : Bool := (s.pool.extents.find (s.lineExt h)).any (·.state == .revoking)

/-- A line's transaction has every answer: its losses are resolved, or its job takes effect (R197, R199, R207). -/
def State.lineFinish (s : State) (h : Nat) : State :=
  match s.com.trans.find h with
  | none => s
  | some t =>
    if t.recovering then
      let s := match t.data with
        | some d => (s.writeLine h d).delDir h
        | none => s.loseLine h
      ((s.clearLost h).lineCleaned h t.data.isNone).putTrans h { t with recovering := false, data := none, ownerData := false, asked := false }
        |>.later [.line h]
    else if s.lineHeld h t then s.lineStall h
    else if s.lineWaits h t then
      let s := (s.mirrorWants [s.lineSector h]).foldl (fun s w => s.fetchMirror w.1 w.2.1 w.2.2) s
      s.lineStall h
    else
      let own := if t.ownerData then t.data else none
      let e := s.com.dir.find h
      match t.job with
      | .request r =>
        let needs := e.isNone && r.opcode != 0x23 && r.opcode != 0x28 && (s.newEntry h).isNone
        if s.lineRevoked h then (s.complete r .faultRevoked none (some (cookieOf r.p.payload)) h).lineNext h
        else if needs then
          let s := s.lineStall h
          if s.com.trans.any fun x => x.2.job == .evict h then s
          else match s.victim h with
          | some v => (s.putTrans v { job := .evict h }).later [.line v]
          | none => s
        else (s.serveLine h r own).lineNext h
      | .access a write =>
        let s := if write then
            let s := match own with
              | some d => s.writeLine h d
              | none => s
            if e.isSome then (s.delDir h).lineCleaned h else s
          else
            let s := match own with
              | some d => { s with com.got := s.com.got ++ [(a, h, padTo d 256)] }
              | none => s
            match e with
            | some e =>
              if e.st != .exclusive then s
              else if t.ownerData then s.putDir h { e with st := .owned, sharers := .precise [] }
              else (s.putDir h { e with st := .shared, sharers := .precise [e.owner] }).lineCleaned h
            | none => s
        let s := s.putTrans h { t with ready := true, stalled := false }
        if s.linesReady a then s.later [.run a] else s
      | .delete =>
        let s := match own with
          | some d => s.writeLine h d
          | none => s
        ((s.delDir h).lineCleaned h).lineNext h
      | .evict f =>
        let s := match own with
          | some d => s.writeLine h d
          | none => s
        (((s.delDir h).lineCleaned h).later [.line f]).lineNext h
      | .drop => (s.delDir h).lineNext h
      | .sweep => s.lineNext h

/-- The holders of a line of a revoked extent are told to drop it; one that is lost cannot be, and nothing is written (R210). -/
def State.dropLine (s : State) (h : Nat) (e : DirEntry) : State :=
  let s := s.sendSnoops h ((s.jobSnoops h e .drop).filter fun x => !s.isLost h x.1)
  if ((s.com.trans.find h).map (·.snoops.isEmpty)).getD true then s.lineFinish h else s

/-- A line's transaction goes on: losses first (R207), then the snoops of its job, then its end. -/
def State.lineGo (s : State) (h : Nat) : State :=
  match s.com.trans.find h with
  | none => s
  | some t =>
    if !t.snoops.isEmpty || t.ready then s
    else if t.asked then (s.putTrans h { t with stalled := false }).lineFinish h
    else
      let s := s.putTrans h { t with stalled := false }
      match s.com.dir.find h with
      | none => s.lineFinish h
      | some e =>
        if t.job == .drop then s.dropLine h e else
        let lostSharer (n : Nat) : Bool := s.isLost h n
        let sh := match e.sharers with
          | .precise p => Sharers.precise (p.filter fun n => !lostSharer n)
          | .coarse g => .coarse g
        let e := { e with sharers := sh }
        if owned e && s.isLost h e.owner then
          match e.st with
          | .owned =>
            let dests := (s.sharerNodes h sh).filter fun n => !lostSharer n
            let s := (s.putDir h e).putTrans h { t with stalled := false, recovering := true, data := none, ownerData := false }
            let s := s.sendSnoops h (dests.map (·, .recover))
            if ((s.com.trans.find h).map (·.snoops.isEmpty)).getD true then s.lineFinish h else s
          | _ => (((s.loseLine h).clearLost h).lineCleaned h true).later [.line h]
        else
          let s := (s.setEntry h e).clearLost h
          match s.com.dir.find h with
          | none => s.lineFinish h
          | some e =>
            if t.data.isSome || t.ownerData then s.lineFinish h
            else
              let dests := s.jobSnoops h e t.job
              if dests.isEmpty then s.lineFinish h
              else
                let s := s.sendSnoops h dests
                if ((s.com.trans.find h).map (·.snoops.isEmpty)).getD true then s.later [.line h] else s

/-- A job reaches a line: it starts, or it waits behind the transaction in progress (R197). -/
def State.lineArrive (s : State) (h : Nat) (job : LineJob) : State :=
  match s.com.trans.find h with
  | none => (s.putTrans h { job }).lineGo h
  | some t => s.putTrans h { t with waiting := t.waiting ++ [job] }

/-! Snoop responses. -/

/-- What a snooped holder told. -/
inductive SnoopSays where
  | data (b : List Byte)
  | clean
  | absent
  | lost
  deriving DecidableEq, Repr

/-- Every answer is in: the transaction ends, or its losses are resolved first (R197, R207). -/
def State.lineAnswered (s : State) (h : Nat) : State :=
  match s.com.trans.find h, s.com.dir.find h with
  | some t, some e =>
    if owned e && s.isLost h e.owner && !t.recovering && !t.ownerData && t.job != .drop then s.later [.line h]
    else (s.putTrans h { t with asked := !t.recovering }).lineFinish h
  | _, _ => s.lineFinish h

/-- One snoop of a line is answered or timed out (R190, R191, R193, R207). -/
def State.snoopAnswer (s : State) (h : Nat) (x : Snoop) (told : SnoopSays) (wb : Bool) : State :=
  match s.com.trans.find h with
  | none => s
  | some t =>
    let t := { t with snoops := t.snoops.filter (· != x) }
    let s := (s.putTrans h t).delIssued x.tag
    let e := s.com.dir.find h
    let isOwner := match e with
      | some e => owned e && e.owner == x.node
      | none => false
    let dropHolder (s : State) : State := match e with
      | some e =>
        if isOwner then
          match e.st with
          | .owned => s.setEntry h { e with st := .shared }
          | _ => s.delDir h
        else s.setEntry h { e with sharers := e.sharers.drop x.node }
      | none => s
    let lose (s : State) : State :=
      if isOwner then { s with com.lost := (h, x.node) :: s.com.lost } else dropHolder s
    let s := match told with
      | .data b =>
        if wb then
          let s := (dropHolder (s.writeLine h b)).lineCleaned h
          { s with com.wbRecs := s.com.wbRecs.put (h * 65536 + x.node) (s.dev.tick + 512) }
        else if x.kind == .drop then s
        else if t.recovering then (if t.data.isSome then s else s.putTrans h { t with data := some b })
        else if isOwner then s.putTrans h { t with data := some b, ownerData := true }
        else s
      | .clean =>
        if wb then
          { dropHolder s with com.wbRecs := s.com.wbRecs.put (h * 65536 + x.node) (s.dev.tick + 512) }
        else s
      | .absent => if x.kind == .recover || x.kind == .drop then s else lose s
      | .lost => if x.kind == .recover || x.kind == .drop then s else lose s
    if t.snoops.isEmpty then s.lineAnswered h else s

/-- A snoop response arrives (R190): only from the snooped node, in the session the snoop went to; any other is discarded
and counted for the tenant of the session that it names, open or closed, or of the snoop that it names. -/
def State.snoopResponse (s : State) (p : Packet) (told : SnoopSays) : State :=
  let bad := match s.ten.links.find p.session, s.ten.barred.find p.session, s.fab.issued.find p.tag with
    | some l, _, _ => s.countTen l.tenant 7
    | none, some b, _ => s.countTen b.2 7
    | none, none, some { tgen := _, dst := _, what := .snoop h _ } => s.countTen (s.lineTenant h) 7
    | _, _, _ => s
  match s.fab.issued.find p.tag with
  | some { tgen, dst, what := .snoop h _ } =>
    if tgen != p.tgen || dst != p.src || p.ngen != s.fab.ngen then bad
    else
      match (s.com.trans.find h).bind fun t => t.snoops.find? fun x => x.tag == p.tag with
      | some x => if x.session == p.session then s.snoopAnswer h x told p.wbPending else bad
      | none => bad
  | _ => bad

/-- A node is lost: every line that lists it, and every snoop to it (R207, 13 R358). -/
def State.comLoseNode (s : State) (n : Nat) : State :=
  let lines := (s.com.dir.filter fun e => (owned e.2 && e.2.owner == n) || e.2.sharers.has n).map (·.1)
  let s := { s with com.lost := s.com.lost ++ ((lines.map fun h => (h, n)).filter fun x => !s.com.lost.contains x) }
  (s.com.trans.flatMap fun t => (t.2.snoops.filter fun x => x.node == n).map fun x => (t.1, x)).foldl
    (fun s x => s.snoopAnswer x.1 x.2 .lost false) s

/-! Requests. -/

/-- The page operand of a request (06 Table 6-8). -/
def operandOf (p : Packet) : Nat := leNat (p.payload.take 16)

/-- Whether an atomic operand breaks Table 7-9 (R202). -/
def atomicBad (op address : Nat) : Bool :=
  let aop := op % 256
  let w64 := bit op 8
  let known := (1 ≤ aop && aop ≤ 8) || aop == 16 || aop == 32 || aop == 33
  !known || bits op 23 9 != 0 || bits op 47 36 != 0 || bits op 55 53 != 0 ||
    address % (if w64 then 8 else 4) != 0 ||
    (!w64 && (aop == 2 || 16 ≤ aop || bits op 191 160 != 0 || bits op 255 224 != 0)) ||
    (aop != 3 && bits op 255 192 != 0) || (aop != 2 && (bits op 63 56 != 0 || bits op 52 48 != 0)) ||
    (16 ≤ aop && bits op 191 128 != 0)

/-- Whether FETCH_FADDX names a format it may not use (R198, Table 7-9). -/
def State.faddFormat (s : State) (op : Nat) : Status :=
  if op % 256 != 2 then .ok
  else
    let f := s.fmt (bits op 52 48)
    if f.kind == 0 || f.kind == 4 || f.kind == 5 then .faultFormat
    else if bits op 191 128 / 2 ^ f.width != 0 then .malformed
    else .ok

/-- Whether the sender of a session is in the device set a sealed extent names (09 R265). -/
def State.inSet (s : State) (e : Extent) (session : Nat) : Bool :=
  match s.ten.links.find session with
  | some l => (s.ten.sets.findD (e.tenant * 65536 + bits e.desc 175 160) []).contains l.identity
  | none => false

/-- Whether an address space serves a session's requests (09 Table 9-8 rows 4 and 5). -/
def State.asidOk (s : State) (asid session : Nat) : Bool :=
  match s.spaceLive asid, s.ten.links.find session with
  | some a, some l => a.tenant == l.tenant
  | some _, none => true
  | none, _ => false

/-- Whether a request came over a port in KFP-2 mode, or in a KFP-2 packet: then it reaches no common and no versioned extent (00
R3, 13 R378). -/
def State.kfp2 (s : State) (p : Packet) : Bool := p.hdrVer == 2 || (s.port p.port).mode != 0

/-- Whether an extent is a common or versioned (00 R3). -/
def State.sharedExt (s : State) (e : Nat) : Bool := (s.commonOf e).isSome || (s.pool.extents.find e).any fun v => bit v.desc 7

/-- A line request or atomic runs (07 R198, Table 7-7). -/
def State.runLine (s : State) (r : Req) : State :=
  let p := r.p
  let atomic := r.opcode == 0x28
  let op := if atomic then leNat (p.payload.take 32) else operandOf p
  let asid := bits op 35 24
  let bad := if atomic then atomicBad op p.address
    else p.address % 256 != 0 || bits op 63 48 != 0 || bits op 47 36 != 0 || bits op 23 0 != 0
  if !s.asidOk asid p.session then s.complete r .denied
  else if bad || s.faddFormat op == .malformed then s.complete r .malformed
  else
    match s.locate asid p.address with
    | .revoked => s.complete r .faultRevoked
    | .absent => s.complete r .faultUnmapped
    | .pop _ => s.complete r .faultRange
    | .hole _ => s.complete r .faultRange
    | .ext e page =>
      let s := s.lookup (144 + p.port / 4) asid p.address fun _ => none
      if s.kfp2 p && s.sharedExt e then s.complete r .unsupported else
      match s.pool.extents.find e, s.commonOf e with
      | some v, some (c, m) =>
        if m.state != .enabled then s.complete r .faultRange
        else if extSealed v && r.opcode != 0x23 && !s.inSet v p.session then (s.chargeLink p.session).complete r .denied
        else if s.faddFormat op == .faultFormat then s.complete r .faultFormat
        else
          let h := c * 2 ^ 28 + page * 256 + p.address % 65536 / 256
          match s.com.trans.find h with
          | some t => if 64 ≤ t.waiting.length then s.complete r .busyRetry else s.lineArrive h (.request r)
          | none => s.lineArrive h (.request r)
      | _, _ => s.complete r .faultRange

/-! Accesses that do not cache (R201). -/

/-- How an access that does not cache stands to the lines that it touches. -/
inductive Guarded where
  | go
  | waits
  | full      -- 64 wait for one of them already (R197)
  deriving DecidableEq, Repr

/-- The lines of commons that bytes of extents lie in, and whether any of them is written. -/
def State.linesOf (s : State) (l : List (Nat × Nat × Nat × Bool)) : Tbl Bool :=
  l.foldl (fun (t : Tbl Bool) x =>
    match s.commonOf x.1 with
    | none => t
    | some (c, _) =>
      if x.2.2.1 == 0 then t
      else
        let lo := x.2.1 / 256
        (List.range ((x.2.1 + x.2.2.1 - 1) / 256 + 1 - lo)).foldl (fun t i =>
          let h := c * 2 ^ 28 + lo + i
          t.put h (t.findD h false || x.2.2.2)) t) []

/-- Whether a line is not yet at hand for an access: another transaction is there, or it has holders to ask. -/
def State.lineBusy (s : State) (a : Access) (h : Nat) (write : Bool) : Bool :=
  match s.com.trans.find h with
  | some t => !(t.job == .access a true && t.ready) && !(t.job == .access a false && t.ready && !write)
  | none => match s.com.dir.find h with
    | some e => write || owned e
    | none => false

/-- An access queues for a line; its turn to read becomes one to write where it needs that. -/
def State.lineAccess (s : State) (a : Access) (h : Nat) (write : Bool) : State :=
  match s.com.trans.find h with
  | none => s.lineArrive h (.access a write)
  | some t =>
    if t.job.isAccess a then
      if write && t.job == .access a false && t.ready then
        (s.putTrans h { t with job := .access a true, ready := false, asked := false, data := none, ownerData := false }).lineGo h
      else s
    else if t.waiting.any (·.isAccess a) then
      if write then s.putTrans h { t with waiting := t.waiting.map fun j => if j.isAccess a then .access a true else j } else s
    else s.lineArrive h (.access a write)

/-- Bytes of extents (extent, offset, length, written) that an access without caching touches: where a line of a common among them is
not at hand, the access queues for all of them together, and holds each from its turn on until it has run (R197, R201). -/
def State.comGuard (s : State) (a : Access) (l : List (Nat × Nat × Nat × Bool)) : Guarded × State :=
  let lines := s.linesOf l
  if !lines.any fun x => s.lineBusy a x.1 x.2 then (.go, s)
  else
    let mine (t : Trans) : Bool := t.job.isAccess a || t.waiting.any (·.isAccess a)
    if lines.any fun x => (s.com.trans.find x.1).any fun t => !mine t && 64 ≤ t.waiting.length then (.full, s)
    else (.waits, lines.foldl (fun s x => s.lineAccess a x.1 x.2) s)

/-- Bytes of an extent with the owners' data that an access has taken laid over them (R201). -/
def State.overlay (s : State) (a : Access) (ext off : Nat) (b : List Byte) : List Byte :=
  match s.commonOf ext with
  | none => b
  | some (c, _) =>
    s.com.got.foldl (fun b g =>
      let at' := lineIndex g.2.1 * 256
      let lo := max off at'
      let hi := min (off + b.length) (at' + 256)
      if g.1 == a && lineCommon g.2.1 == c && lo < hi then
        b.take (lo - off) ++ slice g.2.2 (lo - at') (hi - lo) ++ b.drop (hi - off)
      else b) b

/-- An access has run and keeps no owners' data. -/
def State.dropGot (s : State) (a : Access) : State := { s with com.got := s.com.got.filter fun g => g.1 != a }

/-! Ending a common. -/

/-- Every entry of a common is taken back by jobs of one kind (R187, R210). -/
def State.sweepCommon (s : State) (c : Nat) (job : LineJob) : State :=
  ((s.com.dir.filter fun e => lineCommon e.1 == c).map (·.1)).foldl (fun s h => s.lineArrive h job) s

/-- Entries of commons that are ending, where nothing on their line takes them back yet: a request accepted before makes one
after the sweep (R187, R210). -/
def State.sweepLate (s : State) : State :=
  let ends := (s.com.commons.filter fun c => c.2.state == .ending).map (·.1)
  if ends.isEmpty then s
  else
    (s.com.dir.filter fun e => ends.contains (lineCommon e.1)).foldl (fun s e =>
      let job : LineJob := if s.lineRevoked e.1 then .drop else .delete
      let due : Bool := (s.com.trans.find e.1).any fun t => (t.job :: t.waiting).any fun j => j == .drop || j == .delete
      if due then s else s.lineArrive e.1 job) s

/-- Whether a common has neither an entry nor a transaction left. -/
def State.commonClear (s : State) (c : Nat) : Bool :=
  !(s.com.dir.any fun e => lineCommon e.1 == c) && !(s.com.trans.any fun t => lineCommon t.1 == c)

/-- Whether an access still waits for something. -/
def State.accessWaits (s : State) (a : Access) : Bool :=
  !s.linesReady a || s.todo.contains (.run a) || (s.pool.checkouts.any fun c => c.2.waiting.contains a) ||
    (s.pool.fetches.any fun f => f.2.waiting.contains a) || (s.stk.waiting.any fun w => w.2.contains a) ||
    s.pool.spaces.any fun x => x.2.growing.any fun g => g.2.waiting.any fun w => w.1 == a

/-- Accesses that have run give up the lines that they hold (R197). -/
def State.releaseLines (s : State) : State :=
  (s.com.trans.filter (·.2.ready)).foldl (fun s x => match x.2.job with
    | .access a _ => if s.accessWaits a then s else (s.putTrans x.1 { x.2 with ready := false }).lineNext x.1
    | _ => s) s

/-- A common that is ending goes once its last entry is gone, and its command completes (R187). -/
def State.commonEnd (s : State) : State :=
  let s := s.releaseLines.sweepLate
  s.com.commons.foldl (fun s c =>
    if c.2.state == .ending && s.commonClear c.1 then
      let s := (s.delCommon c.1).sendMeta (.noCommon c.1)
      match c.2.cmd with
      | some x => s.respondOk x
      | none => s
    else s) s

/-! Commands. -/

/-- COMMON_CREATE (R185). -/
def bodyCommonCreate : CcpBody := fun c s =>
  match cyclicFree (fun n => s.com.commons.has n) s.ctl.lastCommon 0 255 with
  | none => refuse s ⟨.busyRetry, 0x0201⟩
  | some n =>
    let s := { s with ctl.lastCommon := some n }.putCommon n { tenant := c.tenant, desc := c.block }
    okBytes (s.sendMeta (.common n c.tenant c.block 1)) (leBytes (bits c.block 127 64) 8 ++ leBytes n 8)

/-- COMMON_ENABLE (R186, Table 7-2). -/
def bodyCommonEnable : CcpBody := fun c s =>
  let n := c.object
  match s.com.commons.find n with
  | none => if 256 ≤ n then refuse s rObject else refuse s rNoObject
  | some m =>
    if m.tenant != c.tenant then refuse s rNoObject
    else
      let ext := s.pool.extents.find (comExtent m)
      let has (p : Extent → Bool) : Bool := (ext.map p).getD false
      let used := sumOf (s.com.commons.map fun x =>
        if x.2.state == .enabled then ((s.pool.extents.find (comExtent x.2)).map extCount).getD 0 else 0)
      let rows : List (Bool × RClass) :=
        [ (bits m.desc 3 0 != 3, .range),
          (!has (·.tenant == c.tenant), .policy),
          (!has (·.state == .enabled), .dependency),
          (has (fun e => extVersioned e || extCheckout e) || (s.commonOf (comExtent m)).isSome, .conflict),
          (32768 < used + ((ext.map extCount).getD 0), .resource),
          (s.isolated c.tenant && !s.com.part.has c.tenant, .dependency),
          (m.state != .disabled, .state) ]
      match checkTable rows 7 with
      | some r => refuse s r
      | none => okEmpty ((s.putCommon n { m with state := .enabled }).sendMeta (.common n c.tenant m.desc 2))

/-- COMMON_DELETE (R187; of a common that is ending, log 204). -/
def bodyCommonDelete : CcpBody := fun c s =>
  let n := c.object
  match s.com.commons.find n with
  | none => if 256 ≤ n then refuse s rObject else refuse s rNoObject
  | some m =>
    if m.tenant != c.tenant then refuse s rNoObject
    else match m.state with
      | .disabled => okEmpty ((s.delCommon n).sendMeta (.noCommon n))
      | .ending => refuse s rBusy
      | .enabled =>
        let s := s.putCommon n { m with state := .ending, cmd := some c.ref }
        heldCmd (s.sweepCommon n .delete)

/-- DIR_PARTITION (R196); a partition is the unit's own (log 202). -/
def bodyDirPartition : CcpBody := fun c s =>
  let t := bits c.block 15 0
  let ways := bits c.block 31 16
  checked s
    [ ((s.tenantOf t).isNone, rNoObject),
      (s.com.part.any fun x => x.1 != t && Nat.land x.2 ways != 0, ⟨.faultRange, 0x0304⟩),
      (s.com.commons.any fun x => x.2.tenant == t && x.2.state == .enabled, rState) ]
    (okEmpty { s with com.part := if ways == 0 then s.com.part.del t else s.com.part.put t ways })

end Sys2Proof.Machine
end

