-- ==== Sys2Proof/Machine/Extents.lean ====
section
/-! DEFINITION. Extents.lean: extents (06 R153 to R161), page requests (R162 to R167), checkout and recall (R168 to R171),
versions (R172 to R180) and revocation (R181 to R184), with the end of a range invalidation (08 R230, R231). -/

namespace Sys2Proof.Machine

/-! Work that waits. -/

/-- A checkout of a page ends, and the accesses that wait run in arrival order (Table 6-10). -/
def State.endCheckout (s : State) (key : Nat) (reverted : Bool) : State :=
  match s.pool.checkouts.find key with
  | none => s
  | some c =>
    let s := (s.delCheckout key).sendMeta (.checkin (key / 2 ^ 25) (key % 2 ^ 25) c.node c.gen reverted)
    { s with pool.past := s.pool.past.put key ⟨c.node, c.gen, reverted⟩ }.later (c.waiting.map .run)

/-- A checkout reverts: the page takes the lost-update mark (R170). -/
def State.revert (s : State) (key : Nat) : State :=
  match s.pool.extents.find (key / 2 ^ 25), s.pool.checkouts.has key with
  | some e, true =>
    let s := s.revertPage (s.framePage (key / 2 ^ 25) (key % 2 ^ 25) none)
    let s := s.putExtent (key / 2 ^ 25) { e with lostPages := sat32 e.lostPages 1 }
    (s.countTen e.tenant 5).endCheckout key true
  | _, _ => s

/-- A holder is lost: its checkouts revert (R170). -/
def State.revertNode (s : State) (n : Nat) : State :=
  (s.pool.checkouts.keysWhere fun c => c.node == n).foldl State.revert s

/-- An access to a page that another node holds waits, and the holder is asked to give it up (Table 6-10). None: 64
accesses wait already. -/
def State.awaitPage (s : State) (key : Nat) (who : Access) : Option State :=
  match s.pool.checkouts.find key with
  | none => some s
  | some c =>
    if 64 ≤ c.waiting.length && c.recalling then none
    else if c.recalling then some (s.putCheckout key { c with waiting := c.waiting ++ [who] })
    else
      let e := key / 2 ^ 25
      let due := s.dev.tick + ((s.pool.extents.find e).map extRecall).getD 4096
      let s := (s.putCheckout key { c with recalling := true, due, waiting := c.waiting ++ [who] }).sendMeta
        (.checkout e (key % 2 ^ 25) c.node c.gen true)
      let t := ((s.pool.extents.find e).map (·.tenant)).getD 0
      match s.linkTo c.node t with
      | some (id, _) => some (s.issue (.recall e (key % 2 ^ 25)) 0x34 c.node id key []).2
      | none => some s

/-! Versions. -/

def vhandleOf (op : Nat) : Nat := bits op 63 48
def versionWord (h v : Nat) : Nat := h * 2 ^ 48 + v

/-- Live versions of an extent (06 Versions): the current one, the draft, those with readers. -/
def State.liveVersions (s : State) (ext : Nat) : List Nat :=
  match s.pool.extents.find ext with
  | none => []
  | some e =>
    e.versions.filterMap fun v =>
      let readers := s.pool.handles.any fun h => h.2.extent == ext && h.2.version == v.1 && h.2.st == .reader
      let draft := (e.draft.map fun d => d.number == v.1).getD false
      if v.1 == e.current || draft || readers || 0 < v.2.streams then some v.1 else none

/-- Frames a pending range invalidation still covers (R177). -/
def State.framesPending (s : State) : List Nat := s.pool.invals.flatMap fun i => match i.2.purpose with
  | .frames _ l => l
  | _ => []

/-- Versions that are no longer live are retired, and their frames that no live version uses are released once a range
invalidation is acknowledged (R177). -/
def State.retireVersions (s : State) (ext : Nat) : State :=
  match s.pool.extents.find ext with
  | none => s
  | some e =>
    let live := s.liveVersions ext
    let kept := e.versions.keep fun v _ => live.contains v
    if kept.length == e.versions.length then s
    else
      let inUse := kept.flatMap fun v => v.2.frames.map (·.2)
      let gone := (e.versions.flatMap fun v => v.2.frames.map (·.2)).foldl
        (fun l f => if inUse.contains f then l else insertNum l f) []
      let s := s.putExtent ext { e with versions := kept }
      if gone.isEmpty then s
      else s.invalidate (.phys (gone.foldl (fun l f => insertNum l (pageGran f)) [])) (.frames ext gone)

/-- A frame for a page of a draft, in the stack of the page's frame in the base (R175): a free frame of the extent's
version granules there, or of a new one. None: the reservation or the stack is spent. -/
def State.takeFrame (s : State) (ext stack : Nat) : Option (Nat × State) :=
  match s.pool.extents.find ext with
  | none => none
  | some e =>
    let used := (e.versions.flatMap fun v => v.2.frames.map (·.2)) ++ s.framesPending
    let here := (e.verGrans.filter fun g => granStack g == stack).flatMap fun g => (List.range 32).map fun i => 32 * g + i
    match here.find? fun f => !used.contains f with
    | some f => some (f, s)
    | none =>
      if s.reserveOf e.tenant ≤ s.charge e.tenant then none
      else (s.freeInStack stack).map fun g =>
        let s := s.putGran g { st := .allocated, owner := e.tenant, use := .version ext }
        (32 * g, s.putExtent ext { e with verGrans := e.verGrans ++ [g] })

/-- The frame that a write to a page of the open draft goes to; a partial write copies the page first (R175, 08 R220). -/
def State.draftFrame (s : State) (ext page : Nat) (whole : Bool) : Option (Nat × State) :=
  match s.pool.extents.find ext with
  | none => none
  | some e =>
    match e.draft with
    | none => none
    | some d =>
      let base := s.framePage ext page (some d.base)
      let cur := s.framePage ext page (some d.number)
      if cur != base then some (cur, s)
      else
        (s.takeFrame ext (granStack (pageGran base))).map fun x =>
          let s := if whole then x.2 else x.2.copyPage base x.1
          match s.pool.extents.find ext with
          | some e =>
            (x.1, (s.putExtent ext { e with
              versions := e.versions.adjust d.number fun v => { v with frames := v.frames.put page x.1 } }).redraft ext page d.number x.1)
          | none => (x.1, s)

/-- A new handle in cyclic order (R172). A handle is in use while it is a reader or an open draft; one whose draft has
ended keeps its outcome until it is allocated again (R173). -/
def State.newHandle (s : State) (h : Handle) : Option (Nat × State) :=
  let busy (n : Nat) : Bool := match s.pool.handles.find n with
    | some x => x.st == .reader || x.st == .draft
    | none => false
  (cyclicFree busy s.pool.lastHandle 1 65535).map fun n =>
    (n, { s with pool.lastHandle := some n, pool.oldHandles := s.pool.oldHandles && n != 65535 }.putHandle n h)

/-- Whether a handle that the unit does not know is one of the other unit's, from before a takeover: it lies beyond the handles
allocated here since (R172, R180). -/
def State.oldHandle (s : State) (vh : Nat) : Bool := s.pool.oldHandles && s.pool.lastHandle.getD 0 < vh

/-- The version that a reader of an extent with a handle sees; none where it may not use the handle (R172, R174). -/
def State.readVersion (s : State) (ext : Nat) (e : Extent) (vh node : Nat) : Option (Option Nat) :=
  if vh == 0 then some none
  else match s.pool.handles.find vh with
    | some h =>
      if h.extent != ext then none
      else match h.st with
        | .reader => if h.node == node then some (some h.version) else none
        | .draft => if e.draft.isSome then some (some h.version) else none
        | _ => none
    | none => none

/-- Page stores to a draft that have passed the hedge check and wait: behind a fence, in a hub queue, for the standby, or for a held pseudo-channel
(R176), by source and tag. -/
def State.storesOpen (s : State) (handle : Nat) : List (Nat × Nat) :=
  let fenced := s.fab.held.map (·.r) ++ s.sch.hubs.flatMap fun q => q.2.map (·.r)
  let mirrored := s.pair.mirror.filterMap fun x => match x.2.2 with
    | .request r _ _ _ _ => some r
    | _ => none
  let held := s.stk.waiting.flatMap fun w => w.2.filterMap fun a => match a with
    | .request r => some r
    | _ => none
  ((fenced ++ mirrored ++ held).filter fun r => r.opcode == 0x11 && vhandleOf (leNat (r.p.payload.take 16)) == handle).map
    fun r => (r.p.src, r.p.tag)

/-- Whether writes to a draft from before its commit point are still under way (R176). -/
def State.draftBusy (s : State) (ext : Nat) : Bool :=
  (s.str.streams.any fun v =>
    (v.2.bindings.any fun b => b.extent == ext && b.draft.isSome) &&
      v.2.tiles.any fun t => t.2.st == .writing || t.2.st == .mirror) ||
  match (s.pool.extents.find ext).bind (·.draft) with
  | some d => let l := s.storesOpen d.handle; d.owed.any l.contains
  | none => false

/-- A draft becomes the current version (R176, R177); VERSION_COMMIT of a mirrored extent completes once the standby has the record
(R180, 16 R434). -/
def State.commitDraft (s : State) (ext : Nat) : State :=
  match s.pool.extents.find ext with
  | none => s
  | some e =>
    match e.draft with
    | some d =>
      match d.commit with
      | some r =>
        let s := s.putExtent ext { e with current := d.number, draft := none }
        let s := match s.pool.handles.find d.handle with
          | some h => s.putHandle d.handle { h with st := .committed }
          | none => s
        let w := versionWord d.handle d.number
        let body := cookieOf r.p.payload ++ leBytes w 8
        let m : PairRec := .extent ext e.tenant e.desc 2 d.number
        if s.isMirrored ext then
          let x := s.sendMetaFor m (.request r 0 (some w) body 0)
          let s := x.2.retireVersions ext
          if x.1 then s else s.complete r .ok (some w) (some body)
        else ((s.sendMeta m).retireVersions ext).complete r .ok (some w) (some body)
      | none => s
    | none => s

/-! Page requests (R162 to R168). -/

/-- A page request's completion with data: cookie, sector mask, bytes (R163). -/
def pageBody (p : Packet) (mask data : List Byte) : List Byte := cookieOf p.payload ++ mask ++ data

def pageSectors (dp : Nat) : List Nat := (List.range 256).map fun i => dp * 256 + i

/-- A page read for a request, laid over with the data of owners of its lines; it waits for a mirror copy where a sector
needs one (R165, 11 R302, 07 R201). -/
def State.fetchPage (s : State) (r : Req) (ext page dp : Nat) (held : Option Status) : State :=
  let a := Access.request r
  match s.awaitStack a (pageSectors dp) with
  | (true, s) => s
  | (false, _) =>
  let wants := s.mirrorWants (pageSectors dp)
  match wants with
  | _ :: _ =>
    let s := wants.foldl (fun s w => s.fetchMirror w.1 w.2.1 w.2.2) s
    { s with pool.fetches := s.pool.fetches.each fun n f =>
        if (wants.map (·.1)).contains n && !f.waiting.contains a then { f with waiting := f.waiting ++ [a] } else f }
  | [] =>
    let q := s.readPage dp
    let data := s.overlay a ext (page * 65536) q.2.2.1
    let st := match held with
      | some x => if q.1 == .ok || q.1 == .okLostUpdate then x else q.1
      | none => q.1
    let opened (c : Checkout) : Checkout := if c.opening == some r.p.tag && c.node == r.p.src then { c with opening := none } else c
    let q := (q.1, q.2.1, q.2.2.1, { q.2.2.2 with pool.checkouts := q.2.2.2.pool.checkouts.adjust (ext * 2 ^ 25 + page) opened })
    (q.2.2.2.dropGot a).complete r st none (some (pageBody r.p q.2.1 data))

/-- A page written for a request; it completes when both units hold it (R165, 16 R434). -/
def State.storePage (s : State) (r : Req) (ext page dp : Nat) : State :=
  let data := slice r.p.payload 16 65536
  let x := s.store (dp * 65536) data
  let s := x.2.dropGot (.request r)
  if s.mirrorsTo ext then
    s.mirrorOut ext (cutSectors 256 (page * 65536) data) []
      [⟨r.p.src, r.p.ngen, r.p.tag, r.p.tgen, r.opcode, 0, none⟩] (.request r 0 none (cookieOf r.p.payload) 0)
  else
    let s := if s.copiesTo ext (page * 65536) then s.mirrorOut ext (cutSectors 256 (page * 65536) data) [] [] .none else s
    s.complete r .ok none (some (cookieOf r.p.payload))

/-- A page request on a page that is not held by another node (Table 6-10). -/
def State.execPage (s : State) (r : Req) (ext page : Nat) (e : Extent) (ver : Option Nat) : State :=
  let cookie := some (cookieOf r.p.payload)
  let guard (write : Bool) (go : State → State) : State :=
    match s.comGuard (.request r) [(ext, page * 65536, 65536, write)] with
    | (.go, s) => go s
    | (.waits, s) => s
    | (.full, s) => s.complete r .busyRetry none cookie
  if r.opcode == 0x10 then guard false fun s => s.fetchPage r ext page (s.framePage ext page ver) none
  else if extVersioned e then
    match s.draftFrame ext page true with
    | some (f, s) => s.storePage r ext page f
    | none => s.complete r .busyRetry none cookie
  else guard true fun s => s.storePage r ext page (s.framePage ext page none)

/-- A page request meets the checkout state of its page (Table 6-10). -/
def State.checkoutStep (s : State) (r : Req) (ext page : Nat) (e : Extent) (ver : Option Nat) : State :=
  let key := ext * 2 ^ 25 + page
  let x := r.p.src
  let cookie := some (cookieOf r.p.payload)
  let full (c : Checkout) : Bool := c.recalling && 64 ≤ c.waiting.length
  let hold := s.awaitStack (.request r) (pageSectors (s.framePage ext page ver))
  if r.opcode == 0x12 && 262144 ≤ s.pool.checkouts.length then s.complete r .busyRetry none cookie
  else if (s.pool.checkouts.find key).any fun c => full c && !(r.opcode == 0x13 && c.node == x && c.gen == r.p.ngen) then
    s.complete r .busyRetry none cookie
  else if hold.1 then hold.2
  else match s.pool.checkouts.find key with
  | none =>
    if r.opcode == 0x12 then
        let s := s.putCheckout key { node := x, gen := r.p.ngen, opening := some r.p.tag }
        let s := { s with pool.past := s.pool.past.del key }.sendMeta (.checkout ext page x r.p.ngen false)
        s.invalidate (.page ext page) (.checkout ext page r)
    else if r.opcode == 0x13 then
      match s.pool.past.find key with
      | some c =>
        if c.node == x && c.gen == r.p.ngen then
          s.complete r (if c.reverted then .aborted else .alreadyComplete) none cookie
        else s.complete r .faultRange none cookie
      | none => s.complete r .faultRange none cookie
    else s.execPage r ext page e ver
  | some c =>
    if c.node == x && c.gen == r.p.ngen then
      if r.opcode == 0x12 then
        s.fetchPage r ext page (s.framePage ext page none) (if c.opening == some r.p.tag then none else some .alreadyComplete)
      else if r.opcode == 0x13 then
        let clean := bit (operandOf r.p) 0
        if clean then (s.endCheckout key false).complete r .ok none cookie
        else (s.endCheckout key false).storePage r ext page (s.framePage ext page none)
      else s.execPage r ext page e ver
    else if r.opcode == 0x13 then s.complete r .faultRange none cookie
    else match s.awaitPage key (.request r) with
      | some s => s
      | none => s.complete r .busyRetry none cookie

/-- A page request runs: the rows of Table 6-9 in order (R164). -/
def State.runPage (s : State) (r : Req) : State :=
  let p := r.p
  let op := operandOf p
  let asid := bits op 35 24
  let vh := vhandleOf op
  let clean := bit op 0
  let cookie := some (cookieOf p.payload)
  let done (s : State) (st : Status) : State := s.complete r st none cookie
  let isIn := r.opcode == 0x13
  let isOut := r.opcode == 0x12
  let isStore := r.opcode == 0x11
  let withData := isStore || (isIn && !clean)
  if !s.asidOk asid p.session then done s .denied
  else if p.payload.length != (if withData then 65552 else 16) || p.address % 65536 != 0 || (clean && !isIn) ||
      bits op 47 36 != 0 || bits op 23 1 != 0 then done s .malformed
  else
    match s.locate asid p.address with
    | .revoked => done s .faultRevoked
    | .absent => done s .faultUnmapped
    | .pop dp =>
      let s := s.lookup (144 + p.port / 4) asid p.address fun _ => none
      let hold := s.awaitStack (.request r) (pageSectors dp)
      if vh != 0 then done s .faultVersion
      else if isOut || isIn then done s .unsupported
      else if hold.1 then hold.2
      else if isStore then s.storePage r 65536 0 dp
      else s.fetchPage r 65536 0 dp none
    | .hole v =>
      if vh != 0 then done s .faultVersion
      else if isOut || isIn then done s .unsupported
      else if isStore then
        match s.populate asid v (.request r) with
        | (some st, s) => done s st
        | (none, s) => s
      else s.complete r .ok none (some (pageBody p (List.replicate 32 0) (List.replicate 65536 0)))
    | .ext e page =>
      match s.pool.extents.find e with
      | none => done s .faultUnmapped
      | some v =>
        let versioned := extVersioned v
        let early (d : Draft) : Bool := d.commit.isNone || d.owed.contains (p.src, p.tag)
        let s := s.lookup (144 + p.port / 4) asid p.address fun x => if x == e then (s.readVersion e v vh p.src).getD none else none
        if s.kfp2 p && s.sharedExt e then done s .unsupported
        else if extSealed v && (r.opcode == 0x10 || isOut) && !s.inSet v p.session then done (s.chargeLink p.session) .denied
        else if (isOut || isIn) && (versioned || vh != 0) then done s .faultVersion
        else if !(isOut || isIn) && ((vh != 0 && !versioned) || (versioned && (s.readVersion e v vh p.src).isNone)) then
          done s .faultVersion
        else if isStore && versioned && !((s.pool.handles.find vh).elim false fun h =>
            h.st == .draft && (v.draft.elim false early)) then done s .faultVersion
        else if (isOut || isIn) && !extCheckout v then done s .unsupported
        else s.checkoutStep r e page v ((s.readVersion e v vh p.src).getD none)

/-! Version requests (R173, Table 6-11). -/

/-- A version request runs. VERSION_CLOSE of the handle of an ended draft is FAULT_VERSION (log 203). -/
def State.runVersion (s : State) (r : Req) : State :=
  let p := r.p
  let op := operandOf p
  let asid := bits op 35 24
  let vh := vhandleOf op
  let cookie := cookieOf p.payload
  let done (s : State) (st : Status) : State := s.complete r st none (some cookie)
  let word (s : State) (st : Status) (w : Nat) : State := s.complete r st (some w) (some (cookie ++ leBytes w 8))
  let opens := r.opcode == 0x18 || r.opcode == 0x19
  if !s.asidOk asid p.session then done s .denied
  else if p.payload.length != 16 || p.address % 65536 != 0 || bits op 47 36 != 0 || bits op 23 0 != 0 ||
      (opens && vh != 0) || (!opens && p.address != 0) then done s .malformed
  else if opens then
    match s.locate asid p.address with
    | .revoked => done s .faultRevoked
    | .absent => done s .faultUnmapped
    | .ext e _ =>
      let s := s.lookup (144 + p.port / 4) asid p.address fun _ => none
      match s.pool.extents.find e with
      | none => done s .faultUnmapped
      | some v =>
        if s.kfp2 p && s.sharedExt e then done s .unsupported
        else if !extVersioned v then done s .faultVersion
        else if r.opcode == 0x18 then
          match s.newHandle { extent := e, node := p.src, version := v.current, st := .reader } with
          | none => done s .busyRetry
          | some (h, s) => word s .ok (versionWord h v.current)
        else
          match v.draft with
          | some d => word s .alreadyComplete (versionWord d.handle d.number)
          | none =>
            let n := (v.current + 1) % 2 ^ 32
            if 8 ≤ (s.liveVersions e).length then done s .busyRetry
            else
              match s.newHandle { extent := e, node := p.src, version := n, st := .draft } with
              | none => done s .busyRetry
              | some (h, s) =>
                let frames := ((v.versions.find v.current).map (·.frames)).getD []
                let s := s.putExtent e
                  { v with versions := v.versions.put n { frames }, draft := some ⟨h, v.current, n, none, []⟩ }
                word s .ok (versionWord h n)
    | _ => done s .faultVersion
  else
    match s.pool.handles.find vh with
    | none =>
      if r.opcode == 0x1A && !s.oldHandle vh then done s .alreadyComplete else done s .faultVersion
    | some h =>
      let maps := s.pool.maps.any fun m => m.asid == asid && m.extent == h.extent && !m.removing
      match s.pool.extents.find h.extent with
      | none => if r.opcode == 0x1A then done s .alreadyComplete else done s .faultVersion
      | some v =>
        if v.state == .revoking then done s .faultRevoked
        else if !maps then done s .faultUnmapped
        else if r.opcode == 0x1A then
          if h.st != .reader || h.node != p.src then done s .faultVersion
          else done ((s.delHandle vh).retireVersions h.extent) .ok
        else
          let w := versionWord vh h.version
          match h.st with
          | .reader => done s .faultVersion
          | .committed => if r.opcode == 0x1B then word s .alreadyComplete w else done s .alreadyComplete
          | .discarded => if r.opcode == 0x1B then done s .aborted else done s .alreadyComplete
          | .draft =>
            match v.draft with
            | none => done s .faultVersion
            | some d =>
              if d.commit.isSome then
                (if r.opcode == 0x1B then word s .alreadyComplete w else done s .alreadyComplete)
              else if r.opcode == 0x1B then
                let s := s.putExtent h.extent { v with draft := some { d with commit := some r, owed := s.storesOpen vh } }
                if s.draftBusy h.extent then s else s.commitDraft h.extent
              else
                let s := (s.putHandle vh { h with st := .discarded }).putExtent h.extent { v with draft := none }
                let s := s.sendMeta (.extent h.extent v.tenant v.desc 2 v.current)
                done (s.retireVersions h.extent) .ok

/-! Revocation (R182). -/

/-- An extent is revoked: stage 1 begins, every checkout reverts, its common is taken back (R182, R210). -/
def State.beginRevoke (s : State) (ext : Nat) (cmd : Option CmdRef) : State :=
  match s.pool.extents.find ext with
  | none => s
  | some e =>
    let s := (s.putExtent ext { e with state := .revoking, cmd }).sendMeta (.extent ext e.tenant e.desc 3 e.current)
    let s := (s.pool.checkouts.keysWhere fun _ => true).foldl
      (fun s k => if k / 2 ^ 25 == ext then s.revert k else s) s
    s.later [.scratch]

/-- Stage 2 of a revocation: the range invalidation of every mapping, and the common's snoops (R182, R210). -/
def State.drainExtent (s : State) (ext : Nat) : State :=
  let s := s.invalidate (.mappings ext) (.revoke ext)
  match s.commonOf ext with
  | some (c, m) => (s.putCommon c { m with state := .ending }).sweepCommon c .drop
  | none => s

/-- Revocation is complete: the extent is FREE and its granules go to QUARANTINE (R182, R183). -/
def State.endRevoke (s : State) (ext : Nat) : State :=
  match s.pool.extents.find ext with
  | none => s
  | some e =>
    let s := match e.draft.bind (·.commit) with
      | some r => s.complete r .faultRevoked none (some (cookieOf r.p.payload))
      | none => s
    let s := (s.quarantine (e.grans ++ e.verGrans)).delExtent ext
    let s := { s with
      pool.maps := s.pool.maps.filter fun m => m.extent != ext
      pool.handles := s.pool.handles.keep fun _ h => h.extent != ext
      pool.past := s.pool.past.keep fun k _ => k / 2 ^ 25 != ext
      com.commons := s.com.commons.keep fun _ c => comExtent c != ext }
    s.sendMeta (.noExtent ext)

/-- Whether the end of a range invalidation must still wait: a common's snoops (R210). -/
def State.invalHeld (s : State) (i : Inval) : Bool :=
  match i.purpose with
  | .revoke e => match s.commonOf e with
    | some (c, _) => !s.commonClear c
    | none => false
  | _ => false

/-- A PAGE_CHECKOUT completes once no engine holds an unmarked translation (08 R221, R182). -/
def State.endCheckoutWait (s : State) (ext page : Nat) (r : Req) : State :=
  match s.pool.extents.find ext with
  | some e =>
    if e.state == .revoking then s.complete r .faultRevoked none (some (cookieOf r.p.payload))
    else s.fetchPage r ext page (s.framePage ext page none) none
  | none => s.complete r .faultRevoked none (some (cookieOf r.p.payload))

/-- Frames are free again, and a version granule none of whose frames is in use goes to QUARANTINE (R177). -/
def State.freeFrames (s : State) (ext : Nat) : State :=
  match s.pool.extents.find ext with
  | none => s
  | some e =>
    let used := (e.versions.flatMap fun v => v.2.frames.map (·.2)) ++ s.framesPending
    let idle := e.verGrans.filter fun g => !(used.any fun f => pageGran f == g)
    (s.putExtent ext { e with verGrans := e.verGrans.filter fun g => !idle.contains g }).quarantine idle

/-- What follows the last acknowledgement of a range invalidation, but for a migration's (08 R230, R231). -/
def State.invalDone (s : State) (p : InvalFor) : State :=
  match p with
  | .revoke e => s.endRevoke e
  | .unmap asid va =>
    match s.pool.maps.find? fun m => m.asid == asid && m.vaBase == va with
    | some m =>
      let s := s.dropMap asid va
      match m.cmd with
      | some c => s.respondOk c
      | none => s
    | none => s
  | .spaceMap asid va => s.dropMap asid va
  | .spaceGrans _ l => s.quarantine l
  | .dropped l => l.foldl (fun s g => (s.zeroGran g).setGran g { st := .free }) s
  | .frames e _ => s.freeFrames e
  | .checkout e pg r => s.endCheckoutWait e pg r
  | .migrate _ _ => s   -- Ranks.lean

/-- The granule that accesses to one reach: its copy, once a migration has copied it (11 R318). -/
def State.granCopy (s : State) (g : Nat) : Nat :=
  (s.pool.invals.findSome? fun x => match x.2.purpose with
    | .migrate src dst => if src == g then some dst else none
    | _ => none).getD g

/-- A granule in QUARANTINE, or one that waits for its fill, is zeroed and FREE (R184, 10 R296); one that has been copied is zeroed
at its destination (11 R318). -/
def State.granuleZeroed (s : State) (g : Nat) : State :=
  let h := s.granHome g
  let x := s.gran h
  if x.st == .quarantine || x.st == .unfilled then
    let s := s.zeroGran (s.granCopy h)
    (if s.granCopy h == h then s.setGran h { st := .free } else s.putGran h { st := .free }).later [.migrate]
  else s

/-! Commands. -/

/-- RESERVE_SET (R153). -/
def bodyReserveSet : CcpBody := fun c s =>
  let t := bits c.block 15 0
  let n := bits c.block 83 64
  let others := sumOf (s.ten.tenants.map fun x => if x.1 == t then 0 else x.2.reserve)
  match s.tenantOf t with
  | none => if t == 0 || 0xFFFF ≤ t then refuse s rObject else refuse s rNoObject
  | some x =>
    checked s
      [ (587776 < n, rRange), (s.capacity < others + n, ⟨.busyRetry, 0x0202⟩), (n < s.charge t, rState) ]
      (okEmpty ((s.putTenant t { x with reserve := n }).sendMeta (.reserve t n)))

/-- CAPACITY_QUERY (R155): each state's count and F for the operator; reservation, charge and QUARANTINE for a tenant.
Each number is a 64-bit word (log 29). A granule that waits for its fill is not FREE (10 R296) and counts with those that wait to
be zeroed (log 178). A granule that a migration is copied to counts by its source (11 R318). -/
def bodyCapacityQuery : CcpBody := fun c s =>
  let w (l : List Nat) : List Byte := l.flatMap fun n => leBytes n 8
  if c.isOp then
    okBytes s (w [s.granCount .metadata, s.granCount .fallow, s.granCount .free, s.granCount .allocated,
      s.granCount .quarantine + s.granCount .unfilled, s.granCount .retired, s.pool.fallowF])
  else
    let q := s.pool.grans.count fun x => x.owner == c.tenant && x.st == .quarantine && x.use != .test
    okBytes s (w [s.reserveOf c.tenant, s.charge c.tenant, q])

/-- EXTENT_CREATE (R156). -/
def bodyExtentCreate : CcpBody := fun c s =>
  match cyclicFree (fun n => s.pool.extents.has n) s.ctl.lastExtent 0 65535 with
  | none => refuse s ⟨.busyRetry, 0x0201⟩
  | some n =>
    let s := { s with ctl.lastExtent := some n }.putExtent n { tenant := c.tenant, desc := c.block }
    okNum (s.sendMeta (.extent n c.tenant c.block 1 0)) n

/-- Granules that stacks of a mask may still add to FREE: those of stacks that are not ready and have not failed training
(10 R289, R290). -/
def State.freeLater (s : State) (mask : Nat) : Nat :=
  sumOf ((List.range 64).map fun r =>
    if bit mask (r / 4) && !bit s.ready.stack (r / 4) && !(s.stack (r / 4)).failed && s.rankSt r == .inService then
      9216 - (if s.pool.metaRank.getD (r / 4) none == some (r % 4) then 128 else 0)
    else 0)

/-- Rows 1 to 6 of Table 6-5, and that the peer has the tenant's session open (R435). Granules that only a stack not yet ready
could give are refused with class dependency (10 R290, log 179). -/
def enableRows (e : Extent) (t : Nat) (s : State) : List (Bool × RClass) :=
  let d := e.desc
  let n := extCount e
  let mask := bits d 143 128
  let pm := bits d 13 12
  let set := bits d 175 160
  let sealed := extSealed e
  [ (n == 0 || 587776 < n || mask == 0 || pm == 3 || bits d 3 0 != 3 || (!sealed && set != 0) || (sealed && set == 0) ||
      (extVersioned e && (pm != 0 || extCheckout e)) || (pm == 2 && n % 512 != 0), .range),
    (s.reserveOf t < s.charge t + n, .resource),
    (s.freeIn mask < n, if s.freeIn mask + s.freeLater mask < n then .resource else .dependency),
    (bit d 8 && !(s.mirrors && s.pair.peerTen.contains t), .dependency),
    (sealed && !s.ten.sets.has (t * 65536 + set), .dependency),
    (e.state != .disabled, .state) ]

/-- Granules for an extent, placed by R158. -/
def State.place (s : State) (ext t mask pos : Nat) : Nat → List Nat × State
  | 0 => ([], s)
  | n + 1 =>
    match s.nextFree mask pos with
    | none => ([], s)
    | some g =>
      let s := s.putGran g { st := .allocated, owner := t, use := .extent ext }
      let r := State.place s ext t mask ((granStack g + 1) % 16) n
      (g :: r.1, r.2)

/-- An extent is ENABLED: its granules are placed (R158, R159). -/
def State.enableExtent (s : State) (n : Nat) (e : Extent) (version : Nat) : State :=
  let x := s.place n e.tenant (bits e.desc 143 128) (n % 16) (extCount e)
  x.2.putExtent n { e with
    state := .enabled, grans := x.1, lostPages := 0, current := version
    versions := if extVersioned e then [(version, {})] else [] }

/-- What EXTENT_ENABLE meets: the rows of Table 6-5 (R157). -/
def State.enableRefusal (s : State) (n t : Nat) : Except Refuse Extent :=
  match s.pool.extents.find n with
  | none => .error rState
  | some e =>
    if e.tenant != t then .error rState
    else match checkTable (enableRows e t s) 6 with
      | some r => .error r
      | none => .ok e

/-- EXTENT_ENABLE (R157 to R159). A mirrored extent is placed at the standby first (16 R435). -/
def bodyExtentEnable : CcpBody := fun c s =>
  let n := c.object
  match s.enableRefusal n c.tenant with
  | .error r => refuse s r
  | .ok e =>
    let m : PairRec := .extent n c.tenant e.desc 2 0
    if bit e.desc 8 then
      let x := s.pairSend (.place n c.ref) 0x71
      heldCmd (x.2.emit (.metaSent x.1 m))
    else okEmpty ((s.enableExtent n e 0).sendMeta m)

/-- The standby has answered for the placement of a mirrored extent (16 R435). -/
def State.placedThere (s : State) (n : Nat) (cmd : CmdRef) (st : Nat) : State :=
  match s.pool.extents.find n with
  | none => s.respondBad cmd .busyRetry
  | some e =>
    if st == 0 then match s.enableRefusal n e.tenant with
      | .ok e => (s.enableExtent n e 0).respondOk cmd
      | .error r => s.respond cmd ⟨r.status.code, r.reason, []⟩
    else if st == Status.busyRetry.code then s.respond cmd ⟨Status.busyRetry.code, reason .resource 2, []⟩
    else s.respond cmd ⟨Status.notReady.code, reason .dependency 0x84, []⟩

/-- EXTENT_DELETE (R160, R182). -/
def bodyExtentDelete : CcpBody := fun c s =>
  let n := c.object
  match s.pool.extents.find n with
  | none => refuse s rState
  | some e =>
    if e.tenant != c.tenant then refuse s rState
    else match e.state with
      | .revoking => refuse s rState
      | .disabled => okEmpty ((s.delExtent n).sendMeta (.noExtent n))
      | .enabled => heldCmd (s.beginRevoke n (some c.ref))

/-- EXTENT_RECLAIM (R160, R181). -/
def bodyExtentReclaim : CcpBody := fun c s =>
  let n := c.object
  match s.pool.extents.find n with
  | none => refuse s rState
  | some e =>
    if e.state != .enabled then refuse s rState
    else
      let s := s.beginRevoke n (some c.ref)
      heldCmd (s.recTen e.tenant 0x0203 1 n 0 0)

def ExtSt.num : ExtSt → Nat
  | .disabled => 1
  | .enabled => 2
  | .revoking => 3

/-- The extent record (Table 6-7). -/
def State.extRecord (s : State) (n : Nat) (e : Extent) : Nat :=
  let outs := s.pool.checkouts.filter fun c => c.1 / 2 ^ 25 == n
  let v := extVersioned e && e.state != .disabled
  e.verGrans.length * 2 ^ 192 + (if v then e.current else 0) * 2 ^ 160 + (if v then (s.liveVersions n).length else 0) * 2 ^ 156 +
    outs.length * 2 ^ 96 + e.lostPages * 2 ^ 64 + e.grans.length * 2 ^ 44 + e.state.num * 2 ^ 16 + n

/-- EXTENT_QUERY (R161). -/
def bodyExtentQuery : CcpBody := fun c s =>
  let n := c.object
  match s.pool.extents.find n with
  | none => refuse s rNoObject
  | some e =>
    if !c.isOp && e.tenant != c.tenant then refuse s rForeign
    else
      let counts := (List.range 16).flatMap fun k => leBytes ((e.grans.filter fun g => granStack g == k).length) 4
      okBytes s (extCookie e ++ leBytes (s.extRecord n e) 32 ++ counts)

end Sys2Proof.Machine
end

