-- ==== Sys2Proof/Machine/Reach.lean ====
section
/-! DEFINITION. Reach.lean: how a tile or a window's final write reaches memory: every page is translated before the
first byte moves (08 R222), a page held elsewhere is recalled (06 Table 6-10), a hole of a demand-zero region is populated
(08 R226), a draft page gets its frame (06 R175), lines of a common are cleared (07 R201), and an uncorrectable sector of
a mirrored extent is fetched (11 R302). -/

namespace Sys2Proof.Machine

/-- Who reaches memory: the access that waits, its space, its engine, its version bindings (06 R178), and the translations
that it holds (08 R223). -/
structure Reacher where
  who    : Access
  asid   : Nat
  engine : Nat
  binds  : List Binding
  held   : Tbl HeldPage := []

/-- A range of addresses that is read or written. -/
structure Span where
  va    : Nat
  len   : Nat
  write : Bool
  deriving DecidableEq, Repr

/-- The pieces of a range, cut at page boundaries. -/
def cutPages : Nat → Nat → Nat → List (Nat × Nat)
  | 0, _, _ => []
  | fuel + 1, va, len =>
    if len == 0 then []
    else
      let n := min len (65536 - va % 65536)
      (va, n) :: cutPages fuel (va + n) (len - n)

def Span.pieces (x : Span) : List (Nat × Nat) := cutPages (x.len / 65536 + 2) x.va x.len

def Reacher.bind (r : Reacher) (e : Nat) : Option Binding := r.binds.find? (·.extent == e)

/-- The draft that a write to a versioned extent goes into, while it is open (06 R176, R178). -/
def State.draftOf (s : State) (r : Reacher) (e : Nat) : Option Draft :=
  ((r.binds.find? fun b => b.extent == e && b.draft.isSome).bind (·.draft)).bind fun h =>
    ((s.pool.extents.find e).bind (·.draft)).bind fun d => if d.handle == h && d.commit.isNone then some d else none

/-- What forbids an access to one page. -/
def State.pageFault (s : State) (r : Reacher) (va : Nat) (write : Bool) : Option Status :=
  match s.locate r.asid va with
  | .revoked => some .faultRevoked
  | .absent => some .faultUnmapped
  | .ext e _ =>
    match s.pool.extents.find e with
    | some v => if write && extVersioned v && (s.draftOf r e).isNone then some .faultVersion else none
    | none => some .faultUnmapped
  | _ => none

/-- What forbids an access to any page of some ranges; FAULT_REVOKED goes before FAULT_UNMAPPED (08 R222). -/
def State.spanFault (s : State) (r : Reacher) (l : List Span) : Option Status :=
  if (s.spaceLive r.asid).isNone then some .denied
  else
    let f := l.flatMap fun x => x.pieces.filterMap fun p => s.pageFault r p.1 x.write
    if f.contains .faultRevoked then some .faultRevoked else f.head?

/-- How the preparation of an access ends: it may go on, it waits, or it completes with a status. -/
inductive Prep where
  | yes
  | waits
  | fails (st : Status)
  deriving DecidableEq, Repr

/-- One page made ready to be translated: a page held elsewhere is recalled, a draft page gets its frame, a hole is
populated (06 Table 6-10, R175; 08 R226). -/
def State.reachPage (s : State) (r : Reacher) (va len : Nat) (write : Bool) : Prep × State :=
  let s := s.lookup r.engine r.asid va fun e => if write then (s.draftOf r e).map (·.number) else (r.bind e).map (·.version)
  match s.locate r.asid va with
  | .ext e p =>
    let key := e * 2 ^ 25 + p
    if s.pool.checkouts.has key then
      match s.awaitPage key r.who with
      | some s => (.waits, s)
      | none => (.fails .busyRetry, s)
    else
      match s.pool.extents.find e with
      | none => (.fails .faultUnmapped, s)
      | some v =>
        match if write && extVersioned v then (s.draftFrame e p (len == 65536)).map (·.2) else some s with
        | none => (.fails .busyRetry, s)
        | some s => (.yes, s)
  | .hole v =>
    if !write then (.yes, s)
    else match s.populate r.asid v r.who with
      | (some st, s) => (.fails st, s)
      | (none, s) => (.waits, s)
  | .pop _ => (.yes, s)
  | .revoked => (.fails .faultRevoked, s)
  | .absent => (.fails .faultUnmapped, s)

/-- Whether ranges reach a common or a versioned extent (00 R3). -/
def State.reachesShared (s : State) (asid : Nat) (l : List Span) : Bool :=
  l.any fun x => x.pieces.any fun p => match s.locate asid p.1 with
    | .ext e _ => s.sharedExt e
    | _ => false

/-- Pages treated one after the other, until one waits or fails. -/
def State.eachPage (s : State) (f : State → Nat → Nat → Bool → Prep × State) : List (Nat × Nat × Bool) → Prep × State
  | [] => (.yes, s)
  | (va, len, w) :: l =>
    match f s va len w with
    | (.yes, s) => State.eachPage s f l
    | x => x

/-- The pages of ranges. -/
def pagesOf (l : List Span) : List (Nat × Nat × Bool) := l.flatMap fun x => x.pieces.map fun p => (p.1, p.2, x.write)

/-- Ranges made ready to be translated as a whole, before a byte moves (08 R222). -/
def State.reachSpans (s : State) (r : Reacher) (l : List Span) : Prep × State :=
  match s.spanFault r l with
  | some st => (.fails st, s)
  | none => s.eachPage (fun s va len w => s.reachPage r va len w) (pagesOf l)

/-- The device address that an address of a range has, and the extent and offset it lies in; none in a hole. A translation
that is held goes before the tables (08 R223). -/
def State.devAt (s : State) (r : Reacher) (va : Nat) (write : Bool) : Option (Nat × Option (Nat × Nat)) :=
  match r.held.find (heldKey r.asid va write) with
  | some h => some (h.page * 65536 + va % 65536, h.ext.map fun e => (e.1, e.2 * 65536 + va % 65536))
  | none =>
    match s.locate r.asid va with
    | .ext e p =>
      let ver := if write then (s.draftOf r e).map (·.number) else (r.bind e).map (·.version)
      some (s.framePage e p ver * 65536 + va % 65536, some (e, p * 65536 + va % 65536))
    | .pop p => some (p * 65536 + va % 65536, none)
    | _ => none

/-- Sectors at hand: an access waits for the pseudo-channels that are held (10 R293), and for uncorrectable sectors of a mirrored
extent whose bytes it needs, which are fetched (11 R302). -/
def State.awaitMirror (s : State) (who : Access) (all need : List Nat) : Prep × State :=
  match s.awaitStack who all with
  | (true, s) => (.waits, s)
  | (false, _) =>
  let wants := s.mirrorWants need
  if wants.isEmpty then (.yes, s)
  else
    let s := wants.foldl (fun s w => s.fetchMirror w.1 w.2.1 w.2.2) s
    (.waits, { s with pool.fetches := s.pool.fetches.each fun n f =>
      if (wants.map (·.1)).contains n && !f.waiting.contains who then { f with waiting := f.waiting ++ [who] } else f })

/-- A piece of memory: where it lies in an extent, its device address and length, and whether it is written. -/
structure Piece where
  ext   : Option (Nat × Nat)
  dev   : Nat
  len   : Nat
  write : Bool
  deriving DecidableEq, Repr

/-- The sectors whose bytes a piece needs: those it reads, and those it writes in part. -/
def Piece.needs (x : Piece) : List Nat :=
  (sectorsOf x.dev x.len).filter fun n => !x.write || n * 256 < x.dev || x.dev + x.len < (n + 1) * 256

/-- The bytes of pieces at hand: the lines of commons are cleared or their owners asked (07 R201), nothing holds the sectors, and
uncorrectable ones of a mirrored extent whose bytes are needed are fetched (11 R302). -/
def State.guardPieces (s : State) (who : Access) (l : List Piece) : Prep × State :=
  match s.comGuard who (l.filterMap fun x => x.ext.map fun e => (e.1, e.2, x.len, x.write)) with
  | (.go, s) => s.awaitMirror who (l.flatMap fun x => sectorsOf x.dev x.len)
      ((l.filter (·.ext.isSome)).flatMap Piece.needs)
  | (.waits, s) => (.waits, s)
  | (.full, s) => (.fails .busyRetry, s)

/-- The bytes of ranges at hand. -/
def State.guardSpans (s : State) (r : Reacher) (l : List Span) : Prep × State :=
  s.guardPieces r.who ((pagesOf l).filterMap fun p =>
    (s.devAt r p.1 p.2.2).map fun d => { ext := d.2, dev := d.1, len := p.2.1, write := p.2.2 })

/-- Ranges translated and their bytes at hand, for work that does both in one step. -/
def State.readySpans (s : State) (r : Reacher) (l : List Span) : Prep × State :=
  match s.reachSpans r l with
  | (.yes, s) => s.guardSpans r l
  | x => x

/-- Bytes read: the worst condition, the offsets that poisoned or failed sectors cover, the bytes (06 R167, 11 R300). -/
structure Got where
  cond  : Status := .ok
  bad   : List (Nat × Nat) := []     -- offset and length
  bytes : List Byte := []

/-- A prepared range is read. -/
def State.fetch (s : State) (r : Reacher) (va len : Nat) : Got × State :=
  (Span.mk va len false).pieces.foldl (fun (x : Got × State) p =>
    let at' := x.1.bytes.length
    match x.2.devAt r p.1 false with
    | none => ({ x.1 with bytes := x.1.bytes ++ List.replicate p.2 0 }, x.2)
    | some (d, e) =>
      let q := x.2.load d p.2
      let b := match e with
        | some (ext, off) => q.2.2.overlay r.who ext off q.2.1
        | none => q.2.1
      let bad := (q.1.filter fun c => c.2 == .poisoned || c.2 == .integrity).map fun c =>
        (at' + (c.1 * 256 - d), 256 - (d - c.1 * 256))
      ({ cond := x.1.cond.worse (Status.worst (q.1.map (·.2))), bad := x.1.bad ++ bad, bytes := x.1.bytes ++ b }, q.2.2))
    ({}, s)

/-- Whether a byte of a read came from a sector under a condition. -/
def Got.isBad (g : Got) (off : Nat) : Bool := g.bad.any fun b => b.1 ≤ off && off < b.1 + b.2

/-- What a write of bytes to a prepared range puts in place; `bad` tells which of the bytes carry poison. -/
def State.placed (s : State) (r : Reacher) (va : Nat) (bytes : List Byte) (bad : Nat → Bool) : List TileWrite :=
  (Span.mk va bytes.length true).pieces.filterMap fun p =>
    (s.devAt r p.1 true).map fun d =>
      let off := p.1 - va
      { dev := d.1, ext := d.2, bytes := slice bytes off p.2
        bad := (sectorsOf d.1 p.2).filter fun n => (List.range 256).any fun i =>
          let a := n * 256 + i
          d.1 ≤ a && a < d.1 + p.2 && bad (off + (a - d.1)) }

/-- Translations of ranges, as work that moves bytes holds them (08 R223). -/
def State.hold (s : State) (r : Reacher) (l : List Span) : Tbl HeldPage :=
  (pagesOf l).foldl (fun t p => match s.devAt r p.1 p.2.2 with
    | some d => t.put (heldKey r.asid p.1 p.2.2) { page := d.1 / 65536, ext := d.2.map fun e => (e.1, e.2 / 65536) }
    | none => t) r.held

/-- The bytes that placed writes replace at hand: no line of a common keeps a copy of them (07 R201). -/
def State.guardWrites (s : State) (who : Access) (l : List TileWrite) : Prep × State :=
  s.guardPieces who (l.map fun w => { ext := w.ext, dev := w.dev, len := w.bytes.length, write := true })

/-- One placed write takes effect, sector by sector; the worst condition it met (06 R167, 11 R303). -/
def State.putWrite (s : State) (w : TileWrite) : Status × State :=
  (sectorsOf w.dev w.bytes.length).foldl (fun (x : Status × State) n =>
    let lo := max w.dev (n * 256)
    let hi := min (w.dev + w.bytes.length) ((n + 1) * 256)
    let q := x.2.writeSector n (lo % 256) (slice w.bytes (lo - w.dev) (hi - lo)) (w.bad.contains n)
    (x.1.worse q.1, q.2)) (.ok, s)

/-- Placed writes take effect in order. -/
def State.putWrites (s : State) (l : List TileWrite) : Status × State :=
  l.foldl (fun (x : Status × State) w => let q := x.2.putWrite w; (x.1.worse q.1, q.2)) (.ok, s)

/-- Writes that fall in mirrored extents go to the standby, one message for each extent, and `w` waits for all of them.
False: nothing waits (16 R434). -/
def State.mirrorWrites (s : State) (l : List TileWrite) (caches : List CacheRec) (w : MirrorWait) : Bool × State :=
  let exts := l.foldl (fun a x => match x.ext with
    | some e => if s.mirrorsTo e.1 || s.copiesTo e.1 e.2 then insertNum a e.1 else a
    | none => a) []
  let n := exts.length
  (n != 0 && s.mirrors, exts.zipIdx.foldl (fun s e =>
    let writes := l.flatMap fun x => match x.ext with
      | some y => if y.1 == e.1 && (s.mirrorsTo y.1 || s.copiesTo y.1 y.2) then cutSectors 300 y.2 x.bytes else []
      | none => []
    let bad := l.flatMap fun x => match x.ext with
      | some y => if y.1 == e.1 then x.bad.map fun n => y.2 / 256 * 256 + 256 * (n - x.dev / 256) else []
      | none => []
    let last := e.2 + 1 == n && s.mirrors
    s.mirrorOut e.1 writes bad (if last then caches else []) (if s.mirrors then w else .none)) s)

end Sys2Proof.Machine
end

