-- ==== Sys2Proof/Machine/Life.lean ====
section
/-! DEFINITION. Life.lean: the life of a stream (02 Table 2-11): commit point (R49 to R51), settled tiles (R52 to R55), the
stream record (R57), close, abort and release. -/

namespace Sys2Proof.Machine

/-- The stream record (Table 2-13). -/
def streamRecord (sid : Nat) (v : Stream) : Nat :=
  v.preempts * 2 ^ 208 + v.check * 2 ^ 128 + v.firstTile * 2 ^ 96 + v.flagged * 2 ^ 64 + v.done * 2 ^ 32 +
    b2n v.hogCut * 2 ^ 31 + sid * 2 ^ 16 + v.firstStat * 2 ^ 8 + v.outcome

/-- The stream operand (13 Table 13-3). -/
def streamOperand (sid epoch : Nat) : Nat := sid + epoch * 2 ^ 16

/-- One byte into the CRC-64 of R39. -/
def crcByte (crc : Nat) (b : Byte) : Nat :=
  (List.range 8).foldl (fun c _ =>
    if 2 ^ 63 ≤ c then Nat.xor (2 * c % 2 ^ 64) 0x42F0E1EBA9EA3693 else 2 * c) (Nat.xor crc (b.toNat * 2 ^ 56))

/-- The tiles below an index enter the CRC in order (R39). -/
def foldCheck (v : Stream) (below : Nat) : Stream :=
  { v with check := (v.checkHeld.filter fun e => e.1 < below).foldl (fun c e => e.2.foldl crcByte c) v.check
           checkHeld := v.checkHeld.filter fun e => below ≤ e.1 }

/-- What a close answers: the cookie and the record (13 R352, R57). -/
def recordBytes (sid : Nat) (v : Stream) : List Byte :=
  leBytes (hdCookie v.head) 8 ++ leBytes (streamRecord sid (foldCheck v (2 ^ 32))) 32

/-- A context goes to FREE: its bindings end, and versions that lose their last reader retire (06 R177, R178). -/
def State.freeStream (s : State) (sid : Nat) : State :=
  match s.str.streams.find sid with
  | none => s
  | some v =>
    let s := (s.delStream sid).dropWork sid
    v.bindings.foldl (fun s b =>
      match s.pool.extents.find b.extent with
      | none => s
      | some e =>
        let e := if b.draft.isSome then e
          else { e with versions := e.versions.adjust b.version fun x => { x with streams := x.streams - 1 } }
        (s.putExtent b.extent e).retireVersions b.extent) s

/-- The record is complete once the outcome is set and no final write runs: a held close completes, otherwise the release
timer starts (Table 2-11). -/
def State.recordDone (s : State) (sid : Nat) : State :=
  match s.str.streams.find sid with
  | none => s
  | some v =>
    if v.ended && v.tiles.isEmpty then s.freeStream sid
    else if !v.closed || !v.tiles.isEmpty then s
    else
      let bytes := recordBytes sid v
      if v.closeReq.isEmpty && v.closeCmd.isEmpty then
        if v.freeDue == 0 then s.putStream sid { v with freeDue := s.dev.tick + hdIdle v.head } else s
      else
        let s := v.closeReq.foldl (fun s r => s.complete r .ok none (some bytes)) (s.freeStream sid)
        v.closeCmd.foldl (fun s c => s.respond c ⟨0, 0, bytes⟩) s

/-- Whether a tile is in its final write, or runs again after its station was fenced in it (R51, 01 R19). -/
def inFinal (t : Tile) : Bool := t.st == .writing || t.st == .mirror || t.began

/-- The commit point (R49): every index below the count is settled or in its final write. -/
def State.commitStream (s : State) (sid : Nat) : State :=
  match s.str.streams.find sid with
  | none => s
  | some v =>
    match v.count with
    | none => s.recordDone sid
    | some n =>
      let final := (v.tiles.filter fun t => inFinal t.2 && t.1 < n).length
      let settledBelow := v.lowest + (v.settled.filter (· < n)).length
      if !v.closed && !v.stuck && n ≤ settledBelow + final then
        ((s.putStream sid { v with closed := true, outcome := 0 }).dropWork sid).recordDone sid
      else s.recordDone sid

/-- An index joins the settled ones (R52). -/
def settleIndex (v : Stream) (i : Nat) : Stream :=
  let l := insertNum v.settled i
  let rec slide (fuel low : Nat) (l : List Nat) : Nat × List Nat :=
    match fuel, l with
    | f + 1, a :: r => if a == low then slide f (low + 1) r else (low, a :: r)
    | _, l => (low, l)
  let r := slide (l.length + 1) v.lowest l
  { v with lowest := r.1, settled := r.2 }

/-- A settled tile counts (R57). -/
def countSettled (v : Stream) (i st : Nat) : Stream :=
  let flag := st != 0
  { v with
    done := v.done + 1
    flagged := if flag then v.flagged + 1 else v.flagged
    firstTile := if flag then min v.firstTile i else v.firstTile
    firstStat := if flag && i < v.firstTile then st else v.firstStat }

/-- Whether a tile with a status is settled (R53, R54). -/
def settles (src : Nat) (st : Status) : Bool :=
  st.cls == 0 || st.cls == 3 || (src == 1 && (st.cls == 2 || st.cls == 5))

/-- What an append that ends leaves to do: its head's frontier goes back where its rows are not written (05 R135, 02 R51), and
appends that waited behind it may be bound. -/
def State.appendEnded (s : State) (t : Tile) (written : Bool) : State :=
  if thKind t.hdr != tkAppend then s
  else
    let back := if written then [] else [Todo.unappend (thObj t.hdr) (thHead t.hdr) (thPosition t.hdr)]
    s.later (back ++ (s.str.streams.keysWhere fun v =>
      v.tiles.any fun x => thKind x.2.hdr == tkAppend && x.2.st == .ready).map .bind)

/-- The elements of an output under poison that a completion returns to a node under a tag (03 R96, 04 R116, log 167). -/
def State.emitMarks (s : State) (req : Option Req) (payload : List Byte) (marks : List Nat) : State :=
  match req with
  | some r => if payload.isEmpty || marks.isEmpty then s else s.emit (.marks r.p.src r.p.tag marks)
  | none => s

/-- A tile of a stream completes with a status (R53, R54). -/
def State.endTile (s : State) (sid i : Nat) (st : Status) (payload : List Byte := []) : State :=
  match s.tileOf sid i with
  | none => s
  | some (v, t) =>
    let s := s.dropGot (.tile sid i)
    let v := { v with tiles := v.tiles.del i }
    let settled := settles (hdSrc v.head) st
    let v := if settled then countSettled (settleIndex v i) i st.code else v
    let v := foldCheck v v.lowest
    let s := s.putStream sid v
    let s := if settled && thKind t.hdr == tkQuery then
        { s with seq.contexts := s.seq.contexts.adjust (thObj t.hdr) fun c => { c with queries := sat32 c.queries 1 } }
      else s
    let s := if hdSink v.head == 1 && st == .alreadyComplete then s.countTen v.tenant 8 else s
    let s := s.emitMarks t.req payload t.marks
    let s := match t.req with
      | some r => s.complete r st none (some payload)
      | none => s
    ((s.appendEnded t settled).commitStream sid).later [.bind sid]

/-- The stream's outcome is set by an abort or its idle timer: every tile not in its final write completes ABORTED
(R49 to R51). -/
def State.cutStream (s : State) (sid : Nat) (out : Status) : State :=
  match s.str.streams.find sid with
  | none => s
  | some v =>
    if v.closed then s
    else
      let gone := v.tiles.filter fun t => !inFinal t.2
      let s := (s.putStream sid { v with closed := true, outcome := out.code, tiles := v.tiles.filter fun t => inFinal t.2 }).dropWork sid
      let s := gone.foldl (fun s t =>
        let s := (s.dropGot (.tile sid t.1)).appendEnded t.2 false
        match t.2.req with
        | some r => s.complete r .aborted none (some [])
        | none => s) s
      s.recordDone sid

/-- Whether a stream's unsettled index may be issued (R59). -/
def issuable (v : Stream) (i : Nat) : Bool := v.lowest ≤ i && !v.settled.contains i && !v.tiles.has i

/-- The next index an extent source issues: the lowest that is neither settled nor in flight (R59). -/
def nextIssue (v : Stream) : Option Nat :=
  match v.count with
  | none => none
  | some n => ((List.range 4096).map (v.lowest + ·)).find? fun i => i < n && issuable v i

/-! Aborting and closing (Table 2-11, R48). -/

/-- Who may close or abort a stream: over the fabric its opener in the same session, over CCP its creating session. -/
def mayEnd (v : Stream) (r : Req) : Bool := v.session == some r.p.session && v.node == r.p.src

/-- The stream that an operand names with its current epoch. -/
def State.namedStream (s : State) (sid epoch : Nat) : Option Stream :=
  (s.str.streams.find sid).bind fun v => if s.str.epochs.findD sid 0 == epoch then some v else none

/-- STREAM_CLOSE and STREAM_ABORT run (R47, R48, R50). -/
def State.runEnd (s : State) (r : Req) : State :=
  let op := leNat (r.p.payload.take 8)
  let sid := bits op 13 0
  let bad := bits op 63 24 != 0 || bits op 15 14 != 0
  match s.namedStream sid (bits op 23 16) with
    | none => s.complete r (if bad then .malformed else .retired) none (some [])
    | some v =>
      if !mayEnd v r then (s.chargeLink r.p.session).complete r .denied none (some [])
      else if bad then s.complete r .malformed none (some [])
      else if r.opcode == 0x03 then
        if v.closed then s.complete r .alreadyComplete none (some [])
        else (s.cutStream sid .aborted).complete r .ok none (some [])
      else if v.closed && v.tiles.isEmpty then (s.freeStream sid).complete r .ok none (some (recordBytes sid v))
      else s.putStream sid { v with closeReq := v.closeReq ++ [r] }

/-- The stream that a CCP command of block 0x04xx names, where its session created it (R48). -/
def State.ccpStream (s : State) (c : CcpCtx) : Nat × Option Stream :=
  let sid := bits c.block 13 0
  (sid, s.namedStream sid (bits c.block 23 16))

/-- STREAM_CLOSE_CCP (R47, R48). -/
def bodyStreamClose : CcpBody := fun c s =>
  match s.ccpStream c with
  | (_, none) => refuse s ⟨.retired, 0x0401⟩
  | (sid, some v) =>
    if v.ccp != some c.sid then refuse s rForeign
    else if v.closed && v.tiles.isEmpty then okBytes (s.freeStream sid) (recordBytes sid v)
    else heldCmd (s.putStream sid { v with closeCmd := v.closeCmd ++ [c.ref] })

/-- STREAM_ABORT_CCP (R48 to R50). -/
def bodyStreamAbort : CcpBody := fun c s =>
  match s.ccpStream c with
  | (_, none) => refuse s ⟨.retired, 0x0401⟩
  | (sid, some v) =>
    if v.ccp != some c.sid then refuse s rForeign
    else if v.closed then done s .alreadyComplete
    else okEmpty (s.cutStream sid .aborted)

/-- STREAM_PRIORITY (14 R394). -/
def bodyStreamPriority : CcpBody := fun c s =>
  match s.ccpStream c with
  | (_, none) => refuse s ⟨.retired, 0x0401⟩
  | (sid, some v) =>
    if v.tenant != c.tenant then refuse s rForeign
    else okEmpty (s.putStream sid { v with priority := bits c.block 26 24 })

/-- The idle timer of a stream expires (Table 2-11). -/
def State.streamIdle (s : State) (sid : Nat) : State :=
  match s.str.streams.find sid with
  | some v => if !v.closed && hdSrc v.head == 0 && v.idleDue ≤ s.dev.tick then s.cutStream sid .timeout else s
  | none => s

/-- The release timer of a stream expires (Table 2-11). -/
def State.streamRelease (s : State) (sid : Nat) : State :=
  match s.str.streams.find sid with
  | some v =>
    if v.closed && v.tiles.isEmpty && v.freeDue != 0 && v.freeDue ≤ s.dev.tick then
      (s.freeStream sid).countTen v.tenant 0
    else s
  | none => s

end Sys2Proof.Machine
end

