-- ==== Sys2Proof/Machine/Ledger.lean ====
section
/-! DEFINITION. Ledger.lean: reduce windows (04): the descriptor, where a ledger tile lives, contributions, closing,
chained windows, result reads, and the life of a window. -/

namespace Sys2Proof.Machine

/-! The descriptor (Table 4-1). -/

def wOrdered (d : Nat) : Bool := bits d 5 4 == 1
def wOp (d : Nat) : Nat := bits d 7 6
def wAccumulate (d : Nat) : Bool := bit d 8
def wDest (d : Nat) : Bool := bit d 9
def wRounding (d : Nat) : Bool := bit d 10
def wParent (d : Nat) : Bool := bit d 11
def wFormat (d : Nat) : Nat := bits d 16 12
def wFrame (d : Nat) : Int := signed (bits d 31 24) 8
def wN (d : Nat) : Nat := bits d 43 32 + 1
def wAsid (d : Nat) : Nat := bits d 59 48
def wElems (d : Nat) : Nat := bits d 95 64
def wSeed (d : Nat) : Nat := bits d 127 96
def wDestAddr (d : Nat) : Nat := bits d 175 128
def wScratch (d : Nat) : Nat := bits d 239 192
def wIdle (d : Nat) : Nat := bits d 255 240 * 65536
def wParentWin (d : Nat) : Nat := bits d 267 256
def wParentIndex (d : Nat) : Nat := bits d 279 268
def wCookie (d : Nat) : Nat := bits d 383 320

/-- T, the ledger tiles of a window (R99). -/
def wTiles (d : Nat) : Nat := ceilDiv (wElems d) 2048

/-- Elements of ledger tile `t`. -/
def wTileElems (d t : Nat) : Nat := min 2048 (wElems d - 2048 * t)

/-- *res_bytes* of a result format, and the sizes of destination and scratch (R100). A window keeps those of its creation; one
created while its format slot was empty takes them when it is enabled (log 170). -/
def State.resBytes (s : State) (d : Nat) : Nat := toSectors (s.packed (wFormat d) 2048)
def State.winRes (s : State) (v : Window) : Nat := if v.resBytes == 0 then s.resBytes v.desc else v.resBytes
def State.destSize (s : State) (v : Window) : Nat := wTiles v.desc * s.winRes v
def wScratchSize (d : Nat) : Nat := wTiles d * (if wOrdered d then 541184 else 16896)

/-- The places in the scratch area (Table 4-2). -/
def wImage (d t : Nat) : Nat := wScratch d + t * 16384
def wBitmap (d t : Nat) : Nat := wScratch d + wTiles d * 16384 + t * 512
def wSlot (d t c : Nat) : Nat := wScratch d + wTiles d * 16896 + t * 524288 + c % 64 * 8192

/-- Who reaches memory for a ledger tile. -/
def ledgerReacher (w t d : Nat) (home : Option Nat) : Reacher :=
  { who := .ledger w t, asid := wAsid d, engine := home.getD 160, binds := [] }

def State.modWindow (s : State) (w : Nat) (f : Window → Window) : State :=
  { s with seq.windows := s.seq.windows.adjust w f }

def State.modLTile (s : State) (w t : Nat) (f : LTile → LTile) : State :=
  s.modWindow w fun v => { v with tiles := v.tiles.put t (f (v.tiles.findD t {})) }

def State.ltile (s : State) (w t : Nat) : LTile := ((s.seq.windows.find w).map fun v => v.tiles.findD t {}).getD {}

/-- Who reaches memory for a ledger tile as it stands, with the translations of a final write that has begun. -/
def State.tileHolder (s : State) (w t d : Nat) : Reacher :=
  let l := s.ltile w t
  { ledgerReacher w t d l.home with held := l.tr }

/-- The device's own read and write of the scratch area (R101); `bad` tells which bytes carry poison. Where the area lies in a
mirrored extent its writes are mirrored too, and but for a final image nothing waits for them (16 R433, log 173). -/
def State.scratchRead (s : State) (w t d va len : Nat) : Got × State := s.fetch (s.tileHolder w t d) va len
def State.scratchWrite (s : State) (w t d va : Nat) (b : List Byte) (bad : Nat → Bool := fun _ => false) : State :=
  let l := s.placed (s.tileHolder w t d) va b bad
  ((s.putWrites l).2.mirrorWrites l [] .none).2

/-- The image of a ledger tile, read and written. -/
def imageSpans (d t : Nat) : List Span :=
  [⟨wImage d t, 8 * wTileElems d t, false⟩, ⟨wImage d t, 8 * wTileElems d t, true⟩]

/-- What a contribution to a ledger tile reaches of the scratch area (Table 4-2): the image, the bitmap, and in ordered mode the
holding area. -/
def State.ledgerSpans (s : State) (w t c : Nat) : List Span :=
  match s.seq.windows.find w with
  | none => []
  | some v =>
    let d := v.desc
    imageSpans d t ++ [⟨wBitmap d t, 512, true⟩] ++
      (if wOrdered d then [⟨wSlot d t 0, 524288, false⟩, ⟨wSlot d t c, 8192, true⟩] else [])

/-! Home stations and residency (R104, R105). -/

/-- The home station of a ledger tile, chosen when a contribution is first bound for it (R104). -/
def State.homeOf (s : State) (w t : Nat) : Option Nat × State :=
  match s.seq.windows.find w with
  | none => (none, s)
  | some v =>
    match (s.ltile w t).home with
    | some n => if s.inService n then (some n, s) else (none, s)
    | none =>
      let field := (s.devAt (ledgerReacher w t v.desc none) (wImage v.desc t) false).map fun x => granStack (pageGran (x.1 / 65536))
      match leastStation (s.candidates v.tenant field) fun n => (s.station n).resident.length with
      | some n => (some n, s.modLTile w t fun l => { l with home := some n })
      | none => (none, s)

/-- Store held for the split that a station runs: the 292 KiB that a split needs at most, so that at most 109 ledger tiles stay
resident beside it (R105, 05 R145). -/
def State.splitStore (s : State) (n : Nat) : Nat :=
  match (s.station n).run with
  | some (_, _, some _) => 299008
  | _ => 0

/-- A resident tile moves to its image (R105). -/
def State.spillTile (s : State) (n w t : Nat) : State :=
  let s := s.modStation n fun x => { x with resident := x.resident.filter (· != (w, t)) }
  match s.seq.windows.find w with
  | none => s
  | some v =>
    let l := v.tiles.findD t {}
    let s := s.scratchWrite w t v.desc (wImage v.desc t) (l.words.flatMap fun x => leBytes x 8)
    s.modWindow w fun v => { v with spilled := sat32 v.spilled 1, tiles := v.tiles.put t { l with words := [], spilled := true } }

/-- A granted split makes room: the tiles made resident most recently go first (R105). -/
def State.spillFor (s : State) (n : Nat) : Nat → State
  | 0 => s
  | fuel + 1 =>
    let x := s.station n
    if x.resident.length * 16384 + s.splitStore n ≤ 2097152 then s
    else match x.resident with
      | [] => s
      | (w, t) :: _ => State.spillFor (s.spillTile n w t) n fuel

/-- Every resident tile of a station moves to its image, as at a fence or a field reset (01 R19, R20). -/
def State.spillAll (s : State) (n : Nat) : State :=
  (s.station n).resident.foldl (fun s x => s.spillTile n x.1 x.2) s

/-- The start value of a word (R83, R84). -/
def startWord (d : Nat) : Nat :=
  if wOrdered d then 0 else if wOp d == 1 then unsigned (-(2 ^ 63 : Nat)) 64 else if wOp d == 2 then 2 ^ 63 - 1 else 0

/-- A ledger tile's first contribution decides whether it becomes resident (R105). -/
def State.placeTile (s : State) (w t : Nat) : State :=
  match s.seq.windows.find w with
  | none => s
  | some v =>
    let l := v.tiles.findD t {}
    if l.placed then s
    else
      let words := List.replicate (wTileElems v.desc t) (startWord v.desc)
      match l.home with
      | none => s
      | some n =>
        let x := s.station n
        if x.resident.length < 128 && (x.resident.length + 1) * 16384 + s.splitStore n ≤ 2097152 then
          (s.modStation n fun x => { x with resident := (w, t) :: x.resident }).modLTile w t fun l =>
            { l with placed := true, words }
        else
          let s := s.scratchWrite w t v.desc (wImage v.desc t) (words.flatMap fun x => leBytes x 8)
          (s.modWindow w fun v => { v with spilled := sat32 v.spilled 1 }).modLTile w t fun l =>
            { l with placed := true, spilled := true }

/-- The words of a tile, from the store or its image, and the elements whose words cannot be read. A closed tile whose image is
no longer mapped keeps its result (R120): its words are those that it closed with (log 171). -/
def State.wordsOf (s : State) (w t : Nat) : List Nat × List Nat × State :=
  match s.seq.windows.find w with
  | none => ([], [], s)
  | some v =>
    let l := v.tiles.findD t {}
    let n := wTileElems v.desc t
    let gone := l.phase == .closed && !(s.spanFault (s.tileHolder w t v.desc) (imageSpans v.desc t)).isNone
    if (!l.spilled && l.phase != .closed) || gone then (l.words, [], s)
    else
      let g := s.scratchRead w t v.desc (wImage v.desc t) (8 * n)
      ((List.range n).map fun i => leNat (slice g.1.bytes (8 * i) 8),
        (List.range n).filter fun i => g.1.isBad (8 * i), g.2)

/-- The words of a tile replaced. -/
def State.setWords (s : State) (w t : Nat) (words : List Nat) : State :=
  match s.seq.windows.find w with
  | none => s
  | some v =>
    if (v.tiles.findD t {}).spilled then
      s.scratchWrite w t v.desc (wImage v.desc t) (words.flatMap fun x => leBytes x 8)
    else s.modLTile w t fun l => { l with words }

/-! Contributions. -/

/-- Elements added into words under an operation: the new words and whether the overflow mark is set (R81 to R84). -/
def addWords (d op : Nat) (first : Bool) (words : List Nat) (vals : List Val) : List Nat × Bool :=
  let r := (words.zip vals).map fun x =>
    if wOrdered d then
      let c := fround x.2
      if first then (c, false)
      else
        let a := fadd x.1 c
        let fin (y : Nat) : Bool := match fval y with
          | .fin _ _ _ => true
          | _ => false
        (a, fin x.1 && fin c && !fin a && !isNan a)
    else
      let q := ledgerQ x.2 (wFrame d)
      let old := signed x.1 64
      let new := if op == 1 then max old q.1 else if op == 2 then min old q.1 else old + q.1
      (unsigned new 64, q.2)
  (r.map (·.1), r.any (·.2))

/-- A tile's elements under poison. -/
def State.markTile (s : State) (w t : Nat) (marks : List Nat) : State :=
  if marks.isEmpty then s
  else s.modLTile w t fun l => { l with poison := true, marks := marks.foldl insertNum l.marks }

/-- One contribution is added to a tile under an operation (R108, R109). -/
def State.addTo (s : State) (w t op : Nat) (first : Bool) (vals : List Val) : State :=
  match s.seq.windows.find w with
  | none => s
  | some v =>
    let r := s.wordsOf w t
    let a := addWords v.desc op first r.1 vals
    ((r.2.2.setWords w t a.1).modLTile w t fun l => { l with overflow := l.overflow || a.2 }).markTile w t r.2.1

/-- Held contributions that have their turn are added in order (R109). -/
def State.addHeld (s : State) (w t : Nat) : Nat → State
  | 0 => s
  | fuel + 1 =>
    match s.seq.windows.find w with
    | none => s
    | some v =>
      let l := v.tiles.findD t {}
      if l.next < wN v.desc && bit l.bitmap l.next then
        let n := wTileElems v.desc t
        let g := s.scratchRead w t v.desc (wSlot v.desc t l.next) (4 * n)
        let s := g.2.addTo w t 0 (l.next == 0) ((words32 n g.1.bytes).map fval)
        let bad := (List.range n).filter fun i => g.1.isBad (4 * i)
        State.addHeld ((s.modLTile w t fun l => { l with next := l.next + 1 }).markTile w t bad) w t fuel
      else s

/-- A window's record takes a flagged tile (Table 4-7). -/
def flagTile (v : Window) (t st : Nat) : Window :=
  if t < v.firstTile then { v with firstTile := t, firstStat := st } else v

/-- Ledger tiles in their final write or closed (R119). -/
def closedOrClosing (v : Window) : Nat := v.tiles.count fun l => l.phase != .opened

/-- A tile that has every contribution begins its final write, and the last one sets the outcome (R110, R119). The write holds the
translations of the tile's image from here (08 R223), and the standby learns of a window that has closed (R122). -/
def State.tryClose (s : State) (w t : Nat) : State :=
  match s.seq.windows.find w with
  | none => s
  | some v =>
    let l := v.tiles.findD t {}
    let full := l.bitmap == 2 ^ wN v.desc - 1 && (!wOrdered v.desc || l.next == wN v.desc)
    if v.state != .opened || l.phase != .opened || !full then s
    else
      let tr := s.hold (s.tileHolder w t v.desc) (imageSpans v.desc t)
      let v := { v with tiles := v.tiles.put t { l with phase := .writing, tr } }
      if closedOrClosing v == wTiles v.desc then
        (s.putWindow w { v with state := .closed, outcome := 0 }).sendMeta (.window w v.tenant v.desc 3 0)
      else s.putWindow w v

/-- What a contribution with some elements under poison meets from the bitmap test onward (Table 4-4), and its effect. -/
def State.contribute (s : State) (w t c : Nat) (vals : List Val) (marks : List Nat) : Status × State :=
  match s.seq.windows.find w with
  | none => (.retired, s)
  | some v =>
    if v.state == .retired || v.state == .disabled then (.retired, s)
    else if v.state == .closed && v.outcome != 0 then (.aborted, s)
    else
      let l := v.tiles.findD t {}
      if bit l.bitmap c then (.alreadyComplete, s.putWindow w { v with dups := sat32 v.dups 1 })
      else if wOrdered v.desc && l.next + 64 < c then (.busyRetry, s)
      else
        let s := s.placeTile w t
        let bitmap := setBit l.bitmap c true
        let s := (s.modLTile w t fun l => { l with bitmap }).scratchWrite w t v.desc (wBitmap v.desc t) (leBytes bitmap 512)
        let s := if !wOrdered v.desc then (s.addTo w t (wOp v.desc) false vals).markTile w t marks
          else if c == l.next then
            (((s.addTo w t 0 (c == 0) vals).markTile w t marks).modLTile w t fun l => { l with next := l.next + 1 }).addHeld w t 64
          else s.scratchWrite w t v.desc (wSlot v.desc t c) (vals.flatMap fun x => leBytes (fround x) 4)
            fun b => marks.contains (b / 4)
        let s := s.modWindow w fun v => { v with idleDue := s.dev.tick + wIdle v.desc }
        let s := (s.tryClose w t).later ((s.seq.windows.filter fun p => wParent p.2.desc && wParentWin p.2.desc == w &&
          (p.2.tiles.findD t {}).phase == .written).map fun p => .ledger p.1 t)
        (.ok, s)

/-! Closing (R110 to R115). -/

/-- The exact value of a word (R85). -/
def wordVal (d word : Nat) : Val := if wOrdered d then fval word else ofFrame (signed word 64) (wFrame d)

/-- The result tile of words: its bytes and the unrepresentable elements (R85). -/
def State.resultOf (s : State) (d t : Nat) (words : List Nat) : List Byte × List Nat :=
  (s.fmt (wFormat d)).pack (words.map (wordVal d)) (roundOf (wRounding d) (wSeed d) t 0)

/-- The result status of a closed tile (Table 4-5). -/
def resultStatus (l : LTile) (unrep : List Nat) : Status :=
  if l.poison then .poisoned else if l.overflow || !unrep.isEmpty then .overflow else .ok

/-- The header of a tile that the device produces: from a source header, with its kind, status, format, count and size. The fields
hold the low bits of a count above 65,535 and of sectors above 64 (a GATHER's output can have so many; the spec gives no other
form, log 172). -/
def outHeader (kind status format count bytes stream index epoch area cookie : Nat) : Nat :=
  3 + kind * 2 ^ 4 + stream * 2 ^ 12 + (ceilDiv bytes 256 - 1) % 64 * 2 ^ 26 + format * 2 ^ 32 + count % 65536 * 2 ^ 40 +
    status * 2 ^ 56 + index * 2 ^ 64 + epoch * 2 ^ 104 + area * 2 ^ 192 + cookie * 2 ^ 320

/-- A produced tile: its header and its payload, padded with zeros to whole sectors (R29). -/
def outTile (hdr : Nat) (b : List Byte) : List Byte := leBytes hdr 64 ++ padTo b (toSectors b.length)

/-- The answer of a closed tile (Table 4-5): its status, its RESULT tile, the tile's poisoned elements. -/
def State.resultTileOf (s : State) (w t : Nat) (v : Window) : Status × List Byte × List Nat × State :=
  let l := v.tiles.findD t {}
  let x := s.wordsOf w t
  let res := x.2.2.resultOf v.desc t x.1
  let st := if !x.2.1.isEmpty then Status.poisoned else resultStatus l res.2
  let hdr := outHeader 0x81 st.code (wFormat v.desc) (wTileElems v.desc t) res.1.length 0 0 0 (w + t * 2 ^ 24) 0
  (st, outTile hdr res.1, if st == .poisoned then x.2.1.foldl insertNum l.marks else [], x.2.2)

/-- The answer of a tile that is not closed, of a window that is CLOSED or OPEN (Table 4-5). A window that had closed OK on a unit
that failed has left its results there (R122, log 173). -/
def unclosedStatus (v : Window) (l : LTile) : Status :=
  if v.state == .opened || l.phase != .opened then .notReady
  else if v.outcome == Status.ok.code then .failover
  else (Status.ofCode v.outcome).getD .aborted

/-- The window and the ledger tile that a RESULT_READ names. -/
def readNames (r : Req) : Nat × Nat := let op := leNat (r.p.payload.take 8); (bits op 11 0, bits op 51 32)

/-- Whether two records are of one request: its packet is the same. -/
def sameReq (a b : Req) : Bool := a.opcode == b.opcode && a.p == b.p

/-- A window retires (R118, R121): its results go, but for those that a RESULT_READ which has passed the hedge check waits to be
given (R117). -/
def State.retireWindow (s : State) (w : Nat) (v : Window) : State :=
  let held := s.fab.held.map (·.r) ++ s.sch.hubs.flatMap fun q => q.2.map (·.r)
  let reads := held.filter fun r => r.opcode == 0x05 && (readNames r).1 == w && (readNames r).2 < wTiles v.desc
  let s := reads.foldl (fun (s : State) r =>
    let l := v.tiles.findD (readNames r).2 {}
    if l.phase != .closed then
      { s with seq.late := s.seq.late ++ [⟨r, (unclosedStatus v l).code, [], []⟩] }
    else
      let x := s.resultTileOf w (readNames r).2 v
      { x.2.2.2 with seq.late := x.2.2.2.seq.late ++ [⟨r, x.1.code, x.2.1, x.2.2.1⟩] }) s
  (s.putWindow w { v with retireCmd := none, state := .retired, tiles := [] }).sendMeta (.window w v.tenant v.desc 4 v.outcome)

/-- A closed tile counts, its store is free, and a held WINDOW_RETIRE may go on (R110, R121). -/
def State.ledgerClosed (s : State) (w t : Nat) : State :=
  match s.seq.windows.find w with
  | none => s
  | some v =>
    let l := v.tiles.findD t {}
    let r := s.wordsOf w t
    let st := resultStatus l (s.resultOf v.desc t r.1).2
    let flag := if st != .ok then st.code else l.flag
    let v := { v with
      tiles := v.tiles.put t { l with phase := .closed, words := r.1, spilled := true, tr := [], writes := [] }
      closedN := v.closedN + 1
      overflow := if st == .overflow then v.overflow + 1 else v.overflow
      poisoned := if st == .poisoned then v.poisoned + 1 else v.poisoned }
    let v := if flag != 0 then flagTile v t flag else v
    let s := s.putWindow w v
    let s := match l.home with
      | some n => s.modStation n fun x => { x with resident := x.resident.filter (· != (w, t)) }
      | none => s
    match v.retireCmd with
    | some c =>
      if v.tiles.any fun x => x.2.phase != .opened && x.2.phase != .closed then s else (s.retireWindow w v).respondOk c
    | none => s

/-- The delivery of a closed tile to the parent (R113 to R115); none while an ordered parent is too far behind. -/
def State.deliver (s : State) (w t : Nat) : Option State :=
  match s.seq.windows.find w with
  | none => some s
  | some v =>
    let d := v.desc
    if !wParent d then some s
    else
      let p := wParentWin d
      let l := v.tiles.findD t {}
      let r := s.wordsOf w t
      let s := r.2.2
      let flag (s : State) (st : Status) : State := s.modLTile w t fun l => { l with flag := if l.flag == 0 then st.code else l.flag }
      match s.seq.windows.find p with
      | none => some (flag s .retired)
      | some q =>
        let raw := !wOrdered d && !wOrdered q.desc && wFrame d == wFrame q.desc && wOp d == wOp q.desc
        let vals := if raw then r.1.map (wordVal d)
          else (s.fmt (wFormat d)).values (s.resultOf d t r.1).1 (wTileElems d t)
        let s := (s.homeOf p t).2
        match s.contribute p t (wParentIndex d) vals l.marks with
        | (.busyRetry, _) => none
        | (.ok, s) => some (s.modLTile p t fun x =>
            { x with overflow := x.overflow || l.overflow, poison := x.poison || l.poison })
        | (.alreadyComplete, s) => some s
        | (st, s) => some (flag s st)

/-- The final write goes on after its words are written: the delivery, then the standby, then the tile is closed. -/
def State.ledgerRest (s : State) (w t : Nat) : State :=
  match s.deliver w t with
  | none => s.modLTile w t fun l => { l with phase := .written }
  | some s =>
    let m := s.mirrorWrites (s.ltile w t).writes [] (.ledger w t)
    if m.1 then m.2.modLTile w t fun l => { l with phase := .mirror } else m.2.ledgerClosed w t

/-- LEDGER_FINAL_WRITE_DONE: the final write of a ledger tile in the order of R110. -/
def State.ledgerWrite (s : State) (w t : Nat) : State :=
  match s.seq.windows.find w with
  | none => s
  | some v =>
    let d := v.desc
    let l := v.tiles.findD t {}
    match l.phase with
    | .written => s.ledgerRest w t
    | .writing =>
      let rr := s.tileHolder w t d
      let n := wTileElems d t
      let va := wDestAddr d + t * s.winRes v
      let len := toSectors (s.packed (wFormat d) n)
      let dest := (if wAccumulate d then [Span.mk va len false] else []) ++ [Span.mk va len true]
      let prep : Prep × State := match s.guardSpans rr (imageSpans d t) with
        | (.waits, s) => (.waits, s)
        | (_, s) => if wDest d then s.readySpans rr dest else (.yes, s)
      match prep with
      | (.waits, s) => s
      | (p, s) =>
        let failed := match p with
          | .fails st => some st
          | _ => none
        let s := if wAccumulate d && failed.isNone then
            let f := s.fmt (wFormat d)
            let g := s.fetch rr va len
            let bad := f.badElems n g.1.isBad
            (g.2.addTo w t 0 false (f.values g.1.bytes n)).markTile w t bad
          else s
        let r := s.wordsOf w t
        let s := r.2.2.markTile w t r.2.1
        let marks := (s.ltile w t).marks
        let poison := (s.ltile w t).poison
        let image := s.placed rr (wImage d t) (r.1.flatMap fun x => leBytes x 8) fun b => marks.contains (b / 8)
        let res := s.resultOf d t r.1
        let out := padTo res.1 len
        let writes := if wDest d && failed.isNone then
            s.placed rr va out fun b => poison && (s.fmt (wFormat d)).marked n marks b
          else []
        let writes := image ++ writes
        let s := (s.putWrites writes).2.dropGot (.ledger w t)
        let s := match failed with
          | some st => s.modLTile w t fun l => { l with flag := st.code }
          | none => s
        (s.modLTile w t fun l => { l with words := r.1, writes }).ledgerRest w t
    | _ => s

/-! Results (R116, R117). -/

/-- RESULT_READ runs: the rows of Table 4-5. A closed tile whose image a node holds or whose sectors only the standby has is
waited for (08 R221, 11 R302). -/
def State.runResult (s : State) (r : Req) : State :=
  let op := leNat (r.p.payload.take 8)
  let w := (readNames r).1
  let t := (readNames r).2
  let none' (s : State) (st : Status) : State := s.complete r st none (some [])
  let answer (s : State) (st : Status) (tile : List Byte) (marks : List Nat) : State :=
    (s.emitMarks (some r) tile marks).complete r st none (some tile)
  if bits op 63 52 != 0 || bits op 31 12 != 0 then none' s .malformed
  else match s.seq.late.find? fun x => sameReq x.r r with
  | some x =>
    answer { s with seq.late := s.seq.late.filter fun y => !sameReq y.r r } ((Status.ofCode x.status).getD .ok) x.tile x.marks
  | none =>
   match s.seq.windows.find w with
    | none => none' s .faultRange
    | some v =>
      if !s.asidOk (wAsid v.desc) r.p.session then none' s .denied
      else if s.kfp2 r.p && s.reachesShared (wAsid v.desc) (imageSpans v.desc t) then none' s .unsupported
      else if wTiles v.desc ≤ t then none' s .faultRange
      else
        let l := v.tiles.findD t {}
        match v.state with
        | .retired => none' s .retired
        | .disabled => none' s .notReady
        | _ =>
          if l.phase != .closed then none' s (unclosedStatus v l)
          else
            let rr := { ledgerReacher w t v.desc l.home with who := .request r }
            match s.readySpans rr ((imageSpans v.desc t).take 1) with
            | (.waits, s) => s
            | (_, s) =>
              let x := s.resultTileOf w t v
              answer (x.2.2.2.dropGot (.request r)) x.1 x.2.1 x.2.2.1

/-! The life of a window (Table 4-6). -/

/-- A window ends with an outcome other than OK: what is not in its final write is discarded (R119, R120). -/
def State.cutWindow (s : State) (w : Nat) (out : Status) : State :=
  match s.seq.windows.find w with
  | none => s
  | some v =>
    if v.state != .opened then s
    else
      let gone := v.tiles.filter fun l => l.2.phase == .opened
      let s := s.putWindow w { v with state := .closed, outcome := out.code, tiles := v.tiles.filter fun l => l.2.phase != .opened }
      let s := { s with stn.stations := s.stn.stations.each fun _ x =>
        { x with resident := x.resident.filter fun y => !(y.1 == w && gone.any fun g => g.1 == y.2) } }
      s.sendMeta (.window w v.tenant v.desc 3 out.code)

/-- Open windows whose scratch is no longer mapped are closed (Table 4-6, 07 R210). -/
def State.checkScratch (s : State) : State :=
  s.seq.windows.foldl (fun s w =>
    if w.2.state != .opened then s
    else
      let rr := ledgerReacher w.1 0 w.2.desc none
      let f := (Span.mk (wScratch w.2.desc) (wScratchSize w.2.desc) true).pieces.filterMap fun p => s.pageFault rr p.1 false
      let dead := (s.spaceLive (wAsid w.2.desc)).isNone
      if f.contains .faultRevoked then s.cutWindow w.1 .faultRevoked
      else if dead || !f.isEmpty then s.cutWindow w.1 .faultUnmapped
      else s) s

/-- Whether every page of a range is mapped as a window or sequence context needs it: no versioned or sealed extent
(06 R179, 09 R266); `dz` says whether populated demand-zero granules count (08 R224). -/
def State.plainMapped (s : State) (asid va len : Nat) (dz : Bool) : Bool :=
  (Span.mk va len false).pieces.all fun p => match s.locate asid p.1 with
    | .ext e _ => match s.pool.extents.find e with
      | some v => !extVersioned v && !extSealed v
      | none => false
    | .pop _ => dz
    | _ => false

def overlaps (a la b lb : Nat) : Bool := a < b + lb && b < a + la

/-- The windows of a chain upward from a window, at most `fuel`. -/
def State.chainUp (s : State) (w : Nat) : Nat → List Nat
  | 0 => []
  | fuel + 1 => match s.seq.windows.find w with
    | some v => w :: (if wParent v.desc then State.chainUp s (wParentWin v.desc) fuel else [])
    | none => []

/-- How many windows hang below a window, the longest way, at most `fuel`. -/
def State.depthBelow (s : State) (w : Nat) : Nat → Nat
  | 0 => 0
  | fuel + 1 =>
    let kids := s.seq.windows.filter fun x => x.1 != w && x.2.state == .opened && wParent x.2.desc && wParentWin x.2.desc == w
    kids.foldl (fun m x => max m (1 + State.depthBelow s x.1 fuel)) 0

/-- The rows of Table 4-3. Areas overlap by their addresses in one space (log 201). -/
def windowRows (c : CcpCtx) (s : State) (w : Nat) (v : Window) : List (Bool × RClass) :=
  let d := v.desc
  let asid := wAsid d
  let enabled (x : Nat × Window) : Bool := x.1 != w && (x.2.state == .opened || x.2.state == .closed)
  let parent := if wParent d then s.seq.windows.find (wParentWin d) else none
  let dst := s.destSize v
  let scr := wScratchSize d
  let range := bits d 3 0 != 3 || 1 < bits d 5 4 || wOp d == 3 || wElems d == 0 || 2 ^ 31 < wElems d ||
    wScratch d % 256 != 0 || wDestAddr d % 256 != 0 || (!wDest d && wDestAddr d != 0) ||
    (!wRounding d && wSeed d != 0) || (!wParent d && (wParentWin d != 0 || wParentIndex d != 0)) ||
    (wOrdered d && (wOp d != 0 || wFrame d != 0)) || (wAccumulate d && !(wDest d && !wParent d)) || !(wDest d || wParent d)
  [ (range, .range),
    (!((s.spaceLive asid).any fun a => a.tenant == c.tenant), .policy),
    ((s.fmt (wFormat d)).kind == 0, .dependency),
    (!s.plainMapped asid (wScratch d) scr false || (wDest d && !s.plainMapped asid (wDestAddr d) dst true), .dependency),
    ((wDest d && overlaps (wDestAddr d) dst (wScratch d) scr) ||
      (s.seq.windows.any fun x => enabled x && wAsid x.2.desc == asid &&
        (overlaps (wScratch x.2.desc) (wScratchSize x.2.desc) (wScratch d) scr ||
          (wDest d && overlaps (wScratch x.2.desc) (wScratchSize x.2.desc) (wDestAddr d) dst))), .conflict),
    (wParent d && !(parent.any fun p => p.state == .opened && p.tenant == c.tenant && wElems p.desc == wElems d), .dependency),
    (wParent d && ((parent.any fun p => wN p.desc ≤ wParentIndex d) ||
      s.seq.windows.any fun x => enabled x && wParent x.2.desc && wParentWin x.2.desc == wParentWin d &&
        wParentIndex x.2.desc == wParentIndex d), .conflict),
    (let up := if wParent d then s.chainUp (wParentWin d) 5 else []
     up.contains w || 4 < 1 + up.length + s.depthBelow w 5, .conflict),
    (v.state != .disabled, .state) ]

/-- WINDOW_CREATE (R99, R118). -/
def bodyWindowCreate : CcpBody := fun c s =>
  match cyclicFree (fun n => s.seq.windows.has n) s.ctl.lastWindow 0 4095 with
  | none => refuse s ⟨.busyRetry, 0x0201⟩
  | some n =>
    let s := { s with ctl.lastWindow := some n }.putWindow n { tenant := c.tenant, desc := c.block, resBytes := s.resBytes c.block }
    okNum (s.sendMeta (.window n c.tenant c.block 1 0)) n

/-- The window that an object block names, for its tenant (18 R468). -/
def State.ownWindow (s : State) (c : CcpCtx) : Option Window :=
  (s.seq.windows.find c.object).bind fun v => if v.tenant == c.tenant then some v else none

/-- WINDOW_ENABLE (R103, R118). -/
def bodyWindowEnable : CcpBody := fun c s =>
  let w := c.object
  if 4096 ≤ w then refuse s rObject
  else match s.ownWindow c with
    | none => refuse s rState
    | some v =>
      match checkTable (windowRows c s w v) 9 with
      | some r => refuse s r
      | none =>
        okEmpty ((s.putWindow w { v with state := .opened, resBytes := s.winRes v, idleDue := s.dev.tick + wIdle v.desc }).sendMeta
          (.window w v.tenant v.desc 2 0))

/-- WINDOW_ABORT (R118, R119; of a window neither OPEN nor CLOSED, log 204). -/
def bodyWindowAbort : CcpBody := fun c s =>
  let w := c.object
  if 4096 ≤ w then refuse s rObject
  else match s.ownWindow c with
    | none => refuse s rNoObject
    | some v => match v.state with
      | .opened => okEmpty (s.cutWindow w .aborted)
      | .closed => done s .alreadyComplete
      | _ => refuse s rState

/-- WINDOW_RETIRE (R118, R121). -/
def bodyWindowRetire : CcpBody := fun c s =>
  let w := c.object
  if 4096 ≤ w then refuse s rObject
  else match s.ownWindow c with
    | none => refuse s rState
    | some v =>
      if v.state != .closed || v.retireCmd.isSome then refuse s rState
      else if v.tiles.any fun x => x.2.phase != .opened && x.2.phase != .closed then heldCmd (s.putWindow w { v with retireCmd := some c.ref })
      else okEmpty (s.retireWindow w v)

/-- WINDOW_DELETE (R118). -/
def bodyWindowDelete : CcpBody := fun c s =>
  let w := c.object
  if 4096 ≤ w then refuse s rObject
  else match s.ownWindow c with
    | none => refuse s rState
    | some v => match v.state with
      | .disabled => okEmpty ((s.delWindow w).sendMeta (.noWindow w))
      | .retired => okEmpty ((s.delWindow w).sendMeta (.noWindow w))
      | _ => refuse s rState

def WinSt.num : WinSt → Nat
  | .disabled => 1
  | .opened => 2
  | .closed => 3
  | .retired => 4

/-- The window record (Table 4-7). -/
def windowRecord (w : Nat) (v : Window) : Nat :=
  v.spilled * 2 ^ 192 + v.dups * 2 ^ 160 + v.overflow * 2 ^ 128 + v.poisoned * 2 ^ 96 + v.firstTile * 2 ^ 64 +
    v.closedN * 2 ^ 32 + v.firstStat * 2 ^ 24 + v.state.num * 2 ^ 20 + w * 2 ^ 8 + v.outcome

/-- WINDOW_QUERY (R123). -/
def bodyWindowQuery : CcpBody := fun c s =>
  let w := c.object
  if 4096 ≤ w then refuse s rObject
  else match s.seq.windows.find w with
    | none => refuse s rNoObject
    | some v =>
      if !c.isOp && v.tenant != c.tenant then refuse s rNoObject
      else okBytes s (leBytes (wCookie v.desc) 8 ++ leBytes (windowRecord w v) 32)

/-- The idle timer of a window expires (Table 4-6). -/
def State.windowIdle (s : State) (w : Nat) : State :=
  match s.seq.windows.find w with
  | some v => if v.state == .opened && wIdle v.desc != 0 && v.idleDue ≤ s.dev.tick then s.cutWindow w .timeout else s
  | none => s

end Sys2Proof.Machine
end

