-- ==== Sys2Proof/Machine/Vector.lean ====
section
/-! DEFINITION. Vector.lean: the exponential and hyperbolic tangent (03 R91, R529), VECTOR programs (R78 to R80), the
attention arithmetic (R88 to R90), and the commands of formats and programs that need no stream. -/

namespace Sys2Proof.Machine

/-! Version 0x0001 of the exponential table (R529): c j of segment s is the binary32 value nearest 2^(s/64) × (ln 2)^j / j!. -/

/-- Segments 0 to 15: c0, c1, c2, c3. -/
def expTable1a : List (List Nat) :=
  [ [0x3F800000, 0x3F317218, 0x3E75FDF0, 0x3D635847],
    [0x3F8164D2, 0x3F3360C0, 0x3E78ABAE, 0x3D65D209],
    [0x3F82CD87, 0x3F3554CC, 0x3E7B60E3, 0x3D6852B2],
    [0x3F843A29, 0x3F374E49, 0x3E7E1DA5, 0x3D6ADA55],
    [0x3F85AAC3, 0x3F394D47, 0x3E807104, 0x3D6D6906],
    [0x3F871F62, 0x3F3B51D6, 0x3E81D711, 0x3D6FFED7],
    [0x3F88980F, 0x3F3D5C05, 0x3E834104, 0x3D729BDE],
    [0x3F8A14D5, 0x3F3F6BE4, 0x3E84AEE8, 0x3D75402D],
    [0x3F8B95C2, 0x3F418182, 0x3E8620C8, 0x3D77EBDA],
    [0x3F8D1ADF, 0x3F439CEF, 0x3E8796B0, 0x3D7A9EF9],
    [0x3F8EA43A, 0x3F45BE3D, 0x3E8910A9, 0x3D7D599E],
    [0x3F9031DC, 0x3F47E57A, 0x3E8A8EC0, 0x3D800DEF],
    [0x3F91C3D3, 0x3F4A12B8, 0x3E8C1101, 0x3D8172E8],
    [0x3F935A2B, 0x3F4C4608, 0x3E8D9776, 0x3D82DBC4],
    [0x3F94F4F0, 0x3F4E7F79, 0x3E8F222B, 0x3D84488E],
    [0x3F96942D, 0x3F50BF1F, 0x3E90B12D, 0x3D85B951] ]

/-- Segments 16 to 31: c0, c1, c2, c3. -/
def expTable1b : List (List Nat) :=
  [ [0x3F9837F0, 0x3F530509, 0x3E924487, 0x3D872E17],
    [0x3F99E046, 0x3F555149, 0x3E93DC45, 0x3D88A6ED],
    [0x3F9B8D3A, 0x3F57A3F1, 0x3E957875, 0x3D8A23DE],
    [0x3F9D3EDA, 0x3F59FD12, 0x3E971921, 0x3D8BA4F4],
    [0x3F9EF532, 0x3F5C5CC0, 0x3E98BE57, 0x3D8D2A3C],
    [0x3FA0B051, 0x3F5EC30B, 0x3E9A6822, 0x3D8EB3C1],
    [0x3FA27043, 0x3F613007, 0x3E9C1691, 0x3D90418F],
    [0x3FA43516, 0x3F63A3C6, 0x3E9DC9B0, 0x3D91D3B2],
    [0x3FA5FED7, 0x3F661E5B, 0x3E9F818C, 0x3D936A36],
    [0x3FA7CD94, 0x3F689FD9, 0x3EA13E32, 0x3D950527],
    [0x3FA9A15B, 0x3F6B2853, 0x3EA2FFAF, 0x3D96A492],
    [0x3FAB7A3A, 0x3F6DB7DD, 0x3EA4C612, 0x3D984883],
    [0x3FAD583F, 0x3F704E8A, 0x3EA69167, 0x3D99F106],
    [0x3FAF3B79, 0x3F72EC6F, 0x3EA861BD, 0x3D9B9E29],
    [0x3FB123F6, 0x3F75919F, 0x3EAA3721, 0x3D9D4FF8],
    [0x3FB311C4, 0x3F783E2E, 0x3EAC11A1, 0x3D9F0680] ]

/-- Segments 32 to 47: c0, c1, c2, c3. -/
def expTable1c : List (List Nat) :=
  [ [0x3FB504F3, 0x3F7AF233, 0x3EADF14C, 0x3DA0C1CF],
    [0x3FB6FD92, 0x3F7DADC0, 0x3EAFD631, 0x3DA281F2],
    [0x3FB8FBAF, 0x3F803876, 0x3EB1C05D, 0x3DA446F6],
    [0x3FBAFF5B, 0x3F819DE5, 0x3EB3AFDF, 0x3DA610E9],
    [0x3FBD08A4, 0x3F830739, 0x3EB5A4C7, 0x3DA7DFD8],
    [0x3FBF179A, 0x3F84747C, 0x3EB79F24, 0x3DA9B3D2],
    [0x3FC12C4D, 0x3F85E5B9, 0x3EB99F03, 0x3DAB8CE5],
    [0x3FC346CD, 0x3F875AFB, 0x3EBBA476, 0x3DAD6B1E],
    [0x3FC5672A, 0x3F88D44F, 0x3EBDAF8B, 0x3DAF4E8C],
    [0x3FC78D75, 0x3F8A51BD, 0x3EBFC053, 0x3DB1373E],
    [0x3FC9B9BE, 0x3F8BD354, 0x3EC1D6DC, 0x3DB32543],
    [0x3FCBEC15, 0x3F8D591D, 0x3EC3F338, 0x3DB518A8],
    [0x3FCE248C, 0x3F8EE324, 0x3EC61575, 0x3DB7117E],
    [0x3FD06334, 0x3F907177, 0x3EC83DA6, 0x3DB90FD3],
    [0x3FD2A81E, 0x3F92041F, 0x3ECA6BDA, 0x3DBB13B6],
    [0x3FD4F35B, 0x3F939B2A, 0x3ECCA022, 0x3DBD1D38] ]

/-- Segments 48 to 63: c0, c1, c2, c3. -/
def expTable1d : List (List Nat) :=
  [ [0x3FD744FD, 0x3F9536A4, 0x3ECEDA8F, 0x3DBF2C67],
    [0x3FD99D16, 0x3F96D698, 0x3ED11B32, 0x3DC14154],
    [0x3FDBFBB8, 0x3F987B15, 0x3ED3621D, 0x3DC35C0F],
    [0x3FDE60F5, 0x3F9A2425, 0x3ED5AF60, 0x3DC57CA8],
    [0x3FE0CCDF, 0x3F9BD1D6, 0x3ED8030F, 0x3DC7A32E],
    [0x3FE33F89, 0x3F9D8436, 0x3EDA5D39, 0x3DC9CFB3],
    [0x3FE5B907, 0x3F9F3B50, 0x3EDCBDF3, 0x3DCC0248],
    [0x3FE8396A, 0x3FA0F732, 0x3EDF254D, 0x3DCE3AFD],
    [0x3FEAC0C7, 0x3FA2B7E9, 0x3EE1935B, 0x3DD079E3],
    [0x3FED4F30, 0x3FA47D84, 0x3EE4082F, 0x3DD2BF0C],
    [0x3FEFE4BA, 0x3FA6480F, 0x3EE683DC, 0x3DD50A89],
    [0x3FF28177, 0x3FA81798, 0x3EE90674, 0x3DD75C6C],
    [0x3FF5257D, 0x3FA9EC2D, 0x3EEB900D, 0x3DD9B4C7],
    [0x3FF7D0DF, 0x3FABC5DD, 0x3EEE20B8, 0x3DDC13AA],
    [0x3FFA83B3, 0x3FADA4B5, 0x3EF0B889, 0x3DDE792A],
    [0x3FFD3E0C, 0x3FAF88C4, 0x3EF35795, 0x3DE0E558] ]

def expTable1 : List (List Nat) := expTable1a ++ expTable1b ++ expTable1c ++ expTable1d

/-- The coefficients of a table version; every image carries version 0x0001 (R529). -/
def expCoef (s j : Nat) : Val := fval ((expTable1.getD s []).getD j 0)

/-- A table's bytes (R529). -/
def expBytes : List Byte := expTable1.flatMap fun r => r.flatMap fun c => leBytes c 4

/-- One fma of exact values, rounded to binary32. -/
def fmaV (a b c : Val) : Val := fval (fround ((a.mul b).add c))

/-- `kz_exp` (R91). The steps that its text marks exact are taken exactly, also where no binary32 number holds their result
(log 26). -/
def kzExp (x : Nat) : Nat :=
  match fval x with
  | .nan => fnan
  | .inf n => if n then 0 else 0x7F800000
  | .fin _ _ _ =>
    match fval (fmul x 0x3FB8AA3B) with
    | .fin n m e =>
      let y : Val := .fin n m e
      if !y.lt (.fin false 128 0) then 0x7F800000
      else if y.lt (.fin true 150 0) then 0
      else
        let k := floorOf n m e
        let f := y.add (.fin (decide (0 < k)) k.natAbs 0)
        let s := match f with
          | .fin _ fm fe => (floorOf false fm (fe + 6)).toNat
          | _ => 0
        let t := f.add (.fin true s (-6))
        let p := fmaV (fmaV (fmaV (expCoef s 3) t (expCoef s 2)) t (expCoef s 1)) t (expCoef s 0)
        fround (p.scale k)
    | .inf n => if n then 0 else 0x7F800000
    | .nan => fnan

/-- `kz_tanh` (R91). -/
def kzTanh (x : Nat) : Nat :=
  if isNan x then fnan
  else
    let a := fabs x
    let sign (r : Nat) : Nat := r % 2 ^ 31 + x / 2 ^ 31 % 2 * 2 ^ 31
    if !(fval a).lt (.fin false 9 0) then sign fone
    else
      let e := kzExp (fmul 0xC0000000 a)
      sign (fdiv (fsub fone e) (fadd fone e))

/-! VECTOR programs. -/

/-- How many sources an opcode uses; none for an unlisted one (Table 3-7). -/
def vecSources (op : Nat) : Option Nat :=
  if op == 4 || op == 11 || op == 13 then some 3
  else if [1, 2, 3, 5, 7, 8, 12].contains op then some 2
  else if [6, 9, 10, 14, 15, 16].contains op then some 1
  else none

/-- One operation (Table 3-7). -/
def vecOp (op a b c : Nat) : Nat :=
  match op with
  | 1 => fadd a b
  | 2 => fsub a b
  | 3 => fmul a b
  | 4 => ffma a b c
  | 5 => fdiv a b
  | 6 => fsqrt a
  | 7 => fmin a b
  | 8 => fmax a b
  | 9 => fabs a
  | 10 => fneg a
  | 11 => fmin (fmax a b) c
  | 12 => if (fval a).lt (fval b) then fone else 0
  | 13 => if (fval a).isZero || isNan a then c else b
  | 14 => a
  | 15 => kzExp a
  | 16 => kzTanh a
  | _ => 0

/-- The op words and constants of a program block (Table 3-9). -/
def progOp (block i : Nat) : Nat := bits block (32 * i + 415) (32 * i + 384)
def progConst (block j : Nat) : Nat := bits block (32 * j + 159) (32 * j + 128)
def progLen (block : Nat) : Nat := bits block 20 16 + 1

/-- A program over one element position: r0 to r15 start as given and end as answered (R78). -/
def runProg (block : Nat) (regs : List Nat) : List Nat :=
  (List.range (progLen block)).foldl (fun r i =>
    let w := progOp block i
    let src (n : Nat) : Nat := if n < 16 then r.getD n 0 else progConst block (n - 16)
    listSet r (bits w 25 21) (vecOp (bits w 31 26) (src (bits w 20 16)) (src (bits w 15 11)) (src (bits w 10 6)))) regs

/-! Attention arithmetic. -/

/-- The operand format of a query for a key format (Table 3-11). -/
def queryFmt (key : Fmt) : Fmt := if key.slot == 2 then bf16 else mxfp8

/-- The score of a dot product (R88); `cap` 0 is no soft-cap. -/
def scoreOf (t scale cap : Nat) (masked : Bool) : Nat :=
  let s := fmul t scale
  let s := if cap % 2 ^ 31 == 0 then s else fmul cap (kzTanh (fdiv s cap))
  if masked then fneginf else s

/-- The running state of a BLEND for one query head: maximum, sum, accumulators (R89). -/
structure Blend where
  m : Nat
  l : Nat
  o : List Nat
  deriving DecidableEq, Repr

def Blend.start (d : Nat) : Blend := ⟨fneginf, 0, List.replicate d 0⟩

/-- Chunk sums of exact values, each rounded once and added in ascending order (R89 step 5, as R87). -/
def chunkSum (l : List Val) : Nat :=
  match groupsOf 32 l.length l with
  | [] => 0
  | c :: r => r.foldl (fun t g => fadd t (fround (sumVals g))) (fround (sumVals c))

/-- A running value after a block: the value already scaled, and then the block's sum in one addition (R89 step 5). -/
def addChunks (scaled : Nat) (l : List Val) : Nat := fadd scaled (chunkSum l)

/-- One block of at most 256 positions: its scores with their masks, its value rows (R89). `pf` is the format of the
weights. -/
def Blend.block (b : Blend) (pf : Fmt) (scores : List (Nat × Bool)) (rows : List (List Val)) : Blend :=
  let m' := scores.foldl (fun m x => fmax m x.1) b.m
  let alpha := if m' == fneginf then fone else kzExp (fsub b.m m')
  let p := scores.map fun x => if x.2 then Val.zero else fval (kzExp (fsub x.1 m'))
  let p := through pf p
  { m := m'
    l := addChunks (fmul b.l alpha) p
    o := b.o.zipIdx.map fun x =>
      addChunks (fmul x.1 alpha) ((p.zip rows).map fun y => y.1.mul (y.2.getD x.2 Val.zero)) }

/-- `kz_exp` of a difference of maxima, 1 for −∞ − −∞ (R90). -/
def expDiff (a b : Nat) : Nat := if a == fneginf && b == fneginf then fone else kzExp (fsub a b)

/-- A later split merged into an earlier one (R90). -/
def Blend.merge (a b : Blend) : Blend :=
  let m := fmax a.m b.m
  let x := expDiff a.m m
  let y := expDiff b.m m
  { m
    l := fadd (fmul a.l x) (fmul b.l y)
    o := (a.o.zip b.o).map fun p => fadd (fmul p.1 x) (fmul p.2 y) }

/-- The exact output elements of a merged result, +0 where the sum is 0 (R90): quotients with a sticky bit. -/
def quotient (a b : Nat) : Val :=
  match fval a, fval b with
  | .nan, _ => .nan
  | _, .nan => .nan
  | .inf _, .inf _ => .nan
  | .inf n, .fin k _ _ => .inf (n != k)
  | .fin n _ _, .inf k => .fin (n != k) 0 0
  | .fin n m e, .fin k d g =>
    if d == 0 then Val.zero
    else .fin (n != k) (2 * (m * 2 ^ 64 / d) + b2n (m * 2 ^ 64 % d != 0)) (e - g - 65)

def Blend.result (b : Blend) : List Val := b.o.map fun o => quotient o b.l

/-! Descriptor rules and command bodies. -/

/-- Whether a descriptor breaks a rule of Table 3-2 (R62). Its reserved fields are checked before. -/
def descBad (d : Nat) : Bool :=
  let f : Fmt := ⟨31, d⟩
  if f.kind == 0 then d != 0
  else
    5 < f.kind || f.special == 3 || ! [4, 6, 8, 16, 32].contains f.width ||
    (f.isFloat && (f.width != 1 + f.expBits + f.sig || f.expBits < 2 || 8 < f.expBits || 23 < f.sig ||
      (f.special == 2 && f.sig == 0) || (!f.saturate && f.special != 1))) ||
    (!f.isFloat && (f.expBits != 0 || f.bias != 0 || f.sig != 0 || f.special != 0 || !f.saturate ||
      f.intExp < -64 || 64 < f.intExp)) ||
    (f.isBlock && (8 < f.width || ! [8, 16, 32, 64].contains f.blockLen || f.scaleBits < 4 || 8 < f.scaleBits)) ||
    (!f.isBlock && (f.blockLen != 0 || f.scaleBits != 0 || f.scaleBias != 0 || f.scaleNan)) ||
    (f.isFloat && (!(f.value f.maxCode).lt (.fin false 1 128) || (Val.fin false 1 (1 - (f.bias : Int) - f.sig)).lt (.fin false 1 (-149))))

/-- EXP_TABLE_QUERY (R529). -/
def bodyExpTableQuery : CcpBody := fun _ s =>
  okBytes s (leBytes (s.ctl.expActive + s.ctl.expStaged * 2 ^ 16) 8 ++ expBytes ++ expBytes)

/-- Whether an op word of a program holds a non-zero reserved field (R79). -/
def opReserved (w : Nat) : Bool :=
  bits w 5 0 != 0 || match vecSources (bits w 31 26) with
    | some 1 => bits w 15 6 != 0
    | some 2 => bits w 10 6 != 0
    | _ => false

/-- Whether an op word names an unlisted opcode, destination or source (R79). -/
def opRange (w : Nat) : Bool :=
  match vecSources (bits w 31 26) with
  | none => true
  | some n =>
    15 < bits w 25 21 || 23 < bits w 20 16 || (1 < n && 23 < bits w 15 11) || (2 < n && 23 < bits w 10 6)

/-- VECTOR_PROG_LOAD (R79, R80). -/
def bodyVectorProgLoad : CcpBody := fun c s =>
  let b := c.block
  let slot := bits b 15 8
  let n := progLen b
  let ops := (List.range n).map (progOp b)
  let other := match s.str.progs.find slot with
    | some p => p.tenant != c.tenant
    | none => false
  checked s
    [ (ops.any opReserved || b / 2 ^ (384 + 32 * n) != 0, rMalformed),
      (ops.any opRange, rRange),
      (other, ⟨.denied, 0x0502⟩) ]
    (okEmpty { s with str.progs := s.str.progs.put slot ⟨c.tenant, b⟩ })

end Sys2Proof.Machine
end

