-- ==== Sys2Proof/Machine/Context.lean ====
section
/-! DEFINITION. Context.lean: sequence contexts (05): the descriptor, the key/value layout (R126), the rows of an append
(R132, R133), what a sequence tile meets (Table 5-6), the commands, and cadence classes (R146 to R148). -/

namespace Sys2Proof.Machine

/-! The descriptor (Table 5-1). -/

def qCookie (d : Nat) : Nat := bits d 511 448
def qSoftcap (d : Nat) : Nat := bits d 447 416
def qScale (d : Nat) : Nat := bits d 415 384
def qSlide (d : Nat) : Nat := bits d 383 352
def qScaleAddr (d : Nat) : Nat := bits d 303 256
def qKvAddr (d : Nat) : Nat := bits d 239 192
def qS (d : Nat) : Nat := bits d 191 176 + 1
def qB (d : Nat) : Nat := bits d 175 160 + 1
def qCadence (d : Nat) : Nat := bits d 103 100
def qCausal (d : Nat) : Bool := bit d 96
def qScaleMode (d : Nat) : Bool := bit d 93
def qKvFormat (d : Nat) : Nat := bits d 92 88
def qDim (d : Nat) : Nat := (bits d 83 80 + 1) * 16
def qG (d : Nat) : Nat := bits d 79 76 + 1
def qH (d : Nat) : Nat := bits d 71 64 + 1
def qAsid (d : Nat) : Nat := bits d 59 48

/-- *blk_bytes* (R126). -/
def State.blkBytes (s : State) (d : Nat) : Nat := toSectors (s.packed (qKvFormat d) (256 * qDim d))

/-- The key block of head `h` and block `b`; the value block lies *blk_bytes* after it (R126). -/
def State.keyBlock (s : State) (d h b : Nat) : Nat := qKvAddr d + (h * qB d + b) * 2 * s.blkBytes d

/-- The key/value area's length. -/
def State.kvBytes (s : State) (d : Nat) : Nat := qH d * qB d * 2 * s.blkBytes d

/-- The elements of a query or append tile's rows. -/
def rowsOf (t : Tile) (d : Nat) : Nat := t.count / qDim d

/-- Query positions of a query tile (R136). -/
def qPositions (t : Tile) (d : Nat) : Nat := t.count / (qG d * qDim d)

/-- The places of a row of head `h` at a position, in the key (false) or value block: its codes and its scales, each with
the offset and the length in a part of `n` rows (R126, R133). -/
def State.rowPlaces (s : State) (d h pos : Nat) (value : Bool) (n r : Nat) : List (Nat × Nat × Nat) :=
  let f := s.fmt (qKvFormat d)
  let dim := qDim d
  let base := s.keyBlock d h (pos / 256) + (if value then s.blkBytes d else 0)
  let bytes := dim * f.width / 8
  let code := (base + f.scaleArea (256 * dim) + pos % 256 * bytes, f.scaleArea (n * dim) + r * bytes, bytes)
  if f.isBlock then [code, (base + pos % 256 * dim / f.blockLen, r * dim / f.blockLen, dim / f.blockLen)] else [code]

/-- The ranges that an append writes (R135). -/
def State.appendSpans (s : State) (d h pos n : Nat) : List Span :=
  (List.range n).flatMap fun r => (s.rowPlaces d h (pos + r) false n r ++ s.rowPlaces d h (pos + r) true n r).map
    fun x => ⟨x.1, x.2.2, true⟩

/-- Who reaches memory for a tile of a stream. -/
def tileReacher (sid i : Nat) (v : Stream) (engine : Nat) : Reacher :=
  { who := .tile sid i, asid := hdAsid v.head, engine, binds := v.bindings }

/-- Who reaches memory for a CCP command that reads it, and is held while it waits (08 R221). -/
def commandReacher (opcode : Nat) (c : CcpCtx) (asid : Nat) : Reacher :=
  { who := .command opcode c.ref c.tenant c.block c.total, asid, engine := 160, binds := [] }

/-- The rows of an append converted, with what each write puts in place, and the unrepresentable elements (R133). A MOVE between
equal formats copies the bits (03 R68). -/
def State.appendWrites (s : State) (rr : Reacher) (w d : Nat) (t : Tile) : List TileWrite × List Nat :=
  let src := s.fmt (thFormat t.hdr)
  let f := s.fmt (qKvFormat d)
  let n := thRows t.hdr
  let cnt := n * qDim d
  let part := toSectors (src.packed cnt)
  let conv (value : Bool) : List Byte × List Nat :=
    let mode := roundOf (rsRounding w) (rsSeed w) (thIndex t.hdr) 0
    let b := slice t.data (if value then part else 0) part
    if rsIn w == rsOut w then (b.take (f.packed cnt), [])
    else f.pack (src.values b cnt) fun e => mode (e + if value then cnt else 0)
  let put (value : Bool) (b : List Byte) : List TileWrite :=
    (List.range n).flatMap fun r =>
      (s.rowPlaces d (thHead t.hdr) (thPosition t.hdr + r) value n r).flatMap fun x =>
        s.placed rr x.1 (slice b x.2.1 x.2.2) fun _ => false
  let k := conv false
  let v := conv true
  (put false k.1 ++ put true v.1, k.2 ++ v.2)

/-! What a sequence tile meets (Table 5-6). -/

/-- The status of a sequence tile that is not accepted, or the context to accept it into; `charge` tells whether the
refusal counts against the session. -/
def State.sequenceTile (s : State) (v : Stream) (hdr : Nat) : Except (Status × Bool) Context :=
  match s.seq.contexts.find (thObj hdr) with
  | none => .error (.faultRange, false)
  | some c =>
    let d := c.desc
    let append := thKind hdr == tkAppend
    let h := thHead hdr
    let pos := thPosition hdr
    let cnt := thElems hdr
    let dim := qDim d
    let n := if append then thRows hdr else cnt / (qG d * dim)
    let l := c.frontiers.getD h 0
    if !c.enabled then .error (.faultRange, false)
    else if qAsid d != hdAsid v.head then .error (.denied, true)
    else if qH d ≤ h || 256 * qB d < pos + n then .error (.faultRange, false)
    else if append && (cnt != n * dim || 32 < ceilDiv (s.packed (thFormat hdr) cnt) 256) then .error (.malformed, false)
    else if !append && (thQHeads hdr != qG d || cnt % (qG d * dim) != 0 || n == 0) then .error (.malformed, false)
    else if append && routeOut v.steps != qKvFormat d then .error (.faultFormat, false)
    else if !c.holds.isEmpty then .error (.busyRetry, false)
    else if append then
      if pos + n ≤ l then .error (.alreadyComplete, false)
      else if pos < l then .error (.faultRange, false)
      else if l < pos then .error (.busyRetry, false)
      else .ok c
    else if l < pos + n then .error (.notReady, false)
    else .ok c

/-- An append advances its frontier in the same action (R134). -/
def State.acceptAppend (s : State) (hdr : Nat) : State :=
  { s with seq.contexts := s.seq.contexts.adjust (thObj hdr) fun c =>
    { c with frontiers := listSet c.frontiers (thHead hdr) (thPosition hdr + thRows hdr)
             rows := sat32 c.rows (thRows hdr) } }

/-- The first and last visible position of query position `k` (R137). -/
def visible (d pos q k : Nat) : Nat × Nat :=
  let e := if qCausal d then pos + k else pos + q - 1
  (if qSlide d == 0 then 0 else e + 1 - qSlide d, e)

/-- The accepted and unfinished tiles of a context. -/
def State.contextTiles (s : State) (ctx : Nat) : List (Nat × Tile) :=
  s.str.streams.flatMap fun v => v.2.tiles.filter fun t =>
    (thKind t.2.hdr == tkAppend || thKind t.2.hdr == tkQuery) && thObj t.2.hdr == ctx

/-- The frontiers of a context's written appends: below every append whose rows are not yet in place, but for one (R149). An
append that waits for the standby has its rows there and on their way before those of the one after it. -/
def State.doneFrontiers (s : State) (ctx : Nat) (c : Context) (but : Tile) : List Nat :=
  let open' := (s.contextTiles ctx).filter fun a => thKind a.2.hdr == tkAppend && a.2.st != .mirror && a.2.hdr != but.hdr
  c.frontiers.zipIdx.map fun x =>
    (open'.filter fun a => thHead a.2.hdr == x.2).foldl (fun m a => min m (thPosition a.2.hdr)) x.1

/-- An append's frontier goes to the standby with its rows, and the tile waits for it (R149, 16 R434). -/
def State.mirrorFrontier (s : State) (t : Tile) (w : MirrorWait) : State :=
  match s.seq.contexts.find (thObj t.hdr) with
  | some c =>
    let x := s.pairSend .mirror 0x71
    let m : PairRec := .context (thObj t.hdr) c.tenant c.desc 2 (s.doneFrontiers (thObj t.hdr) c t) c.scales
    let s := x.2.emit (.metaSent x.1 m)
    { s with pair.mirror := s.pair.mirror.put x.1 (s.dev.tick + s.mirrorTicks, w) }
  | none => s

/-- Whether an append of its head with lower positions has not yet written its rows: then an append waits, so that the rows of
a head are written in the order of its frontier (R134, log 163). -/
def State.appendBehind (s : State) (t : Tile) : Bool :=
  thKind t.hdr == tkAppend && (s.contextTiles (thObj t.hdr)).any fun a =>
    thKind a.2.hdr == tkAppend && thHead a.2.hdr == thHead t.hdr && a.2.st != .mirror && thPosition a.2.hdr < thPosition t.hdr

/-- An accepted append has ended with its rows unwritten (R135: a fault leaves *L_h* unchanged; 02 R51: an aborted tile has no
effect): its head's frontier goes back to its position. Appends accepted above it complete BUSY_RETRY, and queries of rows
above it that have not started NOT_READY, as Table 5-6 has it for that frontier (log 163). -/
def State.unappend (s : State) (ctx h pos : Nat) : State :=
  match s.seq.contexts.find ctx with
  | none => s
  | some c =>
    let l := c.frontiers.getD h 0
    if l ≤ pos then s
    else
      let s := s.putContext ctx { c with frontiers := listSet c.frontiers h pos, rows := c.rows - (l - pos) }
      let past (t : Tile) : Option Status :=
        if thObj t.hdr != ctx || thHead t.hdr != h || inFinal t then none
        else if thKind t.hdr == tkAppend && pos < thPosition t.hdr then some .busyRetry
        else if thKind t.hdr == tkQuery && t.st == .ready && pos < thPosition t.hdr + qPositions t c.desc then some .notReady
        else none
      s.str.streams.foldl (fun s v => v.2.tiles.foldl (fun s t => match past t.2 with
        | some st => s.endTile v.1 t.1 st
        | none => s) s) s

/-- Whether an append that a query must wait for is not yet written (R138). -/
def State.appendPending (s : State) (t : Tile) (d : Nat) : Bool :=
  let q := qPositions t d
  let pos := thPosition t.hdr
  (s.contextTiles (thObj t.hdr)).any fun a =>
    thKind a.2.hdr == tkAppend && thHead a.2.hdr == thHead t.hdr &&
      (List.range q).any fun k =>
        let w := visible d pos q k
        thPosition a.2.hdr ≤ w.2 && w.1 < thPosition a.2.hdr + thRows a.2.hdr

/-! Commands (Table 5-3). -/

/-- SEQ_CREATE (R124, R127). -/
def bodySeqCreate : CcpBody := fun c s =>
  match cyclicFree (fun n => s.seq.contexts.has n) s.ctl.lastContext 0 4095 with
  | none => refuse s ⟨.busyRetry, 0x0201⟩
  | some n =>
    let s := { s with ctl.lastContext := some n }.putContext n { tenant := c.tenant, desc := c.block }
    okNum (s.sendMeta (.context n c.tenant c.block 1 [] [])) n

def isFinite (x : Nat) : Bool := match fval x with
  | .fin _ _ _ => true
  | _ => false

/-- The rows of Table 5-4. -/
def contextRows (c : CcpCtx) (s : State) (v : Context) : List (Bool × RClass) :=
  let d := v.desc
  let f := qKvFormat d
  let cap := qSoftcap d
  let range := bits d 3 0 != 3 || !isFinite (qScale d) || !(cap == 0 || (isFinite cap && Val.lt .zero (fval cap))) ||
    qKvAddr d % 256 != 0 || qScaleAddr d % 256 != 0 || (!qScaleMode d && qScaleAddr d != 0) || f < 2 || 9 < f ||
    (5 ≤ f && qDim d % 32 != 0) || 256 < ceilDiv (qB d) (qS d) || qB d < qS d
  let k := qCadence d
  [ (range, .range),
    (!((s.spaceLive (qAsid d)).any fun a => a.tenant == c.tenant), .policy),
    (f < 2 || 9 < f, .range),
    (!s.plainMapped (qAsid d) (qKvAddr d) (s.kvBytes d) false ||
      (qScaleMode d && !s.plainMapped (qAsid d) (qScaleAddr d) (4 * qH d * qG d) true), .dependency),
    (k != 0 && !((s.seq.cadence.find k).any fun x => cdEnabled x.block && cdTenant x.block == c.tenant), .dependency),
    (v.enabled, .state) ]

def State.ownContext (s : State) (c : CcpCtx) : Option Context :=
  (s.seq.contexts.find c.object).bind fun v => if v.tenant == c.tenant then some v else none

/-- SEQ_ENABLE (R125, R129). -/
def bodySeqEnable : CcpBody := fun c s =>
  let n := c.object
  if 4096 ≤ n then refuse s rObject
  else match s.ownContext c with
    | none => refuse s rState
    | some v =>
      match checkTable (contextRows c s v) 6 with
      | some r => refuse s r
      | none =>
        let d := v.desc
        let cnt := qH d * qG d
        let rr := commandReacher 0x0431 c (qAsid d)
        let area := if qScaleMode d then [Span.mk (qScaleAddr d) (4 * cnt) false] else []
        match s.readySpans rr area with
        | (.waits, s) => heldCmd s
        | (.fails _, s) => refuse s ⟨.busyRetry, 0x0205⟩
        | (.yes, s) =>
          let g := if qScaleMode d then s.fetch rr (qScaleAddr d) (4 * cnt) else ({}, s)
          let scales := if qScaleMode d then words32 cnt g.1.bytes else []
          let frontiers := List.replicate (qH d) 0
          okEmpty (((g.2.dropGot rr.who).putContext n { v with enabled := true, frontiers, scales, queries := 0, rows := 0 }).sendMeta
            (.context n v.tenant d 2 frontiers scales))

/-- One held command of a context takes effect. -/
def State.oneHold (s : State) (n : Nat) (h : SeqHold) : State :=
  match s.seq.contexts.find n with
  | none => s
  | some v =>
    let st (on : Bool) : Nat := if on then 2 else 1
    match h with
    | .truncate len cmd =>
      let frontiers := v.frontiers.map (min · len)
      ((s.putContext n { v with frontiers }).sendMeta (.context n v.tenant v.desc (st v.enabled) frontiers v.scales)).respondOk cmd
    | .disable cmd =>
      ((s.putContext n { v with enabled := false }).sendMeta (.context n v.tenant v.desc 1 v.frontiers v.scales)).respondOk cmd

/-- What the held SEQ_TRUNCATE and SEQ_DISABLE of a context do, in the order they came, once every accepted tile of the context
has completed (Table 5-3). -/
def State.endHold (s : State) (n : Nat) : State :=
  match s.seq.contexts.find n with
  | none => s
  | some v =>
    if v.holds.isEmpty || !(s.contextTiles n).isEmpty then s
    else v.holds.foldl (fun s h => s.oneHold n h) (s.putContext n { v with holds := [] })

/-- SEQ_TRUNCATE and SEQ_DISABLE (R127, R128). -/
def seqHold (h : CcpCtx → SeqHold) : CcpBody := fun c s =>
  let n := c.object
  if 4096 ≤ n then refuse s rObject
  else match s.ownContext c with
    | none => refuse s rState
    | some v =>
      if !v.enabled then refuse s rState
      else heldCmd ((s.putContext n { v with holds := v.holds ++ [h c] }).endHold n)

def bodySeqTruncate : CcpBody := seqHold fun c => .truncate (bits c.block 63 32) c.ref
def bodySeqDisable : CcpBody := seqHold fun c => .disable c.ref

/-- SEQ_DELETE (R127). -/
def bodySeqDelete : CcpBody := fun c s =>
  let n := c.object
  if 4096 ≤ n then refuse s rObject
  else match s.ownContext c with
    | none => refuse s rState
    | some v => if v.enabled then refuse s rState else okEmpty ((s.delContext n).sendMeta (.noContext n))

/-- The context record (Table 5-5). -/
def contextRecord (n : Nat) (v : Context) : Nat :=
  let hi := v.frontiers.foldl max 0
  let lo := v.frontiers.foldl min (v.frontiers.headD 0)
  v.queries * 2 ^ 160 + v.rows * 2 ^ 128 + hi * 2 ^ 96 + lo * 2 ^ 64 + (if v.enabled then 2 else 1) * 2 ^ 28 + n * 2 ^ 16

/-- SEQ_QUERY (R130). A context that was never enabled has frontiers of 0. -/
def bodySeqQuery : CcpBody := fun c s =>
  let n := c.object
  if 4096 ≤ n then refuse s rObject
  else match s.seq.contexts.find n with
    | none => refuse s rNoObject
    | some v =>
      if v.tenant != c.tenant then refuse s rNoObject
      else
        let l := (List.range (qH v.desc)).map fun h => v.frontiers.getD h 0
        okBytes s (leBytes (qCookie v.desc) 8 ++ leBytes (contextRecord n v) 32 ++ l.flatMap fun x => leBytes x 4)

/-! Cadence classes. -/

/-- CADENCE_SET (R146). A class that is not running starts at once; a running one changes at its next period. -/
def bodyCadenceSet : CcpBody := fun c s =>
  let b := c.block
  let k := bits b 3 0
  let others := sumOf (s.seq.cadence.map fun x =>
    let y := x.2.next.getD x.2.block
    if x.1 != k && cdEnabled y then cdShare y else 0)
  checked s
    [ (k == 0 || cdPeriod b < 1024 || 16777216 < cdPeriod b || cdShare b == 0 || 512 < cdShare b, rRange),
      (cdEnabled b && (s.tenantOf (cdTenant b)).isNone, rNoObject),
      (cdEnabled b && 512 < others + cdShare b, rf .resource 4) ]
    (let v := s.seq.cadence.findD k {}
     let v := if cdEnabled v.block then { v with next := some b }
       else { v with block := b, next := none, cycles := 0, used := 0, due := s.dev.tick + cdPeriod b }
     okEmpty ((s.putCadence k v).sendMeta (.cadence b)))

/-- Whether splits of a class wait: at a station, or for one (R148). -/
def State.cadenceWaits (s : State) (k : Nat) : Bool :=
  s.str.streams.any fun v => v.2.tiles.any fun t =>
    t.2.st == .splitting && s.classOf (thObj t.2.hdr) == some k && t.2.splits.any fun x => !x.2.running && x.2.result.isNone

/-- A class's period ends (R148). -/
def State.cadenceEnd (s : State) (k : Nat) : State :=
  match s.seq.cadence.find k with
  | none => s
  | some v =>
    if !cdEnabled v.block || s.dev.tick < v.due then s
    else
      let short := s.cadenceWaits k && v.used < s.cadenceCap v
      let b := v.next.getD v.block
      s.putCadence k { block := b, next := none, cycles := 0, used := 0, last := v.used
                       short := if short then sat64 v.short 1 else v.short, due := v.due + cdPeriod b }

end Sys2Proof.Machine
end

