-- ==== Sys2Proof/Machine/Steps.lean ====
section
/-! DEFINITION. Steps.lean: what a step does to a tile (02 R34 to R40, 03 R68 to R78), binding (02 R45), the end of a step,
final writes (02 R49 to R54), contributions on their way to a window (04 R107), and fencing (01 R17 to R19). -/

namespace Sys2Proof.Machine

/-! Tiles. -/

def Tile.condSt (t : Tile) : Status := (Status.ofCode t.cond).getD .ok

/-- A tile meets a condition (20 R497). -/
def Tile.meet (t : Tile) (st : Status) : Tile := { t with cond := (t.condSt.worse st).code }

/-- A tile goes back to its first step (01 R18), and a query whose splits were released to its splits (05 R145); `began`
stays. -/
def Tile.restart (t : Tile) : Tile :=
  { t with
    data := (t.req.map fun r => r.p.payload.drop 64).getD []
    count := thElems t.hdr, step := 0, st := if t.splits.isEmpty then .ready else .splitting, prev := none, cond := 0, marks := [], tr := [], ended := false, outs := []
    writes := [], loaded := false, splits := t.splits.each fun _ _ => {}, diff := 0 }

/-- The stride of operand and reference tiles (02 R38 and after). -/
def State.stride (s : State) (head slot : Nat) : Nat := toSectors (s.packed slot (hdElems head))

def Tile.indices (t : Tile) : List Nat := words32 t.count t.data

/-- The ranges that step `k` of a tile touches, and the elements that reach it. -/
def State.stepSpans (s : State) (v : Stream) (t : Tile) (i k : Nat) : List Span :=
  let w := v.steps.getD k 0
  let n := if k == t.step then t.count else s.outElems v.steps (thElems t.hdr)
  if rsKind w == kGather then t.indices.map fun x => ⟨rsRef w + x * rsRow w, rsRow w, false⟩
  else if rsKind w == kScatter then t.indices.map fun x => ⟨rsRef w + x * rsRow w, rsRow w, true⟩
  else if rsKind w == kVector then
    (v.operands.getD k []).flatMap fun e =>
      let sp (write : Bool) : Span := ⟨e.addr + i * s.stride v.head e.format, s.packed e.format n, write⟩
      if e.writeback then [sp false, sp true] else [sp false]
  else if rsKind w == kCheck && rsOp w == 0 then
    [⟨rsRef w + i * s.stride v.head (rsIn w), s.packed (rsIn w) n, false⟩]
  else []

/-- Where output tile `i` of sink kind 0 goes. -/
def State.outSpan (s : State) (v : Stream) (t : Tile) (i : Nat) : List Span :=
  if hdSink v.head == 0 then
    [⟨hdSinkAddr v.head + i * s.outBytes v.head v.steps, toSectors (s.outLen v.steps (thElems t.hdr)), true⟩]
  else []

/-- The rows that an append writes; none for other tiles. -/
def State.kvSpans (s : State) (t : Tile) : List Span :=
  if thKind t.hdr == tkAppend then
    match s.seq.contexts.find (thObj t.hdr) with
    | some c => s.appendSpans c.desc (thHead t.hdr) (thPosition t.hdr) (thRows t.hdr)
    | none => []
  else []

/-- The input of an extent source, until it is read (R33). -/
def State.sourceSpan (s : State) (v : Stream) (t : Tile) (i : Nat) : List Span :=
  if hdSrc v.head == 0 || t.loaded then [] else [⟨hdSrcAddr v.head + i * s.inBytes v.head v.steps, s.inBytes v.head v.steps, false⟩]

/-- The write-back operands that wait for the final write. -/
def Tile.backSpans (t : Tile) : List Span := t.outs.map fun o => ⟨o.va, o.bytes.length, true⟩

/-- The ranges that a tile is translated for before a step begins (08 R222): all of the tile's at its first step, and those of
the step and of the final write later on. The rows of an extent source's INDEX tile are known once the tile is read. -/
def State.needSpans (s : State) (v : Stream) (t : Tile) (i : Nat) : List Span :=
  let ks := if t.step == 0 then List.range v.steps.length else [t.step]
  let last := t.step + 1 == v.steps.length
  s.sourceSpan v t i ++ ks.flatMap (s.stepSpans v t i) ++
    (if t.step == 0 || last then s.outSpan v t i ++ s.kvSpans t else []) ++ (if last then t.backSpans else [])

/-! Binding (R45). -/

def devField (d : Nat) : Nat := granStack (pageGran (d / 65536))

/-- The candidate field of a role (Table 2-9). -/
def State.roleField (s : State) (sid i : Nat) (v : Stream) (t : Tile) : Option Nat :=
  let role := rsRole (v.steps.getD t.step 0)
  let rr := tileReacher sid i v 160
  let src := if hdSrc v.head == 1 then
      (s.devAt rr (hdSrcAddr v.head + i * s.inBytes v.head v.steps) false).map fun d => devField d.1
    else none
  if role == 1 then (if hdSrc v.head == 1 then src else t.req.map fun r => r.p.port / 4)
  else if role == 2 then src
  else if role == 6 && hdSink v.head == 0 then
    (s.devAt rr (hdSinkAddr v.head + i * s.outBytes v.head v.steps) true).map fun d => devField d.1
  else none

/-- A tile whose step can run is bound to a station of its role, where one has room for its stream. -/
def State.bindTile (s : State) (sid i : Nat) (v : Stream) (t : Tile) : State :=
  let w := v.steps.getD t.step 0
  if s.appendBehind t then s
  else
  let bind (s : State) (n : Option Nat) : State :=
    match n with
    | none => s
    | some n =>
      let r := s.bindTo n sid i none
      if r.1 then r.2.modTile sid i fun t => { t with st := .bound n } else s
  if rsKind w == kScore then s
  else if rsKind w == kLedger then
    let h := s.homeOf (rsWindow w) (thLedger t.hdr)
    bind h.2 h.1
  else bind s (s.chooseStation (s.candidates v.tenant (s.roleField sid i v t)) t.prev)

/-! What a step computes. -/

/-- The elements under a condition after a conversion: in a block-scaled format the block's scale depends on each. -/
def spread (f : Fmt) (n : Nat) (marks : List Nat) : List Nat :=
  if marks.isEmpty then []
  else if f.isBlock then (List.range n).filter fun e => marks.any fun m => m / f.blockLen == e / f.blockLen
  else marks

/-- A tile after a step: data, elements, marks, condition. -/
def Tile.after (t : Tile) (data : List Byte) (count : Nat) (marks : List Nat) (st : Status) : Tile :=
  { t with data, count, marks }.meet st

def overflowIf (unrep : List Nat) : Status := if unrep.isEmpty then .ok else .overflow

/-- MOVE (R68, Table 2-7). -/
def State.stepMove (s : State) (w i : Nat) (t : Tile) : Tile :=
  let f := s.fmt (rsIn w)
  if rsIn w == rsOut w then t.after (t.data.take (f.packed t.count)) t.count t.marks .ok
  else
    let g := s.fmt (rsOut w)
    let r := g.pack (f.values t.data t.count) (roundOf (rsRounding w) (rsSeed w) i 0)
    t.after r.1 t.count (spread g t.count t.marks) (overflowIf r.2)

/-- The rows that a GATHER reads: their bytes one after the other, the bad elements, the worst condition. -/
def State.readRows (s : State) (rr : Reacher) (w : Nat) (t : Tile) : List Byte × List Nat × Status × State :=
  let f := s.fmt (rsIn w)
  let per := rowElems f (rsRow w)
  t.indices.zipIdx.foldl (fun (x : List Byte × List Nat × Status × State) ix =>
    let g := x.2.2.2.fetch rr (rsRef w + ix.1 * rsRow w) (rsRow w)
    let bad := if t.marks.contains ix.2 then List.range per else f.badElems per g.1.isBad
    (x.1 ++ g.1.bytes, x.2.1 ++ bad.map (ix.2 * per + ·), x.2.2.1.worse g.1.cond, g.2)) ([], [], .ok, s)

/-- One bag reduced (R76). -/
def reduceBag (op : Nat) (rows : List (List Nat)) : List Nat :=
  match rows with
  | [] => []
  | r :: l =>
    let f := if op == 3 then fmax else fadd
    let sum := l.foldl (fun a b => (a.zip b).map fun x => f x.1 x.2) r
    if op == 2 then sum.map fun x => fdiv x (fround (Val.ofNat rows.length)) else sum

/-- GATHER (R76). -/
def State.stepGather (s : State) (rr : Reacher) (w i : Nat) (t : Tile) : Tile × State :=
  let f := s.fmt (rsIn w)
  let per := rowElems f (rsRow w)
  let n := t.count
  let r := s.readRows rr w t
  if rsOp w == 0 then (t.after r.1 (n * per) r.2.1 r.2.2.1, r.2.2.2)
  else
    let rows := (groupsOf (rsRow w) n r.1).map fun b => (f.values b per).map fround
    let bags := (groupsOf (rsBag w) n rows).map (reduceBag (rsOp w))
    let vals := (bags.flatMap id).map fval
    let marks := (List.range vals.length).filter fun e => r.2.1.any fun m => m / per / rsBag w == e / per && m % per == e % per
    let p := (s.fmt (rsOut w)).pack vals (roundOf (rsRounding w) (rsSeed w) i 0)
    (t.after p.1 vals.length marks (r.2.2.1.worse (overflowIf p.2)), r.2.2.2)

/-- VECTOR (R39, R78): the output, and the write-backs that wait for the final write. A write-back writes its packed bytes, and what
follows them in the last sector stays (R29, log 188). -/
def State.stepVector (s : State) (rr : Reacher) (v : Stream) (w i : Nat) (t : Tile) : Tile × State :=
  let f := s.fmt (rsIn w)
  let n := t.count
  let opnds := v.operands.getD t.step []
  let va (e : Operand) : Nat := e.addr + i * s.stride v.head e.format
  let got := opnds.foldl (fun (x : List (List Nat) × List Nat × Status × State) e =>
    let h := s.fmt e.format
    let g := x.2.2.2.fetch rr (va e) (h.packed n)
    (x.1 ++ [(h.values g.1.bytes n).map fround], x.2.1 ++ h.badElems n g.1.isBad, x.2.2.1.worse g.1.cond, g.2)) ([], t.marks, .ok, s)
  let marks := got.2.1.foldl insertNum []
  let cols := (f.values t.data n).map fround :: got.1
  let block := v.progs.findD t.step 0
  let res := (List.range n).map fun k =>
    runProg block ((cols.map fun c => c.getD k 0) ++ List.replicate (16 - cols.length) 0)
  let col (j : Nat) : List Val := res.map fun r => fval (r.getD j 0)
  let mode := roundOf (rsRounding w) (rsSeed w) i
  let g := s.fmt (rsOut w)
  let out := g.pack (col 0) (mode 0)
  let backs : List (BackWrite × List Nat) := (opnds.zipIdx.filter fun e => e.1.writeback).map fun e =>
    let h := s.fmt e.1.format
    let p := h.pack (col (e.2 + 1)) (mode (e.2 + 1))
    let m := spread h n marks
    let bad := (List.range (p.1.length / 256 + 1)).filter fun k => (List.range 256).any fun b => h.marked n m (256 * k + b)
    (({ va := va e.1, bytes := p.1, bad } : BackWrite), p.2)
  let st := backs.foldl (fun (st : Status) (b : BackWrite × List Nat) => st.worse (overflowIf b.2)) (got.2.2.1.worse (overflowIf out.2))
  let t := { t with outs := t.outs ++ backs.map fun (b : BackWrite × List Nat) => b.1 }
  (t.after out.1 n (spread g n marks) st, got.2.2.2)

/-- CHECK (R39): under op 0 the elements that differ from the reference. -/
def State.stepCheck (s : State) (rr : Reacher) (v : Stream) (w i : Nat) (t : Tile) : Tile × State :=
  if rsOp w == 0 then
    let f := s.fmt (rsIn w)
    let g := s.fetch rr (rsRef w + i * s.stride v.head (rsIn w)) (f.packed t.count)
    let diff := (((f.codes t.data t.count).zip (f.codes g.1.bytes t.count)).filter fun x => x.1 != x.2).length
    ({ t with diff }.meet g.1.cond, g.2)
  else (t, s)

/-- The step of a tile computed. -/
def State.compute (s : State) (rr : Reacher) (v : Stream) (i : Nat) (t : Tile) : Tile × State :=
  let w := v.steps.getD t.step 0
  if rsKind w == kMove then
    (if thKind t.hdr == tkAppend then t else s.stepMove w i t, s)
  else if rsKind w == kGather then s.stepGather rr w i t
  else if rsKind w == kVector then s.stepVector rr v w i t
  else if rsKind w == kCheck then s.stepCheck rr v w i t
  else (t, s)

/-- The input of an extent source, read at the tile's first step (R33, R34). -/
def State.loadSource (s : State) (rr : Reacher) (v : Stream) (i : Nat) (t : Tile) : Prep × Tile × State :=
  if hdSrc v.head == 0 || t.loaded then (.yes, t, s)
  else
    let va := hdSrcAddr v.head + i * s.inBytes v.head v.steps
    let len := s.inBytes v.head v.steps
    match s.guardSpans rr (s.sourceSpan v t i) with
    | (.yes, s) =>
      let g := s.fetch rr va len
      let w := v.steps.headD 0
      let n := t.count
      let f := s.fmt (rsIn w)
      let badIx := (List.range n).filter fun k => (List.range 4).any fun b => g.1.isBad (4 * k + b)
      let marks := if g.1.bad.isEmpty then []
        else if rsKind w == kGather then badIx
        else if rsKind w == kScatter then
          let per := rowElems f (rsRow w)
          let base := toSectors (4 * n)
          (f.badElems (n * per) fun b => g.1.isBad (base + b)) ++ badIx.flatMap fun k => (List.range per).map (k * per + ·)
        else f.badElems n g.1.isBad
      (.yes, { t with data := g.1.bytes, loaded := true, marks }.meet g.1.cond, g.2)
    | (p, s) => (p, t, s)

/-! Final writes. -/

/-- What the final write of a tile puts in place: write-backs, the output of sink kind 0, appended rows, table rows. -/
def State.finalWrites (s : State) (rr : Reacher) (v : Stream) (i : Nat) (t : Tile) : List TileWrite × List Nat :=
  let w := v.steps.getLast?.getD 0
  let backs := t.outs.flatMap fun o => s.placed rr o.va o.bytes fun b => o.bad.contains (b / 256)
  let f := s.fmt (routeOut v.steps)
  if rsKind w == kScatter then
    let g := s.fmt (rsIn w)
    let base := toSectors (4 * t.count)
    let n := t.count * rowElems g (rsRow w)
    (backs ++ t.indices.zipIdx.flatMap fun ix =>
      s.placed rr (rsRef w + ix.1 * rsRow w) (slice t.data (base + ix.2 * rsRow w) (rsRow w)) fun b =>
        !t.marks.isEmpty && g.marked n t.marks (ix.2 * rsRow w + b), [])
  else if thKind t.hdr == tkAppend then
    match s.seq.contexts.find (thObj t.hdr) with
    | some c => s.appendWrites rr w c.desc t
    | none => ([], [])
  else if hdSink v.head == 0 then
    (backs ++ s.placed rr (hdSinkAddr v.head + i * s.outBytes v.head v.steps) (padTo t.data (toSectors t.data.length)) fun b =>
      !t.marks.isEmpty && f.marked t.count t.marks b, [])
  else (backs, [])

/-- Whether a tile has a final write of its own; without one its completion is its whole effect. -/
def needsWrite (v : Stream) (t : Tile) : Bool :=
  let k := rsKind (v.steps.getLast?.getD 0)
  hdSink v.head == 0 || hdSink v.head == 3 || k == kCheck || thKind t.hdr == tkAppend || !t.outs.isEmpty

/-- The RESULT or ATT_OUT tile of a tile that has run its route (Table 2-2, R139). -/
def resultTile (v : Stream) (i : Nat) (t : Tile) (st : Status) : List Byte :=
  let kind := if thKind t.hdr == tkQuery then 0x82 else 0x81
  outTile (outHeader kind st.code (routeOut v.steps) t.count t.data.length (thStream t.hdr) i (thEpoch t.hdr) (thArea t.hdr)
    (thCookie t.hdr)) t.data

/-- What the completion of a tile carries: its output with sink kind 2, where the route has one. -/
def resultPayload (v : Stream) (i : Nat) (t : Tile) (st : Status) : List Byte :=
  let k := rsKind (v.steps.getLast?.getD 0)
  if hdSink v.head == 2 && k != kCheck && k != kScatter && thKind t.hdr != tkAppend then resultTile v i t st else []

/-- A tile begins its final write under the translations it holds (08 R223), which may reach the stream's commit point (R49,
R51). -/
def State.beginWrite (s : State) (sid i n : Nat) (v : Stream) (t : Tile) : State :=
  let rr := { tileReacher sid i v n with held := t.tr }
  let w := s.finalWrites rr v i t
  let t := { t with writes := w.1, st := .writing, prev := some n, ended := false, began := true }.meet (overflowIf w.2)
  (s.modTile sid i fun _ => t).commitStream sid

/-- A tile has run its route (R53). One that waits for SCATTER order holds no translation (08 R223). -/
def State.finishTile (s : State) (sid i n : Nat) (v : Stream) (t : Tile) : State :=
  if rsKind (v.steps.getLast?.getD 0) == kScatter then
    (s.modTile sid i fun _ => { t with st := .order, prev := some n, ended := false, tr := [] }).later [.bind sid]
  else if needsWrite v t then s.beginWrite sid i n v t
  else s.endTile sid i t.condSt (resultPayload v i t t.condSt)

/-- A SCATTER tile whose turn has come translates again and writes (R38, 08 R223). -/
def State.scatterTurn (s : State) (sid i : Nat) (v : Stream) (t : Tile) : State :=
  let n := t.prev.getD 160
  let rr := tileReacher sid i v n
  let spans := s.stepSpans v t i t.step ++ t.backSpans
  match s.reachSpans rr spans with
  | (.yes, s) => s.beginWrite sid i n v { t with tr := s.hold rr spans }
  | (.waits, s) => s
  | (.fails st, s) => s.endTile sid i st

/-- The writes that make up the next `len` bytes, and the others. -/
def takeRow : Nat → List TileWrite → List TileWrite × List TileWrite
  | _, [] => ([], [])
  | len, w :: l => if len == 0 then ([], w :: l) else let r := takeRow (len - w.bytes.length) l; (w :: r.1, r.2)

/-- Bytes laid over placed writes in order. -/
def overBytes (b : List Byte) : List TileWrite → List TileWrite
  | [] => []
  | w :: l => { w with bytes := b.take w.bytes.length } :: overBytes (b.drop w.bytes.length) l

/-- One row of SCATTER op 1 added to the table: a read, an addition and a write of the whole row, wherever page boundaries cut
it (R77). `first` is the index of its first element among the tile's. -/
def State.addRow (s : State) (w i first : Nat) (row : List TileWrite) : List TileWrite × Status × State :=
  let f := s.fmt (rsIn w)
  let n := rowElems f (rsRow w)
  let old := row.foldl (fun (x : List Byte × List (Nat × Status) × State) o =>
    let g := x.2.2.load o.dev o.bytes.length
    (x.1 ++ g.2.1, x.2.1 ++ g.1, g.2.2)) ([], [], s)
  let new := row.flatMap (·.bytes)
  let sums := ((f.values old.1 n).zip (f.values new n)).map fun y => fval (fadd (fround y.1) (fround y.2))
  let p := f.pack sums fun e => roundOf (rsRounding w) (rsSeed w) i 0 (first + e)
  let bad := (old.2.1.filter fun c => c.2 == .poisoned || c.2 == .integrity).map (·.1)
  let out := (overBytes (p.1 ++ new.drop p.1.length) row).map fun o =>
    { o with bad := o.bad ++ bad.filter (sectorsOf o.dev o.bytes.length).contains }
  let q := old.2.2.putWrites out
  (out, ((Status.worst (old.2.1.map (·.2))).worse q.1).worse (overflowIf p.2), q.2)

/-- The rows of SCATTER op 1 added to the table one by one, in tile order (R77). `fuel` bounds the rows. -/
def State.scatterAdd (s : State) (w i first : Nat) : Nat → List TileWrite → List TileWrite × Status × State
  | 0, _ => ([], .ok, s)
  | _ + 1, [] => ([], .ok, s)
  | fuel + 1, x :: l =>
    let r := takeRow (rsRow w) (x :: l)
    let a := s.addRow w i first r.1
    let q := State.scatterAdd a.2.2 w i (first + rowElems (s.fmt (rsIn w)) (rsRow w)) fuel r.2
    (a.1 ++ q.1, a.2.1.worse q.2.1, q.2.2)

/-- One copy of a multicast tile on each port of its group; the others are skipped and counted (13 R373, R374). -/
def State.multicast (s : State) (v : Stream) (i : Nat) (t : Tile) (st : Status) : State :=
  let g := s.fab.groups.findD (hdSinkObj v.head) (0, false)
  let payload := resultTile v i t st
  let p : Packet :=
    { port := 0, hdrVer := 3, dst := hdSinkObj v.head, src := s.fab.nodeId.getD 0, tag := 0, tgen := 0, ngen := s.fab.ngen,
      fnum := 0, prior := 0, session := 0, age := 0, status := 0, fence := false, mcast := true, epoch := s.fab.epoch,
      escape := false, synthetic := false, wbPending := false, length := payload.length
      address := hdSinkAddr v.head + i * s.outBytes v.head v.steps, rsvd := 0, payload }
  (bitsOf g.1 64).foldl (fun s n =>
    let q := s.port n
    if g.2 && q.st == .up && q.mode == 0 then (s.emit (.packet 0x60 p)).commit n 0x60 p true 0 v.tenant 4
    else s.countDev 9) s

/-- The final write of a tile finishes (R53): its bytes are in place, its multicast copies committed, its CHECK update
done. The tile completes, or waits for the standby. -/
def State.tileWritten (s : State) (sid i : Nat) : State :=
  match s.tileOf sid i with
  | none => s
  | some (v, t) =>
    if t.st != .writing then s
    else match s.guardWrites (.tile sid i) t.writes with
    | (.fails _, s) => s
    | (.waits, s) => s.modTile sid i fun t => { t with ended := true }
    | (.yes, s) =>
      let w := v.steps.getLast?.getD 0
      let backs := sumOf (t.outs.map fun o => (Span.mk o.va o.bytes.length true).pieces.length)
      let r := if rsKind w == kScatter && rsOp w == 1 then
          let b := s.putWrites (t.writes.take backs)
          let a := b.2.scatterAdd w i 0 65536 (t.writes.drop backs)
          (t.writes.take backs ++ a.1, b.1.worse a.2.1, a.2.2)
        else let q := s.putWrites t.writes; (t.writes, q.1, q.2)
      let s := r.2.2.dropGot (.tile sid i)
      let t := t.meet r.2.1
      let s := s.modTile sid i fun _ => t
      let s := if hdSink v.head == 3 then s.multicast v i t t.condSt else s
      let s := if rsKind w == kCheck then
          s.modStream sid fun v => if rsOp w == 0 then { v with check := (v.check + t.diff) % 2 ^ 64 }
            else { v with checkHeld := v.checkHeld.put i (t.data.take (s.packed (rsIn w) t.count)) }
        else s
      let m := s.mirrorWrites r.1 [] (.tile sid i)
      if m.1 then
        let s := if thKind t.hdr == tkAppend then m.2.mirrorFrontier t (.tile sid i) else m.2
        s.modTile sid i fun t => { t with st := .mirror }
      else m.2.endTile sid i t.condSt (resultPayload v i t t.condSt)

/-- The standby holds a tile's writes: it completes (16 R434). -/
def State.tileMirrored (s : State) (sid i : Nat) : State :=
  match s.tileOf sid i with
  | none => s
  | some (v, t) => if t.st == .mirror then s.endTile sid i t.condSt (resultPayload v i t t.condSt) else s

/-! The end of a step. -/

/-- Why a tile's table step cannot run: SCATTER behind another step has no index part, and an index reaches past the limit
(R38, R76). -/
def tableBad (v : Stream) (t : Tile) : Option Status :=
  let w := v.steps.getD t.step 0
  if rsKind w == kScatter && t.step != 0 then some .faultFormat
  else if (rsKind w == kGather || rsKind w == kScatter) && t.indices.any (rsLimit w ≤ ·) then some .faultRange
  else none

/-- A tile that cannot go on leaves its station before a byte has moved, and ends with a status. -/
def State.refuseStep (s : State) (n sid i : Nat) (st : Status) : State := (s.yieldStation n).endTile sid i st

/-- A granted tile begins its step: everything the tile touches is translated first (08 R222), and the translations are held
from here (R223). Where a page must be recalled or populated, the tile gives its station up and waits; where one is absent or
revoked, it ends. The work of a contribution is at its ledger tile, of which the whole scratch range is made ready. -/
def State.startTile (s : State) (n sid i : Nat) (v : Stream) (t : Tile) : State :=
  let rr := tileReacher sid i v n
  let w := v.steps.getD t.step 0
  let spans := s.needSpans v t i
  match if hdSrc v.head == 0 || t.loaded then tableBad v t else none with
  | some st => s.refuseStep n sid i st
  | none =>
    let scratch := if rsKind w == kLedger then s.ledgerSpans (rsWindow w) (thLedger t.hdr) (thContrib t.hdr) else []
    match s.reachSpans rr spans with
    | (.fails st, s) => s.refuseStep n sid i st
    | (.waits, s) => (s.modTile sid i fun t => { t with st := .recall n }).yieldStation n
    | (.yes, s) =>
      match if (s.spanFault rr scratch).isNone then s.reachSpans rr scratch else (.yes, s) with
      | (.waits, s) => (s.modTile sid i fun t => { t with st := .recall n }).yieldStation n
      | (.fails st, s) => s.refuseStep n sid i st
      | (.yes, s) => s.modTile sid i fun t => { t with tr := s.hold rr spans }

/-- The work of a step that ends well (R53): the source is read, rows that its indices name are translated, and the step is
computed once its bytes are at hand. Bytes that must come from an owner or from the standby hold the step at its station, its
translations with it; rows that must be recalled make the tile run the step again (08 R222, R223, 06 Table 6-10). -/
def State.stepDone (s : State) (n sid i : Nat) (v : Stream) (t : Tile) : State :=
  let rr := { tileReacher sid i v n with held := t.tr }
  let inStep (s : State) : State := s.modTile sid i fun t => { t with ended := true }
  match s.loadSource rr v i t with
  | (.waits, _, s) => inStep s
  | (.fails st, _, s) => (s.boundary n).endTile sid i st
  | (.yes, t', s) =>
    match tableBad v t' with
    | some st => (s.boundary n).endTile sid i st
    | none =>
      let rows := if hdSrc v.head == 1 && !t.loaded then s.stepSpans v t' i t.step else []
      match s.reachSpans rr rows with
      | (.waits, s) => (s.modTile sid i fun t => { t with st := .recall n, tr := [], ended := false }).boundary n
      | (.fails st, s) => (s.boundary n).endTile sid i st
      | (.yes, s) =>
        let rr := { rr with held := s.hold rr rows }
        match s.guardSpans rr ((s.stepSpans v t' i t.step).filter fun x => !x.write) with
        | (.waits, s) => inStep s
        | (.fails st, s) => (s.boundary n).endTile sid i st
        | (.yes, s) =>
          let r := s.compute rr v i { t' with tr := rr.held }
          if t.step + 1 < v.steps.length then
            let t := { r.1 with step := t.step + 1, prev := some n, st := .ready, tr := [], ended := false }
            ((r.2.modTile sid i fun _ => t).boundary n).later [.bind sid]
          else (r.2.finishTile sid i n v r.1).boundary n

/-- A contribution reaches its home station (04 R107, R108): its final write is the addition into the ledger, with the marks of
its elements (03 R96). Write-back operands of its VECTOR steps are written with it, or not at all (R39). -/
def State.contributeTile (s : State) (sid i : Nat) : State :=
  match s.tileOf sid i with
  | none => s
  | some (v, t) =>
    match t.st with
    | .running n =>
      let w := v.steps.getD t.step 0
      if rsKind w != kLedger then s
      else
        let rr := { tileReacher sid i v n with held := t.tr }
        let writes := t.outs.flatMap fun o => s.placed rr o.va o.bytes fun b => o.bad.contains (b / 256)
        match s.guardWrites (.tile sid i) writes with
        | (.fails _, s) => s
        | (.waits, s) => s.modTile sid i fun t => { t with ended := true }
        | (.yes, s) =>
          let vals := (s.fmt (rsIn w)).values t.data t.count
          let r := s.contribute (rsWindow w) (thLedger t.hdr) (thContrib t.hdr) vals t.marks
          let s := r.2.dropGot (.tile sid i)
          if r.1 != .ok then (s.boundary n).endTile sid i r.1
          else
            let q := s.putWrites writes
            let t := t.meet q.1
            let s := q.2.modTile sid i fun _ => { t with st := .writing, prev := some n, began := true }
            let m := s.mirrorWrites writes [] (.tile sid i)
            if m.1 then ((m.2.modTile sid i fun t => { t with st := .mirror }).commitStream sid).boundary n
            else (m.2.boundary n).endTile sid i t.condSt
    | _ => s

/-! Binding a stream's tiles. -/

/-- The field in which a split is placed (05 R143): that of its first key block that takes part. -/
def State.splitField (s : State) (sid i : Nat) (v : Stream) (t : Tile) (d block : Nat) : Option Nat :=
  (s.devAt (tileReacher sid i v 160) (s.keyBlock d (thHead t.hdr) block) false).map fun x => devField x.1

/-- Whether a block holds a visible position for query position `k` (05 R141). -/
def blockVisible (d pos q k b : Nat) : Bool :=
  let w := visible d pos q k
  256 * b ≤ w.2 && w.1 < 256 * (b + 1)

/-- The blocks of a split that take part for any position. -/
def splitBlocks (t : Tile) (d j : Nat) : List Nat :=
  let q := qPositions t d
  let lo := j * qS d
  let hi := min ((j + 1) * qS d) (qB d)
  ((List.range (hi - lo)).map (lo + ·)).filter fun b => (List.range q).any fun k => blockVisible d (thPosition t.hdr) q k b

/-- The splits of a query that have no station are placed (05 R143). -/
def State.placeSplits (s : State) (sid i : Nat) (v : Stream) (t : Tile) : State :=
  match s.seq.contexts.find (thObj t.hdr) with
  | none => s
  | some c =>
    (t.splits.filter fun x => x.2.station.isNone && x.2.result.isNone).foldl (fun s x =>
      let f := s.splitField sid i v t c.desc ((splitBlocks t c.desc x.1).headD 0)
      let n := leastStation (s.candidates v.tenant f) fun n =>
        ((s.station n).work.filter fun w => w.2.2.isSome).length
      match n with
      | none => s
      | some n =>
        let r := s.bindTo n sid i (some x.1)
        if r.1 then r.2.modTile sid i fun t => { t with splits := t.splits.adjust x.1 fun y => { y with station := some n } }
        else s) s

/-- A stream binds what can run, in ascending index (R45, R59). -/
def State.bindStream (s : State) (sid : Nat) : State :=
  match s.str.streams.find sid with
  | none => s
  | some v =>
    v.tiles.foldl (fun s x =>
      match s.tileOf sid x.1 with
      | none => s
      | some (v, t) => match t.st with
        | .ready => if v.closed && !t.began then s else s.bindTile sid x.1 v t
        | .splitting => s.placeSplits sid x.1 v t
        | .order => if v.lowest == x.1 then s.scatterTurn sid x.1 v t else s
        | _ => s) s

/-- Every stream with tiles binds what can run. -/
def State.bindAll (s : State) : State :=
  s.later ((s.str.streams.keysWhere fun v => !v.tiles.isEmpty).map .bind)

/-! Fencing. -/

/-- The splits of a query that a lost station takes with it: the one that ran there, and all of them where the station
merges (05 R145). -/
def loseSplits (n : Nat) (t : Tile) : Tile :=
  let merge := (t.splits.head?.map fun x => x.2.station == some n).getD false
  { t with splits := t.splits.each fun _ x =>
      if merge || (x.station == some n && x.result.isNone) then {} else x }

/-- Whether a tile's work at a station is lost when that is fenced: its step, or a final write that has yet to put its bytes in
place (01 R17, R18, 05 R145). A SCATTER tile that waits for its turn would write from there. -/
def lostAt (n : Nat) (t : Tile) : Bool :=
  match t.st with
  | .running m => m == n
  | .writing => t.prev == some n
  | .order => t.prev == some n
  | _ => false

/-- Splits of a query that run again leave the stations that hold them. -/
def State.dropSplits (s : State) (sid i : Nat) (l : List Nat) : State :=
  s.stn.stations.foldl (fun s x =>
    let mine (w : Nat × Nat × Option Nat) : Bool := w.1 == sid && w.2.1 == i && match w.2.2 with
      | some j => l.contains j
      | none => false
    if x.2.work.any mine || (x.2.run.map mine).getD false then
      (s.modStation x.1 fun y => { y with
        work := y.work.filter fun w => !mine w
        run := if (y.run.map mine).getD false then none else y.run }).later [.arbitrate x.1]
    else s) s

/-- The tiles and splits at a station go back to their streams. A tile in its step runs again from the start, and so does one
whose final write has begun there and is not done, for the station writes nothing more (01 R17 to R19): its stream's commit
point stands. -/
def State.evacuate (s : State) (n : Nat) : State :=
  let x := s.station n
  let s := s.modStation n fun x => { x with granted := none, parked := [], cut := [], work := [], run := none }
  let s := x.work.foldl (fun s w => match w.2.2 with
    | none => s.modTile w.1 w.2.1 fun t => { t with st := .ready }
    | some _ => s) s
  let s := { s with str.streams := s.str.streams.each fun _ v =>
    { v with tiles := v.tiles.each fun _ t => if lostAt n t then t.restart else t } }
  let s := s.str.streams.foldl (fun s v => v.2.tiles.foldl (fun s t =>
    if t.2.st == .splitting then
      let t' := loseSplits n t.2
      let again := (t'.splits.filter fun y => y.2.station.isNone && ((t.2.splits.find y.1).map fun z => z.station.isSome) == some true).map (·.1)
      (s.modTile v.1 t.1 fun _ => t').dropSplits v.1 t.1 again
    else s) s) s
  (s.releaseAtomics n).bindAll

/-- A station is fenced (01 R17, R18, R21): cause 0 store, 1 residue, 2 watchdog. -/
def State.fenceStation (s : State) (n cause : Nat) : State :=
  match (s.station n).st with
  | .bound slot =>
    let s := s.modStation n fun x => { x with st := .fenced slot }
    let s := (s.recOp 0x0401 9 n 0 cause).evacuate n
    s.assignStations
  | _ => s

/-- TILE_STEP_END: the step of the item that a station runs has ended (01 R17, R18, 02 R53, R58). The step of a contribution
ends at the ledger, and that of a split with its partial result. -/
def State.stepEnd (s : State) (n sid i cycles : Nat) (check : StepCheck) : State :=
  match (s.station n).run with
  | none => s
  | some w =>
    if w.1 != sid || w.2.1 != i then s
    else match check with
      | .store => s.fenceStation n 0
      | .residue => s.fenceStation n 1
      | .ok =>
        match s.tileOf sid i with
        | none => s
        | some (v, t) =>
          let ctx := if w.2.2.isSome then some (thObj t.hdr) else none
          let s := s.chargeCycles n sid cycles ctx
          if w.2.2.isSome || rsKind (v.steps.getD t.step 0) == kLedger || t.ended then s
          else s.stepDone n sid i v t

/-- Whether a tile waits on a pseudo-channel that is held (10 R293). -/
def State.onHold (s : State) (sid i : Nat) : Bool := s.stk.waiting.any fun w => w.2.contains (.tile sid i)

/-- STEP_WATCHDOG_EXPIRY (01 R17). A granted tile that waits on a held pseudo-channel is making progress (10 R293). -/
def State.stepWatchdog (s : State) (n : Nat) : State :=
  match (s.station n).run with
  | some (sid, i, _) => if s.onHold sid i then s else s.fenceStation n 2
  | none => s

/-- A station that is fenced or stopped by a field reset counts as acknowledged once its work has moved (08 R230). -/
def State.ackStopped (s : State) (n : Nat) : State :=
  { s with pool.invals := s.pool.invals.each fun _ i =>
      if s.engineBusy n i.range then i else { i with engines := setBit i.engines n false } }

/-- The stations that a field reset has stopped: their level-one buffers are empty, and they count as acknowledged (08 R230). -/
def State.ackResets (s : State) : State :=
  if s.dev.fieldReset == 0 then s
  else (List.range 144).foldl (fun s n =>
    if bit s.dev.fieldReset (n / 9) && (s.station n).run.isNone then { s with pool.l1 := s.pool.l1.del n }.ackStopped n else s) s

/-- FENCE_STATE_MOVED: the resident ledger tiles of a fenced station stand in their scratch areas; those with a word that
could not be read are poisoned (01 R19). -/
def State.fenceMoved (s : State) (n : Nat) (lost : List (Nat × Nat)) : State :=
  match (s.station n).st with
  | .fenced _ =>
    let mine := lost.filter (s.station n).resident.contains
    let s := s.spillAll n
    let s := mine.foldl (fun s x => match s.seq.windows.find x.1 with
      | some v => s.modLTile x.1 x.2 fun l => { l with poison := true, marks := List.range (wTileElems v.desc x.2) }
      | none => s) s
    let rehome (l : LTile) : LTile := if l.home == some n then { l with home := none } else l
    let s := { s with seq.windows := s.seq.windows.each fun _ v => { v with tiles := v.tiles.each fun _ l => rehome l } }
    let s := { s with pool.l1 := s.pool.l1.del n }
    (s.ackStopped n).bindAll
  | _ => s

end Sys2Proof.Machine
end

