-- ==== Sys2Proof/Machine/Split.lean ====
section
/-! DEFINITION. Split.lean: attention queries (05 R136 to R145): their splits, each split's partial result by the arithmetic
of 03 R86 to R90, and the merge. -/

namespace Sys2Proof.Machine

/-- The positions that a query reads in a block: those visible to any of its query positions. -/
def blockPositions (t : Tile) (d b : Nat) : List Nat :=
  let q := qPositions t d
  ((List.range 256).map (256 * b + ·)).filter fun p =>
    (List.range q).any fun k => let w := visible d (thPosition t.hdr) q k; w.1 ≤ p && p ≤ w.2

/-- The ranges of the rows of a split's blocks (08 R222). -/
def State.splitSpans (s : State) (t : Tile) (d j : Nat) : List Span :=
  (splitBlocks t d j).flatMap fun b => (blockPositions t d b).flatMap fun p =>
    (s.rowPlaces d (thHead t.hdr) p false 1 0 ++ s.rowPlaces d (thHead t.hdr) p true 1 0).map fun x => ⟨x.1, x.2.2, false⟩

/-- One row read: its values, its bad elements, the condition. -/
def State.readRow (s : State) (rr : Reacher) (d h pos : Nat) (value : Bool) : List Val × List Nat × Status × State :=
  let f := s.fmt (qKvFormat d)
  let dim := qDim d
  match s.rowPlaces d h pos value 1 0 with
  | [c] =>
    let g := s.fetch rr c.1 c.2.2
    (f.values g.1.bytes dim, f.badElems dim g.1.isBad, g.1.cond, g.2)
  | [c, x] =>
    let g := s.fetch rr c.1 c.2.2
    let a := g.2.fetch rr x.1 x.2.2
    let area := f.scaleArea dim
    let bad (b : Nat) : Bool := if b < area then a.1.isBad b else g.1.isBad (b - area)
    (f.values (padTo a.1.bytes area ++ g.1.bytes) dim, f.badElems dim bad, g.1.cond.worse a.1.cond, a.2)
  | _ => ([], [], .ok, s)

/-- A position of a split: its key and value rows with their bad elements. -/
structure KvRow where
  pos    : Nat
  key    : List Val
  value  : List Val
  keyBad : Bool
  valBad : List Nat

/-- The rows of a split's blocks. -/
def State.readSplit (s : State) (rr : Reacher) (t : Tile) (d j : Nat) : List KvRow × Status × State :=
  let h := thHead t.hdr
  (splitBlocks t d j).foldl (fun x b => (blockPositions t d b).foldl (fun (x : List KvRow × Status × State) p =>
    let k := x.2.2.readRow rr d h p false
    let v := k.2.2.2.readRow rr d h p true
    (x.1 ++ [⟨p, k.1, v.1, !k.2.1.isEmpty, v.2.1⟩], (x.2.1.worse k.2.2.1).worse v.2.2.1, v.2.2.2)) x) ([], .ok, s)

/-- The scale of a query head (R88, R137). -/
def headScale (c : Context) (h g : Nat) : Nat :=
  if qScaleMode c.desc then c.scales.getD (h * qG c.desc + g) 0 else qScale c.desc

/-- The query row of a head at a position, in the operand format (R86, R136). -/
def State.queryRow (s : State) (t : Tile) (d k g : Nat) : List Val :=
  let f := s.fmt (thFormat t.hdr)
  through (queryFmt (s.fmt (qKvFormat d))) (slice (f.values t.data t.count) ((k * qG d + g) * qDim d) (qDim d))

/-- SCORE and BLEND of a split for one query head at one position (R87 to R89, R142). -/
def State.splitHead (s : State) (c : Context) (t : Tile) (rows : List KvRow) (j k g : Nat) : Option (Nat × Nat × List Nat) :=
  let d := c.desc
  let q := qPositions t d
  let w := visible d (thPosition t.hdr) q k
  let blocks := (splitBlocks t d j).filter (blockVisible d (thPosition t.hdr) q k)
  if blocks.isEmpty then none
  else
    let query := s.queryRow t d k g
    let scale := headScale c (thHead t.hdr) g
    let b := blocks.foldl (fun (st : Blend) b =>
      let one (p : Nat) : (Nat × Bool) × List Val :=
        match if w.1 ≤ p && p ≤ w.2 then rows.find? fun r => r.pos == p else none with
        | some r => ((scoreOf (dot query r.key) scale (qSoftcap d) false, false), r.value)
        | none => ((fneginf, true), [])
      let l := (List.range 256).map fun i => one (256 * b + i)
      st.block (queryFmt (s.fmt (qKvFormat d))) (l.map (·.1)) (l.map (·.2))) (Blend.start (qDim d))
    some (b.m, b.l, b.o)

/-- The partial result of a split, and the output elements that a bad sector reaches (03 R96). -/
def State.splitPartial (s : State) (c : Context) (t : Tile) (rows : List KvRow) (st : Status) (j : Nat) : Partial :=
  let d := c.desc
  let q := qPositions t d
  let heads := (List.range q).flatMap fun k => (List.range (qG d)).map fun g => s.splitHead c t rows j k g
  let bad := rows.filter fun r => r.keyBad || !r.valBad.isEmpty
  let marks := if bad.isEmpty then []
    else (List.range q).flatMap fun k =>
      let w := visible d (thPosition t.hdr) q k
      let seen := bad.filter fun r => w.1 ≤ r.pos && r.pos ≤ w.2
      let el := (List.range (qDim d)).filter fun e => seen.any fun r => r.keyBad || r.valBad.contains e
      (List.range (qG d)).flatMap fun g => el.map fun e => (k * qG d + g) * qDim d + e
  { heads, status := st.code, marks }

/-! Release and merge. -/

/-- QUERY_SCORE_RELEASE: the appends that a query waits for are written; its splits are made and placed (R138, R141,
R143). -/
def State.scoreRelease (s : State) (sid i : Nat) : State :=
  match s.tileOf sid i with
  | none => s
  | some (v, t) =>
    match s.seq.contexts.find (thObj t.hdr) with
    | none => s
    | some c =>
      if rsKind (v.steps.getD t.step 0) != kScore || t.st != .ready || (v.closed && !t.began) || s.appendPending t c.desc then s
      else
        let d := c.desc
        let js := (List.range (ceilDiv (qB d) (qS d))).filter fun j => !(splitBlocks t d j).isEmpty
        let rr := tileReacher sid i v 160
        match s.spanFault rr (js.flatMap (s.splitSpans t d) ++ s.outSpan v t i) with
        | some st => s.endTile sid i st
        | none =>
          let t := { t with st := .splitting, splits := js.map fun j => (j, {}) }
          (s.modTile sid i fun _ => t).later [.bind sid]

/-- Partials of one query head merged in ascending split (R90, R142). -/
def mergeHead (l : List (Option (Nat × Nat × List Nat))) : List Val :=
  let parts := l.filterMap fun x => x.map fun y => (⟨y.1, y.2.1, y.2.2⟩ : Blend)
  match parts with
  | [] => []
  | a :: r => (r.foldl Blend.merge a).result

/-- A query all of whose splits have their partials is merged and goes to its sink (R139, R144). -/
def State.mergeQuery (s : State) (sid i : Nat) : State :=
  match s.tileOf sid i with
  | none => s
  | some (v, t) =>
    if t.st != .splitting || t.splits.any fun x => x.2.result.isNone then s
    else
      let parts : List Partial := t.splits.filterMap fun x => x.2.result
      let n := (t.splits.head?.bind fun x => x.2.station).getD 160
      let count := (parts.headD {}).heads.length
      let vals := (List.range count).flatMap fun k => mergeHead (parts.map fun p => p.heads.getD k none)
      let out := (s.fmt (routeOut v.steps)).pack vals toEven
      let st := Status.worst (overflowIf out.2 :: parts.map fun p => (Status.ofCode p.status).getD .ok)
      let rr := tileReacher sid i v n
      match s.reachSpans rr (s.outSpan v t i) with
      | (.waits, s) => s
      | (.fails st, s) => s.endTile sid i st
      | (.yes, s) =>
        let t := { t with step := v.steps.length - 1, prev := some n, tr := s.hold rr (s.outSpan v t i) }.after out.1 t.count
          ((parts.flatMap fun (p : Partial) => p.marks).foldl insertNum []) st
        s.finishTile sid i n v t

/-- A split changed. -/
def State.modSplit (s : State) (sid i j : Nat) (f : Split → Split) : State :=
  s.modTile sid i fun t => { t with splits := t.splits.adjust j f }

/-- A granted split begins: the rows of its blocks are translated, and the translations held (08 R222, R223). Where a page must be
recalled it gives its station up and waits; where one is absent or revoked, its query ends. -/
def State.startSplit (s : State) (n sid i j : Nat) (v : Stream) (t : Tile) : State :=
  match s.seq.contexts.find (thObj t.hdr) with
  | none => s
  | some c =>
    let rr := tileReacher sid i v n
    let spans := s.splitSpans t c.desc j
    match s.reachSpans rr spans with
    | (.waits, s) => (s.modSplit sid i j fun x => { x with station := none, running := false }).yieldStation n
    | (.fails st, s) => ((s.yieldStation n).dropSplits sid i (t.splits.map (·.1))).endTile sid i st
    | (.yes, s) => s.modSplit sid i j fun x => { x with tr := s.hold rr spans }

/-- The item that a station has granted begins. -/
def State.startItem (s : State) (n : Nat) : State :=
  match (s.station n).run with
  | none => s
  | some (sid, i, split) =>
    match s.tileOf sid i with
    | none => s
    | some (v, t) => match split with
      | none => s.startTile n sid i v t
      | some j => s.startSplit n sid i j v t

/-- SPLIT_FINISH: a split ends with its partial result (R142, R144). Bytes that must come from an owner or from the standby hold it
at its station. -/
def State.splitFinish (s : State) (sid i j : Nat) : State :=
  match s.tileOf sid i, s.stn.stations.find? fun x => x.2.run == some (sid, i, some j) with
  | some (v, t), some (n, _) =>
    match s.seq.contexts.find (thObj t.hdr) with
    | none => s
    | some c =>
      let rr := { tileReacher sid i v n with held := ((t.splits.find j).map (·.tr)).getD [] }
      match s.guardSpans rr (s.splitSpans t c.desc j) with
      | (.waits, s) => s.modSplit sid i j fun x => { x with ended := true }
      | (.fails st, s) => ((s.boundary n).dropSplits sid i (t.splits.map (·.1))).endTile sid i st
      | (.yes, s) =>
        let r := s.readSplit rr t c.desc j
        let p := s.splitPartial c t r.1 r.2.1 j
        let s := r.2.2.modSplit sid i j fun x => { x with running := false, tr := [], ended := false, result := some p }
        let s := (s.boundary n).mergeQuery sid i
        s.later ((t.splits.filterMap fun x => x.2.station).map .arbitrate)
  | _, _ => s

/-- A tile whose step or final write waited for bytes goes on with it. -/
def State.resumeTile (s : State) (sid i n : Nat) (v : Stream) (t : Tile) : State :=
  if !t.ended then s
  else if t.st == .writing then s.tileWritten sid i
  else if rsKind (v.steps.getD t.step 0) == kLedger then s.contributeTile sid i
  else s.stepDone n sid i v { t with ended := false }

/-- A waiting tile runs again: it is bound anew, its step or its final write goes on, or its splits and their merge do (06 Table
6-10, 07 R201, 08 R227, 11 R302). -/
def State.rerunTile (s : State) (sid i : Nat) : State :=
  match s.tileOf sid i with
  | none => s
  | some (v, t) => match t.st with
    | .recall _ => (s.modTile sid i fun t => { t with st := .ready }).later [.bind sid]
    | .splitting =>
      let s := (t.splits.filter fun x => x.2.ended).foldl (fun s x => s.splitFinish sid i x.1) s
      (s.mergeQuery sid i).later [.bind sid]
    | .running n => s.resumeTile sid i n v t
    | .writing => s.resumeTile sid i 160 v t
    | .order => s.later [.bind sid]
    | _ => s

/-- A tile has waited its bound for a population (08 Table 8-5): it has no effect, and BUSY_RETRY is its status. -/
def State.lateTile (s : State) (sid i : Nat) : State :=
  match s.tileOf sid i with
  | some (_, t) => if inFinal t then s.rerunTile sid i else s.endTile sid i .busyRetry
  | none => s

end Sys2Proof.Machine
end

