-- ==== Sys2Proof/Machine/Streams.lean ====
section
/-! DEFINITION. Streams.lean: stream descriptors and their tests (02 R33 to R44, R528), opening, arriving tiles (R52, R55,
Tables 2-12, 4-4 and 5-6), tiles of extent sources (R59), and FORMAT_LOAD (03 R66). -/

namespace Sys2Proof.Machine

/-- Why a descriptor is refused: the status over the fabric, the reason code over CCP. -/
abbrev OpenRefuse := Status × Nat

/-! A descriptor's own fields (R528 test 1). -/

/-- Reserved bits of a head (Table 2-4). -/
def headReserved (h : Nat) : Bool :=
  bits h 511 320 != 0 || bits h 255 252 != 0 || bits h 191 176 != 0 || bits h 127 112 != 0 || bits h 47 36 != 0 ||
    bits h 23 19 != 0 || bit h 15 || bits h 11 10 != 0

def headBad (h : Nat) : Bool :=
  let sink := hdSink h
  bits h 3 0 != 3 || 4 < hdService h || 1 < hdSrc h || hdElems h == 0 || (hdSinkObj h != 0 && sink != 1 && sink != 3) ||
    (hdSinkAddr h != 0 && sink != 0 && sink != 3) || hdSinkAddr h % 256 != 0 || hdSrcAddr h % 256 != 0 ||
    (hdSrcAddr h != 0 && hdSrc h == 0)

def isTable (k : Nat) : Bool := k == kGather || k == kScatter

/-- Reserved bits of a step: those of Table 2-5, and the fields of Table 2-6 that its kind does not use (R36). -/
def stepReserved (w : Nat) : Bool :=
  let k := rsKind w
  bit w 3 || bit w 19 || bits w 255 168 != 0 ||
    (if k == kGather then false
     else if k == kScatter then rsBag w != 0
     else if k == kVector then bits w 167 115 != 0
     else if k == kLedger then bits w 167 76 != 0
     else if k == kCheck && rsOp w == 0 then bits w 167 112 != 0
     else bits w 167 64 != 0) ||
    (k != kVector && rsProg w != 0) || (k == kLedger && rsOut w != 0)

/-- Whether a role is allowed for a kind (Table 2-9). -/
def roleAllowed (role k : Nat) : Bool :=
  let free := [kMove, kGather, kScatter, kVector, kCheck]
  if role == 1 || role == 2 || role == 7 then free.contains k
  else if role == 3 then k == kLedger
  else if role == 4 then k == kScore
  else if role == 5 then k == kBlend
  else if role == 6 then [kMove, kVector, kGather].contains k
  else false

/-- How many operations a kind has (Table 2-7). -/
def opsOf (k : Nat) : Nat := if k == kGather then 4 else if k == kScatter then 2 else if k == kLedger then 3 else if k == kCheck then 2 else 1

def stepBad (elems w : Nat) : Bool :=
  let k := rsKind w
  opsOf k ≤ rsOp w || !roleAllowed (rsRole w) k || (!rsRounding w && rsSeed w != 0) ||
    (rsRounding w && (k == kLedger || k == kScore || k == kBlend || k == kCheck)) ||
    (isTable k && (rsRow w % 32 != 0 || rsRow w == 0 || 16384 < rsRow w)) ||
    (k == kGather && (rsBag w == 0 || (rsOp w != 0 && elems % rsBag w != 0))) ||
    ((isTable k || k == kVector || (k == kCheck && rsOp w == 0)) && rsRef w % 256 != 0)

/-- The route rules (Table 2-10). -/
def routeBad (h : Nat) (steps : List Nat) : Bool :=
  let ks := steps.map rsKind
  let n := ks.length
  let sink := hdSink h
  let each := steps.zipIdx.any fun x =>
    let k := rsKind x.1
    let i := x.2
    let last := i + 1 == n
    (k == kGather && i != 0) || ((k == kScatter || k == kCheck) && (!last || sink != 2)) ||
      (k == kLedger && (!last || sink != 1 || rsWindow x.1 != hdSinkObj h)) ||
      (k == kScore && ks.getD (i + 1) 9 != kBlend) ||
      (k == kBlend && (i == 0 || ks.getD (i - 1) 9 != kScore || !last || !(sink == 0 || sink == 2)))
  each || (sink == 2 && hdSrc h == 1 && ks.getLast? != some kCheck) || (sink == 1 && ks.getLast? != some kLedger) ||
    (hdSrc h == 1 && (ks.contains kLedger || ks.head? == some kScore || hdCount h == 0))

/-! The formats (R528 test 2). -/

/-- Whether a slot is one of some preloaded slots, or a loaded one of their kind (03 R74). -/
def State.slotIs (s : State) (l : List Nat) (slot : Nat) : Bool := l.contains slot || (14 ≤ slot && (s.fmt slot).kind == 1)

def State.stepFormatBad (s : State) (elems w : Nat) : Bool :=
  let k := rsKind w
  let f := s.fmt (rsIn w)
  let g := s.fmt (rsOut w)
  let block (f : Fmt) : Bool := f.isBlock && elems % f.blockLen != 0
  f.kind == 0 || g.kind == 0 || block f || block g ||
    (isTable k && (3 < f.kind || rsOut w != rsIn w)) ||
    (k == kScore && !(s.slotIs [0, 1, 2] (rsIn w) && s.slotIs [0] (rsOut w))) ||
    (k == kBlend && !(s.slotIs [0] (rsIn w) && s.slotIs [0, 2] (rsOut w))) ||
    (k == kCheck && rsOut w != rsIn w)

def State.formatsBad (s : State) (elems : Nat) (steps : List Nat) : Bool :=
  steps.any (s.stepFormatBad elems) || (steps.zip (steps.drop 1)).any fun x => rsOut x.1 != rsIn x.2

/-! The objects (R528 test 4). -/

/-- A range of addresses that a stream reads or writes. -/
structure Area where
  va    : Nat
  len   : Nat
  write : Bool

/-- The extents that a range is mapped to. -/
def State.extentsIn (s : State) (asid : Nat) (a : Area) : List Nat :=
  (s.pool.maps.filter fun m => m.asid == asid && !m.removing && m.vaBase < a.va + a.len && a.va < m.vaBase + m.count * 2097152).foldl
    (fun l m => insertNum l m.extent) []

/-- Who opens a stream. -/
structure Opener where
  tenant  : Nat
  session : Option Nat      -- its link session; none over CCP
  kfp2    : Bool := false   -- by a KFP-2 request, which reaches no common and no versioned extent (00 R3, 13 R378)

/-- The set of a sealed extent. -/
def extSet (e : Extent) : Nat := bits e.desc 175 160

/-- Whether every byte of a range lies in extents sealed under a set. -/
def State.sealedUnder (s : State) (asid set : Nat) (a : Area) : Bool :=
  let inner := (s.pool.maps.filter fun m => m.asid == asid && !m.removing &&
    ((s.pool.extents.find m.extent).any fun e => extSealed e && extSet e == set)).map fun m => (m.vaBase, m.vaBase + m.count * 2097152)
  let rec cover (fuel at' : Nat) : Bool :=
    match fuel with
    | 0 => false
    | f + 1 => if a.va + a.len ≤ at' then true
      else match inner.find? fun r => r.1 ≤ at' && at' < r.2 with
        | some r => cover f r.2
        | none => false
  cover (inner.length + 2) a.va

/-- The sealed-extent checks of an area that a stream reads (09 R266): `sink` is the sink's area, `backs` those of the
write-back operands. -/
def State.sealedBad (s : State) (o : Opener) (asid sinkKind : Nat) (sink : Option Area) (backs : List Area) (a : Area) :
    Option OpenRefuse :=
  let read := (s.extentsIn asid a).filterMap fun e => (s.pool.extents.find e).bind fun v => if extSealed v then some v else none
  if a.write || read.isEmpty then none
  else match o.session with
    | none => some (.denied, 0x0501)
    | some sid =>
      let bad := read.any fun v =>
        !s.inSet v sid || !(sinkKind == 2 || (sink.any (s.sealedUnder asid (extSet v)))) ||
          backs.any fun b => !s.sealedUnder asid (extSet v) b
      if bad then some (.denied, 0x0502) else none

/-- The version bindings of an area (06 R178); none where a written extent has no open draft. -/
def State.bindArea (s : State) (asid : Nat) (a : Area) : Option (List Binding) :=
  (s.extentsIn asid a).foldl (fun l e =>
    l.bind fun l => match s.pool.extents.find e with
      | none => some l
      | some v =>
        if !extVersioned v then some l
        else if a.write then match v.draft with
          | some d => if d.commit.isNone then some (l ++ [⟨e, v.current, some d.handle⟩]) else none
          | none => none
        else some (l ++ [⟨e, v.current, none⟩])) (some [])

/-- What an area is tested for (R528 test 4; 00 R3, log 187). -/
def State.areaBad (s : State) (o : Opener) (asid sinkKind : Nat) (sink : Option Area) (backs : List Area) (a : Area) :
    Option OpenRefuse :=
  if o.kfp2 && (s.extentsIn asid a).any s.sharedExt then some (.unsupported, 0x0402)
  else match s.sealedBad o asid sinkKind sink backs a with
  | some r => some r
  | none => if (s.bindArea asid a).isNone then some (.faultVersion, 0x0402) else none

def firstSome {α : Type} : List (Option α) → Option α
  | [] => none
  | some a :: _ => some a
  | none :: l => firstSome l

/-- The sink's existence and state (R43), and the comparisons of a window (04 R106). -/
def State.sinkBad (s : State) (head : Nat) (steps : List Nat) : Option OpenRefuse :=
  if hdSink head == 1 then
    match s.seq.windows.find (hdSinkObj head) with
    | none => some (.faultRange, 0x0401)
    | some v =>
      if v.state == .disabled then some (.faultRange, 0x0402)
      else if v.state == .retired then some (.retired, 0x0402)
      else if hdElems head != 2048 then some (.malformed, 0x0101)
      else if rsOp (steps.getLast?.getD 0) != wOp v.desc then some (.malformed, 0x0105)
      else if hdAsid head != wAsid v.desc then some (.denied, 0x0502)
      else none
  else if hdSink head == 3 then
    if (s.fab.groups.findD (hdSinkObj head) (0, false)).2 then none else some (.faultRange, 0x0402)
  else none

/-- How the opening of a stream ends: with what was asked for, with a refusal, or not yet, for it waits for a page. -/
inductive Opened (α : Type) where
  | yes (x : α)
  | no (r : OpenRefuse)
  | waits
  deriving DecidableEq, Repr

/-- The area of a step's operand table. -/
def tableArea (w : Nat) : Area := ⟨rsRef w, 8 * rsOpnds w, false⟩

/-- An operand table read at open (R39). A page of it that a node holds is recalled and a sector that only the standby has is
fetched, and the opening waits for both (08 R221, 11 R302). A sector of it under a data condition counts with the bytes that its
read answers, zeros where they are lost (log 168). -/
def State.readOperands (s : State) (rr : Reacher) (elems w : Nat) : Opened (List Operand) × State :=
  let n := rsOpnds w
  if n == 0 then (.yes [], s)
  else
    match s.readySpans rr [⟨rsRef w, 8 * n, false⟩] with
    | (.fails st, s) => (.no (st, if st == .busyRetry then 0x0205 else 0x0404), s)
    | (.waits, s) => (.waits, s)
    | (.yes, s) =>
      let g := s.fetch rr (rsRef w) (8 * n)
      let es := (List.range n).map fun j => leNat (slice g.1.bytes (8 * j) 8)
      let misfit (f : Fmt) : Bool := f.isBlock && elems % f.blockLen != 0
      if es.any fun e => bits e 63 54 != 0 || bits e 47 0 % 256 != 0 then (.no (.malformed, 0x0103), g.2)
      else if es.any fun e => (g.2.fmt (bits e 52 48)).kind == 0 then (.no (.faultFormat, 0x0401), g.2)
      else if es.any fun e => misfit (g.2.fmt (bits e 52 48)) then (.no (.faultFormat, 0x0105), g.2)
      else (.yes (es.map fun e => ⟨bits e 47 0, bits e 52 48, bit e 53⟩), g.2)

/-- The operand tables of the steps in route order, up to the first that is refused or waits; [] for a step without one. -/
def State.readTables (s : State) (rr : Reacher) (elems : Nat) : List Nat → List (Opened (List Operand)) × State
  | [] => ([], s)
  | w :: l =>
    match if rsKind w == kVector then s.readOperands rr elems w else (.yes [], s) with
    | (.yes x, s) => let r := State.readTables s rr elems l; (.yes x :: r.1, r.2)
    | (x, s) => ([x], s)

/-- The areas that a stream's source, sink and steps name. A stream without a tile count counts as one tile. -/
def State.srcArea (s : State) (head : Nat) (steps : List Nat) : List Area :=
  if hdSrc head == 1 then [⟨hdSrcAddr head, hdCount head * s.inBytes head steps, false⟩] else []

def tilesOf (head : Nat) : Nat := max 1 (hdCount head)

def State.sinkArea (s : State) (head : Nat) (steps : List Nat) : Option Area :=
  if hdSink head == 0 then some ⟨hdSinkAddr head, tilesOf head * s.outBytes head steps, true⟩ else none

def State.stepAreas (s : State) (head w : Nat) : List Area :=
  if isTable (rsKind w) then [⟨rsRef w, rsLimit w * rsRow w, rsKind w == kScatter⟩]
  else if rsKind w == kCheck && rsOp w == 0 then [⟨rsRef w, tilesOf head * s.stride head (rsIn w), false⟩]
  else []

def State.operandAreas (s : State) (head : Nat) (l : List Operand) (write : Bool) : List Area :=
  (l.filter fun e => !write || e.writeback).map fun e => ⟨e.addr, tilesOf head * s.stride head e.format, write⟩

/-- What decides the opening at the operand tables, table after table (R528 test 4): the first that waits, whose own refusal
(R39) stands, or that or whose operands an area test refuses. -/
def tablesBad (area : Area → Option OpenRefuse) (operands : List Operand → List Area) :
    List (Nat × Opened (List Operand)) → Opened Unit
  | [] => .yes ()
  | (_, .waits) :: _ => .waits
  | (_, .no r) :: _ => .no r
  | (w, .yes l) :: r =>
    match firstSome ((if rsOpnds w == 0 || rsKind w != kVector then [] else [tableArea w]) ++ operands l |>.map area) with
    | some e => .no e
    | none => tablesBad area operands r

/-- A stream enters a free context (Table 2-11): its epoch advances, it becomes a reader of the versions it is bound to (06 R178),
and its programs are copied (03 R80). -/
def State.enterStream (s : State) (o : Opener) (node : Nat) (ccp : Option Nat) (head : Nat) (steps : List Nat)
    (tables : List (List Operand)) (areas : List Area) (sid : Nat) : State :=
  let bindings : List Binding := (areas.flatMap fun a => (s.bindArea (hdAsid head) a).getD []).foldl
    (fun l b => if l.contains b then l else if b.draft.isSome then l ++ [b] else b :: l) []
  let read (es : Tbl Extent) (b : Binding) : Tbl Extent :=
    if b.draft.isSome then es
    else es.adjust b.extent fun e =>
      { e with versions := e.versions.adjust b.version fun x => { x with streams := x.streams + 1 } }
  let s := { s with pool.extents := bindings.foldl read s.pool.extents }
  let s := { s with ctl.lastStream := some sid }
  let s := { s with str.epochs := s.str.epochs.put sid ((s.str.epochs.findD sid 0 + 1) % 256) }
  let progs := steps.zipIdx.foldl (fun (p : Tbl Nat) w =>
    if rsKind w.1 == kVector then match s.str.progs.find (rsProg w.1) with
      | some g => p.put w.2 g.block
      | none => p
    else p) []
  s.putStream sid
    { tenant := o.tenant, session := o.session, ccp, node, head, steps, operands := tables, progs, bindings
      priority := hdPriority head, count := if hdCount head == 0 then none else some (hdCount head)
      idleDue := s.dev.tick + hdIdle head }

/-- A stream descriptor is tested and its stream opened (R528, Table 2-11): its number, or the refusal. R528 names no place for
the source; it is tested after the sink (log 169). `who` goes on once a page of an operand table that it waits for is there. -/
def State.openStream (s : State) (o : Opener) (node : Nat) (ccp : Option Nat) (who : Access) (desc : List Byte) :
    Opened Nat × State :=
  let head := leNat (desc.take 64)
  let steps := (List.range (hdSteps head)).map fun i => leNat (slice desc (64 + 32 * i) 32)
  let asid := hdAsid head
  if desc.length < 96 || desc.length != 64 + 32 * hdSteps head then (.no (.malformed, 0x0102), s)
  else if headReserved head || steps.any stepReserved then (.no (.malformed, 0x0103), s)
  else if headBad head || steps.any (stepBad (hdElems head)) || routeBad head steps then (.no (.malformed, 0x0101), s)
  else if s.formatsBad (hdElems head) steps then (.no (.faultFormat, 0x0101), s)
  else if !((s.spaceLive asid).any fun a => a.tenant == o.tenant) then (.no (.denied, 0x0502), s)
  else
    match s.sinkBad head steps with
    | some r => (.no r, s)
    | none =>
      let t := s.readTables { who, asid, engine := 160, binds := [] } (hdElems head) steps
      let tables := t.1.map fun x => match x with
        | .yes l => l
        | _ => []
      let backs := tables.flatMap fun l => s.operandAreas head l true
      let sink := s.sinkArea head steps
      let area := s.areaBad o asid (hdSink head) sink backs
      let prog (w : Nat) : Option OpenRefuse :=
        if rsKind w == kVector && !((s.str.progs.find (rsProg w)).any fun p => p.tenant == o.tenant) then some (.faultRange, 0x0401)
        else none
      let src := s.srcArea head steps
      let before := firstSome ((sink.toList ++ src).map area ++ steps.map fun w => match prog w with
        | some r => some r
        | none => firstSome ((s.stepAreas head w).map area))
      match before with
      | some r => (.no r, s)
      | none =>
        let opnds := tables.flatMap fun l => s.operandAreas head l false
        match tablesBad area (fun l => s.operandAreas head l false ++ s.operandAreas head l true) (steps.zip t.1) with
        | .waits => (.waits, t.2)
        | .no r => (.no r, t.2)
        | .yes _ =>
          let s := t.2.dropGot who
          match cyclicFree (fun n => s.str.streams.has n) s.ctl.lastStream 0 16383 with
          | none => (.no (.busyRetry, 0x0201), s)
          | some sid =>
            let areas := src ++ sink.toList ++ steps.flatMap (s.stepAreas head) ++ opnds ++ backs
            (.yes sid, s.enterStream o node ccp head steps tables areas sid)

/-- The operand of an open stream as a completion carries it (13 Table 13-3). -/
def State.openWord (s : State) (sid : Nat) : Nat := streamOperand sid (s.str.epochs.findD sid 0)

/-- STREAM_OPEN runs. -/
def State.runOpen (s : State) (r : Req) : State :=
  let tenant := (s.ten.links.find r.p.session).elim 0 (·.tenant)
  match s.openStream { tenant, session := some r.p.session, kfp2 := s.kfp2 r.p } r.p.src none (.request r) r.p.payload with
  | (.yes sid, s) => s.complete r .ok (some (s.openWord sid))
  | (.no e, s) => (if e.1 == .denied then s.chargeLink r.p.session else s).complete r e.1
  | (.waits, s) => s

/-- STREAM_CREATE (R33, R48). -/
def bodyStreamCreate : CcpBody := fun c s =>
  let rr := commandReacher 0x0401 c 0
  match s.openStream { tenant := c.tenant, session := none } 0 (some c.sid) rr.who (leBytes c.block c.total) with
  | (.yes sid, s) => okNum s (s.openWord sid)
  | (.no e, s) => refuse s ⟨e.1, e.2⟩
  | (.waits, s) => heldCmd s

/-! Arriving tiles. -/

/-- The tile kinds that the first step of a stream takes (Table 2-12, 05 R131). Where a SCORE is not the first step, what comes
before it takes DATA tiles, from requesters or from an extent (R41, log 188). -/
def takesKind (v : Stream) (k : Nat) : Bool :=
  let ks := v.steps.map rsKind
  let first := v.steps.headD 0
  if ks.contains kLedger then k == tkContrib
  else if ks.head? == some kScore then k == tkQuery
  else if isTable (rsKind first) then k == tkIndex
  else if v.steps.length == 1 && rsKind first == kMove && rsRole first == 1 && hdSrc v.head == 0 && hdSink v.head == 2 then
    k == tkData || k == tkAppend
  else k == tkData

/-- Expected payload of a tile in sectors (R30); none where no size exists. -/
def State.tileSectors (s : State) (steps : List Nat) (h : Nat) : Option Nat :=
  let n := thElems h
  let f := s.fmt (thFormat h)
  if n == 0 then none
  else if thKind h == tkIndex then
    if thFormat h != 13 then none
    else some (ceilDiv (4 * n) 256 + match steps.find? fun w => rsKind w == kScatter with
      | some w => ceilDiv (n * rsRow w) 256
      | none => 0)
  else if f.kind == 0 then none
  else if thKind h == tkAppend then (if 32 < ceilDiv (f.packed n) 256 then none else some (2 * ceilDiv (f.packed n) 256))
  else some (ceilDiv (f.packed n) 256)

/-- Whether a tile is its stream's last one (R35). -/
def isLast (v : Stream) (h : Nat) : Bool :=
  if hdCount v.head == 0 then thLast h else thIndex h + 1 == hdCount v.head

/-- Row 2 of Table 2-12. -/
def State.tileMalformed (s : State) (v : Option Stream) (h len : Nat) : Bool :=
  let steps := (v.map (·.steps)).getD []
  thVer h != 3 || thReserved h || thKind h == 0 || 5 < thKind h ||
    (match s.tileSectors steps h with
     | none => true
     | some p => 64 < p || thSectors h + 1 != p || len != 64 + 256 * p) ||
    match v with
    | none => false
    | some v => !takesKind v (thKind h) || (if isLast v h then hdElems v.head < thElems h else thElems h != hdElems v.head)

/-- Who may send a tile of a stream (R48). -/
def State.maySend (s : State) (v : Stream) (r : Req) : Bool :=
  if v.ccp.isSome then (s.ten.links.find r.p.session).any fun l => l.tenant == v.tenant else mayEnd v r

/-- The rows of Table 4-4 that a contribution meets on arrival. -/
def State.contribTile (s : State) (v : Stream) (h : Nat) : Option Status :=
  if thKind h != tkContrib then none
  else if thObj h != hdSinkObj v.head then some .malformed
  else match s.seq.windows.find (thObj h) with
    | none => some .retired
    | some w =>
      if wTiles w.desc ≤ thLedger h || wN w.desc ≤ thContrib h then some .faultRange
      else if thElems h != wTileElems w.desc (thLedger h) then some .malformed
      else if w.state == .retired then some .retired
      else none

/-- Whether an index above one has been accepted (R55). -/
def indexAbove (v : Stream) (i : Nat) : Bool :=
  i + 1 < v.lowest || v.settled.any (i < ·) || v.tiles.any fun t => i < t.1

/-- What the last rows of arrival decide: the status of a tile that is not accepted and whether it is charged, or the stream
that accepts it. -/
def State.acceptTile (s : State) (v : Stream) (h len : Nat) : Except (Status × Bool) Stream × State :=
  let i := thIndex h
  let low (st : Status) : Except (Status × Bool) Stream × State := (.error (st, false), s)
  if s.tileMalformed (some v) h len then low .malformed
  else if hdSrc v.head == 1 then low .malformed
  else if v.closed && v.outcome != 0 then low .aborted
  else if i < v.lowest || v.settled.contains i then low .alreadyComplete
  else if v.tiles.has i then low .busyRetry
  else if (v.count.any fun n => n ≤ i) then low .faultRange
  else if v.lowest + 4096 ≤ i || 64 ≤ v.tiles.length then low .busyRetry
  else if thKind h != tkIndex && thFormat h != rsIn (v.steps.headD 0) then low .faultFormat
  else
    let marks := hdCount v.head == 0 && thLast h
    if marks && (v.stuck || (v.count.any fun n => n != i + 1)) then low .faultRange
    else if marks && v.count.isNone && indexAbove v i then (.error (.faultRange, false), s.modStream (thStream h) fun v => { v with stuck := true })
    else
      match s.contribTile v h with
      | some st => low st
      | none =>
        let v := if marks then { v with count := some (i + 1) } else v
        (.ok v, s)

/-- A sequence tile meets Table 5-6; an append is accepted with its destination translated (05 R135, R140). -/
def State.acceptSequence (s : State) (v : Stream) (h : Nat) : Except (Status × Bool) Unit × State :=
  if thKind h != tkAppend && thKind h != tkQuery then (.ok (), s)
  else match s.sequenceTile v h with
    | .error e => (.error e, s)
    | .ok c =>
      if thKind h == tkQuery then (.ok (), s)
      else match s.spanFault (tileReacher (thStream h) (thIndex h) v 160)
          (s.appendSpans c.desc (thHead h) (thPosition h) (thRows h)) with
        | some st => (.error (st, false), s)
        | none => (.ok (), s.acceptAppend h)

/-- A tile enters its stream. -/
def State.enterTile (s : State) (v : Stream) (i h : Nat) (req : Option Req) : State :=
  let t : Tile :=
    { req, hdr := h, data := (req.map fun r => r.p.payload.drop 64).getD [], count := thElems h
      yellow := (req.map (·.yellow)).getD false }
  (s.putStream (thStream h) { v with
    tiles := v.tiles.put i t, issued := v.issued + 1, idleDue := s.dev.tick + hdIdle v.head }).later [.bind (thStream h)]

/-- The areas of an open stream: its source, its sink, those its steps name, its operands. -/
def State.streamAreas (s : State) (v : Stream) : List Area :=
  s.srcArea v.head v.steps ++ (s.sinkArea v.head v.steps).toList ++ v.steps.flatMap (s.stepAreas v.head) ++
    v.operands.flatMap fun l => s.operandAreas v.head l false

/-- Whether a tile reaches a common or a versioned extent, by its stream or by the context that it names (00 R3, log 187). -/
def State.tileShared (s : State) (v : Stream) (h : Nat) : Bool :=
  let kv := if thKind h != tkAppend && thKind h != tkQuery then [] else match s.seq.contexts.find (thObj h) with
    | some c => [Area.mk (qKvAddr c.desc) (s.kvBytes c.desc) true]
    | none => []
  ((s.streamAreas v).any fun a => (s.extentsIn (hdAsid v.head) a).any s.sharedExt) ||
    kv.any fun a => (s.extentsIn (((s.seq.contexts.find (thObj h)).map fun c => qAsid c.desc).getD 0) a).any s.sharedExt

/-- TILE runs (Table 2-12). Without an open stream an INDEX tile is sized as in a route without SCATTER (R52, log 188). -/
def State.runTile (s : State) (r : Req) : State :=
  let h := leNat (padTo (r.p.payload.take 64) 64)
  let len := r.p.payload.length
  let finish (s : State) (e : Status × Bool) : State :=
    (if e.2 then s.chargeLink r.p.session else s).complete r e.1 none (some [])
  match s.namedStream (thStream h) (thEpoch h) with
  | none => finish s (if s.tileMalformed none h len then .malformed else .retired, false)
  | some v =>
    if !s.maySend v r then finish s (.denied, true)
    else if s.kfp2 r.p && s.tileShared v h then finish s (.unsupported, false)
    else match s.acceptTile v h len with
      | (.error e, s) => finish s e
      | (.ok v, s) => match s.acceptSequence v h with
        | (.error e, s) => finish s e
        | (.ok _, s) => s.enterTile v (thIndex h) h (some r)

/-- EXTENT_TILE_ISSUE: the next tile of an extent source enters the stream (R33, R59). Its header, which no requester made, has the
stream's cookie and `last` 0, and as many of them are in flight as of a requester's tiles, 64 (R31, R59, log 188). -/
def State.issueTile (s : State) (sid : Nat) : State :=
  match s.str.streams.find sid with
  | none => s
  | some v =>
    if hdSrc v.head != 1 || v.closed || v.ended || 64 ≤ v.tiles.length then s
    else match nextIssue v with
      | none => s
      | some i =>
        let first := v.steps.headD 0
        let index := isTable (rsKind first)
        let h := outHeader (if index then tkIndex else tkData) 0 (if index then 13 else rsIn first) (hdElems v.head)
          (s.inBytes v.head v.steps) sid i (s.str.epochs.findD sid 0) 0 (hdCookie v.head)
        s.enterTile v i h none

/-- Whether an open stream, an enabled window or an enabled context names a format slot (03 R66). -/
def State.slotUsed (s : State) (slot : Nat) : Bool :=
  (s.str.streams.any fun v => !(v.2.closed && v.2.tiles.isEmpty) &&
    ((v.2.steps.any fun w => rsIn w == slot || rsOut w == slot) || v.2.operands.any fun l => l.any fun e => e.format == slot)) ||
    (s.seq.windows.any fun w => (w.2.state == .opened || w.2.state == .closed) && wFormat w.2.desc == slot) ||
    s.seq.contexts.any fun c => c.2.enabled && qKvFormat c.2.desc == slot

/-- FORMAT_LOAD (03 R62, R66). -/
def bodyFormatLoad : CcpBody := fun c s =>
  let d := bits c.block 63 0
  let slot := bits c.block 68 64
  checked s [ (slot < 14, rRange), (descBad d, rRange), (s.slotUsed slot, rState) ]
    (okEmpty { s with str.formats := if d == 0 then s.str.formats.del slot else s.str.formats.put slot d })

end Sys2Proof.Machine
end

