-- ==== Sys2Proof/Machine/Fabric.lean ====
section
/-! DEFINITION. Fabric.lean: packets that arrive (13): the hedge check (09 R258), classification (R356), link sessions
(09 R255 to R259), transit and multicast, ageing, reachability, and the routing commands. -/

namespace Sys2Proof.Machine

/-! Reachability (R358). -/

/-- A node is heard from. -/
def State.heard (s : State) (n : Nat) : State :=
  if (s.nodeRec n).reachable then s else s.putNodeRec n { s.nodeRec n with reachable := true, noRoute := none }

/-- A node becomes unreachable, if it is not so already; a standby learns what leases are compared with (07 R209). -/
def State.nodeLost (s : State) (n : Nat) : State :=
  let v := s.nodeRec n
  if v.reachable then
    ((s.putNodeRec n { v with reachable := false, noRoute := none, loss := v.loss + 1 }).sendMeta
      (.node n v.gen (v.loss + 1))).later [.gone n]
  else s

/-- Whether a node's entry of the current bank has a candidate UP or RETRAIN. -/
def State.hasRoute (s : State) (n : Nat) : Bool :=
  (entryCands ((s.bank s.fab.epoch).entries.findD n 0)).any fun c =>
    (s.port c.2).st == .up || (s.port c.2).st == .retrain

/-- Every reachable node's wait without a route starts or ends. -/
def State.noteRoutes (s : State) : State :=
  let note (n : Nat) (v : NodeRec) : NodeRec :=
    if !v.reachable || s.hasRoute n then { v with noRoute := none }
    else if v.noRoute.isNone then { v with noRoute := some s.dev.tick } else v
  { s with fab.nodes := s.fab.nodes.each note }

/-- REACHABILITY_TIMEOUT. -/
def State.reachTimeout (s : State) (n : Nat) : State :=
  let v := s.nodeRec n
  if v.noRoute.any (· + 64 ≤ s.dev.tick) && !s.hasRoute n then s.nodeLost n else s

/-! Link sessions (09 R256, R257). -/

/-- A link session ends; its identifier is barred from reuse. -/
def State.endLink (s : State) (id : Nat) : State :=
  match s.ten.links.find id with
  | some l =>
    { s.delLink id with
      ten.barred := s.ten.barred.put id (s.dev.tick + 65536, l.tenant)
      sch.buckets := s.sch.buckets.del id }
  | none => s

/-- SESSION_ID_BAR_EXPIRY. -/
def State.barExpiry (s : State) (id : Nat) : State :=
  if (s.ten.barred.find id).any (·.1 ≤ s.dev.tick) then { s with ten.barred := s.ten.barred.del id } else s

/-- The bytes that stand for what LINK_SESSION_OPEN carries while the request waits. -/
def LinkOpen.bytes (o : LinkOpen) : List Byte :=
  let chain : Nat := match o.chain with
    | .fails => 0
    | .olizon => 1
    | .further e => e + 2
  leBytes o.tenant 2 ++ leBytes o.gen 1 ++ leBytes o.nonce 32 ++ leBytes o.identity 48 ++ leBytes chain 257 ++
    leBytes (b2n o.sigOk) 1 ++ o.certs

def LinkOpen.ofBytes (b : List Byte) : LinkOpen :=
  { tenant := leNat (slice b 0 2), gen := leNat (slice b 2 1), nonce := leNat (slice b 3 32), identity := leNat (slice b 35 48)
    chain := match leNat (slice b 83 257) with
      | 0 => .fails
      | 1 => .olizon
      | e + 2 => .further e
    sigOk := leNat (slice b 340 1) == 1, certs := b.drop 341 }

/-- The bytes whose SHA-384 is a request's hash: its fields, the source node and this device's identity hash (R256, log 36). -/
def LinkOpen.hashed (o : LinkOpen) (src : Nat) : List Byte :=
  leBytes o.tenant 2 ++ leBytes o.gen 1 ++ leBytes o.nonce 32 ++ o.certs ++ leBytes src 2 ++ leBytes Config.identityHash.toNat 48

/-- A node is seen in a later generation (13 R355, R361): its tag table and fence state are cleared, its held requests are
late, and what it held is lost (06 R170, 07 R207). -/
def State.nodeGen (s : State) (n gen : Nat) : State :=
  let v := s.nodeRec n
  let later := match v.gen with
    | none => true
    | some g => let d := (gen + 16 - g) % 16; 1 ≤ d && d ≤ 7
  if !later then s
  else
    let s := (s.putNodeRec n { v with gen := some gen }).sendMeta (.node n (some gen) v.loss)
    let late := s.fab.held.filter fun h => h.r.p.src == n
    let s := { s with
      fab.tags := s.fab.tags.keep fun k _ => k / 4096 != n
      fab.fences := s.fab.fences.del n
      fab.held := s.fab.held.filter fun h => h.r.p.src != n
      fab.late := s.fab.late + late.length }
    let s := s.countDev 6 late.length
    if v.gen.isNone then s else s.later [.gone n]

/-- What the completion that names a session carries: the identifier and the signature over it (R256, log 36). -/
def linkAnswer (r : Req) (id : Nat) : List Byte :=
  let hash := leBytes (sha384 (LinkOpen.hashed (LinkOpen.ofBytes r.p.payload) r.p.src)).toNat 48
  leBytes id 2 ++ ecdsaOf (hash ++ leBytes id 2)

/-- LINK_SESSION_OPEN runs (Table 9-7). -/
def State.runLinkOpen (s : State) (r : Req) : State :=
  let o := LinkOpen.ofBytes r.p.payload
  let n := r.p.src
  let opened := (s.tenantOf o.tenant).any fun t => t.sess == .opened
  let same (l : Link) : Bool := l.node == n && l.tenant == o.tenant
  if !(s.accepts o.chain && o.sigOk) then s.complete r .denied
  else if !opened || !s.ten.admissions.contains (o.tenant, o.identity) then s.complete r .denied
  else match s.ten.links.find? fun l => same l.2 && l.2.gen == o.gen with
    | some l => s.complete r .alreadyComplete none (some (linkAnswer r l.1))
    | none =>
      match cyclicFree (fun i => s.ten.links.has i || s.ten.barred.has i) s.ten.lastLink 1 65535 with
      | none => s.complete r .busyRetry
      | some id =>
        let old := s.ten.links.keysWhere fun l => same l && let d := (o.gen + 16 - l.gen) % 16; 1 ≤ d && d ≤ 7
        let s := old.foldl State.endLink s
        let s := (s.nodeGen n o.gen).putLink id { node := n, gen := o.gen, tenant := o.tenant, identity := o.identity }
        let s := { s with ten.lastLink := some id }.newBucket id o.tenant
        s.complete r .ok none (some (linkAnswer r id))

/-- LINK_SESSION_CLOSE runs (R257). -/
def State.runLinkClose (s : State) (r : Req) : State := (s.endLink r.p.session).complete r .ok none (some [])

/-! The hedge check (Table 9-8). -/

/-- The context a sequence tile names (R132), where it exists. -/
def State.tileAsid (s : State) (h : Nat) : Option Nat :=
  let seqTile := thKind h == tkAppend || thKind h == tkQuery
  match s.namedStream (thStream h) (thEpoch h) with
  | none => none
  | some v => match seqTile, s.seq.contexts.find (thObj h) with
    | true, some c => some (qAsid c.desc)
    | _, _ => some (hdAsid v.head)

/-- The address space a request names: in its operand, its stream context, its window (R258). A stream descriptor is no
operand: its `asid` is tested in its own place (02 R528). -/
def State.hedgeAsid (s : State) (op : Nat) (p : Packet) : Option Nat :=
  let low := leNat (p.payload.take 64)
  if op == 0x02 || op == 0x03 then (s.namedStream (bits low 13 0) (bits low 23 16)).map fun v => hdAsid v.head
  else if op == 0x04 then s.tileAsid low
  else if op == 0x05 then (s.seq.windows.find (bits low 11 0)).map fun w => wAsid w.desc
  else if 0x10 ≤ op && op ≤ 0x28 then some (bits low 35 24)
  else none

/-- Whether the extent a request addresses is REVOKING (row 6). -/
def State.targetRevoked (s : State) (op : Nat) (p : Packet) (asid : Nat) : Bool :=
  if 0x1A ≤ op && op ≤ 0x1C then
    ((s.pool.handles.find (vhandleOf (leNat (p.payload.take 16)))).bind fun h => s.pool.extents.find h.extent).any fun e =>
      e.state == .revoking
  else if 0x10 ≤ op && op ≤ 0x28 then s.locate asid p.address == .revoked
  else false

/-- What the hedge check answers, and what it is counted against: none where every row passes. -/
inductive Charge where
  | nobody
  | link (id : Nat)
  | port
  deriving DecidableEq, Repr

def State.hedge (s : State) (op : Nat) (p : Packet) : Option (Status × Charge) :=
  if op == 0x50 then none
  else match s.ten.links.find p.session with
    | none => some (.denied, if s.ten.barred.has p.session then .nobody else .port)
    | some l =>
      if l.node != p.src || l.gen != p.ngen then some (.denied, .link p.session)
      else if !((s.tenantOf l.tenant).any fun t => t.sess == .opened) then some (.denied, .nobody)
      else match s.hedgeAsid op p with
        | none => none
        | some a => match s.pool.spaces.find a with
          | none => some (.denied, .link p.session)
          | some v =>
            if v.tenant != l.tenant then some (.denied, .link p.session)
            else if v.marked || v.dead then some (.denied, .nobody)
            else if s.targetRevoked op p a then some (.faultRevoked, .nobody)
            else none

/-! Classification (Table 13-5). -/

/-- Opcodes of requests that requesters send (Table 13-2). -/
def requesterOp (op : Nat) : Bool :=
  (1 ≤ op && op ≤ 5) || (0x10 ≤ op && op ≤ 0x13) || (0x18 ≤ op && op ≤ 0x1C) || (0x20 ≤ op && op ≤ 0x23) || op == 0x28 ||
    op == 0x50 || op == 0x51

/-- Opcodes that only the device sends (Table 13-2). -/
def deviceOp (op : Nat) : Bool := (0x30 ≤ op && op ≤ 0x34) || op == 0x60

/-- Whether an opcode is offered to KFP-2 requesters (Table 13-2). -/
def kfp2Op (op : Nat) : Bool := (1 ≤ op && op ≤ 5) || op == 0x10 || op == 0x11 || op == 0x50 || op == 0x51

/-- Whether a length is one that an opcode can have (Table 13-2). -/
def lengthOk (op : Nat) (p : Packet) : Bool :=
  let n := p.length
  if op == 0x01 then n == 64 + 32 * hdSteps (leNat (p.payload.take 64))
  else if op == 0x02 || op == 0x03 || op == 0x05 then n == 8
  else if op == 0x04 then 64 ≤ n && n % 256 == 64
  else if op == 0x11 then n == 65552
  else if op == 0x13 then n == (if bit (leNat (p.payload.take 16)) 0 then 16 else 65552)
  else if op == 0x23 then n == 272
  else if op == 0x28 then n == 32
  else if op == 0x50 then true
  else if op == 0x51 then n == 0
  else n == 16

/-- Whether an opcode uses `address`. -/
def usesAddress (op : Nat) : Bool := (0x10 ≤ op && op ≤ 0x13) || op == 0x18 || op == 0x19 || (0x20 ≤ op && op ≤ 0x28)

/-- Reserved header fields and fields that are zero in a request (Table 13-5 row 4). -/
def headerBad (op : Nat) (p : Packet) : Bool :=
  p.rsvd != 0 || p.status != 0 || p.synthetic || p.wbPending || (!p.fence && p.prior != 0) || (requesterOp op && !usesAddress op && p.address != 0)

/-- Row 4 of Table 13-5. -/
def row4 (op : Nat) (p : Packet) : Option Status :=
  if headerBad op p then some .malformed
  else if deviceOp op then some .malformed
  else if !requesterOp op then some .unsupported
  else if p.hdrVer == 2 && !kfp2Op op then some .unsupported
  else if !lengthOk op p then some .malformed
  else none

/-- D of R382: the largest payload of the completion. -/
def State.drawOf (s : State) (op : Nat) (p : Packet) : Nat :=
  let low := leNat (p.payload.take 64)
  if op == 0x10 || op == 0x12 then 65576
  else if op == 0x04 then
    match s.namedStream (thStream low) (thEpoch low) with
    | some v => if hdSink v.head == 2 then 64 + s.outBytes v.head v.steps else 0
    | none => 0
  else if op == 0x05 then
    match s.seq.windows.find (bits low 11 0) with
    | some w => 64 + s.resBytes w.desc
    | none => 0
  else if op == 0x01 then 8
  else if op == 0x02 then 40
  else if op == 0x11 || op == 0x13 || op == 0x1A || op == 0x1C || op == 0x23 then 8
  else if op == 0x18 || op == 0x19 || op == 0x1B || op == 0x28 then 16
  else if 0x20 ≤ op && op ≤ 0x22 then 264
  else 0

/-- A request of row 10: policed, then fenced (R360, 14 R381). -/
def State.newRequest (s : State) (r : Req) : State :=
  if channelOf r.opcode == 3 then s.fenceIn r
  else match s.ten.links.find r.p.session with
    | none => s.fenceIn r
    | some l => match s.police r.p.session l.tenant r.p.length (s.drawOf r.opcode r.p) with
      | (none, s) => s.complete r .throttled none (some (if hasCookie r.opcode then cookieOf r.p.payload else []))
      | (some y, s) => s.fenceIn { r with yellow := y }

/-- Rows 5 to 10 of Table 13-5. -/
def State.byTag (s : State) (r : Req) : State :=
  let p := r.p
  let k := tagKey p.src p.tag
  let fresh (s : State) : State := (s.putTagRec k ⟨p.tgen, .executing, []⟩).newRequest r
  match s.fab.tags.find k with
  | none => fresh s
  | some t =>
    let d := (p.tgen + 16 - t.tgen) % 16
    if 8 ≤ d then { s with fab.late := s.fab.late + 1 }.countDev 6
    else if d != 0 then fresh s
    else
      let c := cacheFind s.fab.cache p.src p.ngen p.tag p.tgen
      if c.any fun c => c.opcode != r.opcode then s.answer r .malformed
      else if !isCached r.opcode then fresh s
      else match t.st with
        | .executing => s.putTagRec k { t with dups := t.dups ++ [p] }
        | .done => match c with
          | some c =>
            let s := { s with fab.cache := cachePut s.fab.cache c }
            s.answer r ((Status.ofCode c.status).getD .ok) (wordPayload r.opcode p.payload c.word)
          | none => s.answer r .alreadyComplete (wordPayload r.opcode p.payload none)
        | .free => fresh s

/-- Whether a unit is between the grant of a claim and its service (16 R438). -/
def State.takingOver (s : State) : Bool := s.pair.role == .takeover

/-- What a unit that is not ACTIVE answers (16 R436 to R438): FENCED refuses everything, the others serve link sessions. -/
def State.passiveAnswer (s : State) (op : Nat) : Option Status :=
  if s.takingOver then some .busyRetry
  else if s.pair.role == .fenced then some .failover
  else if s.passive && channelOf op != 3 then some .failover
  else none

/-- What 19 Table 19-3 answers while a function is not ready. -/
def State.notReady (s : State) (op : Nat) : Bool :=
  s.ready.stack == 0 || (op == 0x50 && !s.ready.keyEngine) ||
    ((op == 0x04 || op == 0x28) && s.ready.field == 0)

/-- A request addressed to this device is classified (R356). Its age has been brought up to date. -/
def State.classify (s : State) (op : Nat) (p : Packet) : State :=
  let r : Req := { opcode := op, p }
  let gen := (s.nodeRec p.src).gen
  if gen.any fun g => 8 ≤ (p.ngen + 16 - g) % 16 then { s with fab.late := s.fab.late + 1 }.countDev 6
  else if s.notReady op then s.answer r .busyRetry
  else match s.hedge op p with
    | some (st, c) =>
      let s := match c with
        | .nobody => s
        | .link id => s.chargeLink id
        | .port => s.chargePort p.port
      s.answer r st
    | none =>
      let s := if op == 0x50 then s else s.heard p.src
      match row4 op p with
      | some st => s.answer r st
      | none => match s.passiveAnswer op with
        | some st => s.answer r st
        | none => s.byTag r

/-! Arrival, transit and multicast. -/

/-- A packet of an epoch has arrived (R369). -/
def State.touchBank (s : State) (e : Nat) : State :=
  let b := s.bank e
  s.putBank e { b with lastUse := s.dev.tick, quiet := false }

/-- A completion or snoop response clears the outstanding-table entries of its request (12 R343). -/
def State.clearOutst (s : State) (p : Packet) : State :=
  let mine (o : Outst) : Bool := o.src == p.dst && o.tag == p.tag && o.tgen == p.tgen
  { s with ports := s.ports.each fun _ q => { q with outst := q.outst.filter fun o => !mine o } }

/-- An arriving multicast packet is copied to every port of its group but the arrival port (R373). -/
def State.mcastIn (s : State) (op : Nat) (p : Packet) : State :=
  let g := s.fab.groups.findD (p.dst % 4096) (0, false)
  ((bitsOf g.1 64).filter (· != p.port)).foldl (fun s n =>
    let q := s.port n
    if g.2 && q.st == .up && q.mode == 0 && !s.isPairPort n then s.commit n op p false 0 0xFFFF 7 else s.countDev 9) s

/-- Where a packet that arrives goes. -/
inductive Inbound where
  | gone
  | mcast
  | transit
  | here
  deriving DecidableEq, Repr

/-- A packet comes in whole on a port (R349, R362, R369, R375): where it goes, and its age now. -/
def State.arrive (s : State) (op : Nat) (p : Packet) : Inbound × Packet × State :=
  if p.hdrVer != 2 && p.hdrVer != 3 then (.gone, p, s.countDev 5)
  else
    let p := { p with age := min (p.age + ceilDiv (s.port p.port).tNs 32) 0xFFFF }
    let s := s.touchBank p.epoch
    if 16000 ≤ p.age then (.gone, p, { s with fab.aged := s.fab.aged + 1 }.countDev 7)
    else
      let s := if channelOf op == 1 && !p.mcast then s.clearOutst p else s
      if p.mcast then (.mcast, p, s)
      else if s.fab.nodeId == some p.dst then (.here, p, s)
      else (.transit, p, s)

/-- A packet bound for another node is routed (R362, R376). -/
def State.transitIn (s : State) (op : Nat) (p : Packet) : State := s.route op p (some p.port) false s.dev.tick (0xFFFF, 7) 2

/-- The requests that waited in receive buffers for the device to wake are classified (15 R421). -/
def State.releaseWaiting (s : State) : State :=
  s.fab.waiting.foldl (fun s r => s.classify r.opcode r.p) { s with fab.waiting := [] }

/-! Ageing and escape. -/

/-- PACKET_AGE_OUT (R375). -/
def State.ageOut (s : State) (id : Nat) : State :=
  match s.fab.transit.find id with
  | none => s
  | some x =>
    if 16000 ≤ ageAfter x.p.age (s.dev.tick - x.since) then
      { s with fab.transit := s.fab.transit.del id, fab.aged := s.fab.aged + 1 }.countDev 7
    else s

/-- FENCE_HOLD_AGE_OUT (R361). -/
def State.fenceAgeOut (s : State) (src tag : Nat) : State :=
  match s.fab.held.find? fun h => h.r.p.src == src && h.r.p.tag == tag && 16000 ≤ ageAfter h.r.p.age (s.dev.tick - h.since) with
  | none => s
  | some h =>
    let f := s.fab.fences.findD src {}
    let n := (h.r.p.fnum + 16 - f.x) % 16 + 1
    let past : Fence := { x := (f.x + n) % 16, counts := f.counts.drop n ++ List.replicate (min n 8) 0 }
    let k := tagKey src tag
    let s := { s with
      fab.fences := s.fab.fences.put src past
      fab.held := s.fab.held.filter (· != h)
      fab.aged := s.fab.aged + 1 }
    let s := { s with fab.tags := s.fab.tags.adjust k fun t => if t.tgen == h.r.p.tgen then { t with st := .free, dups := [] } else t }
    (s.countDev 7).releaseFences src 1024

/-- ESCAPE_WAIT_EXPIRY (R365). -/
def State.escapeWait (s : State) (id : Nat) : State :=
  match s.fab.transit.find id with
  | none => s
  | some x =>
    if channelOf x.opcode == 0 && !x.p.escape then
      { s with
        fab.transit := s.fab.transit.put id { x with p := { x.p with escape := true } }
        fab.escaped := s.fab.escaped + 1 }
    else s

/-! Routing commands (R370, R372). -/

/-- ROUTE_SET. -/
def bodyRouteSet : CcpBody := fun c s =>
  let b := c.block
  let n := bits b 39 32 + 1
  let first := bits b 63 48
  let bk := b % 2
  let es := (List.range n).map fun i => bits b (32 * i + 95) (32 * i + 64)
  checked s
    [ (es.any (bit · 31), rMalformed),
      (65535 < first + n - 1 || es.any (fun e => 4 < bits e 30 28 || (bits e 30 28 != 0 && !bit e 6)), rRange),
      (!((s.bank bk).quiet || (s.bank bk).opened), rState) ]
    (let v := s.bank bk
     let put (t : Tbl Nat) (x : Nat × Nat) : Tbl Nat :=
       if bits x.1 30 28 == 0 then t.del (first + x.2) else t.put (first + x.2) x.1
     okEmpty (s.putBank bk { v with opened := true, quiet := false, entries := es.zipIdx.foldl put v.entries }))

/-- ROUTE_EPOCH. -/
def bodyRouteEpoch : CcpBody := fun c s =>
  let b := c.block
  let e := b % 2
  let s := { s with fab.escWait := orDefault (bits b 15 8) 100 }
  let s := if e == s.fab.epoch then s
    else
      let old := s.bank s.fab.epoch
      let s := s.putBank s.fab.epoch { old with lastUse := s.dev.tick, quiet := false }
      { s with fab.epoch := e }
  okEmpty (s.putBank e { s.bank e with opened := false, quiet := false })

/-- BANK_QUIET (R369). -/
def State.bankQuiet (s : State) (b : Nat) : State :=
  let v := s.bank b
  if b != s.fab.epoch && !v.opened && s.drainOf b == 0 && v.lastUse + 400 ≤ s.dev.tick then s.putBank b { v with quiet := true }
  else s

/-- ROUTE_QUERY (log 29). -/
def bodyRouteQuery : CcpBody := fun _ s =>
  okBytes s ([s.fab.epoch, s.drainOf 0, s.drainOf 1, b2n s.fab.bank0.quiet, b2n s.fab.bank0.opened, b2n s.fab.bank1.quiet,
    b2n s.fab.bank1.opened, s.fab.misses, s.fab.unrouted, s.fab.aged, s.fab.late, s.fab.escaped].flatMap fun n => leBytes n 8)

/-- MCAST_SET. -/
def bodyMcastSet : CcpBody := fun c s =>
  let b := c.block
  okEmpty { s with fab.groups := s.fab.groups.put (bits b 75 64) (bits b 63 0, bit b 76) }

end Sys2Proof.Machine
end

