-- ==== Sys2Proof/Machine/Package.lean ====
section
/-! DEFINITION. Package.lean: the flash and its slot control record (19 R484, R485), update packages and their headers (R486), and
the wrap records and chunks that they share with weight blobs (09 R262). -/

namespace Sys2Proof.Machine

/-! The flash (Table 19-6). -/

/-- What a region of the flash holds. -/
inductive FlashUse where
  | slotRecords
  | slotA
  | slotB
  | workspace
  | configuration
  | checkpoints
  | reserved
  deriving DecidableEq, Repr

/-- A region of the flash: what it is, where it begins, its bytes. -/
structure FlashRegion where
  what  : FlashUse
  start : Nat
  size  : Nat
  deriving DecidableEq, Repr

/-- The layout of the flash. Every region but the first holds ciphertext under the configuration key in blocks of 64 KiB, and no
command reads or writes it. -/
def flashLayout : List FlashRegion :=
  [ ⟨.slotRecords, 0x00000000, 0x40000⟩, ⟨.slotA, 0x00040000, 0x6000000⟩, ⟨.slotB, 0x06040000, 0x6000000⟩,
    ⟨.workspace, 0x0C040000, 0x3000000⟩, ⟨.configuration, 0x0F040000, 0x200000⟩, ⟨.checkpoints, 0x0F240000, 0x100000⟩,
    ⟨.reserved, 0x0F340000, 0xCC0000⟩ ]

/-- The bytes of a region. -/
def flashSize (u : FlashUse) : Nat := ((flashLayout.find? (·.what == u)).map (·.size)).getD 0

/-! The slot control record (R485). -/

/-- The copy in force: of the valid ones, that with the higher sequence number. -/
def Fw.record (f : Fw) : SlotRecord :=
  if f.copyB.valid && (!f.copyA.valid || f.copyA.seq < f.copyB.seq) then f.copyB else f.copyA

/-- The record as the unit stands, written to the copy that is not in force. -/
def Fw.writeRecord (f : Fw) : Fw :=
  let now := f.record
  let r : SlotRecord :=
    { valid := true, seq := now.seq + 1, mgmtSlot := f.mgmtSlot, keSlot := f.keSlot, stateA := f.slotA.state, stateB := f.slotB.state
      trial := f.trial }
  if now == f.copyA then { f with copyB := r } else { f with copyA := r }

/-- The fields as the copy in force gives them at boot. -/
def Fw.readRecord (f : Fw) : Fw :=
  let r := f.record
  { f with
    mgmtSlot := r.mgmtSlot, keSlot := r.keSlot, trial := r.trial
    slotA := { f.slotA with state := r.stateA }, slotB := { f.slotB with state := r.stateB } }

/-- A slot control record is written (R485). -/
def State.writeSlots (s : State) : State := { s with fw := s.fw.writeRecord }

/-! Wrap records and chunks (09 R262, Table 9-11). -/

/-- A wrap record: the device it is for, the ephemeral point, the ML-KEM ciphertext, the wrapped key. -/
structure WrapRecord where
  identity : List Byte
  point    : List Byte
  kem      : List Byte
  wrapped  : List Byte
  deriving DecidableEq, Repr

/-- The 1,792 bytes of a record. -/
def WrapRecord.bytes (r : WrapRecord) : List Byte :=
  padTo r.identity 48 ++ padTo r.point 97 ++ List.replicate 15 0#8 ++ padTo r.kem 1568 ++ padTo r.wrapped 40 ++ List.replicate 24 0#8

/-- The record in 1,792 bytes. -/
def WrapRecord.read (b : List Byte) : WrapRecord :=
  { identity := slice b 0 48, point := slice b 48 97, kem := slice b 160 1568, wrapped := slice b 1728 40 }

/-- Record `i` of those that follow a 64-byte header. -/
def recordAt (b : List Byte) (i : Nat) : WrapRecord := WrapRecord.read (slice b (64 + 1792 * i) 1792)

/-- Whether one of `n` records is for an identity. -/
def hasRecord (b : List Byte) (n identity : Nat) : Bool := (List.range n).any fun i => leNat (recordAt b i).identity == identity

/-- Whether a zero field of one of `n` records is not zero. -/
def recordFills (b : List Byte) (n : Nat) : Bool :=
  (List.range n).any fun i => (slice b (64 + 1792 * i + 145) 15 ++ slice b (64 + 1792 * i + 1768) 24).any (· != 0)

/-- The bytes of an ASCII string. -/
def ascii (t : String) : List Byte := t.toList.map fun c => BitVec.ofNat 8 c.toNat

/-- The info of the key derivation of a wrap record for an identity, of a weight blob or of a package (09 R262, R486). -/
def wrapInfo (package : Bool) (identity : Nat) : List Byte := ascii (if package then "KZ3-FWPK" else "KZ3-WRAP") ++ leBytes identity 48

/-- The salt of that derivation: the SHA-384 of a weight blob's signed list, or of a package's header. -/
def wrapSalt (signed : List Byte) : List Byte := sha384Bytes signed

/-- The key that wraps a content key or package key: from the ECDH secret of 48 bytes and the ML-KEM secret of 32 (09 R262). -/
def wrapKey (ecdh kem salt info : List Byte) : List Byte := hkdf384 (ecdh ++ kem) salt info 32

/-- The IV of chunk `i` under a nonce. -/
def chunkIv (nonce i : Nat) : List Byte := beBytes nonce 8 ++ beBytes i 4

/-- The chunks of a plaintext. -/
def chunkCount (plain : Nat) : Nat := ceilDiv plain 65536

/-- The bytes that the chunks of a plaintext take with their tags. -/
def chunkBytes (plain : Nat) : Nat := plain + 16 * chunkCount plain

/-- Chunk `i` of a blob or package as it travels: ciphertext, then its tag; the 64-byte header is authenticated with it. -/
def sealChunk (key header : List Byte) (nonce i : Nat) (plain : List Byte) : List Byte :=
  let x := gcm key (chunkIv nonce i) header plain
  x.1 ++ x.2

/-! Package headers (Table 19-7). -/

/-- A package header. -/
structure PkgHeader where
  nonce     : Nat
  srcDigest : Nat
  recordsM1 : Nat
  imgVer    : Nat
  delta     : Bool
  secVer    : Nat
  deriving DecidableEq, Repr

/-- The 64 bytes of a header, numbered as a tile header is: bit 0 is the lowest of the first byte. -/
def PkgHeader.bytes (h : PkgHeader) : List Byte :=
  leBytes (h.nonce * 2 ^ 448 + h.srcDigest * 2 ^ 64 + h.recordsM1 * 2 ^ 32 + h.imgVer * 2 ^ 8 + b2n h.delta * 2 ^ 5 + h.secVer) 64

/-- The header in 64 bytes. -/
def PkgHeader.read (b : List Byte) : PkgHeader :=
  let n := leNat (b.take 64)
  { nonce := bits n 511 448, srcDigest := bits n 447 64, recordsM1 := bits n 39 32, imgVer := bits n 31 8, delta := bit n 5
    secVer := bits n 4 0 }

/-- The wrap records of a package. -/
def PkgHeader.records (h : PkgHeader) : Nat := h.recordsM1 + 1

/-- The bytes of header and records. -/
def PkgHeader.headBytes (h : PkgHeader) : Nat := 64 + 1792 * h.records

/-- The bytes of the two signatures: ECDSA P-384, HSS. -/
def sigBytes : Nat := 96 + 3604

/-- The bytes of a package whose image chunks carry `plain` bytes. -/
def PkgHeader.total (h : PkgHeader) (plain : Nat) : Nat := h.headBytes + chunkBytes plain + sigBytes

/-- The bytes that the image chunks of a package of `total` bytes carry; none where no length gives that total. -/
def PkgHeader.plain (h : PkgHeader) (total : Nat) : Option Nat :=
  let rest := total - h.headBytes - sigBytes
  let p := rest - 16 * ceilDiv rest 65552
  if 0 < p && h.total p == total then some p else none

/-- Whether a package of `total` bytes has a length and keeps its limit: 96 MiB of plaintext for a full one, 48 MiB as staged for a
delta (R486). -/
def PkgHeader.fits (h : PkgHeader) (total : Nat) : Bool :=
  match h.plain total with
  | none => false
  | some p => if h.delta then total ≤ flashSize .workspace else p ≤ flashSize .slotA

/-! What a stage reads of a package (Table 19-9). -/

/-- More bytes of a package come in through its channel: header and records are kept. -/
def Stage.take (st : Stage) (b : List Byte) : Stage :=
  let h := st.head ++ b
  let want := if h.length < 64 then 64 else (PkgHeader.read h).headBytes
  { st with head := h.take (max 64 want) }

/-- Whether header and records are in. -/
def Stage.hasHead (st : Stage) : Bool := 64 ≤ st.head.length && (PkgHeader.read st.head).headBytes ≤ st.head.length

end Sys2Proof.Machine
end

