-- ==== Sys2Proof/Machine/Tenancy.lean ====
section
/-! DEFINITION. Tenancy.lean: tenants and their sessions (09 R237 to R242), key rotation (R248, R250), admissions (R255),
device sets (R260, R261) and weight imports (R262 to R265, 18 R472). -/

namespace Sys2Proof.Machine

/-! Tenants. -/

/-- TENANT_CREATE (R237). -/
def bodyTenantCreate : CcpBody := fun c s =>
  let t := bits c.block 15 0
  checked s
    [ (t == 0 || t == 0xFFFF, rRange), (s.ten.tenants.has t, rf .conflict 2),
      (1024 ≤ s.ten.tenants.length, rf .resource 5) ]
    (let h := bits c.block 511 128
     okBytes ((s.putTenant t { keyHash := h }).sendMeta (.tenant t h)) (leBytes (bits c.block 127 64) 8))

/-- What the operator set for a tenant goes with it. -/
def State.forgetTenant (s : State) (t : Nat) : State :=
  let s := s.delTenant t
  let s := { s with
    sch.meters := s.sch.meters.del t
    sch.profs := s.sch.profs.del t
    sch.iso := s.sch.iso.del t
    sch.nodes := s.sch.nodes.keep fun k _ => k / 16 != t
    com.part := s.com.part.del t
    pool.l2part := s.pool.l2part.del t
    stats.ten := s.stats.ten.del t }
  s.assignStations.sendMeta (.noTenant t)

/-- TENANT_DELETE (R238). -/
def bodyTenantDelete : CcpBody := fun c s =>
  let t := c.object
  match s.tenantOf t with
  | none => if t == 0 || t == 0xFFFF then refuse s rObject else refuse s rNoObject
  | some x =>
    if x.sess != .closed || s.charge t != 0 || x.reserve != 0 then refuse s rState else okEmpty (s.forgetTenant t)

/-- What a handshake with the tenant's key meets (R239): it opens the session, or resumes the open one. -/
def State.openTenant (s : State) (t : Nat) : Except Refuse State :=
  match s.tenantOf t with
  | none => .error rNoObject
  | some x => match x.sess with
    | .opened => .ok s
    | .ending => .error rBusy
    | .closed =>
      if 1024 ≤ s.ten.tenants.count (fun y => y.sess != .closed) then .error (rf .resource 5)
      else
        let s := s.putTenant t
          { x with sess := .opened, keyId := s.ten.nextKey, epoch := 1, oldEpoch := none, endCmds := [], slowNoted := false,
                   markDone := false, keyless := false }
        .ok { s with ten.nextKey := s.ten.nextKey + 1, log.ten := s.log.ten.put t {} }

/-! The end of a session (R241, R242). -/

/-- Imports that fail a test end, and an END that waits is answered (R241, R263). -/
def State.endImports (s : State) (st : Status) (gone : Nat → Import → Bool) : State :=
  s.ten.imports.foldl (fun s x =>
    if gone x.1 x.2 then
      let s := { s.delImport x.1 with ctl.bulk := s.ctl.bulk.keep fun _ b => b.consumer != some (.weights x.1) }
      match x.2.endCmd with
      | some c => s.respondBad c st
      | none => s
    else s) s

/-- Step 1: every request of the tenant is refused, its link sessions and imports end. A rotation stops, and the keys of both epochs
live until step 3 (R242). -/
def State.beginEnd (s : State) (t : Nat) (x : Tenant) (cmds : List CmdRef) : State :=
  let s := s.putTenant t
    { x with sess := .ending, endCmds := cmds, endTick := s.dev.tick, slowNoted := false, markDone := false }
  let s := (s.ten.links.keysWhere fun l => l.tenant == t).foldl State.endLink s
  s.endImports .aborted fun _ m => m.tenant == t

/-- Whether a tile moves bytes (08 R223): it is in a step or in its final write. -/
def moving (t : Tile) : Bool := match t.st with
  | .running _ => true
  | .splitting => true
  | .writing => true
  | .mirror => true
  | _ => false

/-- A stream ends with its tenant session: what has not moved a byte completes DENIED, what moves bytes finishes (R242). -/
def State.endStream (s : State) (sid : Nat) (v : Stream) : State :=
  let s := s.putStream sid { v with ended := true, closeReq := [], closeCmd := [], tiles := v.tiles.filter fun t => moving t.2 }
  let s := v.closeReq.foldl (fun s r => s.complete r .denied none (some [])) s
  let s := v.closeCmd.foldl (fun s c => s.respondBad c .denied) s
  let s := (v.tiles.filter fun t => !moving t.2).foldl (fun s t =>
    let s := s.dropGot (.tile sid t.1)
    match t.2.req with
    | some r => s.complete r .denied none (some [])
    | none => s) s
  let kept (w : Nat × Nat × Option Nat) : Bool := w.1 != sid || w.2.2.isSome
  let s := { s with stn.stations := s.stn.stations.each fun _ x => { x with work := x.work.filter kept } }
  s.recordDone sid

/-- Step 2: spaces are deleted, ENABLED extents revoked, and every other object of the tenant goes to FREE. -/
def State.endObjects (s : State) (t : Nat) : State :=
  let s := s.pool.spaces.foldl (fun s x => if x.2.tenant == t then s.deleteSpace x.1 none else s) s
  let s := s.pool.extents.foldl (fun s x =>
    if x.2.tenant != t then s
    else match x.2.state with
      | .revoking => s
      | .disabled => (s.delExtent x.1).sendMeta (.noExtent x.1)
      | .enabled =>
        let s := match x.2.draft.bind (·.commit) with
          | some r => s.complete r .denied none (some (cookieOf r.p.payload))
          | none => s
        (s.putExtent x.1 { x.2 with draft := none }).beginRevoke x.1 none) s
  let s := s.str.streams.foldl (fun s x => if x.2.tenant == t && !x.2.ended then s.endStream x.1 x.2 else s) s
  let s := s.seq.windows.foldl (fun s x =>
    if x.2.tenant != t then s
    else
      let s := (s.delWindow x.1).sendMeta (.noWindow x.1)
      match x.2.retireCmd with
      | some c => s.respondBad c .denied
      | none => s) s
  let s := s.seq.contexts.foldl (fun s x =>
    if x.2.tenant != t then s
    else
      let s := (s.delContext x.1).sendMeta (.noContext x.1)
      x.2.holds.foldl (fun s h => match h with
        | .truncate _ c => s.respondBad c .denied
        | .disable c => s.respondBad c .denied) s) s
  let s := s.com.commons.foldl (fun s x =>
    if x.2.tenant == t && x.2.state == .disabled then (s.delCommon x.1).sendMeta (.noCommon x.1) else s) s
  { s with
    ten.sets := s.ten.sets.keep fun k _ => k / 65536 != t
    ten.admissions := s.ten.admissions.filter fun a => a.1 != t
    str.progs := s.str.progs.keep fun _ p => p.tenant != t
    pool.handles := s.pool.handles.keep fun _ h => ((s.pool.extents.find h.extent).map (·.tenant)) != some t
    sch.profs := s.sch.profs.del t }

/-- The refusal of step 1 is in force everywhere (REFUSAL_MARK_IN_FORCE), and step 2 follows. -/
def State.tenantMark (s : State) (t : Nat) : State :=
  match s.tenantOf t with
  | none => s
  | some x =>
    if x.sess != .ending || x.markDone then s
    else (s.putTenant t { x with markDone := true, endTick := s.dev.tick }).endObjects t

/-- Whether nothing of a tenant is left that step 3 waits for. -/
def State.tenantClear (s : State) (t : Nat) : Bool :=
  !(s.pool.extents.any fun x => x.2.tenant == t) && !(s.str.streams.any fun x => x.2.tenant == t) &&
    !(s.com.commons.any fun x => x.2.tenant == t) && !(s.seq.windows.any fun x => x.2.tenant == t) &&
    !(s.seq.contexts.any fun x => x.2.tenant == t) &&
    s.pool.spaces.all fun x => x.2.tenant != t || (x.2.dead && s.spaceFree x.1)

/-- A tenant's keys are overwritten: its key slot, event queue and CCP sessions go, and the ending command completes. -/
def State.eraseKeys (s : State) (t : Nat) (x : Tenant) : State :=
  let s := s.putTenant t { keyHash := x.keyHash, reserve := x.reserve }
  let s := x.endCmds.foldl State.respondOk s
  let s := { s with log.ten := s.log.ten.del t }
  (s.ctl.sessions.keysWhere fun v => v.role == .tenant && v.tenant == t).foldl State.endSession s

/-- KEY_SLOT_ERASE: step 3. Objects that the tenant made after step 2 end first. -/
def State.keySlotErase (s : State) (t : Nat) : State :=
  match s.tenantOf t with
  | none => s
  | some x =>
    if x.sess != .ending || !x.markDone then s
    else if s.tenantClear t then s.eraseKeys t x
    else s.endObjects t

/-- SESSION_END_SLOW_EXPIRY. -/
def State.endSlow (s : State) (t : Nat) : State :=
  match s.tenantOf t with
  | none => s
  | some x =>
    if x.sess == .ending && x.markDone && !x.slowNoted && x.endTick + 16384 ≤ s.dev.tick then
      (s.putTenant t { x with slowNoted := true }).recOp 0x0103 11 t 0 0
    else s

/-- TENANT_SESSION_END (R240, R242). -/
def bodySessionEnd : CcpBody := fun c s =>
  match s.tenantOf c.tenant with
  | none => refuse s rNoObject
  | some x => match x.sess with
    | .opened => heldCmd (s.beginEnd c.tenant x [c.ref])
    | _ => done s .alreadyComplete

/-- TENANT_EVICT (R240, R242). -/
def bodyTenantEvict : CcpBody := fun c s =>
  let t := c.object
  match s.tenantOf t with
  | none => if t == 0 || t == 0xFFFF then refuse s rObject else refuse s rNoObject
  | some x => match x.sess with
    | .opened => heldCmd (s.beginEnd t x [c.ref])
    | _ => done s .alreadyComplete

/-! Rotation (R248, R250). -/

/-- KEY_ROTATE. -/
def bodyKeyRotate : CcpBody := fun c s =>
  match s.tenantOf c.tenant with
  | none => refuse s rNoObject
  | some x =>
    if x.sess != .opened then refuse s rState
    else if x.oldEpoch.isSome then refuse s rBusy
    else okEmpty (s.putTenant c.tenant { x with epoch := x.epoch % 31 + 1, oldEpoch := some x.epoch })

/-- Whether a sector carries the old epoch of a tenant whose rotation is in progress, and can be rewritten. -/
def State.oldSector (s : State) (n : Nat) (m : SecMeta) : Bool :=
  match (s.granOwner (sectorGran n)).bind s.tenantOf with
  | some x => x.sess == .opened && x.oldEpoch == some m.epoch && x.keyId == m.keyId && !m.macBad
  | none => false

/-- ROTATION_REWRITE_DONE: no sector of the old epoch is left, and its keys go (R250). -/
def State.rotationDone (s : State) (t : Nat) : State :=
  match s.tenantOf t with
  | none => s
  | some x =>
    let left := s.pool.sectors.any fun m => s.granOwner (sectorGran m.1) == some t && s.oldSector m.1 m.2
    if x.sess != .opened || x.oldEpoch.isNone || left then s
    else (s.putTenant t { x with oldEpoch := none }).recTen t 0x0102 11 t 0 x.epoch

/-! Admissions (R255). -/

/-- ADMIT. -/
def bodyAdmit : CcpBody := fun c s =>
  let a := (c.tenant, bits c.block 511 128)
  let cookie := leBytes (bits c.block 127 64) 8
  let held := s.ten.admissions.contains a
  if bit c.block 0 then
    if held then done s .alreadyComplete cookie
    else if 65536 ≤ s.ten.admissions.length then refuse s (rf .resource 5)
    else okBytes { s with ten.admissions := a :: s.ten.admissions } cookie
  else if !held then done s .alreadyComplete cookie
  else
    let s := { s with ten.admissions := s.ten.admissions.filter (· != a) }
    okBytes ((s.ten.links.keysWhere fun l => l.tenant == a.1 && l.identity == a.2).foldl State.endLink s) cookie

/-! Device sets (R260, R261). -/

/-- Whether entries are in strictly ascending order, as byte strings. -/
def ascending : List Nat → Bool
  | a :: b :: r => a < b && ascending (b :: r)
  | _ => true

/-- The entries of a list, in its order, as the bytes stand. -/
def setEntries (b : List Byte) (n : Nat) : List (List Byte) := (List.range n).map fun i => slice b (64 + 48 * i) 48

/-- What a whole list meets (R260). -/
def State.loadSet (s : State) (t : Nat) (h : Nat) (b : List Byte) (sigOk : Bool) : Except Refuse State :=
  let n := bits h 39 32 + 1
  let set := bits h 31 16
  let l := setEntries b n
  let refusal := firstRefuse
    [ (!ascending (l.map fun e => leNat e.reverse) || !sigOk || bits h 3 0 != 3 || set == 0, rRange),
      (s.ten.sets.has (t * 65536 + set), rf .conflict 2),
      (256 ≤ (s.ten.sets.filter fun x => x.1 / 65536 == t).length, rf .resource 5) ]
  match refusal with
  | some r => .error r
  | none =>
    let ids := l.map leNat
    .ok ({ s with ten.sets := s.ten.sets.put (t * 65536 + set) ids }.sendMeta (.devSet t set ids))

/-- A SET_LOAD goes on with what its channel holds: it ends once the header is wrong or the whole list is there, and its
channel closes with it (R260, 17 R457). -/
def State.setLoadGo (s : State) (ch : Nat) : State :=
  match s.ctl.bulk.find ch with
  | none => s
  | some k => match k.consumer with
    | some (.setLoad sid cmd sigOk) =>
      let b := k.buffer
      let h := leNat (b.take 64)
      let len := bits h 95 64
      let fin (s : State) (r : Reply) : State := { s with ctl.bulk := s.ctl.bulk.del ch }.respond ⟨sid, cmd⟩ r
      if b.length < 64 then s
      else if bits h 511 96 != 0 || bits h 63 40 != 0 || bits h 15 4 != 0 then
        fin s ⟨Status.malformed.code, 0x0103, []⟩
      else if len != 64 + 48 * (bits h 39 32 + 1) + 96 then fin s ⟨Status.faultRange.code, 0x0102, []⟩
      else if b.length < len then s
      else match s.ctl.sessions.find sid with
        | none => s
        | some v => match s.loadSet v.tenant h b sigOk with
          | .ok s => fin s ⟨0, 0, []⟩
          | .error r => fin s ⟨r.status.code, r.reason, []⟩
    | _ => s

/-- SET_LOAD (R260): the channel is one of its session's, and the command is held until its bytes are there. -/
def bodySetLoad : CcpBody := fun c s =>
  let ch := c.object
  match s.ctl.bulk.find ch with
  | none => if 32 ≤ ch then refuse s rObject else refuse s rNoObject
  | some k =>
    if k.session != c.sid then refuse s rNoObject
    else if k.consumer.isSome then refuse s rBusy
    else
      let s := s.putBulk ch { k with consumer := some (.setLoad c.sid c.cmdId c.sigOk) }
      { s, reply := none, after := fun s => s.setLoadGo ch }

/-- SET_DELETE (R261). -/
def bodySetDelete : CcpBody := fun c s =>
  let set := c.object
  let k := c.tenant * 65536 + set
  if set == 0 then refuse s rObject
  else if !s.ten.sets.has k then refuse s rNoObject
  else if s.pool.extents.any fun x => x.2.tenant == c.tenant && extSealed x.2 && extSet x.2 == set then refuse s rState
  else okEmpty ({ s with ten.sets := s.ten.sets.del k }.sendMeta (.devSet c.tenant set []))

/-! Weight imports (R262 to R265, 18 R472). -/

/-- WEIGHT_IMPORT_BIND (18 R472). -/
def bodyImportBind : CcpBody := fun c s =>
  let ch := bits c.block 20 16
  if (s.ctl.bulk.find ch).any fun k => k.session == c.sid then
    okEmpty (s.putSession c.sid { c.sess with binding := some (bits c.block 15 0, ch) })
  else refuse s rRange

/-- Row `n` of Table 9-12 refuses. -/
def importRow (st : Status) (cl : RClass) (n : Nat) : Refuse := ⟨st, reason cl (0x80 + n)⟩

/-- WEIGHT_IMPORT_BEGIN (Table 9-12, R472). The verdict is that of the unwrap. -/
def bodyImportBegin : CcpBody := fun c s =>
  match c.sess.binding with
  | none => refuse s (rf .dependency 1)
  | some (ext, ch) =>
    let s := s.putSession c.sid { c.sess with binding := none }
    let h := c.block
    let plain := bits h 255 192
    let n := bits h 143 128 + 1
    let set := bits h 63 48
    let body := leBytes c.block c.total
    let e := (s.pool.extents.find ext).filter fun e => e.tenant == c.tenant && e.state == .enabled
    let ids := s.ten.sets.findD (c.tenant * 65536 + set) []
    match firstRefuse
      [ (plain == 0 || bits h 191 160 != chunkCount plain || 256 < n || bits h 3 0 != 3 || recordFills body n, importRow .malformed .range 1),
        (!(e.any fun e => extSealed e && extSet e == set), importRow .denied .policy 2),
        (!hasRecord body n Config.identityHash.toNat || !ids.contains Config.identityHash.toNat ||
          ((e.any fun e => bit e.desc 8) && !ids.contains (bits s.pair.block 1023 640)), importRow .denied .policy 3),
        (((e.map extCount).getD 0) * 2097152 < plain, importRow .faultRange .range 4),
        ((s.pool.maps.any fun m => m.extent == ext) || s.importing ext, importRow .busyRetry .state 5),
        (16 ≤ s.ten.imports.count fun m => !m.failed, importRow .busyRetry .resource 6),
        (!c.sigOk, importRow .integrity .policy 7) ] with
    | some r => refuse s r
    | none =>
      let s := s.putImport ext
        { session := c.sid, tenant := c.tenant, channel := ch, setId := set, plainBytes := plain, chunkCount := chunkCount plain }
      okEmpty { s with ctl.bulk := s.ctl.bulk.adjust ch fun k => { k with consumer := some (.weights ext) } }

/-- The plaintext bytes of an import's next chunk. -/
def nextChunk (m : Import) : Nat := min 65536 (m.plainBytes - 65536 * m.taken)

/-- Whether the channel of an import is still its own. -/
def State.importChannel (s : State) (ext : Nat) (m : Import) : Option Bulk :=
  (s.ctl.bulk.find m.channel).filter fun k => k.consumer == some (.weights ext)

/-- An import ends, and with it its content key and its channel (R263, 17 R457). -/
def State.importEnds (s : State) (ext : Nat) (m : Import) : State :=
  let s := s.delImport ext
  match s.importChannel ext m with
  | some _ => { s with ctl.bulk := s.ctl.bulk.del m.channel }
  | none => s

/-- What an END finds, where it need not wait (Table 9-12): the reply, and whether the import ends. -/
def State.importOutcome (s : State) (ext : Nat) (m : Import) : Option (Reply × Bool) :=
  if m.failed then some (⟨Status.integrity.code, reason .policy 0x88, []⟩, true)
  else if m.taken == m.chunkCount then if m.held then none else some (⟨0, 0, []⟩, true)
  else
    let notReady : Reply := ⟨Status.notReady.code, reason .dependency 0x89, []⟩
    match s.importChannel ext m with
    | none => some (notReady, true)
    | some k =>
      let rest := m.plainBytes - 65536 * m.taken + 16 * (m.chunkCount - m.taken)
      if k.buffer.length < rest then some (notReady, false) else none

/-- An END that waits is answered once it need not wait. -/
def State.importCheck (s : State) (ext : Nat) : State :=
  match s.ten.imports.find ext with
  | none => s
  | some m =>
    match m.endCmd, s.importOutcome ext m with
    | some c, some (r, ends) =>
      let s := if ends then s.importEnds ext m else s.putImport ext { m with endCmd := none }
      s.respond c r
    | _, _ => s

/-- WEIGHT_IMPORT_END (R263, R264). -/
def bodyImportEnd : CcpBody := fun c s =>
  let ext := c.object
  match s.ten.imports.find ext with
  | none => if (s.pool.extents.find ext).any (·.tenant == c.tenant) then refuse s rState else refuse s rNoObject
  | some m =>
    if m.tenant != c.tenant then refuse s rNoObject
    else if m.endCmd.isSome then refuse s rBusy
    else
      let s := s.putImport ext { m with endCmd := some c.ref }
      { s, reply := none, after := fun s => s.importCheck ext }

/-- A chunk has failed its tag: the import ends, its channel closes, and END will answer INTEGRITY (R264). -/
def State.importFails (s : State) (ext : Nat) (m : Import) : State :=
  let s := s.importEnds ext m
  (s.putImport ext { m with failed := true }).importCheck ext

/-- WEIGHT_CHUNK: the next chunk of an import leaves its channel; its plaintext is written, and END waits until the standby holds
it where the extent is mirrored, or its tag fails (R263, R264, 16 R434). -/
def State.weightChunk (s : State) (ext : Nat) (plain : List Byte) (tagOk : Bool) : State :=
  match s.ten.imports.find ext with
  | none => s
  | some m =>
    let len := nextChunk m
    match s.importChannel ext m with
    | none => s
    | some k =>
      if m.failed || m.taken == m.chunkCount || k.buffer.length < len + 16 then s
      else
        let s := s.putBulk m.channel { k with buffer := k.buffer.drop (len + 16) }
        if !tagOk then s.importFails ext m
        else
          let off := 65536 * m.taken
          let w : TileWrite := { dev := s.framePage ext m.taken none * 65536, ext := some (ext, off), bytes := padTo plain len }
          let s := (s.putWrite w).2
          let r := s.mirrorWrites [w] [] (.weights ext)
          (r.2.putImport ext { m with taken := m.taken + 1, held := m.held || r.1 }).importCheck ext

/-- The standby has every chunk that was sent to it, or the held writes end with the unit's service (16 R434). -/
def State.importHeld (s : State) (ext : Nat) : State :=
  { s with ten.imports := s.ten.imports.adjust ext fun m => { m with held := false } }.importCheck ext

end Sys2Proof.Machine
end

