-- ==== Sys2Proof/Machine/Control.lean ====
section
/-! DEFINITION. Control.lean: the Ethernet ports (17 R442, R443, R454, R455), the handshake and the ends of a session (R447,
R448), MBX_DROP, ETH_SET, bulk channels (R457 to R459), the waits of Table 17-6 and event notices (R465). -/

namespace Sys2Proof.Machine

/-! Sessions. -/

/-- What the device answers to a handshake message (17 Table 17-3): it has no `cmd_id` and no mailbox. -/
def State.helloAnswer (s : State) (port sid opcode : Nat) (r : Refuse) : State :=
  s.emit (.ccpResponse port 0 sid opcode 0 0 ⟨r.status.code, r.reason, []⟩)

/-- What the intake answers instead while management cannot serve (17 R464, 01 R26). -/
def State.intakeBars (s : State) : Option Refuse :=
  if s.dev.halt.isSome then some rState
  else if s.dev.mgmtReset.isSome then some (rf .state 3)
  else none

/-- CCP_HELLO (Table 17-3 steps 1 and 2). -/
def State.ccpHello (s : State) (port ver : Nat) (role : Role) (tenant keyHash : Nat) : State :=
  if ver == 0 || 3 < ver then s.countDev (2 + port)
  else match s.intakeBars with
    | some r => s.helloAnswer port 0 1 r
    | none =>
      if 16 ≤ s.ctl.handshakes.length then s.helloAnswer port 0 1 (rf .resource 3)
      else
        match cyclicFree (fun i => s.ctl.sessions.has i || s.ctl.handshakes.has i) s.ctl.lastSession 1 0xFFFF with
        | none => s.helloAnswer port 0 1 (rf .resource 3)
        | some sid =>
          let h : Handshake := { ver, role, tenant, keyHash, due := s.dev.tick + 4194304 }
          { s with ctl.handshakes := s.ctl.handshakes.put sid h, ctl.lastSession := some sid }.emit (.helloReply port sid)

/-- Whether a key is one of the operator's four (Table 17-3 step 4, 19 Table 19-13). -/
def State.operatorKey (s : State) (h : Nat) : Bool :=
  match s.fw.live.find 0x20 with
  | none => false
  | some b => (List.range 4).any fun i => leNat (slice b (48 * i) 48) == h

/-- What step 4 decides of a handshake (Table 17-3, R448, 09 R236, R239): the state with the tenant session open. -/
def State.admitSession (s : State) (h : Handshake) (sigOk : Bool) : Except Refuse State :=
  let same := s.ctl.sessions.count fun v => v.role == h.role && (h.role == .operator || v.tenant == h.tenant)
  let keyFails : Refuse := rf .policy 3
  if 256 ≤ s.ctl.sessions.length then .error (rf .resource 3)
  else match h.role with
    | .operator =>
      if 16 ≤ same then .error (rf .resource 3)
      else if !sigOk || !s.operatorKey h.keyHash then .error keyFails
      else .ok s
    | .tenant =>
      if 4 ≤ same then .error (rf .resource 3)
      else if !sigOk || (s.tenantOf h.tenant).map (·.keyHash) != some h.keyHash then .error keyFails
      else if s.fw.unlocked then .error (rf .policy 4)
      else s.openTenant h.tenant

/-- CCP_FINISH (Table 17-3 steps 3 and 4). -/
def State.ccpFinish (s : State) (port sid : Nat) (sigOk : Bool) : State :=
  match s.ctl.handshakes.find sid with
  | none => s.countDev (2 + port)
  | some h =>
    let s' := { s with ctl.handshakes := s.ctl.handshakes.del sid }
    if h.due < s.dev.tick then s'
    else match s.intakeBars with
      | some r => s.helloAnswer port sid 2 r
      | none => match s'.admitSession h sigOk with
        | .error r => s'.helloAnswer port sid 2 r
        | .ok s =>
          let v : Session :=
            { ver := h.ver, role := h.role, tenant := h.tenant, port, rxTop := some 0, txSeq := 1,
              idleDue := s.dev.tick + (s.eth port).idleUnits * 2 ^ 20 }
          (s.putSession sid v).emit (.ccpResponse port 0 sid 2 0 0 ⟨0, 0, []⟩)

/-- HANDSHAKE_TIMEOUT (Table 17-6). -/
def State.handshakeTimeout (s : State) (sid : Nat) : State :=
  match s.ctl.handshakes.find sid with
  | some h => if h.due ≤ s.dev.tick then { s with ctl.handshakes := s.ctl.handshakes.del sid } else s
  | none => s

/-- CCP_SESSION_IDLE (R448). -/
def State.sessionIdle (s : State) (sid : Nat) : State :=
  match s.ctl.sessions.find sid with
  | some v => if v.idleDue ≤ s.dev.tick then s.endSession sid else s
  | none => s

/-- CCP_CLOSE: the response leaves, then the session ends (18 R475). -/
def bodyCcpClose : CcpBody := fun c s => { okEmpty s with after := fun s => s.endSession c.sid }

/-! Mailboxes. -/

/-- A command that is not yet complete is dropped, with a kept ABORTED response (R453, Table 17-6). -/
def State.dropMailbox (s : State) (mb : Nat) (m : Mailbox) : State :=
  let s := s.delMailbox mb
  match s.ctl.sessions.find m.session with
  | none => s
  | some v =>
    let kept : CmdRec := .kept m.opcode mb ⟨Status.aborted.code, 0x0601, []⟩
    s.putSession m.session { v with cmds := pruneCmds (v.high.getD 0) (v.cmds.put m.cmdId kept) }

/-- MBX_DROP (R453). -/
def bodyMbxDrop : CcpBody := fun c s =>
  let n := bits c.block 15 0
  match s.mailboxOf c.sid n with
  | some (mb, m) => if m.running then done s .alreadyComplete else okEmpty (s.dropMailbox mb m)
  | none => match s.ctl.sessions.find c.sid with
    | none => okEmpty s
    | some v =>
      if v.cmds.has n || v.seen.contains n then done s .alreadyComplete
      else
        let v := acceptCmd v n
        let cmds := v.cmds.put n (.kept 0 0 ⟨Status.aborted.code, 0x0601, []⟩)
        okEmpty (s.putSession c.sid { v with cmds := pruneCmds (v.high.getD 0) cmds })

/-- FRAGMENT_TIMEOUT (Table 17-6). -/
def State.fragmentTimeout (s : State) (mb : Nat) : State :=
  match s.ctl.mailboxes.find mb with
  | some m => if !m.running && m.due ≤ s.dev.tick then s.dropMailbox mb m else s
  | none => s

/-! Ethernet ports. -/

/-- ETH_SET (R456). -/
def bodyEthSet : CcpBody := fun c s =>
  let b := c.block
  let p := bits b 0 0
  let sel (v d : Nat) : Nat := if v == 0 then d else v
  let hi := sel (bits b 71 67) 24
  let lo := sel (bits b 66 62) 8
  checked s
    [ (bits b 111 100 == 4095 || hi < 2 || 30 < lo, rRange), (hi ≤ lo, rf .range 5) ]
    (let e := s.eth p
     okEmpty (s.putEth p
       { e with
         udpPort := sel (bits b 127 112) 48620
         vlan := bits b 111 100
         idleUnits := sel (bits b 95 80) 894
         hiMark := hi
         loMark := lo
         pfcOff := bit b 1 }))

/-- PFC_REPEAT_TIMER (R455). -/
def State.pfcRepeat (s : State) (p : Nat) : State :=
  let e := s.eth p
  if e.full && !e.pfcOff && e.pfcDue ≤ s.dev.tick then
    (s.putEth p { e with pfcDue := s.dev.tick + 200 }).emit (.pfc p 0xFFFF)
  else s

/-- The responses of a port whose priority is no longer paused leave, oldest first (R462). -/
def State.releaseTx (s : State) (p : Nat) : State :=
  let e := s.eth p
  let held (h : HeldTx) : Bool := s.dev.tick < e.pausedTo.findD h.cls 0
  (e.heldTx.filter fun h => !held h).foldl
    (fun s h => s.emit (.ccpResponse p h.cls h.session h.opcode h.cmdId h.mailbox h.reply))
    (s.putEth p { e with heldTx := e.heldTx.filter held })

/-- A PFC frame of the link partner sets or ends a pause (R442, Table 17-1): a quantum is 512 bit times, so 125 quanta last
one slow tick. -/
def State.pfcIn (s : State) (p prio quanta : Nat) : State :=
  let e := s.eth p
  (s.putEth p { e with pausedTo := e.pausedTo.put prio (s.dev.tick + ceilDiv quanta 125) }).releaseTx p

/-- PFC_PAUSE_EXPIRY (Table 17-6). -/
def State.pauseExpiry (s : State) (sid cmdId : Nat) : State :=
  let go (s : State) (p : Nat) : State :=
    let e := s.eth p
    let late (h : HeldTx) : Bool := h.session == sid && h.cmdId == cmdId && h.due ≤ s.dev.tick
    s.putEth p { e with
      heldTx := e.heldTx.filter fun h => !late h
      txDropped := e.txDropped + (e.heldTx.filter late).length }
  go (go s 0) 1

/-- The length of a UDP payload that holds a CCP frame (17 CCP frames): the tag follows inside a session. -/
def ccpLen (f : CcpFrame) : Nat := 32 + f.length + if f.ftype == 0 || (f.ftype == 1 && f.session == 0) then 0 else 16

/-- A frame enters the intake FIFO of a port, or finds it full (R454, R455). A `length` that does not match the UDP length
is kept as a set reserved bit, which R445 treats alike. -/
def State.fifoIn (s : State) (p : Nat) (f : EthFrame) : State :=
  let e := s.eth p
  let c := f.ccp
  let c := { c with port := p, cls := f.pcp, rsvd := if f.udpLen == ccpLen c then c.rsvd else 1 }
  if 32 ≤ e.fifo.length then s.countDev 4
  else (s.putEth p { e with fifo := e.fifo ++ [c] }).fifoMarks p

/-- ETH_FRAME_RX (R442, R443, R454; 15 R424). -/
def State.ethFrame (s : State) (p : Nat) (f : EthFrame) : State :=
  let e := s.eth p
  let own := f.fcsOk && f.vlan == e.vlan && e.ips.contains f.dstIp
  let bad := s.countDev p
  if !e.up then s
  else if f.kind == 4 then (if f.fcsOk then s.pfcIn p f.pcp f.udpLen else bad)
  else if f.kind == 1 || f.kind == 2 then (if own then s.emit (.ethAnswer p f.kind) else bad)
  else if f.kind == 3 then
    if own && f.dstMac == e.mac && e.echoes < 1000 then (s.putEth p { e with echoes := e.echoes + 1 }).emit (.ethAnswer p 3)
    else bad
  else if f.kind == 0 && own && f.dstMac == e.mac && f.udpPort == e.udpPort && 32 ≤ f.udpLen then
    let s := s.wakeByFrame
    let c := f.ccp
    let known := c.ftype == 0 || (c.ftype == 2 && c.tagOk && (s.ctl.sessions.find c.session).any (·.ver == c.ccpVer))
    if s.attestBusy c.opcode && known then
      if c.frag == 0 then s.intakeAnswer p f.pcp c.session c.opcode c.cmdId 0x0603 else s
    else s.fifoIn p f
  else bad

/-! Bulk channels. -/

/-- BULK_OPEN (R457). -/
def bodyBulkOpen : CcpBody := fun c s =>
  let n := bits c.block 47 0
  let mine := s.ctl.bulk.count fun b => b.session == c.sid
  if n == 0 then refuse s rRange
  else if 32 ≤ s.ctl.bulk.length || 16 ≤ mine then refuse s (rf .resource 3)
  else match cyclicFree (fun i => s.ctl.bulk.has i) s.ctl.lastChannel 0 31 with
    | none => refuse s (rf .resource 3)
    | some ch =>
      let k : Bulk := { session := c.sid, bytes := n, due := s.dev.tick + 16777216 }
      okNum { s.putBulk ch k with ctl.lastChannel := some ch } ch

/-- A channel closes (R457): a SET_LOAD that waits on it ends ABORTED; an import and a stage notice at the end of the step. -/
def State.closeChannel (s : State) (ch : Nat) : State :=
  match s.ctl.bulk.find ch with
  | none => s
  | some k =>
    let s := s.delBulk ch
    match k.consumer with
    | some (.setLoad sid cmd _) => s.respondBad ⟨sid, cmd⟩ .aborted
    | _ => s

/-- The channel of an object block, where it is one of the session's (R457, 18 R468). -/
def ownChannel (c : CcpCtx) (s : State) (k : Nat → Bulk → CcpOut) : CcpOut :=
  let ch := c.object
  match s.ctl.bulk.find ch with
  | some b => if b.session == c.sid then k ch b else refuse s rNoObject
  | none => if 32 ≤ ch then refuse s rObject else refuse s rNoObject

/-- BULK_CLOSE. -/
def bodyBulkClose : CcpBody := fun c s => ownChannel c s fun ch _ => okEmpty (s.closeChannel ch)

/-- BULK_STATUS (R459): the register and the free buffer bytes (log 29). -/
def bodyBulkStatus : CcpBody := fun c s =>
  ownChannel c s fun _ b => okBytes s (leBytes b.offset 8 ++ leBytes (262144 - b.buffer.length) 8)

/-- BULK_CHANNEL_IDLE. -/
def State.channelIdle (s : State) (ch : Nat) : State :=
  match s.ctl.bulk.find ch with
  | some k => if k.due ≤ s.dev.tick then s.closeChannel ch else s
  | none => s

/-- A bulk acknowledgement leaves (R459). -/
def State.bulkAck (s : State) (port sid ch offset : Nat) : State :=
  (s.emit (.bulkAck port sid ch offset)).numberFrames sid 0

/-- A bulk frame of a session (R458, R459). -/
def State.bulkIn (s : State) (f : CcpFrame) : State :=
  let ch := f.cmdId
  match (s.ctl.bulk.find ch).filter fun k => k.session == f.session with
  | none => s.countDev (2 + f.port)
  | some k =>
    let fits := f.first && f.last && f.frag == 0 && 1 ≤ f.length && f.bulkOff == k.offset &&
      k.offset + f.length ≤ k.bytes && k.buffer.length + f.length ≤ 262144
    if fits then
      let off := k.offset + f.length
      let n := k.sinceAck + f.length
      let buffer := if k.consumer == some .stage then [] else k.buffer ++ f.body
      let s := s.putBulk ch { k with offset := off, buffer, sinceAck := n % 65536, due := s.dev.tick + 16777216 }
      let s := if k.consumer == some .stage then { s with fw.staging := s.fw.staging.map (·.take f.body) } else s
      let s := if 65536 ≤ n || off == k.bytes then s.bulkAck f.port f.session ch off else s
      s.setLoadGo ch
    else
      let s := s.countDev (2 + f.port)
      if k.nakTick.all fun t => t + 64 ≤ s.dev.tick then
        (s.putBulk ch { k with nakTick := some s.dev.tick }).bulkAck f.port f.session ch k.offset
      else s

/-! Notices. -/

/-- The records that a session's reader has not removed. -/
def State.unread (s : State) (v : Session) : Nat :=
  match v.role with
  | .operator => s.log.op.recs.length
  | .tenant => ((s.log.ten.find v.tenant).map (·.recs.length)).getD 0

/-- EVENT_NOTICE_SEND (R465). -/
def State.noticeSend (s : State) (sid : Nat) : State :=
  match s.ctl.sessions.find sid with
  | none => s
  | some v =>
    if v.noticeDue && s.mgmtUp && (v.noticeTick.all fun t => t + 64 ≤ s.dev.tick) then
      let s := s.putSession sid { v with noticeDue := false, noticeTick := some s.dev.tick }
      (s.emit (.notice v.port sid (min (s.unread v) 0xFFFF))).numberFrames sid 0
    else s

end Sys2Proof.Machine
end

