-- ==== Sys2Proof/Machine/Pair.lean ====
section
/-! DEFINITION. Pair.lean: the roles of a redundant pair, its lease, mirroring and takeover (16 R425 to R440). -/

namespace Sys2Proof.Machine

/-! What a unit says of itself. -/

/-- The slot of an image (19 R485). -/
def Fw.slot (f : Fw) (n : Nat) : Slot := if n == 0 then f.slotA else f.slotB

/-- The security version of the running management image. -/
def State.mgmtSec (s : State) : Nat := (s.fw.slot s.fw.runMgmt).secVer

def pairId (s : State) : Nat := bits s.pair.block 159 144

/-- Whether the peer that speaks is the one this unit is paired with, at the same security version (R426). -/
def State.peerFits (s : State) (i : PeerInfo) : Bool :=
  i.identity == bits s.pair.block 1023 640 && i.pairId == pairId s && i.secVer == s.mgmtSec

/-! The lease (R429 to R431). -/

/-- The lease operand of a request (Table 16-3). -/
def leaseOperand (term pid : Nat) (out back : Bool) : Nat := term * 2 ^ 96 + pid * 2 ^ 48 + b2n out * 2 ^ 39 + b2n back * 2 ^ 38

/-- A signed lease request leaves for the witness (R429). -/
def State.sendLease (s : State) (what : IssuedFor) (claim out back : Bool) : State :=
  let o := leaseOperand s.pair.term (pairId s) out back
  let body (tag tgen : Nat) : List Byte :=
    leBytes o 16 ++ ecdsaOf (leBytes (s.fab.nodeId.getD 0) 2 ++ leBytes s.witnessNode 2 ++ leBytes tag 2 ++ leBytes tgen 1 ++ leBytes o 16)
  let x := s.issueWith what (if claim then 0x79 else 0x78) s.witnessNode 0 0 body
  x.2.emit (.lease x.1 claim o)

/-- LEASE_RENEW leaves (R431). -/
def State.renew (s : State) (out back : Bool) : State := s.sendLease (.renew s.dev.tick out back) false out back

/-- LEASE_CLAIM leaves (R431). -/
def State.claimLease (s : State) : State :=
  { s with pair.claiming := true, pair.retryDue := none }.sendLease (.claim s.dev.tick) true false false

/-- LEASE_RENEW_TIMER: every quarter of the lease. A unit in TAKEOVER repeats the renewal of its step 5 until one completes OK
(R431, Table 16-6, log 183). -/
def State.renewTimer (s : State) : State :=
  let takes := s.pair.role == .takeover
  if (s.pair.role == .active || takes) && s.pair.renewDue ≤ s.dev.tick then
    { s with pair.renewDue := s.dev.tick + s.leaseTicks / 4 }.renew takes false
  else s

/-! Held writes (R434). -/

/-- What waited for the standby goes on, or is answered FAILOVER. -/
def State.mirrorGo (s : State) (w : MirrorWait) (ok : Bool) : State :=
  match w with
  | .request r st word payload addr =>
    if ok then s.complete r ((Status.ofCode st).getD .ok) word (some payload) addr else s.complete r .failover none (some [])
  | .tile sid i => if ok then s.tileMirrored sid i else s.endTile sid i .failover
  | .ledger w t =>
    if ok then s.ledgerClosed w t
    else
      let s := { s with seq.windows := s.seq.windows.adjust w fun v =>
        { v with tiles := v.tiles.adjust t fun l => { l with flag := Status.failover.code } } }
      s.ledgerClosed w t
  | .weights e => s.importHeld e
  | .none => s

/-- Every held write goes on. -/
def State.releaseMirrors (s : State) (ok : Bool) : State :=
  let l := s.pair.mirror.foldl (fun (a : List MirrorWait) x => if a.contains x.2.2 then a else a ++ [x.2.2]) []
  l.foldl (fun s w => s.mirrorGo w ok) { s with pair.mirror := [] }

/-- The standby has a message; what waits for it goes on once it has every message it waits for. -/
def State.mirrorAck (s : State) (tag : Nat) : State :=
  match s.pair.mirror.find tag with
  | none => s
  | some (_, w) =>
    let s := { s with pair.mirror := s.pair.mirror.del tag }
    if s.pair.mirror.any fun x => x.2.2 == w then s else s.mirrorGo w true

/-- MIRROR_TIMEOUT: a message is not acknowledged within `mirror_to`; one renewal with `standby_out` is sent. -/
def State.mirrorTimeout (s : State) (tag : Nat) : State :=
  match s.pair.mirror.find tag with
  | none => s
  | some (due, _) =>
    let asked := s.fab.issued.any fun x => match x.2.what with
      | .renew _ true _ => true
      | _ => false
    if s.pair.role == .active && due ≤ s.dev.tick && !asked then s.renew true false else s

/-! Roles (Table 16-2). -/

/-- The unit is FENCED (R437). -/
def State.fenceUnit (s : State) : State :=
  let s := { s with pair.role := .fenced, pair.peerIn := false, pair.syncing := false, pair.claiming := false, pair.retryDue := none }
  let s := s.releaseMirrors false
  if s.ready.pairLink then (s.pairSend .fence 0x75).2 else s

/-- LEASE_LAPSE. -/
def State.leaseLapse (s : State) : State :=
  if s.pair.role == .active && s.pair.leaseOk + s.leaseTicks ≤ s.dev.tick then s.fenceUnit else s

/-- The unit is ACTIVE in a term, with a lease counted from the sending of its claim. -/
def State.becomeActive (s : State) (term sent : Nat) : State :=
  { s with pair.role := .active, pair.term := term, pair.leaseOk := sent, pair.renewDue := s.dev.tick + s.leaseTicks / 4
           pair.claiming := false, pair.waitDue := none, pair.retryDue := none, pair.peerIn := false, pair.peerTen := [] }

/-- The unit is OUT, and a partial copy is discarded. -/
def State.becomeOut (s : State) : State :=
  { s with pair.role := .out, pair.claiming := false, pair.retryDue := none, pair.waitDue := none, pair.received := [], pair.drafts := [] }

/-- Every object of a pair leaves the unit: the copies of a unit that joins are made anew (R440). -/
def State.dropCopies (s : State) : State :=
  let s := s.str.streams.foldl (fun s x => s.freeStream x.1) s
  let grans := s.pool.extents.flatMap (fun e => e.2.grans ++ e.2.verGrans) ++
    s.pool.spaces.flatMap fun x => x.2.pops.map (·.2) ++ x.2.growing.map (·.2.granule)
  let s := grans.foldl (fun s g => (s.zeroGran g).setGran g { st := .free }) s
  { s.dropSpaces (fun _ => true) with
    pool.extents := [], pool.spaces := [], pool.maps := [], pool.handles := [], pool.checkouts := [], pool.past := []
    pool.invals := [], com.commons := [], com.dir := [], com.trans := [], com.lost := [], com.got := []
    seq.windows := [], seq.contexts := [], ten.sets := [], ten.imports := [], pair.received := [], pair.drafts := [] }

/-- The unit joins an ACTIVE peer (R440). -/
def State.becomeSyncing (s : State) : State :=
  let s := s.dropCopies
  { s with pair.role := .syncing, pair.noAck := false, pair.claiming := false, pair.waitDue := none, pair.retryDue := none
           pair.lastRx := s.dev.tick, pair.stale := s.ten.tenants.keysWhere fun t => t.sess == .opened }

/-- The sender of the active unit's heartbeat has been heard (R426, R428, R440). -/
def State.beatFrom (s : State) (i : PeerInfo) : State :=
  match s.pair.role with
  | .unpaired =>
    if !s.pair.enabled || s.pair.waitDue.isNone then s
    else if !s.peerFits i then { s with pair.waitDue := none }.recOp 0x0803 0 0 0 0
    else if i.active then s.becomeSyncing
    else s
  | .out => if i.active && s.peerFits i then s.becomeSyncing else s
  | .syncing => if i.active && i.peerIn then { s with pair.role := .standby } else s
  | _ => s

/-- PAIR_PEER_WAIT_EXPIRY: no ACTIVE peer within 1 s. -/
def State.peerWait (s : State) : State :=
  if s.pair.role == .unpaired && s.pair.enabled && s.pair.waitDue.any (· ≤ s.dev.tick) then
    { s with pair.waitDue := none }.claimLease
  else s

/-- A standby stops acknowledging and claims the lease. -/
def State.standbyClaims (s : State) : State :=
  let s := { s with pair.noAck := true }
  if s.pair.claiming || s.pair.retryDue.isSome then s else s.claimLease

/-- PAIR_SILENCE: no pair traffic for 1,024 slow ticks. -/
def State.pairSilence (s : State) : State :=
  if s.dev.tick < s.pair.lastRx + 1024 then s
  else match s.pair.role with
    | .standby => s.standbyClaims
    | .syncing => s.becomeOut
    | _ => s

/-- A SYNCING unit that has lost its pair link is OUT. -/
def State.linkCheck (s : State) : State := if s.pair.role == .syncing && !s.ready.pairLink then s.becomeOut else s

/-- LEASE_CLAIM_RETRY: the time that a BUSY_RETRY named has passed (R431). -/
def State.claimRetry (s : State) : State :=
  let may := s.pair.role == .standby || (s.pair.role == .unpaired && s.pair.enabled)
  if may && s.pair.retryDue.any (· ≤ s.dev.tick) then s.claimLease else s

/-- PAIR_BEAT_SEND: 64 slow ticks without pair traffic. -/
def State.beatSend (s : State) : State :=
  if s.pair.role == .active && s.pair.enabled && s.pair.lastTx + 64 ≤ s.dev.tick then (s.pairSend .beat 0x72).2 else s

/-! What a standby holds (R433, R436). -/

/-- The record of a request whose effect is mirrored: its tag stays done at this unit (R433, R439). -/
def State.putRecord (s : State) (c : CacheRec) : State :=
  { s.putTagRec (tagKey c.src c.tag) { tgen := c.tgen, st := .done } with fab.cache := cachePut s.fab.cache c }

/-- The bytes of a mirrored write in the unit's own copy, with the poison they carry; a copy without data is one that the active unit
has lost (R433, R440). -/
def State.putCopy (s : State) (ext off : Nat) (data : List Byte) (bad : Bool := false) : State :=
  match s.pool.extents.find ext with
  | none => s
  | some e =>
    if e.grans.length * 2097152 ≤ off then s
    else
      let dev := s.framePage ext (off / 65536) none * 65536 + off % 65536
      if data.isEmpty then s.poisonSector (dev / 256) else (s.store dev data bad).2

/-- A PAIR_MIRROR is applied with its cache records as one action (R433). Writes to a versioned extent belong to its draft
until the version's record comes (06 R180). -/
def State.applyMirror (s : State) (m : MirrorMsg) : State :=
  let draft := (s.pool.extents.find m.extent).any extVersioned
  let s := m.writes.foldl (fun s w =>
    let bad := m.bad.contains (w.1 / 256 * 256)
    if draft then { s with pair.drafts := s.pair.drafts ++ [(m.extent, w.1, w.2)] } else s.putCopy m.extent w.1 w.2 bad) s
  m.caches.foldl State.putRecord s

/-- The writes of a draft that has become current, or has been discarded. -/
def State.settleDraft (s : State) (ext : Nat) (commit : Bool) : State :=
  let mine := s.pair.drafts.filter fun d => d.1 == ext
  let s := { s with pair.drafts := s.pair.drafts.filter fun d => d.1 != ext }
  if commit then mine.foldl (fun s d => s.putCopy ext d.2.1 d.2.2) s else s

/-! Takeover (R438, Table 16-6). -/

/-- Whether an extent's copy here is whole: it is mirrored and its tenant's session is open and resynchronised. -/
def State.copyWhole (s : State) (e : Extent) : Bool :=
  bit e.desc 8 && e.state != .revoking && !s.pair.stale.contains e.tenant && (s.tenantOf e.tenant).any (·.sess == .opened)

/-- Step 3: what is not mirrored is dropped, and its tenants have their events. Its granules leave by a range invalidation, and are
FREE once that is acknowledged (08 Table 8-6, R228, R231). -/
def State.dropUnmirrored (s : State) : State :=
  let gone := s.pool.extents.filter fun x => !s.copyWhole x.2
  let pops := s.pool.spaces.flatMap fun x => x.2.pops.map (·.2) ++ x.2.growing.map (·.2.granule)
  let grans := gone.flatMap (fun x => x.2.grans ++ x.2.verGrans) ++ pops
  let s := gone.foldl (fun s x => s.delExtent x.1) s
  let s := if grans.isEmpty then s else s.invalidate (.phys grans) (.dropped grans)
  let kept (e : Nat) : Bool := s.pool.extents.has e
  let s := s.str.streams.foldl (fun s x => s.freeStream x.1) s
  let s := { s with
    pool.maps := s.pool.maps.filter fun m => kept m.extent
    pool.spaces := s.pool.spaces.each fun _ a => { a with pops := [], growing := [] }
    pool.checkouts := (s.pool.checkouts.keep fun k _ => kept (k / 2 ^ 25)).each fun _ c => { c with waiting := [], opening := none }
    pool.past := s.pool.past.keep fun k _ => kept (k / 2 ^ 25)
    com.commons := s.com.commons.keep fun _ c => kept (comExtent c) }
  let s := s.recOp 0x0801 0 0 s.pair.term gone.length
  s.log.ten.foldl (fun s q =>
    let mine := (gone.filter fun x => x.2.tenant == q.1).map (·.1)
    s.record (.tenant q.1) 0x0801 11 q.1 s.pair.term mine.length mine) s

/-- A recall that was running at the active unit starts again with a full timer (06 R171). -/
def State.recallAgain (s : State) : State :=
  (s.pool.checkouts.filter (·.2.recalling)).foldl (fun s x =>
    let e := x.1 / 2 ^ 25
    let v := s.pool.extents.find e
    let s := s.putCheckout x.1 { x.2 with due := s.dev.tick + (v.map extRecall).getD 4096 }
    match s.linkTo x.2.node ((v.map (·.tenant)).getD 0) with
    | some (id, _) => (s.issue (.recall e (x.1 % 2 ^ 25)) 0x34 x.2.node id x.1 []).2
    | none => s) s

/-- Step 4: windows, contexts, handles, checkouts and commons (04 R122, 05 R149, 06 R171 R180, 07 R209). -/
def State.carryOver (s : State) : State :=
  let lines := (s.com.dir.filter fun x => owned x.2 && s.com.commons.has (lineCommon x.1)).map (·.1)
  let s := (lines.foldl (fun s h => s.markLost (s.lineSector h)) s).recallAgain
  { s with
    com.dir := [], com.trans := [], com.lost := [], com.got := []
    pool.handles := []
    pool.oldHandles := true
    pool.lastHandle := none
    pool.extents := s.pool.extents.each fun _ e => { e with draft := none }
    seq.windows := s.seq.windows.each fun _ w =>
      if w.state == .opened then { w with state := .closed, outcome := Status.failover.code } else w
    seq.contexts := s.seq.contexts.each fun _ c =>
      { c with holds := [], enabled := c.enabled && s.plainMapped (qAsid c.desc) (qKvAddr c.desc) (s.kvBytes c.desc) false } }

/-- A standby's claim is granted: steps 1 to 5. It is ACTIVE when the renewal of step 5 completes OK. -/
def State.takeover (s : State) (term sent : Nat) : State :=
  let s := s.pair.received.foldl State.applyMirror s
  let s := (s.becomeActive term sent).dropSpaces fun _ => true
  let s := { s with pair.role := .takeover, pair.received := [], pair.drafts := [] }
  let s := s.dropUnmirrored.carryOver
  { s with pair.stale := [], pair.noAck := false }.renew true false

/-! Answers of the witness (R428, R434). -/

/-- A renewal completes. -/
def State.renewDone (s : State) (sent : Nat) (out back : Bool) (st : Nat) : State :=
  if st == 0 then
    let s := { s with pair.leaseOk := max s.pair.leaseOk sent }
    let s := if out then { s with pair.peerIn := false, pair.syncing := false, pair.copyTen := [] }.releaseMirrors true else s
    let s := if back && s.pair.syncing then { s with pair.peerIn := true, pair.syncing := false } else s
    if out && s.pair.role == .takeover then { s with pair.role := .active } else s
  else if st == Status.denied.code && (s.pair.role == .active || s.pair.role == .takeover) then s.fenceUnit
  else s

/-- A claim completes. -/
def State.claimDone (s : State) (sent st term remaining : Nat) : State :=
  let s := { s with pair.claiming := false }
  let waits := s.pair.role == .standby || (s.pair.role == .unpaired && s.pair.enabled)
  if !waits then s
  else if st == 0 then if s.pair.role == .standby then s.takeover term sent else s.becomeActive term sent
  else if st == Status.denied.code then
    if s.pair.role == .standby then s.becomeOut else s.becomeOut.recOp 0x0803 0 0 0 0
  else if st == Status.busyRetry.code then { s with pair.retryDue := some (s.dev.tick + remaining) }
  else if st == Status.linkLost.code || st == Status.timeout.code then s.claimLease
  else s

/-! Resynchronisation (R440). -/

/-- The mirrored extents whose copy is in progress, rising. -/
def State.toCopy (s : State) : List (Nat × Extent) :=
  s.pool.extents.filter fun x => bit x.2.desc 8 && x.2.state == .enabled && s.pair.copyTen.contains x.2.tenant

/-- The next sector of the copy at or above the pointer. -/
def State.nextCopy (s : State) : Option (Nat × Nat) :=
  s.toCopy.findSome? fun x =>
    let off := if s.pair.copyPtr / 2 ^ 48 == x.1 then s.pair.copyPtr % 2 ^ 48 else 0
    if x.1 < s.pair.copyPtr / 2 ^ 48 || x.2.grans.length * 2097152 ≤ off then none else some (x.1, off)

/-- A sector that a draft has of its own goes to the joining unit as a write of the draft (06 R180). -/
def State.copyDraft (s : State) (ext off : Nat) : State :=
  match (s.pool.extents.find ext).bind (·.draft) with
  | none => s
  | some d =>
    let page := s.framePage ext (off / 65536) (some d.number)
    if page == s.framePage ext (off / 65536) none then s
    else
      let n := page * 256 + off % 65536 / 256
      let r := s.readSector n
      let bad := r.1 != .ok && r.1 != .okLostUpdate
      r.2.2.mirrorOut ext [(off, padTo r.2.1 256)] (if bad then [off] else []) [] .none

def isCopy (w : IssuedFor) : Bool := match w with
  | .copy _ _ => true
  | _ => false

/-- The copy goes on: one sector at a time. With the last one, tenants whose session opened late are whole at the peer;
the end of a joining unit's copy is RESYNC_COPY_DONE. -/
def State.copyGo (s : State) : State :=
  if s.pair.role != .active || s.pair.copyTen.isEmpty || s.fab.issued.any fun x => isCopy x.2.what then s
  else match s.nextCopy with
    | some (ext, off) =>
      let r := s.readSector (s.framePage ext (off / 65536) none * 256 + off % 65536 / 256)
      let s := { r.2.2 with pair.copyPtr := ext * 2 ^ 48 + off + 256 }
      let data := if r.1 == .ok || r.1 == .okLostUpdate then r.2.1 else []
      let x := s.pairSend (.copy ext off) 0x74
      (x.2.emit (.pairSector x.1 ext off data)).copyDraft ext off
    | none =>
      if s.pair.syncing then s
      else s.pair.copyTen.foldl (fun s t => s.sendMeta (.synced t)) { s with pair.copyTen := [] }

/-- RESYNC_COPY_DONE. -/
def State.copyDone (s : State) : State :=
  let open' := s.fab.issued.any fun x => match x.2.what with
    | .copy _ _ => true
    | .metaRec => true
    | .renew _ _ true => true
    | _ => false
  if s.pair.role != .active || !s.pair.syncing || s.nextCopy.isSome || open' then s
  else
    let s := s.pair.copyTen.foldl (fun s t => s.sendMeta (.synced t)) s
    { s with pair.copyTen := [] }.renew false true

/-- The records of every mirrored object (R440). -/
def State.allRecords (s : State) : List PairRec :=
  let mapBlock (m : Mapping) : Nat :=
    m.vaBase * 2 ^ 80 + m.count * 2 ^ 60 + m.first * 2 ^ 40 + m.asid * 2 ^ 24 + m.pageSize * 2 ^ 16 + m.extent
  let spaces := s.pool.spaces.filter fun x => !x.2.dead
  (s.ten.tenants.flatMap fun x => [PairRec.tenant x.1 x.2.keyHash, .reserve x.1 x.2.reserve]) ++
    (s.ten.sets.map fun x => PairRec.devSet (x.1 / 65536) (x.1 % 65536) x.2) ++
    (spaces.map fun x => PairRec.space x.1 x.2.tenant x.2.desc) ++
    (s.pool.extents.map fun x =>
      PairRec.extent x.1 x.2.tenant x.2.desc (match x.2.state with
        | .disabled => 1
        | .enabled => 2
        | .revoking => 3) x.2.current) ++
    ((s.pool.maps.filter fun m => !m.removing).map fun m =>
      PairRec.mapping (((s.pool.spaces.find m.asid).map (·.tenant)).getD 0) (mapBlock m)) ++
    (s.seq.windows.map fun x => PairRec.window x.1 x.2.tenant x.2.desc x.2.state.num x.2.outcome) ++
    (s.seq.contexts.map fun x =>
      PairRec.context x.1 x.2.tenant x.2.desc (if x.2.enabled then 2 else 1) x.2.frontiers x.2.scales) ++
    (s.com.commons.map fun x => PairRec.common x.1 x.2.tenant x.2.desc (if x.2.state == .disabled then 1 else 2)) ++
    ((s.com.dir.filter fun x => owned x.2).map fun x => PairRec.lineOwned (lineCommon x.1) (lineIndex x.1)) ++
    (s.pool.checkouts.map fun x => PairRec.checkout (x.1 / 2 ^ 25) (x.1 % 2 ^ 25) x.2.node x.2.gen x.2.recalling) ++
    (s.pool.past.map fun x => PairRec.checkin (x.1 / 2 ^ 25) (x.1 % 2 ^ 25) x.2.node x.2.gen x.2.reverted) ++
    (s.fab.nodes.map fun x => PairRec.node x.1 x.2.gen x.2.loss) ++
    ((s.seq.cadence.filter fun x => x.2.block != 0).map fun x => PairRec.cadence x.2.block) ++
    (s.sch.meters.map fun x => PairRec.police (x.2.next.getD x.2.block)) ++
    (s.sch.profs.map fun x => PairRec.police (x.2.next.getD x.2.block)) ++
    (s.sch.nodes.map fun x => PairRec.sched (x.1 / 16 * 2 ^ 48 + x.1 % 8 * 2 ^ 41 + x.1 / 8 % 2 * 2 ^ 40 +
      x.2.minShare * 2 ^ 29 + x.2.maxShare * 2 ^ 18 + x.2.weight * 2 ^ 10)) ++
    (s.sch.arb.zipIdx.map fun x => PairRec.arb (x.1.1 * 2 ^ 48 + x.1.2 * 2 ^ 32 + x.2)) ++
    (s.sch.iso.map fun x => PairRec.isolate x.2) ++ [PairRec.power (s.pwr.next.getD s.pwr.block)] ++
    ((s.fab.cache.take 1048576).map PairRec.cache)

/-- Whether a record is sent again for tenants whose session has opened at the peer: extents of other tenants are not. -/
def recordOf (tenants : List Nat) (r : PairRec) : Bool :=
  match r with
  | .extent _ t _ _ _ => tenants.contains t
  | .cache _ => false
  | _ => true

/-- The peer has answered a heartbeat: a SYNCING peer is copied to, and a change of the tenants whose session is open there
is followed (R435, R440). -/
def State.peerSays (s : State) (i : PeerInfo) : State :=
  if s.pair.role != .active || !s.peerFits i then s
  else
    let lost := s.pair.peerTen.filter fun t => !i.tenants.contains t
    let new := i.tenants.filter fun t => !s.pair.peerTen.contains t && s.ten.tenants.has t
    let s := { s with pair.peerTen := i.tenants }
    let s := lost.foldl (fun s t => s.recTen t 0x0802 11 t 0 0) s
    if i.syncing && !s.pair.syncing then
      let s := { s with pair.syncing := true, pair.peerIn := false, pair.copyPtr := 0, pair.copyTen := i.tenants }
      (s.allRecords.foldl State.sendMeta s).copyGo
    else if new.isEmpty then s
    else
      let s := (s.allRecords.filter (recordOf new)).foldl State.sendMeta s
      { s with pair.copyPtr := 0, pair.copyTen := new.foldl insertNum s.pair.copyTen }.copyGo

/-! Commands. -/

/-- PAIR_SET (R425). -/
def bodyPairSet : CcpBody := fun c s =>
  let b := c.block
  let ports := bits b 255 192
  let n := popcount ports 64
  let lease := bits b 127 112
  let cand (k : Bank) : Bool := k.entries.any fun e => (entryCands e.2).any fun x => bit ports x.2
  let member := s.fab.groups.any fun g => g.2.2 && (List.range 64).any fun p => bit g.2.1 p && bit ports p
  let mirrored := s.pool.extents.any fun e => e.2.state == .enabled && bit e.2.desc 8
  let enable := bit b 0
  checked s
    [ (n == 0 || 4 < n || bits b 159 144 == 0 || lease == 1 || 64 < lease, rRange),
      (cand s.fab.bank0 || cand s.fab.bank1 || member, rf .conflict 1),
      ((enable && s.pair.enabled) || (!enable && s.pair.role == .active && mirrored), rState) ]
    (if enable then
       let s := { s with pair.block := b, pair.enabled := true, pair.waitDue := some (s.dev.tick + 1562500) }
       let s := { s with fw.config := s.fw.config.put 0x40 (leBytes b 128) }
       let s := s.setPortReady 0 (bit s.ready.port 0)
       okEmpty (if bit b 2 then { s with pair.waitDue := none }.claimLease else s)
     else if !s.pair.enabled then okEmpty s
     else
       let s := (s.pairSend .fence 0x75).2.releaseMirrors true
       let s := { s with pair := { block := b }, fw.config := s.fw.config.put 0x40 (leBytes b 128) }
       okEmpty (s.setPortReady 0 (bit s.ready.port 0)))

/-- The number of a role, in the order of Table 16-2. -/
def PairRole.num : PairRole → Nat
  | .unpaired => 0
  | .syncing => 1
  | .standby => 2
  | .takeover => 3
  | .active => 4
  | .fenced => 5
  | .out => 6

/-- PAIR_QUERY (R425): the role, the term, whether the peer is in service, and the block (log 29). -/
def bodyPairQuery : CcpBody := fun _ s =>
  let w (n : Nat) : List Byte := leBytes n 8
  okBytes s (w s.pair.role.num ++ w s.pair.term ++ w (b2n s.pair.peerIn) ++ leBytes s.pair.block 128)

end Sys2Proof.Machine
end

