-- ==== Sys2Proof/Machine/Attest.lean ====
section
/-! DEFINITION. Attest.lean: attestation over SPDM (09 R267 to R272) in CCP sessions and in the pre-session exchange (17
R449). -/

namespace Sys2Proof.Machine

/-- The slot that neither component runs from (19 R487), where both run from one. -/
def Fw.spareSlot (f : Fw) : Option Nat := if f.mgmtSlot == f.keSlot then some (1 - f.mgmtSlot) else none

/-- Whether the spare slot holds a bootable image that has not run yet. -/
def Fw.staged (f : Fw) : Option Slot :=
  match f.spareSlot with
  | none => none
  | some n => if f.fresh && (f.slot n).state == .bootable then some (f.slot n) else none

/-- The measurement blocks 1 to 7 (Table 9-13). -/
def State.measurements (s : State) : List (List Byte) :=
  let f := s.fw
  let staged : List Byte := match f.staged with
    | some x => 1#8 :: leBytes x.digest 48
    | none => 0#8 :: leBytes 0 48
  [ leBytes f.romHash 48
  , leBytes (f.slot f.runKe).digest 48
  , leBytes (f.slot f.runMgmt).digest 48
  , staged
  , leBytes f.fusedSec 1 ++ leBytes (b2n (f.debugLock && !f.unlocked)) 1 ++ leBytes (2 ^ 40 - s.ten.hssNext) 8
  , leBytes (Config.configDigest f.config).toNat 48
  , leBytes s.ctl.expActive 2 ++ leBytes s.ctl.expStaged 2 ++ leBytes (Config.formatDigest s.str.formats).toNat 48 ]

/-- The next HSS leaf, with its checkpoint in flash and the fuse mark of every 2^28 leaves (R271). -/
def State.takeLeaf (s : State) : Option (Nat × State) :=
  let q := s.ten.hssNext
  if 2 ^ 40 ≤ q then none
  else
    some (q, { s with
      ten.hssNext := q + 1
      ten.hssLimit := if s.ten.hssLimit ≤ q then min (q + 1024) (2 ^ 40) else s.ten.hssLimit
      ten.hssMark := max s.ten.hssMark ((q + 1) / 2 ^ 28) })

/-- Where signing resumes at boot (R271). -/
def State.resumeHss (s : State) (readable : Bool) : State :=
  if readable && s.ten.hssMark * 2 ^ 28 ≤ s.ten.hssLimit then
    { s with ten.hssNext := s.ten.hssLimit, ten.hssMark := max s.ten.hssMark (s.ten.hssLimit / 2 ^ 28) }
  else
    let m := s.ten.hssMark + 1
    { s with ten.hssMark := m, ten.hssNext := min (m * 2 ^ 28) (2 ^ 40), ten.hssLimit := min (m * 2 ^ 28) (2 ^ 40) }

/-- Whether a message is of an SPDM version that the device offers, and names no certificate slot but 0 (R268). GET_VERSION is of
version 1.0; the slot is the low half of the third byte, and in GET_MEASUREMENTS the byte behind the nonce (log 39). -/
def spdmOffered (code : Nat) (msg : List Byte) : Bool :=
  let ver := (msg.getD 0 0#8).toNat
  let slot := if code == 0xE0 then (msg.getD 36 0#8).toNat % 16 else (msg.getD 2 0#8).toNat % 16
  if code == 0x84 then ver == 0x10
  else (ver == 0x12 || ver == 0x13) && ((code != 0x82 && code != 0x83 && code != 0xE0) || slot == 0)

/-- The measurement blocks that a GET_MEASUREMENTS asks for with its fourth byte: how many there are (0), one by its index, or
all of them (log 39). -/
def State.measured (s : State) (op : Nat) : Option (List Byte) :=
  let l := s.measurements
  if op == 0 then some (leBytes l.length 1)
  else if op == 0xFF then some l.flatten
  else l[op - 1]?

/-- What the response to a request holds (R267 to R269): none is an unsupported request. -/
def State.spdmContents (s : State) (code : Nat) (msg : List Byte) : Option (List Byte) :=
  if !spdmOffered code msg then none
  else match code with
  | 0x84 => some [0x12#8, 0x13#8]
  | 0xE1 => some [1#8, 1#8, 2#8]
  | 0xE3 => some [0x80#8, 0#8, 0#8, 0#8, 2#8, 0#8, 0#8, 0#8]
  | 0x81 => some (leBytes (sha384 Config.certChain).toNat 48)
  | 0x82 => some Config.certChain
  | 0x83 => some (leBytes (sha384 Config.certChain).toNat 48 ++ s.measurements.flatten)
  | 0xE0 => s.measured (msg.getD 3 0#8).toNat
  | _ => none

/-- Whether a response carries the two signatures (R270). -/
def spdmSigned (code : Nat) : Bool := code == 0x83 || code == 0xE0

/-- The reply to an SPDM message (R268 to R272). -/
def State.spdmReply (s : State) (msg : List Byte) : Reply × State :=
  let code := ((msg.getD 1 0#8)).toNat
  if s.dev.keRestart then (⟨Status.busyRetry.code, 0x0602, []⟩, s)
  else match s.spdmContents code msg with
    | none => (⟨Status.unsupported.code, 0x0703, Config.spdmError msg⟩, s)
    | some x =>
      let m := Config.spdmFrame msg x
      if !spdmSigned code then (⟨0, 0, m⟩, s)
      else match s.takeLeaf with
        | none => (⟨Status.unsupported.code, 0x0205, []⟩, s)
        | some (q, s) => (⟨0, 0, m ++ ecdsaOf (msg ++ m) ++ hssOf q (leBytes (sha384 (msg ++ m)).toNat 48)⟩, s)

/-- SPDM_MESSAGE in a session (R268). -/
def bodySpdm : CcpBody := fun c s =>
  let r := s.spdmReply (leBytes c.block c.total)
  { s := r.2, reply := some r.1 }

/-- A pre-session command taken from the intake (17 R449, R464): it needs one of mailboxes 0 to 7. -/
def State.preServe (s : State) (port cls cmdId opcode total : Nat) (whole : Bool) (msg : List Byte) : State :=
  let ans (s : State) (mb : Nat) (r : Reply) : State := s.sendResponse port cls 0 opcode cmdId mb r
  let bad (r : Refuse) : State := ans s 0 ⟨r.status.code, r.reason, []⟩
  match s.intakeBars with
  | some r => bad r
  | none =>
    match firstFree (fun n => s.ctl.mailboxes.has n) 0 8 with
    | none => bad (rf .resource 3)
    | some mb =>
      if opcode != 0x0100 then bad rPolicy
      else if !whole || total < 4 then bad ⟨.malformed, 0x0102⟩
      else
        let r := s.spdmReply msg
        ans r.2 mb r.1

end Sys2Proof.Machine
end

