-- ==== Sys2Proof/Machine/Power.lean ====
section
/-! DEFINITION. Power.lean: performance levels, the regulator, the cap, grazing, droop, thermal limits, SL1 and SL2 (15 R402
to R421), and the state of 01 R26. -/

namespace Sys2Proof.Machine

/-! The R26 state. -/

/-- The device halts (01 R26, 15 R419, 20 R500): ports down, nothing issued to stations, stacks in self-refresh. -/
def State.halt (s : State) (cause : Nat) : State :=
  if s.dev.halt.isSome then s
  else
    let s := { s with dev.halt := some cause }.recOp 0x0003 0 0 0 cause
    let s := (s.ports.filter fun p => p.2.st != .dark && p.2.st != .down).foldl (fun s p => s.portDown p.1 0) s
    { s with stk.units := s.stk.units.each fun _ k => if k.selfRef == .none then { k with selfRef := .entering } else k }

/-! Levels (R402 to R405). -/

/-- Nominal core voltage of a level in millivolts (Table 15-1). -/
def nominal (level : Nat) : Nat := [780, 700, 620, 560, 520].getD level 520

/-- Fused voltage of a level: at most 40 mV below the nominal one (R402). -/
def voltOf (level : Nat) : Nat := nominal level - Config.fusedDrop level % 41

/-- The curve entry of a level (Table 15-2). -/
def curveEntry (level : Nat) : Nat := [1750, 1500, 1200, 800, 400].getD level 400 * 65536 + voltOf level

/-- The level that `pl_max`, the thermal limits and droop allow (R403). -/
def State.wantLevel (s : State) : Nat := min 4 (max s.pwr.plMax (max s.pwr.thermal s.pwr.droopLvl))

/-- A voltage write leaves (R405). -/
def State.writeVolt (s : State) (c : LevelChange) : State :=
  { s with pwr.change := some { c with written := true, tries := c.tries + 1 } }.emit (.voltage (voltOf c.target))

/-- A change toward the level in demand starts where none runs (R404, Table 15-3). -/
def State.relevel (s : State) : State :=
  let want := s.wantLevel
  if s.pwr.change.isSome || s.dev.phase != .running || s.dev.halt.isSome then s
  else if s.pwr.level < want then { s with pwr.change := some { target := want } }
  else if s.pwr.fault then s
  else if want < s.pwr.level then s.writeVolt { target := want }
  else if s.pwr.held != voltOf s.pwr.level then s.writeVolt { target := want, locked := true }
  else s

/-- A change ends, and the next one may start. -/
def State.levelDone (s : State) : State := { s with pwr.change := none }.relevel

/-- A raise whose voltage stands and whose PLLs are locked switches the fields, unless the demand has changed. -/
def State.raise (s : State) (c : LevelChange) : State :=
  if c.acked && c.locked then
    if s.wantLevel == c.target then { s with pwr.level := c.target }.levelDone else s.levelDone
  else { s with pwr.change := some c }

/-- PLL_LOCK: the idle PLLs are locked. A lowering switches now and then writes its voltage (Table 15-3 steps 2 to 5). -/
def State.pllLock (s : State) : State :=
  match s.pwr.change with
  | none => s
  | some c =>
    if c.locked then s
    else if s.pwr.level < c.target then
      let s := { s with pwr.level := c.target }
      if s.pwr.fault then s.levelDone else s.writeVolt { c with locked := true }
    else s.raise { c with locked := true }

/-- REGULATOR_VDONE: the voltage write is acknowledged (R405). -/
def State.vdone (s : State) : State :=
  match s.pwr.change with
  | none => s
  | some c =>
    if !c.written then s
    else
      let s := { s with pwr.held := voltOf c.target }
      if s.pwr.level == c.target then s.levelDone else s.raise { c with written := false, acked := true }

/-- REGULATOR_ACK_TIMEOUT: the write is repeated, or the regulator is at fault (R405). -/
def State.ackTimeout (s : State) : State :=
  match s.pwr.change with
  | none => s
  | some c =>
    if !c.written then s
    else if c.tries < 3 then s.writeVolt c
    else ({ s with pwr.fault := true, pwr.change := none }.recOp 0x0701 12 0 s.pwr.held (voltOf c.target)).relevel

/-! The block in force (Table 15-4). -/

def pbCap (b : Nat) : Nat := orDefault (bits b 127 117) 1400
def pbFloorC (b : Nat) : Nat := orDefault (bits b 116 107) 100
def pbFloorM (b : Nat) : Nat := orDefault (bits b 106 97) 160
def pbFloorL (b : Nat) : Nat := orDefault (bits b 96 87) 120
def pbSlope (b : Nat) : Nat := orDefault (bits b 86 79) 64
def pbPct (b : Nat) : Nat := orDefault (bits b 78 72) 40
def pbGrazeOff (b : Nat) : Bool := bit b 71
def pbIsoIssue (b : Nat) : Nat := orDefault (bits b 70 64) 64
def pbIsoMem (b : Nat) : Nat := orDefault (bits b 63 57) 64

/-- The domains in priority order: 0 links, 1 memory, 2 compute (Table 15-5). -/
def pbOrder (b : Nat) : List Nat :=
  [[0, 1, 2], [0, 2, 1], [1, 0, 2], [1, 2, 0], [2, 0, 1], [2, 1, 0]].getD (bits b 56 54) [0, 1, 2]

/-- The floors of links, memory and compute in milliwatts. -/
def pbFloors (b : Nat) : List Nat := [1000 * pbFloorL b, 1000 * pbFloorM b, 1000 * pbFloorC b]

/-- POWER_SET (R409). -/
def bodyPowerSet : CcpBody := fun c s =>
  let b := c.block
  let cap := bits b 127 117
  checked s
    [ ((cap != 0 && (cap < 600 || 1400 < cap)) || 100 < bits b 78 72 || 64 < bits b 70 64 || 64 < bits b 63 57 ||
        5 < bits b 56 54 || 4 < bits b 53 51, rRange),
      (pbCap b < pbFloorC b + pbFloorM b + pbFloorL b + 80, rf .range 5) ]
    (let s := { s with pwr.next := some b, pwr.plMax := bits b 53 51, pwr.droopLvl := 0, pwr.persisted := false, pwr.fault := false }
     okEmpty ((s.sendMeta (.power b)).relevel))

/-! The period of 10 µs (R406 to R415). -/

/-- The least of 1..64 on which an estimate still fits, going down (R411, log 37). -/
def largestFit (fits : Nat → Bool) : Nat → Nat
  | 0 => 1
  | n + 1 => if fits (n + 1) then n + 1 else largestFit fits n

/-- The division of the cap (R410). -/
def divide (order : List Nat) (floors demand : List Nat) (left : Nat) : List Nat :=
  (order.foldl (fun (x : List Nat × Nat) d =>
    let f := floors.getD d 0
    let g := min (demand.getD d 0 - f) x.2
    (listSet x.1 d (f + g), x.2 - g)) (floors, left)).1

/-- What a diverged rail adds to its estimate (R408): its measured power where that is larger, and 3 % of the cap. -/
def railExtra (cap : Nat) (r : Rail) (est : Nat) : Nat := if r.frozen then (r.m - r.k * est / 65536) + cap * 3 / 100 else 0

/-- The compute estimate at an issue rate of n/64 (log 37). -/
def computeAt (m : PowerSample) (n : Nat) : Nat := m.idle + (m.demand.getD 2 0 - m.idle) * n / 64

/-- POWER_PERIOD. -/
def State.powerPeriod (s : State) (m : PowerSample) : State :=
  let b := s.pwr.next.getD s.pwr.block
  let cap := 1000 * pbCap b
  let floors := pbFloors b
  let sum := sumOf floors
  let rails := s.pwr.rails.zipIdx.map fun x =>
    let e := m.rails.getD x.2 0
    (x.1.1, { x.1.2 with ests := (e :: x.1.2.ests).take 100 })
  let fixed := m.fixed + sumOf (rails.zipIdx.map fun x => railExtra cap x.1.2 (m.rails.getD x.2 0))
  let s := { s with pwr.block := b, pwr.next := none, pwr.rails := rails, pwr.ests := m.estimate ++ [m.fixed] }
  let held := fixed + m.iso + m.estimate.getD 0 0 + m.estimate.getD 1 0
  let iso := !s.sch.iso.isEmpty
  let short := iso && cap < held + computeAt m 1
  let s := if short then
      let s := { s with pwr.isoShorts := s.pwr.isoShorts + 1 }.recOp 0x0705 0 0 0 0
      s.sch.iso.foldl (fun s t => s.recTen t.1 0x0705 0 0 0 0) s
    else s
  let above := (!iso || short) && cap < fixed + sum
  let s := if above then s.recOp 0x0706 0 0 (fixed / 1000) (pbCap b) else s
  let budgets :=
    if iso && !short then [m.estimate.getD 0 0, m.estimate.getD 1 0, cap - held]
    else if above then listSet floors 2 (floors.getD 2 0 - (fixed + sum - cap))
    else divide (pbOrder b) floors m.demand (cap - fixed - sum)
  let excess := m.estimate.getD 0 0 - budgets.getD 0 0
  let giver := ((pbOrder b).reverse.find? fun d => d != 0 && floors.getD d 0 < budgets.getD d 0)
  let budgets := match giver with
    | some d => listSet budgets d (max (floors.getD d 0) (budgets.getD d 0 - excess))
    | none => budgets
  let issue := largestFit (fun n => computeAt m n ≤ budgets.getD 2 0) 64
  let rate := if iso && !short then pbIsoMem b else largestFit (fun n => m.demand.getD 1 0 * n / 64 ≤ budgets.getD 1 0) 64
  let e := m.estimate.getD 2 0
  let compute := (e :: s.pwr.compute).take 10
  let mean := sumOf compute / compute.length
  let floor := if pbGrazeOff b then 0 else min (budgets.getD 2 0) (max (pbPct b * mean / 100) (e - 1000 * pbSlope b))
  let grazes := m.idle ≤ floor && computeAt m issue < floor
  { s with
    pwr.budgets := budgets, pwr.issue := issue, pwr.rate := rate, pwr.compute := compute, pwr.floor := floor, pwr.isoShort := short
    pwr.grazes := if grazes then s.pwr.grazes + 1 else s.pwr.grazes }

/-! Links (R412). -/

/-- UP ports in the order of their flits of the last millisecond, fewest first. -/
def State.byFlits (s : State) : List Nat :=
  ((s.ports.filter fun p => p.2.st == .up).mergeSort fun a b => a.2.flitsMs < b.2.flitsMs || (a.2.flitsMs == b.2.flitsMs && a.1 ≤ b.1)).map (·.1)

/-- LINK_POWER_DECISION: wavelengths are taken from, or given to, as many ports as the budget asks for; each is taken to
draw an equal part of the estimate (log 37). -/
def State.linkDecision (s : State) (estimate : Nat) : State :=
  let budget := s.pwr.budgets.getD 0 0
  let l := s.byFlits
  let total := sumOf (l.map fun p => (s.port p).w)
  let s' := { s with ports := s.ports.each fun _ q => { q with flitsMs := 0 } }
  if !s.sch.iso.isEmpty || estimate == 0 then s'
  else if budget < estimate then
    let n := ceilDiv ((estimate - budget) * total) estimate
    ((l.filter fun p => 1 < (s.port p).w).take n).foldl (fun s p => s.retrain p ((s.port p).w - 1) false) s'
  else
    let n := (budget - estimate) * total / estimate
    let may (p : Nat) : Bool :=
      let q := s.port p
      q.w < reachW q.mode q.wMax q.tNs (q.ackTimer * 10)
    ((l.reverse.filter may).take n).foldl (fun s p => s.retrain p ((s.port p).w + 1) false) s'

/-! Telemetry (R407, R408). -/

/-- The next scale of a rail. -/
def nextScale (k m a : Nat) : Nat :=
  if a == 0 then k
  else
    let d : Int := ((m * 65536 / a : Nat) : Int) - (k : Int)
    min 81920 (max 49152 ((k : Int) + d / 64).toNat)

/-- A reading of a rail; none where the read has failed. -/
def State.railRead (s : State) (i : Nat) (mw : Option Nat) : State :=
  match s.pwr.rails.find i with
  | none => s
  | some r =>
    let a := if r.ests.isEmpty then 0 else sumOf r.ests / r.ests.length
    let m := mw.getD r.m
    let est := r.k * a / 65536
    let d := if m < est then est - m else m - est
    let far := mw.isNone || m * 15 < d * 100
    let near := mw.isSome && d * 100 < m * 10
    let disagree := if far then r.disagree + 1 else 0
    let agree := if r.frozen && near then r.agree + 1 else 0
    let r := { r with m, disagree, agree, k := if r.frozen || mw.isNone then r.k else nextScale r.k m a }
    if !r.frozen && 100 ≤ disagree then
      { s with pwr.rails := s.pwr.rails.put i { r with frozen := true, agree := 0 } }.recOp 0x0702 12 i (m / 1000) 1
    else if r.frozen && 100 ≤ agree then
      { s with pwr.rails := s.pwr.rails.put i { r with frozen := false, disagree := 0 } }.recOp 0x0702 12 i (m / 1000) 0
    else { s with pwr.rails := s.pwr.rails.put i r }

/-- PMBUS_TELEMETRY. -/
def State.telemetry (s : State) (l : List (Option Nat)) : State :=
  l.zipIdx.foldl (fun s x => s.railRead x.2 x.1) s

/-! Droop and ceilings (R416, R417). -/

/-- The cap controller's rate of a station (R411, R414). -/
def State.capRate (s : State) (n : Nat) : Nat :=
  if s.sch.dedicated.has n && !s.pwr.isoShort then pbIsoIssue s.pwr.block else s.pwr.issue

/-- STATION_CEILING_UPDATE. -/
def State.ceilingUpdate (s : State) (n used : Nat) : State :=
  let c := min (s.capRate n) (min 64 (ceilDiv used 8 * 8 + 8))
  s.modStation n fun x => { x with ceiling := if s.pwr.clamp == 0 then c else min 16 c }

/-- DROOP_TRIP. -/
def State.droopTrip (s : State) (f : Nat) : State :=
  let s := { s with pwr.clamp := setBit s.pwr.clamp f true, pwr.droops := s.pwr.droops + 1, pwr.window := s.pwr.window + 1 }
  (List.range 144).foldl (fun s n => s.modStation n fun x => { x with ceiling := min 16 x.ceiling }) s

/-- DROOP_CLAMP_LIFT. -/
def State.clampLift (s : State) : State := { s with pwr.clamp := 0 }

/-- DROOP_WINDOW_END. -/
def State.droopWindow (s : State) : State :=
  let n := s.pwr.window
  let s := { s with pwr.window := 0 }
  if n ≤ 8 then s
  else
    let s := { s with pwr.droopLvl := min 4 (s.pwr.level + 1), pwr.persisted := true }
    (s.recAll 0x0703 0 0 0 s.wantLevel 0 0 0 s.wantLevel).relevel

/-! Thermal limits (R418, R419). -/

/-- The limit of a level (Table 15-6). -/
def State.levelLimit (s : State) (level : Nat) : Int := ((bits s.fw.thermal (8 * level + 15) (8 * level + 8) : Nat) : Int)

/-- The fastest level that a reading allows. -/
def State.allowed (s : State) (celsius : Int) : Nat := ((List.range 4).find? fun p => celsius ≤ s.levelLimit p).getD 4

/-- The consecutive readings of each level that are at least 3 °C below its limit, after one more; ten are enough. -/
def State.coolNext (s : State) (celsius : Int) : List Nat :=
  (List.range 4).map fun p => if celsius ≤ s.levelLimit p - 3 then min 10 (s.pwr.coolReads.getD p 0 + 1) else 0

/-- The fastest level that has returned: it and every level down to the present limit have had their ten readings. -/
def State.coolLevel (s : State) : Nat :=
  ((List.range s.pwr.thermal).find? fun p =>
    (List.range s.pwr.thermal).all fun j => j < p || 10 ≤ s.pwr.coolReads.getD j 0).getD s.pwr.thermal

/-- A change of the thermal limit, with its event. -/
def State.setThermal (s : State) (level : Nat) (celsius : Int) : State :=
  let s := { s with pwr.thermal := level, pwr.thermals := if s.pwr.thermal < level then s.pwr.thermals + 1 else s.pwr.thermals }
  let t := unsigned celsius 64
  (s.recAll 0x0704 0 0 t s.wantLevel 0 0 t s.wantLevel).relevel

/-- THERMAL_READING. -/
def State.thermalReading (s : State) (celsius : Int) : State :=
  if (bits s.fw.thermal 63 56 : Nat) < celsius then s.halt 1
  else
    let a := s.allowed celsius
    let s := { s with pwr.coolReads := s.coolNext celsius }
    if s.pwr.thermal < a then s.setThermal a celsius
    else if s.coolLevel < s.pwr.thermal then s.setThermal s.coolLevel celsius
    else s

/-! SL1 and SL2 (R420, R421). -/

/-- STATION_SL1_IDLE. -/
def State.sl1Idle (s : State) (n : Nat) : State :=
  let x := s.station n
  if bit s.pwr.sleepSet 0 || !s.inService n || x.granted.isSome || x.run.isSome || x.sl1 then s
  else
    let s := s.modStation n fun x => { x with sl1 := true, waking := !x.work.isEmpty }
    let f := n / 9
    if (List.range 9).all fun i => !s.inService (9 * f + i) || (s.station (9 * f + i)).sl1 then
      { s with stn.fieldIdle := s.stn.fieldIdle.put f s.dev.tick }
    else s

/-- FIELD_SL2_IDLE: one millisecond is 1,562.5 ticks. -/
def State.sl2Idle (s : State) (f : Nat) : State :=
  let all := (List.range 9).all fun i => !s.inService (9 * f + i) || ((s.station (9 * f + i)).sl1 && !(s.station (9 * f + i)).waking)
  let due := (s.stn.fieldIdle.find f).any fun t => 2 * t + 3125 * orDefault (bits s.pwr.sleepSet 31 24) 1 ≤ 2 * s.dev.tick
  if bit s.pwr.sleepSet 1 || s.pwr.clamp != 0 || bit s.stn.sl2 f || !all || !due then s
  else { s with stn.sl2 := setBit s.stn.sl2 f true }

/-- A station is ready again (R421). -/
def State.stationReady (s : State) (n : Nat) : State :=
  (s.modStation n fun x => { x with sl1 := false, waking := false }).later [.arbitrate n] |>.releaseAtomics n

/-- DOMAIN_WAKE_READY for a station or a field. -/
def State.wakeStation (s : State) (n : Nat) : State :=
  let x := s.station n
  if x.sl1 && x.waking && !bit s.stn.sl2 (n / 9) then { s.stationReady n with stn.fieldIdle := s.stn.fieldIdle.del (n / 9) } else s

def State.wakeField (s : State) (f : Nat) : State :=
  if bit s.stn.sl2 f && bit s.stn.waking f then
    let s := { s with stn.sl2 := setBit s.stn.sl2 f false, stn.waking := setBit s.stn.waking f false, stn.fieldIdle := s.stn.fieldIdle.del f }
    (List.range 9).foldl (fun s i => s.stationReady (9 * f + i)) s
  else s

/-! Commands. -/

/-- SLEEP_SET (R422); its block is the unit's own (log 202). -/
def bodySleepSet : CcpBody := fun c s => okEmpty { s with pwr.sleepSet := c.block }

/-- POWER_QUERY, in the order of its list: each number a 64-bit word (log 29). -/
def bodyPowerQuery : CcpBody := fun _ s =>
  let w (l : List Nat) : List Byte := l.flatMap fun n => leBytes n 8
  let b := s.pwr.block
  okBytes s (w ([s.pwr.level, s.pwr.plMax, b2n s.pwr.fault, pbCap b] ++ s.pwr.budgets ++ [s.pwr.ests.getD 3 0] ++ s.pwr.ests.take 3 ++
    (s.pwr.rails.flatMap fun r => [r.2.k, r.2.m, b2n r.2.frozen]) ++ [s.pwr.issue] ++ ((List.range 16).map s.stackRate) ++
    ((List.range 64).map fun p => (s.port p).w) ++ [s.pwr.droops, s.pwr.thermals, s.pwr.grazes, s.pwr.isoShorts]))

end Sys2Proof.Machine
end

