-- ==== Sys2Proof/Machine/PairIn.lean ====
section
/-! DEFINITION. PairIn.lean: pair requests that arrive (16 R432, R433, R440), and the completions of the requests this
device issued (13 R353). -/

namespace Sys2Proof.Machine

/-! Records (R433). -/

/-- The context of a block that a record carries: the operator's, or the tenant's that a profile belongs to. -/
def recordCtx (block : Nat) (tenant : Option Nat) : CcpCtx :=
  { sid := 0, cmdId := 0, block, total := 0
    sess := { ver := 3, role := if tenant.isSome then .tenant else .operator, tenant := tenant.getD 0, port := 0 } }

/-- A block that a record carries takes effect as its command does. -/
def State.applyBlock (s : State) (body : CcpBody) (block : Nat) (tenant : Option Nat := none) : State :=
  (body (recordCtx block tenant) s).s

/-- An extent's granules are zeroed and FREE, and it goes (R433). -/
def State.dropCopy (s : State) (n : Nat) : State :=
  match s.pool.extents.find n with
  | none => s
  | some e => (e.grans.foldl (fun s g => (s.zeroGran g).setGran g { st := .free }) s).delExtent n

/-- Whether a unit can place the granules of an extent (06 R158). -/
def State.canPlace (s : State) (e : Extent) : Bool := extCount e ≤ s.freeIn (bits e.desc 143 128)

/-- The record of an extent (R433, R435): a mirrored one that is ENABLED is placed here; false where it cannot be. -/
def State.recordExtent (s : State) (n t desc st version : Nat) : Bool × State :=
  let old := s.pool.extents.find n
  let e : Extent := match old with
    | some e => { e with tenant := t, desc }
    | none => { tenant := t, desc }
  let here := (s.tenantOf t).any (·.sess == .opened)
  if st == 1 then (true, s.putExtent n { e with state := .disabled })
  else if st == 3 then (true, s.putExtent n { e with state := .revoking })
  else
    let s := if extVersioned e && old.any (·.state == .enabled) then s.settleDraft n (e.current != version) else s
    if !bit desc 8 || !here || !e.grans.isEmpty then (true, s.putExtent n { e with state := .enabled, current := version })
    else if s.canPlace e then (true, s.enableExtent n e version)
    else (false, s)

/-- The mapping that a block of EXTENT_MAP describes (08 Table 8-2). -/
def mappingOf (b : Nat) : Mapping :=
  { asid := bits b 35 24, vaBase := bits b 127 80, first := bits b 59 40, count := bits b 79 60, pageSize := bits b 17 16,
    extent := bits b 15 0 }

def winStOf (n : Nat) : WinSt :=
  if n == 1 then .disabled else if n == 2 then .opened else if n == 3 then .closed else .retired

/-- Whether an extent has its granules here. -/
def State.hasCopy (s : State) (e : Nat) : Bool := (s.pool.extents.find e).any fun v => !v.grans.isEmpty

/-- A metadata record takes effect (R433): its contents are absolute. False: the unit has no room for it. -/
def State.applyRecord (s : State) (r : PairRec) : Bool × State :=
  let ok (s : State) : Bool × State := (true, s)
  match r with
  | .tenant n h => ok (s.putTenant n { s.ten.tenants.findD n { keyHash := h } with keyHash := h })
  | .noTenant n => ok (s.forgetTenant n)
  | .reserve t n => ok (match s.tenantOf t with
    | some x => s.putTenant t { x with reserve := n }
    | none => s)
  | .space a t b => ok (if s.pool.spaces.has a then s else s.putSpace a { tenant := t, desc := b })
  | .noSpace a => ok { s.delSpace a with pool.maps := s.pool.maps.filter (·.asid != a) }
  | .mapping _ b =>
    let m := mappingOf b
    let others := s.pool.maps.filter fun x => !(x.asid == m.asid && x.vaBase == m.vaBase)
    ok { s with pool.maps := others ++ [m] }
  | .unmap b =>
    let m := mappingOf b
    ok { s with pool.maps := s.pool.maps.filter fun x => !(x.asid == m.asid && x.vaBase == m.vaBase) }
  | .extent n t b st v => s.recordExtent n t b st v
  | .noExtent n => ok (s.dropCopy n)
  | .window n t b st o => ok (s.putWindow n { tenant := t, desc := b, state := winStOf st, outcome := o })
  | .noWindow n => ok (s.delWindow n)
  | .context n t b st f sc =>
    ok (s.putContext n { tenant := t, desc := b, enabled := st == 2, frontiers := f, scales := sc })
  | .noContext n => ok (s.delContext n)
  | .common n t b st => ok (s.putCommon n { tenant := t, desc := b, state := if st == 1 then .disabled else .enabled })
  | .noCommon n => ok (s.delCommon n)
  | .lineOwned c l =>
    ok (s.putDir (2 ^ 28 * c + l) { st := .exclusive, tenant := ((s.com.commons.find c).map (·.tenant)).getD 0, set := 0, way := 0, order := 0 })
  | .lineClean c l lost =>
    let h := 2 ^ 28 * c + l
    let s := s.delDir h
    ok (if lost && s.com.commons.has c && s.hasCopy (s.lineExt h) then s.markLost (s.lineSector h) else s)
  | .checkout e p n g recalling =>
    let s := { s with pool.past := s.pool.past.del (e * 2 ^ 25 + p) }
    ok (s.putCheckout (e * 2 ^ 25 + p) { node := n, gen := g, recalling })
  | .checkin e p n g reverted =>
    let was := s.pool.checkouts.has (e * 2 ^ 25 + p)
    let s := s.delCheckout (e * 2 ^ 25 + p)
    let s := { s with pool.past := s.pool.past.put (e * 2 ^ 25 + p) ⟨n, g, reverted⟩ }
    ok (if reverted && was && s.hasCopy e then
        match s.pool.extents.find e with
        | some v => (s.revertPage (s.framePage e p none)).putExtent e { v with lostPages := sat32 v.lostPages 1 }
        | none => s
      else s)
  | .node n g l => ok (s.putNodeRec n { s.nodeRec n with gen := g, loss := l })
  | .devSet t n l =>
    let k := t * 65536 + n
    ok { s with ten.sets := if l.isEmpty then s.ten.sets.del k else s.ten.sets.put k l }
  | .sched b => ok (s.applyBlock bodySchedSet b)
  | .police b => ok (s.applyBlock bodyPoliceSet b (if bit b 16 then some (bits b 15 0) else none))
  | .arb b => ok (s.applyBlock bodyArbSet b)
  | .isolate b => ok (s.applyBlock bodyIsolateSet b)
  | .cadence b => ok (s.applyBlock bodyCadenceSet b)
  | .power b => ok (s.applyBlock bodyPowerSet b)
  | .cache c => ok (s.putRecord c)
  | .synced t => ok { s with pair.stale := s.pair.stale.filter (· != t) }

/-! Requests (R432). -/

/-- What a pair request carries beside its term. -/
inductive PairMsg where
  | mirror (m : MirrorMsg)
  | metaRec (r : PairRec)
  | beat (info : PeerInfo)
  | fetch (extent offset : Nat)
  | copy (extent offset : Nat) (data : List Byte)
  | fence
  deriving DecidableEq, Repr

/-- What the payload of a pair opcode carries, which is internal to the pair (log 24). -/
def pairMsgOf (op : Nat) (b : List Byte) : Option (Nat × PairMsg) :=
  let place := Config.pairPlace b
  let m : Option PairMsg := match op with
    | 0x70 => (Config.pairMirror b).map PairMsg.mirror
    | 0x71 => (Config.pairMeta b).map PairMsg.metaRec
    | 0x72 => (Config.pairInfo b).map PairMsg.beat
    | 0x73 => some (.fetch place.1 place.2.1)
    | 0x74 => some (.copy place.1 place.2.1 place.2.2)
    | 0x75 => some .fence
    | _ => none
  m.map fun x => (Config.pairTerm b, x)

/-- Whether this unit takes the contents of another as its own. -/
def State.copies (s : State) : Bool := s.pair.role == .standby || s.pair.role == .syncing

/-- An extent whose granules are not placed here gets them with its first copied sector (R435, R440). -/
def State.placeForCopy (s : State) (ext : Nat) : State :=
  match s.pool.extents.find ext with
  | some e =>
    if e.state == .enabled && bit e.desc 8 && e.grans.isEmpty && s.canPlace e then s.enableExtent ext e e.current else s
  | none => s

/-- A pair request of the unit's peer takes effect; it is answered by none where the unit does not acknowledge (R428), and with
FAILOVER in a role that takes no copies (log 183). -/
def State.pairDo (s : State) (msg : PairMsg) : Option (Status × List Byte) × State :=
  let ok (s : State) : Option (Status × List Byte) × State := (some (.ok, []), s)
  match msg with
  | .mirror m =>
    if !s.copies then (some (.failover, []), s)
    else if s.pair.noAck then (none, { s with pair.received := s.pair.received ++ [m] })
    else ok (s.applyMirror m)
  | .metaRec r =>
    if !s.copies then (some (.failover, []), s)
    else match s.applyRecord r with
      | (true, s) => ok s
      | (false, s) => (some (.busyRetry, []), s)
  | .beat i => ok (s.beatFrom i)
  | .fetch e off =>
    if s.pair.role != .standby then (some (.failover, []), s)
    else if !(s.pool.extents.find e).any fun x => off < x.grans.length * 2097152 then (some (.faultRange, []), s)
    else
      let r := s.readSector (s.framePage e (off / 65536) none * 256 + off % 65536 / 256)
      (some (r.1, r.2.1), r.2.2)
  | .copy e off d => if !s.copies then (some (.failover, []), s) else ok ((s.placeForCopy e).putCopy e off d)
  | .fence => ok (if s.pair.role == .standby then s.standbyClaims else s)

/-- A unit fenced for a planned handover hears that its peer is ACTIVE (19 R491). -/
def State.heardTaken (s : State) (m : PairMsg) : State :=
  match m with
  | .beat i => if s.pair.handover && i.active then { s with pair.peerTook := true } else s
  | _ => s

/-- A pair or lease opcode arrives at its destination (R432): rows 1, 2 and 4 of 13 Table 13-5; the port and the node; the
term; the role. -/
def State.pairIn (s : State) (op : Nat) (p : Packet) (msg : Option (Nat × PairMsg)) : State :=
  let r : Req := { opcode := op, p }
  let gen := (s.nodeRec p.src).gen
  if gen.any fun g => 8 ≤ (p.ngen + 16 - g) % 16 then { s with fab.late := s.fab.late + 1 }.countDev 6
  else if headerBad op p then s.answer r .malformed
  else if !isPairOp op || p.hdrVer == 2 then s.answer r .unsupported
  else if p.src != s.peerNode || !s.isPairPort p.port then (s.countDev 11).answer r .denied
  else match msg with
    | none => s.answer r .malformed
    | some (term, m) =>
      if term < s.pair.term then s.answer r .denied
      else if s.pair.role == .fenced then (s.heardTaken m).answer r .failover
      else
        let follows := s.copies || s.pair.role == .out
        let s := { s with pair.lastRx := s.dev.tick, pair.term := if follows then term else s.pair.term }
        let x := s.pairDo m
        match x.1 with
        | some (st, b) => x.2.answer r st b
        | none => x.2

/-! Completions of the requests this device issued (13 R353). -/

/-- A mirror copy has come within its 64 ticks, or has failed to come, for an uncorrectable sector (11 R302). -/
def State.mirrorCopy (s : State) (n : Nat) (data : Option (List Byte)) : State :=
  match s.pool.fetches.find n with
  | none => s
  | some f =>
    let data := if f.due < s.dev.tick then none else data
    let s := { s with pool.fetches := s.pool.fetches.del n }
    let s := if s.secCond n [] [] != .unc then s
      else match data with
        | some d =>
          let lost := (s.secMeta n).lost
          let s := (s.writeSector n 0 (padTo d 256) false).2
          (s.setSecMeta n { s.secMeta n with lost }).countFixed n []
        | none => s.loseSector n
    let l : List Todo := f.waiting.map Todo.run
    let stalled := (s.com.trans.keysWhere (·.stalled)).map Todo.line
    s.later (l ++ stalled)

/-- MIRROR_FETCH_TIMEOUT: no copy within 64 slow ticks (11 R302). -/
def State.fetchTimeout (s : State) (n : Nat) : State :=
  match s.pool.fetches.find n with
  | some f => if f.due ≤ s.dev.tick then s.mirrorCopy n none else s
  | none => s

/-- A renewal that names the peer out of service, where none is on its way (R434). -/
def State.askOut (s : State) : State :=
  let asked := s.fab.issued.any fun x => match x.2.what with
    | .renew _ true _ => true
    | _ => false
  if s.mirrors && !asked then s.renew true false else s

/-- What follows from a completion, with its payload (13 R353, R358; 16 R428, R434). -/
def State.issuedDone (s : State) (tag : Nat) (what : IssuedFor) (st : Nat) (payload : List Byte) : State :=
  let denied := st == Status.denied.code && s.pair.role == .active
  let lost := st == Status.linkLost.code
  match what with
  | .snoop h _ =>
    match (s.com.trans.find h).bind fun t => t.snoops.find? fun x => x.tag == tag with
    | some x => s.snoopAnswer h x .lost false
    | none => s
  | .recall _ _ => s
  | .mirror => if denied then s.fenceUnit else if st == 0 then s.mirrorAck tag else s
  | .metaRec =>
    if denied then s.fenceUnit
    else if st == 0 then s.mirrorAck tag
    else if lost then s.askOut
    else s
  | .beat =>
    if denied then s.fenceUnit
    else if st == 0 then match Config.pairInfo payload with
      | some i => s.peerSays i
      | none => s
    else s
  | .fetch stack sector =>
    if denied then s.fenceUnit
    else s.mirrorCopy (stack * (36864 * 8192) + sector) (if st == 0 || st == Status.okLostUpdate.code then some payload else none)
  | .copy _ _ => if denied then s.fenceUnit else s.copyGo
  | .fence => s
  | .renew sent out back => s.renewDone sent out back st
  | .claim sent => s.claimDone sent st 0 0
  | .place e cmd => if denied then s.fenceUnit.respondBad cmd .failover else s.placedThere e cmd st

/-- A request of this device is lost: its completion is LINK_LOST (12 R344, 13 R358, R367). -/
def State.issuedLost (s : State) (tag : Nat) : State :=
  match s.fab.issued.find tag with
  | none => s
  | some i => ((s.delIssued tag).issuedDone tag i.what Status.linkLost.code []).nodeLost i.dst

/-- The request a completion answers, where the device takes it (13 R353). -/
def State.answered (s : State) (p : Packet) : Option Issued :=
  (s.fab.issued.find p.tag).filter fun i => i.tgen == p.tgen && i.dst == p.src && p.ngen == s.fab.ngen

/-- COMPLETION (13 R353, R358). A snoop is answered by its responses, and by a completion only when the link has lost it
(07 R190). -/
def State.completionIn (s : State) (p : Packet) : State :=
  let s := if p.synthetic then s else s.heard p.src
  let lost := p.status == Status.linkLost.code
  match s.answered p with
  | none => s.countDev 10
  | some i =>
    let isSnoop := match i.what with
      | .snoop _ _ => true
      | _ => false
    if isSnoop && !lost then s.countDev 10
    else if lost then s.issuedLost p.tag
    else (s.delIssued p.tag).issuedDone p.tag i.what p.status p.payload

/-- A completion from the witness, with the verdict on its signature (16 R429). A LINK_LOST is made by the fabric and is
not signed. -/
def State.leaseIn (s : State) (p : Packet) (sigOk : Bool) : State :=
  match s.answered p with
  | none => s.countDev 10
  | some i =>
    if p.status == Status.linkLost.code then s.issuedLost p.tag
    else if !sigOk || bits (leNat (p.payload.take 16)) 63 48 != pairId s then s.countDev 11
    else
      let s := (s.heard p.src).delIssued p.tag
      let o := leNat (p.payload.take 16)
      match i.what with
      | .renew sent out back => s.renewDone sent out back p.status
      | .claim sent => s.claimDone sent p.status (bits o 127 96) (bits o 95 64)
      | _ => s

/-- Whether a completion answers a request to the witness. -/
def State.isLease (s : State) (p : Packet) : Bool :=
  (s.fab.issued.find p.tag).any fun i => match i.what with
    | .renew _ _ _ => true
    | .claim _ => true
    | _ => false

end Sys2Proof.Machine
end

