-- ==== Sys2Proof/Machine/Firmware.lean ====
section
/-! DEFINITION. Firmware.lean: staging, activation and trial of images (19 R485 to R493), the device configuration (R494) and
DEBUG_UNLOCK (R495, 09 R236). -/

namespace Sys2Proof.Machine

/-! Slots. -/

/-- A slot changes, and a slot control record is written (R485). -/
def State.setSlot (s : State) (n : Nat) (x : Slot) : State :=
  (if n == 0 then { s with fw.slotA := x } else { s with fw.slotB := x }).writeSlots

def SlotState.num : SlotState → Nat
  | .empty => 0
  | .staging => 1
  | .bootable => 2
  | .failed => 3

/-! Staging (R487 to R489). -/

/-- FW_STAGE. -/
def bodyFwStage : CcpBody := fun c s =>
  let b := c.block
  let ch := bits b 20 16
  let card := !bit b 8
  let busy := s.fw.trial.isSome || s.fw.staging.isSome || s.fw.activate.isSome
  let go (s : State) (target : Nat) : CcpOut :=
    let s := s.setSlot target { s.fw.slot target with state := .staging }
    let st : Stage := { channel := if card then none else some ch, cmd := some c.ref, target, due := s.dev.tick + 1875000000 }
    heldCmd { s with fw.staging := some st, fw.fresh := false }
  match s.fw.spareSlot with
  | none => refuse s rState
  | some target =>
    if card && ch != 0 then refuse s rRange
    else if busy then refuse s rBusy
    else if card then
      if s.fw.cardIn && s.fw.cardFile then go s target else refuse s (rf .dependency 1)
    else match s.ctl.bulk.find ch with
      | none => refuse s rNoObject
      | some k =>
        if k.session != c.sid then refuse s rNoObject
        else if k.consumer.isSome then refuse s rBusy
        else go (s.putBulk ch { k with consumer := some .stage, buffer := [] }) target

/-- A stage ends: its slot takes a state and its command completes; the channel it read closes with it (R488, 17 R457). -/
def State.stageEnd (s : State) (st : Stage) (x : Slot) (r : Reply) : State :=
  let s := ({ s with fw.staging := none }).setSlot st.target x
  let s := match st.channel with
    | some ch => { s with ctl.bulk := s.ctl.bulk.keep fun k b => !(k == ch && b.consumer == some .stage) }
    | none => s
  match st.cmd with
  | some c => s.respond c r
  | none => s

/-- A stage fails (R488): the slot holds no image. -/
def State.stageFail (s : State) (st : Stage) (status : Status) (reason : Nat) : State :=
  s.stageEnd st { state := .failed } ⟨status.code, reason, []⟩

/-- Whether a stage has every byte of its package. -/
def State.stageFull (s : State) (st : Stage) : Bool :=
  match st.channel with
  | none => true
  | some ch => (s.ctl.bulk.find ch).any fun k => k.offset == k.bytes

/-- The first step of Table 19-9 that a package of `total` bytes fails by its header and records, and its status. One whose
length no package has, or that passes its limit, fails at step 4 (log 193). -/
def State.pkgFault (s : State) (st : Stage) (total : Nat) : Option (Nat × Status) :=
  let h := PkgHeader.read st.head
  if !st.hasHead then some (4, .integrity)
  else if h.secVer < s.fw.fusedSec then some (1, .denied)
  else if !hasRecord st.head h.records Config.identityHash.toNat then some (2, .denied)
  else if h.delta && h.srcDigest != (s.fw.slot s.fw.mgmtSlot).digest then some (3, .faultVersion)
  else if !h.fits total then some (4, .integrity)
  else none

/-- The status and reason of a failing step of Table 19-9. -/
def stageStep (n : Nat) (found : Bool) : Status × Nat :=
  let status : Status := match n with
    | 1 => .denied
    | 2 => if found then .integrity else .denied
    | 3 => .faultVersion
    | _ => .integrity
  (status, reason (if n == 3 then .dependency else .policy) (0x80 + n))

/-- What a package in a channel says of itself as its stage ends; none for one on the card. -/
def State.stageSays (s : State) (st : Stage) : Option (Option (Nat × Status)) :=
  st.channel.map fun ch => s.pkgFault st ((s.ctl.bulk.find ch).elim 0 (·.bytes))

/-- FW_STAGE_DONE (Table 19-9): the first failing step ends the stage, be it one that the package in the channel shows or the one
that the device reports. The versions of an image are those of its header. -/
def State.stageDone (s : State) (r : StageResult) : State :=
  match s.fw.staging with
  | none => s
  | some st =>
    let fails (n : Nat) (found : Bool) : State := s.stageFail st (stageStep n found).1 (stageStep n found).2
    match r, s.stageSays st with
    | .done v sv d, none =>
      if sv < s.fw.fusedSec then fails 1 true
      else { s.stageEnd st ⟨.bootable, v, sv, d⟩ ⟨0, 0, []⟩ with fw.fresh := true }
    | .done _ _ d, some fault =>
      if !s.stageFull st then s
      else match fault with
        | some (n, _) => fails n false
        | none =>
          let h := PkgHeader.read st.head
          { s.stageEnd st ⟨.bootable, h.imgVer, h.secVer, d⟩ ⟨0, 0, []⟩ with fw.fresh := true }
    | .failed n found, told =>
      match (if st.hasHead then told.bind id else none) with
      | some (m, _) => if m < n then fails m false else fails n found
      | none => fails n found

/-- FW_STAGE_TIMEOUT: a held FW_STAGE reaches 1,200 s (R487). -/
def State.stageTimeout (s : State) : State :=
  match s.fw.staging with
  | some st => if st.due ≤ s.dev.tick then s.stageFail st .timeout 0x0601 else s
  | none => s

/-- SD_CARD_REMOVAL (21 R524). -/
def State.cardOut (s : State) : State :=
  let s := { s with fw.cardIn := false, fw.cardFile := false }
  match s.fw.staging with
  | some st => if st.channel.isNone then s.stageFail st .notReady 0x0401 else s
  | none => s

/-- A stage whose channel has closed ends (17 R457). -/
def State.stageCheck (s : State) : State :=
  match s.fw.staging with
  | some st => match st.channel with
    | some ch => if (s.ctl.bulk.find ch).any fun k => k.consumer == some .stage then s else s.stageFail st .aborted 0x0601
    | none => s
  | none => s

/-! Resets that activations use. -/

/-- A management-only reset begins (Table 19-4, 17 R464, 20 R505): cause 0 command, 1 watchdog, 2 activation. -/
def State.beginMgmtReset (s : State) (cause : Nat) : State :=
  { s with dev.mgmtReset := some cause, ready.mgmt := false }.recAll 0x0001 0 0 0 cause 0 0 0 cause

/-- The management image is activated (Table 19-11, `op` 0). -/
def State.activateMgmt (s : State) (n : Nat) : State :=
  { s with
    fw.trial := some s.fw.mgmtSlot
    fw.trialDue := s.dev.tick + 2 ^ 25
    fw.mgmtSlot := n
    fw.runMgmt := n
    fw.fresh := false
    ctl.expStaged := 1 }.writeSlots.beginMgmtReset 2

/-- The pair as a reset of the key engine leaves it: UNPAIRED, with a stored block that pairs the unit again (16 Table 16-2). -/
def State.pairBoot (s : State) : State :=
  let b := match s.fw.config.find 0x40 with
    | some x => leNat x
    | none => 0
  let on := bit b 0
  { s with pair := { block := b, enabled := on, waitDue := if on then some (s.dev.tick + 1562500) else none } }

/-- The key engine restarts from a slot (Table 19-11, `op` 1): every session and port goes with its keys, and so do the memory keys
of every tenant (09 R245). -/
def State.restartKeys (s : State) (n : Nat) : State :=
  let s := s.ten.tenants.foldl (fun s x => if x.2.sess == .opened then s.beginEnd x.1 x.2 [] else s) s
  let s := { s with ten.tenants := s.ten.tenants.each fun _ t => if t.sess == TenSess.closed then t else { t with keyless := true } }
  let s := (s.ten.links.map (·.1)).foldl State.endLink s
  let s := (s.ctl.sessions.map (·.1)).foldl State.endSession s
  let s := (s.ports.filter fun p => p.2.st != .dark && p.2.st != .down).foldl (fun s p => s.portDown p.1 0) s
  let s := { s with
    ctl.handshakes := []
    fw.keSlot := n
    fw.runKe := n
    fw.fresh := false
    dev.keRestart := true
    ready.keyEngine := false }
  s.writeSlots.pairBoot

/-- A key-engine activation that waited for its peer goes on (R491). -/
def State.handoverCheck (s : State) : State :=
  match s.fw.activate with
  | some (_, n, cmd) =>
    if s.pair.handover && s.pair.peerTook then
      let s := { s with pair.handover := false, pair.peerTook := false }
      (s.respondOk cmd).restartKeys n
    else s
  | none => s

/-- KE_ACTIVATION_DONE (R491): the key engine is ready, and `op` 2 goes on with the management image. -/
def State.keDone (s : State) : State :=
  if !s.dev.keRestart then s
  else
    let s := { s with dev.keRestart := false, ready.keyEngine := true }
    match s.fw.activate with
    | some (op, n, _) =>
      let s := { s with fw.activate := none }
      if op == 2 then s.activateMgmt n else s
    | none => s

/-! FW_ACTIVATE. -/

def Fw.bootable (f : Fw) (n : Nat) : Bool := (f.slot n).state == .bootable

/-- The slot that the key engine would run from: the staged one, or the management slot (Table 19-11). -/
def Fw.keTarget (f : Fw) : Option Nat :=
  match f.spareSlot with
  | some n => if f.bootable n then some n else if f.bootable f.mgmtSlot then some f.mgmtSlot else none
  | none => if f.bootable f.mgmtSlot then some f.mgmtSlot else none

/-- What keeps the key engine from an activation here (Table 19-11). -/
def State.keRefusal (s : State) (force : Bool) : Option Refuse :=
  let pairMember := s.pair.enabled
  if pairMember && (s.pair.role == .active || s.pair.role == .takeover) && !s.pair.peerIn then some (rf .state 4)
  else if !pairMember && !force && s.ten.tenants.any fun t => t.2.sess != .closed then some rState
  else none

/-- FW_ACTIVATE (R490, R491). -/
def bodyFwActivate : CcpBody := fun c s =>
  let op := bits c.block 1 0
  let busy := s.fw.staging.isSome || s.fw.trial.isSome || s.fw.activate.isSome
  if busy then refuse s rBusy
  else match op with
    | 0 => match s.fw.spareSlot with
      | some n =>
        if s.fw.bootable n then { s, reply := some ⟨0, 0, []⟩, after := fun s => s.activateMgmt n }
        else refuse s (rf .dependency 2)
      | none => refuse s (rf .dependency 2)
    | 3 =>
      let f := s.fw
      let sv := (f.slot f.mgmtSlot).secVer
      if f.mgmtSlot != f.keSlot || sv ≤ f.fusedSec then refuse s rState
      else
        let s := { s with fw.fusedSec := sv }
        let o := 1 - f.mgmtSlot
        let x := f.slot o
        okEmpty (if x.state == .bootable && x.secVer < sv then s.setSlot o { x with state := .failed } else s)
    | _ => match s.fw.keTarget with
      | none => refuse s (rf .dependency 2)
      | some n => match s.keRefusal (bit c.block 8) with
        | some r => refuse s r
        | none =>
          let s := { s with fw.activate := some (op, n, c.ref) }
          if s.pair.enabled && s.pair.role == .active then
            heldCmd { s.fenceUnit with pair.handover := true, pair.peerTook := false }
          else { s, reply := some ⟨0, 0, []⟩, after := fun s => s.restartKeys n }

/-- MGMT_RUNNING_REPORT: the trial ends (R492). -/
def State.runningReport (s : State) : State :=
  if s.fw.trial.isSome && s.dev.phase == .running then { s with fw.trial := none }.writeSlots else s

/-- FW_TRIAL_TIMEOUT: the previous slot is restored (R492). -/
def State.trialTimeout (s : State) : State :=
  match s.fw.trial with
  | none => s
  | some prev =>
    if s.dev.tick < s.fw.trialDue then s
    else
      let s := { s with fw.trial := none, fw.mgmtSlot := prev, fw.runMgmt := prev }.writeSlots
      (s.beginMgmtReset 2).recOp 0x0901 0 0 0 prev

/-- FW_QUERY (Table 19-12). -/
def bodyFwQuery : CcpBody := fun _ s =>
  let f := s.fw
  let w := f.fusedSec * 2 ^ 24 + f.slotA.state.num * 2 ^ 16 + f.slotB.state.num * 2 ^ 8 + b2n f.trial.isSome * 4 + f.keSlot * 2 + f.mgmtSlot
  let ver (x : Slot) : List Byte := leBytes (x.imgVer * 2 ^ 8 + x.secVer) 4
  okBytes s (leBytes w 4 ++ ver f.slotA ++ ver f.slotB ++ List.replicate 20 0#8 ++ leBytes f.slotA.digest 48 ++
    leBytes f.slotB.digest 48)

/-! The device configuration (R494). -/

/-- The lengths an item may have (Table 19-13); none is an unlisted item. -/
def itemFits (item len : Nat) : Option Bool :=
  match item with
  | 0x0001 => some (len == 2)
  | 0x0002 => some (len == 1)
  | 0x0003 => some (len == 1)
  | 0x0004 => some (len == 1)
  | 0x0005 => some (len == 40)
  | 0x0010 => some (len == 48)
  | 0x0011 => some (len == 48)
  | 0x0020 => some (len == 192)
  | 0x0021 => some (len % 256 == 0 && len ≤ 4096)
  | 0x0030 => some (len == 32)
  | 0x0040 => some (len == 128)
  | 0x0050 => some (len == 64)
  | _ => none

/-- Items that the device writes itself (Table 19-13). -/
def itemOfDevice (item : Nat) : Bool := item == 0x0002 || item == 0x0040 || item == 0x0050

/-- CONFIG_SET. -/
def bodyConfigSet : CcpBody := fun c s =>
  let item := bits c.block 15 0
  let len := bits c.block 47 32
  match itemFits item len with
  | none => refuse s rRange
  | some fits =>
    if 4096 < len || (len != 0 && !fits) then refuse s (rf .range 2)
    else if itemOfDevice item then refuse s rState
    else
      let v := (leBytes c.block c.total).drop 8
      okEmpty { s with fw.config := if len == 0 then s.fw.config.del item else s.fw.config.put item v }

/-- CONFIG_QUERY. -/
def bodyConfigQuery : CcpBody := fun c s =>
  match itemFits c.object 0 with
  | none => refuse s rObject
  | some _ => match s.fw.config.find c.object with
    | some v => okBytes s v
    | none => refuse s rNoObject

/-- DEBUG_UNLOCK (R236). The verdicts are those of the vendor signatures and of the identity the token names. -/
def bodyDebugUnlock : CcpBody := fun c s =>
  if !c.sigOk || !c.auxOk then refuse s (rf .policy 3) else okEmpty { s with fw.token := true }

end Sys2Proof.Machine
end

