-- ==== Sys2Proof/Machine/Ranks.lean ====
section
/-! DEFINITION. Ranks.lean: ranks that leave service and the migration of their granules (11 R315 to R321). -/

namespace Sys2Proof.Machine

/-! The record of retired ranks (R321): configuration item 0x0050, one byte for each rank (log 38). -/

def State.rankRecord (s : State) : List Byte := (s.fw.config.find 0x50).getD (List.replicate 64 0)

def State.setRankRecord (s : State) (r : Nat) (on : Bool) : State :=
  { s with fw.config := s.fw.config.put 0x50 (listSet s.rankRecord r (if on then 1#8 else 0#8)) }

/-! A granule moves (R317, R318). -/

/-- The bytes of one granule-sized range in the place of another. -/
def memMove (m : List Host.Cell) (src dst len : Nat) : List Host.Cell :=
  let mine := (m.filter fun c => src ≤ c.1 && c.1 < src + len).map fun c => (c.1 - src + dst, c.2)
  let rest := m.filter fun c => !(src ≤ c.1 && c.1 < src + len)
  (rest.filter fun c => c.1 < dst) ++ mine ++ rest.filter fun c => dst + len ≤ c.1

/-- The numbers of one granule's parts in the place of another's: `n` parts to a granule. -/
def moveNum (src dst n k : Nat) : Nat := if k / n == src then dst * n + k % n else k

/-- A table keyed by parts of granules, its keys moved. -/
def moveKeys {α : Type} (src dst n : Nat) (t : Tbl α) : Tbl α :=
  let mine := t.filter fun e => e.1 / n == src
  mine.foldl (fun t e => t.put (moveNum src dst n e.1) e.2) (t.filter fun e => e.1 / n != src)

/-- A placed write whose granule moves. -/
def TileWrite.move (w : TileWrite) (src dst : Nat) : TileWrite :=
  { w with dev := moveNum src dst 2097152 w.dev, bad := w.bad.map (moveNum src dst 8192) }

def InvalFor.move (p : InvalFor) (src dst : Nat) : InvalFor :=
  match p with
  | .spaceGrans a l => .spaceGrans a (l.map (moveNum src dst 1))
  | .frames e l => .frames e (l.map (moveNum src dst 32))
  | .dropped l => .dropped (l.map (moveNum src dst 1))
  | p => p

/-- Held translations whose granule moves (08 R223). -/
def moveHeld (p : Nat → Nat) (t : Tbl HeldPage) : Tbl HeldPage := t.each fun _ h => { h with page := p h.page }

/-- The directory entries of a granule's lines go to the stack that the lines now lie in, each to a free way of its set, or to the
way it had (07 R192, log 180). -/
def State.replaceDir (s : State) (dst : Nat) : State :=
  (s.com.dir.filter fun x => s.lineGran x.1 == dst).foldl (fun s x =>
    let set := s.lineSet x.1
    if set == x.2.set then s
    else
      let taken (w : Nat) : Bool := s.com.dir.any fun y => y.2.set == set && y.2.way == w
      s.putDir x.1 { x.2 with set, way := ((bitsOf (waysOf s.com.part x.2.tenant) 16).find? fun w => !taken w).getD x.2.way }) s

/-- Everything that names a granule names another instead: the translations of R318, and what waits for its bytes. -/
def State.renameGran (s : State) (src dst : Nat) : State :=
  let g := moveNum src dst 1
  let p := moveNum src dst 32
  let pool : Pool := { s.pool with
    extents := s.pool.extents.each fun _ e => { e with
      grans := e.grans.map g, verGrans := e.verGrans.map g
      versions := e.versions.each fun _ v => { v with frames := v.frames.map fun f => (f.1, p f.2) } }
    spaces := s.pool.spaces.each fun _ a => { a with
      pops := a.pops.map fun x => (x.1, g x.2)
      growing := a.growing.map fun x => (x.1, { x.2 with granule := g x.2.granule }) }
    invals := s.pool.invals.each fun _ i => { i with purpose := i.purpose.move src dst }
    fetches := moveKeys src dst 8192 s.pool.fetches }
  let tile (t : Tile) : Tile := { t with
    writes := t.writes.map fun w => w.move src dst
    tr := moveHeld p t.tr
    splits := t.splits.each fun _ x => { x with tr := moveHeld p x.tr } }
  let ltile (l : LTile) : LTile := { l with writes := l.writes.map fun w => w.move src dst, tr := moveHeld p l.tr }
  let s := { s with
    pool := pool
    str.streams := s.str.streams.each fun _ v => { v with tiles := v.tiles.each fun _ t => tile t }
    seq.windows := s.seq.windows.each fun _ w => { w with tiles := w.tiles.each fun _ l => ltile l } }
  s.replaceDir dst

/-- The sectors of a granule that a migration finds uncorrectable (1) or with a failing MAC (2), by what they hold and by
what the copy's reads met. -/
def State.badOf (s : State) (g : Nat) (errors : List (Nat × Nat)) : List (Nat × Nat) :=
  let kind (n : Nat) : Option (Nat × Nat) := match s.secCond n [] [] with
    | .unc => some (n, 1)
    | .mac => some (n, 2)
    | _ => none
  let held := (s.pool.sectors.filter fun x => sectorGran x.1 == g).filterMap fun x => kind x.1
  let met := (errors.filter fun e => e.1 < 8192 && (e.2 == 1 || e.2 == 2)).map fun e => (g * 8192 + e.1, e.2)
  held ++ met.filter fun e => !s.unwritten (sectorPage e.1) && s.secCond e.1 [] [] != .poison && !held.any fun h => h.1 == e.1

/-- A sector that a migration cannot read is logged at the source and its owner has an event (R317, Table 11-7). -/
def State.noteBad (s : State) (x : Nat × Nat) : State :=
  let who := s.nameSector x.1
  let s := s.logSector x.1 63 x.2
  match who with
  | some (t, kind, subj, off) => s.recTen t 0x0201 kind subj off 0x30
  | none => s

/-- A granule that is in use moves to another, with its bytes, marks and map bits, under the key in force (R317, R318). It keeps
its state, owner and charge until every engine has acknowledged. -/
def State.moveGranule (s : State) (src dst : Nat) (errors : List (Nat × Nat)) : State :=
  let bad := s.badOf src errors
  let s := bad.foldl State.noteBad s
  let x := s.gran src
  let k := s.writeKey src
  let fresh (m : SecMeta) : SecMeta :=
    { m with rawErr := [], macNoted := false, macBad := false,
             epoch := if m.epoch == 0 then 0 else k.1, keyId := if m.epoch == 0 then 0 else k.2 }
  let secs := moveKeys src dst 8192 (s.pool.sectors.keep fun n _ => sectorGran n != dst)
  let s := { s with
    pool.mem := memMove s.pool.mem (src * 2097152) (dst * 2097152) 2097152
    pool.sectors := secs.each fun n m => if sectorGran n == dst then fresh m else m
    pool.wmap := ((s.pool.wmap.filter fun p => pageGran p != dst).map (moveNum src dst 32) ++
      ((List.range 32).filter fun i => s.firmPage (32 * src + i)).map (32 * dst + ·)).foldl insertNum [] }
  let s := (s.renameGran src dst).putGran dst { st := .moving, owner := x.owner, use := x.use }
  let s := (s.putGran src x).touchGran src |>.touchGran dst
  bad.foldl (fun s b => s.poisonSector (moveNum src dst 8192 b.1)) s

/-! The migration (R316 to R319). -/

/-- A rank's granules have no entry where they are in the default state of what the rank now is. -/
def State.settleRank (s : State) (r : Nat) (st : RankSt) : State :=
  let s := { s with pool.ranks := listSet s.pool.ranks r st }
  { s with pool.grans := s.pool.grans.keep fun g x => !(granRank g == r && x == { st := s.granDefault g }) }

/-- The next rank that waits begins its migration: to the lowest fallow rank, or scattered (R316, R319). -/
def State.startMigration (s : State) : State :=
  match s.pool.migration, s.pool.leaving with
  | none, r :: rest =>
    let s := { s with pool.leaving := rest }
    match s.pool.fallowOf with
    | f :: fs =>
      { s with
        pool.fallowOf := fs
        pool.fallowF := s.pool.fallowF - 1
        pool.ranks := listSet s.pool.ranks f .filling
        pool.migration := some { rank := r, dest := some f } }
    | [] => { s with pool.migration := some { rank := r, dest := none } }
  | _, _ => s

/-- A rank leaves service (R315, R316, R320). -/
def State.retireRank (s : State) (r : Nat) : State :=
  let note (s : State) : State := (s.setRankRecord r true).recAll 0x0206 7 (r / 4) 0 (r % 4) 0 0 0 0
  match s.rankSt r with
  | .fallow => note { s.settleRank r .retired with
      pool.fallowOf := s.pool.fallowOf.filter (· != r), pool.fallowF := s.pool.fallowF - 1 }
  | .filling => if s.pool.leaving.contains r then s else note { s with pool.leaving := s.pool.leaving ++ [r] }
  | .inService => (note { s with pool.ranks := listSet s.pool.ranks r .leaving, pool.leaving := s.pool.leaving ++ [r] }).startMigration
  | _ => s

/-- The migration's rank is done with: it is RETIRED, its destination in service, and the next one may begin (R318). -/
def State.endMigration (s : State) (m : Migration) : State :=
  let s := s.settleRank m.rank .retired
  let s := match m.dest with
    | some d => s.settleRank d (if s.pool.leaving.contains d then .leaving else .inService)
    | none => s
  ({ s with pool.migration := none }.recOp 0x0207 7 (m.rank / 4) m.copied (m.rank % 4)).startMigration

/-- Whether a granule that was copied waits for acknowledgements. -/
def State.movesOpen (s : State) : Bool :=
  s.pool.invals.any fun x => match x.2.purpose with
    | .migrate _ _ => true
    | _ => false

/-- A migration that has passed the last granule, and has every acknowledgement, ends. -/
def State.migrationCheck (s : State) : State :=
  match s.pool.migration with
  | some m => if m.next == 9216 && !s.movesOpen then s.endMigration m else s
  | none => s

/-- A granule's acknowledgements are in: the source is RETIRED, and the destination takes its state, owner and charge
(R318). -/
def State.migrateDone (s : State) (src dst : Nat) : State :=
  let x := s.gran src
  let s := (s.setGran dst x).putGran src { st := .retired }
  (if x.st == .free then s.later [.migrate] else s).migrationCheck

/-- Granules without content pass: FREE ones leave a zeroed FREE granule at the destination, and test granules are
released (R317). -/
def State.passFree (s : State) : Nat → State
  | 0 => s
  | fuel + 1 =>
    match s.pool.migration with
    | none => s
    | some m =>
      if m.next == 9216 then s
      else
        let g := m.rank * 9216 + m.next
        let x := s.gran g
        let s' := { s with pool.migration := some { m with next := m.next + 1, stalled := false } }
        let pass (s : State) : State :=
          let s := s.putGran g { st := .retired }
          match m.dest with
          | some d => (s.zeroGran (d * 9216 + m.next)).putGran (d * 9216 + m.next) { st := .free }
          | none => s
        if x.st == .free || x.st == .unfilled then State.passFree (pass s') fuel
        else if x.use == .test then State.passFree (pass ({ s' with pool.armed := s'.pool.armed.del (granStack g) }.zeroGran g)) fuel
        else s

/-- Whether a field reset holds the copy of a migration (R319). -/
def State.copyHeld (s : State) (m : Migration) (dst : Nat) : Bool :=
  bit s.dev.fieldReset (m.rank / 4) || bit s.dev.fieldReset (granStack dst)

/-- MIGRATION_GRANULE_COPIED: the next granule with content is copied, and its physical invalidation issued (R317 to
R319). -/
def State.granuleCopied (s : State) (errors : List (Nat × Nat)) : State :=
  let s := s.passFree 9217
  match s.pool.migration with
  | none => s
  | some m =>
    if m.next == 9216 then s.migrationCheck
    else
      let src := m.rank * 9216 + m.next
      let dst := match m.dest with
        | some d => some (d * 9216 + m.next)
        | none => s.nextFree 0xFFFF ((m.rank / 4 + 1) % 16) (some m.rank)
      match dst with
      | none =>
        if m.stalled then s
        else { s with pool.migration := some { m with stalled := true } }.recOp 0x020B 7 (m.rank / 4) m.next (m.rank % 4)
      | some d =>
        if s.copyHeld m d then s
        else
          let use := (s.gran src).use
          let s := (s.moveGranule src d errors).invalidate (.phys [src]) (.migrate src d)
          let s := { s with pool.migration := some { m with next := m.next + 1, copied := m.copied + 1, stalled := false } }
          let s := match use with
            | .extent e =>
              if !s.mirrorsTo e then s
              else
                let i := ((s.pool.extents.find e).map fun (v : Extent) => v.grans.findIdx (· == d)).getD 0
                let good (j : Nat) : Bool := match s.secCond (d * 8192 + j) [] [] with
                  | .good _ _ => true
                  | _ => false
                s.mirrorOut e (((List.range 8192).filter good).map fun j =>
                  (i * 2097152 + 256 * j, memRead s.pool.mem (sectorAddr (d * 8192 + j)) 256)) [] [] .none
            | _ => s
          (s.passFree 9217).migrationCheck

/-- A rank is examined: 8 distinct uncorrectable sectors, or 256 parity errors, in one window (R315). -/
def State.checkRank (s : State) (r : Nat) : State :=
  let s := s.rankNow
  let out := s.rankSt r == .inService || s.rankSt r == .fallow || s.rankSt r == .filling
  if out && (8 ≤ (s.pool.badSecs.findD r []).length || 256 ≤ s.pool.parity.findD r 0) then s.retireRank r else s

/-- RANK_ERROR_WINDOW_END: the counts of a window whose 16,777,216 ticks have passed are gone (R315). -/
def State.rankWindow (s : State) : State := s.rankNow

/-- RANK_RETIRE (R320). -/
def bodyRankRetire : CcpBody := fun c s =>
  let r := 4 * bits c.block 3 0 + bits c.block 9 8
  match bits c.block 17 16 with
  | 0 => if bit s.ready.stack (r / 4) then okEmpty (s.retireRank r) else refuse s rNotReady
  | 1 => okEmpty (s.setRankRecord r false)
  | _ => refuse s rRange

end Sys2Proof.Machine
end

