-- ==== Sys2Proof/Machine/Stacks.lean ====
section
/-! DEFINITION. Stacks.lean: the stacks and their controllers (10): training, the queues of sector accesses, refresh,
self-refresh, tracking, retraining and the pattern generator; mowing and the commands of the memory checks (11). -/

namespace Sys2Proof.Machine

/-- Sectors of one stack. -/
def stackSectors : Nat := 36864 * 8192

/-- The device's number of a stack-local sector. -/
def deviceSector (stack n : Nat) : Nat := stack * stackSectors + n

/-- Whether a stack takes accesses. -/
def State.stackServes (s : State) (k : Nat) : Bool := bit s.ready.stack k && (s.stack k).selfRef == .none

/-! Sector accesses (11 R299, R300). -/

/-- An uncorrectable sector of a mirrored extent waits for the standby's copy, and keeps the errors that made it so
(11 R302). False: no mirror is asked. -/
def State.askMirror (s : State) (n : Nat) (e : RawErr) : Bool × State :=
  let s' := s.putSector n { s.secMeta n with rawErr := xorErr (s.secMeta n).rawErr e }
  match s'.mirrorWants [n] with
  | [] => (false, s)
  | l => (true, l.foldl (fun s w => s.fetchMirror w.1 w.2.1 w.2.2) s')

/-- An access waits for the copy of its sector, after those that wait already (10 R277, 11 R302). -/
def State.joinFetch (s : State) (n : Nat) (who : Access) : State :=
  { s with pool.fetches := s.pool.fetches.adjust n fun f => { f with waiting := f.waiting ++ [who] } }

/-- A sector read ends in a row of Table 11-3. -/
def State.readNow (s : State) (n : Nat) (e1 e2 : RawErr) : State :=
  let a := if s.secCond n e1 e2 == .unc then s.askMirror n e1 else (false, s)
  if a.1 then a.2.joinFetch n (.sector n none)
  else
    let r := s.readSector n e1 e2
    r.2.2.emit (.sector n r.1.code r.2.1)

/-- A write to a sector, mirrored where its extent is; where it covers a part of an uncorrectable sector, that sector's copy is
fetched first (11 R299, R302, R303; 16 R433). -/
def State.writeNow (s : State) (n off : Nat) (data : List Byte) : State :=
  let part : Bool := off != 0 || data.length != 256
  let a := if part && s.secCond n [] [] == .unc then s.askMirror n [] else (false, s)
  if a.1 then a.2.joinFetch n (.sector n (some (off, data)))
  else
    let who := s.nameSector n
    let r := s.writeSector n off data false
    match who with
    | some (_, kind, e, at') =>
      if kind == 1 && r.1 != .integrity && s.mirrorsTo e then r.2.mirrorOut e [(at' + off, data)] (if r.1 == .poisoned then [at'] else []) [] .none else r.2
    | none => r.2

/-- A sector access that waited for the mirror runs again. -/
def State.sectorAgain (s : State) (n : Nat) (write : Option (Nat × List Byte)) : State :=
  match write with
  | none => s.readNow n [] []
  | some w => s.writeNow n w.1 w.2

/-- One access of a queue is carried out; behind one to the same sector that waits for the mirror it waits too (10 R277). -/
def State.carryOut (s : State) (k : Nat) (a : SecAccess) : State :=
  let n := deviceSector k a.sector
  if s.pool.fetches.has n then
    match a.op with
    | .read _ _ => s.joinFetch n (.sector n none)
    | .write off d => s.joinFetch n (.sector n (some (off, d)))
  else
    match a.op with
    | .read e1 e2 => ((s.onDie n e1.onDie).onDie n e2.onDie).readNow n e1.sym e2.sym
    | .write off d => s.writeNow n off d

/-! The queue of a pseudo-channel (R277, R278, R280; 14 R398). -/

def SecAccess.writes (a : SecAccess) : Bool :=
  match a.op with
  | .read _ _ => false
  | .write _ _ => true

/-- Whether an access may go now: it stands among the first 128, none before it is for its sector, and its class has a slot
left. -/
def State.mayIssue (s : State) (k p : Nat) (before : List SecAccess) (a : SecAccess) : Bool :=
  before.length < 128 && !(before.any fun b => b.sector == a.sector) && (s.takeSlot k p (s.slotClass a.sub)).isSome

/-- The places of a queue whose accesses may go now. -/
def State.issuable (s : State) (k p : Nat) : List Nat :=
  let q := s.pch k p
  let ok (i : Nat) : Bool := match q.queue[i]? with
    | some a => s.mayIssue k p (q.queue.take i) a
    | none => false
  if q.aged then (if ok 0 then [0] else []) else (List.range (min 128 q.queue.length)).filter ok

/-- Which access goes next: up to 16 of one direction before a turnaround, the oldest first (log 113). -/
def State.nextAccess (s : State) (k p : Nat) : Option Nat :=
  let q := s.pch k p
  let l := s.issuable k p
  let same (i : Nat) : Bool := (q.queue[i]?).any fun a => a.writes == q.writing
  (l.find? fun i => same i == (q.group < 16)).or l.head?

/-- Accesses of a pseudo-channel go while its stack serves, nothing holds it and slots are left; at most `fuel` of them. -/
def State.pchRun (s : State) (k p : Nat) : Nat → State
  | 0 => s
  | fuel + 1 =>
    if !s.stackServes k || (s.stack k).holds p then s
    else match s.nextAccess k p with
      | none => s
      | some i =>
        match (s.pch k p).queue[i]? with
        | none => s
        | some a =>
          let s := (s.takeSlot k p (s.slotClass a.sub)).getD s
          let s := s.modPch k p fun q => { q with
            queue := q.queue.eraseIdx i
            aged := q.aged && i != 0
            writing := a.writes
            group := if a.writes == q.writing && q.group < 16 then q.group + 1 else 1
            flight := q.flight ++ [a] }
          State.pchRun (s.carryOut k a) k p fuel

/-- A pseudo-channel goes on with its queue. -/
def State.runPch (s : State) (k p : Nat) : State := s.pchRun k p (s.pch k p).queue.length

/-- Every pseudo-channel of a stack goes on, and so does what waited for a hold to end (R293). -/
def State.runStack (s : State) (k : Nat) : State :=
  let s := ((s.stack k).pchs.map (·.1)).foldl (fun s p => s.runPch k p) s
  let w := s.stk.waiting.findD k []
  { s with stk.waiting := s.stk.waiting.del k }.later (w.map Todo.run ++ (s.com.trans.keysWhere (·.stalled)).map Todo.line)

/-- A sector access reaches its stack controller. One that comes before the stack has entered self-refresh ends the entry
(R286). -/
def State.toQueue (s : State) (k n : Nat) (op : SecOp) : State :=
  let p := s.pchOf n
  let a : SecAccess := { sector := n, sub := (s.granOwner (sectorGran (deviceSector k n))).getD 0, since := s.dev.tick, op }
  let s := s.modStack k fun x => { x with
    selfRef := if x.selfRef == .entering then .none else x.selfRef
    pchs := x.pchs.put p { x.pch p with queue := (x.pch p).queue ++ [a] } }
  s.runPch k p

/-- SECTOR_READ_DONE: a read with what its two attempts meet. Under VALIDMAP a page whose map bit is clear answers zeros and the
DRAM is not accessed (11 R306). -/
def State.sectorRead (s : State) (k m : Nat) (e1 e2 : ReadErr) : State :=
  let n := deviceSector k m
  if !bit s.ready.stack k || (s.stack k).selfRef == .entered || stackSectors ≤ m then s
  else if s.unwritten (sectorPage n) then s.emit (.sector n Status.ok.code (List.replicate 256 0))
  else s.toQueue k m (.read e1 e2)

/-- SECTOR_WRITE_DONE: the bytes of one write to a sector. -/
def State.sectorWrite (s : State) (k m off : Nat) (data : List Byte) : State :=
  if !bit s.ready.stack k || (s.stack k).selfRef == .entered || stackSectors ≤ m || 256 < off + data.length || data.isEmpty then s
  else s.toQueue k m (.write off data)

/-- ACCESS_AGE_LIMIT (R278): 4,096 cycles are 6.4 ticks. The bound does not run while the pseudo-channel is held. -/
def State.ageLimit (s : State) (k p : Nat) : State :=
  let late := (s.pch k p).queue.head?.any fun a => a.since + 6 ≤ s.dev.tick
  if !s.stackServes k || (s.stack k).holds p || !late then s else s.modPch k p fun q => { q with aged := true }

/-- CA_PARITY_ERROR: what is not yet confirmed is issued again in full, and the error counts for the rank (R279, 11 R315, log
176). A reissued attempt meets no further error. -/
def State.parityError (s : State) (k rank : Nat) : State :=
  let r := 4 * k + rank
  let again (a : SecAccess) : SecAccess := match a.op with
    | .read _ _ => { a with op := .read {} {} }
    | .write _ _ => a
  let open' := (s.stack k).pchs.flatMap (·.2.flight)
  let s := open'.foldl (fun s a => s.carryOut k (again a)) (s.rankNow.modStack k fun x => { x with caErrors := x.caErrors + 1 })
  { s with pool.parity := s.pool.parity.put r (s.pool.parity.findD r 0 + 1) }.later [.rank r]

/-! Training (R288, R289). -/

/-- A stack has failed training: its granules are RETIRED, its fallow rank is lost (R289). -/
def State.failStack (s : State) (k step pins : Nat) : State :=
  let s := s.modStack k fun x => { x with failed := true }
  let ours := s.pool.fallowOf.filter fun r => r / 4 == k
  let s := { s with pool.fallowOf := s.pool.fallowOf.filter fun r => r / 4 != k, pool.fallowF := s.pool.fallowF - ours.length }
  ((List.range 4).foldl (fun s j => s.settleRank (4 * k + j) .retired) s).recOp 0x0208 7 k pins step

/-- Pins of a map that lie in one pseudo-channel. -/
def pinsIn (m p : Nat) : Nat := bits m (36 * p + 35) (36 * p)

/-- Whether step 7 can remap failed pins: at most two of each pseudo-channel, those repaired before among them (Tables 10-1,
10-7). -/
def State.repairs (s : State) (k bad : Nat) : Bool :=
  let all := Nat.lor (s.stk.lanes.findD k 0) bad
  (List.range 64).all fun p => popcount (pinsIn all p) 36 ≤ 2

/-- The next training step begins. Steps 5, 6 and 8 leave settings and eyes that the hardware finds (log 174); step 7 remaps the
pins that failed steps 5 or 6, and both run again for their pseudo-channels. -/
def State.stepPassed (s : State) (k pins : Nat) : State :=
  let x := s.stack k
  let d := s.draw 64
  match x.step with
  | 5 => d.2.putStack k { x with step := 6, readSet := some d.1, badPins := pins }
  | 6 => d.2.putStack k { x with step := 7, writeSet := some d.1, badPins := Nat.lor x.badPins pins }
  | 7 =>
    let s := { s with stk.lanes := if x.badPins == 0 then s.stk.lanes else s.stk.lanes.put k (Nat.lor (s.stk.lanes.findD k 0) x.badPins) }
    s.putStack k { x with step := 8, badPins := 0 }
  | 8 => d.2.putStack k { x with step := 9, eyeSet := some d.1 }
  | n => s.putStack k { x with step := n + 1 }

/-- TRAINING_STEP_DONE. `pins` has bit 36 × pch + pin for every pin that fails the step; in steps 5 and 6 those pins go to step 7,
which fails with more than two of a pseudo-channel. -/
def State.trainStep (s : State) (k : Nat) (passed : Bool) (pins : Nat) : State :=
  let x := s.stack k
  let pins := pins % 2 ^ 2304
  let ok := passed && (x.step != 7 || s.repairs k x.badPins)
  if s.dev.phase != .running || x.failed || 9 ≤ x.step then s
  else if ok then s.stepPassed k pins
  else if x.attempt < 3 then s.putStack k { x with step := 1, attempt := x.attempt + 1, badPins := 0, readSet := none, writeSet := none }
  else
    let shown := if x.step == 7 then Nat.lor pins x.badPins else pins
    s.failStack k x.step ((List.range 64).foldl (fun m p => Nat.lor m (pinsIn shown p)) 0)

/-- STACK_INIT_DONE: step 9 (R288, 11 R305, R306). The management firmware's metadata follows at once (log 177). -/
def State.stackInit (s : State) (k : Nat) : State :=
  let x := s.stack k
  if s.dev.phase != .running || x.failed || x.step != 9 then s
  else
    let s := s.putStack k { x with step := 10 }
    { s with
      pool.mem := memZero s.pool.mem (k * 36864 * 2097152) (36864 * 2097152)
      pool.sectors := s.pool.sectors.keep fun n _ => n / stackSectors != k
      pool.wmap := s.pool.wmap.filter fun p => p / (36864 * 32) != k
      ready.stack := setBit s.ready.stack k true }

/-! Refresh (R283 to R285). -/

/-- Whether an access of a pseudo-channel's queue waits for a bank. -/
def State.bankWaits (s : State) (k p rank bank : Nat) : Bool :=
  (s.pch k p).queue.any fun a => let l := s.locOf a.sector; l.rank == rank && l.bank == bank

/-- REFRESH_DUE: it is issued with those postponed before it, or postponed while an access waits for that bank, at most eight
times. Refresh goes on for every bank while the pseudo-channel is held (R284). -/
def State.refreshBank (s : State) (k p rank bank : Nat) : State :=
  let x := s.stack k
  let q := x.pch p
  let b := q.banks.findD (bankKey rank bank) {}
  let put (b : DramBank) (cmds : List DramCmd) : State :=
    s.putStack k { x with pchs := x.pchs.put p { q with banks := q.banks.put (bankKey rank bank) b, last := cmds } }
  if x.selfRef == .entered then s
  else if s.bankWaits k p rank bank && !x.holds p && b.postponed < 8 then put { b with postponed := b.postponed + 1 } q.last
  else put (b.refresh (Config.refreshThreshold k) (b.postponed + 1)) [.refresh rank bank (b.postponed + 1)]

/-- STACK_TEMPERATURE_READ (R283, 15 R419). -/
def State.stackTemp (s : State) (k : Nat) (c : Int) : State :=
  let x := s.stack k
  let low := if x.shortWin && c ≤ 83 then x.lowReads + 1 else 0
  let short := if 85 < c then true else x.shortWin && low < 2
  let s := s.putStack k { x with
    temp := c, shortWin := short, lowReads := if short then low else 0, hot := if 95 < c then true else x.hot && 90 < c }
  if 105 < c then s.halt 1 else s

/-! Self-refresh (R286, R293). -/

/-- The all-bank refresh of every rank: nothing stays postponed. -/
def Stack.refreshAll (x : Stack) (limit : Nat) : Stack :=
  { x with pchs := x.pchs.each fun _ q => { q with
      banks := q.banks.each fun _ b => b.refresh limit (b.postponed + 1)
      last := (List.range 4).map .refreshAll } }

/-- STACK_SELF_REFRESH_ENTRY, at once unless a hold is in progress: the queued accesses are completed, mowing pauses, every rank
has an all-bank refresh. -/
def State.selfEntry (s : State) (k : Nat) : State :=
  if (s.stack k).selfRef != .entering || (s.stack k).held || (s.pwr.sleep == .waking && s.dev.halt.isNone) then s
  else
    let s := (s.modStack k fun x => { x with selfRef := .none }).runStack k
    let x := s.stack k
    if x.pchs.any fun q => !q.2.queue.isEmpty then s.putStack k { x with selfRef := .entering }
    else s.putStack k { x.refreshAll (Config.refreshThreshold k) with selfRef := .entered, entryTemp := x.temp, mowPaused := true }

/-- STACK_SELF_REFRESH_EXIT: every bank's refresh is due, read tracking runs on every pseudo-channel before its first access, and
a full retrain before it where the temperature has moved by more than 10 °C. A retrain in progress goes on unless it is such a
one. In the R26 state the stacks stay in self-refresh (01 R26). -/
def State.selfExit (s : State) (k : Nat) (c : Int) : State :=
  let x := s.stack k
  if x.selfRef != .entered || s.pwr.sleep != .waking || s.dev.halt.isSome then s
  else
    let far : Bool := c - x.entryTemp > 10 || x.entryTemp - c > 10
    let pchs := (List.range 64).foldl (fun (t : Tbl Pch) p =>
      let q := x.pch p
      t.put p { q with
        trkDue := true, fullDue := far
        retrain := if far then none else q.retrain.map fun r => { r with since := s.dev.tick }
        banks := q.banks.each fun _ b => { b with refreshed := 0 } }) x.pchs
    s.putStack k { x with selfRef := .none, temp := c, dueAll := true, mowPaused := false, pchs }

/-! Tracking and retraining (R291, R292). -/

/-- A pin's settings and eyes as the stack's training found them (log 174). -/
def State.trainedPin (s : State) (k p i : Nat) : Pin :=
  let x := s.stack k
  let set (d : Option Nat) (what : Nat) : Option Nat := d.map fun n => Config.pinTrim (n * 8 + what) p i
  let rd := (set x.readSet 0).map (· % 256)
  let vr := (set x.readSet 1).map (· % 128)
  let wr := (set x.writeSet 2).map (· % 256)
  let eye (what floor : Nat) : Nat := ((set x.eyeSet what).map fun n => floor + n % (256 - floor)).getD 0
  { trim := wr.getD 0x40 * 2 ^ 16 + rd.getD 0x40 * 2 ^ 8 + vr.getD 0x40, eyeR := eye 3 24, eyeW := eye 4 24, eyeV := eye 5 8 }

/-- A pin of a pseudo-channel. -/
def State.pinOf (s : State) (k p i : Nat) : Pin := ((s.pch k p).pins.find i).getD (s.trainedPin k p i)

def State.putPin (s : State) (k p i : Nat) (v : Pin) : State := s.modPch k p fun q => { q with pins := q.pins.put i v }

/-- A setting one step toward a place. -/
def toward (v mid : Nat) : Nat := if v < mid then v + 1 else if mid < v then v - 1 else v

/-- A setting one step away at most, within its range: the direction is the hardware's (log 3). -/
def State.nudge (s : State) (v top : Nat) : Nat × State :=
  let d := s.draw 2
  (if d.1 == 1 then min top (v + 1) else if d.1 == 2 then v - 1 else v, d.2)

/-- What tracking does to one pin: `rd_delay` one step at most toward the centre of the eye, `rd_vref` one step at most. -/
def State.trackPin (s : State) (k p : Nat) (e : PinEye) : State :=
  let q := s.pinOf k p e.pin
  let vr := s.nudge (bits q.trim 6 0) 127
  let trim := setBits (setBits q.trim 15 8 (toward (bits q.trim 15 8) (min 255 e.mid))) 6 0 vr.1
  vr.2.putPin k p e.pin { q with trim, eyeR := e.read, eyeW := e.write, eyeV := e.vref }

/-- Whether read tracking is due (R286, R291, 11 R308). -/
def State.trackDue (s : State) (k p : Nat) : Bool :=
  let q := s.pch k p
  let d := (s.stack k).temp - q.trkTemp
  q.trkDue || q.lastTrk + 524288 ≤ s.dev.tick || 5 ≤ d || d ≤ -5 || 64 ≤ q.sinceTrk

/-- READ_TRACKING. A read eye below 16 steps asks for a full retrain, one pseudo-channel of a stack at a time. -/
def State.track (s : State) (k p : Nat) (eyes : List PinEye) : State :=
  let eyes := eyes.filter (·.pin < 36)
  if !s.stackServes k || !s.trackDue k p then s
  else
    let s := eyes.foldl (fun s e => s.trackPin k p e) s
    let busy := (s.stack k).pchs.any fun q => q.2.retrain.isSome
    let low := eyes.any (·.read < 16)
    let full := (s.pch k p).fullDue
    if low && busy && !(s.pch k p).retrain.isSome then s
    else
      let s := s.modPch k p fun q => { q with
        trkDue := false, lastTrk := s.dev.tick, trkTemp := (s.stack k).temp, sinceTrk := 0
        retrain := if low && !full && q.retrain.isNone then some { since := s.dev.tick, inSlice := false } else q.retrain }
      s.runStack k

/-- The settings that a full retrain finds for a pin are the hardware's (log 3). -/
def State.retrainPin (s : State) (k p : Nat) (e : PinEye) : State :=
  let d := s.draw 23
  let trim := bits d.1 22 15 * 2 ^ 16 + bits d.1 14 7 * 2 ^ 8 + bits d.1 6 0
  d.2.putPin k p e.pin { s.pinOf k p e.pin with trim }

/-- Whether an eye is below the limits of step 8 (Table 10-7). -/
def PinEye.small (e : PinEye) : Bool := e.read < 24 || e.write < 24 || e.vref < 8

/-- A full retrain ends (R292): the eyes are those last measured; its patterns stand in the training area. The settings change only
where step 8 has passed. -/
def State.retrainEnd (s : State) (k p : Nat) (passed : Bool) (eyes : List PinEye) : State :=
  let s := s.modPch k p fun q => { q with retrain := none, fullDue := false, training := none }
  let s := eyes.foldl (fun s e => s.putPin k p e.pin { s.pinOf k p e.pin with eyeR := e.read, eyeW := e.write, eyeV := e.vref }) s
  let s := if passed && !eyes.any PinEye.small then eyes.foldl (fun s e => s.retrainPin k p e) s
    else s.recOp 0x020C 7 k (maskOf ((eyes.filter PinEye.small).map (·.pin))) p
  s.runStack k

/-- RETRAIN_SLICE_TIMER: a slice starts, after the first one only when the gap before it has lasted 200 µs (312.5 ticks), or it
ends; the last one measures the eyes. After self-refresh the retrain is one unsliced hold (R293). -/
def State.retrainSlice (s : State) (k p : Nat) (starts passed : Bool) (eyes : List PinEye) : State :=
  let q := s.pch k p
  let eyes := eyes.filter (·.pin < 36)
  match q.retrain with
  | none => if q.fullDue && !starts && s.stackServes k then s.retrainEnd k p passed eyes else s
  | some r =>
    if starts then
      let early : Bool := r.first.isSome && s.dev.tick < r.since + 313
      if r.inSlice || !s.stackServes k || early then s
      else s.modPch k p fun q => { q with retrain := some { since := s.dev.tick, inSlice := true, first := some (r.first.getD s.dev.tick) } }
    else if !r.inSlice then s
    else if passed || !eyes.isEmpty then s.retrainEnd k p passed eyes
    else (s.modPch k p fun q => { q with retrain := some { r with since := s.dev.tick, inSlice := false } }).runStack k

/-- What the clock does to a retrain: a slice is over after 200 µs, and a retrain that has not ended 40 ms (62,500 ticks) after its
first slice has failed (R292). -/
def State.retrainTick (s : State) (k p : Nat) : State :=
  match (s.pch k p).retrain with
  | none => s
  | some r =>
    if r.first.any fun t => t + 62500 ≤ s.dev.tick then s.retrainEnd k p false []
    else if r.inSlice && r.since + 312 ≤ s.dev.tick then
      (s.modPch k p fun q => { q with retrain := some { r with since := s.dev.tick, inSlice := false } }).runStack k
    else s

/-- One tick at the stacks: what was carried out before is confirmed (log 176), retrains go by the clock, and the queues go on as
slots come free. -/
def State.stackTick (s : State) : State :=
  (s.stk.units.map (·.1)).foldl (fun s k =>
    let s := s.modStack k fun x => { x with pchs := x.pchs.each fun _ q => { q with flight := [] } }
    let s := ((s.stack k).pchs.map (·.1)).foldl (fun s p => s.retrainTick k p) s
    ((s.stack k).pchs.map (·.1)).foldl (fun s p => s.runPch k p) s) s

/-! The pattern generator (R287, R294; 18 R473). -/

/-- The state of a PRBS register of `n` bits after one bit, and that bit: x^15 + x^14 + 1 and x^31 + x^28 + 1 (log 181). -/
def prbsStep (n tap x : Nat) : Nat × Bool :=
  let b := bit x (n - 1) != bit x (tap - 1)
  (x * 2 % 2 ^ n + b2n b, b)

/-- The register after some bits. -/
def prbsAfter (n tap : Nat) : Nat → Nat → Nat
  | x, 0 => x
  | x, i + 1 => prbsAfter n tap (prbsStep n tap x).1 i

/-- Where the generator's burst of a number goes: bank, row, burst of the row (R287). -/
def genPlace (n : Nat) : Nat × Nat × Nat := (n % 16, 254 + n / 16 % 2, n / 32 % 32)

/-- The bit that a pin carries in a beat of a burst of a run (R287). -/
def genBit (ctl user pin burst beat : Nat) : Bool :=
  let seed := bits ctl 47 17
  match bits ctl 5 3 with
  | 0 => (prbsStep 15 14 (prbsAfter 15 14 (seed % 2 ^ 15) (1024 * pin + 8 * burst + beat))).2
  | 1 => (prbsStep 31 28 (prbsAfter 31 28 seed (1024 * pin + 8 * burst + beat))).2
  | 2 => (8 * burst + beat) % 36 == pin
  | _ => bit (bits user (8 * (pin % 32 + 32 * (burst % 2)) + 7) (8 * (pin % 32 + 32 * (burst % 2)))) beat

/-- The symbol of a pin in a burst: beat b is bit b (11 R297). -/
def genSymbol (ctl user pin burst : Nat) : Nat := maskOf ((List.range 8).filter fun b => genBit ctl user pin burst b)

/-- PGEN_RUN_DONE: the training area holds the pattern that was written, the compare unit has counted, and the hold ends. -/
def State.pgenDone (s : State) (k p : Nat) (mismatches : List Nat) : State :=
  let q := s.pch k p
  if !bit q.ctl 0 then s
  else
    let dir := bits q.ctl 7 6
    let s := if dir == 2 then s
      else (mismatches.take 36).zipIdx.foldl (fun s m =>
        let x := s.pinOf k p m.2
        if m.1 == 0 then s else s.putPin k p m.2 { x with cmp := min 65535 (x.cmp + m.1) }) s
    let s := s.modPch k p fun q => { q with
      beats := if dir == 2 then q.beats else (q.beats + bits q.ctl 63 48 * 1024 * 8) % 2 ^ 48
      training := if dir == 1 then q.training else some (q.ctl, q.user)
      ctl := setBit q.ctl 0 false
      running := none }
    let s := match q.running with
      | some c => s.respondOk c
      | none => s
    s.runStack k

/-- The 444 bytes that STACK_DIAG reads (18 R473). -/
def State.diagBytes (s : State) (k p : Nat) : List Byte :=
  let q := s.pch k p
  let pins := (List.range 36).map fun i => s.pinOf k p i
  (s.stk.pc ++ s.stk.bk).flatMap (leBytes · 4) ++ leBytes q.ctl 8 ++ leBytes q.user 64 ++ pins.flatMap (fun x => leBytes x.trim 4) ++
    pins.flatMap (fun x => leBytes x.cmp 2) ++ leBytes q.beats 8 ++ pins.flatMap fun x => [x.eyeR, x.eyeW, x.eyeV].flatMap (leBytes · 1)

/-- STACK_DIAG (18 R473). A run holds its pseudo-channel as a tracking does (R294). -/
def bodyStackDiag : CcpBody := fun c s =>
  let b := c.block
  let op := bits b 1 0
  let k := bits b 11 8
  let p := bits b 19 14
  let ctl := bits b 127 64
  let pat := bits ctl 5 3
  let idle := op != 1 && (ctl != 0 || bits b 639 128 != 0)
  checked s
    [ (op == 1 && (bits ctl 16 8 != 0 || bits ctl 2 1 != 0), rMalformed),
      (op == 3 || idle || (op == 1 && (bits ctl 63 48 == 0 || !bit ctl 0 || bits ctl 7 6 == 3 || 4 ≤ pat ||
        (pat < 2 && bits ctl 47 17 == 0))), rRange),
      (op == 1 && !bit s.ready.stack k, rNotReady),
      (op == 1 && (s.pch k p).running.isSome, rBusy) ]
    (if op == 1 then
       heldCmd (s.modPch k p fun q => { q with ctl, user := bits b 639 128, running := some c.ref })
     else
       let r := s.diagBytes k p
       if op == 0 then okBytes s r
       else okBytes (s.modPch k p fun q => { q with beats := 0, pins := q.pins.each fun _ x => { x with cmp := 0 } }) r)

/-! Mowing and the rewrites of a rotation (11 R310, R311; 09 R250). -/

/-- Whether mowing visits a page: its map bit is set, and it is neither of a test granule nor of a rank that is migrating or
gone. -/
def State.mowsPage (s : State) (p : Nat) : Bool :=
  !s.isTest (pageGran p) && some (granRank (pageGran p)) != s.pool.migration.map (·.rank) &&
    s.rankSt (granRank (pageGran p)) != .retired

/-- The lowest sector of a stack's pass at or after a number. -/
def State.nextMow (s : State) (k from' : Nat) : Option Nat :=
  let lo (p : Nat) : Nat := p * 256 - k * stackSectors
  let listed := (s.pool.wmap.filter fun p => p / (36864 * 32) == k && s.mowsPage p).findSome? fun p =>
    if from' < lo p + 256 then some (max (lo p) from') else none
  let home := (s.pool.metaRank.getD k none).bind fun r =>
    let first := 9216 * 8192 * r
    let n := max first from'
    if n < first + 128 * 8192 && s.mowsPage ((k * stackSectors + n) / 256) && s.firmPage ((k * stackSectors + n) / 256) then some n else none
  match listed, home with
  | some a, some b => some (min a b)
  | a, b => a.or b

/-- A sector that a rotation rewrites: the first of the stack under the old epoch (09 R250). -/
def State.nextRewrite (s : State) (k : Nat) : Option Nat :=
  (s.pool.sectors.find? fun x => x.1 / stackSectors == k && s.oldSector x.1 x.2).map (·.1)

/-- A sector of the old epoch is written again under the new one, its marks kept, and mirrored (09 R250, 16 R433). -/
def State.rewriteSector (s : State) (n : Nat) : State :=
  let m := s.secMeta n
  if !s.oldSector n m then s
  else
    let key := s.writeKey (sectorGran n)
    let s := (s.putSector n { m with epoch := key.1, keyId := key.2, rawErr := [] }).touch n true
    match s.nameSector n with
    | some (_, kind, e, off) =>
      if kind == 1 && s.mirrorsTo e then
        s.mirrorOut e [(off, memRead s.pool.mem (sectorAddr n) 256)] (if m.poison then [off] else []) [] .none
      else s
    | none => s

/-- One sector is mowed: what a read of it makes happen, and no data (11 R310). -/
def State.mowSector (s : State) (n : Nat) (e1 e2 : ReadErr) : State :=
  let s := (s.onDie n e1.onDie).onDie n e2.onDie
  let a := if s.secCond n e1.sym e2.sym == .unc then s.askMirror n e1.sym else (false, s)
  if a.1 then a.2 else (s.readSector n e1.sym e2.sym).2.2.rewriteSector n

/-- Whether a stack's pass is more than 1/64 of the period behind its pace (11 R311). -/
def State.mowLate (s : State) (k : Nat) : Bool :=
  let x := s.stack k
  let period := s.pool.mowPeriod * 2 ^ 20
  x.mowNext * period + stackSectors * period / 64 < (s.dev.tick - x.mowFrom) * stackSectors

/-- Whether mowing may use a slot of a pseudo-channel now: one that no access needs, or, behind its pace, one ahead of the queue
(11 R311); in a class of slots (14 R398). The state with the slot used. -/
def State.mowSlot (s : State) (k n cls : Nat) (ahead : Bool) : Option State :=
  let p := s.pchOf (localSector n)
  if (s.stack k).holds p then none
  else if (s.pch k p).queue.isEmpty || ahead then s.takeSlot k p cls
  else none

/-- MOW_READ: a rewrite of a rotation goes ahead of the pass, in the slots of an isolated tenant where it is its own. A pass that
wraps begins anew. -/
def State.mowRead (s : State) (k : Nat) (e1 e2 : ReadErr) : State :=
  let x := s.stack k
  if !s.stackServes k || x.mowPaused then s
  else match s.nextRewrite k with
    | some n =>
      match s.mowSlot k n (s.slotClass ((s.granOwner (sectorGran n)).getD 0)) true with
      | some s => s.mowSector n e1 e2
      | none => s
    | none =>
      let here := s.nextMow k x.mowNext
      match here.or (s.nextMow k 0) with
      | none => s
      | some m =>
        match s.mowSlot k (deviceSector k m) 0xFFFF (s.mowLate k) with
        | none => s
        | some s =>
          (s.modStack k fun x => { x with
            mowNext := m + 1, mowFrom := if here.isSome then x.mowFrom else s.dev.tick }).mowSector (deviceSector k m) e1 e2

/-- MOW_SET (11 R312). -/
def bodyMowSet : CcpBody := fun c s =>
  let u := bits c.block 31 0
  checked s [ (u != 0 && (u < 5365 || 901222 < u), rRange) ]
    (okEmpty { s with pool.mowPeriod := if u == 0 then 128746 else u })

/-! Error counts and the checker (11 R309, R313). -/

/-- An address log entry (11 Table 11-4). -/
def LogEntry.bytes (e : LogEntry) : List Byte :=
  leBytes (e.tick * 2 ^ 64 + e.count * 2 ^ 48 + e.pin * 2 ^ 42 + e.kind * 2 ^ 40 + e.sector % 2 ^ 28) 16

/-- MEM_ERR_LOG (11 R309, R314): per pseudo-channel the corrected reads and then the on-die reports, the three test counts,
and the log's entries (log 29). -/
def bodyMemErrLog : CcpBody := fun c s =>
  let k := bits c.block 3 0
  let x := s.stack k
  let w (n : Nat) : List Byte := leBytes n 8
  let pchs := (List.range 64).map x.pch
  let body := pchs.flatMap (fun q => w q.corrected) ++ pchs.flatMap (fun q => w q.onDie) ++ w x.testCount.1 ++ w x.testCount.2.1 ++
    w x.testCount.2.2 ++ x.log.flatMap LogEntry.bytes
  okBytes (if bit c.block 8 then s.putStack k { x with log := [] } else s) body

/-- The raw errors that a flip mask puts on the pins of a burst. -/
def flipErr (mask burst : Nat) : RawErr :=
  (List.range 36).filterMap fun p =>
    let e := bits mask (8 * p + 7) (8 * p)
    if e == 0 then none else some (burst, p, e)

/-- CHECKER_TEST (11 R313). -/
def bodyCheckerTest : CcpBody := fun c s =>
  let b := c.block
  let k := bits b 31 28
  let n := deviceSector k (bits b 59 32)
  let g := sectorGran n
  let mask := bits b 383 96
  let stage := bit b 4
  let burst := bits b 7 5
  let tests := (s.pool.grans.filter fun x => x.2.use == .test).length
  if !bit s.ready.stack k then refuse s rNotReady
  else match bits b 1 0 with
  | 0 =>
    checked s
      [ (mask == 0 || (stage && bits mask 287 264 != 0), rRange),
        (!s.granFree g && !s.isTest g, rState),
        ((!s.isTest g && 16 ≤ tests) || s.pool.armed.has k, rf .resource 5) ]
      (let s := if s.isTest g then s else s.setGran g { st := .allocated, use := .test }
       okEmpty { s with pool.armed := s.pool.armed.put k ⟨n, mask, burst, stage⟩ })
  | 1 =>
    if !s.isTest g then refuse s rState
    else
      let s := (s.writeSector n 0 (List.replicate 256 (BitVec.ofNat 8 (bits b 71 64))) false).2
      match s.pool.armed.find k with
      | some a =>
        if a.sector != n then okEmpty s
        else
          let m := s.secMeta n
          let s := s.putSector n (if a.stage then { m with macBad := true } else { m with rawErr := flipErr a.mask a.burst })
          okEmpty { s with pool.armed := s.pool.armed.del k }
      | none => okEmpty s
  | 2 =>
    if !s.isTest g then refuse s rState
    else
      let cond := s.secCond n [] []
      let fixed := match decodeSector (s.secMeta n).rawErr with
        | some d => d.2
        | none => []
      okBytes ((s.readTouch n [] cond).secEffect n cond) ([cond.status.code, fixed.length, maskOf (fixed.map (·.2))].flatMap (leBytes · 8))
  | _ =>
    if !s.isTest g then refuse s rState
    else
      let drop : Bool := (s.pool.armed.find k).any fun a => sectorGran a.sector == g
      let s := (s.zeroGran g).setGran g { st := .free }
      okEmpty ({ s with pool.armed := if drop then s.pool.armed.del k else s.pool.armed }.later [.migrate])

end Sys2Proof.Machine
end

