-- ==== Sys2Proof/Machine/Sleep.lean ====
section
/-! DEFINITION. Sleep.lean: SL3 and SL4, and what wakes the device (15 R420 to R424, 10 R286, R295, R296). -/

namespace Sys2Proof.Machine

/-- Whether the other unit of a pair is in service (15 R422). -/
def State.peerServes (s : State) : Bool :=
  s.pair.enabled && (s.pair.peerIn || s.pair.role == .standby || s.pair.role == .syncing || s.pair.role == .takeover)

/-- What keeps the device from SL3 and SL4 (15 R422). -/
def State.sleepBarred (s : State) : Bool :=
  (s.str.streams.any fun v => !v.2.closed) || (s.seq.windows.any fun w => w.2.state == .opened) || !s.com.dir.isEmpty ||
    !s.pool.checkouts.isEmpty || s.pool.migration.isSome || (s.ten.tenants.any fun t => t.2.sess == .opened && t.2.oldEpoch.isSome) || s.peerServes

/-- The segments that a stack retains at SL4 (10 R295). -/
def State.retained (s : State) (k : Nat) : Nat :=
  let used := s.pool.grans.filter fun x => granStack x.1 == k && (x.2.st == .metadata || x.2.st == .allocated || x.2.st == .quarantine)
  let segs := used.map fun x => x.1 % 36864 / 1152
  let home := match s.pool.metaRank.getD k none with
    | some r => [8 * r]
    | none => []
  Nat.lor (maskOf ((0 :: home ++ segs).foldl insertNum [])) (bits s.pwr.sleepSet 63 32)

/-- A port in DARK, its receiver in light-detect (15 Table 15-9 step 4). -/
def State.portSleep (s : State) (p : Nat) : State :=
  (s.portDown p 4).modPort p fun q => if q.st == .down then { q with st := .dark, downDue := 0 } else q

/-- Steps 2 to 5 of Table 15-9. -/
def State.goSleep (s : State) (four : Bool) : State :=
  let s := (s.ports.map (·.1)).foldl State.portSleep s
  let enter (k : Nat) (x : Stack) : Stack :=
    if bit s.ready.stack k then { x with selfRef := .entering, pasr := if four then s.retained k else x.pasr } else x
  let s := { s with stk.units := s.stk.units.each enter }
  { s with pwr.sleep := if four then .sl4 else .sl3, ready.mgmt := s.ready.mgmt && !four }

/-- SLEEP_ENTER (R422). A command has woken the device before it executes (R423). -/
def bodySleepEnter : CcpBody := fun c s =>
  match bits c.block 2 0 with
  | 0 => if s.pwr.sleep == .active then done s .alreadyComplete else okEmpty s
  | 3 =>
    checked s [ (s.sleepBarred, rState), (s.pwr.sleep != .active, rBusy) ]
      { s, reply := some ⟨0, 0, []⟩, after := fun s => s.goSleep false }
  | 4 =>
    checked s [ (s.sleepBarred, rState), (s.pwr.sleep != .active, rBusy) ]
      { s, reply := some ⟨0, 0, []⟩, after := fun s => s.goSleep true }
  | _ => refuse s rRange

/-- Light arrives at a port after at least 1 ms of darkness, which is 1,562.5 ticks (R423). -/
def State.lightWakes (s : State) (p : Nat) : Bool :=
  (s.port p).lastLight.any fun t => 2 * t + 3125 ≤ 2 * s.dev.tick

/-- WAKE_EVENT (R423). -/
def State.wakeOn (s : State) (w : WakeSource) : State :=
  match w with
  | .light p => if s.lightWakes p then s.wakeByFrame.modPort p fun q => { q with lastLight := none } else s
  | .pattern _ => s.wakeByFrame
  | .ccpFrame p => if (s.eth p).up then s.wakeByFrame else s

/-- FREE granules of segments that were not retained wait for their fill under FILL (10 R296). -/
def State.dropSegments (s : State) : State :=
  if s.dev.initMode then s
  else
    let segs := (List.range 16).flatMap fun k =>
      if bit s.ready.stack k then ((List.range 32).filter fun j => !bit (s.stack k).pasr j).map (32 * k + ·) else []
    let lost (g : Nat) (x : Gran) : Bool := x == { st := .free } && segs.contains (g / 1152) && s.rankSt (granRank g) == .inService
    { s with pool.grans := s.pool.grans.keep fun g x => !lost g x, pool.unfilled := segs.foldl insertNum s.pool.unfilled }

/-- Whether a stack still keeps the device waking: it is in self-refresh, or a full retrain comes before its first access (10 R293,
Table 15-7). -/
def Stack.wakes (x : Stack) : Bool := x.selfRef != .none || x.pchs.any fun q => q.2.fullDue

/-- DOMAIN_WAKE_READY for the device (R420, R421, R424): its stacks have left self-refresh. -/
def State.wakeDevice (s : State) : State :=
  if s.pwr.sleep != .waking || s.dev.halt.isSome || s.stk.units.any fun x => x.2.wakes then s
  else
    let four := !s.ready.mgmt && s.dev.mgmtReset.isNone
    let s := if four then s.dropSegments else s
    let s := { s with pwr.sleep := .active, ready.mgmt := s.ready.mgmt || four }
    s.releaseWaiting

/-- DOMAIN_WAKE_READY (R421). -/
def State.wakeReady (s : State) (d : WakeDomain) : State :=
  match d with
  | .station n => s.wakeStation n
  | .field f => s.wakeField f
  | .device => s.wakeDevice

end Sys2Proof.Machine
end

