-- ==== Sys2Proof/Machine/Boot.lean ====
section
/-! DEFINITION. Boot.lean: cold boot (19 R477, R478, R495), the resets (R481 to R483, 21 R517), the ends of the device (01 R26,
20 R500), stations at cold reset and at a field reset (01 R14, R20), and the Ethernet links (17 R442). -/

namespace Sys2Proof.Machine

/-! What a cold reset keeps (Table 19-4): fuses, flash, the device configuration; the card in its slot; and what stands outside
the device: the JTAG port, the commands that wait and what has left it. -/

/-- Flash and fuses across a cold reset: the slot control record in force is read (R485), a trial ends as failed with the previous
slot (R492), a stage never completes. -/
def Fw.kept (f : Fw) : Fw :=
  let g := f.fresh && f.staging.isNone
  let f := f.readRecord
  let on := f.trial.isSome
  let f := { f with
    mgmtSlot := f.trial.getD f.mgmtSlot
    trial := none
    trialDue := 0
    fresh := g
    staging := none
    activate := none
    live := [] }
  if on then f.writeRecord else f

/-- A cold reset: every field at its value of `State.reset` but what is kept. -/
def State.coldReset (s : State) (phase : Phase) : State :=
  { State.reset with
    dev := { phase, resetN := s.dev.resetN, initMode := s.dev.strap, strap := s.dev.strap, tap := s.dev.tap }
    fw := s.fw.kept
    ten := { hssNext := s.ten.hssNext, hssLimit := s.ten.hssLimit, hssMark := s.ten.hssMark }
    ctl := { ethA := { mac := s.ctl.ethA.mac, modPrs := s.ctl.ethA.modPrs, modInt := s.ctl.ethA.modInt }
             ethB := { mac := s.ctl.ethB.mac, modPrs := s.ctl.ethB.modPrs, modInt := s.ctl.ethB.modInt } }
    stk := { lanes := s.stk.lanes }
    pending := s.pending
    out := s.out
    draws := s.draws }

/-- Steps 1 and 2 of Table 19-1: the slow clock starts at zero and the fuses are read, with a token that takes effect (09
R236). -/
def State.startBoot (s : State) : State :=
  { s.coldReset .keyBoot with fw.unlocked := s.fw.token, fw.token := false }

/-- RESET_N has a level, and XSPI_RESET_N follows it (21 R523). -/
def State.setResetN (s : State) (high : Bool) : State :=
  if s.dev.resetN == high then s else { s with dev.resetN := high }.emit (.xspiResetN high)

/-- RESET_N_ASSERT (21 R517). -/
def State.resetAssert (s : State) : State := (s.coldReset .inReset).setResetN false

/-- VDD_AON_LOSS (21 R517). -/
def State.aonLoss (s : State) : State := { s.coldReset .off with dev.resetN := s.dev.resetN }

/-- COLD_BOOT: RESET_N is released with the reference present, and the strap is sampled (R477, 21 R520). -/
def State.coldBoot (s : State) (strap : Bool) : State :=
  if s.dev.phase == .inReset || s.dev.phase == .off then
    let s := s.startBoot.setResetN true
    { s with dev.initMode := strap, dev.strap := strap }
  else s

/-! Steps 4 and 5. -/

/-- The slot that a component boots from (R478): its recorded slot, or the other one where that is bootable. -/
def Fw.bootSlot (f : Fw) (n : Nat) (ok otherOk : Bool) : Option Nat :=
  if ok && f.fusedSec ≤ (f.slot n).secVer then some n
  else if otherOk && f.bootable (1 - n) && f.fusedSec ≤ (f.slot (1 - n)).secVer then some (1 - n)
  else none

/-- Recovery (R478): the package of the card goes into slot A and the boot starts again, or another cold reset follows. What
the package holds the device alone knows: free values. -/
def State.recover (s : State) (ok : Bool) : State :=
  if !ok then s.startBoot
  else
    let v := s.draw 24
    let d := v.2.draw 384
    let sec := d.2.draw 5
    let s := sec.2.setSlot 0 ⟨.bootable, v.1, max sec.1 s.fw.fusedSec, d.1⟩
    { s with fw.mgmtSlot := 0, fw.keSlot := 0 }.writeSlots.startBoot

/-- One step of an elimination over GF(2). -/
def gfStep (rows : Option (List Nat)) (b : Nat) : Option (List Nat) :=
  rows.bind fun l => (l.find? (bit · b)).map fun r => (l.erase r).map fun x => if bit x b then x ^^^ r else x

/-- Whether ten rows of ten bits form an invertible matrix (10 R282). -/
def gfInvertible (rows : List Nat) : Bool := ((List.range 10).foldl gfStep (some rows)).isSome

/-- The map masks in force (10 R282): the configured ones, or those of Table 10-4 with an event. -/
def State.loadMasks (s : State) : State :=
  match s.fw.live.find 0x05 with
  | none => s
  | some b =>
    let m := (List.range 10).map fun i => leNat (slice b (4 * i) 4)
    if gfInvertible (m.map (bits · 9 0)) && m.all fun x => bits x 31 28 == 0 then
      { s with stk.pc := m.take 6, stk.bk := m.drop 6 }
    else s.recOp 0x020A 0 0 0 0

/-- Ranks at cold reset (06 R150, 11 R321): those recorded are RETIRED, and the fallow ranks are chosen. -/
def State.placeRanks (s : State) : State :=
  let gone (r : Nat) : Bool := (s.rankRecord.getD r 0#8) != 0#8
  let home (k : Nat) : Option Nat := (List.range 4).find? fun j => !gone (4 * k + j)
  let f := match s.fw.live.find 0x03 with
    | some b => if leNat b ≤ 8 then leNat b else 2
    | none => 2
  let named := (List.range f).map fun j => 4 * (16 * j / f) + 3
  let fallow := named.filter fun r => !gone r && home (r / 4) != some 3
  let st (r : Nat) : RankSt := if gone r then .retired else if fallow.contains r then .fallow else .inService
  { s with
    pool.ranks := (List.range 64).map st
    pool.metaRank := (List.range 16).map home
    pool.fallowOf := fallow
    pool.fallowF := fallow.length }

/-- The configuration comes into force (R494, R495, 11 R304, 16 Table 16-2). -/
def State.loadConfig (s : State) (v : BootVerdict) : State :=
  let keep (x : Nat × List Byte) : Bool :=
    (x.1 == 0x10 || x.1 == 0x11 || x.1 == 0x20) && itemFits x.1 x.2.length == some true
  let cfg : Tbl (List Byte) :=
    if v.configOk then s.fw.config
    else ((v.provision.getD []).filter keep).foldl (fun t x => t.put x.1 x.2) []
  let s := { s with fw.config := cfg, fw.live := cfg, ready.config := v.configOk }
  let s := if v.configOk then s else s.recOp 0x0A01 0 0 0 (b2n v.provision.isSome)
  let addr (i : Nat) : List Nat := match cfg.find i with
    | some b => Config.ethAddresses b
    | none => []
  let mode := match cfg.find 0x04 with
    | some b => if v.configOk then bit (leNat b) 0 else s.dev.strap
    | none => s.dev.strap
  let s := { s with
    ctl.ethA.ips := addr 0x10
    ctl.ethB.ips := addr 0x11
    dev.initMode := mode
    fab.nodeId := (cfg.find 0x01).map leNat
    fab.ngen := ((cfg.find 0x02).map leNat).getD 0 % 16 }
  s.loadMasks.placeRanks.pairBoot

/-- KEY_ENGINE_BOOT_DONE: steps 3 to 5 (R477, R478, R495). -/
def State.keBoot (s : State) (v : BootVerdict) : State :=
  if s.dev.phase != .keyBoot || !v.testsOk then s
  else
    match s.fw.bootSlot s.fw.mgmtSlot v.mgmtSlotOk v.mgmtOtherOk, s.fw.bootSlot s.fw.keSlot v.keSlotOk v.keOtherOk with
    | some m, some k =>
      let fell (s : State) (was now : Nat) : State := if was == now then s else s.recOp 0x0002 0 0 0 now
      let same := s.fw.mgmtSlot == m && s.fw.keSlot == k
      let s := fell (fell s s.fw.mgmtSlot m) s.fw.keSlot k
      let s := if same then s else { s with fw.mgmtSlot := m, fw.keSlot := k }.writeSlots
      let s := { s with
        fw.mgmtSlot := m
        fw.keSlot := k
        fw.runMgmt := m
        fw.runKe := k
        ready.keyEngine := true
        dev.phase := .keyUp
        ctl.expActive := 1
        ctl.expStaged := 1 }
      (s.resumeHss v.hssReadable).loadConfig v
    | _, _ => s.recover v.recoverOk

/-- The rails that PMBus telemetry reads, from the configuration (15 R407). -/
def State.loadRails (s : State) : State :=
  match s.fw.live.find 0x30 with
  | none => s
  | some b =>
    let used := (List.range 8).filter fun i => slice b (4 * i) 4 != List.replicate 4 0#8
    { s with pwr.rails := used.map fun i => (i, {}) }

/-- MGMT_START: step 6, and `ngen` advances (R477, 13 R354). -/
def State.mgmtStart (s : State) : State :=
  if s.dev.phase != .keyUp || s.dev.halt.isSome then s
  else
    let g := (s.fab.ngen + 1) % 16
    let s := { s with
      dev.phase := .running
      ready.mgmt := true
      fab.ngen := g
      fw.config := s.fw.config.put 0x02 (leBytes g 1)
      fw.live := s.fw.live.put 0x02 (leBytes g 1) }
    s.loadRails.relevel

/-! Stations (01 R14, R20). -/

/-- The states of a field's positions after station test at cold reset. -/
def bindTested (pass : Nat) : List StnSt :=
  ((List.range 9).foldl (fun (r : Nat × List StnSt) j =>
    if !bit pass j then (r.1, r.2 ++ [.absent])
    else if r.1 < 8 then (r.1 + 1, r.2 ++ [.bound r.1])
    else (r.1, r.2 ++ [.spare])) (0, [])).2

/-- STATION_TEST_DONE. -/
def State.stationTested (s : State) (f pass : Nat) : State :=
  if s.dev.phase != .running || bit s.dev.fieldTested f then s
  else
    let s := (bindTested pass).zipIdx.foldl (fun s x => s.modStation (9 * f + x.2) fun y => { y with st := x.1, idleFrom := s.dev.tick }) s
    let s := { s with dev.fieldTested := setBit s.dev.fieldTested f true, ready.field := setBit s.ready.field f true }
    s.assignStations.bindAll

/-- A field reset begins (01 R20, 19 R483): no new work in the field; what runs ends at its boundary, the rest moves, and open
ledger tiles are spilled. -/
def State.beginFieldReset (s : State) (f : Nat) : State :=
  let s := { s with dev.fieldReset := setBit s.dev.fieldReset f true, ready.field := setBit s.ready.field f false }
  let s := (List.range 9).foldl (fun s j =>
    let n := 9 * f + j
    let s := s.spillAll n
    if (s.station n).run.isNone then s.evacuate n else s.later [.arbitrate n]) s
  s.assignStations

/-- FIELD_RESET_DONE: the spare takes the lowest fenced slot (01 R20). -/
def State.fieldResetDone (s : State) (f pass : Nat) : State :=
  if !bit s.dev.fieldReset f then s
  else
    let s := (List.range 9).foldl (fun s j =>
      let n := 9 * f + j
      let s := if (s.station n).run.isSome then s.evacuate n else s
      match (s.station n).st with
      | .bound _ => if bit pass j then s else s.modStation n fun y => { y with st := .absent }
      | .spare => if bit pass j then s else s.modStation n fun y => { y with st := .absent }
      | _ => s) s
    let here := (List.range 9).map fun j => s.station (9 * f + j)
    let slots := here.filterMap fun x => match x.st with
      | .fenced k => some k
      | _ => none
    let held (k : Nat) : Bool := here.any fun x => x.st == .bound k
    let low := (slots.filter fun k => !held k).foldl (fun (b : Option Nat) k => match b with
      | none => some k
      | some x => some (min x k)) none
    let spare := (List.range 9).find? fun j => (s.station (9 * f + j)).st == .spare
    let s := match low, spare with
      | some k, some j => s.modStation (9 * f + j) fun y => { y with st := .bound k }
      | _, _ => s
    let s := { s with dev.fieldReset := setBit s.dev.fieldReset f false, ready.field := setBit s.ready.field f true }
    s.assignStations.bindAll

/-! Management. -/

/-- MGMT_WATCHDOG_EXPIRY (R482). -/
def State.mgmtWatchdog (s : State) : State :=
  if s.mgmtUp && s.dev.halt.isNone then s.beginMgmtReset 1 else s

/-- MGMT_RESTART_DONE: management returns, and the held records enter their queues (R482, 20 R505). -/
def State.mgmtRestarted (s : State) : State :=
  match s.dev.mgmtReset with
  | none => s
  | some _ => { s with dev.mgmtReset := none, ready.mgmt := true }.releaseHeld

/-! DEVICE_RESET (R481). -/

/-- A port reset (Table 19-4): the port goes down and trains again from DARK at once. -/
def State.portReset (s : State) (p : Nat) : State := (s.portDown p 4).darkNow p

/-- DEVICE_RESET: the response is sent before the reset begins. -/
def bodyDeviceReset : CcpBody := fun c s =>
  let kind := bits c.block 1 0
  let target := bits c.block 13 8
  let go (f : State → State) : CcpOut := { s, reply := some ⟨0, 0, []⟩, after := f }
  checked s
    [ ((kind ≤ 1 && target != 0) || (kind == 2 && 16 ≤ target), rRange),
      (s.fw.activate.isSome || (kind == 2 && bit s.dev.fieldReset target), rBusy),
      (kind == 2 && !bit s.ready.field target, rNotReady) ]
    (match kind with
     | 0 => go State.startBoot
     | 1 => go fun s => s.beginMgmtReset 0
     | 2 => go fun s => s.beginFieldReset target
     | _ => go fun s => s.portReset target)

/-! Ethernet links. -/

def State.setEthReady (s : State) (p : Nat) (on : Bool) : State :=
  if p == 0 then { s with ready.ethA := on } else { s with ready.ethB := on }

/-- ETH_LINK_UP (R442, Table 19-1 step 9): the port is configured. -/
def State.ethUp (s : State) (p : Nat) : State :=
  if s.dev.phase != .running || !s.fw.live.has (0x10 + p) then s
  else
    let e := s.eth p
    (s.putEth p { e with up := true }).setEthReady p (!e.ips.isEmpty)

/-- ETH_LINK_DOWN (R479). -/
def State.ethDown (s : State) (p : Nat) : State :=
  let e := s.eth p
  (s.putEth p { e with up := false }).setEthReady p false

end Sys2Proof.Machine
end

