-- ==== Sys2Proof/Machine/Hubs.lean ====
section
/-! DEFINITION. Hubs.lean: what an accepted request does (13 Table 13-2), and the request queues of the field hubs (14 Table
14-2, R385, R388, R398). -/

namespace Sys2Proof.Machine

/-- An accepted request runs (13 Table 13-2). -/
def State.runRequest (s : State) (r : Req) : State :=
  let op := r.opcode
  if op == 0x01 then s.runOpen r
  else if op == 0x02 || op == 0x03 then s.runEnd r
  else if op == 0x04 then s.runTile r
  else if op == 0x05 then s.runResult r
  else if op ≤ 0x13 then s.runPage r
  else if op ≤ 0x1C then s.runVersion r
  else if op ≤ 0x28 then s.runLine r
  else if op == 0x50 then s.runLinkOpen r
  else s.runLinkClose r

/-- The home station of an atomic (07 R202): the one in service with the lowest logical number in the field of the line's stack, or
else in any (log 192). -/
def State.atomicStation (s : State) (r : Req) : Option Nat :=
  let here := (s.pageAt (bits (leNat (r.p.payload.take 16)) 35 24) r.p.address fun _ => none).map fun g => granStack (pageGran g)
  ((s.serving.find? fun n => here == some (n / 9))).or s.serving.head?

/-- A request begins; an atomic waits for its home station to wake (15 R420, R421). -/
def State.beginRequest (s : State) (r : Req) : State :=
  match (if r.opcode == 0x28 then s.atomicStation r else none) with
  | none => s.runRequest r
  | some n =>
    let x := s.station n
    if !x.sl1 && !bit s.stn.sl2 (n / 9) then s.runRequest r
    else
      let s := s.modStation n fun x => { x with waking := x.waking || x.sl1 }
      let s := if bit s.stn.sl2 (n / 9) then { s with stn.waking := setBit s.stn.waking (n / 9) true } else s
      { s with fab.atomics := s.fab.atomics ++ [(n, r)] }

/-! Hub queues. -/

/-- The bytes that a hub-served request is about: address space, address, and how many sectors it moves. A VERSION request that names
a handle is about the first page of its extent (log 190). -/
def State.hubSpan (s : State) (r : Req) : Option (Nat × Nat × Nat) :=
  let op := r.opcode
  let low := leNat (r.p.payload.take 16)
  let asid := bits low 35 24
  if op == 0x05 then
    (s.seq.windows.find (readNames r).1).map fun w => (wAsid w.desc, wImage w.desc (readNames r).2, ceilDiv w.resBytes 256)
  else if op == 0x13 then some (asid, r.p.address, if bit low 0 then 0 else 256)
  else if 0x10 ≤ op && op ≤ 0x12 then some (asid, r.p.address, 256)
  else if op == 0x18 || op == 0x19 then some (asid, r.p.address, 0)
  else if 0x20 ≤ op && op ≤ 0x28 then some (asid, r.p.address, 1)
  else none

/-- The page of the device that a hub-served request is about first. -/
def State.hubPage (s : State) (r : Req) : Option Nat :=
  match s.hubSpan r with
  | some (asid, va, _) => s.pageAt asid va fun _ => none
  | none =>
    if 0x1A ≤ r.opcode && r.opcode ≤ 0x1C then
      (s.pool.handles.find (vhandleOf (leNat (r.p.payload.take 16)))).map fun h => s.framePage h.extent 0 none
    else none

/-- The sectors of the device that a request moves. -/
def State.hubSectors (s : State) (r : Req) : List Nat :=
  match s.hubSpan r with
  | none => []
  | some (asid, va, n) => (List.range n).filterMap fun i =>
      (s.pageAt asid (va + 256 * i) fun _ => none).map fun g => 256 * g + (va / 256 + i) % 256

/-- A request has been accepted: it enters the hub queue of the field whose stack holds what it is about (Table 14-2, 10 R281). One
that its address leads nowhere, and one that no hub serves, runs at once. -/
def State.acceptRequest (s : State) (r : Req) : State :=
  match s.hubPage r with
  | none => s.beginRequest r
  | some g =>
    let f := granStack (pageGran g)
    let who := s.serviceOf r
    let use : HubUse := ⟨f, who.1, who.2, ((s.hubSpan r).map (·.2.2)).getD 0⟩
    let e : HubEntry :=
      { r := { r with hub := some use }, use, since := s.dev.tick, order := s.sch.hubNext
        need := if s.isolated who.1 then s.hubSectors r else [] }
    { s with
      sch.hubs := s.sch.hubs.put f (s.sch.hubs.findD f [] ++ [e])
      sch.hubNext := s.sch.hubNext + 1 }.later [.hub f]

/-- An entry of a hub queue as the point's `pick` sees it. -/
def HubEntry.entry (e : HubEntry) : Entry :=
  { id := e.order, sub := e.use.sub, svc := e.use.svc, since := e.since, order := e.order, green := !e.r.yellow }

/-- The entries of a queue that a choice picks from. -/
def State.pickHub (s : State) (f : Nat) (l : List HubEntry) : Option HubEntry :=
  (s.pickEntry (256 + f) (l.map HubEntry.entry)).bind fun e => l.find? (·.order == e.id)

/-- An entry leaves its queue and runs. -/
def State.startHub (s : State) (f : Nat) (e : HubEntry) : State :=
  let l := (s.sch.hubs.findD f []).filter (·.order != e.order)
  let s := { s with sch.hubs := if l.isEmpty then s.sch.hubs.del f else s.sch.hubs.put f l }
  let s := s.leaveQueue 1 f e.use.sub e.since
  (if l.isEmpty then s else s.later [.hub f]).beginRequest e.r

/-- Slots that a class gets for sectors, and the sectors for which none is left in this window (R398). -/
def State.takeSlots (s : State) (cls : Nat) : List Nat → List Nat × State
  | [] => ([], s)
  | n :: rest =>
    match s.takeSlot (granStack (sectorGran n)) (s.pchOf (localSector n)) cls with
    | some s => s.takeSlots cls rest
    | none => let x := s.takeSlots cls rest
              (n :: x.1, x.2)

/-- An isolated tenant's own queue: the first of its entries runs once it has a stack slot for every sector it moves (R398). -/
def State.serveIsolated (s : State) (f t : Nat) : State :=
  match s.pickHub f ((s.sch.hubs.findD f []).filter (·.use.sub == t)) with
  | none => s
  | some e =>
    let x := s.takeSlots t e.need
    if x.1.isEmpty then x.2.startHub f e
    else
      { x.2 with sch.hubs := x.2.sch.hubs.adjust f fun l => l.map fun y => if y.order == e.order then { y with need := x.1 } else y }

/-- A decision of a hub queue (R388): of the entries of tenants that are not isolated the one that `pick` takes, and of every isolated
tenant's own queue. -/
def State.serveHub (s : State) (f : Nat) : State :=
  let shared := (s.sch.hubs.findD f []).filter fun e => !s.isolated e.use.sub
  let own := s.sch.iso.map (·.1)
  let s := match s.pickHub f shared with
    | some e => s.startHub f e
    | none => s
  own.foldl (fun s t => s.serveIsolated f t) s

/-- A hub queue with entries whose subscribers have all spent their shares lets its round pass idle: in a tick as many sectors as its
stack's pseudo-channels carry (R380, R389, log 190). -/
def State.idleHubs (s : State) : State :=
  s.sch.hubs.foldl (fun s x =>
    let s := if x.2.any fun e => !s.isolated e.use.sub then s.chargeUnits (256 + x.1) 65536 0 (80 * s.stackRate x.1) else s
    s.later [.hub x.1]) s

end Sys2Proof.Machine
end

