-- ==== Sys2Proof/Machine/Wire.lean ====
section
/-! DEFINITION. Wire.lean: the byte forms of headers on the wire (00 R6: packet, flit and CCP headers are big-endian): link headers
and flits (12 R326, R327), CCP headers (17 R444). -/

namespace Sys2Proof.Machine

/-! Flits. -/

/-- The link header as a number (12 Table 12-3). -/
def linkHeader (f : Flit) : Nat :=
  f.seq * 2 ^ 52 + f.ackSeq * 2 ^ 40 + b2n f.ackValid * 2 ^ 39 + b2n f.nak * 2 ^ 38 + f.keyPhase * 2 ^ 37 + f.ftype * 2 ^ 35 +
    f.vc * 2 ^ 32 + b2n f.pktFirst * 2 ^ 31 + b2n f.pktLast * 2 ^ 30 + f.payLenM1 * 2 ^ 22 + f.creditVc * 2 ^ 19 +
    f.creditTotal * 2 ^ 8 + f.txNum

/-- Bytes 0 to 7 of a flit. -/
def linkHeaderBytes (f : Flit) : List Byte := beBytes (linkHeader f) 8

/-- The fields of a link header in a flit that comes with a payload and the receiver's verdicts. -/
def readLinkHeader (b : List Byte) (f : Flit) : Flit :=
  let h := leNat (b.take 8).reverse
  { f with
    seq := bits h 63 52, ackSeq := bits h 51 40, ackValid := bit h 39, nak := bit h 38, keyPhase := bits h 37 37
    ftype := bits h 36 35, vc := bits h 34 32, pktFirst := bit h 31, pktLast := bit h 30, payLenM1 := bits h 29 22
    creditVc := bits h 21 19, creditTotal := bits h 18 8, txNum := bits h 7 0 }

/-- The counter of a flit's IV (12 R327): of an idle flit, or of a data or control flit with its extended sequence number. -/
def flitCounter (f : Flit) (e : Nat) : Nat := if f.ftype == 0 then 2 ^ 63 + f.idleCount else e * 256 + f.txNum

/-- The 96-bit IV of a flit: the direction's salt, then the counter, both big-endian (12 R327). -/
def flitIv (salt : Nat) (f : Flit) (e : Nat) : List Byte := beBytes salt 4 ++ beBytes (flitCounter f e) 8

/-- The payload field of a flit: in an idle flit its `idle_count`, big-endian; zeros beyond what it carries (12 Table 12-2, R327). -/
def flitField (mode : Nat) (f : Flit) : List Byte :=
  padTo (if f.ftype == 0 then beBytes f.idleCount 8 else f.payload) (flitMax mode)

/-- One byte into the CRC-32 of IEEE 802.3, kept reflected (12 R327). -/
def crc32Byte (crc : Nat) (b : Byte) : Nat :=
  (List.range 8).foldl (fun c _ => if c % 2 == 1 then Nat.xor (c / 2) 0xEDB88320 else c / 2) (Nat.xor crc b.toNat)

/-- The CRC-32 of a sequence of bytes (12 R327). -/
def crc32 (l : List Byte) : Nat := Nat.xor (l.foldl crc32Byte 0xFFFFFFFF) 0xFFFFFFFF

/-- A flit on the wire, from its protected field and its tag of 12 bytes, zero before a session: header, field, tag, CRC, whose
least significant byte goes first (12 Table 12-2, Table 12-9, R327, log 189). -/
def flitWire (f : Flit) (field tag : List Byte) : List Byte :=
  let l := linkHeaderBytes f ++ field ++ padTo tag 12
  l ++ leBytes (crc32 l) 4

/-- The field and the tag of a flit under a key and its salt (12 R327): an idle flit is authenticated, any other encrypted too. -/
def flitSealed (key : List Byte) (salt mode : Nat) (f : Flit) (e : Nat) : List Byte × List Byte :=
  let iv := flitIv salt f e
  let h := linkHeaderBytes f
  let field := flitField mode f
  if f.ftype == 0 then (field, ((gcm key iv (h ++ field) []).2).take 12)
  else
    let x := gcm key iv h field
    (x.1, x.2.take 12)

/-- The 72 bytes that the two ends of a port derive: the lower-to-higher key and salt, then the higher-to-lower ones (09 R252, 12
Table 12-6). -/
def portKeys (ecdh kem chains transcript : List Byte) : List Byte :=
  hkdf384 (ecdh ++ kem) (sha384Bytes chains) ("KZ3-PORT".toList.map (fun c => BitVec.ofNat 8 c.toNat) ++ transcript) 72

/-! The optical port (12 R322, R323, R336). -/

/-- The frequency of wavelength k in GHz: the 400 GHz grid from 231.4 THz (Table 12-1). -/
def wavelengthGHz (k : Nat) : Nat := 231400 + 400 * k

/-- The payload rate of a port over `w` wavelengths in Gb/s (Table 12-1). -/
def payloadGbps (w : Nat) : Nat := 200 * w

/-- The wavelength that carries block `i` of 80 bits of the flit stream (R323). -/
def stripeLane (w i : Nat) : Nat := i % w

/-- The time after which a port replays, in ns: the configured one, but no less than the round trip allows (R336). -/
def Port.replayNs (q : Port) : Nat := max (100 * q.replayTo) (q.tNs + 10 * q.ackTimer + 400)

/-! CCP frames. -/

/-- The CCP header as a number (17 Table 17-2). -/
def ccpHeader (f : CcpFrame) : Nat :=
  f.ccpVer * 2 ^ 252 + f.ftype * 2 ^ 248 + b2n f.first * 2 ^ 247 + b2n f.last * 2 ^ 246 + f.rsvd * 2 ^ 240 + f.session * 2 ^ 224 +
    f.seq * 2 ^ 192 + f.cmdId * 2 ^ 176 + f.frag * 2 ^ 160 + f.opcode * 2 ^ 144 + f.mailbox * 2 ^ 136 + f.status * 2 ^ 128 +
    f.reason * 2 ^ 112 + f.length * 2 ^ 96 + f.total * 2 ^ 64 + f.bulkOff

/-- The 32 header bytes of a CCP frame. -/
def ccpHeaderBytes (f : CcpFrame) : List Byte := beBytes (ccpHeader f) 32

/-- The 72 bytes that a CCP handshake derives from its secrets and the bodies of its two HELLO messages: the requester-to-device key and
salt, then the device-to-requester ones (17 R447). -/
def ccpKeys (ecdh kem hellos : List Byte) : List Byte :=
  hkdf384 (ecdh ++ kem) (sha384Bytes hellos) ("KZ3-CCP".toList.map fun c => BitVec.ofNat 8 c.toNat) 72

/-- A frame of a session as a UDP payload: header, encrypted body, tag (17 R446). -/
def ccpSealed (key : List Byte) (salt : Nat) (f : CcpFrame) : List Byte :=
  let x := gcm key (beBytes salt 4 ++ beBytes f.seq 8) (ccpHeaderBytes f) f.body
  ccpHeaderBytes f ++ x.1 ++ x.2

/-- The frame that a UDP payload on an Ethernet port carries, in an Ethernet class, with the verdict on its tag (17 R444). A body
ends where `length` says, and the tag follows it. -/
def readCcp (port cls : Nat) (tagOk : Bool) (b : List Byte) : CcpFrame :=
  let h := leNat (b.take 32).reverse
  { port, cls, tagOk
    ccpVer := bits h 255 252, ftype := bits h 251 248, first := bit h 247, last := bit h 246, rsvd := bits h 245 240
    session := bits h 239 224, seq := bits h 223 192, cmdId := bits h 191 176, frag := bits h 175 160, opcode := bits h 159 144
    mailbox := bits h 143 136, status := bits h 135 128, reason := bits h 127 112, length := bits h 111 96
    total := bits h 95 64, bulkOff := bits h 63 0, body := (b.drop 32).take (bits h 111 96) }

end Sys2Proof.Machine
end

