-- ==== Sys2Proof/Machine/Inbound.lean ====
section
/-! DEFINITION. Inbound.lean: a packet that comes in whole on a port, whatever it is (13 R349 to R376). -/

namespace Sys2Proof.Machine

/-- What stands in a packet beside its bytes: what its operands say where a row of the table names them, and otherwise
what the bytes say (log 8, log 24). -/
structure Inner where
  pair  : Option (Nat × PairMsg) := none
  link  : Option LinkOpen := none
  sigOk : Bool := true
  deriving DecidableEq, Repr

/-- What the payload of a packet says. -/
def innerOf (op : Nat) (p : Packet) : Inner :=
  { pair := pairMsgOf op p.payload
    link := Config.linkOpen p.payload
    sigOk := Config.sigVerdict p.payload }

/-- A packet addressed to this device (R352, R353, R356; 16 R432). A request that comes while the device wakes stays in its
receive buffer (15 R421), but for a new stream or checkout, which is refused (15 Table 15-9 step 1). -/
def State.deliverIn (s : State) (op : Nat) (p : Packet) (x : Inner) : State :=
  if 0x70 ≤ op && op ≤ 0x7F then s.pairIn op p x.pair
  else if op == 0x40 then if s.isLease p then s.leaseIn p x.sigOk else s.completionIn p
  else if op == 0x41 then (s.heard p.src).snoopResponse p (.data p.payload)
  else if op == 0x42 then (s.heard p.src).snoopResponse p .clean
  else if op == 0x43 then (s.heard p.src).snoopResponse p .absent
  else if op == 0x60 then s
  else
    let p := if op == 0x50 then { p with payload := (x.link.map LinkOpen.bytes).getD [] } else p
    if s.pwr.sleep != .active && (op == 0x01 || op == 0x12) then s.answer { opcode := op, p } .busyRetry
    else if s.pwr.sleep != .active then { s with fab.waiting := s.fab.waiting ++ [{ opcode := op, p }] } else s.classify op p

/-- A packet comes in whole on a port. -/
def State.packetIn (s : State) (op : Nat) (p : Packet) (x : Inner) : State :=
  match s.arrive op p with
  | (.gone, _, s) => s
  | (.mcast, p, s) => s.mcastIn op p
  | (.transit, p, s) => s.transitIn op p
  | (.here, p, s) => s.deliverIn op p x

end Sys2Proof.Machine
end

