-- ==== Sys2Proof/Machine/Status.lean ====
section
/-! DEFINITION. Status.lean: the capability report (18 R474), the READY map (19 R479), event records (20 R501 to R506) and
counters (R507). -/

namespace Sys2Proof.Machine

/-! The capability report. -/

/-- How the station map codes a position (01 Table 1-2). -/
def StnSt.code : StnSt → Nat
  | .absent => 0
  | .bound k => 8 + k
  | .spare => 16
  | .fenced k => 24 + k

/-- The station map of a field (01 Table 1-2); zero while its READY bit is clear. -/
def State.stationMap (s : State) (f : Nat) : Nat :=
  if !bit s.ready.field f then 0
  else
    let l := (List.range 9).map fun j => (s.station (9 * f + j)).st
    let pos := l.zipIdx.foldl (fun n x => n + x.1.code * 2 ^ (5 * x.2)) 0
    let n := (l.filter fun x => x.code / 8 == 1).length
    pos + n * 2 ^ 45 + b2n (l.contains .spare) * 2 ^ 49

/-- Bound stations of the device (01 R15). -/
def State.boundCount (s : State) : Nat := sumOf ((List.range 16).map fun f => bits (s.stationMap f) 48 45)

/-- CAPABILITY_QUERY (Tables 18-5, 18-6a, 18-6b). -/
def bodyCapabilityQuery : CcpBody := fun _ s =>
  let n := s.boundCount
  let ident := (s.fab.nodeId.getD 0) * 2 ^ 48 + s.fab.ngen * 2 ^ 44 + n * 2 ^ 32 + s.ctl.expActive * 2 ^ 16 + s.ctl.expStaged
  let cap := n * 1792 * 2 ^ 32 + n * 112 * 2 ^ 16 + s.pool.fallowF * 2 ^ 12 + b2n s.dev.initMode * 2 ^ 8 + 3
  okBytes s (leBytes ident 8 ++ ((List.range 16).flatMap fun f => leBytes (s.stationMap f) 8) ++
    ((List.range 5).flatMap fun l => leBytes (curveEntry l) 4) ++ leBytes 0 4 ++ leBytes s.fw.thermal 8 ++
    leBytes Config.identityHash.toNat 48 ++ leBytes cap 8 ++ leBytes 0 32)

/-- The READY map (Table 19-2). -/
def Ready.map (r : Ready) : Nat :=
  r.port + r.stack * 2 ^ 64 + r.field * 2 ^ 80 + b2n r.mgmt * 2 ^ 96 + b2n r.keyEngine * 2 ^ 97 + b2n r.ethA * 2 ^ 98 +
    b2n r.ethB * 2 ^ 99 + b2n r.config * 2 ^ 100 + b2n r.pairLink * 2 ^ 101

/-- READY_QUERY. -/
def bodyReadyQuery : CcpBody := fun _ s => okBytes s (leBytes s.ready.map 16)

/-! Event records. -/

/-- The 32 bytes of a record (Table 20-4). -/
def EvRec.word (r : EvRec) : Nat :=
  r.tick * 2 ^ 192 + r.seq * 2 ^ 160 + r.code * 2 ^ 144 + r.lost * 2 ^ 128 + r.kind * 2 ^ 120 + r.subject * 2 ^ 96 +
    r.arg0 * 2 ^ 32 + r.arg1

/-- Removal up to `ack` (R506): a head takes its continuations with it. -/
def EvQueue.ackTo (q : EvQueue) (ack : Nat) : EvQueue :=
  match q.recs with
  | [] => q
  | r :: _ =>
    let dist (n : Nat) : Nat := (n + 2 ^ 32 - r.seq) % 2 ^ 32
    if 2 ^ 31 ≤ dist ack then q
    else { q with recs := (q.recs.dropWhile fun x => dist x.seq ≤ dist ack).dropWhile fun x => x.code == 0xFFFF }

/-- EVENT_READ (R506). -/
def bodyEventRead : CcpBody := fun c s =>
  let b := c.block
  let turn (q : EvQueue) : EvQueue := if bit b 8 then q.ackTo (bits b 63 32) else q
  let ans (q : EvQueue) : List Byte :=
    leBytes q.recs.length 8 ++ (q.recs.take (bits b 7 0 + 1)).flatMap fun r => leBytes r.word 32
  if c.isOp then
    let q := turn s.log.op
    okBytes { s with log.op := q } (ans q)
  else
    match s.log.ten.find c.tenant with
    | none => okBytes s (ans {})
    | some q =>
      let q := turn q
      okBytes { s with log.ten := s.log.ten.put c.tenant q } (ans q)

/-! Counters. -/

/-- The refusal of a combination that R507 does not list. -/
def statsSender (c : CcpCtx) (sub set : Nat) : Option Refuse :=
  if c.isOp then
    if (set == 0 && sub != 0 && sub != 0xFFFF) || (set == 3 && sub == 0) then none else some rPolicy
  else if sub == c.tenant && set != 3 then none
  else some rForeign

/-- STATS_QUERY (R507). -/
def bodyStatsQuery : CcpBody := fun c s =>
  let b := c.block
  let sub := bits b 63 48
  let set := bits b 41 40
  let idx := bits b 39 24
  let clear := bit b 8
  let ans (s : State) (l : List Nat) : CcpOut := okBytes s (l.flatMap fun n => leBytes n 8)
  match statsSender c sub set with
  | some r => refuse s r
  | none =>
    match set with
    | 0 =>
      if idx != 0 then refuse s rRange
      else if !s.ten.tenants.has sub then refuse s rNoObject
      else
        let l := s.stats.ten.findD sub (List.replicate 9 0)
        ans (if clear then { s with stats.ten := s.stats.ten.del sub } else s) l
    | 1 => match s.ten.links.find idx with
      | none => refuse s rObject
      | some l =>
        if l.tenant != sub then refuse s rObject
        else ans (if clear then s.putLink idx { l with refusals := 0 } else s) [l.refusals]
    | 2 =>
      if idx == 0 || 15 < idx then refuse s rObject
      else match s.seq.cadence.find idx with
        | none => ans s [0, 0]
        | some v =>
          if cdTenant v.block != sub then refuse s rForeign
          else ans (if clear then s.putCadence idx { v with last := 0, short := 0 } else s) [v.last, v.short]
    | _ =>
      if idx != 0 then refuse s rRange
      else ans (if clear then { s with stats.dev := List.replicate 12 0 } else s) s.stats.dev

end Sys2Proof.Machine
end

