-- ==== Sys2Proof/Machine/Specs.lean ====
section
/-! DEFINITION. Specs.lean: the rows of 18 Table 18-6, one specification for each opcode, and the table by opcode. -/

namespace Sys2Proof.Machine

/-! Fields refused in older sessions (18 Table 18-2). -/

def oldSpace (ver b : Nat) : Bool := ver == 1 && (bits b 147 128 != 0 || bits b 111 64 != 0 || bits b 175 160 != 0)
def oldExtent (ver b : Nat) : Bool := ver ≤ 2 && (bits b 10 7 != 0 || bits b 175 160 != 0)
def oldWindow (ver b : Nat) : Bool :=
  ver == 2 && (bits b 5 4 != 0 || bit b 11 || bit b 10 || bits b 127 96 != 0 || bits b 267 256 != 0 || bits b 279 268 != 0)

/-- The recipe steps of a STREAM_CREATE block. -/
def blockSteps (b : Nat) : List Nat := (List.range (bits b 5 4 + 1)).map fun i => bits b (512 + 256 * i + 255) (512 + 256 * i)

def oldStream (ver b : Nat) : Bool :=
  ver == 2 && (bits b 14 12 == 1 || (blockSteps b).any fun w => rsKind w == kScore || rsKind w == kBlend || rsKind w == kVector || rsRounding w)
def oldPower (ver b : Nat) : Bool :=
  (ver ≤ 2 && (bits b 70 64 != 0 || bits b 63 57 != 0)) || (ver == 1 && bits b 86 71 != 0)

/-! Reserved fields of what a block nests. -/

def streamReserved (b : Nat) : Bool := headReserved (b % 2 ^ 512) || (blockSteps b).any stepReserved
def routeReserved (b : Nat) : Bool := (List.range (bits b 39 32 + 1)).any fun i => bit b (32 * i + 95)
def progReserved (b : Nat) : Bool := ((List.range (progLen b)).map (progOp b)).any opReserved || b / 2 ^ (384 + 32 * progLen b) != 0
def diagReserved (b : Nat) : Bool := bits b 1 0 == 1 && (bits b 80 72 != 0 || bits b 66 65 != 0)

/-! The rows. -/

def ccpCloseSpec : CcpSpec :=
  { opcode := 0x0003, first := 1, op := true, tn := true, kind := .session, len := lenIs 0, resv := [] }
def mbxDropSpec : CcpSpec :=
  { opcode := 0x0004, first := 2, op := true, tn := true, kind := .session, len := lenIs 8, resv := [(63, 16)] }
def ethSetSpec : CcpSpec :=
  { opcode := 0x0005, first := 1, op := true, tn := false, kind := .unit,
    len := lenIs 16, resv := [(99, 96), (79, 72), (61, 2)] }
def capabilityQuerySpec : CcpSpec :=
  { opcode := 0x0010, first := 1, op := true, tn := true, kind := .query, len := lenIs 0, resv := [] }
def readyQuerySpec : CcpSpec :=
  { opcode := 0x0011, first := 3, op := true, tn := true, kind := .query, len := lenIs 0, resv := [] }
def expTableQuerySpec : CcpSpec :=
  { opcode := 0x0012, first := 3, op := true, tn := true, kind := .query, len := lenIs 0, resv := [] }
def deviceResetSpec : CcpSpec :=
  { opcode := 0x0020, first := 1, op := true, tn := false, kind := .unit, len := lenIs 8, resv := [(63, 14), (7, 2)] }
def spdmSpec : CcpSpec :=
  { opcode := 0x0100, first := 2, op := true, tn := true, kind := .session, len := fun _ t => decide (4 ≤ t), resv := [] }
def tenantCreateSpec : CcpSpec :=
  { opcode := 0x0101, first := 1, op := true, tn := false, kind := .object, len := lenIs 64, resv := [(63, 16)] }
def tenantDeleteSpec : CcpSpec := objSpec 0x0102 1 true false .object
def tenantSessionEndSpec : CcpSpec :=
  { opcode := 0x0103, first := 1, op := false, tn := true, kind := .unit, len := lenIs 0, resv := [] }
def tenantEvictSpec : CcpSpec := objSpec 0x0104 1 true false .object
def keyRotateSpec : CcpSpec :=
  { opcode := 0x0105, first := 2, op := false, tn := true, kind := .unit, len := lenIs 0, resv := [] }
def admitSpec : CcpSpec :=
  { opcode := 0x0110, first := 2, op := false, tn := true, kind := .object, len := lenIs 64, resv := [(63, 1)] }
def setLoadSpec : CcpSpec := objSpec 0x0120 3 false true .object
def setDeleteSpec : CcpSpec := objSpec 0x0121 3 false true .object
def weightImportBeginSpec : CcpSpec :=
  { opcode := 0x0122, first := 3, op := false, tn := true, kind := .object,
    len := fun b t => t == 64 + 1792 * (bits b 143 128 + 1), resv := [(511, 256), (159, 144), (47, 4)] }
def weightImportEndSpec : CcpSpec := objSpec 0x0123 3 false true .object
def weightImportBindSpec : CcpSpec :=
  { opcode := 0x0124, first := 3, op := false, tn := true, kind := .object, len := lenIs 8, resv := [(63, 21)] }
def reserveSetSpec : CcpSpec :=
  { opcode := 0x0201, first := 1, op := true, tn := false, kind := .object, len := lenIs 16, resv := [(127, 84), (63, 16)] }
def capacityQuerySpec : CcpSpec :=
  { opcode := 0x0202, first := 1, op := true, tn := true, kind := .query, len := lenIs 0, resv := [] }
def spaceCreateSpec : CcpSpec :=
  { opcode := 0x0210, first := 1, op := false, tn := true, kind := .object,
    len := lenIs 32, resv := [(191, 176), (159, 148), (127, 112), (63, 4)], old := oldSpace }
def spaceDeleteSpec : CcpSpec := objSpec 0x0211 1 false true .object
def extentCreateSpec : CcpSpec :=
  { opcode := 0x0220, first := 1, op := false, tn := true, kind := .object,
    len := lenIs 32, resv := [(191, 176), (159, 144), (127, 84), (63, 40), (31, 14), (11, 11), (6, 4)], old := oldExtent }
def extentEnableSpec : CcpSpec := objSpec 0x0221 1 false true .object
def extentDeleteSpec : CcpSpec := objSpec 0x0222 1 false true .object
def extentQuerySpec : CcpSpec := objSpec 0x0223 1 true true .query
def extentReclaimSpec : CcpSpec := objSpec 0x0224 1 true false .object
def extentMapSpec : CcpSpec :=
  { opcode := 0x0230, first := 1, op := false, tn := true, kind := .object, len := lenIs 16, resv := [(39, 36), (23, 18)] }
def extentUnmapSpec : CcpSpec :=
  { opcode := 0x0231, first := 1, op := false, tn := true, kind := .object, len := lenIs 16, resv := [(79, 36), (23, 16)] }
def l2PartitionSpec : CcpSpec :=
  { opcode := 0x0240, first := 3, op := true, tn := false, kind := .object, len := lenIs 8, resv := [(63, 32)] }
def commonCreateSpec : CcpSpec :=
  { opcode := 0x0301, first := 3, op := false, tn := true, kind := .object,
    len := lenIs 16, resv := [(63, 48), (39, 33), (15, 4)] }
def commonEnableSpec : CcpSpec := objSpec 0x0302 3 false true .object
def commonDeleteSpec : CcpSpec := objSpec 0x0303 3 false true .object
def dirPartitionSpec : CcpSpec :=
  { opcode := 0x0310, first := 3, op := true, tn := false, kind := .object, len := lenIs 8, resv := [(63, 32)] }
def streamCreateSpec : CcpSpec :=
  { opcode := 0x0401, first := 2, op := false, tn := true, kind := .object,
    len := fun b t => t == 64 + 32 * (bits b 5 4 + 1), resv := [], also := streamReserved, old := oldStream }
def streamCloseCcpSpec : CcpSpec :=
  { opcode := 0x0402, first := 2, op := false, tn := true, kind := .object, len := lenIs 8, resv := [(63, 24), (15, 14)] }
def streamAbortCcpSpec : CcpSpec :=
  { opcode := 0x0403, first := 2, op := false, tn := true, kind := .object, len := lenIs 8, resv := [(63, 24), (15, 14)] }
def streamPrioritySpec : CcpSpec :=
  { opcode := 0x0404, first := 3, op := false, tn := true, kind := .object, len := lenIs 8, resv := [(63, 27), (15, 14)] }
def formatLoadSpec : CcpSpec :=
  { opcode := 0x0410, first := 2, op := true, tn := false, kind := .object,
    len := lenIs 16, resv := [(127, 69), (63, 60), (11, 11), (5, 3)] }
def vectorProgLoadSpec : CcpSpec :=
  { opcode := 0x0411, first := 3, op := false, tn := true, kind := .object,
    len := lenIs 176, resv := [(127, 21), (7, 0)], also := progReserved }
def windowCreateSpec : CcpSpec :=
  { opcode := 0x0420, first := 2, op := false, tn := true, kind := .object,
    len := lenIs 64, resv := [(511, 384), (319, 280), (191, 176), (63, 60), (47, 44), (23, 17)], old := oldWindow }
def windowEnableSpec : CcpSpec := objSpec 0x0421 2 false true .object
def windowAbortSpec : CcpSpec := objSpec 0x0422 2 false true .object
def windowRetireSpec : CcpSpec := objSpec 0x0423 2 false true .object
def windowDeleteSpec : CcpSpec := objSpec 0x0424 2 false true .object
def windowQuerySpec : CcpSpec := objSpec 0x0425 2 false true .query
def seqCreateSpec : CcpSpec :=
  { opcode := 0x0430, first := 3, op := false, tn := true, kind := .object,
    len := lenIs 64, resv := [(351, 304), (255, 240), (159, 104), (99, 97), (95, 94), (87, 84), (75, 72), (63, 60), (47, 4)] }
def seqEnableSpec : CcpSpec := objSpec 0x0431 3 false true .object
def seqTruncateSpec : CcpSpec :=
  { opcode := 0x0432, first := 3, op := false, tn := true, kind := .object, len := lenIs 8, resv := [(31, 16)] }
def seqDisableSpec : CcpSpec := objSpec 0x0433 3 false true .object
def seqDeleteSpec : CcpSpec := objSpec 0x0434 3 false true .object
def seqQuerySpec : CcpSpec := objSpec 0x0435 3 false true .query
def portSetSpec : CcpSpec :=
  { opcode := 0x0501, first := 2, op := true, tn := false, kind := .unit,
    len := lenIs 8, resv := [(47, 46), (27, 18), (15, 9), (7, 6)] }
def portQuerySpec : CcpSpec := objSpec 0x0502 2 true false .query
def routeSetSpec : CcpSpec :=
  { opcode := 0x0510, first := 2, op := true, tn := false, kind := .unit,
    len := fun b t => t == 8 + 4 * (bits b 39 32 + 1), resv := [(47, 40), (31, 1)], also := routeReserved }
def routeEpochSpec : CcpSpec :=
  { opcode := 0x0511, first := 2, op := true, tn := false, kind := .unit, len := lenIs 8, resv := [(63, 16), (7, 1)] }
def routeQuerySpec : CcpSpec :=
  { opcode := 0x0512, first := 2, op := true, tn := false, kind := .query, len := lenIs 0, resv := [] }
def mcastSetSpec : CcpSpec :=
  { opcode := 0x0520, first := 2, op := true, tn := false, kind := .unit, len := lenIs 16, resv := [(127, 77)] }
def policeSetSpec : CcpSpec :=
  { opcode := 0x0601, first := 2, op := true, tn := true, kind := .object, len := lenIs 16, resv := [(31, 18)] }
def schedSetSpec : CcpSpec :=
  { opcode := 0x0602, first := 2, op := true, tn := false, kind := .object, len := lenIs 8, resv := [(47, 44), (9, 0)] }
def arbSetSpec : CcpSpec :=
  { opcode := 0x0603, first := 3, op := true, tn := false, kind := .object, len := lenIs 8, resv := [(31, 3)] }
def isolateSetSpec : CcpSpec :=
  { opcode := 0x0604, first := 3, op := true, tn := false, kind := .object, len := lenIs 8, resv := [(24, 1)] }
def cadenceSetSpec : CcpSpec :=
  { opcode := 0x0605, first := 3, op := true, tn := false, kind := .object,
    len := lenIs 16, resv := [(127, 112), (63, 42), (31, 9), (7, 4)] }
def histQuerySpec : CcpSpec :=
  { opcode := 0x0610, first := 2, op := true, tn := true, kind := .query, len := lenIs 8, resv := [(47, 42), (39, 9)] }
def powerSetSpec : CcpSpec :=
  { opcode := 0x0701, first := 1, op := true, tn := false, kind := .unit,
    len := lenIs 16, resv := [(50, 0)], old := oldPower }
def powerQuerySpec : CcpSpec :=
  { opcode := 0x0702, first := 1, op := true, tn := false, kind := .query, len := lenIs 0, resv := [] }
def sleepSetSpec : CcpSpec :=
  { opcode := 0x0710, first := 2, op := true, tn := false, kind := .unit, len := lenIs 8, resv := [(23, 2)] }
def sleepEnterSpec : CcpSpec :=
  { opcode := 0x0711, first := 2, op := true, tn := false, kind := .unit, len := lenIs 8, resv := [(63, 3)] }
def pairSetSpec : CcpSpec :=
  { opcode := 0x0801, first := 3, op := true, tn := false, kind := .unit,
    len := lenIs 128, resv := [(143, 128), (103, 3), (1, 1)] }
def pairQuerySpec : CcpSpec :=
  { opcode := 0x0802, first := 3, op := true, tn := false, kind := .query, len := lenIs 0, resv := [] }
def fwStageSpec : CcpSpec :=
  { opcode := 0x0901, first := 1, op := true, tn := false, kind := .unit,
    len := lenIs 8, resv := [(63, 21), (15, 9), (7, 0)] }
def fwActivateSpec : CcpSpec :=
  { opcode := 0x0902, first := 1, op := true, tn := false, kind := .unit, len := lenIs 8, resv := [(63, 9), (7, 2)] }
def fwQuerySpec : CcpSpec :=
  { opcode := 0x0903, first := 1, op := true, tn := false, kind := .query, len := lenIs 0, resv := [] }
def configSetSpec : CcpSpec :=
  { opcode := 0x0910, first := 1, op := true, tn := false, kind := .unit,
    len := fun b t => t == 8 + bits b 47 32, resv := [(63, 48), (31, 16)] }
def configQuerySpec : CcpSpec := objSpec 0x0911 1 true false .query
def eventReadSpec : CcpSpec :=
  { opcode := 0x0A01, first := 1, op := true, tn := true, kind := .query, len := lenIs 8, resv := [(31, 9)] }
def statsQuerySpec : CcpSpec :=
  { opcode := 0x0A02, first := 1, op := true, tn := true, kind := .query,
    len := lenIs 8, resv := [(47, 42), (23, 9), (7, 0)] }
def memErrLogSpec : CcpSpec :=
  { opcode := 0x0A10, first := 1, op := true, tn := false, kind := .query, len := lenIs 8, resv := [(63, 9), (7, 4)] }
def mowSetSpec : CcpSpec :=
  { opcode := 0x0A11, first := 1, op := true, tn := false, kind := .unit, len := lenIs 8, resv := [(63, 32)] }
def checkerTestSpec : CcpSpec :=
  { opcode := 0x0A12, first := 3, op := true, tn := false, kind := .unit,
    len := lenIs 48, resv := [(95, 72), (63, 60), (27, 8), (3, 2)] }
def rankRetireSpec : CcpSpec :=
  { opcode := 0x0A13, first := 3, op := true, tn := false, kind := .unit,
    len := lenIs 8, resv := [(63, 18), (15, 10), (7, 4)] }
def stackDiagSpec : CcpSpec :=
  { opcode := 0x0A20, first := 3, op := true, tn := false, kind := .unit,
    len := lenIs 80, resv := [(63, 20), (13, 12), (7, 2)], also := diagReserved }
def debugUnlockSpec : CcpSpec :=
  { opcode := 0x0A30, first := 3, op := true, tn := false, kind := .unit,
    len := fun b t => t == 8 + bits b 15 0, resv := [(63, 16)] }
def bulkOpenSpec : CcpSpec :=
  { opcode := 0x0B01, first := 2, op := true, tn := true, kind := .session, len := lenIs 8, resv := [(63, 48)] }
def bulkCloseSpec : CcpSpec := objSpec 0x0B02 2 true true .session
def bulkStatusSpec : CcpSpec := objSpec 0x0B03 2 true true .session

/-- The table: opcode, row, meaning. -/
def ccpTable : List (CcpSpec × CcpBody) :=
    [(ccpCloseSpec, bodyCcpClose), (mbxDropSpec, bodyMbxDrop), (ethSetSpec, bodyEthSet), (capabilityQuerySpec,
   bodyCapabilityQuery), (readyQuerySpec, bodyReadyQuery), (expTableQuerySpec, bodyExpTableQuery), (deviceResetSpec,
   bodyDeviceReset), (spdmSpec, bodySpdm), (tenantCreateSpec, bodyTenantCreate), (tenantDeleteSpec, bodyTenantDelete)]
   ++
    [(tenantSessionEndSpec, bodySessionEnd), (tenantEvictSpec, bodyTenantEvict), (keyRotateSpec, bodyKeyRotate),
   (admitSpec, bodyAdmit), (setLoadSpec, bodySetLoad), (setDeleteSpec, bodySetDelete), (weightImportBeginSpec,
   bodyImportBegin), (weightImportEndSpec, bodyImportEnd), (weightImportBindSpec, bodyImportBind), (reserveSetSpec,
   bodyReserveSet)] ++
    [(capacityQuerySpec, bodyCapacityQuery), (spaceCreateSpec, bodySpaceCreate), (spaceDeleteSpec, bodySpaceDelete),
   (extentCreateSpec, bodyExtentCreate), (extentEnableSpec, bodyExtentEnable), (extentDeleteSpec, bodyExtentDelete),
   (extentQuerySpec, bodyExtentQuery), (extentReclaimSpec, bodyExtentReclaim), (extentMapSpec, bodyExtentMap),
   (extentUnmapSpec, bodyExtentUnmap)] ++
    [(l2PartitionSpec, bodyL2Partition), (commonCreateSpec, bodyCommonCreate), (commonEnableSpec, bodyCommonEnable),
   (commonDeleteSpec, bodyCommonDelete), (dirPartitionSpec, bodyDirPartition), (streamCreateSpec, bodyStreamCreate),
   (streamCloseCcpSpec, bodyStreamClose), (streamAbortCcpSpec, bodyStreamAbort), (streamPrioritySpec,
   bodyStreamPriority), (formatLoadSpec, bodyFormatLoad)] ++
    [(vectorProgLoadSpec, bodyVectorProgLoad), (windowCreateSpec, bodyWindowCreate), (windowEnableSpec,
   bodyWindowEnable), (windowAbortSpec, bodyWindowAbort), (windowRetireSpec, bodyWindowRetire), (windowDeleteSpec,
   bodyWindowDelete), (windowQuerySpec, bodyWindowQuery), (seqCreateSpec, bodySeqCreate), (seqEnableSpec,
   bodySeqEnable), (seqTruncateSpec, bodySeqTruncate)] ++
    [(seqDisableSpec, bodySeqDisable), (seqDeleteSpec, bodySeqDelete), (seqQuerySpec, bodySeqQuery), (portSetSpec,
   bodyPortSet), (portQuerySpec, bodyPortQuery), (routeSetSpec, bodyRouteSet), (routeEpochSpec, bodyRouteEpoch),
   (routeQuerySpec, bodyRouteQuery), (mcastSetSpec, bodyMcastSet), (policeSetSpec, bodyPoliceSet)] ++
    [(schedSetSpec, bodySchedSet), (arbSetSpec, bodyArbSet), (isolateSetSpec, bodyIsolateSet), (cadenceSetSpec,
   bodyCadenceSet), (histQuerySpec, bodyHistQuery), (powerSetSpec, bodyPowerSet), (powerQuerySpec, bodyPowerQuery),
   (sleepSetSpec, bodySleepSet), (sleepEnterSpec, bodySleepEnter), (pairSetSpec, bodyPairSet)] ++
    [(pairQuerySpec, bodyPairQuery), (fwStageSpec, bodyFwStage), (fwActivateSpec, bodyFwActivate), (fwQuerySpec,
   bodyFwQuery), (configSetSpec, bodyConfigSet), (configQuerySpec, bodyConfigQuery), (eventReadSpec, bodyEventRead),
   (statsQuerySpec, bodyStatsQuery), (memErrLogSpec, bodyMemErrLog), (mowSetSpec, bodyMowSet)] ++
    [(checkerTestSpec, bodyCheckerTest), (rankRetireSpec, bodyRankRetire), (stackDiagSpec, bodyStackDiag),
   (debugUnlockSpec, bodyDebugUnlock), (bulkOpenSpec, bodyBulkOpen), (bulkCloseSpec, bodyBulkClose), (bulkStatusSpec,
   bodyBulkStatus)]

/-- The row of an opcode (18 R466). -/
def ccpRow (opcode : Nat) : Option (CcpSpec × CcpBody) := ccpTable.find? fun x => x.1.opcode == opcode

/-- The verdicts on what a command carries, where it came in fragments (log 8): of its unwrap, or of its signature and of the
identity it names. -/
def verdicts (opcode : Nat) (body : List Byte) : Bool × Bool :=
  if opcode == 0x0122 then (Config.unwrapVerdict body, true) else (Config.sigVerdict body, Config.nameVerdict body)

end Sys2Proof.Machine
end

