-- ==== Sys2Proof/Machine/Intake.lean ====
section
/-! DEFINITION. Intake.lean: frames taken from the intake FIFO (17 R444 to R452, R458, R464): discards, the sequence window,
handshakes, the pre-session exchange, fragments and mailboxes. -/

namespace Sys2Proof.Machine

/-! Discards. -/

/-- What R445 discards by the header alone; a field that Table 17-2 gives as zero counts as reserved. -/
def frameBad (f : CcpFrame) : Bool :=
  5 < f.ftype || f.ftype == 3 || f.ftype == 5 || f.rsvd != 0 || f.mailbox != 0 || f.status != 0 || f.reason != 0 ||
    (f.bulkOff != 0 && f.ftype != 4) || 8192 < f.length || f.length != f.body.length ||
    (f.ftype == 0 && (f.seq != 0 || f.session != 0)) || (f.ftype == 1 && f.opcode == 1 && (f.seq != 0 || f.session != 0))

/-- The receiver's window over `seq` (R446): none discards. -/
def seqIn (v : Session) (n : Nat) : Option Session :=
  match v.rxTop with
  | none => some { v with rxTop := some n, rxMask := 0 }
  | some t =>
    if t < n then
      let d := n - t
      some { v with rxTop := some n, rxMask := if 64 < d then 0 else (v.rxMask * 2 ^ d + 2 ^ (d - 1)) % 2 ^ 63 }
    else if t == n || 63 < t - n || bit v.rxMask (t - n - 1) then none
    else some { v with rxMask := setBit v.rxMask (t - n - 1) true }

/-! Commands in fragments. -/

/-- Whether a fragment's place, length and flags fit its `total` (R450). -/
def fragFits (f : CcpFrame) : Bool :=
  let n := max 1 (ceilDiv f.total 8192)
  f.total ≤ 524288 && f.frag < n && f.length == min 8192 (f.total - 8192 * f.frag) && f.first == (f.frag == 0) &&
    f.last == (f.frag + 1 == n)

/-- A complete command begins (R452, 18 R467). -/
def State.beginWhole (s : State) (mb : Nat) (m : Mailbox) (v : Session) : State :=
  let s := s.putMailbox mb { m with running := true, frags := [] }
  let body := m.frags.flatMap (·.2)
  match ccpRow m.opcode with
  | none => s.respond ⟨m.session, m.cmdId⟩ ⟨Status.unsupported.code, 0x0703, []⟩
  | some (spec, run) =>
    let w := verdicts m.opcode body
    ccpBegin spec run
      { sid := m.session, sess := v, cmdId := m.cmdId, block := leNat body, total := m.total, sigOk := w.1, auxOk := w.2 } s

/-- A fragment goes into its mailbox (R450). -/
def State.fragIn (s : State) (f : CcpFrame) (mb : Nat) (m : Mailbox) (v : Session) : State :=
  let bad (s : State) : State := s.respond ⟨m.session, m.cmdId⟩ ⟨Status.malformed.code, 0x0102, []⟩
  if !fragFits f || f.opcode != m.opcode || f.total != m.total then bad (s.putMailbox mb { m with port := f.port, cls := f.cls })
  else if m.frags.has f.frag then s.countDev (2 + f.port)
  else
    let m := { m with frags := m.frags.put f.frag f.body, port := f.port, cls := f.cls, due := s.dev.tick + 1048576 }
    let s := s.putMailbox mb m
    if m.frags.length == max 1 (ceilDiv m.total 8192) then s.beginWhole mb m v else s

/-- A fragment of a session's command is taken (R450, R451, R464). -/
def State.commandIn (s : State) (f : CcpFrame) (v : Session) : State :=
  let drop := s.countDev (2 + f.port)
  match s.intakeBars with
  | some r => if f.frag == 0 then s.intakeAnswer f.port f.cls f.session f.opcode f.cmdId r.reason else s
  | none =>
    match s.mailboxOf f.session f.cmdId with
    | some (mb, m) => if m.running then drop else s.fragIn f mb m v
    | none =>
      if isNewCmd v f.cmdId || v.cmds.find f.cmdId == some .again then
        let v := acceptCmd v f.cmdId
        match s.freeMailbox f.session with
        | none =>
          let s := s.putSession f.session { v with cmds := v.cmds.put f.cmdId .again }
          s.intakeAnswer f.port f.cls f.session f.opcode f.cmdId 0x0203
        | some mb =>
          let v := { v with cmds := v.cmds.put f.cmdId .mailbox }
          let m : Mailbox :=
            { session := f.session, cmdId := f.cmdId, opcode := f.opcode, port := f.port, cls := f.cls, total := f.total }
          ((s.putSession f.session v).putMailbox mb m).fragIn f mb m v
      else match v.cmds.find f.cmdId with
        | some (.kept op mb r) =>
          if f.frag == 0 then s.resendKept f.port f.cls f.session f.cmdId f.opcode op mb r else drop
        | _ => drop

/-! Frames by type. -/

/-- A handshake frame (R447). CCP_FINISH travels under the new keys. -/
def State.handshakeIn (s : State) (f : CcpFrame) : State :=
  if !s.ready.keyEngine then s
  else if f.opcode == 1 then
    let x := Config.helloFields f.body
    s.ccpHello f.port f.ccpVer (if x.1 then .operator else .tenant) x.2.1 x.2.2
  else if f.opcode == 2 && f.tagOk && f.seq == 0 then s.ccpFinish f.port f.session (Config.sigVerdict f.body)
  else s.countDev (2 + f.port)

/-- A frame of a session, whose version, tag and `seq` are checked (R445, R446). -/
def State.sessionIn (s : State) (f : CcpFrame) : State :=
  let drop := s.countDev (2 + f.port)
  match s.ctl.sessions.find f.session with
  | none => drop
  | some v =>
    if f.ccpVer != v.ver || !f.tagOk then drop
    else match seqIn v f.seq with
      | none => drop
      | some v =>
        if f.seq == 2 ^ 32 - 1 then s.endSession f.session
        else
          let s := (s.putSession f.session v).touchSession f.session f.port
          match s.ctl.sessions.find f.session with
          | none => s
          | some v =>
            if f.ftype == 2 then s.commandIn f v
            else if s.dev.mgmtReset.isSome then s
            else s.bulkIn f

/-- A frame is taken from an intake FIFO (R445, R449, R464). -/
def State.takeCcp (s : State) (f : CcpFrame) : State :=
  if !s.ccpAnswers f.port || s.intakeHolds then s
  else if frameBad f then s.countDev (2 + f.port)
  else match f.ftype with
    | 0 =>
      let whole := f.first && f.last && f.frag == 0 && f.total == f.length
      s.preServe f.port f.cls f.cmdId f.opcode f.total whole f.body
    | 1 => s.handshakeIn f
    | _ => s.sessionIn f

/-- The frame that the management consumer reads next: the oldest of the highest class (R454). -/
def nextFrame (l : List CcpFrame) : Option CcpFrame :=
  l.foldl (fun b f => match b with
    | none => some f
    | some x => if x.cls < f.cls then some f else b) none

/-- INTAKE_FIFO_READ (R454). A read waits while the FIFO is empty or management is down. -/
def State.fifoRead (s : State) (p : Nat) : State :=
  let e := s.eth p
  if s.intakeHolds then s
  else match nextFrame e.fifo with
    | none => s
    | some f => ((s.putEth p { e with fifo := e.fifo.erase f }).fifoMarks p).takeCcp f

/-! Rows that bring a handshake message or a pre-session command whole. -/

/-- What a whole message finds before it is taken: nothing, a FIFO that holds it, or the device (19 Table 19-3, 15 R424). -/
def State.whole (s : State) (port : Nat) (held : List CcpFrame) (go : State → State) : State :=
  if !s.ccpAnswers port then s
  else if s.intakeHolds then s.wakeByFrame.holdFrames port held
  else go s.wakeByFrame

/-- The frame of a handshake message. -/
def helloFrame (port ver session opcode : Nat) : CcpFrame :=
  { port, cls := 0, ccpVer := ver, ftype := 1, first := true, last := true, rsvd := 0, session, seq := 0, cmdId := 0,
    frag := 0, opcode, mailbox := 0, status := 0, reason := 0, length := 0, total := 0, bulkOff := 0, body := [], tagOk := true }

/-- CCP_HELLO as a row brings it; the key engine takes part in it (19 Table 19-3). -/
def State.helloWhole (s : State) (port ver : Nat) (role : Role) (tenant keyHash : Nat) : State :=
  s.whole port [helloFrame port ver 0 1] fun s => if s.ready.keyEngine then s.ccpHello port ver role tenant keyHash else s

/-- CCP_FINISH as a row brings it. -/
def State.finishWhole (s : State) (port sid : Nat) (sigOk : Bool) : State :=
  let ver := (s.ctl.handshakes.find sid).elim 3 (·.ver)
  s.whole port [helloFrame port ver sid 2] fun s => if s.ready.keyEngine then s.ccpFinish port sid sigOk else s

/-- An SPDM message: in a session, or in the pre-session exchange (09 R268, 17 R449). -/
def State.spdmServe (s : State) (c : CcpCmd) : State :=
  if c.session != 0 then ccpServe spdmSpec bodySpdm c true true s
  else
    let held := (framesOf 0x0100 c 0 0).map fun f => { f with ftype := 0, seq := 0 }
    let msg := leBytes c.block c.total
    if s.ccpAnswers c.port && s.wakeByFrame.attestBusy 0x0100 then
      s.wakeByFrame.sendResponse c.port c.cls 0 0x0100 c.cmdId 0 ⟨Status.busyRetry.code, 0x0603, []⟩
    else
    s.whole c.port held fun s => s.preServe c.port c.cls c.cmdId 0x0100 c.total (c.total ≤ 8192) msg

end Sys2Proof.Machine
end

