-- ==== Sys2Proof/Machine/Waits.lean ====
section
/-! DEFINITION. Waits.lean: marks that come into force, acknowledgements, and the bounds of waits that have no chapter of
their own: 06 R170, R176, R182, R183; 07 R191, R207; 08 R218, R230; 21 R522. -/

namespace Sys2Proof.Machine

/-! Refusal marks (06 R182, 08 R218, 09 R241). -/

/-- Whether a range invalidation for a purpose has been issued and goes on. -/
def State.invalFor (s : State) (p : InvalFor) : Bool := s.pool.invals.any fun i => i.2.purpose == p

/-- The mark of an extent is in force: its command completes and stage 2 begins (06 R182). -/
def State.extentMark (s : State) (n : Nat) : State :=
  match s.pool.extents.find n with
  | none => s
  | some e =>
    if e.state != .revoking || s.invalFor (.revoke n) then s
    else
      let s := (s.putExtent n { e with cmd := none }).drainExtent n
      match e.cmd with
      | some c => s.respondOk c
      | none => s

/-- The mark of a mapping is in force: its range invalidation is issued (08 R218). -/
def State.mappingMark (s : State) (asid va : Nat) : State :=
  match s.pool.maps.find? fun m => m.asid == asid && m.vaBase == va with
  | none => s
  | some m =>
    if !m.removing || m.cmd.isNone || s.invalFor (.unmap asid va) then s
    else s.invalidate (.virt asid (va / 2097152) m.count) (.unmap asid va)

/-- REFUSAL_MARK_IN_FORCE. -/
def State.markInForce (s : State) (m : MarkOf) : State :=
  match m with
  | .extent n => s.extentMark n
  | .mapping asid va => s.mappingMark asid va
  | .tenant t => s.tenantMark t

/-! Range invalidations. -/

/-- RANGE_INVALIDATION_ACK: an engine that holds nothing of the range for work that is moving bytes discards its entries
and acknowledges (08 R223, R230). -/
def State.invalAck (s : State) (id engine : Nat) : State :=
  match s.pool.invals.find id with
  | none => s
  | some i =>
    if !s.inProgress id || !bit i.engines engine || s.engineBusy engine i.range then s
    else (s.putInval id { i with engines := setBit i.engines engine false }).dropEntries engine i.range

/-- The extent that a slow invalidation's record names; 0 where it concerns no extent (log 41). -/
def State.inFor (s : State) : InvalFor → Nat
  | .revoke e => e
  | .unmap a v => ((s.pool.maps.find? fun m => m.asid == a && m.vaBase == v).map (·.extent)).getD 0
  | .spaceMap a v => ((s.pool.maps.find? fun m => m.asid == a && m.vaBase == v).map (·.extent)).getD 0
  | .frames e _ => e
  | .checkout e _ _ => e
  | _ => 0

/-- REVOCATION_SLOW_EXPIRY (06 R183, 08 R231): the record counts the engines that have not acknowledged (log 41). -/
def State.invalSlow (s : State) (id : Nat) : State :=
  match s.pool.invals.find id with
  | none => s
  | some i =>
    if i.slowNoted || s.dev.tick < i.issued + 16384 then s
    else (s.putInval id { i with slowNoted := true }).recOp 0x0204 1 (s.inFor i.purpose) 0 (popcount i.engines 161)

/-! Checkouts, drafts, lines. -/

/-- RECALL_TIMEOUT (06 R170). -/
def State.recallTimeout (s : State) (ext page : Nat) : State :=
  match s.pool.checkouts.find (ext * 2 ^ 25 + page) with
  | none => s
  | some c => if c.recalling && c.due ≤ s.dev.tick then s.revert (ext * 2 ^ 25 + page) else s

/-- DRAFT_WRITES_DRAINED (06 R176). -/
def State.draftDrained (s : State) (ext : Nat) : State :=
  if s.draftBusy ext then s else s.commitDraft ext

/-- SNOOP_TIMEOUT: every snoop of the line to the node that has passed its bound (07 R207). -/
def State.snoopTimeout (s : State) (h node : Nat) : State :=
  match s.com.trans.find h with
  | none => s
  | some t =>
    (t.snoops.filter fun x => x.node == node && x.due ≤ s.dev.tick).foldl (fun s x => s.snoopAnswer h x .lost false) s

/-- WRITEBACK_RECORD_EXPIRY (07 R191). -/
def State.wbExpiry (s : State) (h node : Nat) : State :=
  match s.com.wbRecs.find (h * 65536 + node) with
  | none => s
  | some due => if due ≤ s.dev.tick then { s with com.wbRecs := s.com.wbRecs.del (h * 65536 + node) } else s

/-- LOST_HOLDER_SWEEP: a transaction of its own resolves the losses of a line (07 R207). -/
def State.lostSweep (s : State) (h : Nat) : State :=
  if (s.com.lost.any fun x => x.1 == h) && !s.com.trans.has h then s.lineArrive h .sweep else s

/-! Edges. -/

/-- PMB_ALERT_EDGE: counted only (21 R522). -/
def State.pmbAlert (s : State) : State := { s with dev.pmbAlerts := s.dev.pmbAlerts + 1 }

end Sys2Proof.Machine
end

