-- ==== Sys2Proof/Machine/Settle.lean ====
section
/-! DEFINITION. Settle.lean: what follows from a command inside the same step (log 23): requests that run, stations that
decide, range invalidations whose last acknowledgement is in, objects whose end waited for them. -/

namespace Sys2Proof.Machine

/-- A held command that waited for a page or a sector runs again (08 R221). Its session may have ended meanwhile: the command runs
on (17 R448). -/
def State.rerunCommand (s : State) (op : Nat) (ref : CmdRef) (tenant block total : Nat) : State :=
  let sess := (s.ctl.sessions.find ref.session).getD { ver := 3, role := .tenant, tenant, port := 0 }
  let c : CcpCtx := { sid := ref.session, sess, cmdId := ref.cmdId, block, total }
  let o := (if op == 0x0401 then bodyStreamCreate else bodySeqEnable) c s
  match o.reply with
  | some r => o.after (o.s.respond ref r)
  | none => o.s

/-- An access runs, or runs again after a wait. -/
def State.runAccess (s : State) (a : Access) : State :=
  match a with
  | .request r => s.runRequest r
  | .tile sid i => s.rerunTile sid i
  | .ledger w t => s.ledgerWrite w t
  | .command op ref t b n => s.rerunCommand op ref t b n
  | .sector n w => s.sectorAgain n w

/-- A stalled migration may look for a destination again (11 R319). -/
def State.unstall (s : State) : State :=
  match s.pool.migration with
  | some m => { s with pool.migration := some { m with stalled := false } }
  | none => s

/-- One thing that follows. -/
def State.follow (s : State) (t : Todo) : State :=
  match t with
  | .run a => s.runAccess a
  | .accept r => s.acceptRequest r
  | .hub f => s.serveHub f
  | .lost tag => s.issuedLost tag
  | .gone n => (s.comLoseNode n).revertNode n
  | .line h => s.lineGo h
  | .packet op p => s.packetIn op p (innerOf op p)
  | .control p b => s.controlIn p b
  | .arbitrate n => s.arbitrate n
  | .start n => s.startItem n
  | .unappend c h p => s.unappend c h p
  | .late sid i => s.lateTile sid i
  | .spill n => s.spillFor n 512
  | .bind sid => s.bindStream sid
  | .migrate => s.unstall
  | .ledger w t => s.ledgerWrite w t
  | .scratch => s.checkScratch
  | .rank r => s.checkRank r

/-- The agenda is worked off in order, at most `fuel` entries of it. -/
def State.drain (s : State) : Nat → State
  | 0 => s
  | fuel + 1 =>
    match s.todo with
    | [] => s
    | t :: rest => State.drain ({ s with todo := rest }.follow t) fuel

/-- Range invalidations in progress with every acknowledgement are finished (08 R230). -/
def State.invalsEnd (s : State) : State :=
  (s.pool.invals.take 64).foldl (fun s x =>
    if x.2.engines == 0 && !s.invalHeld x.2 then
      let s := s.delInval x.1
      match x.2.purpose with
      | .migrate src dst => s.migrateDone src dst
      | p => s.invalDone p
    else s) s

/-- Imports end with their extent (09 R263), and a waiting END is answered once it need not wait. -/
def State.importsEnd (s : State) : State :=
  let s := if s.ten.imports.isEmpty then s
    else s.endImports .aborted fun e _ => !((s.pool.extents.find e).any (·.state == .enabled))
  (s.ten.imports.map (·.1)).foldl State.importCheck s

/-- What waited for something that may have happened. -/
def State.tidy (s : State) : State :=
  let s := s.commonEnd.ackResets.invalsEnd.importsEnd.stageCheck.handoverCheck.linkCheck.noteRoutes.payCredits
  if s.fab.transit.isEmpty then s else s.repick

/-- The agenda and what waited, in turn, until nothing follows; at most `rounds` turns. -/
def State.settleFor (s : State) : Nat → State
  | 0 => s
  | rounds + 1 =>
    let s := (s.drain 1048576).tidy
    if s.todo.isEmpty then s else State.settleFor s rounds

/-- The end of every command: all that follows from it has happened (log 23). -/
def State.settle (s : State) : State := s.settleFor 4096

/-- Whether the device is without power or in reset: then only its power, its reset and its card slot act (21 R517). -/
def State.dead (s : State) : Bool := s.dev.phase == .off || s.dev.phase == .inReset

/-- What a command with effect `f` leaves: nothing of it in a device that is dead, and otherwise all that follows too. -/
def State.after (s : State) (f : State → State) : State := if s.dead then s else (f s).settle

/-- A command of a unit the device has; one beyond the count of its units is no command of the device (log 19). -/
def effect (ok : Bool) (f : State → State) (s : State) : Out :=
  if ok then .next (s.after f) else .fault .noSuchUnit

/-- A CCP command that comes whole (17 R443, 18 R466). -/
def ccpRowOf (spec : CcpSpec) (body : CcpBody) (c : CcpCmd) (sigOk auxOk : Bool) (s : State) : Out :=
  effect (c.port < 2) (ccpServe spec body c sigOk auxOk) s

/-- A packet that comes in whole on a port that is UP (12 R329, 13 R349). -/
def State.packetOn (s : State) (op : Nat) (p : Packet) (x : Inner) : State :=
  if (s.port p.port).st == .up then s.packetIn op p x else s

/-- A packet row. -/
def kfpRow (op : Nat) (p : Packet) (x : Inner) (s : State) : Out := effect (p.port < 64) (fun s => s.packetOn op p x) s

end Sys2Proof.Machine
end

