-- ==== Sys2Proof/Machine/Idle.lean ====
section
/-! DEFINITION. Idle.lean: the passing of one slow-clock tick (01 R25), which the model takes when no command waits. -/

namespace Sys2Proof.Machine

/-- A station whose parked streams have all spent their shares uses up its round idle (14 R380, R389). -/
def State.idleRounds (s : State) : State :=
  s.stn.stations.foldl (fun s x =>
    if x.2.granted.isNone && !x.2.parked.isEmpty && s.canStart x.1 then
      (s.chargeUnits x.1 65536 0 (cyclesPerTick s.pwr.level)).later [.arbitrate x.1]
    else s) s

/-- The echo limit of an Ethernet port counts anew every second (17 R442). -/
def State.echoSecond (s : State) : State :=
  if s.dev.tick % 1562500 == 0 then
    let s := { s with ctl.ethA.echoes := 0 }
    { s with ctl.ethB.echoes := 0 }
  else s

/-- One tick of the slow clock (log 4): responses whose pause has ended leave, and a round that passed idle ends. -/
def idleTick (s : State) : State :=
  if s.dead || s.dev.halt == some 0 then s
  else
    let s := { s with dev.tick := s.dev.tick + 1 }
    (((s.stackTick.cadenceTick.populationTick.echoSecond.releaseTx 0).releaseTx 1).idleRounds.idleHubs).settle

end Sys2Proof.Machine
end

