-- ==== Sys2Proof/Machine/RowsLink.lean ====
section
/-! DEFINITION. RowsLink.lean: what each command does: pair timers, ports and flits, routing timers. -/

namespace Sys2Proof.Machine

/-- LEASE_RENEW_TIMER (R431). -/
def execLeaseRenewTimer (s : State) : Out := effect true (fun s => s.renewTimer) s
/-- LEASE_LAPSE (R428). -/
def execLeaseLapse (s : State) : Out := effect true (fun s => s.leaseLapse) s
/-- PAIR_SILENCE (R428). -/
def execPairSilence (s : State) : Out := effect true (fun s => s.pairSilence) s
/-- PAIR_BEAT_SEND (R432). -/
def execPairBeatSend (s : State) : Out := effect true (fun s => s.beatSend) s
/-- MIRROR_TIMEOUT (R434). -/
def execMirrorTimeout (tag : Nat) (s : State) : Out := effect true (fun s => s.mirrorTimeout tag) s
/-- PAIR_PEER_WAIT_EXPIRY (R428). -/
def execPairPeerWaitExpiry (s : State) : Out := effect true (fun s => s.peerWait) s
/-- RESYNC_COPY_DONE (R440). -/
def execResyncCopyDone (s : State) : Out := effect true (fun s => s.copyDone) s
/-- PORT_LIGHT_DETECT (R341). -/
def execPortLightDetect (port : Nat) (s : State) : Out := effect (port < 64) (fun s => s.portLight port) s
/-- PORT_TRAINING_DONE (R325). -/
def execPortTrainingDone (port : Nat) (tNs : Nat) (s : State) : Out := effect (port < 64) (fun s => s.trained port tNs) s
/-- PORT_TRAINING_TIMEOUT (R341). -/
def execPortTrainingTimeout (port : Nat) (s : State) : Out := effect (port < 64) (fun s => s.trainTimeout port) s
/-- PS_HELLO (R338). -/
def execPsHello (port : Nat) (peerHash : Nat) (chain : Chain) (s : State) : Out :=
  effect (port < 64) (fun s => s.hello port peerHash chain) s
/-- PS_KEM (R338). -/
def execPsKem (port : Nat) (chain : Chain) (s : State) : Out := effect (port < 64) (fun s => s.kem port chain) s
/-- PS_FINISH (R338). -/
def execPsFinish (port : Nat) (sigOk : Bool) (s : State) : Out := effect (port < 64) (fun s => s.finish port sigOk) s
/-- LINK_PARAMS (R331). -/
def execLinkParams (port : Nat) (buffers : List Nat) (s : State) : Out :=
  effect (port < 64) (fun s => s.params port buffers) s
/-- PORT_SESSION_TIMEOUT (R341). -/
def execPortSessionTimeout (port : Nat) (s : State) : Out := effect (port < 64) (fun s => s.sessTimeout port) s
/-- DATA_FLIT_RX (R334). -/
def execDataFlitRx (port : Nat) (f : Flit) (s : State) : Out := effect (port < 64) (fun s => s.dataFlit port f) s
/-- IDLE_FLIT_RX (R328). -/
def execIdleFlitRx (port : Nat) (f : Flit) (s : State) : Out := effect (port < 64) (fun s => s.idleFlit port f) s
/-- FLIT_SEND (R332). -/
def execFlitSend (port : Nat) (s : State) : Out := effect (port < 64) (fun s => s.flitSend port) s
/-- ACK_TIMER_EXPIRY (R335). -/
def execAckTimerExpiry (port : Nat) (s : State) : Out := effect (port < 64) (fun s => s.ackTimer port) s
/-- REPLAY_TIMEOUT (R336). -/
def execReplayTimeout (port : Nat) (s : State) : Out := effect (port < 64) (fun s => s.replayTimeout port) s
/-- RETRAIN_DONE (R341). -/
def execRetrainDone (port : Nat) (s : State) : Out := effect (port < 64) (fun s => s.retrainDone port) s
/-- RETRAIN_TIMEOUT (R337). -/
def execRetrainTimeout (port : Nat) (s : State) : Out := effect (port < 64) (fun s => s.retrainTimeout port) s
/-- REKEY_START (R340). -/
def execRekeyStart (port : Nat) (s : State) : Out := effect (port < 64) (fun s => s.rekeyStart port) s
/-- KEY_NEXT (R340). -/
def execKeyNext (port : Nat) (s : State) : Out := effect (port < 64) (fun s => s.keyNext port) s
/-- KEY_NEXT_KEM (R340). -/
def execKeyNextKem (port : Nat) (s : State) : Out := effect (port < 64) (fun s => s.keyNextKem port) s
/-- DOWN_NOTICE (R341). -/
def execDownNotice (port : Nat) (reason : Nat) (s : State) : Out := effect (port < 64) (fun s => s.peerDown port reason) s
/-- DOWN_PATTERN_RX (R341). -/
def execDownPatternRx (port : Nat) (s : State) : Out := effect (port < 64) (fun s => s.peerDown port 0) s
/-- ALIGNMENT_LOSS (R341). -/
def execAlignmentLoss (port : Nat) (s : State) : Out := effect (port < 64) (fun s => s.alignLoss port) s
/-- LASER_FAULT_ALARM (R324). -/
def execLaserFaultAlarm (engine : Nat) (s : State) : Out := effect (engine < 16) (fun s => s.laserFault engine) s
/-- LASER_LIGHT_LOSS (R324). -/
def execLaserLightLoss (engine : Nat) (fibre : Nat) (s : State) : Out :=
  effect (engine < 16 && fibre < 4) (fun s => s.portDown (4 * engine + fibre) 6) s
/-- PORT_DOWN_HOLD_EXPIRY (R341). -/
def execPortDownHoldExpiry (port : Nat) (s : State) : Out := effect (port < 64) (fun s => s.holdOver port) s
/-- OUTSTANDING_ENTRY_EXPIRY (R343). -/
def execOutstandingEntryExpiry (port : Nat) (src : Nat) (tag : Nat) (tgen : Nat) (s : State) : Out :=
  effect (port < 64) (fun s => s.outstExpiry port src tag tgen) s
/-- PACKET_AGE_OUT (R375). -/
def execPacketAgeOut (id : Nat) (s : State) : Out := effect true (fun s => s.ageOut id) s
/-- FENCE_HOLD_AGE_OUT (R361). -/
def execFenceHoldAgeOut (src : Nat) (tag : Nat) (s : State) : Out := effect true (fun s => s.fenceAgeOut src tag) s
/-- ESCAPE_WAIT_EXPIRY (R365). -/
def execEscapeWaitExpiry (id : Nat) (s : State) : Out := effect true (fun s => s.escapeWait id) s
/-- REACHABILITY_TIMEOUT (R358). -/
def execReachabilityTimeout (node : Nat) (s : State) : Out := effect true (fun s => s.reachTimeout node) s
/-- BANK_QUIET (R369). -/
def execBankQuiet (bank : Nat) (s : State) : Out := effect (bank < 2) (fun s => s.bankQuiet bank) s

end Sys2Proof.Machine
end

