-- ==== Sys2Proof/Machine/RowsMemory.lean ====
section
/-! DEFINITION. RowsMemory.lean: what each command does: sectors, stacks and ranks. -/

namespace Sys2Proof.Machine

/-- SECTOR_READ_DONE (R300). -/
def execSectorReadDone (stack : Nat) (sector : Nat) (e1 : ReadErr) (e2 : ReadErr) (s : State) : Out :=
  effect (stack < 16) (fun s => s.sectorRead stack sector e1 e2) s
/-- SECTOR_WRITE_DONE (R299). -/
def execSectorWriteDone (stack : Nat) (sector : Nat) (offset : Nat) (data : List Byte) (s : State) : Out :=
  effect (stack < 16) (fun s => s.sectorWrite stack sector offset data) s
/-- CA_PARITY_ERROR (R279). -/
def execCaParityError (stack : Nat) (rank : Nat) (s : State) : Out :=
  effect (stack < 16 && rank < 4) (fun s => s.parityError stack rank) s
/-- ACCESS_AGE_LIMIT (R278). -/
def execAccessAgeLimit (stack : Nat) (pch : Nat) (s : State) : Out :=
  effect (stack < 16 && pch < 64) (fun s => s.ageLimit stack pch) s
/-- REFRESH_DUE (R283). -/
def execRefreshDue (stack : Nat) (pch : Nat) (rank : Nat) (bank : Nat) (s : State) : Out :=
  effect (stack < 16 && pch < 64 && rank < 4 && bank < 16) (fun s => s.refreshBank stack pch rank bank) s
/-- STACK_TEMPERATURE_READ (R283). -/
def execStackTemperatureRead (stack : Nat) (celsius : Int) (s : State) : Out :=
  effect (stack < 16) (fun s => s.stackTemp stack celsius) s
/-- STACK_SELF_REFRESH_ENTRY (R286). -/
def execStackSelfRefreshEntry (stack : Nat) (s : State) : Out := effect (stack < 16) (fun s => s.selfEntry stack) s
/-- STACK_SELF_REFRESH_EXIT (R286). -/
def execStackSelfRefreshExit (stack : Nat) (celsius : Int) (s : State) : Out :=
  effect (stack < 16) (fun s => s.selfExit stack celsius) s
/-- TRAINING_STEP_DONE (R288). -/
def execTrainingStepDone (stack : Nat) (passed : Bool) (pins : Nat) (s : State) : Out :=
  effect (stack < 16) (fun s => s.trainStep stack passed pins) s
/-- STACK_INIT_DONE (R305). -/
def execStackInitDone (stack : Nat) (s : State) : Out := effect (stack < 16) (fun s => s.stackInit stack) s
/-- PGEN_RUN_DONE (R287). -/
def execPgenRunDone (stack : Nat) (pch : Nat) (mismatches : List Nat) (s : State) : Out :=
  effect (stack < 16 && pch < 64) (fun s => s.pgenDone stack pch mismatches) s
/-- READ_TRACKING (R291). -/
def execReadTracking (stack : Nat) (pch : Nat) (eyes : List PinEye) (s : State) : Out :=
  effect (stack < 16 && pch < 64) (fun s => s.track stack pch eyes) s
/-- RETRAIN_SLICE_TIMER (R292). -/
def execRetrainSliceTimer (stack : Nat) (pch : Nat) (starts : Bool) (passed : Bool) (eyes : List PinEye) (s : State) : Out :=
  effect (stack < 16 && pch < 64) (fun s => s.retrainSlice stack pch starts passed eyes) s
/-- MOW_READ (R310). -/
def execMowRead (stack : Nat) (e1 : ReadErr) (e2 : ReadErr) (s : State) : Out :=
  effect (stack < 16) (fun s => s.mowRead stack e1 e2) s
/-- MIRROR_FETCH_TIMEOUT (R302). -/
def execMirrorFetchTimeout (stack : Nat) (sector : Nat) (s : State) : Out :=
  effect (stack < 16) (fun s => s.fetchTimeout (36864 * 8192 * stack + sector)) s
/-- RANK_ERROR_WINDOW_END (R315). -/
def execRankErrorWindowEnd (s : State) : Out := effect true (fun s => s.rankWindow) s
/-- MIGRATION_GRANULE_COPIED (R318). -/
def execMigrationGranuleCopied (errors : List (Nat × Nat)) (s : State) : Out :=
  effect true (fun s => s.granuleCopied errors) s

end Sys2Proof.Machine
end

