-- ==== Sys2Proof/Machine/RowsPacket.lean ====
section
/-! DEFINITION. RowsPacket.lean: what each command does: packets that arrive at fabric ports. -/

namespace Sys2Proof.Machine

/-- STREAM_OPEN (R33). -/
def execStreamOpen (p : Packet) (s : State) : Out := kfpRow 0x01 p (innerOf 0x01 p) s
/-- STREAM_CLOSE (R47). -/
def execStreamClose (p : Packet) (s : State) : Out := kfpRow 0x02 p (innerOf 0x02 p) s
/-- STREAM_ABORT (R50). -/
def execStreamAbort (p : Packet) (s : State) : Out := kfpRow 0x03 p (innerOf 0x03 p) s
/-- TILE (R52). -/
def execTile (p : Packet) (s : State) : Out := kfpRow 0x04 p (innerOf 0x04 p) s
/-- RESULT_READ (R116). -/
def execResultRead (p : Packet) (s : State) : Out := kfpRow 0x05 p (innerOf 0x05 p) s
/-- PAGE_FETCH (R164). -/
def execPageFetch (p : Packet) (s : State) : Out := kfpRow 0x10 p (innerOf 0x10 p) s
/-- PAGE_STORE (R164). -/
def execPageStore (p : Packet) (s : State) : Out := kfpRow 0x11 p (innerOf 0x11 p) s
/-- PAGE_CHECKOUT (R168). -/
def execPageCheckout (p : Packet) (s : State) : Out := kfpRow 0x12 p (innerOf 0x12 p) s
/-- PAGE_CHECKIN (R168). -/
def execPageCheckin (p : Packet) (s : State) : Out := kfpRow 0x13 p (innerOf 0x13 p) s
/-- VERSION_OPEN (R173). -/
def execVersionOpen (p : Packet) (s : State) : Out := kfpRow 0x18 p (innerOf 0x18 p) s
/-- VERSION_DRAFT (R173). -/
def execVersionDraft (p : Packet) (s : State) : Out := kfpRow 0x19 p (innerOf 0x19 p) s
/-- VERSION_CLOSE (R177). -/
def execVersionClose (p : Packet) (s : State) : Out := kfpRow 0x1a p (innerOf 0x1a p) s
/-- VERSION_COMMIT (R176). -/
def execVersionCommit (p : Packet) (s : State) : Out := kfpRow 0x1b p (innerOf 0x1b p) s
/-- VERSION_DISCARD (R177). -/
def execVersionDiscard (p : Packet) (s : State) : Out := kfpRow 0x1c p (innerOf 0x1c p) s
/-- LINE_READ_S (R199). -/
def execLineReadS (p : Packet) (s : State) : Out := kfpRow 0x20 p (innerOf 0x20 p) s
/-- LINE_READ_X (R199). -/
def execLineReadX (p : Packet) (s : State) : Out := kfpRow 0x21 p (innerOf 0x21 p) s
/-- LINE_UPGRADE (R199). -/
def execLineUpgrade (p : Packet) (s : State) : Out := kfpRow 0x22 p (innerOf 0x22 p) s
/-- LINE_WRITEBACK (R199). -/
def execLineWriteback (p : Packet) (s : State) : Out := kfpRow 0x23 p (innerOf 0x23 p) s
/-- FETCH_ADD (R202). -/
def execFetchAdd (p : Packet) (s : State) : Out := kfpRow 0x28 p (innerOf 0x28 p) s
/-- FETCH_FADDX (R203). -/
def execFetchFaddx (p : Packet) (s : State) : Out := kfpRow 0x28 p (innerOf 0x28 p) s
/-- CAS (R202). -/
def execCas (p : Packet) (s : State) : Out := kfpRow 0x28 p (innerOf 0x28 p) s
/-- SWAP (R202). -/
def execSwap (p : Packet) (s : State) : Out := kfpRow 0x28 p (innerOf 0x28 p) s
/-- FETCH_MIN (R202). -/
def execFetchMin (p : Packet) (s : State) : Out := kfpRow 0x28 p (innerOf 0x28 p) s
/-- FETCH_MAX (R202). -/
def execFetchMax (p : Packet) (s : State) : Out := kfpRow 0x28 p (innerOf 0x28 p) s
/-- FETCH_UMIN (R202). -/
def execFetchUmin (p : Packet) (s : State) : Out := kfpRow 0x28 p (innerOf 0x28 p) s
/-- FETCH_UMAX (R202). -/
def execFetchUmax (p : Packet) (s : State) : Out := kfpRow 0x28 p (innerOf 0x28 p) s
/-- BARRIER_ARRIVE (R205). -/
def execBarrierArrive (p : Packet) (s : State) : Out := kfpRow 0x28 p (innerOf 0x28 p) s
/-- LOCK_ACQUIRE (R206). -/
def execLockAcquire (p : Packet) (s : State) : Out := kfpRow 0x28 p (innerOf 0x28 p) s
/-- LOCK_RELEASE (R206). -/
def execLockRelease (p : Packet) (s : State) : Out := kfpRow 0x28 p (innerOf 0x28 p) s
/-- SNP_DATA (R190). -/
def execSnpData (p : Packet) (s : State) : Out := kfpRow 0x41 p (innerOf 0x41 p) s
/-- SNP_CLEAN (R190). -/
def execSnpClean (p : Packet) (s : State) : Out := kfpRow 0x42 p (innerOf 0x42 p) s
/-- SNP_NOT_PRESENT (R193). -/
def execSnpNotPresent (p : Packet) (s : State) : Out := kfpRow 0x43 p (innerOf 0x43 p) s
/-- COMPLETION (R353). -/
def execCompletion (p : Packet) (s : State) : Out := kfpRow 0x40 p (innerOf 0x40 p) s
/-- LINK_SESSION_OPEN (R256). -/
def execLinkSessionOpen (p : Packet) (o : LinkOpen) (s : State) : Out := kfpRow 0x50 p { link := some o } s
/-- LINK_SESSION_CLOSE (R257). -/
def execLinkSessionClose (p : Packet) (s : State) : Out := kfpRow 0x51 p (innerOf 0x51 p) s
/-- MCAST_WRITE (R373). -/
def execMcastWrite (p : Packet) (s : State) : Out := kfpRow 0x60 p (innerOf 0x60 p) s
/-- PACKET_FORWARD (R376). -/
def execPacketForward (opcode : Nat) (p : Packet) (s : State) : Out := kfpRow opcode p (innerOf opcode p) s
/-- PAIR_MIRROR (R433). -/
def execPairMirror (p : Packet) (m : MirrorMsg) (s : State) : Out := kfpRow 0x70 p { pair := some (m.term, .mirror m) } s
/-- PAIR_META (R433). -/
def execPairMeta (p : Packet) (term : Nat) (r : PairRec) (s : State) : Out :=
  kfpRow 0x71 p { pair := some (term, .metaRec r) } s
/-- PAIR_BEAT (R428). -/
def execPairBeat (p : Packet) (term : Nat) (info : PeerInfo) (s : State) : Out :=
  kfpRow 0x72 p { pair := some (term, .beat info) } s
/-- PAIR_FETCH (R302). -/
def execPairFetch (p : Packet) (term : Nat) (extent : Nat) (offset : Nat) (s : State) : Out :=
  kfpRow 0x73 p { pair := some (term, .fetch extent offset) } s
/-- PAIR_COPY (R440). -/
def execPairCopy (p : Packet) (term : Nat) (extent : Nat) (offset : Nat) (data : List Byte) (s : State) : Out :=
  kfpRow 0x74 p { pair := some (term, .copy extent offset data) } s
/-- PAIR_FENCE (R428). -/
def execPairFence (p : Packet) (term : Nat) (s : State) : Out := kfpRow 0x75 p { pair := some (term, .fence) } s
/-- LEASE_COMPLETION (R429). -/
def execLeaseCompletion (p : Packet) (sigOk : Bool) (s : State) : Out := kfpRow 0x40 p { sigOk } s

end Sys2Proof.Machine
end

