-- ==== Sys2Proof/Machine/RowsSession.lean ====
section
/-! DEFINITION. RowsSession.lean: what each command does: sessions, control and attestation commands. -/

namespace Sys2Proof.Machine

/-- CCP_HELLO (R447). -/
def execCcpHello (port : Nat) (ver : Nat) (role : Role) (tenant : Nat) (keyHash : Nat) (s : State) : Out :=
  effect (port < 2) (fun s => s.helloWhole port ver role tenant keyHash) s
/-- CCP_FINISH (R447). -/
def execCcpFinish (port : Nat) (session : Nat) (sigOk : Bool) (s : State) : Out :=
  effect (port < 2) (fun s => s.finishWhole port session sigOk) s
/-- CCP_CLOSE (R475). -/
def execCcpClose (c : CcpCmd) (s : State) : Out := ccpRowOf ccpCloseSpec bodyCcpClose c true true s
/-- MBX_DROP (R453). -/
def execMbxDrop (c : CcpCmd) (s : State) : Out := ccpRowOf mbxDropSpec bodyMbxDrop c true true s
/-- ETH_SET (R456). -/
def execEthSet (c : CcpCmd) (s : State) : Out := ccpRowOf ethSetSpec bodyEthSet c true true s
/-- CAPABILITY_QUERY (R474). -/
def execCapabilityQuery (c : CcpCmd) (s : State) : Out := ccpRowOf capabilityQuerySpec bodyCapabilityQuery c true true s
/-- READY_QUERY (R479). -/
def execReadyQuery (c : CcpCmd) (s : State) : Out := ccpRowOf readyQuerySpec bodyReadyQuery c true true s
/-- EXP_TABLE_QUERY (R529). -/
def execExpTableQuery (c : CcpCmd) (s : State) : Out := ccpRowOf expTableQuerySpec bodyExpTableQuery c true true s
/-- DEVICE_RESET_COLD (R481). -/
def execDeviceResetCold (c : CcpCmd) (s : State) : Out := ccpRowOf deviceResetSpec bodyDeviceReset c true true s
/-- DEVICE_RESET_MGMT (R481). -/
def execDeviceResetMgmt (c : CcpCmd) (s : State) : Out := ccpRowOf deviceResetSpec bodyDeviceReset c true true s
/-- DEVICE_RESET_FIELD (R481). -/
def execDeviceResetField (c : CcpCmd) (s : State) : Out := ccpRowOf deviceResetSpec bodyDeviceReset c true true s
/-- DEVICE_RESET_PORT (R481). -/
def execDeviceResetPort (c : CcpCmd) (s : State) : Out := ccpRowOf deviceResetSpec bodyDeviceReset c true true s
/-- SPDM_GET_VERSION (R268). -/
def execSpdmGetVersion (c : CcpCmd) (s : State) : Out := effect (c.port < 2) (fun s => s.spdmServe c) s
/-- SPDM_GET_CAPABILITIES (R268). -/
def execSpdmGetCapabilities (c : CcpCmd) (s : State) : Out := effect (c.port < 2) (fun s => s.spdmServe c) s
/-- SPDM_NEGOTIATE_ALGORITHMS (R268). -/
def execSpdmNegotiateAlgorithms (c : CcpCmd) (s : State) : Out := effect (c.port < 2) (fun s => s.spdmServe c) s
/-- SPDM_GET_DIGESTS (R268). -/
def execSpdmGetDigests (c : CcpCmd) (s : State) : Out := effect (c.port < 2) (fun s => s.spdmServe c) s
/-- SPDM_GET_CERTIFICATE (R267). -/
def execSpdmGetCertificate (c : CcpCmd) (s : State) : Out := effect (c.port < 2) (fun s => s.spdmServe c) s
/-- SPDM_CHALLENGE (R270). -/
def execSpdmChallenge (c : CcpCmd) (s : State) : Out := effect (c.port < 2) (fun s => s.spdmServe c) s
/-- SPDM_GET_MEASUREMENTS (R269). -/
def execSpdmGetMeasurements (c : CcpCmd) (s : State) : Out := effect (c.port < 2) (fun s => s.spdmServe c) s

end Sys2Proof.Machine
end

