-- ==== Sys2Proof/Machine/RowsStream.lean ====
section
/-! DEFINITION. RowsStream.lean: what each command does: common, stream, format, window and sequence commands. -/

namespace Sys2Proof.Machine

/-- COMMON_CREATE (R185). -/
def execCommonCreate (c : CcpCmd) (s : State) : Out := ccpRowOf commonCreateSpec bodyCommonCreate c true true s
/-- COMMON_ENABLE (R186). -/
def execCommonEnable (c : CcpCmd) (s : State) : Out := ccpRowOf commonEnableSpec bodyCommonEnable c true true s
/-- COMMON_DELETE (R187). -/
def execCommonDelete (c : CcpCmd) (s : State) : Out := ccpRowOf commonDeleteSpec bodyCommonDelete c true true s
/-- DIR_PARTITION (R196). -/
def execDirPartition (c : CcpCmd) (s : State) : Out := ccpRowOf dirPartitionSpec bodyDirPartition c true true s
/-- STREAM_CREATE (R33). -/
def execStreamCreate (c : CcpCmd) (s : State) : Out := ccpRowOf streamCreateSpec bodyStreamCreate c true true s
/-- STREAM_CLOSE_CCP (R48). -/
def execStreamCloseCcp (c : CcpCmd) (s : State) : Out := ccpRowOf streamCloseCcpSpec bodyStreamClose c true true s
/-- STREAM_ABORT_CCP (R50). -/
def execStreamAbortCcp (c : CcpCmd) (s : State) : Out := ccpRowOf streamAbortCcpSpec bodyStreamAbort c true true s
/-- STREAM_PRIORITY (R394). -/
def execStreamPriority (c : CcpCmd) (s : State) : Out := ccpRowOf streamPrioritySpec bodyStreamPriority c true true s
/-- FORMAT_LOAD (R66). -/
def execFormatLoad (c : CcpCmd) (s : State) : Out := ccpRowOf formatLoadSpec bodyFormatLoad c true true s
/-- VECTOR_PROG_LOAD (R80). -/
def execVectorProgLoad (c : CcpCmd) (s : State) : Out := ccpRowOf vectorProgLoadSpec bodyVectorProgLoad c true true s
/-- WINDOW_CREATE (R99). -/
def execWindowCreate (c : CcpCmd) (s : State) : Out := ccpRowOf windowCreateSpec bodyWindowCreate c true true s
/-- WINDOW_ENABLE (R103). -/
def execWindowEnable (c : CcpCmd) (s : State) : Out := ccpRowOf windowEnableSpec bodyWindowEnable c true true s
/-- WINDOW_ABORT (R119). -/
def execWindowAbort (c : CcpCmd) (s : State) : Out := ccpRowOf windowAbortSpec bodyWindowAbort c true true s
/-- WINDOW_RETIRE (R121). -/
def execWindowRetire (c : CcpCmd) (s : State) : Out := ccpRowOf windowRetireSpec bodyWindowRetire c true true s
/-- WINDOW_DELETE (R118). -/
def execWindowDelete (c : CcpCmd) (s : State) : Out := ccpRowOf windowDeleteSpec bodyWindowDelete c true true s
/-- WINDOW_QUERY (R123). -/
def execWindowQuery (c : CcpCmd) (s : State) : Out := ccpRowOf windowQuerySpec bodyWindowQuery c true true s
/-- SEQ_CREATE (R124). -/
def execSeqCreate (c : CcpCmd) (s : State) : Out := ccpRowOf seqCreateSpec bodySeqCreate c true true s
/-- SEQ_ENABLE (R129). -/
def execSeqEnable (c : CcpCmd) (s : State) : Out := ccpRowOf seqEnableSpec bodySeqEnable c true true s
/-- SEQ_TRUNCATE (R128). -/
def execSeqTruncate (c : CcpCmd) (s : State) : Out := ccpRowOf seqTruncateSpec bodySeqTruncate c true true s
/-- SEQ_DISABLE (R127). -/
def execSeqDisable (c : CcpCmd) (s : State) : Out := ccpRowOf seqDisableSpec bodySeqDisable c true true s
/-- SEQ_DELETE (R127). -/
def execSeqDelete (c : CcpCmd) (s : State) : Out := ccpRowOf seqDeleteSpec bodySeqDelete c true true s
/-- SEQ_QUERY (R130). -/
def execSeqQuery (c : CcpCmd) (s : State) : Out := ccpRowOf seqQuerySpec bodySeqQuery c true true s

end Sys2Proof.Machine
end

