-- ==== Sys2Proof/Machine/RowsTenant.lean ====
section
/-! DEFINITION. RowsTenant.lean: what each command does: tenant, key, pool and translation commands. -/

namespace Sys2Proof.Machine

/-- TENANT_CREATE (R237). -/
def execTenantCreate (c : CcpCmd) (s : State) : Out := ccpRowOf tenantCreateSpec bodyTenantCreate c true true s
/-- TENANT_DELETE (R238). -/
def execTenantDelete (c : CcpCmd) (s : State) : Out := ccpRowOf tenantDeleteSpec bodyTenantDelete c true true s
/-- TENANT_SESSION_END (R241). -/
def execTenantSessionEnd (c : CcpCmd) (s : State) : Out := ccpRowOf tenantSessionEndSpec bodySessionEnd c true true s
/-- TENANT_EVICT (R240). -/
def execTenantEvict (c : CcpCmd) (s : State) : Out := ccpRowOf tenantEvictSpec bodyTenantEvict c true true s
/-- KEY_ROTATE (R250). -/
def execKeyRotate (c : CcpCmd) (s : State) : Out := ccpRowOf keyRotateSpec bodyKeyRotate c true true s
/-- ADMIT (R255). -/
def execAdmitIdentity (c : CcpCmd) (s : State) : Out := ccpRowOf admitSpec bodyAdmit c true true s
/-- ADMIT_WITHDRAW (R255). -/
def execAdmitWithdraw (c : CcpCmd) (s : State) : Out := ccpRowOf admitSpec bodyAdmit c true true s
/-- SET_LOAD (R260). -/
def execSetLoad (c : CcpCmd) (sigOk : Bool) (s : State) : Out := ccpRowOf setLoadSpec bodySetLoad c sigOk true s
/-- SET_DELETE (R261). -/
def execSetDelete (c : CcpCmd) (s : State) : Out := ccpRowOf setDeleteSpec bodySetDelete c true true s
/-- WEIGHT_IMPORT_BEGIN (R263). -/
def execWeightImportBegin (c : CcpCmd) (unwrapOk : Bool) (s : State) : Out :=
  ccpRowOf weightImportBeginSpec bodyImportBegin c unwrapOk true s
/-- WEIGHT_IMPORT_END (R264). -/
def execWeightImportEnd (c : CcpCmd) (s : State) : Out := ccpRowOf weightImportEndSpec bodyImportEnd c true true s
/-- WEIGHT_IMPORT_BIND (R472). -/
def execWeightImportBind (c : CcpCmd) (s : State) : Out := ccpRowOf weightImportBindSpec bodyImportBind c true true s
/-- RESERVE_SET (R153). -/
def execReserveSet (c : CcpCmd) (s : State) : Out := ccpRowOf reserveSetSpec bodyReserveSet c true true s
/-- CAPACITY_QUERY (R155). -/
def execCapacityQuery (c : CcpCmd) (s : State) : Out := ccpRowOf capacityQuerySpec bodyCapacityQuery c true true s
/-- SPACE_CREATE (R211). -/
def execSpaceCreate (c : CcpCmd) (s : State) : Out := ccpRowOf spaceCreateSpec bodySpaceCreate c true true s
/-- SPACE_DELETE (R213). -/
def execSpaceDelete (c : CcpCmd) (s : State) : Out := ccpRowOf spaceDeleteSpec bodySpaceDelete c true true s
/-- EXTENT_CREATE (R156). -/
def execExtentCreate (c : CcpCmd) (s : State) : Out := ccpRowOf extentCreateSpec bodyExtentCreate c true true s
/-- EXTENT_ENABLE (R157). -/
def execExtentEnable (c : CcpCmd) (s : State) : Out := ccpRowOf extentEnableSpec bodyExtentEnable c true true s
/-- EXTENT_DELETE (R182). -/
def execExtentDelete (c : CcpCmd) (s : State) : Out := ccpRowOf extentDeleteSpec bodyExtentDelete c true true s
/-- EXTENT_QUERY (R161). -/
def execExtentQuery (c : CcpCmd) (s : State) : Out := ccpRowOf extentQuerySpec bodyExtentQuery c true true s
/-- EXTENT_RECLAIM (R181). -/
def execExtentReclaim (c : CcpCmd) (s : State) : Out := ccpRowOf extentReclaimSpec bodyExtentReclaim c true true s
/-- EXTENT_MAP (R216). -/
def execExtentMap (c : CcpCmd) (s : State) : Out := ccpRowOf extentMapSpec bodyExtentMap c true true s
/-- EXTENT_UNMAP (R218). -/
def execExtentUnmap (c : CcpCmd) (s : State) : Out := ccpRowOf extentUnmapSpec bodyExtentUnmap c true true s
/-- L2_PARTITION (R232). -/
def execL2Partition (c : CcpCmd) (s : State) : Out := ccpRowOf l2PartitionSpec bodyL2Partition c true true s

end Sys2Proof.Machine
end

