-- ==== Sys2Proof/Machine/RowsUnit.lean ====
section
/-! DEFINITION. RowsUnit.lean: what each command does: port, routing, scheduling, power, pair, firmware, event and diagnostic commands. -/

namespace Sys2Proof.Machine

/-- PORT_SET (R346). -/
def execPortSet (c : CcpCmd) (s : State) : Out := ccpRowOf portSetSpec bodyPortSet c true true s
/-- PORT_QUERY (R346). -/
def execPortQuery (c : CcpCmd) (s : State) : Out := ccpRowOf portQuerySpec bodyPortQuery c true true s
/-- ROUTE_SET (R370). -/
def execRouteSet (c : CcpCmd) (s : State) : Out := ccpRowOf routeSetSpec bodyRouteSet c true true s
/-- ROUTE_EPOCH (R370). -/
def execRouteEpoch (c : CcpCmd) (s : State) : Out := ccpRowOf routeEpochSpec bodyRouteEpoch c true true s
/-- ROUTE_QUERY (R370). -/
def execRouteQuery (c : CcpCmd) (s : State) : Out := ccpRowOf routeQuerySpec bodyRouteQuery c true true s
/-- MCAST_SET (R372). -/
def execMcastSet (c : CcpCmd) (s : State) : Out := ccpRowOf mcastSetSpec bodyMcastSet c true true s
/-- POLICE_SET_METER (R386). -/
def execPoliceSetMeter (c : CcpCmd) (s : State) : Out := ccpRowOf policeSetSpec bodyPoliceSet c true true s
/-- POLICE_SET_PROFILE (R386). -/
def execPoliceSetProfile (c : CcpCmd) (s : State) : Out := ccpRowOf policeSetSpec bodyPoliceSet c true true s
/-- SCHED_SET (R387). -/
def execSchedSet (c : CcpCmd) (s : State) : Out := ccpRowOf schedSetSpec bodySchedSet c true true s
/-- ARB_SET (R393). -/
def execArbSet (c : CcpCmd) (s : State) : Out := ccpRowOf arbSetSpec bodyArbSet c true true s
/-- ISOLATE_SET_ENABLE (R395). -/
def execIsolateSetEnable (c : CcpCmd) (s : State) : Out := ccpRowOf isolateSetSpec bodyIsolateSet c true true s
/-- ISOLATE_SET_DISABLE (R395). -/
def execIsolateSetDisable (c : CcpCmd) (s : State) : Out := ccpRowOf isolateSetSpec bodyIsolateSet c true true s
/-- CADENCE_SET (R146). -/
def execCadenceSet (c : CcpCmd) (s : State) : Out := ccpRowOf cadenceSetSpec bodyCadenceSet c true true s
/-- HIST_QUERY (R401). -/
def execHistQuery (c : CcpCmd) (s : State) : Out := ccpRowOf histQuerySpec bodyHistQuery c true true s
/-- POWER_SET (R409). -/
def execPowerSet (c : CcpCmd) (s : State) : Out := ccpRowOf powerSetSpec bodyPowerSet c true true s
/-- POWER_QUERY (R409). -/
def execPowerQuery (c : CcpCmd) (s : State) : Out := ccpRowOf powerQuerySpec bodyPowerQuery c true true s
/-- SLEEP_SET (R422). -/
def execSleepSet (c : CcpCmd) (s : State) : Out := ccpRowOf sleepSetSpec bodySleepSet c true true s
/-- SLEEP_ENTER_SL3 (R422). -/
def execSleepEnterSl3 (c : CcpCmd) (s : State) : Out := ccpRowOf sleepEnterSpec bodySleepEnter c true true s
/-- SLEEP_ENTER_SL4 (R422). -/
def execSleepEnterSl4 (c : CcpCmd) (s : State) : Out := ccpRowOf sleepEnterSpec bodySleepEnter c true true s
/-- SLEEP_ENTER_WAKE (R422). -/
def execSleepEnterWake (c : CcpCmd) (s : State) : Out := ccpRowOf sleepEnterSpec bodySleepEnter c true true s
/-- PAIR_SET_ENABLE (R425). -/
def execPairSetEnable (c : CcpCmd) (s : State) : Out := ccpRowOf pairSetSpec bodyPairSet c true true s
/-- PAIR_SET_DISABLE (R425). -/
def execPairSetDisable (c : CcpCmd) (s : State) : Out := ccpRowOf pairSetSpec bodyPairSet c true true s
/-- PAIR_QUERY (R425). -/
def execPairQuery (c : CcpCmd) (s : State) : Out := ccpRowOf pairQuerySpec bodyPairQuery c true true s
/-- FW_STAGE (R487). -/
def execFwStage (c : CcpCmd) (s : State) : Out := ccpRowOf fwStageSpec bodyFwStage c true true s
/-- FW_ACTIVATE_MGMT (R490). -/
def execFwActivateMgmt (c : CcpCmd) (s : State) : Out := ccpRowOf fwActivateSpec bodyFwActivate c true true s
/-- FW_ACTIVATE_KE (R490). -/
def execFwActivateKe (c : CcpCmd) (s : State) : Out := ccpRowOf fwActivateSpec bodyFwActivate c true true s
/-- FW_ACTIVATE_BOTH (R490). -/
def execFwActivateBoth (c : CcpCmd) (s : State) : Out := ccpRowOf fwActivateSpec bodyFwActivate c true true s
/-- FW_ACTIVATE_COMMIT_SEC (R490). -/
def execFwActivateCommitSec (c : CcpCmd) (s : State) : Out := ccpRowOf fwActivateSpec bodyFwActivate c true true s
/-- FW_QUERY (R493). -/
def execFwQuery (c : CcpCmd) (s : State) : Out := ccpRowOf fwQuerySpec bodyFwQuery c true true s
/-- CONFIG_SET (R494). -/
def execConfigSet (c : CcpCmd) (s : State) : Out := ccpRowOf configSetSpec bodyConfigSet c true true s
/-- CONFIG_QUERY (R494). -/
def execConfigQuery (c : CcpCmd) (s : State) : Out := ccpRowOf configQuerySpec bodyConfigQuery c true true s
/-- DEBUG_UNLOCK (R236). -/
def execDebugUnlock (c : CcpCmd) (sigOk : Bool) (nameOk : Bool) (s : State) : Out :=
  ccpRowOf debugUnlockSpec bodyDebugUnlock c sigOk nameOk s
/-- EVENT_READ (R506). -/
def execEventRead (c : CcpCmd) (s : State) : Out := ccpRowOf eventReadSpec bodyEventRead c true true s
/-- STATS_QUERY (R507). -/
def execStatsQuery (c : CcpCmd) (s : State) : Out := ccpRowOf statsQuerySpec bodyStatsQuery c true true s
/-- MEM_ERR_LOG (R309). -/
def execMemErrLog (c : CcpCmd) (s : State) : Out := ccpRowOf memErrLogSpec bodyMemErrLog c true true s
/-- MOW_SET (R312). -/
def execMowSet (c : CcpCmd) (s : State) : Out := ccpRowOf mowSetSpec bodyMowSet c true true s
/-- CHECKER_TEST_ARM (R313). -/
def execCheckerTestArm (c : CcpCmd) (s : State) : Out := ccpRowOf checkerTestSpec bodyCheckerTest c true true s
/-- CHECKER_TEST_WRITE (R313). -/
def execCheckerTestWrite (c : CcpCmd) (s : State) : Out := ccpRowOf checkerTestSpec bodyCheckerTest c true true s
/-- CHECKER_TEST_READ (R313). -/
def execCheckerTestRead (c : CcpCmd) (s : State) : Out := ccpRowOf checkerTestSpec bodyCheckerTest c true true s
/-- CHECKER_TEST_RELEASE (R313). -/
def execCheckerTestRelease (c : CcpCmd) (s : State) : Out := ccpRowOf checkerTestSpec bodyCheckerTest c true true s
/-- RANK_RETIRE_NOW (R320). -/
def execRankRetireNow (c : CcpCmd) (s : State) : Out := ccpRowOf rankRetireSpec bodyRankRetire c true true s
/-- RANK_RETIRE_CLEAR (R320). -/
def execRankRetireClear (c : CcpCmd) (s : State) : Out := ccpRowOf rankRetireSpec bodyRankRetire c true true s
/-- STACK_DIAG_READ (R473). -/
def execStackDiagRead (c : CcpCmd) (s : State) : Out := ccpRowOf stackDiagSpec bodyStackDiag c true true s
/-- STACK_DIAG_RUN (R473). -/
def execStackDiagRun (c : CcpCmd) (s : State) : Out := ccpRowOf stackDiagSpec bodyStackDiag c true true s
/-- STACK_DIAG_READ_CLEAR (R473). -/
def execStackDiagReadClear (c : CcpCmd) (s : State) : Out := ccpRowOf stackDiagSpec bodyStackDiag c true true s
/-- BULK_OPEN (R457). -/
def execBulkOpen (c : CcpCmd) (s : State) : Out := ccpRowOf bulkOpenSpec bodyBulkOpen c true true s
/-- BULK_CLOSE (R457). -/
def execBulkClose (c : CcpCmd) (s : State) : Out := ccpRowOf bulkCloseSpec bodyBulkClose c true true s
/-- BULK_STATUS (R459). -/
def execBulkStatus (c : CcpCmd) (s : State) : Out := ccpRowOf bulkStatusSpec bodyBulkStatus c true true s

end Sys2Proof.Machine
end

