-- ==== Sys2Proof/Machine/RowsUnitEvents.lean ====
section
/-! DEFINITION. RowsUnitEvents.lean: what each command does: policing, power, Ethernet and CCP frames, boot and resets. -/

namespace Sys2Proof.Machine

/-- POLICE_REFILL (R383). -/
def execPoliceRefill (s : State) : Out := effect true (fun s => s.policeRefill) s
/-- HIST_DEPTH_SAMPLE (R400). -/
def execHistDepthSample (s : State) : Out := effect true (fun s => s.depthSample) s
/-- POWER_PERIOD (R410). -/
def execPowerPeriod (m : PowerSample) (s : State) : Out := effect true (fun s => s.powerPeriod m) s
/-- LINK_POWER_DECISION (R412). -/
def execLinkPowerDecision (estimate : Nat) (s : State) : Out := effect true (fun s => s.linkDecision estimate) s
/-- PMBUS_TELEMETRY (R407). -/
def execPmbusTelemetry (milliwatts : List (Option Nat)) (s : State) : Out := effect true (fun s => s.telemetry milliwatts) s
/-- STATION_CEILING_UPDATE (R416). -/
def execStationCeilingUpdate (station : Nat) (used : Nat) (s : State) : Out :=
  effect (station < 144) (fun s => s.ceilingUpdate station used) s
/-- DROOP_TRIP (R417). -/
def execDroopTrip (field : Nat) (s : State) : Out := effect (field < 16) (fun s => s.droopTrip field) s
/-- DROOP_CLAMP_LIFT (R417). -/
def execDroopClampLift (s : State) : Out := effect true (fun s => s.clampLift) s
/-- DROOP_WINDOW_END (R417). -/
def execDroopWindowEnd (s : State) : Out := effect true (fun s => s.droopWindow) s
/-- THERMAL_READING (R418). -/
def execThermalReading (celsius : Int) (s : State) : Out := effect true (fun s => s.thermalReading celsius) s
/-- PLL_LOCK (R404). -/
def execPllLock (s : State) : Out := effect true (fun s => s.pllLock) s
/-- REGULATOR_VDONE (R405). -/
def execRegulatorVdone (s : State) : Out := effect true (fun s => s.vdone) s
/-- REGULATOR_ACK_TIMEOUT (R405). -/
def execRegulatorAckTimeout (s : State) : Out := effect true (fun s => s.ackTimeout) s
/-- STATION_SL1_IDLE (R420). -/
def execStationSl1Idle (station : Nat) (s : State) : Out := effect (station < 144) (fun s => s.sl1Idle station) s
/-- FIELD_SL2_IDLE (R420). -/
def execFieldSl2Idle (field : Nat) (s : State) : Out := effect (field < 16) (fun s => s.sl2Idle field) s
/-- DOMAIN_WAKE_READY (R421). -/
def execDomainWakeReady (d : WakeDomain) (s : State) : Out := effect d.wf (fun s => s.wakeReady d) s
/-- WAKE_EVENT (R423). -/
def execWakeEvent (w : WakeSource) (s : State) : Out := effect w.wf (fun s => s.wakeOn w) s
/-- ETH_FRAME_RX (R443). -/
def execEthFrameRx (port : Nat) (f : EthFrame) (s : State) : Out := effect (port < 2) (fun s => s.ethFrame port f) s
/-- INTAKE_FIFO_READ (R454). -/
def execIntakeFifoRead (port : Nat) (s : State) : Out := effect (port < 2) (fun s => s.fifoRead port) s
/-- CCP_FRAGMENT (R450). -/
def execCcpFragment (f : CcpFrame) (s : State) : Out := effect (f.port < 2) (fun s => s.takeCcp f) s
/-- BULK_FRAME (R458). -/
def execBulkFrame (f : CcpFrame) (s : State) : Out := effect (f.port < 2) (fun s => s.takeCcp f) s
/-- PFC_REPEAT_TIMER (R455). -/
def execPfcRepeatTimer (port : Nat) (s : State) : Out := effect (port < 2) (fun s => s.pfcRepeat port) s
/-- PFC_PAUSE_EXPIRY (R462). -/
def execPfcPauseExpiry (session : Nat) (cmdId : Nat) (s : State) : Out :=
  effect true (fun s => s.pauseExpiry session cmdId) s
/-- HANDSHAKE_TIMEOUT (R462). -/
def execHandshakeTimeout (session : Nat) (s : State) : Out := effect true (fun s => s.handshakeTimeout session) s
/-- FRAGMENT_TIMEOUT (R462). -/
def execFragmentTimeout (mailbox : Nat) (s : State) : Out := effect true (fun s => s.fragmentTimeout mailbox) s
/-- BULK_CHANNEL_IDLE (R457). -/
def execBulkChannelIdle (channel : Nat) (s : State) : Out := effect true (fun s => s.channelIdle channel) s
/-- CCP_SESSION_IDLE (R448). -/
def execCcpSessionIdle (session : Nat) (s : State) : Out := effect true (fun s => s.sessionIdle session) s
/-- EVENT_NOTICE_SEND (R465). -/
def execEventNoticeSend (session : Nat) (s : State) : Out := effect true (fun s => s.noticeSend session) s
/-- RESET_N_ASSERT (R517). -/
def execResetNAssert (s : State) : Out := .next (s.resetAssert).settle
/-- COLD_BOOT (R477). -/
def execColdBoot (initMode : Bool) (s : State) : Out := .next (s.coldBoot initMode).settle
/-- KEY_ENGINE_BOOT_DONE (R477). -/
def execKeyEngineBootDone (v : BootVerdict) (s : State) : Out := effect true (fun s => s.keBoot v) s
/-- MGMT_START (R477). -/
def execMgmtStart (s : State) : Out := effect true (fun s => s.mgmtStart) s
/-- STATION_TEST_DONE (R14). -/
def execStationTestDone (field : Nat) (passMask : Nat) (s : State) : Out :=
  effect (field < 16) (fun s => s.stationTested field passMask) s
/-- FIELD_RESET_DONE (R20). -/
def execFieldResetDone (field : Nat) (passMask : Nat) (s : State) : Out :=
  effect (field < 16) (fun s => s.fieldResetDone field passMask) s
/-- ETH_LINK_UP (R442). -/
def execEthLinkUp (port : Nat) (s : State) : Out := effect (port < 2) (fun s => s.ethUp port) s
/-- MGMT_WATCHDOG_EXPIRY (R482). -/
def execMgmtWatchdogExpiry (core : Nat) (s : State) : Out := effect (core < 4) (fun s => s.mgmtWatchdog) s
/-- MGMT_RESTART_DONE (R482). -/
def execMgmtRestartDone (s : State) : Out := effect true (fun s => s.mgmtRestarted) s
/-- KEY_ENGINE_WATCHDOG (R500). -/
def execKeyEngineWatchdog (s : State) : Out := effect true (fun s => s.halt 2) s
/-- REFCLK_LOSS (R26). -/
def execRefclkLoss (s : State) : Out := effect true (fun s => s.halt 0) s
/-- VDD_AON_LOSS (R517). -/
def execVddAonLoss (s : State) : Out := .next (s.aonLoss).settle
/-- FW_STAGE_DONE (R488). -/
def execFwStageDone (r : StageResult) (s : State) : Out := effect true (fun s => s.stageDone r) s
/-- FW_STAGE_TIMEOUT (R487). -/
def execFwStageTimeout (s : State) : Out := effect true (fun s => s.stageTimeout) s
/-- MGMT_RUNNING_REPORT (R492). -/
def execMgmtRunningReport (s : State) : Out := effect true (fun s => s.runningReport) s
/-- FW_TRIAL_TIMEOUT (R492). -/
def execFwTrialTimeout (s : State) : Out := effect true (fun s => s.trialTimeout) s
/-- KE_ACTIVATION_DONE (R491). -/
def execKeActivationDone (s : State) : Out := effect true (fun s => s.keDone) s
/-- SD_CARD_REMOVAL (R524). -/
def execSdCardRemoval (s : State) : Out := .next (s.cardOut).settle
/-- PMB_ALERT_EDGE (R522). -/
def execPmbAlertEdge (s : State) : Out := effect true (fun s => s.pmbAlert) s
/-- PMBUS_CLOCK_TIMEOUT (R522). -/
def execPmbusClockTimeout (rail : Nat) (s : State) : Out := effect (rail < 8) (fun s => s.railRead rail none) s
/-- LEASE_CLAIM_RETRY (R431). -/
def execLeaseClaimRetry (s : State) : Out := effect true (fun s => s.claimRetry) s
/-- ETH_LINK_DOWN (R479). -/
def execEthLinkDown (port : Nat) (s : State) : Out := effect (port < 2) (fun s => s.ethDown port) s

end Sys2Proof.Machine
end

