-- ==== Sys2Proof/Machine/RowsWork.lean ====
section
/-! DEFINITION. RowsWork.lean: what each command does: tiles, ledgers, sequences, extents, lines, translation and keys. -/

namespace Sys2Proof.Machine

/-- TILE_STEP_END (R18). -/
def execTileStepEnd (station : Nat) (stream : Nat) (index : Nat) (cycles : Nat) (check : StepCheck) (s : State) : Out :=
  effect (station < 144) (fun s => s.stepEnd station stream index cycles check) s
/-- STEP_WATCHDOG_EXPIRY (R17). -/
def execStepWatchdogExpiry (station : Nat) (s : State) : Out := effect (station < 144) (fun s => s.stepWatchdog station) s
/-- FENCE_STATE_MOVED (R19). -/
def execFenceStateMoved (station : Nat) (lost : List (Nat × Nat)) (s : State) : Out :=
  effect (station < 144) (fun s => s.fenceMoved station lost) s
/-- TILE_FINAL_WRITE_DONE (R53). -/
def execTileFinalWriteDone (stream : Nat) (index : Nat) (s : State) : Out :=
  effect true (fun s => s.tileWritten stream index) s
/-- EXTENT_TILE_ISSUE (R59). -/
def execExtentTileIssue (stream : Nat) (s : State) : Out := effect true (fun s => s.issueTile stream) s
/-- STREAM_IDLE_TIMEOUT (R47). -/
def execStreamIdleTimeout (stream : Nat) (s : State) : Out := effect true (fun s => s.streamIdle stream) s
/-- STREAM_RELEASE_TIMEOUT (R47). -/
def execStreamReleaseTimeout (stream : Nat) (s : State) : Out := effect true (fun s => s.streamRelease stream) s
/-- LEDGER_CONTRIBUTION (R107). -/
def execLedgerContribution (stream : Nat) (index : Nat) (s : State) : Out :=
  effect true (fun s => s.contributeTile stream index) s
/-- LEDGER_FINAL_WRITE_DONE (R110). -/
def execLedgerFinalWriteDone (window : Nat) (ltile : Nat) (s : State) : Out :=
  effect true (fun s => s.ledgerWrite window ltile) s
/-- WINDOW_IDLE_TIMEOUT (R118). -/
def execWindowIdleTimeout (window : Nat) (s : State) : Out := effect true (fun s => s.windowIdle window) s
/-- QUERY_SCORE_RELEASE (R138). -/
def execQueryScoreRelease (stream : Nat) (index : Nat) (s : State) : Out :=
  effect true (fun s => s.scoreRelease stream index) s
/-- SPLIT_FINISH (R144). -/
def execSplitFinish (stream : Nat) (index : Nat) (split : Nat) (s : State) : Out :=
  effect true (fun s => s.splitFinish stream index split) s
/-- SEQ_HOLD_RELEASE (R127). -/
def execSeqHoldRelease (context : Nat) (s : State) : Out := effect true (fun s => s.endHold context) s
/-- CADENCE_PERIOD_END (R148). -/
def execCadencePeriodEnd (cls : Nat) (s : State) : Out := effect true (fun s => s.cadenceEnd cls) s
/-- RECALL_TIMEOUT (R170). -/
def execRecallTimeout (extent : Nat) (page : Nat) (s : State) : Out := effect true (fun s => s.recallTimeout extent page) s
/-- DRAFT_WRITES_DRAINED (R176). -/
def execDraftWritesDrained (extent : Nat) (s : State) : Out := effect true (fun s => s.draftDrained extent) s
/-- REFUSAL_MARK_IN_FORCE (R182). -/
def execRefusalMarkInForce (m : MarkOf) (s : State) : Out := effect true (fun s => s.markInForce m) s
/-- RANGE_INVALIDATION_ACK (R230). -/
def execRangeInvalidationAck (inval : Nat) (engine : Nat) (s : State) : Out :=
  effect (engine < 161) (fun s => s.invalAck inval engine) s
/-- REVOCATION_SLOW_EXPIRY (R183). -/
def execRevocationSlowExpiry (inval : Nat) (s : State) : Out := effect true (fun s => s.invalSlow inval) s
/-- GRANULE_ZEROED (R184). -/
def execGranuleZeroed (granule : Nat) (s : State) : Out := effect (granule < 589824) (fun s => s.granuleZeroed granule) s
/-- SNOOP_TIMEOUT (R207). -/
def execSnoopTimeout (line : Nat) (node : Nat) (s : State) : Out := effect true (fun s => s.snoopTimeout line node) s
/-- WRITEBACK_RECORD_EXPIRY (R191). -/
def execWritebackRecordExpiry (line : Nat) (node : Nat) (s : State) : Out := effect true (fun s => s.wbExpiry line node) s
/-- LOST_HOLDER_SWEEP (R207). -/
def execLostHolderSweep (line : Nat) (s : State) : Out := effect true (fun s => s.lostSweep line) s
/-- IDENT_INVALIDATION_IN_FORCE (R228). -/
def execIdentInvalidationInForce (asid : Nat) (s : State) : Out := effect true (fun s => s.identInForce asid) s
/-- TRANSLATION_WALK_DONE (R219). -/
def execTranslationWalkDone (engine : Nat) (asid : Nat) (va : Nat) (s : State) : Out :=
  effect (engine < 161) (fun s => s.walkDone engine asid va) s
/-- POPULATION_DONE (R227). -/
def execPopulationDone (asid : Nat) (granule : Nat) (s : State) : Out :=
  effect true (fun s => s.populationDone asid granule) s
/-- POPULATION_WAIT_EXPIRY (R226). -/
def execPopulationWaitExpiry (src : Nat) (tag : Nat) (s : State) : Out := effect true (fun s => s.populationWait src tag) s
/-- KEY_SLOT_ERASE (R241). -/
def execKeySlotErase (tenant : Nat) (s : State) : Out := effect true (fun s => s.keySlotErase tenant) s
/-- SESSION_END_SLOW_EXPIRY (R241). -/
def execSessionEndSlowExpiry (tenant : Nat) (s : State) : Out := effect true (fun s => s.endSlow tenant) s
/-- ROTATION_REWRITE_DONE (R250). -/
def execRotationRewriteDone (tenant : Nat) (s : State) : Out := effect true (fun s => s.rotationDone tenant) s
/-- WEIGHT_CHUNK (R263). -/
def execWeightChunk (extent : Nat) (plain : List Byte) (tagOk : Bool) (s : State) : Out :=
  effect true (fun s => s.weightChunk extent plain tagOk) s
/-- SESSION_ID_BAR_EXPIRY (R257). -/
def execSessionIdBarExpiry (id : Nat) (s : State) : Out := effect true (fun s => s.barExpiry id) s

end Sys2Proof.Machine
end

