-- ==== Sys2Proof/Machine/Dispatch.lean ====
section
/-! DEFINITION. Dispatch.lean: which meaning each command calls. -/

namespace Sys2Proof.Machine

/-- The effect of a command on everything but the queue. -/
def exec (i : Instr) (s : State) : Host.Outcome State Fault Refusal :=
  match i with
  | .ccpHello port ver role tenant keyHash => Sys2Proof.Machine.execCcpHello port ver role tenant keyHash s
  | .ccpFinish port session sigOk => Sys2Proof.Machine.execCcpFinish port session sigOk s
  | .ccpClose c => Sys2Proof.Machine.execCcpClose c s
  | .mbxDrop c => Sys2Proof.Machine.execMbxDrop c s
  | .ethSet c => Sys2Proof.Machine.execEthSet c s
  | .capabilityQuery c => Sys2Proof.Machine.execCapabilityQuery c s
  | .readyQuery c => Sys2Proof.Machine.execReadyQuery c s
  | .expTableQuery c => Sys2Proof.Machine.execExpTableQuery c s
  | .deviceResetCold c => Sys2Proof.Machine.execDeviceResetCold c s
  | .deviceResetMgmt c => Sys2Proof.Machine.execDeviceResetMgmt c s
  | .deviceResetField c => Sys2Proof.Machine.execDeviceResetField c s
  | .deviceResetPort c => Sys2Proof.Machine.execDeviceResetPort c s
  | .spdmGetVersion c => Sys2Proof.Machine.execSpdmGetVersion c s
  | .spdmGetCapabilities c => Sys2Proof.Machine.execSpdmGetCapabilities c s
  | .spdmNegotiateAlgorithms c => Sys2Proof.Machine.execSpdmNegotiateAlgorithms c s
  | .spdmGetDigests c => Sys2Proof.Machine.execSpdmGetDigests c s
  | .spdmGetCertificate c => Sys2Proof.Machine.execSpdmGetCertificate c s
  | .spdmChallenge c => Sys2Proof.Machine.execSpdmChallenge c s
  | .spdmGetMeasurements c => Sys2Proof.Machine.execSpdmGetMeasurements c s
  | .tenantCreate c => Sys2Proof.Machine.execTenantCreate c s
  | .tenantDelete c => Sys2Proof.Machine.execTenantDelete c s
  | .tenantSessionEnd c => Sys2Proof.Machine.execTenantSessionEnd c s
  | .tenantEvict c => Sys2Proof.Machine.execTenantEvict c s
  | .keyRotate c => Sys2Proof.Machine.execKeyRotate c s
  | .admitIdentity c => Sys2Proof.Machine.execAdmitIdentity c s
  | .admitWithdraw c => Sys2Proof.Machine.execAdmitWithdraw c s
  | .setLoad c sigOk => Sys2Proof.Machine.execSetLoad c sigOk s
  | .setDelete c => Sys2Proof.Machine.execSetDelete c s
  | .weightImportBegin c unwrapOk => Sys2Proof.Machine.execWeightImportBegin c unwrapOk s
  | .weightImportEnd c => Sys2Proof.Machine.execWeightImportEnd c s
  | .weightImportBind c => Sys2Proof.Machine.execWeightImportBind c s
  | .reserveSet c => Sys2Proof.Machine.execReserveSet c s
  | .capacityQuery c => Sys2Proof.Machine.execCapacityQuery c s
  | .spaceCreate c => Sys2Proof.Machine.execSpaceCreate c s
  | .spaceDelete c => Sys2Proof.Machine.execSpaceDelete c s
  | .extentCreate c => Sys2Proof.Machine.execExtentCreate c s
  | .extentEnable c => Sys2Proof.Machine.execExtentEnable c s
  | .extentDelete c => Sys2Proof.Machine.execExtentDelete c s
  | .extentQuery c => Sys2Proof.Machine.execExtentQuery c s
  | .extentReclaim c => Sys2Proof.Machine.execExtentReclaim c s
  | .extentMap c => Sys2Proof.Machine.execExtentMap c s
  | .extentUnmap c => Sys2Proof.Machine.execExtentUnmap c s
  | .l2Partition c => Sys2Proof.Machine.execL2Partition c s
  | .commonCreate c => Sys2Proof.Machine.execCommonCreate c s
  | .commonEnable c => Sys2Proof.Machine.execCommonEnable c s
  | .commonDelete c => Sys2Proof.Machine.execCommonDelete c s
  | .dirPartition c => Sys2Proof.Machine.execDirPartition c s
  | .streamCreate c => Sys2Proof.Machine.execStreamCreate c s
  | .streamCloseCcp c => Sys2Proof.Machine.execStreamCloseCcp c s
  | .streamAbortCcp c => Sys2Proof.Machine.execStreamAbortCcp c s
  | .streamPriority c => Sys2Proof.Machine.execStreamPriority c s
  | .formatLoad c => Sys2Proof.Machine.execFormatLoad c s
  | .vectorProgLoad c => Sys2Proof.Machine.execVectorProgLoad c s
  | .windowCreate c => Sys2Proof.Machine.execWindowCreate c s
  | .windowEnable c => Sys2Proof.Machine.execWindowEnable c s
  | .windowAbort c => Sys2Proof.Machine.execWindowAbort c s
  | .windowRetire c => Sys2Proof.Machine.execWindowRetire c s
  | .windowDelete c => Sys2Proof.Machine.execWindowDelete c s
  | .windowQuery c => Sys2Proof.Machine.execWindowQuery c s
  | .seqCreate c => Sys2Proof.Machine.execSeqCreate c s
  | .seqEnable c => Sys2Proof.Machine.execSeqEnable c s
  | .seqTruncate c => Sys2Proof.Machine.execSeqTruncate c s
  | .seqDisable c => Sys2Proof.Machine.execSeqDisable c s
  | .seqDelete c => Sys2Proof.Machine.execSeqDelete c s
  | .seqQuery c => Sys2Proof.Machine.execSeqQuery c s
  | .portSet c => Sys2Proof.Machine.execPortSet c s
  | .portQuery c => Sys2Proof.Machine.execPortQuery c s
  | .routeSet c => Sys2Proof.Machine.execRouteSet c s
  | .routeEpoch c => Sys2Proof.Machine.execRouteEpoch c s
  | .routeQuery c => Sys2Proof.Machine.execRouteQuery c s
  | .mcastSet c => Sys2Proof.Machine.execMcastSet c s
  | .policeSetMeter c => Sys2Proof.Machine.execPoliceSetMeter c s
  | .policeSetProfile c => Sys2Proof.Machine.execPoliceSetProfile c s
  | .schedSet c => Sys2Proof.Machine.execSchedSet c s
  | .arbSet c => Sys2Proof.Machine.execArbSet c s
  | .isolateSetEnable c => Sys2Proof.Machine.execIsolateSetEnable c s
  | .isolateSetDisable c => Sys2Proof.Machine.execIsolateSetDisable c s
  | .cadenceSet c => Sys2Proof.Machine.execCadenceSet c s
  | .histQuery c => Sys2Proof.Machine.execHistQuery c s
  | .powerSet c => Sys2Proof.Machine.execPowerSet c s
  | .powerQuery c => Sys2Proof.Machine.execPowerQuery c s
  | .sleepSet c => Sys2Proof.Machine.execSleepSet c s
  | .sleepEnterSl3 c => Sys2Proof.Machine.execSleepEnterSl3 c s
  | .sleepEnterSl4 c => Sys2Proof.Machine.execSleepEnterSl4 c s
  | .sleepEnterWake c => Sys2Proof.Machine.execSleepEnterWake c s
  | .pairSetEnable c => Sys2Proof.Machine.execPairSetEnable c s
  | .pairSetDisable c => Sys2Proof.Machine.execPairSetDisable c s
  | .pairQuery c => Sys2Proof.Machine.execPairQuery c s
  | .fwStage c => Sys2Proof.Machine.execFwStage c s
  | .fwActivateMgmt c => Sys2Proof.Machine.execFwActivateMgmt c s
  | .fwActivateKe c => Sys2Proof.Machine.execFwActivateKe c s
  | .fwActivateBoth c => Sys2Proof.Machine.execFwActivateBoth c s
  | .fwActivateCommitSec c => Sys2Proof.Machine.execFwActivateCommitSec c s
  | .fwQuery c => Sys2Proof.Machine.execFwQuery c s
  | .configSet c => Sys2Proof.Machine.execConfigSet c s
  | .configQuery c => Sys2Proof.Machine.execConfigQuery c s
  | .debugUnlock c sigOk nameOk => Sys2Proof.Machine.execDebugUnlock c sigOk nameOk s
  | .eventRead c => Sys2Proof.Machine.execEventRead c s
  | .statsQuery c => Sys2Proof.Machine.execStatsQuery c s
  | .memErrLog c => Sys2Proof.Machine.execMemErrLog c s
  | .mowSet c => Sys2Proof.Machine.execMowSet c s
  | .checkerTestArm c => Sys2Proof.Machine.execCheckerTestArm c s
  | .checkerTestWrite c => Sys2Proof.Machine.execCheckerTestWrite c s
  | .checkerTestRead c => Sys2Proof.Machine.execCheckerTestRead c s
  | .checkerTestRelease c => Sys2Proof.Machine.execCheckerTestRelease c s
  | .rankRetireNow c => Sys2Proof.Machine.execRankRetireNow c s
  | .rankRetireClear c => Sys2Proof.Machine.execRankRetireClear c s
  | .stackDiagRead c => Sys2Proof.Machine.execStackDiagRead c s
  | .stackDiagRun c => Sys2Proof.Machine.execStackDiagRun c s
  | .stackDiagReadClear c => Sys2Proof.Machine.execStackDiagReadClear c s
  | .bulkOpen c => Sys2Proof.Machine.execBulkOpen c s
  | .bulkClose c => Sys2Proof.Machine.execBulkClose c s
  | .bulkStatus c => Sys2Proof.Machine.execBulkStatus c s
  | .streamOpen p => Sys2Proof.Machine.execStreamOpen p s
  | .streamClose p => Sys2Proof.Machine.execStreamClose p s
  | .streamAbort p => Sys2Proof.Machine.execStreamAbort p s
  | .tile p => Sys2Proof.Machine.execTile p s
  | .resultRead p => Sys2Proof.Machine.execResultRead p s
  | .pageFetch p => Sys2Proof.Machine.execPageFetch p s
  | .pageStore p => Sys2Proof.Machine.execPageStore p s
  | .pageCheckout p => Sys2Proof.Machine.execPageCheckout p s
  | .pageCheckin p => Sys2Proof.Machine.execPageCheckin p s
  | .versionOpen p => Sys2Proof.Machine.execVersionOpen p s
  | .versionDraft p => Sys2Proof.Machine.execVersionDraft p s
  | .versionClose p => Sys2Proof.Machine.execVersionClose p s
  | .versionCommit p => Sys2Proof.Machine.execVersionCommit p s
  | .versionDiscard p => Sys2Proof.Machine.execVersionDiscard p s
  | .lineReadS p => Sys2Proof.Machine.execLineReadS p s
  | .lineReadX p => Sys2Proof.Machine.execLineReadX p s
  | .lineUpgrade p => Sys2Proof.Machine.execLineUpgrade p s
  | .lineWriteback p => Sys2Proof.Machine.execLineWriteback p s
  | .fetchAdd p => Sys2Proof.Machine.execFetchAdd p s
  | .fetchFaddx p => Sys2Proof.Machine.execFetchFaddx p s
  | .cas p => Sys2Proof.Machine.execCas p s
  | .swap p => Sys2Proof.Machine.execSwap p s
  | .fetchMin p => Sys2Proof.Machine.execFetchMin p s
  | .fetchMax p => Sys2Proof.Machine.execFetchMax p s
  | .fetchUmin p => Sys2Proof.Machine.execFetchUmin p s
  | .fetchUmax p => Sys2Proof.Machine.execFetchUmax p s
  | .barrierArrive p => Sys2Proof.Machine.execBarrierArrive p s
  | .lockAcquire p => Sys2Proof.Machine.execLockAcquire p s
  | .lockRelease p => Sys2Proof.Machine.execLockRelease p s
  | .snpData p => Sys2Proof.Machine.execSnpData p s
  | .snpClean p => Sys2Proof.Machine.execSnpClean p s
  | .snpNotPresent p => Sys2Proof.Machine.execSnpNotPresent p s
  | .completion p => Sys2Proof.Machine.execCompletion p s
  | .linkSessionOpen p o => Sys2Proof.Machine.execLinkSessionOpen p o s
  | .linkSessionClose p => Sys2Proof.Machine.execLinkSessionClose p s
  | .mcastWrite p => Sys2Proof.Machine.execMcastWrite p s
  | .packetForward opcode p => Sys2Proof.Machine.execPacketForward opcode p s
  | .pairMirror p m => Sys2Proof.Machine.execPairMirror p m s
  | .pairMeta p term r => Sys2Proof.Machine.execPairMeta p term r s
  | .pairBeat p term info => Sys2Proof.Machine.execPairBeat p term info s
  | .pairFetch p term extent offset => Sys2Proof.Machine.execPairFetch p term extent offset s
  | .pairCopy p term extent offset data => Sys2Proof.Machine.execPairCopy p term extent offset data s
  | .pairFence p term => Sys2Proof.Machine.execPairFence p term s
  | .leaseCompletion p sigOk => Sys2Proof.Machine.execLeaseCompletion p sigOk s
  | .leaseRenewTimer => Sys2Proof.Machine.execLeaseRenewTimer s
  | .leaseLapse => Sys2Proof.Machine.execLeaseLapse s
  | .pairSilence => Sys2Proof.Machine.execPairSilence s
  | .pairBeatSend => Sys2Proof.Machine.execPairBeatSend s
  | .mirrorTimeout tag => Sys2Proof.Machine.execMirrorTimeout tag s
  | .pairPeerWaitExpiry => Sys2Proof.Machine.execPairPeerWaitExpiry s
  | .resyncCopyDone => Sys2Proof.Machine.execResyncCopyDone s
  | .portLightDetect port => Sys2Proof.Machine.execPortLightDetect port s
  | .portTrainingDone port tNs => Sys2Proof.Machine.execPortTrainingDone port tNs s
  | .portTrainingTimeout port => Sys2Proof.Machine.execPortTrainingTimeout port s
  | .psHello port peerHash chainOk => Sys2Proof.Machine.execPsHello port peerHash chainOk s
  | .psKem port chainOk => Sys2Proof.Machine.execPsKem port chainOk s
  | .psFinish port sigOk => Sys2Proof.Machine.execPsFinish port sigOk s
  | .linkParams port buffers => Sys2Proof.Machine.execLinkParams port buffers s
  | .portSessionTimeout port => Sys2Proof.Machine.execPortSessionTimeout port s
  | .dataFlitRx port f => Sys2Proof.Machine.execDataFlitRx port f s
  | .idleFlitRx port f => Sys2Proof.Machine.execIdleFlitRx port f s
  | .flitSend port => Sys2Proof.Machine.execFlitSend port s
  | .ackTimerExpiry port => Sys2Proof.Machine.execAckTimerExpiry port s
  | .replayTimeout port => Sys2Proof.Machine.execReplayTimeout port s
  | .retrainDone port => Sys2Proof.Machine.execRetrainDone port s
  | .retrainTimeout port => Sys2Proof.Machine.execRetrainTimeout port s
  | .rekeyStart port => Sys2Proof.Machine.execRekeyStart port s
  | .keyNext port => Sys2Proof.Machine.execKeyNext port s
  | .keyNextKem port => Sys2Proof.Machine.execKeyNextKem port s
  | .downNotice port reason => Sys2Proof.Machine.execDownNotice port reason s
  | .downPatternRx port => Sys2Proof.Machine.execDownPatternRx port s
  | .alignmentLoss port => Sys2Proof.Machine.execAlignmentLoss port s
  | .laserFaultAlarm engine => Sys2Proof.Machine.execLaserFaultAlarm engine s
  | .laserLightLoss engine fibre => Sys2Proof.Machine.execLaserLightLoss engine fibre s
  | .portDownHoldExpiry port => Sys2Proof.Machine.execPortDownHoldExpiry port s
  | .outstandingEntryExpiry port src tag tgen => Sys2Proof.Machine.execOutstandingEntryExpiry port src tag tgen s
  | .packetAgeOut id => Sys2Proof.Machine.execPacketAgeOut id s
  | .fenceHoldAgeOut src tag => Sys2Proof.Machine.execFenceHoldAgeOut src tag s
  | .escapeWaitExpiry id => Sys2Proof.Machine.execEscapeWaitExpiry id s
  | .reachabilityTimeout node => Sys2Proof.Machine.execReachabilityTimeout node s
  | .bankQuiet bank => Sys2Proof.Machine.execBankQuiet bank s
  | .tileStepEnd station stream index cycles check => Sys2Proof.Machine.execTileStepEnd station stream index cycles check s
  | .stepWatchdogExpiry station => Sys2Proof.Machine.execStepWatchdogExpiry station s
  | .fenceStateMoved station lost => Sys2Proof.Machine.execFenceStateMoved station lost s
  | .tileFinalWriteDone stream index => Sys2Proof.Machine.execTileFinalWriteDone stream index s
  | .extentTileIssue stream => Sys2Proof.Machine.execExtentTileIssue stream s
  | .streamIdleTimeout stream => Sys2Proof.Machine.execStreamIdleTimeout stream s
  | .streamReleaseTimeout stream => Sys2Proof.Machine.execStreamReleaseTimeout stream s
  | .ledgerContribution stream index => Sys2Proof.Machine.execLedgerContribution stream index s
  | .ledgerFinalWriteDone window ltile => Sys2Proof.Machine.execLedgerFinalWriteDone window ltile s
  | .windowIdleTimeout window => Sys2Proof.Machine.execWindowIdleTimeout window s
  | .queryScoreRelease stream index => Sys2Proof.Machine.execQueryScoreRelease stream index s
  | .splitFinish stream index split => Sys2Proof.Machine.execSplitFinish stream index split s
  | .seqHoldRelease context => Sys2Proof.Machine.execSeqHoldRelease context s
  | .cadencePeriodEnd cls => Sys2Proof.Machine.execCadencePeriodEnd cls s
  | .recallTimeout extent page => Sys2Proof.Machine.execRecallTimeout extent page s
  | .draftWritesDrained extent => Sys2Proof.Machine.execDraftWritesDrained extent s
  | .refusalMarkInForce m => Sys2Proof.Machine.execRefusalMarkInForce m s
  | .rangeInvalidationAck inval engine => Sys2Proof.Machine.execRangeInvalidationAck inval engine s
  | .revocationSlowExpiry inval => Sys2Proof.Machine.execRevocationSlowExpiry inval s
  | .granuleZeroed granule => Sys2Proof.Machine.execGranuleZeroed granule s
  | .snoopTimeout line node => Sys2Proof.Machine.execSnoopTimeout line node s
  | .writebackRecordExpiry line node => Sys2Proof.Machine.execWritebackRecordExpiry line node s
  | .lostHolderSweep line => Sys2Proof.Machine.execLostHolderSweep line s
  | .identInvalidationInForce asid => Sys2Proof.Machine.execIdentInvalidationInForce asid s
  | .translationWalkDone engine asid va => Sys2Proof.Machine.execTranslationWalkDone engine asid va s
  | .populationDone asid granule => Sys2Proof.Machine.execPopulationDone asid granule s
  | .populationWaitExpiry src tag => Sys2Proof.Machine.execPopulationWaitExpiry src tag s
  | .keySlotErase tenant => Sys2Proof.Machine.execKeySlotErase tenant s
  | .sessionEndSlowExpiry tenant => Sys2Proof.Machine.execSessionEndSlowExpiry tenant s
  | .rotationRewriteDone tenant => Sys2Proof.Machine.execRotationRewriteDone tenant s
  | .weightChunk extent plain tagOk => Sys2Proof.Machine.execWeightChunk extent plain tagOk s
  | .sessionIdBarExpiry id => Sys2Proof.Machine.execSessionIdBarExpiry id s
  | .sectorReadDone stack sector e1 e2 => Sys2Proof.Machine.execSectorReadDone stack sector e1 e2 s
  | .sectorWriteDone stack sector offset data => Sys2Proof.Machine.execSectorWriteDone stack sector offset data s
  | .caParityError stack rank => Sys2Proof.Machine.execCaParityError stack rank s
  | .accessAgeLimit stack pch => Sys2Proof.Machine.execAccessAgeLimit stack pch s
  | .refreshDue stack pch rank bank => Sys2Proof.Machine.execRefreshDue stack pch rank bank s
  | .stackTemperatureRead stack celsius => Sys2Proof.Machine.execStackTemperatureRead stack celsius s
  | .stackSelfRefreshEntry stack => Sys2Proof.Machine.execStackSelfRefreshEntry stack s
  | .stackSelfRefreshExit stack celsius => Sys2Proof.Machine.execStackSelfRefreshExit stack celsius s
  | .trainingStepDone stack passed pins => Sys2Proof.Machine.execTrainingStepDone stack passed pins s
  | .stackInitDone stack => Sys2Proof.Machine.execStackInitDone stack s
  | .pgenRunDone stack pch mismatches => Sys2Proof.Machine.execPgenRunDone stack pch mismatches s
  | .readTracking stack pch eyes => Sys2Proof.Machine.execReadTracking stack pch eyes s
  | .retrainSliceTimer stack pch starts passed eyes => Sys2Proof.Machine.execRetrainSliceTimer stack pch starts passed eyes s
  | .mowRead stack e1 e2 => Sys2Proof.Machine.execMowRead stack e1 e2 s
  | .mirrorFetchTimeout stack sector => Sys2Proof.Machine.execMirrorFetchTimeout stack sector s
  | .rankErrorWindowEnd => Sys2Proof.Machine.execRankErrorWindowEnd s
  | .migrationGranuleCopied errors => Sys2Proof.Machine.execMigrationGranuleCopied errors s
  | .policeRefill => Sys2Proof.Machine.execPoliceRefill s
  | .histDepthSample => Sys2Proof.Machine.execHistDepthSample s
  | .powerPeriod m => Sys2Proof.Machine.execPowerPeriod m s
  | .linkPowerDecision estimate => Sys2Proof.Machine.execLinkPowerDecision estimate s
  | .pmbusTelemetry milliwatts => Sys2Proof.Machine.execPmbusTelemetry milliwatts s
  | .stationCeilingUpdate station used => Sys2Proof.Machine.execStationCeilingUpdate station used s
  | .droopTrip field => Sys2Proof.Machine.execDroopTrip field s
  | .droopClampLift => Sys2Proof.Machine.execDroopClampLift s
  | .droopWindowEnd => Sys2Proof.Machine.execDroopWindowEnd s
  | .thermalReading celsius => Sys2Proof.Machine.execThermalReading celsius s
  | .pllLock => Sys2Proof.Machine.execPllLock s
  | .regulatorVdone => Sys2Proof.Machine.execRegulatorVdone s
  | .regulatorAckTimeout => Sys2Proof.Machine.execRegulatorAckTimeout s
  | .stationSl1Idle station => Sys2Proof.Machine.execStationSl1Idle station s
  | .fieldSl2Idle field => Sys2Proof.Machine.execFieldSl2Idle field s
  | .domainWakeReady d => Sys2Proof.Machine.execDomainWakeReady d s
  | .wakeEvent w => Sys2Proof.Machine.execWakeEvent w s
  | .ethFrameRx port f => Sys2Proof.Machine.execEthFrameRx port f s
  | .intakeFifoRead port => Sys2Proof.Machine.execIntakeFifoRead port s
  | .ccpFragment f => Sys2Proof.Machine.execCcpFragment f s
  | .bulkFrame f => Sys2Proof.Machine.execBulkFrame f s
  | .pfcRepeatTimer port => Sys2Proof.Machine.execPfcRepeatTimer port s
  | .pfcPauseExpiry session cmdId => Sys2Proof.Machine.execPfcPauseExpiry session cmdId s
  | .handshakeTimeout session => Sys2Proof.Machine.execHandshakeTimeout session s
  | .fragmentTimeout mailbox => Sys2Proof.Machine.execFragmentTimeout mailbox s
  | .bulkChannelIdle channel => Sys2Proof.Machine.execBulkChannelIdle channel s
  | .ccpSessionIdle session => Sys2Proof.Machine.execCcpSessionIdle session s
  | .eventNoticeSend session => Sys2Proof.Machine.execEventNoticeSend session s
  | .resetNAssert => Sys2Proof.Machine.execResetNAssert s
  | .coldBoot initMode => Sys2Proof.Machine.execColdBoot initMode s
  | .keyEngineBootDone v => Sys2Proof.Machine.execKeyEngineBootDone v s
  | .mgmtStart => Sys2Proof.Machine.execMgmtStart s
  | .stationTestDone field passMask => Sys2Proof.Machine.execStationTestDone field passMask s
  | .fieldResetDone field passMask => Sys2Proof.Machine.execFieldResetDone field passMask s
  | .ethLinkUp port => Sys2Proof.Machine.execEthLinkUp port s
  | .mgmtWatchdogExpiry core => Sys2Proof.Machine.execMgmtWatchdogExpiry core s
  | .mgmtRestartDone => Sys2Proof.Machine.execMgmtRestartDone s
  | .keyEngineWatchdog => Sys2Proof.Machine.execKeyEngineWatchdog s
  | .refclkLoss => Sys2Proof.Machine.execRefclkLoss s
  | .vddAonLoss => Sys2Proof.Machine.execVddAonLoss s
  | .fwStageDone r => Sys2Proof.Machine.execFwStageDone r s
  | .fwStageTimeout => Sys2Proof.Machine.execFwStageTimeout s
  | .mgmtRunningReport => Sys2Proof.Machine.execMgmtRunningReport s
  | .fwTrialTimeout => Sys2Proof.Machine.execFwTrialTimeout s
  | .keActivationDone => Sys2Proof.Machine.execKeActivationDone s
  | .sdCardRemoval => Sys2Proof.Machine.execSdCardRemoval s
  | .pmbAlertEdge => Sys2Proof.Machine.execPmbAlertEdge s
  | .pmbusClockTimeout rail => Sys2Proof.Machine.execPmbusClockTimeout rail s
  | .leaseClaimRetry => Sys2Proof.Machine.execLeaseClaimRetry s
  | .ethLinkDown port => Sys2Proof.Machine.execEthLinkDown port s

end Sys2Proof.Machine
end

