-- ==== Sys2Proof/Safety.lean ====
section
/-! DEFINITION. Safety.lean: what counts as a safe run of the block, and what every state of a run is: the tables, queues and
counters that no command may spoil. -/

namespace Sys2Proof

/-- A step is safe when it answers a next state: it neither faults nor refuses. -/
def stepSafe (s : Machine.State) : Prop := ∃ t, Machine.step s = .next t

/-- `n` steps from a state are all safe. -/
def runSafe : Nat → Machine.State → Prop
  | 0, _ => True
  | n + 1, s => ∃ t, Machine.step s = .next t ∧ runSafe n t

namespace Machine

/-- Loaded format slots (03 R62, R65, R66): only slots 14 to 31, and only descriptors that obey Table 3-2. -/
def FormatsLegal (f : Tbl Nat) : Prop := ∀ x ∈ f, 14 ≤ x.1 ∧ x.1 < 32 ∧ x.2 ≠ 0 ∧ descBad x.2 = false

/-- The event queues hold no more records than they have room for (20 R501). -/
def QueuesBounded (l : Log) : Prop := l.op.recs.length ≤ 65536 ∧ ∀ x ∈ l.ten, x.2.recs.length ≤ 4096

/-- The one-time leaves (09 R271): the next leaf is not beyond the reserved limit, and not beyond the fuse mark's stretch. -/
def LeavesKept (t : Ten) : Prop :=
  t.hssNext ≤ t.hssLimit ∧ t.hssLimit ≤ 2 ^ 40 ∧ t.hssNext < (t.hssMark + 1) * 2 ^ 28

/-- What every state of a run is. -/
def Sane (s : State) : Prop :=
  FormatsLegal s.str.formats ∧ Memory.wf s.pool.mem = true ∧ QueuesBounded s.log ∧ LeavesKept s.ten

/-- Nothing is left to follow (log 23): the agenda is empty, and nothing that waited for what has happened may happen now. -/
def Quiet (s : State) : Prop := s.todo = [] ∧ s.tidy = s

/-! What the statements speak of. -/

/-- A session as it stands once one of its commands has been accepted (17 R448, R451). -/
def accepted (c : CcpCmd) (s : State) (v : Session) : Session :=
  { acceptCmd { v with port := c.port, idleDue := s.dev.tick + (s.eth c.port).idleUnits * 2 ^ 20 } c.cmdId with
    cmds := v.cmds.put c.cmdId .mailbox }

/-- A CCP command of the row `spec` is taken by a device that runs, with management and the session there, a new `cmd_id`
and a free mailbox (17 R450 to R452): `x` is the command, `t` the state in which its checks begin. -/
def Taken (spec : CcpSpec) (c : CcpCmd) (sigOk auxOk : Bool) (s : State) (x : CcpCtx) (t : State) : Prop :=
  c.port < 2 ∧ s.ccpAnswers c.port = true ∧ s.ready.mgmt = true ∧ s.dev.halt = none ∧ s.dev.mgmtReset = none ∧
  ∃ v mb, s.ctl.sessions.find c.session = some v ∧
    (isNewCmd v c.cmdId = true ∨ v.cmds.find c.cmdId = some .again) ∧ s.freeMailbox c.session = some mb ∧
    x = { sid := c.session, sess := accepted c s v, cmdId := c.cmdId, block := c.block, total := c.total, sigOk, auxOk } ∧
    t = (s.wakeByFrame.putSession c.session (accepted c s v)).putMailbox mb
          { session := c.session, cmdId := c.cmdId, opcode := spec.opcode, port := c.port, cls := c.cls, total := c.total,
            running := true }

/-- It is taken, and no check common to every command fails (18 R467): its chapter sees `x` in `t`. -/
def Reaches (spec : CcpSpec) (c : CcpCmd) (sigOk auxOk : Bool) (s : State) (x : CcpCtx) (t : State) : Prop :=
  Taken spec c sigOk auxOk s x t ∧ firstRefuse (commonChecks spec x t) = none

/-- The command's work is done in `t`: it completes OK with a body (17 R451), and all that follows has happened. -/
def answer (t : State) (x : CcpCtx) (body : List Byte) : State := (t.respond x.ref ⟨0, 0, body⟩).settle

/-- The command is refused in `t` with a status and a reason and does nothing else (00 R2, R7; 17 R451). -/
def refused (t : State) (x : CcpCtx) (r : Refuse) : State := (t.respond x.ref ⟨r.status.code, r.reason, []⟩).settle

/-- The device has power and is out of reset: it acts (21 R517). -/
def Live (s : State) : Prop := s.dead = false

/-- The agenda of `s`, worked off in order, comes to its end in `t`, where nothing is left to follow (log 23). -/
def Rests (s t : State) : Prop := ∃ n, n ≤ 1000000 ∧ s.drain n = t ∧ Quiet t

/-- A packet comes in whole on a port that is UP, in a device that acts, for this node: it is then `q` in `t` (13 R349, R375). -/
def Arrives (op : Nat) (p : Packet) (s : State) (q : Packet) (t : State) : Prop :=
  p.port < 64 ∧ Live s ∧ (s.port p.port).st = .up ∧ s.arrive op p = (.here, q, t)

/-- The pair request that a row of the table is, with the term and the message it carries (16 R432). -/
def PairRow (op : Nat) (p : Packet) (term : Nat) (i : Instr) (msg : PairMsg) : Prop :=
  (∃ m, op = 0x70 ∧ i = .pairMirror p m ∧ term = m.term ∧ msg = .mirror m) ∨
  (∃ x, op = 0x71 ∧ i = .pairMeta p term x ∧ msg = .metaRec x) ∨ (∃ x, op = 0x72 ∧ i = .pairBeat p term x ∧ msg = .beat x) ∨
  (∃ e o, op = 0x73 ∧ i = .pairFetch p term e o ∧ msg = .fetch e o) ∨
  (∃ e o d, op = 0x74 ∧ i = .pairCopy p term e o d ∧ msg = .copy e o d) ∨ (op = 0x75 ∧ i = .pairFence p term ∧ msg = .fence)

/-- What follows first from `s` is that the request `r` runs in `t`, and nothing else is on the agenda. -/
def NextRuns (s : State) (r : Req) (t : State) : Prop :=
  ∃ a, s.todo = [a] ∧ ({ s with todo := [] } : State).follow a = t.runRequest r ∧ t.todo = []

/-- A request packet comes in, passes the rows of 13 Table 13-5 and the policing, is accepted, and runs as `r` in `t`: at once, or
when the hub queue it has entered takes it (14 R385, R388). -/
def Runs (op : Nat) (p : Packet) (x : Inner) (s : State) (r : Req) (t : State) : Prop :=
  p.port < 64 ∧ Live s ∧ r.opcode = op ∧ ∃ n, n ≤ 1000 ∧ NextRuns ((s.packetOn op p x).drain n) r t

/-- A sector access comes to a stack that serves, to a pseudo-channel that nothing holds and whose queue is empty, and takes a slot
of its class: it goes at once, and `v` is the state in which it is carried out (10 R277, R278, R280). -/
def LoneAccess (s : State) (k m : Nat) (op : SecOp) (v : State) : Prop :=
  ∃ p a u w, p = s.pchOf m ∧ s.stackServes k = true ∧ (s.stack k).holds p = false ∧ m < stackSectors ∧ (s.pch k p).queue = [] ∧
    a = { sector := m, sub := (s.granOwner (sectorGran (deviceSector k m))).getD 0, since := s.dev.tick, op } ∧
    u = s.modPch k p (fun q => { q with queue := [a] }) ∧ u.takeSlot k p (u.slotClass a.sub) = some w ∧
    v = w.modPch k p fun q => { q with
      queue := [], aged := false, writing := a.writes
      group := if a.writes = q.writing ∧ q.group < 16 then q.group + 1 else 1, flight := q.flight ++ [a] }

/-- A line request runs as `r` on a line `h` of an enabled common whose extent is not sealed against it; `u` is then the state:
the address has been looked up, and nothing else is going on at the line (07 R198). -/
def LineRuns (op : Nat) (p : Packet) (s : State) (r : Req) (u : State) (h : Nat) : Prop :=
  ∃ g o e page v c m, Runs op p (innerOf op p) s r g ∧ o = operandOf r.p ∧ g.asidOk (bits o 35 24) r.p.session = true ∧
    r.p.address % 256 = 0 ∧ bits o 63 48 = 0 ∧ bits o 47 36 = 0 ∧ bits o 23 0 = 0 ∧ g.faddFormat o = .ok ∧
    g.locate (bits o 35 24) r.p.address = .ext e page ∧
    u = g.lookup (144 + r.p.port / 4) (bits o 35 24) r.p.address (fun _ => none) ∧ (u.kfp2 r.p && u.sharedExt e) = false ∧
    u.pool.extents.find e = some v ∧ u.commonOf e = some (c, m) ∧ m.state = .enabled ∧ extSealed v = false ∧
    u.faddFormat o = .ok ∧ h = c * 2 ^ 28 + page * 256 + r.p.address % 65536 / 256 ∧ u.com.trans.find h = none ∧
    u.heldFor [u.lineSector h] = none ∧ u.lineRevoked h = false

/-- An atomic with operand `op` runs as `r` on a free line `h` of an enabled common, where it finds `old`; `t` is then the
state, and `n` the line's sector (07 R198, R202). -/
def AtomicRuns (p : Packet) (s : State) (r : Req) (op h n old : Nat) (t : State) : Prop :=
  ∃ g u e page v c m y, Runs 0x28 p (innerOf 0x28 p) s r g ∧ op = leNat (r.p.payload.take 32) ∧
    g.asidOk (bits op 35 24) r.p.session = true ∧ atomicBad op r.p.address = false ∧ g.faddFormat op = .ok ∧
    g.locate (bits op 35 24) r.p.address = .ext e page ∧
    u = g.lookup (144 + r.p.port / 4) (bits op 35 24) r.p.address (fun _ => none) ∧ (u.kfp2 r.p && u.sharedExt e) = false ∧
    u.pool.extents.find e = some v ∧ u.commonOf e = some (c, m) ∧
    m.state = .enabled ∧ extSealed v = false ∧ u.faddFormat op = .ok ∧ h = c * 2 ^ 28 + page * 256 + r.p.address % 65536 / 256 ∧
    u.com.trans.find h = none ∧ u.com.dir.find h = none ∧ u.heldFor [u.lineSector h] = none ∧ u.lineRevoked h = false ∧
    u.mirrorWants [u.lineSector h] = [] ∧ n = u.lineSector h ∧
    (u.putTrans h { job := .request r }).readSector n = (.ok, y, t) ∧
    old = leNat (slice y (r.p.address % 256) (if bit op 8 then 8 else 4))

/-- The atomic's end (07 R202, R204): where it writes a new word, memory holds it and the standby is told; its completion
carries the cookie and the word it answers, and the line is free again. -/
def atomicEnd (t : State) (r : Req) (op h n : Nat) (new : Option Nat) (st : Status) (ans : Nat) : State :=
  let cookie := cookieOf r.p.payload
  match new with
  | none => (t.complete r st (some ans) (some (cookie ++ leBytes ans 8)) h).lineNext h
  | some w =>
    let b := leBytes w (if bit op 8 then 8 else 4)
    ((t.writeSector n (r.p.address % 256) b false).2.afterWrite h (r.p.address % 256) b r st (some ans)
      (cookie ++ leBytes ans 8)).lineNext h

end Machine

end Sys2Proof
end

