-- ==== Sys2Proof/Certificates/Slice0/Obligations.lean ====
section
/-! DEFINITION. Obligations.lean: what is claimed of the block. Each statement formalises the rules its entry in
OBLIGATIONS.json names, or says what the model does where a log entry made the choice. -/

section

open Sys2Proof Sys2Proof.Machine

/-- How a CCP session is opened (17 R447, Table 17-3): CCP_HELLO gives the handshake the next free session number, a second
time limit and the answer that names it; CCP_FINISH makes the session, whose first frame has been seen, and ends the
handshake. -/
def Obligations.SessionsOpen : Prop :=
  (∀ (port ver keyHash tenant sid : Nat) (role : Role) (s : State), port < 2 → s.ccpAnswers port = true → s.ready.mgmt = true →
    s.dev.halt = none → s.dev.mgmtReset = none → s.ready.keyEngine = true → 1 ≤ ver → ver ≤ 3 → s.ctl.handshakes.length < 16 →
    cyclicFree (fun i => s.ctl.sessions.has i || s.ctl.handshakes.has i) s.ctl.lastSession 1 0xFFFF = some sid →
    exec (.ccpHello port ver role tenant keyHash) s = .next
      ({ s.wakeByFrame with
          ctl.handshakes := s.ctl.handshakes.put sid { ver, role, tenant, keyHash, due := s.dev.tick + 4194304 }
          ctl.lastSession := some sid
          out := .helloReply port sid :: s.out }).settle) ∧
  (∀ (port sid : Nat) (h : Handshake) (s : State), port < 2 → s.ccpAnswers port = true → s.ready.mgmt = true →
    s.dev.halt = none → s.dev.mgmtReset = none → s.ready.keyEngine = true → s.ctl.handshakes.find sid = some h →
    s.dev.tick ≤ h.due → h.role = .operator → s.ctl.sessions.length < 256 →
    s.ctl.sessions.count (fun v => v.role == .operator) < 16 → s.operatorKey h.keyHash = true →
    exec (.ccpFinish port sid true) s = .next
      ({ s.wakeByFrame with
          ctl.handshakes := s.ctl.handshakes.del sid
          ctl.sessions := s.ctl.sessions.put sid
            { ver := h.ver, role := .operator, tenant := h.tenant, port, rxTop := some 0, txSeq := 1,
              idleDue := s.dev.tick + (s.eth port).idleUnits * 2 ^ 20 }
          out := .ccpResponse port 0 sid 2 0 0 ⟨0, 0, []⟩ :: s.out }).settle)

/-- The session and control commands (17 R448, R453, R456; 18 R474, R475; 19 R479; 03 R529): what each writes and answers. -/
def Obligations.SessionCommands : Prop :=
  (∀ c s x t, Reaches ccpCloseSpec c true true s x t →
    exec (.ccpClose c) s = .next (((t.respond x.ref ⟨0, 0, []⟩).endSession c.session).settle)) ∧
  (∀ c s x t mb m, Reaches mbxDropSpec c true true s x t → t.mailboxOf c.session (bits c.block 15 0) = some (mb, m) →
    m.running = false → exec (.mbxDrop c) s = .next (answer (t.dropMailbox mb m) x [])) ∧
  (∀ c s x t, Reaches ethSetSpec c true true s x t → bits c.block 111 100 ≠ 4095 →
    (bits c.block 71 67 = 0 ∨ 2 ≤ bits c.block 71 67) → bits c.block 66 62 ≤ 30 →
    (if bits c.block 66 62 = 0 then 8 else bits c.block 66 62) < (if bits c.block 71 67 = 0 then 24 else bits c.block 71 67) →
    exec (.ethSet c) s = .next (answer (t.putEth (bits c.block 0 0)
      { t.eth (bits c.block 0 0) with
          udpPort := if bits c.block 127 112 = 0 then 48620 else bits c.block 127 112
          vlan := bits c.block 111 100
          idleUnits := if bits c.block 95 80 = 0 then 894 else bits c.block 95 80
          hiMark := if bits c.block 71 67 = 0 then 24 else bits c.block 71 67
          loMark := if bits c.block 66 62 = 0 then 8 else bits c.block 66 62
          pfcOff := bit c.block 1 }) x [])) ∧
  (∀ c s x t, Reaches capabilityQuerySpec c true true s x t → ∃ body, body.length = 256 ∧
    body.take 8 = leBytes ((t.fab.nodeId.getD 0) * 2 ^ 48 + t.fab.ngen * 2 ^ 44 + t.boundCount * 2 ^ 32 +
      t.ctl.expActive * 2 ^ 16 + t.ctl.expStaged) 8 ∧
    exec (.capabilityQuery c) s = .next (answer t x body)) ∧
  (∀ c s x t, Reaches readyQuerySpec c true true s x t →
    exec (.readyQuery c) s = .next (answer t x (leBytes t.ready.map 16))) ∧
  (∀ c s x t, Reaches expTableQuerySpec c true true s x t → ∃ body, body.length = 2056 ∧
    body.take 8 = leBytes (t.ctl.expActive + t.ctl.expStaged * 2 ^ 16) 8 ∧
    exec (.expTableQuery c) s = .next (answer t x body))

/-- DEVICE_RESET (19 R481): the response leaves, and then the device, management, one field or one port is reset. -/
def Obligations.DeviceResets : Prop :=
  (∀ c s x t, Reaches deviceResetSpec c true true s x t → bits c.block 1 0 = 0 → bits c.block 13 8 = 0 →
    t.fw.activate = none → exec (.deviceResetCold c) s = .next (((t.respond x.ref ⟨0, 0, []⟩).startBoot).settle)) ∧
  (∀ c s x t, Reaches deviceResetSpec c true true s x t → bits c.block 1 0 = 1 → bits c.block 13 8 = 0 →
    t.fw.activate = none → exec (.deviceResetMgmt c) s = .next (((t.respond x.ref ⟨0, 0, []⟩).beginMgmtReset 0).settle)) ∧
  (∀ c s x t, Reaches deviceResetSpec c true true s x t → bits c.block 1 0 = 2 → bits c.block 13 8 < 16 →
    t.fw.activate = none → bit t.dev.fieldReset (bits c.block 13 8) = false → bit t.ready.field (bits c.block 13 8) = true →
    exec (.deviceResetField c) s =
      .next (((t.respond x.ref ⟨0, 0, []⟩).beginFieldReset (bits c.block 13 8)).settle)) ∧
  (∀ c s x t, Reaches deviceResetSpec c true true s x t → bits c.block 1 0 = 3 → t.fw.activate = none →
    exec (.deviceResetPort c) s = .next (((t.respond x.ref ⟨0, 0, []⟩).portReset (bits c.block 13 8)).settle))

/-- SPDM requests (09 R267 to R271): an unsigned one is answered from the chain and the measurements and changes nothing
else; a signed one takes the next one-time leaf, which is never used again. -/
def Obligations.SpdmRequests : Prop :=
  (∀ c s x t, Reaches spdmSpec c true true s x t → c.session ≠ 0 → t.dev.keRestart = false →
    ∀ m ver code hash, leBytes c.block c.total = m → ver = (m.getD 0 0#8).toNat → code = (m.getD 1 0#8).toNat →
      hash = leBytes (sha384 Config.certChain).toNat 48 →
      (ver = 0x10 → code = 0x84 →
        exec (.spdmGetVersion c) s = .next (answer t x (Config.spdmFrame m [0x12#8, 0x13#8]))) ∧
      (ver = 0x12 ∨ ver = 0x13 →
        (code = 0xE1 → exec (.spdmGetCapabilities c) s = .next (answer t x (Config.spdmFrame m [1#8, 1#8, 2#8]))) ∧
        (code = 0xE3 → exec (.spdmNegotiateAlgorithms c) s = .next (answer t x
          (Config.spdmFrame m [0x80#8, 0#8, 0#8, 0#8, 2#8, 0#8, 0#8, 0#8]))) ∧
        (code = 0x81 → exec (.spdmGetDigests c) s = .next (answer t x (Config.spdmFrame m hash))) ∧
        (code = 0x82 → (m.getD 2 0#8).toNat % 16 = 0 →
          exec (.spdmGetCertificate c) s = .next (answer t x (Config.spdmFrame m Config.certChain))) ∧
        (t.ten.hssNext < 2 ^ 40 → ∀ u signed, u = { t with
            ten.hssNext := t.ten.hssNext + 1
            ten.hssLimit := if t.ten.hssLimit ≤ t.ten.hssNext then min (t.ten.hssNext + 1024) (2 ^ 40) else t.ten.hssLimit
            ten.hssMark := max t.ten.hssMark ((t.ten.hssNext + 1) / 2 ^ 28) } →
          signed = (fun b : List Byte =>
            b ++ ecdsaOf (m ++ b) ++ hssOf t.ten.hssNext (leBytes (sha384 (m ++ b)).toNat 48)) →
          (code = 0x83 → (m.getD 2 0#8).toNat % 16 = 0 → exec (.spdmChallenge c) s = .next (answer u x
            (signed (Config.spdmFrame m (hash ++ t.measurements.flatten))))) ∧
          (∀ b, code = 0xE0 → (m.getD 36 0#8).toNat % 16 = 0 → t.measured (m.getD 3 0#8).toNat = some b →
            exec (.spdmGetMeasurements c) s = .next (answer u x (signed (Config.spdmFrame m b))))))) ∧
  (∀ c s mb m, c.port < 2 → s.ccpAnswers c.port = true → s.ready.mgmt = true → s.dev.halt = none → s.dev.mgmtReset = none →
    c.session = 0 → firstFree (fun n => s.ctl.mailboxes.has n) 0 8 = some mb → 4 ≤ c.total → c.total ≤ 8192 →
    s.dev.keRestart = false → leBytes c.block c.total = m → (m.getD 0 0#8).toNat = 0x10 → (m.getD 1 0#8).toNat = 0x84 →
    exec (.spdmGetVersion c) s = .next ((s.wakeByFrame.sendResponse c.port c.cls 0 0x0100 c.cmdId mb
      ⟨0, 0, Config.spdmFrame m [0x12#8, 0x13#8]⟩).settle))

/-- Tenants, their sessions, rotation and admissions (09 R237 to R241, R250, R255): what each command writes and answers. -/
def Obligations.TenantCommands : Prop :=
  (∀ c s x t, Reaches tenantCreateSpec c true true s x t → bits c.block 15 0 ≠ 0 → bits c.block 15 0 ≠ 0xFFFF →
    t.ten.tenants.has (bits c.block 15 0) = false → t.ten.tenants.length < 1024 →
    exec (.tenantCreate c) s = .next (answer
      ((t.putTenant (bits c.block 15 0) { keyHash := bits c.block 511 128 }).sendMeta
        (.tenant (bits c.block 15 0) (bits c.block 511 128)))
      x (leBytes (bits c.block 127 64) 8))) ∧
  (∀ c s x t v, Reaches tenantDeleteSpec c true true s x t → t.tenantOf (bits c.block 15 0) = some v → v.sess = .closed →
    t.charge (bits c.block 15 0) = 0 → v.reserve = 0 →
    exec (.tenantDelete c) s = .next (answer (t.forgetTenant (bits c.block 15 0)) x [])) ∧
  (∀ c s x t v, Reaches tenantSessionEndSpec c true true s x t → t.tenantOf x.tenant = some v → v.sess = .opened →
    exec (.tenantSessionEnd c) s = .next ((t.beginEnd x.tenant v [x.ref]).settle)) ∧
  (∀ c s x t v, Reaches tenantEvictSpec c true true s x t → t.tenantOf (bits c.block 15 0) = some v → v.sess = .opened →
    exec (.tenantEvict c) s = .next ((t.beginEnd (bits c.block 15 0) v [x.ref]).settle)) ∧
  (∀ c s x t v, Reaches keyRotateSpec c true true s x t → t.tenantOf x.tenant = some v → v.sess = .opened →
    v.oldEpoch = none →
    exec (.keyRotate c) s = .next (answer
      (t.putTenant x.tenant { v with epoch := v.epoch % 31 + 1, oldEpoch := some v.epoch }) x [])) ∧
  (∀ c s x t, Reaches admitSpec c true true s x t → bit c.block 0 = true →
    t.ten.admissions.contains (x.tenant, bits c.block 511 128) = false → t.ten.admissions.length < 65536 →
    exec (.admitIdentity c) s = .next (answer
      { t with ten.admissions := (x.tenant, bits c.block 511 128) :: t.ten.admissions } x (leBytes (bits c.block 127 64) 8))) ∧
  (∀ c s x t, Reaches admitSpec c true true s x t → bit c.block 0 = false →
    t.ten.admissions.contains (x.tenant, bits c.block 511 128) = true →
    exec (.admitWithdraw c) s = .next (answer
      ((t.ten.links.keysWhere fun l => l.tenant == x.tenant && l.identity == bits c.block 511 128).foldl State.endLink
        { t with ten.admissions := t.ten.admissions.filter (· != (x.tenant, bits c.block 511 128)) })
      x (leBytes (bits c.block 127 64) 8)))

/-- Device sets, weight imports and bulk channels (09 R260 to R264, 17 R457, R459, 18 R472): a set is loaded from a bulk channel and deleted while no sealed
extent names it; an import is bound to an extent and a channel, begins when its blob passes Table 9-12, and ends once its
chunks are written; a bulk channel is opened under the next free number with a time limit, closed, and read. -/
def Obligations.WeightCommands : Prop :=
  (∀ c s x t k sigOk, Reaches setLoadSpec c sigOk true s x t → t.ctl.bulk.find (bits c.block 15 0) = some k →
    k.session = c.session → k.consumer = none →
    exec (.setLoad c sigOk) s = .next (((t.putBulk (bits c.block 15 0)
      { k with consumer := some (.setLoad c.session c.cmdId sigOk) }).setLoadGo (bits c.block 15 0)).settle)) ∧
  (∀ c s x t, Reaches setDeleteSpec c true true s x t → bits c.block 15 0 ≠ 0 →
    t.ten.sets.has (x.tenant * 65536 + bits c.block 15 0) = true →
    (t.pool.extents.any fun e => e.2.tenant == x.tenant && extSealed e.2 && extSet e.2 == bits c.block 15 0) = false →
    exec (.setDelete c) s = .next (answer
      ({ t with ten.sets := t.ten.sets.del (x.tenant * 65536 + bits c.block 15 0) }.sendMeta
        (.devSet x.tenant (bits c.block 15 0) [])) x [])) ∧
  (∀ c s x t k, Reaches weightImportBindSpec c true true s x t → t.ctl.bulk.find (bits c.block 20 16) = some k →
    k.session = c.session →
    exec (.weightImportBind c) s = .next (answer
      (t.putSession c.session { x.sess with binding := some (bits c.block 15 0, bits c.block 20 16) }) x [])) ∧
  (∀ c s x t ext ch e plain n set body, Reaches weightImportBeginSpec c true true s x t → x.sess.binding = some (ext, ch) →
    plain = bits c.block 255 192 → n = bits c.block 143 128 + 1 → set = bits c.block 63 48 → body = leBytes c.block c.total →
    plain ≠ 0 → bits c.block 191 160 = ceilDiv plain 65536 → n ≤ 256 → bits c.block 3 0 = 3 →
    ((List.range n).any fun i =>
      (slice body (64 + 1792 * i + 145) 15 ++ slice body (64 + 1792 * i + 1768) 24).any (· != 0)) = false →
    t.pool.extents.find ext = some e → e.tenant = x.tenant → e.state = .enabled → extSealed e = true → extSet e = set →
    hasRecord body n Config.identityHash.toNat = true →
    (t.ten.sets.findD (x.tenant * 65536 + set) []).contains Config.identityHash.toNat = true →
    (bit e.desc 8 = true → (t.ten.sets.findD (x.tenant * 65536 + set) []).contains (bits t.pair.block 1023 640) = true) →
    plain ≤ extCount e * 2097152 → (t.pool.maps.any fun m => m.extent == ext) = false → t.importing ext = false →
    (t.ten.imports.count fun m => !m.failed) < 16 →
    ∀ u, u = t.putSession c.session { x.sess with binding := none } →
    exec (.weightImportBegin c true) s = .next (answer
      { u with
          ten.imports := u.ten.imports.put ext
            { session := c.session, tenant := x.tenant, channel := ch, setId := set, plainBytes := plain,
              chunkCount := ceilDiv plain 65536 }
          ctl.bulk := u.ctl.bulk.adjust ch fun k => { k with consumer := some (.weights ext) } } x [])) ∧
  (∀ c s x t m, Reaches weightImportEndSpec c true true s x t → t.ten.imports.find (bits c.block 15 0) = some m →
    m.tenant = x.tenant → m.endCmd = none →
    exec (.weightImportEnd c) s = .next
      (((t.putImport (bits c.block 15 0) { m with endCmd := some x.ref }).importCheck (bits c.block 15 0)).settle)) ∧
  (∀ c s x t ch, Reaches bulkOpenSpec c true true s x t → bits c.block 47 0 ≠ 0 → t.ctl.bulk.length < 32 →
    t.ctl.bulk.count (fun b => b.session == c.session) < 16 →
    cyclicFree (fun i => t.ctl.bulk.has i) t.ctl.lastChannel 0 31 = some ch →
    exec (.bulkOpen c) s = .next (answer
      { t.putBulk ch { session := c.session, bytes := bits c.block 47 0, due := t.dev.tick + 16777216 } with
          ctl.lastChannel := some ch } x (leBytes ch 8))) ∧
  (∀ c s x t b, Reaches bulkCloseSpec c true true s x t → t.ctl.bulk.find (bits c.block 15 0) = some b → b.session = c.session →
    exec (.bulkClose c) s = .next (answer (t.closeChannel (bits c.block 15 0)) x [])) ∧
  (∀ c s x t b, Reaches bulkStatusSpec c true true s x t → t.ctl.bulk.find (bits c.block 15 0) = some b → b.session = c.session →
    exec (.bulkStatus c) s = .next (answer t x (leBytes b.offset 8 ++ leBytes (262144 - b.buffer.length) 8)))
/-- Reservations, capacity and address spaces (06 R153, R155; 08 R211, R213): a granule that is not yet filled after a sleep is not
FREE (10 R296); the answer counts it with those in quarantine (the model's choice, log 178). -/
def Obligations.PoolCommands : Prop :=
  (∀ c s x t n k v, Reaches reserveSetSpec c true true s x t → n = bits c.block 15 0 → k = bits c.block 83 64 →
    t.tenantOf n = some v → k ≤ 587776 →
    sumOf (t.ten.tenants.map fun y => if y.1 == n then 0 else y.2.reserve) + k ≤ t.capacity → t.charge n ≤ k →
    exec (.reserveSet c) s = .next (answer ((t.putTenant n { v with reserve := k }).sendMeta (.reserve n k)) x [])) ∧
  (∀ c s x t, Reaches capacityQuerySpec c true true s x t →
    (x.isOp = true → exec (.capacityQuery c) s = .next (answer t x
      (leBytes (t.granCount .metadata) 8 ++ leBytes (t.granCount .fallow) 8 ++
        leBytes (t.granCount .free) 8 ++ leBytes (t.granCount .allocated) 8 ++
        leBytes (t.granCount .quarantine + t.granCount .unfilled) 8 ++ leBytes (t.granCount .retired) 8 ++
        leBytes t.pool.fallowF 8))) ∧
    (x.isOp = false → ∃ q, exec (.capacityQuery c) s = .next (answer t x
      (leBytes (t.reserveOf x.tenant) 8 ++ leBytes (t.charge x.tenant) 8 ++ leBytes q 8)))) ∧
  (∀ c s x t asid, Reaches spaceCreateSpec c true true s x t → bits c.block 3 0 = 3 →
    (bits c.block 147 128 = 0 ∧ bits c.block 111 64 = 0 ∧ bits c.block 175 160 = 0 ∨
      bits c.block 147 128 ≠ 0 ∧ bits c.block 147 128 ≤ 587776 ∧ bits c.block 111 64 % 2097152 = 0 ∧
      bits c.block 111 64 + 2097152 * bits c.block 147 128 ≤ 2 ^ 48 ∧ bits c.block 175 160 ≠ 0) →
    firstFree (fun a => !t.spaceFree a) 0 4096 = some asid →
    exec (.spaceCreate c) s = .next (answer
      ((t.putSpace asid { tenant := x.tenant, desc := c.block }).sendMeta (.space asid x.tenant c.block))
      x (leBytes (bits c.block 255 192) 8 ++ leBytes asid 8))) ∧
  (∀ c s x t a, Reaches spaceDeleteSpec c true true s x t → bits c.block 15 0 < 4096 →
    t.pool.spaces.find (bits c.block 15 0) = some a → a.dead = false → a.tenant = x.tenant →
    exec (.spaceDelete c) s = .next ((t.deleteSpace (bits c.block 15 0) (some x.ref)).settle))

/-- Extents (06 R156 to R161, R181, R182): a created extent is DISABLED under the next free number; ENABLE gives it granules;
DELETE drops a DISABLED one and revokes an ENABLED one, as RECLAIM does with an event for its tenant. -/
def Obligations.ExtentCommands : Prop :=
  (∀ c s x t n, Reaches extentCreateSpec c true true s x t →
    cyclicFree (fun n => t.pool.extents.has n) t.ctl.lastExtent 0 65535 = some n →
    exec (.extentCreate c) s = .next (answer
      (({ t with ctl.lastExtent := some n }.putExtent n { tenant := x.tenant, desc := c.block }).sendMeta
        (.extent n x.tenant c.block 1 0)) x (leBytes n 8))) ∧
  (∀ c s x t e, Reaches extentEnableSpec c true true s x t → t.enableRefusal (bits c.block 15 0) x.tenant = .ok e →
    bit e.desc 8 = false →
    exec (.extentEnable c) s = .next (answer
      ((t.enableExtent (bits c.block 15 0) e 0).sendMeta (.extent (bits c.block 15 0) x.tenant e.desc 2 0)) x [])) ∧
  (∀ c s x t e, Reaches extentEnableSpec c true true s x t → t.enableRefusal (bits c.block 15 0) x.tenant = .ok e →
    bit e.desc 8 = true →
    exec (.extentEnable c) s = .next (((t.pairSend (.place (bits c.block 15 0) x.ref) 0x71).2.emit
      (.metaSent (t.pairSend (.place (bits c.block 15 0) x.ref) 0x71).1
        (.extent (bits c.block 15 0) x.tenant e.desc 2 0))).settle)) ∧
  (∀ c s x t e, Reaches extentDeleteSpec c true true s x t → t.pool.extents.find (bits c.block 15 0) = some e →
    e.tenant = x.tenant →
    (e.state = .disabled → exec (.extentDelete c) s = .next (answer
      ((t.delExtent (bits c.block 15 0)).sendMeta (.noExtent (bits c.block 15 0))) x [])) ∧
    (e.state = .enabled → exec (.extentDelete c) s = .next ((t.beginRevoke (bits c.block 15 0) (some x.ref)).settle))) ∧
  (∀ c s x t e, Reaches extentQuerySpec c true true s x t → t.pool.extents.find (bits c.block 15 0) = some e →
    (x.isOp = true ∨ e.tenant = x.tenant) → ∃ counts, counts.length = 64 ∧
    exec (.extentQuery c) s = .next (answer t x
      (extCookie e ++ leBytes (t.extRecord (bits c.block 15 0) e) 32 ++ counts))) ∧
  (∀ c s x t e, Reaches extentReclaimSpec c true true s x t → t.pool.extents.find (bits c.block 15 0) = some e →
    e.state = .enabled →
    exec (.extentReclaim c) s = .next
      (((t.beginRevoke (bits c.block 15 0) (some x.ref)).recTen e.tenant 0x0203 1 (bits c.block 15 0) 0 0).settle))

/-- Mappings (08 R216, R218; 09 R265): a map that passes the rows of its table is appended, unless a weight import into its extent
goes on, which it waits for (class state; that its rows are tested first is the model's choice, log 185); an unmap marks the mapping as being
removed, and the command is held until the refusal of it is in force. -/
def Obligations.MappingCommands : Prop :=
  (∀ c s x t, Reaches extentMapSpec c true true s x t → checkTable (mapRows x t) 0 = none →
    (t.importing (bits c.block 15 0) = true → exec (.extentMap c) s = .next (refused t x ⟨RClass.state.status, reason .state 2⟩)) ∧
    (t.importing (bits c.block 15 0) = false → exec (.extentMap c) s = .next (answer
      (({ t with pool.maps := t.pool.maps ++
          [{ asid := bits c.block 35 24, vaBase := bits c.block 127 80, first := bits c.block 59 40,
             count := bits c.block 79 60, pageSize := bits c.block 17 16, extent := bits c.block 15 0 }] } : State).sendMeta
        (.mapping x.tenant c.block)) x []))) ∧
  (∀ c s x t a m, Reaches extentUnmapSpec c true true s x t → t.spaceLive (bits c.block 35 24) = some a → a.tenant = x.tenant →
    (t.pool.maps.find? fun m => m.asid == bits c.block 35 24 && m.vaBase == bits c.block 127 80 &&
      m.extent == bits c.block 15 0) = some m → m.removing = false →
    exec (.extentUnmap c) s = .next ((((t.eachMap fun y =>
        if y.asid == bits c.block 35 24 && y.vaBase == bits c.block 127 80 then { y with removing := true, cmd := some x.ref }
        else y).sendMeta (.unmap c.block)).later [.scratch]).settle))

/-- Partitions of the L2 and the directory, and commons (08 R232; 07 R185, R186, R187, R196). -/
def Obligations.PartitionCommands : Prop :=
  (∀ c s x t n w v, Reaches l2PartitionSpec c true true s x t → n = bits c.block 15 0 → w = bits c.block 31 16 →
    t.tenantOf n = some v → (t.pool.l2part.any fun y => y.1 != n && Nat.land y.2 w != 0) = false →
    exec (.l2Partition c) s = .next (answer
      { t with pool.l2part := if w = 0 then t.pool.l2part.del n else t.pool.l2part.put n w } x [])) ∧
  (∀ c s x t n w v, Reaches dirPartitionSpec c true true s x t → n = bits c.block 15 0 → w = bits c.block 31 16 →
    t.tenantOf n = some v → (t.com.part.any fun y => y.1 != n && Nat.land y.2 w != 0) = false →
    (t.com.commons.any fun y => y.2.tenant == n && y.2.state == .enabled) = false →
    exec (.dirPartition c) s = .next (answer
      { t with com.part := if w = 0 then t.com.part.del n else t.com.part.put n w } x [])) ∧
  (∀ c s x t n, Reaches commonCreateSpec c true true s x t →
    cyclicFree (fun n => t.com.commons.has n) t.ctl.lastCommon 0 255 = some n →
    exec (.commonCreate c) s = .next (answer
      (({ t with ctl.lastCommon := some n }.putCommon n { tenant := x.tenant, desc := c.block }).sendMeta
        (.common n x.tenant c.block 1)) x (leBytes (bits c.block 127 64) 8 ++ leBytes n 8))) ∧
  (∀ c s x t n m e, Reaches commonEnableSpec c true true s x t → n = bits c.block 15 0 → t.com.commons.find n = some m →
    m.tenant = x.tenant → m.state = .disabled → bits m.desc 3 0 = 3 → t.pool.extents.find (comExtent m) = some e →
    e.tenant = x.tenant → e.state = .enabled → extVersioned e = false → extCheckout e = false →
    t.commonOf (comExtent m) = none →
    sumOf (t.com.commons.map fun y =>
      if y.2.state == .enabled then ((t.pool.extents.find (comExtent y.2)).map extCount).getD 0 else 0) + extCount e ≤ 32768 →
    (t.isolated x.tenant = true → t.com.part.has x.tenant = true) →
    exec (.commonEnable c) s = .next (answer
      ((t.putCommon n { m with state := .enabled }).sendMeta (.common n x.tenant m.desc 2)) x [])) ∧
  (∀ c s x t n m, Reaches commonDeleteSpec c true true s x t → n = bits c.block 15 0 → t.com.commons.find n = some m →
    m.tenant = x.tenant →
    (m.state = .disabled → exec (.commonDelete c) s = .next (answer ((t.delCommon n).sendMeta (.noCommon n)) x [])) ∧
    (m.state = .enabled → exec (.commonDelete c) s = .next
      (((t.putCommon n { m with state := .ending, cmd := some x.ref }).sweepCommon n .delete).settle)))

/-- A stream that is opened (02 R33, R44, R47): it stands under its number with the opener's tenant and session, open, with no
tile, nothing issued and nothing done. -/
def Obligations.StreamOpened : Prop :=
  ∀ (s u : State) (o : Opener) (node sid : Nat) (ccp : Option Nat) (who : Access) (desc : List Byte),
    s.openStream o node ccp who desc = (.yes sid, u) →
    ∃ v, u.str.streams.find sid = some v ∧ v.tenant = o.tenant ∧ v.session = o.session ∧ v.ccp = ccp ∧ v.node = node ∧
      v.closed = false ∧ v.tiles = [] ∧ v.issued = 0 ∧ v.done = 0 ∧ v.lowest = 0 ∧ v.head = leNat (desc.take 64) ∧
      u.ctl.lastStream = some sid

/-- Streams by CCP command (02 R33, R47, R48, R50; 14 R394): created with its number and epoch as answer; closed at once with its
record when it is complete, and otherwise held; cut; given another priority. -/
def Obligations.StreamCommands : Prop :=
  (∀ c s x t sid u, Reaches streamCreateSpec c true true s x t →
    t.openStream { tenant := x.tenant, session := none } 0 (some c.session)
      (.command 0x0401 x.ref x.tenant x.block x.total) (leBytes c.block c.total) = (.yes sid, u) →
    exec (.streamCreate c) s = .next (answer u x (leBytes (streamOperand sid (u.str.epochs.findD sid 0)) 8))) ∧
  (∀ c s x t sid v, Reaches streamCloseCcpSpec c true true s x t → sid = bits c.block 13 0 →
    t.namedStream sid (bits c.block 23 16) = some v → v.ccp = some c.session →
    (v.closed = true → v.tiles = [] →
      exec (.streamCloseCcp c) s = .next (answer (t.freeStream sid) x (recordBytes sid v))) ∧
    (v.closed = false →
      exec (.streamCloseCcp c) s = .next ((t.putStream sid { v with closeCmd := v.closeCmd ++ [x.ref] }).settle))) ∧
  (∀ c s x t sid v, Reaches streamAbortCcpSpec c true true s x t → sid = bits c.block 13 0 →
    t.namedStream sid (bits c.block 23 16) = some v → v.ccp = some c.session → v.closed = false →
    exec (.streamAbortCcp c) s = .next (answer (t.cutStream sid .aborted) x [])) ∧
  (∀ c s x t sid v, Reaches streamPrioritySpec c true true s x t → sid = bits c.block 13 0 →
    t.namedStream sid (bits c.block 23 16) = some v → v.tenant = x.tenant →
    exec (.streamPriority c) s = .next (answer (t.putStream sid { v with priority := bits c.block 26 24 }) x []))

/-- Loaded formats and VECTOR programs (03 R65, R66, R80): a legal descriptor goes into a slot of 14 to 31 that nothing uses,
a zero descriptor empties it; a program goes into its slot for the tenant that loads it. -/
def Obligations.LoadCommands : Prop :=
  (∀ c s x t d n, Reaches formatLoadSpec c true true s x t → d = bits c.block 63 0 → n = bits c.block 68 64 → 14 ≤ n →
    descBad d = false → t.slotUsed n = false →
    exec (.formatLoad c) s = .next (answer
      { t with str.formats := if d = 0 then t.str.formats.del n else t.str.formats.put n d } x [])) ∧
  (∀ c s x t n ops, Reaches vectorProgLoadSpec c true true s x t → n = bits c.block 15 8 →
    ops = (List.range (progLen c.block)).map (progOp c.block) → ops.any opReserved = false →
    c.block / 2 ^ (384 + 32 * progLen c.block) = 0 → ops.any opRange = false →
    (∀ p, t.str.progs.find n = some p → p.tenant = x.tenant) →
    exec (.vectorProgLoad c) s = .next (answer { t with str.progs := t.str.progs.put n ⟨x.tenant, c.block⟩ } x []))

/-- Ledger windows (04 R99, R103, R118, R119, R121, R123): created DISABLED, opened when the rows of its table pass, cut, retired
once none of its tiles is still being written, deleted when DISABLED or RETIRED, and read. Retiring drops the tiles; where
requests wait (the model's log 171), those that name it keep their answers. -/
def Obligations.WindowCommands : Prop :=
  (∀ c s x t n, Reaches windowCreateSpec c true true s x t →
    cyclicFree (fun n => t.seq.windows.has n) t.ctl.lastWindow 0 4095 = some n →
    exec (.windowCreate c) s = .next (answer
      (({ t with ctl.lastWindow := some n }.putWindow n
          { tenant := x.tenant, desc := c.block, resBytes := t.resBytes c.block }).sendMeta
        (.window n x.tenant c.block 1 0)) x (leBytes n 8))) ∧
  (∀ c s x t w v, Reaches windowEnableSpec c true true s x t → w = bits c.block 15 0 → w < 4096 →
    t.seq.windows.find w = some v → v.tenant = x.tenant → checkTable (windowRows x t w v) 9 = none →
    exec (.windowEnable c) s = .next (answer
      ((t.putWindow w { v with state := .opened, resBytes := t.winRes v, idleDue := t.dev.tick + wIdle v.desc }).sendMeta
        (.window w x.tenant v.desc 2 0)) x [])) ∧
  (∀ c s x t w v, Reaches windowAbortSpec c true true s x t → w = bits c.block 15 0 → w < 4096 →
    t.seq.windows.find w = some v → v.tenant = x.tenant → v.state = .opened →
    exec (.windowAbort c) s = .next (answer (t.cutWindow w .aborted) x [])) ∧
  (∀ c s x t w v, Reaches windowRetireSpec c true true s x t → w = bits c.block 15 0 → w < 4096 →
    t.seq.windows.find w = some v → v.tenant = x.tenant → v.state = .closed → v.retireCmd = none →
    ((v.tiles.any fun y => y.2.phase != .opened && y.2.phase != .closed) = false →
      exec (.windowRetire c) s = .next (answer (t.retireWindow w v) x [])) ∧
    ((v.tiles.any fun y => y.2.phase != .opened && y.2.phase != .closed) = true →
      exec (.windowRetire c) s = .next ((t.putWindow w { v with retireCmd := some x.ref }).settle))) ∧
  (∀ c s x t w v, Reaches windowDeleteSpec c true true s x t → w = bits c.block 15 0 → w < 4096 →
    t.seq.windows.find w = some v → v.tenant = x.tenant → (v.state = .disabled ∨ v.state = .retired) →
    exec (.windowDelete c) s = .next (answer ((t.delWindow w).sendMeta (.noWindow w)) x [])) ∧
  (∀ c s x t w v, Reaches windowQuerySpec c true true s x t → w = bits c.block 15 0 → w < 4096 →
    t.seq.windows.find w = some v → (x.isOp = true ∨ v.tenant = x.tenant) →
    exec (.windowQuery c) s = .next (answer t x (leBytes (wCookie v.desc) 8 ++ leBytes (windowRecord w v) 32))) ∧
  (∀ (t : State) w v, t.fab.held = [] → (t.sch.hubs.flatMap fun q => q.2) = [] → t.retireWindow w v =
    (t.putWindow w { v with retireCmd := none, state := .retired, tiles := [] }).sendMeta
      (.window w v.tenant v.desc 4 v.outcome))

/-- Sequence contexts (05 R124, R127, R128, R129, R130): created DISABLED, enabled with frontiers at zero, truncated or disabled once none of
its tiles runs, deleted while not enabled, and read. -/
def Obligations.ContextCommands : Prop :=
  (∀ c s x t n, Reaches seqCreateSpec c true true s x t →
    cyclicFree (fun n => t.seq.contexts.has n) t.ctl.lastContext 0 4095 = some n →
    exec (.seqCreate c) s = .next (answer
      (({ t with ctl.lastContext := some n }.putContext n { tenant := x.tenant, desc := c.block }).sendMeta
        (.context n x.tenant c.block 1 [] [])) x (leBytes n 8))) ∧
  (∀ c s x t n v, Reaches seqEnableSpec c true true s x t → n = bits c.block 15 0 → n < 4096 →
    t.seq.contexts.find n = some v → v.tenant = x.tenant → checkTable (contextRows x t v) 6 = none → qScaleMode v.desc = false →
    exec (.seqEnable c) s = .next (answer
      (((t.dropGot (.command 0x0431 x.ref x.tenant x.block x.total)).putContext n
        { v with enabled := true, frontiers := List.replicate (qH v.desc) 0, scales := [], queries := 0, rows := 0 }).sendMeta
        (.context n x.tenant v.desc 2 (List.replicate (qH v.desc) 0) [])) x [])) ∧
  (∀ c s x t n v, Reaches seqTruncateSpec c true true s x t → n = bits c.block 15 0 → n < 4096 →
    t.seq.contexts.find n = some v → v.tenant = x.tenant → v.enabled = true →
    exec (.seqTruncate c) s = .next
      (((t.putContext n { v with holds := v.holds ++ [.truncate (bits c.block 63 32) x.ref] }).endHold n).settle)) ∧
  (∀ c s x t n v, Reaches seqDisableSpec c true true s x t → n = bits c.block 15 0 → n < 4096 →
    t.seq.contexts.find n = some v → v.tenant = x.tenant → v.enabled = true →
    exec (.seqDisable c) s = .next (((t.putContext n { v with holds := v.holds ++ [.disable x.ref] }).endHold n).settle)) ∧
  (∀ c s x t n v, Reaches seqDeleteSpec c true true s x t → n = bits c.block 15 0 → n < 4096 →
    t.seq.contexts.find n = some v → v.tenant = x.tenant → v.enabled = false →
    exec (.seqDelete c) s = .next (answer ((t.delContext n).sendMeta (.noContext n)) x [])) ∧
  (∀ c s x t n v, Reaches seqQuerySpec c true true s x t → n = bits c.block 15 0 → n < 4096 →
    t.seq.contexts.find n = some v → v.tenant = x.tenant → ∃ rows,
    exec (.seqQuery c) s = .next (answer t x (leBytes (qCookie v.desc) 8 ++ leBytes (contextRecord n v) 32 ++ rows)))

/-- Ports (12 R346): PORT_SET writes the parameters, a zero field standing for its default; a port that is UP retrains to fewer lanes
where they no longer fit, and one that retrains comes back within them (log 199 for that state); a change of mode or enable takes the port down with reason 4, and an enabled one starts again from
DARK; PORT_QUERY changes nothing. -/
def Obligations.PortCommands : Prop :=
  (∀ c s x t p q top new, Reaches portSetSpec c true true s x t → p = bits c.block 5 0 → q = t.port p → bits c.block 17 16 < 2 →
    bits c.block 45 36 ≤ 512 → top = (if bits c.block 17 16 = 0 then 8 else 4) → bits c.block 31 28 ≤ top →
    new = (fun q : Port => { q with
      replayTo := orDefault (bits c.block 63 56) 20, ackTimer := orDefault (bits c.block 55 48) 20
      ackEvery := orDefault (bits c.block 45 36) 64, replayLim := orDefault (bits c.block 35 32) 4
      wMax := orDefault (bits c.block 31 28) top, mode := bits c.block 17 16, enable := bit c.block 8 }) →
    (bits c.block 17 16 = q.mode → bit c.block 8 = q.enable →
      (q.st ≠ .up ∧ q.st ≠ .retrain ∨ q.st = .up ∧ q.w ≤ orDefault (bits c.block 31 28) top →
        exec (.portSet c) s = .next (answer (t.modPort p new) x [])) ∧
      (q.st = .retrain → exec (.portSet c) s = .next (answer ((t.modPort p new).modPort p fun q =>
        { q with nextW := some (min (orDefault (bits c.block 31 28) top) (q.nextW.getD q.w)) }) x [])) ∧
      (q.st = .up → orDefault (bits c.block 31 28) top < q.w →
        exec (.portSet c) s = .next (answer ((t.modPort p new).retrain p (orDefault (bits c.block 31 28) top) false) x []))) ∧
    (bits c.block 17 16 ≠ q.mode ∨ bit c.block 8 ≠ q.enable →
      (bit c.block 8 = false → exec (.portSet c) s = .next (answer
        (((t.portDown p 4).modPort p new).modPort p fun q => { q with st := .down }) x [])) ∧
      (bit c.block 8 = true → exec (.portSet c) s = .next (answer
        ((((t.portDown p 4).modPort p new).modPort p fun q => { q with st := .down }).darkNow p) x [])))) ∧
  (∀ c s x t, Reaches portQuerySpec c true true s x t → bits c.block 15 0 < 64 → ∃ counts,
    exec (.portQuery c) s = .next (answer t x (leBytes (t.port (bits c.block 15 0)).st.code 8 ++
      leBytes (t.port (bits c.block 15 0)).w 8 ++ counts)))

/-- Routing (13 R370, R372): ROUTE_SET opens a bank that is quiet or open and puts its entries; ROUTE_EPOCH closes a bank and
makes it the one in use; MCAST_SET writes a group. -/
def Obligations.RouteCommands : Prop :=
  (∀ c s x t n first bk es, Reaches routeSetSpec c true true s x t → n = bits c.block 39 32 + 1 → first = bits c.block 63 48 →
    bk = c.block % 2 → es = (List.range n).map (fun i => bits c.block (32 * i + 95) (32 * i + 64)) →
    (∀ e ∈ es, bit e 31 = false ∧ bits e 30 28 ≤ 4 ∧ (bits e 30 28 = 0 ∨ bit e 6 = true)) → first + n ≤ 65536 →
    ((t.bank bk).quiet = true ∨ (t.bank bk).opened = true) →
    exec (.routeSet c) s = .next (answer (t.putBank bk { t.bank bk with
      opened := true, quiet := false,
      entries := es.zipIdx.foldl (fun (tb : Tbl Nat) (y : Nat × Nat) =>
        if bits y.1 30 28 == 0 then tb.del (first + y.2) else tb.put (first + y.2) y.1) (t.bank bk).entries }) x [])) ∧
  (∀ c s x t e, Reaches routeEpochSpec c true true s x t → e = c.block % 2 → e ≠ t.fab.epoch →
    ∀ u, u = { t with fab.escWait := orDefault (bits c.block 15 8) 100 } →
    ∀ v, v = u.putBank u.fab.epoch { u.bank u.fab.epoch with lastUse := t.dev.tick, quiet := false } →
    ∀ w, w = { v with fab.epoch := e } →
    exec (.routeEpoch c) s = .next (answer (w.putBank e { w.bank e with opened := false, quiet := false }) x [])) ∧
  (∀ c s x t, Reaches routeQuerySpec c true true s x t → ∃ counts,
    exec (.routeQuery c) s = .next (answer t x (leBytes t.fab.epoch 8 ++ counts))) ∧
  (∀ c s x t, Reaches mcastSetSpec c true true s x t →
    exec (.mcastSet c) s = .next (answer
      { t with fab.groups := t.fab.groups.put (bits c.block 75 64) (bits c.block 63 0, bit c.block 76) } x []))

/-- Shares, police, arbitration, isolation and cadence (14 R386, R387, R393, R395, R401; 05 R146). -/
def Obligations.ShareCommands : Prop :=
  (∀ c s x t n v, Reaches policeSetSpec c true true s x t → x.isOp = true → n = bits c.block 15 0 → bit c.block 16 = false →
    t.tenantOf n = some v →
    (bit c.block 17 = true → 258 ≤ bits c.block 59 40 ∧ 258 ≤ bits c.block 103 84 ∧ bits c.block 83 60 ≤ bits c.block 127 104) →
    exec (.policeSetMeter c) s = .next (answer (({ t with
      sch.meters := t.sch.meters.put n { t.sch.meters.findD n {} with next := some c.block } } : State).sendMeta
        (.police c.block)) x [])) ∧
  (∀ c s x t n v, Reaches policeSetSpec c true true s x t → x.isOp = false → n = bits c.block 15 0 → bit c.block 16 = true →
    n = x.tenant → t.tenantOf n = some v →
    (bit c.block 17 = true → 258 ≤ bits c.block 59 40 ∧ bits c.block 103 84 = 0 ∧ bits c.block 127 104 = 0) →
    exec (.policeSetProfile c) s = .next (answer (({ t with
      sch.profs := t.sch.profs.put n { t.sch.profs.findD n {} with next := some c.block }
      sch.buckets := (t.ten.links.keysWhere fun l => l.tenant == n).foldl
        (fun bs id => bs.put id { bs.findD id {} with next := some c.block }) t.sch.buckets } : State).sendMeta
        (.police c.block)) x [])) ∧
  (∀ c s x t k, Reaches schedSetSpec c true true s x t →
    k = nodeKey (bits c.block 63 48) (bits c.block 40 40) (bits c.block 43 41) →
    bits c.block 63 48 = 0 → bits c.block 43 41 = 7 → bits c.block 39 29 ≤ bits c.block 28 18 → bits c.block 39 29 ≤ 1024 →
    1 ≤ bits c.block 28 18 → bits c.block 28 18 ≤ 1024 →
    sumOf ((t.sch.nodes.filter fun y => (y.1 != k && y.1 / 8 % 2 == bits c.block 40 40) && y.1 % 8 == 7).map
      (·.2.minShare)) + bits c.block 39 29 ≤ 1024 →
    exec (.schedSet c) s = .next (answer (({ t with
      sch.olds := (pointsOf (bits c.block 40 40)).foldl (fun o p =>
        if (t.sch.used.findD p []).isEmpty || (o.findD p []).has k then o
        else o.put p ((o.findD p []).put k (t.sch.nodes.findD k {}))) t.sch.olds
      sch.nodes := t.sch.nodes.put k ⟨bits c.block 39 29, bits c.block 28 18,
        if bits c.block 17 10 = 0 then 1 else bits c.block 17 10⟩ } : State).sendMeta (.sched c.block)) x [])) ∧
  (∀ c s x t, Reaches arbSetSpec c true true s x t → bits c.block 2 0 ≤ 4 →
    exec (.arbSet c) s = .next (answer (({ t with
      sch.arb := listSet t.sch.arb (bits c.block 2 0)
        (if bits c.block 63 48 = 0 then 1024 else bits c.block 63 48,
         if bits c.block 47 32 = 0 then 64 else bits c.block 47 32) } : State).sendMeta (.arb c.block)) x [])) ∧
  (∀ c s x t n v l, Reaches isolateSetSpec c true true s x t → n = bits c.block 63 48 → t.tenantOf n = some v →
    bit c.block 0 = true → bits c.block 47 38 ≠ 0 → bits c.block 37 28 ≠ 0 → bits c.block 27 25 ≠ 0 →
    l = c.block :: (t.sch.iso.filter fun y => y.1 != n).map (·.2) →
    sumOf (l.map (bits · 27 25)) ≤ 7 → sumOf (l.map (bits · 47 38)) ≤ 896 → sumOf (l.map (bits · 37 28)) ≤ 896 →
    exec (.isolateSetEnable c) s = .next (answer
      ((({ t with sch.iso := t.sch.iso.put n c.block } : State).assignStations).sendMeta (.isolate c.block)) x [])) ∧
  (∀ c s x t n v, Reaches isolateSetSpec c true true s x t → n = bits c.block 63 48 → t.tenantOf n = some v →
    bit c.block 0 = false →
    exec (.isolateSetDisable c) s = .next (answer
      ((({ t with sch.iso := t.sch.iso.del n } : State).assignStations).sendMeta (.isolate c.block)) x [])) ∧
  (∀ c s x t k v, Reaches cadenceSetSpec c true true s x t → k = bits c.block 3 0 → k ≠ 0 →
    1024 ≤ cdPeriod c.block → cdPeriod c.block ≤ 16777216 → cdShare c.block ≠ 0 → cdShare c.block ≤ 512 →
    (cdEnabled c.block = true → t.tenantOf (cdTenant c.block) ≠ none ∧ sumOf (t.seq.cadence.map fun y =>
      if y.1 != k && cdEnabled (y.2.next.getD y.2.block) then cdShare (y.2.next.getD y.2.block) else 0) +
      cdShare c.block ≤ 512) → v = t.seq.cadence.findD k {} →
    (cdEnabled v.block = false → exec (.cadenceSet c) s = .next (answer ((t.putCadence k { v with
      block := c.block, next := none, cycles := 0, used := 0, due := t.dev.tick + cdPeriod c.block }).sendMeta
        (.cadence c.block)) x [])) ∧
    (cdEnabled v.block = true → exec (.cadenceSet c) s = .next (answer ((t.putCadence k { v with
      next := some c.block }).sendMeta (.cadence c.block)) x []))) ∧
  (∀ c s x t, Reaches histQuerySpec c true true s x t → bits c.block 63 48 = 0 → x.isOp = true → bits c.block 41 40 = 0 →
    bits c.block 7 0 = 255 → bit c.block 8 = false → ∃ counts,
    exec (.histQuery c) s = .next (answer t x counts))

/-- Power, sleep and the pair by command (15 R409, R422; 16 R425). -/
def Obligations.PowerCommands : Prop :=
  (∀ c s x t, Reaches powerSetSpec c true true s x t →
    (bits c.block 127 117 = 0 ∨ 600 ≤ bits c.block 127 117 ∧ bits c.block 127 117 ≤ 1400) → bits c.block 78 72 ≤ 100 →
    bits c.block 70 64 ≤ 64 → bits c.block 63 57 ≤ 64 → bits c.block 56 54 ≤ 5 → bits c.block 53 51 ≤ 4 →
    pbFloorC c.block + pbFloorM c.block + pbFloorL c.block + 80 ≤ pbCap c.block →
    exec (.powerSet c) s = .next (answer ((({ t with
      pwr.next := some c.block, pwr.plMax := bits c.block 53 51, pwr.droopLvl := 0, pwr.persisted := false,
      pwr.fault := false } : State).sendMeta (.power c.block)).relevel) x [])) ∧
  (∀ c s x t, Reaches powerQuerySpec c true true s x t → ∃ rest,
    exec (.powerQuery c) s = .next (answer t x (leBytes t.pwr.level 8 ++ leBytes t.pwr.plMax 8 ++ rest))) ∧
  (∀ c s x t, Reaches sleepSetSpec c true true s x t →
    exec (.sleepSet c) s = .next (answer { t with pwr.sleepSet := c.block } x [])) ∧
  (∀ c s x t, Reaches sleepEnterSpec c true true s x t → bits c.block 2 0 = 3 → t.sleepBarred = false → t.pwr.sleep = .active →
    exec (.sleepEnterSl3 c) s = .next (((t.respond x.ref ⟨0, 0, []⟩).goSleep false).settle)) ∧
  (∀ c s x t, Reaches sleepEnterSpec c true true s x t → bits c.block 2 0 = 4 → t.sleepBarred = false → t.pwr.sleep = .active →
    exec (.sleepEnterSl4 c) s = .next (((t.respond x.ref ⟨0, 0, []⟩).goSleep true).settle)) ∧
  (∀ c s x t, Reaches sleepEnterSpec c true true s x t → bits c.block 2 0 = 0 → t.pwr.sleep ≠ .active →
    exec (.sleepEnterWake c) s = .next (answer t x [])) ∧
  (∀ c s x t, Reaches pairQuerySpec c true true s x t →
    exec (.pairQuery c) s = .next (answer t x (leBytes t.pair.role.num 8 ++ leBytes t.pair.term 8 ++
      leBytes (b2n t.pair.peerIn) 8 ++ leBytes t.pair.block 128))) ∧
  (∀ c s x t ports, Reaches pairSetSpec c true true s x t → ports = bits c.block 255 192 →
    1 ≤ popcount ports 64 → popcount ports 64 ≤ 4 → bits c.block 159 144 ≠ 0 → bits c.block 127 112 ≠ 1 →
    bits c.block 127 112 ≤ 64 → (∀ k, k = t.fab.bank0 ∨ k = t.fab.bank1 →
      (k.entries.any fun e => (entryCands e.2).any fun y => bit ports y.2) = false) →
    (t.fab.groups.any fun g => g.2.2 && (List.range 64).any fun p => bit g.2.1 p && bit ports p) = false →
    (∀ u, bit c.block 0 = true → t.pair.enabled = false →
      u = ({ t with
          pair.block := c.block, pair.enabled := true, pair.waitDue := some (t.dev.tick + 1562500)
          fw.config := t.fw.config.put 0x40 (leBytes c.block 128) } : State).setPortReady 0 (bit t.ready.port 0) →
      (bit c.block 2 = false → exec (.pairSetEnable c) s = .next (answer u x [])) ∧
      (bit c.block 2 = true →
        exec (.pairSetEnable c) s = .next (answer ({ u with pair.waitDue := none } : State).claimLease x []))) ∧
    (bit c.block 0 = false → t.pair.enabled = false → (t.pair.role ≠ .active ∨
        (t.pool.extents.any fun e => e.2.state == .enabled && bit e.2.desc 8) = false) →
      exec (.pairSetDisable c) s = .next (answer t x [])) ∧
    (∀ u v, bit c.block 0 = false → t.pair.enabled = true → (t.pair.role ≠ .active ∨
        (t.pool.extents.any fun e => e.2.state == .enabled && bit e.2.desc 8) = false) →
      u = (t.pairSend .fence 0x75).2.releaseMirrors true →
      v = { u with pair := { block := c.block }, fw.config := u.fw.config.put 0x40 (leBytes c.block 128) } →
      exec (.pairSetDisable c) s = .next (answer (v.setPortReady 0 (bit v.ready.port 0)) x [])))

/-- Firmware (19 R487, R490, R493; 09 R236): staging takes the slot that is not in use and is held; activation answers and then
runs the staged image, or commits the running image's security version to the fuses; an accepted token waits for the next
cold reset. -/
def Obligations.FirmwareCommands : Prop :=
  (∀ c s x t n, Reaches fwStageSpec c true true s x t → t.fw.spareSlot = some n → bit c.block 8 = false → bits c.block 20 16 = 0 →
    t.fw.trial = none → t.fw.staging = none → t.fw.activate = none → t.fw.cardIn = true → t.fw.cardFile = true →
    exec (.fwStage c) s = .next (({ t.setSlot n { t.fw.slot n with state := .staging } with
      fw.staging := some { channel := none, cmd := some x.ref, target := n, due := t.dev.tick + 1875000000 }
      fw.fresh := false }).settle)) ∧
  (∀ c s x t n k, Reaches fwStageSpec c true true s x t → t.fw.spareSlot = some n → bit c.block 8 = true →
    t.fw.trial = none → t.fw.staging = none → t.fw.activate = none → t.ctl.bulk.find (bits c.block 20 16) = some k →
    k.session = c.session → k.consumer = none →
    ∀ u, u = t.putBulk (bits c.block 20 16) { k with consumer := some .stage, buffer := [] } →
    exec (.fwStage c) s = .next (({ u.setSlot n { u.fw.slot n with state := .staging } with
      fw.staging := some { channel := some (bits c.block 20 16), cmd := some x.ref, target := n,
                           due := t.dev.tick + 1875000000 }
      fw.fresh := false }).settle)) ∧
  (∀ c s x t, Reaches fwActivateSpec c true true s x t → t.fw.trial = none → t.fw.staging = none → t.fw.activate = none →
    (∀ n, bits c.block 1 0 = 0 → t.fw.spareSlot = some n → t.fw.bootable n = true →
      exec (.fwActivateMgmt c) s = .next (((t.respond x.ref ⟨0, 0, []⟩).activateMgmt n).settle)) ∧
    (∀ n, t.fw.keTarget = some n → t.keRefusal (bit c.block 8) = none → t.pair.enabled = false ∨ t.pair.role ≠ .active →
      (bits c.block 1 0 = 1 → exec (.fwActivateKe c) s = .next (((({ t with fw.activate := some (1, n, x.ref) } : State).respond
        x.ref ⟨0, 0, []⟩).restartKeys n).settle)) ∧
      (bits c.block 1 0 = 2 → exec (.fwActivateBoth c) s = .next (((({ t with fw.activate := some (2, n, x.ref) } : State).respond
        x.ref ⟨0, 0, []⟩).restartKeys n).settle))) ∧
    (∀ n u, t.fw.keTarget = some n → t.keRefusal (bit c.block 8) = none → t.pair.enabled = true → t.pair.role = .active →
      u = ({ t with fw.activate := some (bits c.block 1 0, n, x.ref) } : State).fenceUnit →
      (bits c.block 1 0 = 1 → exec (.fwActivateKe c) s = .next
        ({ u with pair.handover := true, pair.peerTook := false } : State).settle) ∧
      (bits c.block 1 0 = 2 → exec (.fwActivateBoth c) s = .next
        ({ u with pair.handover := true, pair.peerTook := false } : State).settle)) ∧
    (bits c.block 1 0 = 3 → t.fw.mgmtSlot = t.fw.keSlot → t.fw.fusedSec < (t.fw.slot t.fw.mgmtSlot).secVer →
      (t.fw.slot (1 - t.fw.mgmtSlot)).state ≠ .bootable →
      exec (.fwActivateCommitSec c) s = .next (answer
        { t with fw.fusedSec := (t.fw.slot t.fw.mgmtSlot).secVer } x [])) ∧
    (∀ n y, bits c.block 1 0 = 3 → t.fw.mgmtSlot = t.fw.keSlot → n = (t.fw.slot t.fw.mgmtSlot).secVer → t.fw.fusedSec < n →
      y = t.fw.slot (1 - t.fw.mgmtSlot) → y.state = .bootable →
      (n ≤ y.secVer → exec (.fwActivateCommitSec c) s = .next (answer { t with fw.fusedSec := n } x [])) ∧
      (y.secVer < n → exec (.fwActivateCommitSec c) s = .next (answer
        (({ t with fw.fusedSec := n } : State).setSlot (1 - t.fw.mgmtSlot) { y with state := .failed }) x [])))) ∧
  (∀ c s x t, Reaches fwQuerySpec c true true s x t → ∃ rest,
    exec (.fwQuery c) s = .next (answer t x (leBytes (t.fw.fusedSec * 2 ^ 24 + t.fw.slotA.state.num * 2 ^ 16 +
      t.fw.slotB.state.num * 2 ^ 8 + b2n t.fw.trial.isSome * 4 + t.fw.keSlot * 2 + t.fw.mgmtSlot) 4 ++ rest))) ∧
  (∀ c s x t, Reaches debugUnlockSpec c true true s x t →
    exec (.debugUnlock c true true) s = .next (answer { t with fw.token := true } x []))

/-- Stored configuration, events, counters (19 R494; 20 R506, R507): an item that fits is stored, or removed when empty, and
read back as stored; an event read first drops what the reader acknowledges; a counter read with clear zeroes what it
answers. -/
def Obligations.RecordCommands : Prop :=
  (∀ c s x t item len, Reaches configSetSpec c true true s x t → item = bits c.block 15 0 → len = bits c.block 47 32 →
    itemOfDevice item = false → len ≤ 4096 →
    (len = 0 → itemFits item len ≠ none → exec (.configSet c) s = .next (answer
      { t with fw.config := t.fw.config.del item } x [])) ∧
    (len ≠ 0 → itemFits item len = some true → exec (.configSet c) s = .next (answer
      { t with fw.config := t.fw.config.put item ((leBytes c.block c.total).drop 8) } x []))) ∧
  (∀ c s x t v, Reaches configQuerySpec c true true s x t → itemFits (bits c.block 15 0) 0 ≠ none →
    t.fw.config.find (bits c.block 15 0) = some v → exec (.configQuery c) s = .next (answer t x v)) ∧
  (∀ c s x t, Reaches eventReadSpec c true true s x t →
    (x.isOp = true → ∀ q, q = (if bit c.block 8 then t.log.op.ackTo (bits c.block 63 32) else t.log.op) →
      exec (.eventRead c) s = .next (answer { t with log.op := q } x
        (leBytes q.recs.length 8 ++ (q.recs.take (bits c.block 7 0 + 1)).flatMap fun r => leBytes r.word 32))) ∧
    (x.isOp = false → ∀ q₀ q, t.log.ten.find x.tenant = some q₀ →
      q = (if bit c.block 8 then q₀.ackTo (bits c.block 63 32) else q₀) →
      exec (.eventRead c) s = .next (answer { t with log.ten := t.log.ten.put x.tenant q } x
        (leBytes q.recs.length 8 ++ (q.recs.take (bits c.block 7 0 + 1)).flatMap fun r => leBytes r.word 32)))) ∧
  (∀ c s x t, Reaches statsQuerySpec c true true s x t → x.isOp = true → bits c.block 63 48 = 0 → bits c.block 41 40 = 3 →
    bits c.block 39 24 = 0 →
    exec (.statsQuery c) s = .next (answer (if bit c.block 8 then { t with stats.dev := List.replicate 12 0 } else t) x
      (t.stats.dev.flatMap fun n => leBytes n 8)))

/-- Stacks and ranks by command (11 R309, R312, R313, R320; 18 R473): the error log and the diagnostics are read, the test fault
is armed, written, read and released on a granule of its own, the sweep's period is set, a rank is retired or its record
cleared. -/
def Obligations.StackCommands : Prop :=
  (∀ c s x t, Reaches memErrLogSpec c true true s x t → ∃ body,
    exec (.memErrLog c) s = .next (answer
      (if bit c.block 8 then t.putStack (bits c.block 3 0) { t.stack (bits c.block 3 0) with log := [] } else t) x body)) ∧
  (∀ c s x t u, Reaches mowSetSpec c true true s x t → u = bits c.block 31 0 → (u = 0 ∨ 5365 ≤ u ∧ u ≤ 901222) →
    exec (.mowSet c) s = .next (answer { t with pool.mowPeriod := if u = 0 then 128746 else u } x [])) ∧
  (∀ c s x t k n, Reaches checkerTestSpec c true true s x t → k = bits c.block 31 28 → n = deviceSector k (bits c.block 59 32) →
    bit t.ready.stack k = true →
    (∀ u, bits c.block 1 0 = 0 → bits c.block 383 96 ≠ 0 →
      (bit c.block 4 = true → bits (bits c.block 383 96) 287 264 = 0) → t.pool.armed.has k = false →
      (t.isTest (sectorGran n) = false → t.granFree (sectorGran n) = true ∧
        (t.pool.grans.filter fun y => y.2.use == .test).length < 16) →
      u = (if t.isTest (sectorGran n) then t else t.setGran (sectorGran n) { st := .allocated, use := .test }) →
      exec (.checkerTestArm c) s = .next (answer
        { u with pool.armed := u.pool.armed.put k ⟨n, bits c.block 383 96, bits c.block 7 5, bit c.block 4⟩ } x [])) ∧
    (bits c.block 1 0 = 1 → t.isTest (sectorGran n) = true →
      ∀ u, u = (t.writeSector n 0 (List.replicate 256 (BitVec.ofNat 8 (bits c.block 71 64))) false).2 →
      ((∀ a, u.pool.armed.find k = some a → a.sector ≠ n) → exec (.checkerTestWrite c) s = .next (answer u x [])) ∧
      (∀ a v, u.pool.armed.find k = some a → a.sector = n →
        v = u.putSector n (if a.stage then { u.secMeta n with macBad := true }
          else { u.secMeta n with rawErr := flipErr a.mask a.burst }) →
        exec (.checkerTestWrite c) s = .next (answer { v with pool.armed := v.pool.armed.del k } x []))) ∧
    (bits c.block 1 0 = 2 → t.isTest (sectorGran n) = true → ∀ y fixed, y = t.secCond n [] [] →
      fixed = (decodeSector (t.secMeta n).rawErr).elim [] (·.2) →
      exec (.checkerTestRead c) s = .next (answer ((t.readTouch n [] y).secEffect n y) x
        ([y.status.code, fixed.length, maskOf (fixed.map (·.2))].flatMap (leBytes · 8)))) ∧
    (bits c.block 1 0 = 3 → t.isTest (sectorGran n) = true →
      ∀ u, u = (t.zeroGran (sectorGran n)).setGran (sectorGran n) { st := .free } →
      ((∀ a, t.pool.armed.find k = some a → sectorGran a.sector ≠ sectorGran n) →
        exec (.checkerTestRelease c) s = .next (answer (u.later [.migrate]) x [])) ∧
      (∀ a, t.pool.armed.find k = some a → sectorGran a.sector = sectorGran n →
        exec (.checkerTestRelease c) s = .next (answer
          (({ u with pool.armed := u.pool.armed.del k } : State).later [.migrate]) x [])))) ∧
  (∀ c s x t r, Reaches rankRetireSpec c true true s x t → r = 4 * bits c.block 3 0 + bits c.block 9 8 →
    (bits c.block 17 16 = 0 → bit t.ready.stack (r / 4) = true →
      exec (.rankRetireNow c) s = .next (answer (t.retireRank r) x [])) ∧
    (bits c.block 17 16 = 1 → exec (.rankRetireClear c) s = .next (answer
      { t with fw.config := t.fw.config.put 0x50 (listSet t.rankRecord r 0#8) } x []))) ∧
  (∀ c s x t k p, Reaches stackDiagSpec c true true s x t → k = bits c.block 11 8 → p = bits c.block 19 14 →
    (bits c.block 1 0 = 0 → bits c.block 127 64 = 0 → bits c.block 639 128 = 0 →
      exec (.stackDiagRead c) s = .next (answer t x (t.diagBytes k p))) ∧
    (bits c.block 1 0 = 2 → bits c.block 127 64 = 0 → bits c.block 639 128 = 0 →
      exec (.stackDiagReadClear c) s = .next (answer
        (t.modPch k p fun q => { q with beats := 0, pins := q.pins.each fun _ y => { y with cmp := 0 } }) x (t.diagBytes k p))) ∧
    (∀ w, bits c.block 1 0 = 1 → w = bits c.block 127 64 → bits w 63 48 ≠ 0 → bit w 0 = true → bits w 16 8 = 0 →
      bits w 2 1 = 0 → bits w 7 6 ≠ 3 → bits w 5 3 < 4 → (bits w 5 3 < 2 → bits w 47 17 ≠ 0) →
      bit t.ready.stack k = true → (t.pch k p).running = none →
      exec (.stackDiagRun c) s = .next
        ((t.modPch k p fun q => { q with ctl := w, user := bits c.block 639 128, running := some x.ref }).settle)))

/-- A new request runs (13 R349, R352, R359, R360; 14 R385, R388; 15 R421; 09 Table 9-8): it comes for this node on a port that is
UP, of the sender's present generation, with a tag no entry holds, unpoliced and unfenced; the hedge and rows 4 to 9 pass it. It
touches its bank, marks its sender as heard, enters the tag table as executing, counts in its fence number, and is accepted. One that no
hub serves, or whose address leads nowhere, runs at once; another enters the hub queue of the field whose stack holds what
it is about, and where it is alone there, no tenant is isolated and the shares let it, leaves it and runs. An atomic runs where its home
station is awake. What a request starts ends with it: an agenda that comes to its end in a quiet state leaves nothing to
follow (log 23). -/
def Obligations.NewRequestRuns : Prop :=
  (∀ s t : State, Rests s t → s.settle = t) ∧
  (∀ (op : Nat) (p q : Packet) (x : Inner) (l : Link) (s a b c d : State) (r : Req), Arrives op p s q a → s.todo = [] →
    op < 0x40 → a.pwr.sleep = .active → (a.nodeRec q.src).gen = some q.ngen → a.notReady op = false → a.hedge op q = none →
    b = a.heard q.src → row4 op q = none → b.passiveAnswer op = none → b.fab.tags.find (tagKey q.src q.tag) = none →
    b.ten.links.find q.session = some l → b.sch.buckets.find q.session = none → b.sch.meters.find l.tenant = none →
    q.fence = false → b.fab.held = [] → c = b.putTagRec (tagKey q.src q.tag) ⟨q.tgen, .executing, []⟩ →
    d = (if (q.fnum + 16 - (c.fab.fences.findD q.src {}).x) % 16 < 8 then
      { c with fab.fences := c.fab.fences.put q.src { c.fab.fences.findD q.src {} with
        counts := listMod (c.fab.fences.findD q.src {}).counts
          ((q.fnum + 16 - (c.fab.fences.findD q.src {}).x) % 16) (· + 1) } } else c) → r = { opcode := op, p := q } →
    (d.hubPage r = none → (∀ n, op = 0x28 → d.atomicStation r = some n → (d.station n).sl1 = false ∧ bit d.stn.sl2 (n / 9) = false) →
      Runs op p x s r d) ∧
    (∀ g f use e y z, d.hubPage r = some g → f = granStack (pageGran g) → d.sch.iso = [] → d.sch.hubs.findD f [] = [] →
      use = ⟨f, (d.serviceOf r).1, (d.serviceOf r).2, ((d.hubSpan r).map (·.2.2)).getD 0⟩ →
      e = ⟨{ r with hub := some use }, use, d.dev.tick, d.sch.hubNext, []⟩ →
      y = { d with sch.hubs := d.sch.hubs.put f [e], sch.hubNext := d.sch.hubNext + 1 } →
      (y.pickEntry (256 + f) [e.entry]).map (·.id) = some e.order →
      z = ({ y with sch.hubs := y.sch.hubs.del f } : State).leaveQueue 1 f use.sub d.dev.tick →
      (∀ n, op = 0x28 → z.atomicStation e.r = some n → (z.station n).sl1 = false ∧ bit z.stn.sl2 (n / 9) = false) →
      Runs op p x s e.r z))

/-- Stream packets (02 R33, R47, R50, R52; 04 R116): an open that succeeds completes with the stream's number and epoch; a close
of a complete stream frees it and answers its record; an abort cuts it; an accepted tile enters its stream and is bound;
RESULT_READ of a closed ledger tile answers its words, converted, with the status of the tile. -/
def Obligations.StreamPackets : Prop :=
  (∀ p s r u w sid v, Runs 0x01 p (innerOf 0x01 p) s r u →
    u.openStream { tenant := (u.ten.links.find r.p.session).elim 0 (·.tenant), session := some r.p.session, kfp2 := u.kfp2 r.p }
      r.p.src none (.request r) r.p.payload = (.yes sid, w) →
    Rests (w.complete r .ok (some (streamOperand sid (w.str.epochs.findD sid 0)))) v →
    exec (.streamOpen p) s = .next v) ∧
  (∀ p s r u op y v, Runs 0x02 p (innerOf 0x02 p) s r u → op = leNat (r.p.payload.take 8) → bits op 63 24 = 0 →
    bits op 15 14 = 0 → u.namedStream (bits op 13 0) (bits op 23 16) = some y → y.session = some r.p.session →
    y.node = r.p.src → y.closed = true → y.tiles = [] →
    Rests ((u.freeStream (bits op 13 0)).complete r .ok none (some (recordBytes (bits op 13 0) y))) v →
    exec (.streamClose p) s = .next v) ∧
  (∀ p s r u op y v, Runs 0x03 p (innerOf 0x03 p) s r u → op = leNat (r.p.payload.take 8) → bits op 63 24 = 0 →
    bits op 15 14 = 0 → u.namedStream (bits op 13 0) (bits op 23 16) = some y → y.session = some r.p.session →
    y.node = r.p.src → y.closed = false →
    Rests ((u.cutStream (bits op 13 0) .aborted).complete r .ok none (some [])) v →
    exec (.streamAbort p) s = .next v) ∧
  (∀ p s r u h y z w a v, Runs 0x04 p (innerOf 0x04 p) s r u → h = leNat (padTo (r.p.payload.take 64) 64) →
    u.namedStream (thStream h) (thEpoch h) = some y → u.maySend y r = true →
    u.acceptTile y h r.p.payload.length = (.ok z, w) → w.acceptSequence z h = (.ok (), a) →
    Rests (a.enterTile z (thIndex h) h (some r)) v → exec (.tile p) s = .next v) ∧
  (∀ p s r u op w t y l k b words bytes flags a st tile v, Runs 0x05 p (innerOf 0x05 p) s r u →
     op = leNat (r.p.payload.take 8) → w = bits op 11 0 → t = bits op 51 32 → bits op 63 52 = 0 → bits op 31 12 = 0 →
     (u.seq.late.find? fun x => sameReq x.r r) = none → u.seq.windows.find w = some y → u.asidOk (wAsid y.desc) r.p.session = true →
     (u.kfp2 r.p && u.reachesShared (wAsid y.desc) (imageSpans y.desc t)) = false → t < wTiles y.desc →
     (y.state = .opened ∨ y.state = .closed) → l = y.tiles.findD t {} → l.phase = .closed →
     k = { ledgerReacher w t y.desc l.home with who := .request r } →
     u.readySpans k ((imageSpans y.desc t).take 1) = (.yes, b) → b.wordsOf w t = (words, [], a) →
     a.resultOf y.desc t words = (bytes, flags) → st = resultStatus l flags →
     tile = outTile (outHeader 0x81 st.code (wFormat y.desc) (wTileElems y.desc t) bytes.length 0 0 0 (w + t * 2 ^ 24) 0) bytes →
     Rests (((a.dropGot (.request r)).emitMarks (some r) tile (if st = .poisoned then l.marks else [])).complete r st none
       (some tile)) v →
     exec (.resultRead p) s = .next v)

/-- Page packets (06 R163, R164, R168): a fetch and a store of a page of a populated granule; a checkout of a page that no node
holds, and a clean checkin by the node that holds it. Each looks its address up first (08 R219). -/
def Obligations.PagePackets : Prop :=
  (∀ p s r g h op a dp v, Runs 0x10 p (innerOf 0x10 p) s r g → op = operandOf r.p → a = bits op 35 24 →
    r.p.payload.length = 16 → r.p.address % 65536 = 0 → bits op 47 36 = 0 → bits op 23 1 = 0 → bit op 0 = false →
    vhandleOf op = 0 → g.asidOk a r.p.session = true → g.locate a r.p.address = .pop dp →
    h = g.lookup (144 + r.p.port / 4) a r.p.address (fun _ => none) → (h.awaitStack (.request r) (pageSectors dp)).1 = false →
    Rests (h.fetchPage r 65536 0 dp none) v → exec (.pageFetch p) s = .next v) ∧
  (∀ p s r g h op a dp v, Runs 0x11 p (innerOf 0x11 p) s r g → op = operandOf r.p → a = bits op 35 24 →
    r.p.payload.length = 65552 → r.p.address % 65536 = 0 → bits op 47 36 = 0 → bits op 23 1 = 0 → bit op 0 = false →
    vhandleOf op = 0 → g.asidOk a r.p.session = true → g.locate a r.p.address = .pop dp →
    h = g.lookup (144 + r.p.port / 4) a r.p.address (fun _ => none) → (h.awaitStack (.request r) (pageSectors dp)).1 = false →
    Rests (h.storePage r 65536 0 dp) v → exec (.pageStore p) s = .next v) ∧
  (∀ p s r g h op a e page y v, Runs 0x12 p (innerOf 0x12 p) s r g → op = operandOf r.p → a = bits op 35 24 →
    r.p.payload.length = 16 → r.p.address % 65536 = 0 → bits op 47 36 = 0 → bits op 23 1 = 0 → bit op 0 = false →
    vhandleOf op = 0 → g.asidOk a r.p.session = true → g.locate a r.p.address = .ext e page → g.pool.extents.find e = some y →
    h = g.lookup (144 + r.p.port / 4) a r.p.address (fun x => if x = e then (g.readVersion e y 0 r.p.src).getD none else none) →
    (h.kfp2 r.p && h.sharedExt e) = false → extVersioned y = false → extSealed y = false → extCheckout y = true →
    (h.awaitStack (.request r) (pageSectors (h.framePage e page none))).1 = false →
    h.pool.checkouts.find (e * 2 ^ 25 + page) = none → h.pool.checkouts.length < 262144 →
    ∀ k, k = h.putCheckout (e * 2 ^ 25 + page) { node := r.p.src, gen := r.p.ngen, opening := some r.p.tag } →
    Rests ((({ k with pool.past := k.pool.past.del (e * 2 ^ 25 + page) } : State).sendMeta
      (.checkout e page r.p.src r.p.ngen false)).invalidate (.page e page) (.checkout e page r)) v →
    exec (.pageCheckout p) s = .next v) ∧
  (∀ p s r g h op a e page y k v, Runs 0x13 p (innerOf 0x13 p) s r g → op = operandOf r.p → a = bits op 35 24 →
    r.p.payload.length = 16 → r.p.address % 65536 = 0 → bits op 47 36 = 0 → bits op 23 1 = 0 → bit op 0 = true →
    vhandleOf op = 0 → g.asidOk a r.p.session = true → g.locate a r.p.address = .ext e page → g.pool.extents.find e = some y →
    h = g.lookup (144 + r.p.port / 4) a r.p.address (fun x => if x = e then (g.readVersion e y 0 r.p.src).getD none else none) →
    (h.kfp2 r.p && h.sharedExt e) = false → extVersioned y = false → extCheckout y = true →
    (h.awaitStack (.request r) (pageSectors (h.framePage e page none))).1 = false →
    h.pool.checkouts.find (e * 2 ^ 25 + page) = some k → k.node = r.p.src → k.gen = r.p.ngen →
    Rests ((h.endCheckout (e * 2 ^ 25 + page) false).complete r .ok none (some (cookieOf r.p.payload))) v →
    exec (.pageCheckin p) s = .next v)

/-- Version packets (06 R172, R173, R176, R177): a reader handle on the current version, a draft with a new number, a reader's close, a
commit of the draft and its discard. An open looks its address up first (08 R219). -/
def Obligations.VersionPackets : Prop :=
  (∀ p s r g h op a e page y n w v, Runs 0x18 p (innerOf 0x18 p) s r g → op = operandOf r.p → a = bits op 35 24 →
    r.p.payload.length = 16 → r.p.address % 65536 = 0 → bits op 47 36 = 0 → bits op 23 0 = 0 → vhandleOf op = 0 →
    g.asidOk a r.p.session = true → g.locate a r.p.address = .ext e page →
    h = g.lookup (144 + r.p.port / 4) a r.p.address (fun _ => none) → h.pool.extents.find e = some y →
    (h.kfp2 r.p && h.sharedExt e) = false → extVersioned y = true →
    h.newHandle { extent := e, node := r.p.src, version := y.current, st := .reader } = some (n, w) →
    Rests (w.complete r .ok (some (versionWord n y.current))
      (some (cookieOf r.p.payload ++ leBytes (versionWord n y.current) 8))) v →
    exec (.versionOpen p) s = .next v) ∧
  (∀ p s r g h op a e page y n k w v, Runs 0x19 p (innerOf 0x19 p) s r g → op = operandOf r.p → a = bits op 35 24 →
    r.p.payload.length = 16 → r.p.address % 65536 = 0 → bits op 47 36 = 0 → bits op 23 0 = 0 → vhandleOf op = 0 →
    g.asidOk a r.p.session = true → g.locate a r.p.address = .ext e page →
    h = g.lookup (144 + r.p.port / 4) a r.p.address (fun _ => none) → h.pool.extents.find e = some y →
    (h.kfp2 r.p && h.sharedExt e) = false → extVersioned y = true → y.draft = none → (h.liveVersions e).length < 8 →
    k = (y.current + 1) % 2 ^ 32 →
    h.newHandle { extent := e, node := r.p.src, version := k, st := .draft } = some (n, w) →
    Rests ((w.putExtent e { y with
        versions := y.versions.put k { frames := ((y.versions.find y.current).map (·.frames)).getD [] }
        draft := some ⟨n, y.current, k, none, []⟩ }).complete r .ok (some (versionWord n k))
      (some (cookieOf r.p.payload ++ leBytes (versionWord n k) 8))) v →
    exec (.versionDraft p) s = .next v) ∧
  (∀ p s r h op a vh k y v, Runs 0x1A p (innerOf 0x1A p) s r h → op = operandOf r.p → a = bits op 35 24 →
    r.p.payload.length = 16 → r.p.address = 0 → bits op 47 36 = 0 → bits op 23 0 = 0 → vh = vhandleOf op →
    h.asidOk a r.p.session = true → h.pool.handles.find vh = some k → k.st = .reader →
    k.node = r.p.src → h.pool.extents.find k.extent = some y → y.state ≠ .revoking →
    (h.pool.maps.any fun m => m.asid == a && m.extent == k.extent && !m.removing) = true →
    Rests (((h.delHandle vh).retireVersions k.extent).complete r .ok none (some (cookieOf r.p.payload))) v →
    exec (.versionClose p) s = .next v) ∧
  (∀ p s r h op a vh k y d v, Runs 0x1B p (innerOf 0x1B p) s r h → op = operandOf r.p → a = bits op 35 24 →
    r.p.payload.length = 16 → r.p.address = 0 → bits op 47 36 = 0 → bits op 23 0 = 0 → vh = vhandleOf op →
    h.asidOk a r.p.session = true → h.pool.handles.find vh = some k → k.st = .draft →
    h.pool.extents.find k.extent = some y → y.state ≠ .revoking →
    (h.pool.maps.any fun m => m.asid == a && m.extent == k.extent && !m.removing) = true →
    y.draft = some d → d.commit = none →
    ∀ w, w = h.putExtent k.extent { y with draft := some { d with commit := some r, owed := h.storesOpen vh } } →
    Rests (if w.draftBusy k.extent then w else w.commitDraft k.extent) v → exec (.versionCommit p) s = .next v) ∧
  (∀ p s r h op a vh k y d v, Runs 0x1C p (innerOf 0x1C p) s r h → op = operandOf r.p → a = bits op 35 24 →
    r.p.payload.length = 16 → r.p.address = 0 → bits op 47 36 = 0 → bits op 23 0 = 0 → vh = vhandleOf op →
    h.asidOk a r.p.session = true → h.pool.handles.find vh = some k → k.st = .draft →
    h.pool.extents.find k.extent = some y → y.state ≠ .revoking →
    (h.pool.maps.any fun m => m.asid == a && m.extent == k.extent && !m.removing) = true →
    y.draft = some d → d.commit = none →
    Rests (((((h.putHandle vh { k with st := .discarded }).putExtent k.extent { y with draft := none }).sendMeta
      (.extent k.extent y.tenant y.desc 2 y.current)).retireVersions k.extent).complete r .ok none
      (some (cookieOf r.p.payload))) v →
    exec (.versionDiscard p) s = .next v)

/-- Line packets on a free line (07 R198, R199, Table 7-8): READ_S, READ_X and UPGRADE of a line that no node holds get its data
and the directory entry of Table 7-8; WRITEBACK by the node that holds the line exclusively writes its data and drops the
entry. Read data whose memory is good is meant; the memory's other answers are R200's. The last
clause says what a free line answers: a shared reader where the common grants no exclusive copies, otherwise an owner. -/
def Obligations.LinePackets : Prop :=
  (∀ p s r u h d, LineRuns 0x20 p s r u h → u.com.dir.find h = none → u.mirrorWants [u.lineSector h] = [] →
    (u.putTrans h { job := .request r }).newEntry h = some d →
    ∀ w, w = u.putTrans h { job := .request r } → ∀ v, Rests ((w.serveLine h r none).lineNext h) v →
    exec (.lineReadS p) s = .next v) ∧
  (∀ p s r u h d, LineRuns 0x21 p s r u h → u.com.dir.find h = none → u.mirrorWants [u.lineSector h] = [] →
    (u.putTrans h { job := .request r }).newEntry h = some d →
    ∀ w, w = u.putTrans h { job := .request r } → ∀ v, Rests ((w.serveLine h r none).lineNext h) v →
    exec (.lineReadX p) s = .next v) ∧
  (∀ p s r u h d, LineRuns 0x22 p s r u h → u.com.dir.find h = none → u.mirrorWants [u.lineSector h] = [] →
    (u.putTrans h { job := .request r }).newEntry h = some d →
    ∀ w, w = u.putTrans h { job := .request r } → ∀ v, Rests ((w.serveLine h r none).lineNext h) v →
    exec (.lineUpgrade p) s = .next v) ∧
  (∀ p s r u h d, LineRuns 0x23 p s r u h → u.com.dir.find h = some d →
    d.st = .exclusive → d.sharers = .precise [] → d.owner = r.p.src → d.gen = r.p.ngen → u.com.lost = [] →
    u.mirrorWants [u.lineSector h] = [] →
    ∀ w, w = (u.putTrans h { job := .request r }).putDir h d →
    ∀ x, x = (w.writeSector (w.lineSector h) 0 (padTo (slice r.p.payload 16 256) 256) false).2 →
    ∀ v, Rests ((((x.delDir h).lineCleaned h).afterWrite h 0 (padTo (slice r.p.payload 16 256) 256) r .ok none
      (cookieOf r.p.payload)).lineNext h) v →
    exec (.lineWriteback p) s = .next v) ∧
  (∀ (s a : State) (h : Nat) (r : Req) (e : DirEntry) (m : Common) (st : Status) (d : List Byte) (t : State),
     s.com.dir.find h = none → s.newEntry h = some e → s.com.commons.find (lineCommon h) = some m →
     a = { s with com.order := s.com.order + 1 } →
     ((r.opcode = 0x20 ∧ bit m.desc 32 = true) →
       (a.putDir h { e with sharers := .precise [r.p.src] }).readSector
         ((a.putDir h { e with sharers := .precise [r.p.src] }).lineSector h) = (st, d, t) →
       s.serveLine h r none = t.complete r st none (some (cookieOf r.p.payload ++ d)) h) ∧
     ((r.opcode = 0x20 ∧ bit m.desc 32 = false ∨ r.opcode = 0x21 ∨ r.opcode = 0x22) →
       ∀ x, x = a.putDir h { e with
         st := .exclusive, owner := r.p.src, gen := (s.nodeRec r.p.src).gen.getD r.p.ngen, sharers := .precise [] } →
       x.readSector (x.lineSector h) = (st, d, t) → t.mirrorsTo (t.lineExt h) = false → t.isMirrored (t.lineExt h) = false →
       s.serveLine h r none = t.complete r st none (some (cookieOf r.p.payload ++ d)) h))

/-- The atomics (07 R202, R203, Table 7-9): what each computes from the word it finds. -/
def Obligations.AtomicPackets : Prop :=
  (∀ p s r op h n old t w x v, AtomicRuns p s r op h n old t → w = (if bit op 8 then 64 else 32) → x = bits op 191 128 →
    (op % 256 = 1 → Rests (atomicEnd t r op h n (some ((old + x) % 2 ^ w)) .ok old) v → exec (.fetchAdd p) s = .next v) ∧
    (op % 256 = 3 → Rests (atomicEnd t r op h n (some (if old = bits op 255 192 then x else old)) .ok old) v →
      exec (.cas p) s = .next v) ∧
    (op % 256 = 4 → Rests (atomicEnd t r op h n (some x) .ok old) v → exec (.swap p) s = .next v) ∧
    (op % 256 = 5 → Rests (atomicEnd t r op h n (some (if signed x w < signed old w then x else old)) .ok old) v →
      exec (.fetchMin p) s = .next v) ∧
    (op % 256 = 6 → Rests (atomicEnd t r op h n (some (if signed old w < signed x w then x else old)) .ok old) v →
      exec (.fetchMax p) s = .next v) ∧
    (op % 256 = 7 → Rests (atomicEnd t r op h n (some (min old x)) .ok old) v → exec (.fetchUmin p) s = .next v) ∧
    (op % 256 = 8 → Rests (atomicEnd t r op h n (some (max old x)) .ok old) v → exec (.fetchUmax p) s = .next v)) ∧
  (∀ p s r op h n old t f q sum v, AtomicRuns p s r op h n old t → op % 256 = 2 → f = t.fmt (bits op 52 48) →
    q = ledgerQ (f.value (bits op 191 128 % 2 ^ f.width)) (signed (bits op 63 56) 8) → q.2 = false →
    sum = signed old 64 + q.1 → -(2 ^ 63) ≤ sum → sum < 2 ^ 63 →
    Rests (atomicEnd t r op h n (some (unsigned sum 64)) .ok old) v → exec (.fetchFaddx p) s = .next v)

/-- Barriers and locks (07 R205, R206): an arrival counts, and the last one opens the next round; a free lock goes to who asks
with its generation and loss count; only its holder frees it. -/
def Obligations.BarrierPackets : Prop :=
  (∀ p s r op h n old t v, AtomicRuns p s r op h n old t → op % 256 = 16 → bits old 15 0 < bits old 31 16 →
    ∀ w, w = (if bits old 15 0 + 1 = bits old 31 16 then (bits old 63 32 + 1) % 2 ^ 32 * 2 ^ 32 + bits old 31 16 * 2 ^ 16
              else old + 1) →
    Rests (atomicEnd t r op h n (some w) .ok w) v → exec (.barrierArrive p) s = .next v) ∧
  (∀ p s r op h n old t v, AtomicRuns p s r op h n old t → op % 256 = 32 → bit old 0 = false →
    ∀ w, w = r.p.src * 2 ^ 48 + r.p.ngen * 2 ^ 44 + (t.nodeRec r.p.src).loss % 256 * 2 ^ 36 +
      (bits old 31 1 + 1) % 2 ^ 31 * 2 + 1 →
    Rests (atomicEnd t r op h n (some w) .ok w) v → exec (.lockAcquire p) s = .next v) ∧
  (∀ p s r op h n old t v, AtomicRuns p s r op h n old t → op % 256 = 33 → bit old 0 = true → bits old 63 48 = r.p.src →
    (t.nodeRec r.p.src).gen = some (bits old 47 44) → (t.nodeRec r.p.src).loss % 256 = bits old 43 36 →
    Rests (atomicEnd t r op h n (some (bits old 31 1 * 2)) .ok (bits old 31 1 * 2)) v → exec (.lockRelease p) s = .next v)

/-- Completions and snoop responses (13 R353, R356; 07 R190; 16 R429, R431): one that answers a request this device has
outstanding ends it and does what waited for it; a snoop response of the snooped node in the session of the snoop is
its answer; a granted renewal moves the lease's confirmed time on. Link sessions (09 R256, R257): an open with good signatures
for an admitted identity of an open tenant gets the next free identifier, ends the sessions of older generations of that
node and tenant, and starts its bucket; a close ends the session it comes in. -/
def Obligations.AnswerPackets : Prop :=
  (∀ p s q a b i, Arrives 0x40 p s q a → a.isLease q = false → b = (if q.synthetic then a else a.heard q.src) →
    b.answered q = some i → q.status ≠ Status.linkLost.code → (∀ h n, i.what ≠ .snoop h n) →
    exec (.completion p) s = .next (((b.delIssued q.tag).issuedDone q.tag i.what q.status q.payload).settle)) ∧
  (∀ p s q a i sent, Arrives 0x40 p s q a → a.answered q = some i → i.what = .renew sent false false →
    bits (leNat (q.payload.take 16)) 63 48 = pairId a → q.status = 0 →
    ∀ b, b = (a.heard q.src).delIssued q.tag →
    exec (.leaseCompletion p true) s = .next (({ b with pair.leaseOk := max b.pair.leaseOk sent } : State).settle)) ∧
  (∀ p s q a b h n t y, Arrives 0x41 p s q a → b = a.heard q.src → b.fab.issued.find q.tag = some ⟨q.tgen, q.src, .snoop h n⟩ →
    q.ngen = b.fab.ngen → b.com.trans.find h = some t → t.snoops.find? (fun x => x.tag == q.tag) = some y →
    y.session = q.session →
    exec (.snpData p) s = .next ((b.snoopAnswer h y (.data q.payload) q.wbPending).settle)) ∧
  (∀ p s q a b h n t y, Arrives 0x42 p s q a → b = a.heard q.src → b.fab.issued.find q.tag = some ⟨q.tgen, q.src, .snoop h n⟩ →
    q.ngen = b.fab.ngen → b.com.trans.find h = some t → t.snoops.find? (fun x => x.tag == q.tag) = some y →
    y.session = q.session →
    exec (.snpClean p) s = .next ((b.snoopAnswer h y .clean q.wbPending).settle)) ∧
  (∀ p s q a b h n t y, Arrives 0x43 p s q a → b = a.heard q.src → b.fab.issued.find q.tag = some ⟨q.tgen, q.src, .snoop h n⟩ →
    q.ngen = b.fab.ngen → b.com.trans.find h = some t → t.snoops.find? (fun x => x.tag == q.tag) = some y →
    y.session = q.session →
    exec (.snpNotPresent p) s = .next ((b.snoopAnswer h y .absent q.wbPending).settle)) ∧
  (∀ p o s r u q id v, Runs 0x50 p { link := some o } s r u → q = LinkOpen.ofBytes r.p.payload → u.accepts q.chain = true →
    q.sigOk = true → (u.tenantOf q.tenant).any (fun t => t.sess == .opened) = true →
    u.ten.admissions.contains (q.tenant, q.identity) = true →
    (u.ten.links.find? fun l => (l.2.node == r.p.src && l.2.tenant == q.tenant) && l.2.gen == q.gen) = none →
    cyclicFree (fun i => u.ten.links.has i || u.ten.barred.has i) u.ten.lastLink 1 65535 = some id →
    ∀ a, a = (u.ten.links.keysWhere fun l => (l.node == r.p.src && l.tenant == q.tenant) &&
      decide (1 ≤ (q.gen + 16 - l.gen) % 16) && decide ((q.gen + 16 - l.gen) % 16 ≤ 7)).foldl State.endLink u →
    ∀ b, b = (a.nodeGen r.p.src q.gen).putLink id { node := r.p.src, gen := q.gen, tenant := q.tenant, identity := q.identity } →
    Rests ((({ b with ten.lastLink := some id } : State).newBucket id q.tenant).complete r .ok none
      (some (linkAnswer r id))) v →
    exec (.linkSessionOpen p o) s = .next v) ∧
  (∀ p s r u v, Runs 0x51 p (innerOf 0x51 p) s r u → Rests ((u.endLink r.p.session).complete r .ok none (some [])) v →
    exec (.linkSessionClose p) s = .next v)

/-- Packets of others (13 R362, R364, R372, R373, R376): a multicast write is copied to every other port of its group that is UP in
mode 0 and no pair port; a packet for another node goes to the port the router picks among its eligible candidates. -/
def Obligations.TransitPackets : Prop :=
  (∀ p s q a mask, p.port < 64 → Live s → (s.port p.port).st = .up → s.arrive 0x60 p = (.mcast, q, a) →
    a.fab.groups.find (q.dst % 4096) = some (mask, true) →
    exec (.mcastWrite p) s = .next ((((bitsOf mask 64).filter (· != q.port)).foldl (fun s n =>
      if (s.port n).st == .up && (s.port n).mode == 0 && !s.isPairPort n then s.commit n 0x60 q false 0 0xFFFF 7
      else s.countDev 9) a).settle)) ∧
  (∀ op p s q a n, p.port < 64 → Live s → (s.port p.port).st = .up → s.arrive op p = (.transit, q, a) →
    a.routeBank q.epoch = q.epoch →
    a.eligible ((a.bank q.epoch).entries.findD q.dst 0) (channelOf op) (some q.port) q.escape false ≠ [] →
    a.pickPort (a.eligible ((a.bank q.epoch).entries.findD q.dst 0) (channelOf op) (some q.port) q.escape false)
      (if q.escape then 5 else channelOf op) (isRequest op) = some n →
    exec (.packetForward op p) s = .next ((a.commit n op q false 0 0xFFFF 7).settle))

/-- Pair packets (16 R426, R428, R433, R437, R440; 11 R302): one of the peer's, on a pair port. A term below this unit's is
DENIED; a FENCED unit answers FAILOVER. Otherwise the pair is not silent, a unit that copies or is OUT takes over the term, and
the message does its work: a standby or SYNCING unit applies a mirror message, a record or a copied sector, and answers
FAILOVER in another role; a standby that claims keeps mirror messages unanswered; a record that finds no room answers
BUSY_RETRY; a standby answers a fetch with its sector, and claims at a fence. -/
def Obligations.PairPackets : Prop :=
  ∀ op i p s q a term msg r, PairRow op p term i msg → Arrives op p s q a →
    (∀ g, (a.nodeRec q.src).gen = some g → (q.ngen + 16 - g) % 16 < 8) → headerBad op q = false → q.hdrVer = 3 →
    q.src = a.peerNode → a.isPairPort q.port = true → r = { opcode := op, p := q } →
    (term < a.pair.term → exec i s = .next (a.answer r .denied).settle) ∧
    (a.pair.term ≤ term → a.pair.role = .fenced → exec i s = .next ((a.heardTaken msg).answer r .failover).settle) ∧
    (∀ b, a.pair.term ≤ term → a.pair.role ≠ .fenced →
      b = { a with
        pair.lastRx := a.dev.tick, pair.term := if a.copies || a.pair.role == PairRole.out then term else a.pair.term } →
      (∀ m, msg = .mirror m →
        (b.copies = true → b.pair.noAck = false → exec i s = .next ((b.applyMirror m).answer r .ok).settle) ∧
        (b.copies = true → b.pair.noAck = true →
          exec i s = .next ({ b with pair.received := b.pair.received ++ [m] } : State).settle) ∧
        (b.copies = false → exec i s = .next (b.answer r .failover).settle)) ∧
      (∀ x, msg = .metaRec x →
        (∀ w, b.copies = true → b.applyRecord x = (true, w) → exec i s = .next (w.answer r .ok).settle) ∧
        (∀ w, b.copies = true → b.applyRecord x = (false, w) → exec i s = .next (w.answer r .busyRetry).settle) ∧
        (b.copies = false → exec i s = .next (b.answer r .failover).settle)) ∧
      (∀ x, msg = .beat x → exec i s = .next ((b.beatFrom x).answer r .ok).settle) ∧
      (∀ e off, msg = .fetch e off →
        (∀ y st d w, b.pair.role = .standby → b.pool.extents.find e = some y → off < y.grans.length * 2097152 →
          b.readSector (b.framePage e (off / 65536) none * 256 + off % 65536 / 256) = (st, d, w) →
          exec i s = .next (w.answer r st d).settle) ∧
        (b.pair.role ≠ .standby → exec i s = .next (b.answer r .failover).settle)) ∧
      (∀ e off d, msg = .copy e off d →
        (b.copies = true → exec i s = .next (((b.placeForCopy e).putCopy e off d).answer r .ok).settle) ∧
        (b.copies = false → exec i s = .next (b.answer r .failover).settle)) ∧
      (msg = .fence →
        (b.pair.role = .standby → exec i s = .next (b.standbyClaims.answer r .ok).settle) ∧
        (b.pair.role ≠ .standby → exec i s = .next (b.answer r .ok).settle)))

/-- The pair's timers (16 R428, R431 to R434, R440). The active unit renews its lease when a quarter has passed, and a unit in
TAKEOVER repeats its renewal (log 183); a lease that lapses makes the unit FENCED, and what waited for the standby is answered
FAILOVER. A peer silent for 1,024 slow ticks makes a standby stop acknowledging and claim, unless its claim is out or its retry
is set, and a SYNCING unit OUT. A heartbeat goes out after 64 slow ticks. A mirror message not acknowledged in time asks the
witness once. A lone unit, and a unit whose claim met BUSY_RETRY, claim when their time has come. The copy ends with a renewal
that takes the peer back. One of these commands that comes before its time or in another role does nothing of its own. -/
def Obligations.PairTimers : Prop :=
  (∀ s, Live s →
    (s.pair.renewDue ≤ s.dev.tick → (s.pair.role = .active → exec .leaseRenewTimer s = .next
        (({ s with pair.renewDue := s.dev.tick + s.leaseTicks / 4 } : State).renew false false).settle) ∧
      (s.pair.role = .takeover → exec .leaseRenewTimer s = .next
        (({ s with pair.renewDue := s.dev.tick + s.leaseTicks / 4 } : State).renew true false).settle)) ∧
    (s.dev.tick < s.pair.renewDue ∨ s.pair.role ≠ .active ∧ s.pair.role ≠ .takeover →
      exec .leaseRenewTimer s = .next s.settle)) ∧
  (∀ s, Live s →
    (∀ u, s.pair.role = .active → s.pair.leaseOk + s.leaseTicks ≤ s.dev.tick →
      u = ({ s with pair.role := .fenced, pair.peerIn := false, pair.syncing := false, pair.claiming := false
                    pair.retryDue := none } : State).releaseMirrors false →
      (u.ready.pairLink = true → exec .leaseLapse s = .next (u.pairSend .fence 0x75).2.settle) ∧
      (u.ready.pairLink = false → exec .leaseLapse s = .next u.settle)) ∧
    (s.dev.tick < s.pair.leaseOk + s.leaseTicks ∨ s.pair.role ≠ .active → exec .leaseLapse s = .next s.settle)) ∧
  (∀ s, Live s →
    (s.pair.lastRx + 1024 ≤ s.dev.tick →
      (s.pair.role = .standby → s.pair.claiming = false ∧ s.pair.retryDue = none → exec .pairSilence s = .next
        (({ s with pair.noAck := true, pair.claiming := true, pair.retryDue := none } : State).sendLease
          (.claim s.dev.tick) true false false).settle) ∧
      (s.pair.role = .standby → s.pair.claiming = true ∨ s.pair.retryDue ≠ none → exec .pairSilence s = .next
        ({ s with pair.noAck := true } : State).settle) ∧
      (s.pair.role = .syncing → exec .pairSilence s = .next
        ({ s with pair.role := .out, pair.claiming := false, pair.retryDue := none, pair.waitDue := none, pair.received := []
                  pair.drafts := [] } : State).settle)) ∧
    (s.dev.tick < s.pair.lastRx + 1024 ∨ s.pair.role ≠ .standby ∧ s.pair.role ≠ .syncing →
      exec .pairSilence s = .next s.settle)) ∧
  (∀ s, Live s →
    (s.pair.role = .active → s.pair.enabled = true → s.pair.lastTx + 64 ≤ s.dev.tick → exec .pairBeatSend s = .next
      (({ s with pair.lastTx := s.dev.tick } : State).issue .beat 0x72 (bits s.pair.block 191 176) 0 0 []).2.settle) ∧
    (s.pair.role ≠ .active ∨ s.pair.enabled = false ∨ s.dev.tick < s.pair.lastTx + 64 →
      exec .pairBeatSend s = .next s.settle)) ∧
  (∀ s tag, Live s →
    (∀ due w, s.pair.mirror.find tag = some (due, w) →
      (s.pair.role = .active → due ≤ s.dev.tick → (∀ x ∈ s.fab.issued, ∀ n b, x.2.what ≠ .renew n true b) →
        exec (.mirrorTimeout tag) s = .next (s.renew true false).settle) ∧
      (s.pair.role ≠ .active ∨ s.dev.tick < due ∨ (∃ x ∈ s.fab.issued, ∃ n b, x.2.what = .renew n true b) →
        exec (.mirrorTimeout tag) s = .next s.settle)) ∧
    (s.pair.mirror.find tag = none → exec (.mirrorTimeout tag) s = .next s.settle)) ∧
  (∀ s, Live s →
    (∀ d, s.pair.role = .unpaired → s.pair.enabled = true → s.pair.waitDue = some d → d ≤ s.dev.tick →
      exec .pairPeerWaitExpiry s = .next
        (({ s with pair.waitDue := none, pair.claiming := true, pair.retryDue := none } : State).sendLease
          (.claim s.dev.tick) true false false).settle) ∧
    (s.pair.role ≠ .unpaired ∨ s.pair.enabled = false ∨ (∀ d, s.pair.waitDue = some d → s.dev.tick < d) →
      exec .pairPeerWaitExpiry s = .next s.settle)) ∧
  (∀ s, Live s →
    (s.pair.role = .active → s.pair.syncing = true → s.nextCopy = none →
      (∀ x ∈ s.fab.issued, (∀ e o, x.2.what ≠ .copy e o) ∧ x.2.what ≠ .metaRec ∧ ∀ n b, x.2.what ≠ .renew n b true) →
      exec .resyncCopyDone s = .next
        (({ s.pair.copyTen.foldl (fun u n => u.sendMeta (.synced n)) s with pair.copyTen := [] } : State).renew false true).settle) ∧
    (s.pair.role ≠ .active ∨ s.pair.syncing = false ∨ s.nextCopy ≠ none → exec .resyncCopyDone s = .next s.settle)) ∧
  (∀ s, Live s →
    (∀ d, (s.pair.role = .standby ∨ s.pair.role = .unpaired ∧ s.pair.enabled = true) → s.pair.retryDue = some d →
      d ≤ s.dev.tick → exec .leaseClaimRetry s = .next
        (({ s with pair.claiming := true, pair.retryDue := none } : State).sendLease (.claim s.dev.tick) true false false).settle) ∧
    ((∀ d, s.pair.retryDue = some d → s.dev.tick < d) → exec .leaseClaimRetry s = .next s.settle))

/-- A port comes up (12 R325, R331, R338, R341): light starts training; training chooses the reach factor, or takes the port
down where none fits; unless the device is unlocked for debugging (09 R236), the two ends exchange PS_HELLO, PS_KEM and PS_FINISH, then LINK_PARAMS, and the port is UP with the
peer's credits. A failed proof takes it down with reason 2, a bad parameter with reason 3; one whose `w_max` has been lowered in SESSION retrains at once (R346, log 199). -/
def Obligations.PortsComeUp : Prop :=
  (∀ s p q, Live s → p < 64 → q = s.port p → q.st = .dark → q.enable = true → q.laser = true → s.portsMayTrain = true →
    s.pwr.sleep ≠ .sl3 → s.pwr.sleep ≠ .sl4 →
    exec (.portLightDetect p) s = .next (s.putPort p { q with lastLight := none, st := .training }).settle) ∧
  (∀ s p q tNs w, Live s → p < 64 → q = s.port p → q.st = .training → w = reachW q.mode q.wMax tNs (q.ackTimer * 10) →
    (0 < w → s.fw.unlocked = false → exec (.portTrainingDone p tNs) s = .next
      ((s.putPort p { q with st := .session, w := w, tNs := tNs, txE := 0, rxX := 0 }).sayFree p 0x01).settle) ∧
    (0 < w → s.fw.unlocked = true → exec (.portTrainingDone p tNs) s = .next
      (s.putPort p { q with st := .session, w := w, tNs := tNs, txE := 0, rxX := 0 }).settle) ∧
    (w = 0 → exec (.portTrainingDone p tNs) s = .next ((s.recOp 0x0503 6 p tNs 0).putPort p
      { q.cleared (s.dev.tick + 1048576) with tNs := tNs, downs := listMod q.downs 0 (sat32 · 1) }).settle)) ∧
  (∀ s p, Live s → p < 64 → (s.port p).st = .training →
    exec (.portTrainingTimeout p) s = .next (s.portDown p 0).settle) ∧
  (∀ s p q h ok u, Live s → p < 64 → q = s.port p → q.st = .session → q.sess.helloIn = false → s.fw.unlocked = false →
    u = s.modSess p (fun x => { x with peerHash := h, helloIn := true, higher := decide (h < Config.identityHash.toNat) }) →
    (Config.identityHash.toNat ≤ h → exec (.psHello p h ok) s = .next u.settle) ∧
    (h < Config.identityHash.toNat → s.accepts ok = true → exec (.psHello p h ok) s = .next
      ((((u.sayFree p 0x02).modSess p fun x => { x with finishOut := true, kemDone := true }).sayFree p 0x03)).settle) ∧
    (h < Config.identityHash.toNat → s.accepts ok = false → exec (.psHello p h ok) s = .next ((u.sayFree p 0x02).portDown p 2).settle)) ∧
  (∀ s p q ok, Live s → p < 64 → q = s.port p → q.st = .session → q.sess.helloIn = true → q.sess.higher = false →
    q.sess.kemDone = false → exec (.psKem p ok) s = .next (if s.accepts ok then
      (s.modSess p fun x => { x with finishOut := true, kemDone := true }).sayFree p 0x03 else s.portDown p 2).settle) ∧
  (∀ s p q ok, Live s → p < 64 → q = s.port p → q.st = .session → q.sess.kemDone = true → q.sess.finishIn = false →
    exec (.psFinish p ok) s = .next (if ok then ({ s with ten.nextKey := s.ten.nextKey + 2 } : State).putPort p
      { q with sess := { q.sess with finishIn := true }, keys := [s.ten.nextKey, 0, s.ten.nextKey + 1, 0], keyPhase := 0
               rxPhase := 0, keyFlits := 0, idleCount := 0, rxIdle := none
               ctlQueue := q.ctlQueue ++ [4#8 :: (buffersOf q.mode).flatMap fun n => beBytes n 2] } else s.portDown p 2).settle) ∧
  (∀ s p q (l : List Nat), Live s → p < 64 → q = s.port p → q.st = .session → q.sess.finishIn = true → q.sess.paramsIn = false →
    ((∀ n ∈ l, n ≤ 2047) → ∀ v, v = (s.putPort p
      { q with st := .up, sess := { q.sess with paramsIn := true }, credits := l, lastTot := List.replicate 6 0, ackedUp := 0
               acked := 0, ran := false }).setPortReady p true →
      (q.w ≤ q.wMax → exec (.linkParams p l) s = .next v.settle) ∧
      (q.wMax < q.w → exec (.linkParams p l) s = .next (v.retrain p q.wMax false).settle)) ∧
    ((∃ n ∈ l, 2047 < n) → exec (.linkParams p l) s = .next (s.portDown p 3).settle)) ∧
  (∀ s p, Live s → p < 64 → (s.port p).st = .session → exec (.portSessionTimeout p) s = .next (s.portDown p 0).settle)

/-- A port goes down (12 R324, R337, R341; 09 R254): it says why where it still may and its key still may, falls to DOWN with its tables cleared and its
parameters and counters kept, the event is recorded, and every packet it had out is answered as lost. The rows that take a
port down give the reason Table 12-5 has. -/
def Obligations.PortsGoDown : Prop :=
  (∀ (s : State) p r q u, q = s.port p → q.st ≠ .dark → q.st ≠ .down → 1 ≤ r →
    u = (if (q.st = .up ∨ q.st = .session) ∧ q.unacked.length < 1024 ∧ q.keyFlits < 2 ^ 31 ∧
        (q.sess.finishSent = true → q.keys.getD 0 0 ≠ 0) then
      s.emit (.flit p (q.sendNew true 0 true true [7#8, BitVec.ofNat 8 r]).1) else s) →
    ∀ v, v = (((u.emit (.downPattern p)).recOp 0x0501 6 p q.ackedUp r).putPort p
      { q.cleared (s.dev.tick + 1048576) with downs := listMod q.downs r (sat32 · 1) }).setPortReady p false →
    s.portDown p r = q.outst.foldl (fun t o => t.lostEntry p o)
      { v with fab.owed := v.fab.owed.filter fun c => c.port != p }) ∧
  (∀ s p, Live s → p < 64 → (s.port p).st = .up ∨ (s.port p).st = .session →
    exec (.alignmentLoss p) s = .next (s.portDown p 0).settle) ∧
  (∀ s p, Live s → p < 64 → (s.port p).st = .up ∨ (s.port p).st = .session ∨ (s.port p).st = .retrain →
    exec (.downPatternRx p) s = .next (s.portDown p 0).settle ∧
    ∀ r, (1 ≤ r → r ≤ 6 → exec (.downNotice p r) s = .next (s.portDown p r).settle) ∧
      (r = 0 ∨ 6 < r → exec (.downNotice p r) s = .next (s.portDown p 0).settle)) ∧
  (∀ s p, Live s → p < 64 → (s.port p).st = .retrain →
    exec (.retrainTimeout p) s = .next (s.portDown p (if (s.port p).counted then 1 else 0)).settle) ∧
  (∀ s e f, Live s → e < 16 → f < 4 → exec (.laserLightLoss e f) s = .next (s.portDown (4 * e + f) 6).settle) ∧
  (∀ s e, Live s → e < 16 → exec (.laserFaultAlarm e) s = .next
    ((((s.portDown (4 * e) 6).portDown (4 * e + 1) 6).portDown (4 * e + 2) 6).portDown (4 * e + 3) 6).settle) ∧
  (∀ s p q, Live s → p < 64 → q = s.port p → q.st = .down → q.enable = true → q.downDue ≤ s.dev.tick →
    exec (.portDownHoldExpiry p) s = .next (s.putPort p { q with st := .dark }).settle)
/-- Flits (12 R328, R332 to R337, R340): a good flit in order is taken, with its acknowledgement and credits; a gap asks for a
replay and an old flit for a new acknowledgement; an idle flit carries the same reports; a bad one is counted or takes the
port down; a slot carries what is due; a replay sends the unacknowledged flits again, and one sent 256 times takes the port
down, as a spent key does; a worn key sends KEY_NEXT, and the answer sends the exchange back and loads the next keys. -/
def Obligations.PortFlits : Prop :=
  (∀ s p q (f : Flit) u d, Live s → p < 64 → q = s.port p → q.hears = true → f.ftype ≠ 0 → q.check f = .good →
    u = (s.putPort p (((q.addFec f).takeAck f).takeCredit f)).takeNak p f →
    ((u.port p).hears = false → exec (.dataFlitRx p f) s = .next u.settle) ∧ ((u.port p).hears = true →
    d = (f.seq + 4096 - q.rxX % 4096) % 4096 →
    (d = 0 → ∀ r, r = (u.port p).switchRx f → exec (.dataFlitRx p f) s = .next ((u.putPort p
      { r with rxX := r.rxX + 1, nakSent := false, sinceAck := r.sinceAck + 1
               ackDue := r.ackDue || decide (r.ackEvery ≤ r.sinceAck + 1) }).gather p f).settle) ∧
    (1 ≤ d → d ≤ 1023 → exec (.dataFlitRx p f) s = .next (u.putPort p { u.port p with
      nakDue := (u.port p).nakDue || !(u.port p).nakSent, nakSent := true }).settle) ∧
    (1023 < d → d < 3072 → exec (.dataFlitRx p f) s = .next (u.portDown p 3).settle) ∧
    (3072 ≤ d → exec (.dataFlitRx p f) s = .next (u.putPort p { u.port p with ackDue := true }).settle))) ∧
  (∀ s p q (f : Flit) i, Live s → p < 64 → q = s.port p → q.hears = true →
    (f.ftype ≠ 0 ∧ i = .dataFlitRx p f ∨ f.ftype = 0 ∧ i = .idleFlitRx p f) →
    (q.check f = .crc → exec i s = .next (s.putPort p
      { q.addFec f with crcFails := sat32 (q.addFec f).crcFails 1 }).settle) ∧
    (q.check f = .security → exec i s = .next (((s.putPort p
      { q.addFec f with security := sat32 (q.addFec f).security 1 }).recOp 0x0502 6 p 0 0).portDown p 2).settle) ∧
    (q.check f = .protocol → exec i s = .next ((s.putPort p (q.addFec f)).portDown p 3).settle)) ∧
  (∀ s p q (f : Flit), Live s → p < 64 → q = s.port p → q.hears = true → f.ftype = 0 → q.check f = .good →
    ((∀ n, q.rxIdle = some n → n < f.idleCount) ∨ q.sess.finishIn = true ∧ f.keyPhase ≠ q.rxPhase →
      exec (.idleFlitRx p f) s = .next ((s.putPort p
        ((({ (q.addFec f).switchRx f with rxIdle := some f.idleCount }).takeAck f).takeCredit f)).takeNak p f).settle) ∧
    (∀ n, q.rxIdle = some n → f.idleCount ≤ n → q.sess.finishIn = false ∨ f.keyPhase = q.rxPhase →
      exec (.idleFlitRx p f) s = .next (s.putPort p
        { q.addFec f with idleDisc := sat32 (q.addFec f).idleDisc 1 }).settle)) ∧
  (∀ s p u q, Live s → p < 64 → u = (s.dropAged p).modPort p Port.switchTx → q = u.port p → q.hears = true →
    (2 ^ 31 ≤ q.keyFlits ∨ 2 ^ 55 ≤ q.txE → exec (.flitSend p) s = .next (u.portDown p 5).settle)) ∧
  (∀ s p u q, Live s → p < 64 → u = (s.dropAged p).modPort p Port.switchTx → q = u.port p → q.hears = true →
    q.keyFlits < 2 ^ 31 → q.txE < 2 ^ 55 →
    (∀ f i, 0 < q.toReplay → i = q.unacked.length - q.toReplay → q.unacked[i]? = some f → f.txNum < 255 →
      ∀ y, y = q.form (f.e % 4096) (if f.ctl then 2 else 1) f.vc f.first f.last f.payload (f.txNum + 1) 0 →
      exec (.flitSend p) s = .next (((u.putPort p { y.2 with
        toReplay := q.toReplay - 1, unacked := listSet q.unacked i { f with txNum := f.txNum + 1 } }).emit
          (.flit p y.1)).frameTick p).settle) ∧
    (q.toReplay = 0 → q.unacked.length < 1024 → ∀ m rest y, q.ctlQueue = m :: rest → u.slotOwner q.slot = none →
      y = q.sendNew true 0 (!q.sess.ctlBegun) (m.length ≤ flitMax q.mode) (m.take (flitMax q.mode)) →
      exec (.flitSend p) s = .next (((u.putPort p { y.2 with
        ctlQueue := if m.length ≤ flitMax q.mode then rest else m.drop (flitMax q.mode) :: rest
        sess := { q.sess with
          ctlBegun := decide (flitMax q.mode < m.length)
          finishSent := q.sess.finishSent || (decide (m.length ≤ flitMax q.mode) && q.sess.finishOut && finishLeft rest)
          } }).emit (.flit p y.1)).frameTick p).settle) ∧
    (∀ f i, 0 < q.toReplay → i = q.unacked.length - q.toReplay → q.unacked[i]? = some f → 255 ≤ f.txNum →
      exec (.flitSend p) s = .next (u.portDown p 1).settle) ∧
    (∀ c x i, q.toReplay = 0 → q.unacked.length < 1024 → q.ctlQueue = [] → q.st = .up → u.nextData p = some (c, x, i) →
      exec (.flitSend p) s = .next (u.sendData p c i x).settle) ∧
    (∀ y, q.toReplay = 0 → y = q.form (q.txE % 4096) 0 0 false false [] 0 q.idleCount →
      (q.ctlQueue = [] ∧ (q.st ≠ .up ∨ 1024 ≤ q.unacked.length ∨ u.nextData p = none) ∨
        q.ctlQueue ≠ [] ∧ (1024 ≤ q.unacked.length ∨ u.slotOwner q.slot ≠ none)) →
      ((q.sess.finishSent = true → q.keys.getD 0 0 ≠ 0) → exec (.flitSend p) s = .next
        (((u.putPort p { y.2 with idleCount := q.idleCount + 1, keyFlits := q.keyFlits + b2n y.1.tagged }).emit
          (.flit p y.1)).frameTick p).settle) ∧
      (q.sess.finishSent = true → q.keys.getD 0 0 = 0 → exec (.flitSend p) s = .next u.settle))) ∧
  (∀ s p q, Live s → p < 64 → q = s.port p → q.hears = true → 0 < q.sinceAck →
    exec (.ackTimerExpiry p) s = .next (s.putPort p { q with ackDue := true }).settle) ∧
  (∀ s p q, Live s → p < 64 → q = s.port p → q.hears = true → q.toReplay = 0 → q.unacked ≠ [] →
    (q.replays + 1 ≤ q.replayLim ∨ q.st = .session → exec (.replayTimeout p) s = .next (s.putPort p
      { q with replays := q.replays + 1, toReplay := q.unacked.length, replayN := sat32 q.replayN 1 }).settle) ∧
    (q.replayLim ≤ q.replays → q.st = .up → q.ran = true → q.acked < 1048576 →
      exec (.replayTimeout p) s = .next (s.portDown p 1).settle) ∧
    (q.replayLim ≤ q.replays → q.st = .up → (q.ran = false ∨ 1048576 ≤ q.acked) →
      exec (.replayTimeout p) s = .next (s.putPort p { q with st := .retrain, counted := true, nextW := some q.w
                                                              retrains := sat32 q.retrains 1, toReplay := 0 }).settle)) ∧
  (∀ s p q, Live s → p < 64 → q = s.port p → q.st = .retrain →
    exec (.retrainDone p) s = .next (s.putPort p { q with
      st := .up, w := q.nextW.getD q.w, nextW := none, toReplay := q.unacked.length
      replays := if q.unacked = [] then q.replays else q.replays + 1
      replayN := if q.unacked = [] then q.replayN else sat32 q.replayN 1
      ran := q.ran || q.counted, acked := if q.counted then 0 else q.acked, counted := false }).settle) ∧
  (∀ s p q, Live s → p < 64 → q = s.port p → q.st = .up →
   (q.sess.rekeyOut = false → 2 ^ 30 ≤ q.keyFlits → exec (.rekeyStart p) s = .next
     ((s.putPort p { q with sess := { q.sess with rekeyOut := true } }).sayFree p 0x05).settle) ∧
   (q.sess.rekeyOut = true → q.sess.rekeyIn = false → q.sess.higher = false → exec (.keyNext p) s = .next
     (s.putPort p { q with sess := { q.sess with rekeyIn := true } }).settle) ∧
   (q.sess.rekeyOut = true → q.sess.rekeyIn = false → q.sess.higher = true → exec (.keyNext p) s = .next
     (((s.putPort p { q with sess := { q.sess with rekeyIn := true } }).sayFree p 0x06).loadNext p).settle) ∧
   (q.sess.rekeyOut = false → q.sess.rekeyIn = false → q.sess.higher = false → exec (.keyNext p) s = .next
     (((s.putPort p { q with sess := { q.sess with rekeyOut := true } }).sayFree p 0x05).modSess p
       fun x => { x with rekeyIn := true }).settle) ∧
   (q.sess.rekeyOut = false → q.sess.rekeyIn = false → q.sess.higher = true → exec (.keyNext p) s = .next
     (((((s.putPort p { q with sess := { q.sess with rekeyOut := true } }).sayFree p 0x05).modSess p
       fun x => { x with rekeyIn := true }).sayFree p 0x06).loadNext p).settle) ∧
   (q.sess.rekeyOut = true → q.sess.rekeyIn = true → q.sess.higher = false → q.sess.nextReady = false →
     exec (.keyNextKem p) s = .next (({ s with ten.nextKey := s.ten.nextKey + 2 } : State).putPort p { q with
       keys := [q.keys.getD 0 0, s.ten.nextKey, q.keys.getD 2 0, s.ten.nextKey + 1]
       sess := { q.sess with nextReady := true, txNew := false, rxNew := false } }).settle))

/-- The fabric's clocks (13 R343, R358, R361, R365, R369, R375): an entry, a packet or a held fence that has outlived its time
goes, and is counted; a waiting packet may escape; a node without a route is lost; a closed bank becomes quiet. -/
def Obligations.FabricTimers : Prop :=
  (∀ s p q n g k, Live s → p < 64 → q = s.port p → exec (.outstandingEntryExpiry p n g k) s = .next (s.putPort p
    { q with outst := q.outst.filter fun o =>
        !(o.src == n && o.tag == g && o.tgen == k && decide (o.due ≤ s.dev.tick)) }).settle) ∧
  (∀ s id x, Live s → s.fab.transit.find id = some x → 16000 ≤ ageAfter x.p.age (s.dev.tick - x.since) →
    exec (.packetAgeOut id) s = .next
      (({ s with fab.transit := s.fab.transit.del id, fab.aged := s.fab.aged + 1 } : State).countDev 7).settle) ∧
  (∀ s n g h f k u, Live s → s.fab.held.find? (fun h => h.r.p.src == n && h.r.p.tag == g &&
      decide (16000 ≤ ageAfter h.r.p.age (s.dev.tick - h.since))) = some h → f = s.fab.fences.findD n {} →
    k = (h.r.p.fnum + 16 - f.x) % 16 + 1 →
    u = { s with fab.fences := s.fab.fences.put n { x := (f.x + k) % 16, counts := f.counts.drop k ++ List.replicate (min k 8) 0 }
                 fab.held := s.fab.held.filter (· != h), fab.aged := s.fab.aged + 1
                 fab.tags := s.fab.tags.adjust (tagKey n g) fun t =>
                   if t.tgen == h.r.p.tgen then { t with st := .free, dups := [] } else t } →
    exec (.fenceHoldAgeOut n g) s = .next ((u.countDev 7).releaseFences n 1024).settle) ∧
  (∀ s id x, Live s → s.fab.transit.find id = some x → channelOf x.opcode = 0 → x.p.escape = false →
    exec (.escapeWaitExpiry id) s = .next ({ s with
      fab.transit := s.fab.transit.put id { x with p := { x.p with escape := true } }
      fab.escaped := s.fab.escaped + 1 } : State).settle) ∧
  (∀ s n v d, Live s → v = s.nodeRec n → v.noRoute = some d → d + 64 ≤ s.dev.tick → s.hasRoute n = false →
    v.reachable = true → exec (.reachabilityTimeout n) s = .next
      (((s.putNodeRec n { v with reachable := false, noRoute := none, loss := v.loss + 1 }).sendMeta
        (.node n v.gen (v.loss + 1))).later [.gone n]).settle) ∧
  (∀ s b v, Live s → b < 2 → v = s.bank b → b ≠ s.fab.epoch → v.opened = false → s.drainOf b = 0 →
    v.lastUse + 400 ≤ s.dev.tick → exec (.bankQuiet b) s = .next (s.putBank b { v with quiet := true }).settle)
/-- Tiles at work (01 R17 to R19, 02 R47, R53, R59): a step ends, its store or residue check fails, or its watchdog expires; a
fenced station's ledger tiles leave it, its buffer is dropped and the invalidations that none of its writes holds up are
acknowledged; a tile that waits on a held pseudo-channel is not fenced for it (10 R293); a tile's final write waits for the
lines it replaces, lands with its rows, its sums and its copies, and ends the tile, at once or when the standby has it; a
stream draws its next tile; an idle or an unreleased stream ends. -/
def Obligations.TileEvents : Prop :=
  (∀ s n sid i k v t, Live s → n < 144 → (s.station n).run = some (sid, i, none) →
    (exec (.tileStepEnd n sid i k .store) s = .next (s.fenceStation n 0).settle) ∧
    (exec (.tileStepEnd n sid i k .residue) s = .next (s.fenceStation n 1).settle) ∧
    (s.tileOf sid i = some (v, t) → rsKind (v.steps.getD t.step 0) ≠ kLedger → t.ended = false →
      exec (.tileStepEnd n sid i k .ok) s = .next ((s.chargeCycles n sid k none).stepDone n sid i v t).settle) ∧
    (s.tileOf sid i = some (v, t) → rsKind (v.steps.getD t.step 0) = kLedger ∨ t.ended = true →
      exec (.tileStepEnd n sid i k .ok) s = .next (s.chargeCycles n sid k none).settle)) ∧
  (∀ s n sid i x slot, Live s → n < 144 → (s.station n).run = some (sid, i, x) →
    (s.onHold sid i = false → (s.station n).st = .bound slot →
      exec (.stepWatchdogExpiry n) s = .next ((((s.putStation n { s.station n with st := .fenced slot }).recOp 0x0401 9 n 0
        2).evacuate n).assignStations).settle) ∧
    (s.onHold sid i = true → exec (.stepWatchdogExpiry n) s = .next s.settle)) ∧
  (∀ s n slot lost u v w, Live s → n < 144 → (s.station n).st = .fenced slot →
    u = (lost.filter (s.station n).resident.contains).foldl (fun u x => match u.seq.windows.find x.1 with
      | some y => u.modLTile x.1 x.2 fun l => { l with poison := true, marks := List.range (wTileElems y.desc x.2) }
      | none => u) (s.spillAll n) →
    v = { u with seq.windows := u.seq.windows.each fun _ y => { y with
            tiles := y.tiles.each fun _ l => if l.home == some n then { l with home := none } else l } } →
    w = { v with pool.l1 := v.pool.l1.del n } →
    exec (.fenceStateMoved n lost) s = .next (({ w with
      pool.invals := w.pool.invals.each fun _ y =>
        if w.engineBusy n y.range then y else { y with engines := setBit y.engines n false } } : State).bindAll).settle) ∧
  (∀ s sid i v t w u a y b c d m, Live s → s.tileOf sid i = some (v, t) → t.st = .writing → w = v.steps.getLast?.getD 0 →
    (s.guardWrites (.tile sid i) t.writes = (.waits, u) →
      exec (.tileFinalWriteDone sid i) s = .next (u.modTile sid i fun t => { t with ended := true }).settle) ∧
    (s.guardWrites (.tile sid i) t.writes = (.yes, u) →
      (rsKind w ≠ kScatter ∨ rsOp w ≠ 1 → a = (t.writes, u.putWrites t.writes)) →
      (rsKind w = kScatter → rsOp w = 1 → ∀ n p q,
        n = sumOf (t.outs.map fun o => (Span.mk o.va o.bytes.length true).pieces.length) → p = u.putWrites (t.writes.take n) →
        q = p.2.scatterAdd w i 0 65536 (t.writes.drop n) → a = (t.writes.take n ++ q.1, p.1.worse q.2.1, q.2.2)) →
      y = t.meet a.2.1 → b = (a.2.2.dropGot (.tile sid i)).modTile sid i (fun _ => y) →
      c = (if hdSink v.head = 3 then b.multicast v i y y.condSt else b) →
      (rsKind w ≠ kCheck → d = c) →
      (rsKind w = kCheck → rsOp w = 0 → d = c.modStream sid fun v => { v with check := (v.check + y.diff) % 2 ^ 64 }) →
      (rsKind w = kCheck → rsOp w ≠ 0 → d = c.modStream sid fun v =>
        { v with checkHeld := v.checkHeld.put i (y.data.take (c.packed (rsIn w) y.count)) }) →
      m = d.mirrorWrites a.1 [] (.tile sid i) →
      (m.1 = false → exec (.tileFinalWriteDone sid i) s = .next
        (m.2.endTile sid i y.condSt (resultPayload v i y y.condSt)).settle) ∧
      (m.1 = true → thKind y.hdr ≠ tkAppend → exec (.tileFinalWriteDone sid i) s = .next
        (m.2.modTile sid i fun t => { t with st := .mirror }).settle) ∧
      (m.1 = true → thKind y.hdr = tkAppend → exec (.tileFinalWriteDone sid i) s = .next
        ((m.2.mirrorFrontier y (.tile sid i)).modTile sid i fun t => { t with st := .mirror }).settle))) ∧
  (∀ s sid v i first idx, Live s → s.str.streams.find sid = some v → hdSrc v.head = 1 → v.closed = false → v.ended = false →
    v.tiles.length < 64 → nextIssue v = some i → first = v.steps.headD 0 → idx = isTable (rsKind first) →
    exec (.extentTileIssue sid) s = .next (s.enterTile v i
      (outHeader (if idx then tkIndex else tkData) 0 (if idx then 13 else rsIn first) (hdElems v.head)
        (s.inBytes v.head v.steps) sid i (s.str.epochs.findD sid 0) 0 (hdCookie v.head)) none).settle) ∧
  (∀ s sid v, Live s → s.str.streams.find sid = some v →
    (v.closed = false → hdSrc v.head = 0 → v.idleDue ≤ s.dev.tick →
      exec (.streamIdleTimeout sid) s = .next (s.cutStream sid .timeout).settle) ∧
    (v.closed = true → v.tiles = [] → v.freeDue ≠ 0 → v.freeDue ≤ s.dev.tick →
      exec (.streamReleaseTimeout sid) s = .next ((s.freeStream sid).countTen v.tenant 0).settle))

/-- Ledgers (04 R107, R110, R118, R119; 03 R78): a LEDGER step contributes the tile's values; a contribution that is taken puts the
write-backs of a VECTOR step in place and ends the tile; a full ledger tile is written where its window says, and then delivered;
an idle window closes. -/
def Obligations.LedgerEvents : Prop :=
  (∀ s sid i v t n w k writes a r b, Live s → s.tileOf sid i = some (v, t) → t.st = .running n → w = v.steps.getD t.step 0 →
    rsKind w = kLedger → k = { tileReacher sid i v n with held := t.tr } →
    writes = (t.outs.flatMap fun o => s.placed k o.va o.bytes fun b => o.bad.contains (b / 256)) →
    s.guardWrites (.tile sid i) writes = (.yes, a) →
    r = a.contribute (rsWindow w) (thLedger t.hdr) (thContrib t.hdr) ((a.fmt (rsIn w)).values t.data t.count) t.marks →
    b = r.2.dropGot (.tile sid i) →
    (r.1 ≠ .ok → exec (.ledgerContribution sid i) s = .next ((b.boundary n).endTile sid i r.1).settle) ∧
    (∀ q y m, r.1 = .ok → q = b.putWrites writes → y = t.meet q.1 →
      m = (q.2.modTile sid i fun _ => { y with st := .writing, prev := some n, began := true }).mirrorWrites writes []
        (.tile sid i) →
      (m.1 = false → exec (.ledgerContribution sid i) s = .next ((m.2.boundary n).endTile sid i y.condSt).settle) ∧
      (m.1 = true → exec (.ledgerContribution sid i) s = .next
        (((m.2.modTile sid i fun t => { t with st := .mirror }).commitStream sid).boundary n).settle))) ∧
  (∀ s w t v l, Live s → s.seq.windows.find w = some v → l = v.tiles.findD t {} →
    (l.phase = .written → exec (.ledgerFinalWriteDone w t) s = .next (s.ledgerRest w t).settle) ∧
    (∀ a k n va len dest p c, l.phase = .writing → k = s.tileHolder w t v.desc → n = wTileElems v.desc t →
      va = wDestAddr v.desc + t * s.winRes v → len = toSectors (s.packed (wFormat v.desc) n) →
      dest = (if wAccumulate v.desc then [Span.mk va len false] else []) ++ [Span.mk va len true] →
      (s.guardSpans k (imageSpans v.desc t) = (.waits, a) → exec (.ledgerFinalWriteDone w t) s = .next a.settle) ∧
      (s.guardSpans k (imageSpans v.desc t) = (.yes, a) → (if wDest v.desc then a.readySpans k dest else (.yes, a)) = (p, c) →
        (p = .waits → exec (.ledgerFinalWriteDone w t) s = .next c.settle) ∧
        (∀ e r u image out, r = e.wordsOf w t → u = r.2.2.markTile w t r.2.1 →
          image = u.placed k (wImage v.desc t) (r.1.flatMap fun x => leBytes x 8) (fun b => (u.ltile w t).marks.contains (b / 8)) →
          (p = .yes →
            (wAccumulate v.desc = false → e = c) →
            (wAccumulate v.desc = true → ∀ f g, f = c.fmt (wFormat v.desc) → g = c.fetch k va len →
              e = (g.2.addTo w t 0 false (f.values g.1.bytes n)).markTile w t (f.badElems n g.1.isBad)) →
            out = image ++ (if wDest v.desc then u.placed k va (padTo (u.resultOf v.desc t r.1).1 len)
              (fun b => (u.ltile w t).poison && (u.fmt (wFormat v.desc)).marked n (u.ltile w t).marks b) else []) →
            exec (.ledgerFinalWriteDone w t) s = .next ((((u.putWrites out).2.dropGot (.ledger w t)).modLTile w t
              fun l => { l with words := r.1, writes := out }).ledgerRest w t).settle) ∧
          (∀ st, p = .fails st → e = c → exec (.ledgerFinalWriteDone w t) s = .next
            (((((u.putWrites image).2.dropGot (.ledger w t)).modLTile w t fun l => { l with flag := st.code }).modLTile w t
              fun l => { l with words := r.1, writes := image }).ledgerRest w t).settle))))) ∧
  (∀ s w v, Live s → s.seq.windows.find w = some v → v.state = .opened → wIdle v.desc ≠ 0 → v.idleDue ≤ s.dev.tick →
    exec (.windowIdleTimeout w) s = .next (s.cutWindow w .timeout).settle)

/-- Sequences and cadence (05 R127, R138, R144, R148): a QUERY is cut into its splits, each split's partial result is joined once
its bytes are at hand; a hold ends once no tile names the context; a period ends, and the next begins with the block that waits. -/
def Obligations.SequenceEvents : Prop :=
  (∀ s sid i v t c js, Live s → s.tileOf sid i = some (v, t) → s.seq.contexts.find (thObj t.hdr) = some c →
    rsKind (v.steps.getD t.step 0) = kScore → t.st = .ready → v.closed = false ∨ t.began = true →
    s.appendPending t c.desc = false →
    js = (List.range (ceilDiv (qB c.desc) (qS c.desc))).filter (fun j => !(splitBlocks t c.desc j).isEmpty) →
    (∀ st, s.spanFault (tileReacher sid i v 160) (js.flatMap (s.splitSpans t c.desc) ++ s.outSpan v t i) = some st →
      exec (.queryScoreRelease sid i) s = .next (s.endTile sid i st).settle) ∧
    (s.spanFault (tileReacher sid i v 160) (js.flatMap (s.splitSpans t c.desc) ++ s.outSpan v t i) = none →
      exec (.queryScoreRelease sid i) s = .next ((s.modTile sid i fun _ =>
        { t with st := .splitting, splits := js.map fun j => (j, {}) }).later [.bind sid]).settle)) ∧
  (∀ s sid i j v t n x c k a, Live s → s.tileOf sid i = some (v, t) →
    s.stn.stations.find? (fun x => x.2.run == some (sid, i, some j)) = some (n, x) →
    s.seq.contexts.find (thObj t.hdr) = some c →
    k = { tileReacher sid i v n with held := ((t.splits.find j).map (·.tr)).getD [] } →
    (s.guardSpans k (s.splitSpans t c.desc j) = (.waits, a) → exec (.splitFinish sid i j) s = .next (a.modTile sid i fun t =>
      { t with splits := t.splits.adjust j fun x => { x with ended := true } }).settle) ∧
    (∀ st, s.guardSpans k (s.splitSpans t c.desc j) = (.fails st, a) → exec (.splitFinish sid i j) s = .next
      (((a.boundary n).dropSplits sid i (t.splits.map (·.1))).endTile sid i st).settle) ∧
    (∀ r p u, s.guardSpans k (s.splitSpans t c.desc j) = (.yes, a) → r = a.readSplit k t c.desc j →
      p = a.splitPartial c t r.1 r.2.1 j → u = r.2.2.modTile sid i (fun t => { t with
        splits := t.splits.adjust j fun x => { x with running := false, tr := [], ended := false, result := some p } }) →
      exec (.splitFinish sid i j) s = .next (((u.boundary n).mergeQuery sid i).later
        ((t.splits.filterMap fun x => x.2.station).map .arbitrate)).settle)) ∧
  (∀ s n v cmd, Live s → s.seq.contexts.find n = some v → s.contextTiles n = [] →
    (∀ len, v.holds = [.truncate len cmd] → exec (.seqHoldRelease n) s = .next
      (((s.putContext n { v with holds := [], frontiers := v.frontiers.map (min · len) }).sendMeta (.context n v.tenant v.desc
        (if v.enabled then 2 else 1) (v.frontiers.map (min · len)) v.scales)).respondOk cmd).settle) ∧
    (v.holds = [.disable cmd] → exec (.seqHoldRelease n) s = .next
      (((s.putContext n { v with holds := [], enabled := false }).sendMeta (.context n v.tenant v.desc 1 v.frontiers
        v.scales)).respondOk cmd).settle) ∧
    (v.holds ≠ [] → exec (.seqHoldRelease n) s = .next
      (v.holds.foldl (fun u h => u.oneHold n h) (s.putContext n { v with holds := [] })).settle)) ∧
  (∀ s k v b, Live s → s.seq.cadence.find k = some v → cdEnabled v.block = true → v.due ≤ s.dev.tick →
    b = v.next.getD v.block → exec (.cadencePeriodEnd k) s = .next (s.putCadence k
      { block := b, next := none, cycles := 0, used := 0, last := v.used, due := v.due + cdPeriod b
        short := if s.cadenceWaits k = true ∧ v.used < s.cadenceCap v then sat64 v.short 1 else v.short }).settle)
/-- Extents and lines by the clock (06 R170, R176, R182 to R184, R230; 07 R191, R207): a recall that is not answered reverts
its page; a drained draft commits, and is answered once the standby has its record where the
extent is mirrored; a refusal mark comes into force; an engine that moves no byte of the range acknowledges an invalidation and
drops what it names; a slow one is recorded once; a granule is zeroed, at its copy where a migration has moved it, and FREE; a snoop that is not answered is lost, and the sweep
resolves it; a write-back record is dropped. -/
def Obligations.PoolEvents : Prop :=
  (∀ s e page c y u, Live s → s.pool.checkouts.find (e * 2 ^ 25 + page) = some c → c.recalling = true → c.due ≤ s.dev.tick →
    page < 2 ^ 25 → s.pool.extents.find e = some y → u = s.revertPage (s.framePage e page none) →
    exec (.recallTimeout e page) s = .next (((u.putExtent e { y with lostPages := sat32 y.lostPages 1 }).countTen
      y.tenant 5).endCheckout (e * 2 ^ 25 + page) true).settle) ∧
  (∀ s e y d r u w body m, Live s → s.draftBusy e = false → s.pool.extents.find e = some y → y.draft = some d → d.commit = some r →
    (∀ v, v = s.putExtent e { y with current := d.number, draft := none } →
      (s.pool.handles.find d.handle = none → u = v) ∧
      (∀ h, s.pool.handles.find d.handle = some h → u = v.putHandle d.handle { h with st := .committed })) →
    w = versionWord d.handle d.number → body = cookieOf r.p.payload ++ leBytes w 8 → m = .extent e y.tenant y.desc 2 d.number →
    (u.isMirrored e = false → exec (.draftWritesDrained e) s = .next
      (((u.sendMeta m).retireVersions e).complete r .ok (some w) (some body)).settle) ∧
    (u.isMirrored e = true → u.mirrors = true → ∀ x v, x = u.pairSend .metaRec 0x71 → v = x.2.emit (.metaSent x.1 m) →
      exec (.draftWritesDrained e) s = .next (({ v with
        pair.mirror := v.pair.mirror.put x.1 (v.dev.tick + v.mirrorTicks, .request r 0 (some w) body 0) } : State).retireVersions
          e).settle) ∧
    (u.isMirrored e = true → u.mirrors = false → exec (.draftWritesDrained e) s = .next
      (((u.sendMeta m).retireVersions e).complete r .ok (some w) (some body)).settle)) ∧
  (∀ s n e c, Live s → s.pool.extents.find n = some e → e.state = .revoking → s.invalFor (.revoke n) = false → e.cmd = some c →
    exec (.refusalMarkInForce (.extent n)) s = .next
      (((s.putExtent n { e with cmd := none }).drainExtent n).respondOk c).settle) ∧
  (∀ s asid va m c, Live s → s.pool.maps.find? (fun m => m.asid == asid && m.vaBase == va) = some m → m.removing = true →
    m.cmd = some c → s.invalFor (.unmap asid va) = false →
    exec (.refusalMarkInForce (.mapping asid va)) s = .next
      (s.invalidate (.virt asid (va / 2097152) m.count) (.unmap asid va)).settle) ∧
  (∀ s t x, Live s → s.tenantOf t = some x → x.sess = .ending → x.markDone = false →
    exec (.refusalMarkInForce (.tenant t)) s = .next
      ((s.putTenant t { x with markDone := true, endTick := s.dev.tick }).endObjects t).settle) ∧
  (∀ s id n i, Live s → n < 161 → s.pool.invals.find id = some i → s.inProgress id = true → bit i.engines n = true →
    s.engineBusy n i.range = false → exec (.rangeInvalidationAck id n) s = .next
      ((s.putInval id { i with engines := setBit i.engines n false }).dropEntries n i.range).settle) ∧
  (∀ s id i, Live s → s.pool.invals.find id = some i → i.slowNoted = false → i.issued + 16384 ≤ s.dev.tick →
    exec (.revocationSlowExpiry id) s = .next ((s.putInval id { i with slowNoted := true }).recOp 0x0204 1
      (s.inFor i.purpose) 0 (popcount i.engines 161)).settle) ∧
  (∀ s g h, Live s → g < 589824 → h = s.granHome g → (s.gran h).st = .quarantine ∨ (s.gran h).st = .unfilled →
    ∀ u, u = s.zeroGran (s.granCopy h) →
    (u.granCopy h = h → exec (.granuleZeroed g) s = .next ((u.setGran h { st := .free }).later [.migrate]).settle) ∧
    (u.granCopy h ≠ h → exec (.granuleZeroed g) s = .next ((u.putGran h { st := .free }).later [.migrate]).settle)) ∧
  (∀ s h n t, Live s → s.com.trans.find h = some t → exec (.snoopTimeout h n) s = .next
    (((t.snoops.filter fun x => x.node == n && decide (x.due ≤ s.dev.tick)).foldl
      (fun u x => u.snoopAnswer h x .lost false) s)).settle) ∧
  (∀ s h n due, Live s → s.com.wbRecs.find (h * 65536 + n) = some due → due ≤ s.dev.tick →
    exec (.writebackRecordExpiry h n) s = .next
      ({ s with com.wbRecs := s.com.wbRecs.del (h * 65536 + n) } : State).settle) ∧
  (∀ s h, Live s → (∃ n, (h, n) ∈ s.com.lost) → s.com.trans.find h = none →
    exec (.lostHolderSweep h) s = .next ((s.putTrans h { job := .sweep }).lineGo h).settle)

/-- Translation (08 R219, R226 to R229): a walk fills the engine's buffer and the level-2 buffer; a space's invalidation by
identifier comes into force and what waits in it runs; a population ends and its writes run; a write that waited too long
gets BUSY_RETRY, a tile's as a request's. The way of a full set is a free value's (08 R219). -/
def Obligations.SpaceEvents : Prop :=
  (∀ s n asid va k u page a ways same w b c e, Live s → n < 161 →
    s.pool.walks.find? (fun w => w.engine == n && w.asid == asid && w.va == va) = some k →
    u = { s with pool.walks := s.pool.walks.filter (· != k) } → u.pageAt asid va (fun _ => some k.version) = some page →
    u.pool.spaces.find asid = some a → u.versionLives asid va k.version = true → ways = bitsOf (waysOf u.pool.l2part a.tenant) 16 →
    same = (fun c : BufEntry => entrySet c.whole c.va == entrySet (u.wholeEntry asid va) va) →
    (ways.find? (fun w => (u.pool.l2.filter same).all (·.way != w)) = some w ∧ e = u ∨
      ways.find? (fun w => (u.pool.l2.filter same).all (·.way != w)) = none ∧ ways ≠ [] ∧ e = (u.draw 16).2 ∧
        w = ways.getD ((u.draw 16).1 % ways.length) 0) →
    b = (⟨asid, va, u.wholeEntry asid va, k.version, a.tenant, page, 0⟩ : BufEntry) →
    c = ({ e with pool.l2 := { b with way := w } :: e.pool.l2.filter fun c => !(same c && c.way == w) } : State) →
    exec (.translationWalkDone n asid va) s = .next (if (c.versionAt asid va (fun _ => some k.version)).2 then c
      else if n < 160 && c.keepsFor n a.tenant then
        { c with pool.l1 := c.pool.l1.put n ((b :: c.pool.l1.findD n []).take 64) } else c).settle) ∧
  (∀ s asid a grans u v w, Live s → s.pool.spaces.find asid = some a → a.dead = true → a.inForce = false →
    grans = a.pops.map (·.2) ++ a.growing.map (·.2.granule) →
    u = (s.putSpace asid { a with inForce := true, cmd := none, pops := [], growing := [] }).dropSpaces (· == asid) →
    v = (u.pool.maps.filter fun m => m.asid == asid && m.cmd.isNone).foldl
      (fun s m => s.invalidate (.virt asid (m.vaBase / 2097152) m.count) (.spaceMap asid m.vaBase)) u →
    w = (if grans = [] then v else v.invalidate (.phys grans) (.spaceGrans asid grans)).later
      ((a.growing.flatMap fun p => p.2.waiting.map (·.1)).map .run) →
    exec (.identInvalidationInForce asid) s = .next (a.cmd.elim w w.respondOk).settle) ∧
  (∀ s asid g a p, Live s → s.pool.spaces.find asid = some a → a.growing.find g = some p →
    exec (.populationDone asid g) s = .next ((s.putSpace asid
      { a with growing := a.growing.del g, pops := a.pops.put g p.granule }).later (p.waiting.map fun w => .run w.1)).settle) ∧
  (∀ s n g asid a v p x d u, Live s → s.popWaiter n g = some (asid, a, v, p, x, d) →
    u = s.putSpace asid { a with growing := a.growing.put v { p with waiting := p.waiting.filter (· != (x, d)) } } →
    (∀ r, x = .request r → exec (.populationWaitExpiry n g) s = .next (u.complete r .busyRetry).settle) ∧
    (∀ sid i, x = .tile sid i → exec (.populationWaitExpiry n g) s = .next (u.later [.late sid i]).settle))

/-- Tenants by the clock (09 R241, R250, R257, R263): a session that has ended and is clear loses its keys; a slow end is
recorded once; a rotation ends; a chunk of an import is taken into its page, or fails it; a barred number is free again. -/
def Obligations.TenantEvents : Prop :=
  (∀ s t x u, Live s → s.tenantOf t = some x → x.sess = .ending → x.markDone = true →
    (s.tenantClear t = true → u = x.endCmds.foldl State.respondOk (s.putTenant t { keyHash := x.keyHash, reserve := x.reserve }) →
      exec (.keySlotErase t) s = .next ((u.ctl.sessions.keysWhere fun v => v.role == .tenant && v.tenant == t).foldl
        State.endSession { u with log.ten := u.log.ten.del t }).settle) ∧
    (s.tenantClear t = false → exec (.keySlotErase t) s = .next (s.endObjects t).settle)) ∧
  (∀ s t x, Live s → s.tenantOf t = some x → x.sess = .ending → x.markDone = true → x.slowNoted = false →
    x.endTick + 16384 ≤ s.dev.tick →
    exec (.sessionEndSlowExpiry t) s = .next ((s.putTenant t { x with slowNoted := true }).recOp 0x0103 11 t 0 0).settle) ∧
  (∀ s t x, Live s → s.tenantOf t = some x → x.sess = .opened → x.oldEpoch ≠ none →
    (∀ m ∈ s.pool.sectors, s.granOwner (sectorGran m.1) = some t → s.oldSector m.1 m.2 = false) →
    exec (.rotationRewriteDone t) s = .next ((s.putTenant t { x with oldEpoch := none }).recTen t 0x0102 11 t 0 x.epoch).settle) ∧
  (∀ s e plain ok m k u, Live s → s.ten.imports.find e = some m → s.importChannel e m = some k → m.failed = false →
    m.taken ≠ m.chunkCount → nextChunk m + 16 ≤ k.buffer.length →
    u = s.putBulk m.channel { k with buffer := k.buffer.drop (nextChunk m + 16) } →
    (ok = false → exec (.weightChunk e plain ok) s = .next (u.importFails e m).settle) ∧
    (∀ w y, ok = true → w = { dev := u.framePage e m.taken none * 65536, ext := some (e, 65536 * m.taken)
                              bytes := padTo plain (nextChunk m) } → y = (u.putWrite w).2.mirrorWrites [w] [] (.weights e) →
      exec (.weightChunk e plain ok) s = .next
        ((y.2.putImport e { m with taken := m.taken + 1, held := m.held || y.1 }).importCheck e).settle)) ∧
  (∀ s n due, Live s → s.ten.barred.find n = some due → due.1 ≤ s.dev.tick →
    exec (.sessionIdBarExpiry n) s = .next ({ s with ten.barred := s.ten.barred.del n } : State).settle)
/-- Sectors (10 R277 to R279; 11 R299, R300, R302, R306, R310, R315, R318): an access joins the queue of its pseudo-channel, and one
that finds it empty goes at once; it reads or writes its sector, and what is written of a mirrored extent goes to the
standby; a sector that cannot be corrected is asked of the mirror, and what comes for it meanwhile waits behind; accesses not yet
confirmed are issued again after a parity error; the sweep reads and rewrites; a rank's errors are counted, and forgotten after
each window; a leaving rank's next granule is copied. -/
def Obligations.SectorEvents : Prop :=
  (∀ s k m e₁ e₂, Live s → k < 16 → bit s.ready.stack k = true → (s.stack k).selfRef ≠ .entered → m < stackSectors →
    (s.unwritten (sectorPage (deviceSector k m)) = true → exec (.sectorReadDone k m e₁ e₂) s = .next
      (s.emit (.sector (deviceSector k m) 0 (List.replicate 256 0))).settle) ∧
    (s.unwritten (sectorPage (deviceSector k m)) = false →
      exec (.sectorReadDone k m e₁ e₂) s = .next (s.toQueue k m (.read e₁ e₂)).settle)) ∧
  (∀ s k m o (b : List Byte), Live s → k < 16 → bit s.ready.stack k = true → (s.stack k).selfRef ≠ .entered → m < stackSectors →
    o + b.length ≤ 256 → b ≠ [] → exec (.sectorWriteDone k m o b) s = .next (s.toQueue k m (.write o b)).settle) ∧
  (∀ s k m op v, Live s → k < 16 → LoneAccess s k m op v → v.pool.fetches.has (deviceSector k m) = true →
    (∀ e₁ e₂, op = .read e₁ e₂ → s.unwritten (sectorPage (deviceSector k m)) = false →
      exec (.sectorReadDone k m e₁ e₂) s = .next (v.joinFetch (deviceSector k m) (.sector (deviceSector k m) none)).settle) ∧
    (∀ o b, op = .write o b → o + b.length ≤ 256 → b ≠ [] → exec (.sectorWriteDone k m o b) s = .next
      (v.joinFetch (deviceSector k m) (.sector (deviceSector k m) (some (o, b)))).settle)) ∧
  (∀ s k m e₁ e₂ n v u w, Live s → k < 16 → LoneAccess s k m (.read e₁ e₂) v → n = deviceSector k m →
    s.unwritten (sectorPage n) = false → v.pool.fetches.has n = false → u = (v.onDie n e₁.onDie).onDie n e₂.onDie →
    w = u.putSector n { u.secMeta n with rawErr := xorErr (u.secMeta n).rawErr e₁.sym } →
    ((u.secCond n e₁.sym e₂.sym ≠ .unc ∨ w.mirrorWants [n] = []) → exec (.sectorReadDone k m e₁ e₂) s = .next
      ((u.readSector n e₁.sym e₂.sym).2.2.emit (.sector n (u.secCond n e₁.sym e₂.sym).status.code
        (u.secData n (u.secCond n e₁.sym e₂.sym)))).settle) ∧
    (u.secCond n e₁.sym e₂.sym = .unc → w.mirrorWants [n] ≠ [] → exec (.sectorReadDone k m e₁ e₂) s = .next
      (((w.mirrorWants [n]).foldl (fun y x => y.fetchMirror x.1 x.2.1 x.2.2) w).joinFetch n (.sector n none)).settle)) ∧
  (∀ s k m o (b : List Byte) n v w, Live s → k < 16 → LoneAccess s k m (.write o b) v → n = deviceSector k m →
    o + b.length ≤ 256 → b ≠ [] → v.pool.fetches.has n = false → w = v.writeSector n o b false →
    ((o = 0 ∧ b.length = 256) ∨ v.secCond n [] [] ≠ .unc ∨ (v.askMirror n []).1 = false →
      ((∀ t e i, v.nameSector n = some (t, 1, e, i) → w.1 = .integrity ∨ v.mirrorsTo e = false) →
        exec (.sectorWriteDone k m o b) s = .next w.2.settle) ∧
      (∀ t e i, v.nameSector n = some (t, 1, e, i) → w.1 ≠ .integrity → v.mirrorsTo e = true →
        exec (.sectorWriteDone k m o b) s = .next
          (w.2.mirrorOut e [(i + o, b)] (if w.1 = .poisoned then [i] else []) [] .none).settle)) ∧
    (o ≠ 0 ∨ b.length ≠ 256 → v.secCond n [] [] = .unc → (v.askMirror n []).1 = true → exec (.sectorWriteDone k m o b) s = .next
      ((v.askMirror n []).2.joinFetch n (.sector n (some (o, b)))).settle)) ∧
  (∀ s k r u, Live s → k < 16 → r < 4 → u = s.rankNow.modStack k (fun x => { x with caErrors := x.caErrors + 1 }) →
    ((s.stack k).pchs.flatMap (·.2.flight) = [] → exec (.caParityError k r) s = .next
      (({ u with pool.parity := u.pool.parity.put (4 * k + r) (u.pool.parity.findD (4 * k + r) 0 + 1) } : State).later
        [.rank (4 * k + r)]).settle) ∧
    (∀ v, v = ((s.stack k).pchs.flatMap (·.2.flight)).foldl (fun y a => match a.op with
        | .read _ _ => y.carryOut k { a with op := .read {} {} }
        | .write _ _ => y.carryOut k a) u →
      exec (.caParityError k r) s = .next
        (({ v with pool.parity := v.pool.parity.put (4 * k + r) (v.pool.parity.findD (4 * k + r) 0 + 1) } : State).later
          [.rank (4 * k + r)]).settle)) ∧
  (∀ s k p a rest, Live s → k < 16 → p < 64 → s.stackServes k = true → (s.stack k).holds p = false →
    (s.pch k p).queue = a :: rest → a.since + 6 ≤ s.dev.tick →
    exec (.accessAgeLimit k p) s = .next (s.modPch k p fun q => { q with aged := true }).settle) ∧
  (∀ s k e₁ e₂, Live s → k < 16 → s.stackServes k = true → (s.stack k).mowPaused = false →
    (∀ n u, s.nextRewrite k = some n → s.mowSlot k n (s.slotClass ((s.granOwner (sectorGran n)).getD 0)) true = some u →
      exec (.mowRead k e₁ e₂) s = .next (u.mowSector n e₁ e₂).settle) ∧
    (∀ m u, s.nextRewrite k = none → s.nextMow k (s.stack k).mowNext = some m →
      s.mowSlot k (deviceSector k m) 0xFFFF (s.mowLate k) = some u → exec (.mowRead k e₁ e₂) s = .next
        ((u.modStack k fun x => { x with mowNext := m + 1 }).mowSector (deviceSector k m) e₁ e₂).settle) ∧
    (∀ m u, s.nextRewrite k = none → s.nextMow k (s.stack k).mowNext = none → s.nextMow k 0 = some m →
      s.mowSlot k (deviceSector k m) 0xFFFF (s.mowLate k) = some u → exec (.mowRead k e₁ e₂) s = .next
        ((u.modStack k fun x => { x with mowNext := m + 1, mowFrom := u.dev.tick }).mowSector (deviceSector k m) e₁
          e₂).settle)) ∧
  (∀ s k m n f u, Live s → k < 16 → n = 36864 * 8192 * k + m → s.pool.fetches.find n = some f → f.due ≤ s.dev.tick →
    u = { s with pool.fetches := s.pool.fetches.del n } → u.secCond n [] [] = .unc →
    exec (.mirrorFetchTimeout k m) s = .next ((u.loseSector n).later (f.waiting.map Todo.run ++
      ((u.loseSector n).com.trans.keysWhere (·.stalled)).map Todo.line)).settle) ∧
  (∀ s, Live s →
    (s.pool.rankWin ≠ s.dev.tick / 16777216 → exec .rankErrorWindowEnd s = .next
      ({ s with pool.rankWin := s.dev.tick / 16777216, pool.badSecs := [], pool.parity := [] } : State).settle) ∧
    (s.pool.rankWin = s.dev.tick / 16777216 → exec .rankErrorWindowEnd s = .next s.settle)) ∧
  (∀ s l u m src d w, Live s → u = s.passFree 9217 → u.pool.migration = some m → m.next ≠ 9216 →
    src = m.rank * 9216 + m.next →
    (m.dest = some (d / 9216) ∧ d % 9216 = m.next ∨
      m.dest = none ∧ u.nextFree 0xFFFF ((m.rank / 4 + 1) % 16) (some m.rank) = some d) →
    u.copyHeld m d = false → (∀ e, (u.gran src).use ≠ .extent e) →
    w = (u.moveGranule src d l).invalidate (.phys [src]) (.migrate src d) →
    exec (.migrationGranuleCopied l) s = .next ((({ w with pool.migration := some { m with
      next := m.next + 1, copied := m.copied + 1, stalled := false } } : State).passFree 9217).migrationCheck).settle)

/-- Stacks (10 R283 to R289, R291 to R293; 11 R305; 15 R419): refresh is issued, or postponed while an access waits for its bank, the
temperature chooses its window, self-refresh is entered once the queues are empty, and left with everything due, training goes step by
step and fails a stack after its third attempt, and its end makes the stack ready and zeroed; a pattern run ends; tracking and
retraining follow the eyes. The settings and eyes of training, and the direction of a step of `rd_vref`, are free values. -/
def Obligations.StackEvents : Prop :=
  (∀ s k p r b x q y, Live s → k < 16 → p < 64 → r < 4 → b < 16 → x = s.stack k → x.selfRef ≠ .entered → q = x.pch p →
    y = q.banks.findD (bankKey r b) {} →
    (s.bankWaits k p r b = true → x.holds p = false → y.postponed < 8 → exec (.refreshDue k p r b) s = .next
      (s.putStack k { x with pchs := x.pchs.put p { q with
        banks := q.banks.put (bankKey r b) { y with postponed := y.postponed + 1 } } }).settle) ∧
    (s.bankWaits k p r b = false ∨ x.holds p = true ∨ 8 ≤ y.postponed → exec (.refreshDue k p r b) s = .next
      (s.putStack k { x with pchs := x.pchs.put p { q with
        last := [.refresh r b (y.postponed + 1)]
        banks := q.banks.put (bankKey r b) { y with
          postponed := 0, refreshed := y.refreshed + (y.postponed + 1)
          activates := y.activates - (y.postponed + 1) * Config.refreshThreshold k } } }).settle)) ∧
  (∀ s k c x, Live s → k < 16 → x = s.stack k →
    (c ≤ 83 → exec (.stackTemperatureRead k c) s = .next (s.putStack k { x with
      temp := c, shortWin := x.shortWin && decide (x.lowReads + 1 < 2), hot := false
      lowReads := if x.shortWin && decide (x.lowReads + 1 < 2) then x.lowReads + 1 else 0 }).settle) ∧
    (83 < c → c ≤ 85 → exec (.stackTemperatureRead k c) s = .next (s.putStack k { x with
      temp := c, lowReads := 0, hot := false }).settle) ∧
    (85 < c → c ≤ 90 → exec (.stackTemperatureRead k c) s = .next (s.putStack k { x with
      temp := c, shortWin := true, lowReads := 0, hot := false }).settle) ∧
    (90 < c → c ≤ 95 → exec (.stackTemperatureRead k c) s = .next (s.putStack k { x with
      temp := c, shortWin := true, lowReads := 0 }).settle) ∧
    (95 < c → c ≤ 105 → exec (.stackTemperatureRead k c) s = .next (s.putStack k { x with
      temp := c, shortWin := true, lowReads := 0, hot := true }).settle) ∧
    (105 < c → exec (.stackTemperatureRead k c) s = .next ((s.putStack k { x with
      temp := c, shortWin := true, lowReads := 0, hot := true }).halt 1).settle)) ∧
  (∀ s k u, Live s → k < 16 → (s.stack k).selfRef = .entering → (s.stack k).held = false →
    (s.pwr.sleep ≠ .waking ∨ s.dev.halt ≠ none) →
    u = (s.modStack k fun x => { x with selfRef := .none }).runStack k →
    ((∀ q ∈ (u.stack k).pchs, q.2.queue = []) → exec (.stackSelfRefreshEntry k) s = .next
      (u.putStack k { (u.stack k).refreshAll (Config.refreshThreshold k) with
        selfRef := .entered, entryTemp := (u.stack k).temp, mowPaused := true }).settle) ∧
    ((∃ q ∈ (u.stack k).pchs, q.2.queue ≠ []) → exec (.stackSelfRefreshEntry k) s = .next
      (u.putStack k { u.stack k with selfRef := .entering }).settle)) ∧
  (∀ s k c x far, Live s → k < 16 → x = s.stack k → x.selfRef = .entered → s.pwr.sleep = .waking → s.dev.halt = none →
    far = decide (c - x.entryTemp > 10 ∨ x.entryTemp - c > 10) →
    exec (.stackSelfRefreshExit k c) s = .next (s.putStack k { x with
      selfRef := .none, temp := c, dueAll := true, mowPaused := false
      pchs := (List.range 64).foldl (fun (t : Tbl Pch) p => t.put p { x.pch p with
        trkDue := true, fullDue := far
        retrain := if far then none else (x.pch p).retrain.map fun r => { r with since := s.dev.tick }
        banks := (x.pch p).banks.each fun _ b => { b with refreshed := 0 } }) x.pchs }).settle) ∧
  (∀ s k ok m x d, Live s → k < 16 → x = s.stack k → s.dev.phase = .running → x.failed = false → x.step < 9 → m < 2 ^ 2304 →
    d = s.draw 64 →
    (ok = true →
      (x.step < 5 → exec (.trainingStepDone k ok m) s = .next (s.putStack k { x with step := x.step + 1 }).settle) ∧
      (x.step = 5 → exec (.trainingStepDone k ok m) s = .next
        (d.2.putStack k { x with step := 6, readSet := some d.1, badPins := m }).settle) ∧
      (x.step = 6 → exec (.trainingStepDone k ok m) s = .next
        (d.2.putStack k { x with step := 7, writeSet := some d.1, badPins := Nat.lor x.badPins m }).settle) ∧
      (x.step = 7 → s.repairs k x.badPins = true →
        (x.badPins = 0 → exec (.trainingStepDone k ok m) s = .next (s.putStack k { x with step := 8 }).settle) ∧
        (x.badPins ≠ 0 → exec (.trainingStepDone k ok m) s = .next
          (({ s with stk.lanes := s.stk.lanes.put k (Nat.lor (s.stk.lanes.findD k 0) x.badPins) } : State).putStack k
            { x with step := 8, badPins := 0 }).settle)) ∧
      (x.step = 8 → exec (.trainingStepDone k ok m) s = .next
        (d.2.putStack k { x with step := 9, eyeSet := some d.1 }).settle)) ∧
    (ok = false ∨ x.step = 7 ∧ s.repairs k x.badPins = false →
      (x.attempt < 3 → exec (.trainingStepDone k ok m) s = .next (s.putStack k { x with
        step := 1, attempt := x.attempt + 1, badPins := 0, readSet := none, writeSet := none }).settle) ∧
      (3 ≤ x.attempt → exec (.trainingStepDone k ok m) s = .next (s.failStack k x.step ((List.range 64).foldl (fun n p =>
        Nat.lor n (pinsIn (if x.step = 7 then Nat.lor m x.badPins else m) p)) 0)).settle))) ∧
  (∀ s k u, Live s → k < 16 → s.dev.phase = .running → (s.stack k).failed = false → (s.stack k).step = 9 →
    u = s.putStack k { s.stack k with step := 10 } → exec (.stackInitDone k) s = .next ({ u with
      pool.mem := memZero u.pool.mem (k * 36864 * 2097152) (36864 * 2097152)
      pool.sectors := u.pool.sectors.keep fun n _ => n / stackSectors != k
      pool.wmap := u.pool.wmap.filter fun p => p / (36864 * 32) != k
      ready.stack := setBit u.ready.stack k true } : State).settle) ∧
  (∀ s k p l q u v, Live s → k < 16 → p < 64 → q = s.pch k p → bit q.ctl 0 = true →
    u = (if bits q.ctl 7 6 = 2 then s else (l.take 36).zipIdx.foldl (fun y m => if m.1 = 0 then y else
      y.putPin k p m.2 { y.pinOf k p m.2 with cmp := min 65535 ((y.pinOf k p m.2).cmp + m.1) }) s) →
    v = (u.modPch k p fun y => { y with
      ctl := setBit y.ctl 0 false, running := none
      beats := if bits q.ctl 7 6 = 2 then y.beats else (y.beats + bits y.ctl 63 48 * 1024 * 8) % 2 ^ 48
      training := if bits q.ctl 7 6 = 1 then y.training else some (y.ctl, y.user) }) →
    (q.running = none → exec (.pgenRunDone k p l) s = .next (v.runStack k).settle) ∧
    (∀ c, q.running = some c → exec (.pgenRunDone k p l) s = .next ((v.respondOk c).runStack k).settle)) ∧
  (∀ s k p l es u, Live s → k < 16 → p < 64 → s.stackServes k = true → s.trackDue k p = true →
    es = l.filter (·.pin < 36) → u = es.foldl (fun u e => u.trackPin k p e) s →
    (es.any (·.read < 16) = false ∨ (u.pch k p).retrain.isSome = true ∨
        ((u.stack k).pchs.any fun q => q.2.retrain.isSome) = false ∧ (u.pch k p).fullDue = true →
      exec (.readTracking k p l) s = .next ((u.modPch k p fun q => { q with
        trkDue := false, lastTrk := u.dev.tick, trkTemp := (u.stack k).temp, sinceTrk := 0 }).runStack k).settle) ∧
    (es.any (·.read < 16) = true → ((u.stack k).pchs.any fun q => q.2.retrain.isSome) = false → (u.pch k p).retrain = none →
      (u.pch k p).fullDue = false → exec (.readTracking k p l) s = .next ((u.modPch k p fun q => { q with
        trkDue := false, lastTrk := u.dev.tick, trkTemp := (u.stack k).temp, sinceTrk := 0
        retrain := some { since := u.dev.tick, inSlice := false } }).runStack k).settle) ∧
    (es.any (·.read < 16) = true → ((u.stack k).pchs.any fun q => q.2.retrain.isSome) = true → (u.pch k p).retrain = none →
      exec (.readTracking k p l) s = .next u.settle)) ∧
  (∀ s k p ok l es v, Live s → k < 16 → p < 64 → es = l.filter (·.pin < 36) →
    v = es.foldl (fun u e => u.putPin k p e.pin { u.pinOf k p e.pin with eyeR := e.read, eyeW := e.write, eyeV := e.vref })
      (s.modPch k p fun q => { q with retrain := none, fullDue := false, training := none }) →
    (∀ r, (s.pch k p).retrain = some r → r.inSlice = false → s.stackServes k = true →
      (r.first = none ∨ r.since + 313 ≤ s.dev.tick) → exec (.retrainSliceTimer k p true ok l) s = .next
        (s.modPch k p fun q => { q with retrain := some { since := s.dev.tick, inSlice := true
                                                          first := some (r.first.getD s.dev.tick) } }).settle) ∧
    (((∃ r, (s.pch k p).retrain = some r ∧ r.inSlice = true ∧ (ok = true ∨ es ≠ [])) ∨
        (s.pch k p).retrain = none ∧ (s.pch k p).fullDue = true ∧ s.stackServes k = true) →
      (ok = true → es.any PinEye.small = false → exec (.retrainSliceTimer k p false ok l) s = .next
        ((es.foldl (fun u e => u.retrainPin k p e) v).runStack k).settle) ∧
      (ok = false ∨ es.any PinEye.small = true → exec (.retrainSliceTimer k p false ok l) s = .next
        ((v.recOp 0x020C 7 k (maskOf ((es.filter PinEye.small).map (·.pin))) p).runStack k).settle)) ∧
    (∀ r, (s.pch k p).retrain = some r → r.inSlice = true → ok = false → es = [] →
      exec (.retrainSliceTimer k p false ok l) s = .next
        ((s.modPch k p fun q => { q with retrain := some { r with since := s.dev.tick, inSlice := false } }).runStack k).settle))
/-- Power and policing by the clock (14 R383, R400; 15 R407, R410, R412, R416 to R418; 21 R522): the buckets refill, depths are
sampled, a period divides the cap and sets the limits, the links give or take lanes, the rails' scales follow their readings,
and droops and heat lower what may run. -/
def Obligations.PowerEvents : Prop :=
  (∀ s, Live s → exec .policeRefill s = .next ({ s with
    sch.meters := s.sch.meters.each fun _ m => m.refill
    sch.profs := s.sch.profs.each fun _ m => m.refill
    sch.buckets := s.sch.buckets.each fun _ m => m.refill } : State).settle) ∧
  (∀ s one, Live s → one = (fun (h : Tbl Hist) (kind i t : Nat) => h.put (histKey kind i t) { h.findD (histKey kind i t) {} with
      tick := s.dev.tick, depth := listMod (h.findD (histKey kind i t) {}).depth (depthBin (s.queueDepth kind i t)) (sat32 · 1) }) →
    exec .histDepthSample s = .next ({ s with sch.hists := [0, 1, 2].foldl (fun h kind => (s.queuesOf kind).foldl (fun h i =>
      s.subscribers.foldl (fun h t => one h kind i t) h) h) s.sch.hists } : State).settle) ∧
  (∀ s m b cap fl rails fixed bud₀ ex d bud issue compute mean fl₂, Live s → b = s.pwr.next.getD s.pwr.block →
    cap = 1000 * pbCap b → fl = pbFloors b →
    rails = s.pwr.rails.zipIdx.map (fun x => (x.1.1, { x.1.2 with ests := (m.rails.getD x.2 0 :: x.1.2.ests).take 100 })) →
    fixed = m.fixed + sumOf (rails.zipIdx.map fun x => railExtra cap x.1.2 (m.rails.getD x.2 0)) →
    s.sch.iso = [] → fixed + sumOf fl ≤ cap → bud₀ = divide (pbOrder b) fl m.demand (cap - fixed - sumOf fl) →
    ex = m.estimate.getD 0 0 - bud₀.getD 0 0 →
    (pbOrder b).reverse.find? (fun d => d != 0 && decide (fl.getD d 0 < bud₀.getD d 0)) = some d →
    bud = listSet bud₀ d (max (fl.getD d 0) (bud₀.getD d 0 - ex)) →
    issue = largestFit (fun n => computeAt m n ≤ bud.getD 2 0) 64 →
    compute = (m.estimate.getD 2 0 :: s.pwr.compute).take 10 → mean = sumOf compute / compute.length →
    fl₂ = (if pbGrazeOff b then 0 else
      min (bud.getD 2 0) (max (pbPct b * mean / 100) (m.estimate.getD 2 0 - 1000 * pbSlope b))) →
    exec (.powerPeriod m) s = .next ({ s with
      pwr.block := b, pwr.next := none, pwr.rails := rails, pwr.ests := m.estimate ++ [m.fixed], pwr.budgets := bud
      pwr.issue := issue, pwr.rate := largestFit (fun n => m.demand.getD 1 0 * n / 64 ≤ bud.getD 1 0) 64
      pwr.compute := compute, pwr.floor := fl₂, pwr.isoShort := false
      pwr.grazes := if m.idle ≤ fl₂ ∧ computeAt m issue < fl₂ then s.pwr.grazes + 1 else s.pwr.grazes } : State).settle) ∧
  (∀ s est l tot bud u, Live s → s.sch.iso = [] → est ≠ 0 → l = s.byFlits → tot = sumOf (l.map fun p => (s.port p).w) →
    bud = s.pwr.budgets.getD 0 0 → u = { s with ports := s.ports.each fun _ q => { q with flitsMs := 0 } } →
    (bud < est → exec (.linkPowerDecision est) s = .next (((l.filter fun p => decide (1 < (s.port p).w)).take
      (ceilDiv ((est - bud) * tot) est)).foldl (fun u p => u.retrain p ((u.port p).w - 1) false) u).settle) ∧
    (est ≤ bud → exec (.linkPowerDecision est) s = .next (((l.reverse.filter fun p => decide ((s.port p).w < reachW
      (s.port p).mode (s.port p).wMax (s.port p).tNs ((s.port p).ackTimer * 10))).take ((bud - est) * tot / est)).foldl
      (fun u p => u.retrain p ((u.port p).w + 1) false) u).settle)) ∧
  (∀ s l, Live s → exec (.pmbusTelemetry l) s = .next (l.zipIdx.foldl (fun u x => u.railRead x.2 x.1) s).settle) ∧
  (∀ s i r, Live s → i < 8 → s.pwr.rails.find i = some r →
    (r.frozen = false → r.disagree + 1 < 100 → exec (.pmbusClockTimeout i) s = .next ({ s with
      pwr.rails := s.pwr.rails.put i { r with disagree := r.disagree + 1, agree := 0 } } : State).settle) ∧
    (r.frozen = false → 100 ≤ r.disagree + 1 → exec (.pmbusClockTimeout i) s = .next (({ s with
      pwr.rails := s.pwr.rails.put i { r with disagree := r.disagree + 1, agree := 0, frozen := true } } : State).recOp
        0x0702 12 i (r.m / 1000) 1).settle)) ∧
  (∀ s n k c, Live s → n < 144 → c = min (s.capRate n) (min 64 (ceilDiv k 8 * 8 + 8)) →
    exec (.stationCeilingUpdate n k) s = .next (s.putStation n { s.station n with
      ceiling := if s.pwr.clamp = 0 then c else min 16 c }).settle) ∧
  (∀ s f, Live s → f < 16 → exec (.droopTrip f) s = .next ((List.range 144).foldl
    (fun (u : State) n => u.modStation n fun x => { x with ceiling := min 16 x.ceiling })
    { s with pwr.clamp := setBit s.pwr.clamp f true, pwr.droops := s.pwr.droops + 1
             pwr.window := s.pwr.window + 1 }).settle) ∧
  (∀ s, Live s → exec .droopClampLift s = .next ({ s with pwr.clamp := 0 } : State).settle) ∧
  (∀ s u, Live s →
    (s.pwr.window ≤ 8 → exec .droopWindowEnd s = .next ({ s with pwr.window := 0 } : State).settle) ∧
    (8 < s.pwr.window → u = { s with pwr.window := 0, pwr.droopLvl := min 4 (s.pwr.level + 1), pwr.persisted := true } →
      exec .droopWindowEnd s = .next (u.recAll 0x0703 0 0 0 u.wantLevel 0 0 0 u.wantLevel).relevel.settle)) ∧
  (∀ s (c : Int), Live s →
    (((bits s.fw.thermal 63 56 : Nat) : Int) < c → exec (.thermalReading c) s = .next (s.halt 1).settle) ∧
    (c ≤ ((bits s.fw.thermal 63 56 : Nat) : Int) → ∀ (n : Nat → Nat) (u : State),
      n = (fun p => if p < 4 ∧ c ≤ s.levelLimit p - 3 then min 10 (s.pwr.coolReads.getD p 0 + 1) else 0) →
      u = { s with pwr.coolReads := [n 0, n 1, n 2, n 3] } →
      (s.pwr.thermal < s.allowed c → exec (.thermalReading c) s = .next (u.setThermal (s.allowed c) c).settle) ∧
      (s.allowed c ≤ s.pwr.thermal → ∀ l, l < s.pwr.thermal → (∀ j, l ≤ j → j < s.pwr.thermal → 10 ≤ n j) →
        (0 < l → n (l - 1) < 10) →
        exec (.thermalReading c) s = .next (u.setThermal l c).settle) ∧
      (s.allowed c ≤ s.pwr.thermal → (s.pwr.thermal = 0 ∨ n (s.pwr.thermal - 1) < 10) →
        exec (.thermalReading c) s = .next u.settle))) ∧
  (∀ s, Live s → exec .pmbAlertEdge s = .next ({ s with dev.pmbAlerts := s.dev.pmbAlerts + 1 } : State).settle)

/-- Levels and sleep (15 R404, R405, R420 to R423): lowering sets the clock first and then the voltage, raising the voltage
first; a regulator that does not answer four times is a fault; idle stations and fields sleep, and what wakes them wakes
them; the device wakes once its stacks have left self-refresh and retrained where they must (10 R293), and never from a halt
(01 R26). -/
def Obligations.LevelEvents : Prop :=
  (∀ s c, Live s → s.pwr.change = some c → c.locked = false →
    (s.pwr.level < c.target → s.pwr.fault = false → exec .pllLock s = .next
      (({ s with pwr.level := c.target } : State).writeVolt { c with locked := true }).settle) ∧
    (s.pwr.level < c.target → s.pwr.fault = true → exec .pllLock s = .next
      ({ s with pwr.level := c.target } : State).levelDone.settle) ∧
    (c.target ≤ s.pwr.level → exec .pllLock s = .next (s.raise { c with locked := true }).settle)) ∧
  (∀ s c u, Live s → s.pwr.change = some c → c.written = true → u = { s with pwr.held := voltOf c.target } →
    (s.pwr.level = c.target → exec .regulatorVdone s = .next u.levelDone.settle) ∧
    (s.pwr.level ≠ c.target → exec .regulatorVdone s = .next (u.raise { c with written := false, acked := true }).settle) ∧
    (c.tries < 3 → exec .regulatorAckTimeout s = .next (s.writeVolt c).settle) ∧
    (3 ≤ c.tries → exec .regulatorAckTimeout s = .next (({ s with pwr.fault := true, pwr.change := none } : State).recOp
      0x0701 12 0 s.pwr.held (voltOf c.target)).relevel.settle)) ∧
  (∀ s n x u, Live s → n < 144 → x = s.station n → bit s.pwr.sleepSet 0 = false → s.inService n = true → x.granted = none →
    x.run = none → x.sl1 = false → u = s.putStation n { x with sl1 := true, waking := !x.work.isEmpty } →
    exec (.stationSl1Idle n) s = .next (if (List.range 9).all (fun i => !u.inService (9 * (n / 9) + i) ||
        (u.station (9 * (n / 9) + i)).sl1) = true then
      ({ u with stn.fieldIdle := u.stn.fieldIdle.put (n / 9) s.dev.tick } : State) else u).settle) ∧
  (∀ s f d, Live s → f < 16 → bit s.pwr.sleepSet 1 = false → s.pwr.clamp = 0 → bit s.stn.sl2 f = false →
    (∀ i < 9, s.inService (9 * f + i) = true → (s.station (9 * f + i)).sl1 = true ∧ (s.station (9 * f + i)).waking = false) →
    s.stn.fieldIdle.find f = some d → 2 * d + 3125 * orDefault (bits s.pwr.sleepSet 31 24) 1 ≤ 2 * s.dev.tick →
    exec (.fieldSl2Idle f) s = .next ({ s with stn.sl2 := setBit s.stn.sl2 f true } : State).settle) ∧
  (∀ s n, Live s → n < 144 → (s.station n).sl1 = true → (s.station n).waking = true → bit s.stn.sl2 (n / 9) = false →
    exec (.domainWakeReady (.station n)) s = .next
      ({ s.stationReady n with stn.fieldIdle := s.stn.fieldIdle.del (n / 9) } : State).settle) ∧
  (∀ s f, Live s → f < 16 → bit s.stn.sl2 f = true → bit s.stn.waking f = true →
    exec (.domainWakeReady (.field f)) s = .next ((List.range 9).foldl (fun (u : State) i => u.stationReady (9 * f + i))
      { s with stn.sl2 := setBit s.stn.sl2 f false, stn.waking := setBit s.stn.waking f false
               stn.fieldIdle := s.stn.fieldIdle.del f }).settle) ∧
  (∀ s, Live s → s.pwr.sleep = .waking → s.dev.halt = none →
    (∀ x ∈ s.stk.units, x.2.selfRef = .none ∧ ∀ q ∈ x.2.pchs, q.2.fullDue = false) →
    (s.ready.mgmt = true → exec (.domainWakeReady .device) s = .next
      ({ s with pwr.sleep := .active } : State).releaseWaiting.settle) ∧
    (s.ready.mgmt = false → s.dev.mgmtReset = none → exec (.domainWakeReady .device) s = .next
      ({ s.dropSegments with pwr.sleep := .active, ready.mgmt := true } : State).releaseWaiting.settle)) ∧
  (∀ s p, Live s → s.dev.halt ≠ none →
    (p < 64 → exec (.wakeEvent (.pattern p)) s = .next s.settle) ∧ (p < 2 → exec (.wakeEvent (.ccpFrame p)) s = .next s.settle)) ∧
  (∀ s p u, Live s → s.pwr.sleep = .sl3 ∨ s.pwr.sleep = .sl4 → s.dev.halt = none →
    u = { s with
      pwr.sleep := .waking, pwr.wakeTick := s.dev.tick
      stk.units := s.stk.units.each fun _ (x : Stack) =>
        if x.selfRef == SelfRefresh.entering then { x with selfRef := .none } else x } →
    (p < 64 → s.lightWakes p = true → exec (.wakeEvent (.light p)) s = .next
      (u.putPort p { s.port p with lastLight := none }).settle) ∧
    (p < 64 → exec (.wakeEvent (.pattern p)) s = .next u.settle) ∧
    (p < 2 → (s.eth p).up = true → exec (.wakeEvent (.ccpFrame p)) s = .next u.settle))
/-- Frames (17 R442, R443, R446, R450, R454, R455, R458; 19 R479): an Ethernet frame for this device goes into its intake FIFO
or is answered, any other is counted; the oldest frame of the highest class is taken; a session's frame moves its window; a
fragment takes or fills its mailbox, and the last one begins its command; bulk bytes that fit are taken, by the stage that reads
them where one does, and acknowledged, and others are discarded with the offset that is wanted. -/
def Obligations.FrameEvents : Prop :=
  (∀ s p (f : EthFrame) e, Live s → p < 2 → e = s.eth p → e.up = true → f.kind = 0 → f.fcsOk = true → f.vlan = e.vlan →
    f.dstIp ∈ e.ips → f.dstMac = e.mac → f.udpPort = e.udpPort → 32 ≤ f.udpLen →
    ∀ u busy, u = s.wakeByFrame → busy = (u.attestBusy f.ccp.opcode && (f.ccp.ftype == 0 || (f.ccp.ftype == 2 && f.ccp.tagOk &&
      (u.ctl.sessions.find f.ccp.session).any (·.ver == f.ccp.ccpVer)))) →
    (busy = false → e.fifo.length < 32 → exec (.ethFrameRx p f) s = .next ((u.putEth p { e with
      fifo := e.fifo ++ [{ f.ccp with
        port := p, cls := f.pcp, rsvd := if f.udpLen = ccpLen f.ccp then f.ccp.rsvd else 1 }] }).fifoMarks p).settle) ∧
    (busy = false → 32 ≤ e.fifo.length → exec (.ethFrameRx p f) s = .next (u.countDev 4).settle) ∧
    (busy = true → exec (.ethFrameRx p f) s = .next (if f.ccp.frag = 0 then
      u.intakeAnswer p f.pcp f.ccp.session f.ccp.opcode f.ccp.cmdId 0x0603 else u).settle)) ∧
  (∀ s p (f : EthFrame), Live s → p < 2 → (s.eth p).up = true → f.kind = 0 →
    (f.fcsOk = false ∨ f.vlan ≠ (s.eth p).vlan ∨ f.dstIp ∉ (s.eth p).ips ∨ f.dstMac ≠ (s.eth p).mac ∨
      f.udpPort ≠ (s.eth p).udpPort ∨ f.udpLen < 32) →
    exec (.ethFrameRx p f) s = .next (s.countDev p).settle) ∧
  (∀ s p (f : EthFrame), Live s → p < 2 → (s.eth p).up = true → f.kind = 1 ∨ f.kind = 2 → f.fcsOk = true →
    f.vlan = (s.eth p).vlan → f.dstIp ∈ (s.eth p).ips →
    exec (.ethFrameRx p f) s = .next (s.emit (.ethAnswer p f.kind)).settle) ∧
  (∀ s p f, Live s → p < 2 → s.intakeHolds = false → nextFrame (s.eth p).fifo = some f → exec (.intakeFifoRead p) s = .next
    (((s.putEth p { s.eth p with fifo := (s.eth p).fifo.erase f }).fifoMarks p).takeCcp f).settle) ∧
  (∀ s (f : CcpFrame) v w x, Live s → f.port < 2 → s.ccpAnswers f.port = true → s.ready.mgmt = true → frameBad f = false →
    s.ctl.sessions.find f.session = some v → f.ccpVer = v.ver → f.tagOk = true → seqIn v f.seq = some w →
    f.seq ≠ 2 ^ 32 - 1 → x = { w with port := f.port, idleDue := s.dev.tick + (s.eth f.port).idleUnits * 2 ^ 20 } →
    (∀ mb m y u, f.ftype = 2 → s.intakeBars = none → s.mailboxOf f.session f.cmdId = none →
      isNewCmd x f.cmdId = true ∨ x.cmds.find f.cmdId = some .again → s.freeMailbox f.session = some mb → fragFits f = true →
      m = { session := f.session, cmdId := f.cmdId, opcode := f.opcode, port := f.port, cls := f.cls, total := f.total
            frags := [(f.frag, f.body)], due := s.dev.tick + 1048576 } →
      y = { acceptCmd x f.cmdId with cmds := x.cmds.put f.cmdId .mailbox } →
      u = (s.putSession f.session y).putMailbox mb m →
      (8192 < f.total → exec (.ccpFragment f) s = .next u.settle) ∧
      (f.total ≤ 8192 → exec (.ccpFragment f) s = .next (u.beginWhole mb m y).settle)) ∧
    (∀ mb m n, f.ftype = 2 → s.intakeBars = none → s.mailboxOf f.session f.cmdId = some (mb, m) → m.running = false →
      fragFits f = true → f.opcode = m.opcode → f.total = m.total → m.frags.has f.frag = false →
      n = { m with frags := m.frags.put f.frag f.body, port := f.port, cls := f.cls, due := s.dev.tick + 1048576 } →
      n.frags.length = max 1 (ceilDiv m.total 8192) → exec (.ccpFragment f) s = .next
        (((s.putSession f.session x).putMailbox mb n).beginWhole mb n x).settle) ∧
    (∀ k y u, f.ftype = 4 → s.dev.mgmtReset = none → s.ctl.bulk.find f.cmdId = some k → k.session = f.session →
      f.first = true → f.last = true → f.frag = 0 → 1 ≤ f.length → f.bulkOff = k.offset → k.offset + f.length ≤ k.bytes →
      k.buffer.length + f.length ≤ 262144 → y = k.offset + f.length →
      u = { (s.putSession f.session x).putBulk f.cmdId { k with
              offset := y, buffer := if k.consumer = some .stage then [] else k.buffer ++ f.body
              sinceAck := (k.sinceAck + f.length) % 65536, due := s.dev.tick + 16777216 } with
            fw.staging := if k.consumer = some .stage then s.fw.staging.map (·.take f.body) else s.fw.staging } →
      exec (.bulkFrame f) s = .next (State.setLoadGo (if 65536 ≤ k.sinceAck + f.length ∨ y = k.bytes then
        u.bulkAck f.port f.session f.cmdId y else u) f.cmdId).settle) ∧
    (∀ k u, f.ftype = 4 → s.dev.mgmtReset = none → s.ctl.bulk.find f.cmdId = some k → k.session = f.session →
      (f.first = false ∨ f.last = false ∨ f.frag ≠ 0 ∨ f.length = 0 ∨ f.bulkOff ≠ k.offset ∨ k.bytes < k.offset + f.length ∨
        262144 < k.buffer.length + f.length) → u = (s.putSession f.session x).countDev (2 + f.port) →
      ((∀ t, k.nakTick = some t → t + 64 ≤ s.dev.tick) → exec (.bulkFrame f) s = .next
        ((u.putBulk f.cmdId { k with nakTick := some s.dev.tick }).bulkAck f.port f.session f.cmdId k.offset).settle) ∧
      (∀ t, k.nakTick = some t → s.dev.tick < t + 64 → exec (.bulkFrame f) s = .next u.settle))) ∧
  (∀ s p, Live s → p < 2 → s.dev.phase = .running → s.fw.live.has (0x10 + p) = true → exec (.ethLinkUp p) s = .next
    ((s.putEth p { s.eth p with up := true }).setEthReady p (!(s.eth p).ips.isEmpty)).settle) ∧
  (∀ s p, Live s → p < 2 → exec (.ethLinkDown p) s = .next
    ((s.putEth p { s.eth p with up := false }).setEthReady p false).settle)

/-- CCP by the clock (17 R448, R455, R457, R462, R465): pause frames repeat, what waited too long is dropped, an idle channel
closes, an idle session ends, and a notice tells how many records are unread. -/
def Obligations.ControlTimers : Prop :=
  (∀ s p, Live s → p < 2 → (s.eth p).full = true → (s.eth p).pfcOff = false → (s.eth p).pfcDue ≤ s.dev.tick →
    exec (.pfcRepeatTimer p) s = .next
      ((s.putEth p { s.eth p with pfcDue := s.dev.tick + 200 }).emit (.pfc p 0xFFFF)).settle) ∧
  (∀ s n c late, Live s → late = (fun h : HeldTx => h.session == n && h.cmdId == c && decide (h.due ≤ s.dev.tick)) →
    exec (.pfcPauseExpiry n c) s = .next ({ s with
      ctl.ethA := { s.ctl.ethA with heldTx := s.ctl.ethA.heldTx.filter fun h => !late h
                                    txDropped := s.ctl.ethA.txDropped + (s.ctl.ethA.heldTx.filter late).length }
      ctl.ethB := { s.ctl.ethB with heldTx := s.ctl.ethB.heldTx.filter fun h => !late h
                                    txDropped := s.ctl.ethB.txDropped + (s.ctl.ethB.heldTx.filter late).length } } : State).settle) ∧
  (∀ s n h, Live s → s.ctl.handshakes.find n = some h → h.due ≤ s.dev.tick → exec (.handshakeTimeout n) s = .next
    ({ s with ctl.handshakes := s.ctl.handshakes.del n } : State).settle) ∧
  (∀ s mb m v, Live s → s.ctl.mailboxes.find mb = some m → m.running = false → m.due ≤ s.dev.tick →
    s.ctl.sessions.find m.session = some v → exec (.fragmentTimeout mb) s = .next ((s.delMailbox mb).putSession m.session
      { v with cmds := pruneCmds (v.high.getD 0) (v.cmds.put m.cmdId
        (.kept m.opcode mb ⟨Status.aborted.code, 0x0601, []⟩)) }).settle) ∧
  (∀ s n k, Live s → s.ctl.bulk.find n = some k → k.due ≤ s.dev.tick →
    ((∀ a b c, k.consumer ≠ some (.setLoad a b c)) → exec (.bulkChannelIdle n) s = .next (s.delBulk n).settle) ∧
    (∀ a b c, k.consumer = some (.setLoad a b c) →
      exec (.bulkChannelIdle n) s = .next ((s.delBulk n).respondBad ⟨a, b⟩ .aborted).settle)) ∧
  (∀ s n v, Live s → s.ctl.sessions.find n = some v → v.idleDue ≤ s.dev.tick →
    exec (.ccpSessionIdle n) s = .next (s.endSession n).settle) ∧
  (∀ s n v, Live s → s.ctl.sessions.find n = some v → v.noticeDue = true → s.mgmtUp = true →
    (∀ d, v.noticeTick = some d → d + 64 ≤ s.dev.tick) → exec (.eventNoticeSend n) s = .next
      (((s.putSession n { v with noticeDue := false, noticeTick := some s.dev.tick }).emit
        (.notice v.port n (min (s.unread v) 0xFFFF))).numberFrames n 0).settle)

/-- Boot (01 R14, R20, R26; 19 R477, R478, R482; 20 R500; 21 R517): reset and power loss take the device down from any state, a cold boot
starts the key engine, the key engine chooses its slots and loads the configuration or recovers, management starts; field
tests and resets bind the stations; management restarts after its watchdog. -/
def Obligations.BootEvents : Prop :=
  (∀ s, (s.dev.resetN = true → exec .resetNAssert s = .next (({ s.coldReset .inReset with
      dev.resetN := false } : State).emit (.xspiResetN false)).settle) ∧
    (s.dev.resetN = false → exec .resetNAssert s = .next (s.coldReset .inReset).settle)) ∧
  (∀ s, exec .vddAonLoss s = .next ({ s.coldReset .off with dev.resetN := s.dev.resetN } : State).settle) ∧
  (∀ s b u, s.dev.phase = .inReset ∨ s.dev.phase = .off → u = { s.coldReset .keyBoot with
      fw.unlocked := s.fw.token, fw.token := false, dev.resetN := true, dev.initMode := b, dev.strap := b } →
    (s.dev.resetN = false → exec (.coldBoot b) s = .next (u.emit (.xspiResetN true)).settle) ∧
    (s.dev.resetN = true → exec (.coldBoot b) s = .next u.settle)) ∧
  (∀ s (v : BootVerdict), Live s → s.dev.phase = .keyBoot → v.testsOk = true →
    (∀ u, v.mgmtSlotOk = true → v.keSlotOk = true → s.fw.fusedSec ≤ (s.fw.slot s.fw.mgmtSlot).secVer →
      s.fw.fusedSec ≤ (s.fw.slot s.fw.keSlot).secVer →
      u = { s with fw.runMgmt := s.fw.mgmtSlot, fw.runKe := s.fw.keSlot, ready.keyEngine := true, dev.phase := .keyUp
                   ctl.expActive := 1, ctl.expStaged := 1 } →
      exec (.keyEngineBootDone v) s = .next ((u.resumeHss v.hssReadable).loadConfig v).settle) ∧
    (∀ m k a b c u, s.fw.bootSlot s.fw.mgmtSlot v.mgmtSlotOk v.mgmtOtherOk = some m →
      s.fw.bootSlot s.fw.keSlot v.keSlotOk v.keOtherOk = some k → ¬(s.fw.mgmtSlot = m ∧ s.fw.keSlot = k) →
      a = (if s.fw.mgmtSlot = m then s else s.recOp 0x0002 0 0 0 m) → b = (if s.fw.keSlot = k then a else a.recOp 0x0002 0 0 0 k) →
      c = ({ b with fw.mgmtSlot := m, fw.keSlot := k } : State).writeSlots →
      u = { c with fw.mgmtSlot := m, fw.keSlot := k, fw.runMgmt := m, fw.runKe := k, ready.keyEngine := true, dev.phase := .keyUp
                   ctl.expActive := 1, ctl.expStaged := 1 } →
      exec (.keyEngineBootDone v) s = .next ((u.resumeHss v.hssReadable).loadConfig v).settle) ∧
    (v.mgmtSlotOk = false → v.mgmtOtherOk = false → exec (.keyEngineBootDone v) s = .next (s.recover v.recoverOk).settle)) ∧
  (∀ s g, Live s → s.dev.phase = .keyUp → s.dev.halt = none → g = (s.fab.ngen + 1) % 16 →
    exec .mgmtStart s = .next ({ s with
      dev.phase := .running, ready.mgmt := true, fab.ngen := g, fw.config := s.fw.config.put 0x02 (leBytes g 1)
      fw.live := s.fw.live.put 0x02 (leBytes g 1) } : State).loadRails.relevel.settle) ∧
  (∀ s f m u, Live s → f < 16 → s.dev.phase = .running → bit s.dev.fieldTested f = false →
    u = (bindTested m).zipIdx.foldl (fun (u : State) x => u.modStation (9 * f + x.2) fun y =>
      { y with st := x.1, idleFrom := u.dev.tick }) s →
    exec (.stationTestDone f m) s = .next ({ u with
      dev.fieldTested := setBit u.dev.fieldTested f true, ready.field := setBit u.ready.field f true } : State).assignStations.bindAll.settle) ∧
  (∀ s f, Live s → f < 16 → bit s.dev.fieldReset f = true →
    (∀ j < 9, (s.station (9 * f + j)).run = none ∧ ∀ k, (s.station (9 * f + j)).st ≠ .fenced k) →
    exec (.fieldResetDone f 511) s = .next ({ s with
      dev.fieldReset := setBit s.dev.fieldReset f false, ready.field := setBit s.ready.field f true } : State).assignStations.bindAll.settle) ∧
  (∀ s c, Live s → c < 4 → s.mgmtUp = true → s.dev.halt = none → exec (.mgmtWatchdogExpiry c) s = .next
    (({ s with dev.mgmtReset := some 1, ready.mgmt := false } : State).recAll 0x0001 0 0 0 1 0 0 0 1).settle) ∧
  (∀ s c, Live s → s.dev.mgmtReset = some c → exec .mgmtRestartDone s = .next
    ({ s with dev.mgmtReset := none, ready.mgmt := true } : State).releaseHeld.settle) ∧
  (∀ (s u v w : State) n, Live s → s.dev.halt = none → u = ({ s with dev.halt := some n } : State).recOp 0x0003 0 0 0 n →
    v = (u.ports.filter fun p => p.2.st != .dark && p.2.st != .down).foldl (fun v p => v.portDown p.1 0) u →
    w = { v with stk.units := v.stk.units.each fun _ k => if k.selfRef == .none then { k with selfRef := .entering } else k } →
    (n = 2 → exec .keyEngineWatchdog s = .next w.settle) ∧ (n = 0 → exec .refclkLoss s = .next w.settle))

/-- Firmware by events (19 R486 to R488, R491, R492; 21 R524): a stage ends with the versions of its image, or with the status of the
first step that the package in its channel, or the device, shows to fail; or it runs out of time; the running image
confirms its trial or the trial falls back, and a slot control record is written; the key engine comes back and what was asked of
both goes on; a card leaves. -/
def Obligations.FirmwareEvents : Prop :=
  (∀ s st v n d, Live s → s.fw.staging = some st → st.channel = none →
    (s.fw.fusedSec ≤ n → exec (.fwStageDone (.done v n d)) s = .next ({ s.stageEnd st ⟨.bootable, v, n, d⟩ ⟨0, 0, []⟩ with
      fw.fresh := true } : State).settle) ∧
    (n < s.fw.fusedSec → exec (.fwStageDone (.done v n d)) s = .next
      (s.stageEnd st { state := .failed } ⟨Status.denied.code, reason .policy 0x81, []⟩).settle)) ∧
  (∀ s st ch k v n d, Live s → s.fw.staging = some st → st.channel = some ch → s.ctl.bulk.find ch = some k →
    k.offset = k.bytes →
    (s.pkgFault st k.bytes = none → exec (.fwStageDone (.done v n d)) s = .next
      ({ s.stageEnd st ⟨.bootable, (PkgHeader.read st.head).imgVer, (PkgHeader.read st.head).secVer, d⟩ ⟨0, 0, []⟩ with
        fw.fresh := true } : State).settle) ∧
    (∀ i x, s.pkgFault st k.bytes = some (i, x) → exec (.fwStageDone (.done v n d)) s = .next
      (s.stageEnd st { state := .failed } ⟨x.code, reason (if i = 3 then .dependency else .policy) (0x80 + i), []⟩).settle)) ∧
  (∀ s st i found, Live s → s.fw.staging = some st →
    (∀ j x, s.stageSays st = some (some (j, x)) → st.hasHead = true → i ≤ j) →
    exec (.fwStageDone (.failed i found)) s = .next (s.stageEnd st { state := .failed }
      ⟨(if i = 1 ∨ (i = 2 ∧ found = false) then Status.denied else if i = 3 then .faultVersion else .integrity).code,
        reason (if i = 3 then .dependency else .policy) (0x80 + i), []⟩).settle) ∧
  (∀ s st ch k i j x found, Live s → s.fw.staging = some st → st.channel = some ch → s.ctl.bulk.find ch = some k →
    st.hasHead = true → s.pkgFault st k.bytes = some (j, x) → j < i → exec (.fwStageDone (.failed i found)) s = .next
      (s.stageEnd st { state := .failed } ⟨x.code, reason (if j = 3 then .dependency else .policy) (0x80 + j), []⟩).settle) ∧
  (∀ s st, Live s → s.fw.staging = some st → st.due ≤ s.dev.tick → exec .fwStageTimeout s = .next
    (s.stageEnd st { state := .failed } ⟨Status.timeout.code, 0x0601, []⟩).settle) ∧
  (∀ s n, Live s → s.fw.trial = some n → s.dev.phase = .running → exec .mgmtRunningReport s = .next
    ({ s with fw.trial := none } : State).writeSlots.settle) ∧
  (∀ s n, Live s → s.fw.trial = some n → s.fw.trialDue ≤ s.dev.tick → exec .fwTrialTimeout s = .next
    ((({ s with fw.trial := none, fw.mgmtSlot := n, fw.runMgmt := n } : State).writeSlots.beginMgmtReset
      2).recOp 0x0901 0 0 0 n).settle) ∧
  (∀ s u, Live s → s.dev.keRestart = true → u = { s with dev.keRestart := false, ready.keyEngine := true, fw.activate := none } →
    (∀ n r, s.fw.activate = some (2, n, r) → exec .keActivationDone s = .next (u.activateMgmt n).settle) ∧
    (∀ n r, s.fw.activate = some (1, n, r) → exec .keActivationDone s = .next u.settle)) ∧
  (∀ s u, u = { s with fw.cardIn := false, fw.cardFile := false } →
    (s.fw.staging = none → exec .sdCardRemoval s = .next u.settle) ∧
    (∀ st, s.fw.staging = some st → st.channel = none → exec .sdCardRemoval s = .next
      (u.stageEnd st { state := .failed } ⟨Status.notReady.code, 0x0401, []⟩).settle) ∧
    (∀ st ch, s.fw.staging = some st → st.channel = some ch → exec .sdCardRemoval s = .next u.settle))
/-- A step takes the front command of the queue, and runs it on the state with the queue's rest. Where no command waits, one
tick of the slow clock passes for a live device whose reference runs (the model's choice, log 4), and a device without power
or reference stands still (01 R25, R26). -/
def Obligations.StepTakesFront : Prop :=
  (∀ (c : Instr) (rest : List Instr) (s : State),
    step { s with pending := c :: rest } = exec c { s with pending := rest }) ∧
  (∀ s : State, s.pending = [] → s.dead = true ∨ s.dev.halt = some 0 → step s = .next s) ∧
  (∀ s : State, s.pending = [] → s.dead = false → s.dev.halt ≠ some 0 → step s = .next
    (((({ s with dev.tick := s.dev.tick + 1 } : State).stackTick.cadenceTick.populationTick.echoSecond.releaseTx
      0).releaseTx 1).idleRounds.idleHubs).settle)

/-- Every well-formed command completes in every state: none is refused, and none faults. A device without power or in
reset does nothing for any of them but the four that act on such a device (21 R517, R524, 19 R477; log 19). -/
def Obligations.EveryCommandCompletes : Prop :=
  (∀ i s, i.wf = true → ∃ t, exec i s = .next t) ∧
  (∀ i s, i.wf = true → s.dead = true → i ≠ .resetNAssert → (∀ b, i ≠ .coldBoot b) → i ≠ .vddAonLoss → i ≠ .sdCardRemoval →
    exec i s = .next s)

/-- Whatever command comes next, a sane state stays sane: the loaded formats are legal and in slots 14 to 31, the pool's
memory keeps its canonical form, no event queue holds more than its bound, and the one-time leaves stay in their reserve
(03 R65, 06, 20 R501, 09 R271). -/
def Obligations.StepKeepsSane : Prop := ∀ s t : State, Sane s → step s = .next t → Sane t

/-- What no command takes back: the queue loses only its front, the fused security version and the leaves in use never
fall, what has left the block stays, and no free value is drawn twice (09 R271, 19 R490; log 1 to 3). -/
def Obligations.StepOnward : Prop :=
  ∀ s t : State, Sane s → step s = .next t → t.pending = s.pending.tail ∧ s.fw.fusedSec ≤ t.fw.fusedSec ∧
    s.ten.hssNext ≤ t.ten.hssNext ∧ s.out <:+ t.out ∧ s.draws ≤ t.draws

/-- After reset the state is sane and quiet: nothing waits, no unit is ready, no object is there, the memory lists nothing,
every port is DARK, and the device stands at PL4 without an access-rate limit (19 Table 19-4, 15 R416, 21 R516, 10 R280,
12 R341). -/
def Obligations.ResetState : Prop :=
  Sane State.reset ∧ Quiet State.reset ∧ State.reset.pending = [] ∧ State.reset.ready = {} ∧
  State.reset.dev.phase = .inReset ∧ State.reset.dev.tick = 0 ∧ State.reset.dev.halt = none ∧
  State.reset.ctl.sessions = [] ∧ State.reset.ten.tenants = [] ∧ State.reset.ten.links = [] ∧ State.reset.pool.mem = [] ∧
  State.reset.pool.extents = [] ∧ State.reset.str.streams = [] ∧ State.reset.str.formats = [] ∧
  State.reset.seq.windows = [] ∧ State.reset.seq.contexts = [] ∧ State.reset.com.commons = [] ∧
  (∀ p, (State.reset.port p).st = .dark) ∧ State.reset.pwr.level = 4 ∧ State.reset.pwr.rate = 64 ∧
  State.reset.pair.role = .unpaired ∧ State.reset.pair.enabled = false

/-- Format slots 0 to 13 hold the descriptors of Table 3-3 in every state (03 R65), whatever was loaded, and FORMAT_LOAD cannot
change them: where it names one it is refused with reason class range. -/
def Obligations.FormatsPreloaded : Prop :=
  (∀ (s : State) n, n < 14 → (s.fmt n).desc =
    [0x7F8BA7C1, 0x0F5523C1, 0x7F83A3C1, 0x0741D1C1, 0x0F5131C1, 0x0BFC20000741D1C4, 0x0BFC20000F5131C4,
     0x0BFC200001219144, 0x0BFC200003311144, 0x0BFC2000012090C4, 0x0BFC20FA000011C5, 0x11C2, 0x10C2, 0x11C3].getD n 0) ∧
  (∀ c s x t, Reaches formatLoadSpec c true true s x t → bits c.block 68 64 < 14 →
    exec (.formatLoad c) s = .next (refused t x ⟨RClass.range.status, reason .range 1⟩))

/-- A sector written whole reads back (11 R298, R299, 10 R277): the bytes written, status OK, and nothing changes by the
read but what its bank has been sent (10 R276, R285); in a page that needs no opening no other byte of the pool has changed. -/
def Obligations.SectorReadsBack : Prop :=
  ∀ (s t : State) (n : Nat) (b : List Byte), b.length = 256 → t = (s.writeSector n 0 b false).2 →
    t.keyHeld n (t.secMeta n) = true →
    t.readSector n = (.ok, b, t.touch n false) ∧
    (s.dev.initMode = false ∨ s.written (sectorPage n) = true →
      ∀ a, a < sectorAddr n ∨ sectorAddr n + 256 ≤ a → memAt t.pool.mem a = memAt s.pool.mem a)

/-- A command outside its session's version is refused with UNSUPPORTED and does nothing (00 R2, 18 R466): it is younger than
the session, or its block holds what a later version added. The opcodes a session may send, the version each came with, and
who may send it, are Table 18-6's (CCP_HELLO and CCP_FINISH are handshake frames and no commands of a session). -/
def Obligations.VersionsHold : Prop :=
  (∀ i c spec body sigOk auxOk s x t, (∀ u, exec i u = ccpRowOf spec body c sigOk auxOk u) → Taken spec c sigOk auxOk s x t →
    (x.sess.ver < spec.first → exec i s = .next (refused t x ⟨.unsupported, reason .version 1⟩)) ∧
    (spec.first ≤ x.sess.ver → spec.len c.block c.total = true → (∀ r ∈ spec.resv, bits c.block r.1 r.2 = 0) →
      spec.also c.block = false → spec.old x.sess.ver c.block = true →
      exec i s = .next (refused t x ⟨.unsupported, reason .version 2⟩))) ∧
  (∀ op, (ccpRow op).map (fun r => (op, r.1.first, r.1.op, r.1.tn)) = (
    [(0x0003, 1, true, true), (0x0004, 2, true, true), (0x0005, 1, true, false), (0x0010, 1, true, true),
     (0x0011, 3, true, true), (0x0012, 3, true, true), (0x0020, 1, true, false), (0x0100, 2, true, true),
     (0x0101, 1, true, false), (0x0102, 1, true, false), (0x0103, 1, false, true), (0x0104, 1, true, false),
     (0x0105, 2, false, true), (0x0110, 2, false, true), (0x0120, 3, false, true), (0x0121, 3, false, true),
     (0x0122, 3, false, true), (0x0123, 3, false, true), (0x0124, 3, false, true), (0x0201, 1, true, false),
     (0x0202, 1, true, true), (0x0210, 1, false, true), (0x0211, 1, false, true), (0x0220, 1, false, true),
     (0x0221, 1, false, true), (0x0222, 1, false, true), (0x0223, 1, true, true), (0x0224, 1, true, false),
     (0x0230, 1, false, true), (0x0231, 1, false, true)] ++
    [(0x0240, 3, true, false), (0x0301, 3, false, true), (0x0302, 3, false, true), (0x0303, 3, false, true),
     (0x0310, 3, true, false), (0x0401, 2, false, true), (0x0402, 2, false, true), (0x0403, 2, false, true),
     (0x0404, 3, false, true), (0x0410, 2, true, false), (0x0411, 3, false, true), (0x0420, 2, false, true),
     (0x0421, 2, false, true), (0x0422, 2, false, true), (0x0423, 2, false, true), (0x0424, 2, false, true),
     (0x0425, 2, false, true), (0x0430, 3, false, true), (0x0431, 3, false, true), (0x0432, 3, false, true),
     (0x0433, 3, false, true), (0x0434, 3, false, true), (0x0435, 3, false, true), (0x0501, 2, true, false),
     (0x0502, 2, true, false), (0x0510, 2, true, false), (0x0511, 2, true, false), (0x0512, 2, true, false),
     (0x0520, 2, true, false), (0x0601, 2, true, true)] ++
    [(0x0602, 2, true, false), (0x0603, 3, true, false), (0x0604, 3, true, false), (0x0605, 3, true, false),
     (0x0610, 2, true, true), (0x0701, 1, true, false), (0x0702, 1, true, false), (0x0710, 2, true, false),
     (0x0711, 2, true, false), (0x0801, 3, true, false), (0x0802, 3, true, false), (0x0901, 1, true, false),
     (0x0902, 1, true, false), (0x0903, 1, true, false), (0x0910, 1, true, false), (0x0911, 1, true, false),
     (0x0A01, 1, true, true), (0x0A02, 1, true, true), (0x0A10, 1, true, false), (0x0A11, 1, true, false),
     (0x0A12, 3, true, false), (0x0A13, 3, true, false), (0x0A20, 3, true, false), (0x0A30, 3, true, false),
     (0x0B01, 2, true, true), (0x0B02, 2, true, true), (0x0B03, 2, true, true)]
    ).find? fun r => r.1 == op)

/-- TENANT_DELETE (09 R238): from an operator only, with a block of zeros above the tenant's number, for a tenant without
session, charge and reservation; the tenant is then forgotten. -/
def Obligations.TenantDelete : Prop :=
  ∀ c s x t, Taken tenantDeleteSpec c true true s x t → 1 ≤ x.sess.ver → c.total = 8 → t.passive = false →
    (bits c.block 63 16 ≠ 0 → exec (.tenantDelete c) s = .next (refused t x ⟨.malformed, 0x0103⟩)) ∧
    (bits c.block 63 16 = 0 → x.isOp = false → exec (.tenantDelete c) s = .next (refused t x ⟨.denied, reason .policy 1⟩)) ∧
    (bits c.block 63 16 = 0 → x.isOp = true → ∀ v, t.tenantOf (bits c.block 15 0) = some v →
      (v.sess ≠ .closed ∨ t.charge (bits c.block 15 0) ≠ 0 ∨ v.reserve ≠ 0 →
        exec (.tenantDelete c) s = .next (refused t x ⟨RClass.state.status, reason .state 1⟩)) ∧
      (v.sess = .closed → t.charge (bits c.block 15 0) = 0 → v.reserve = 0 →
        exec (.tenantDelete c) s = .next (answer (t.forgetTenant (bits c.block 15 0)) x [])))
end
end

