-- ==== Sys2Proof/Laws/Memory.lean ====
section
/-! SUPPORT. Memory.lean: the canonical form of the memory behind the pool is kept by every operation on it, and a byte
reads as it was last written. -/

namespace Sys2Proof.Machine

/-- Cells in address order. -/
abbrev inOrder (m : List Host.Cell) : Prop := m.Pairwise fun a b => a.1 < b.1

theorem rising_iff (m : List Host.Cell) : rising m = true ↔ inOrder m := by
  induction m with
  | nil => simp [rising]
  | cons a l ih =>
    cases l with
    | nil => simp [rising]
    | cons b r =>
      have up : inOrder (b :: r) → a.1 < b.1 → ∀ c ∈ r, a.1 < c.1 := fun h hab c hc =>
        Nat.lt_trans hab (List.rel_of_pairwise_cons h hc)
      simp only [rising, Bool.and_eq_true, decide_eq_true_eq, ih, List.pairwise_cons, List.forall_mem_cons]
      refine ⟨fun h => ⟨⟨h.1, up (List.pairwise_cons.mpr h.2) h.1⟩, h.2⟩, fun h => ⟨h.1.1, h.2⟩⟩

theorem Memory.wf_iff (m : List Host.Cell) : Memory.wf m = true ↔ inOrder m ∧ ∀ c ∈ m, c.2 ≠ 0 := by
  simp [Memory.wf, rising_iff]

theorem Memory.wf_nil : Memory.wf [] = true := rfl

/-- The cells that lie in a window of addresses. -/
def Within (lo hi : Nat) (m : List Host.Cell) : Prop := ∀ c ∈ m, lo ≤ c.1 ∧ c.1 < hi

/-- Every listed cell is above an address. -/
def Above (lo : Nat) (m : List Host.Cell) : Prop := ∀ c ∈ m, lo ≤ c.1

/-- Every listed cell is below an address. -/
def Below (hi : Nat) (m : List Host.Cell) : Prop := ∀ c ∈ m, c.1 < hi

theorem below_filter (m : List Host.Cell) (a : Nat) : Below a (m.filter fun c => c.1 < a) := by
  intro c hc
  simpa using (List.mem_filter.mp hc).2

theorem above_filter (m : List Host.Cell) (a : Nat) : Above a (m.filter fun c => a ≤ c.1) := by
  intro c hc
  simpa using (List.mem_filter.mp hc).2

theorem Memory.wf_filter {m : List Host.Cell} (p : Host.Cell → Bool) (h : Memory.wf m = true) :
    Memory.wf (m.filter p) = true := by
  rw [Memory.wf_iff] at h ⊢
  exact ⟨h.1.filter p, fun c hc => h.2 c (List.mem_filter.mp hc).1⟩

/-- A canonical stretch set above another one is canonical with it. -/
theorem Memory.wf_append {x y : List Host.Cell} {a : Nat} (hx : Memory.wf x = true) (hy : Memory.wf y = true) (bx : Below a x)
    (ay : Above a y) : Memory.wf (x ++ y) = true := by
  rw [Memory.wf_iff] at hx hy ⊢
  refine ⟨List.pairwise_append.mpr ⟨hx.1, hy.1, fun c hc d hd => Nat.lt_of_lt_of_le (bx c hc) (ay d hd)⟩, fun c hc => ?_⟩
  exact (List.mem_append.mp hc).elim (hx.2 c) (hy.2 c)

theorem Above.mono {x : List Host.Cell} {a b : Nat} (h : Above b x) (hab : a ≤ b) : Above a x :=
  fun c hc => Nat.le_trans hab (h c hc)

theorem Above.append {x y : List Host.Cell} {a : Nat} (hx : Above a x) (hy : Above a y) : Above a (x ++ y) :=
  fun c hc => (List.mem_append.mp hc).elim (hx c) (hy c)

theorem Within.above {x : List Host.Cell} {a b : Nat} (h : Within a b x) : Above a x := fun c hc => (h c hc).1
theorem Within.below {x : List Host.Cell} {a b : Nat} (h : Within a b x) : Below b x := fun c hc => (h c hc).2

/-- What replaces the cells of a window keeps the canonical form, where it is canonical and lies in the window. -/
theorem Memory.wf_splice {m y : List Host.Cell} {a b : Nat} (h : Memory.wf m = true) (hy : Memory.wf y = true)
    (hw : Within a b y) (hab : a ≤ b) :
    Memory.wf ((m.filter fun c => c.1 < a) ++ y ++ m.filter fun c => b ≤ c.1) = true := by
  rw [List.append_assoc]
  have up := above_filter m b
  exact Memory.wf_append (Memory.wf_filter _ h)
    (Memory.wf_append hy (Memory.wf_filter _ h) hw.below up) (below_filter m a) (hw.above.append (up.mono hab))

/-- The cells that bytes make stand in order at the addresses of the bytes, and none of them is zero. -/
theorem newCells_within (a : Nat) (b : List Byte) : Within a (a + b.length) (newCells a b) ∧ Memory.wf (newCells a b) = true := by
  induction b generalizing a with
  | nil => exact ⟨nofun, rfl⟩
  | cons x r ih =>
    have hr := ih (a + 1)
    rw [show a + 1 + r.length = a + (x :: r).length by simp only [List.length_cons]; omega] at hr
    have low : Within a (a + (x :: r).length) (newCells (a + 1) r) := fun c hc =>
      ⟨Nat.le_of_succ_le (hr.1 c hc).1, (hr.1 c hc).2⟩
    by_cases hx : x = 0
    · simpa [newCells, hx] using And.intro low hr.2
    · have hn : (x == 0) = false := by simpa using hx
      have one : Memory.wf [(a, x)] = true := by
        simp only [Memory.wf, rising, List.all_cons, List.all_nil, bne, hn, Bool.not_false, Bool.and_self]
      have join := Memory.wf_append one hr.2 (a := a + 1) (by simp [Below]) hr.1.above
      refine ⟨?_, by simpa only [newCells, hn, Bool.false_eq_true, if_false, List.singleton_append] using join⟩
      simp only [newCells, hn, Bool.false_eq_true, if_false]
      exact List.forall_mem_cons.mpr ⟨⟨Nat.le_refl a, by simp⟩, low⟩

theorem newCells_mem {a : Nat} {b : List Byte} {c : Host.Cell} (h : c ∈ newCells a b) :
    a ≤ c.1 ∧ c.1 < a + b.length ∧ c.2 ≠ 0 :=
  let w := newCells_within a b
  ⟨(w.1 c h).1, (w.1 c h).2, ((Memory.wf_iff _).mp w.2).2 c h⟩

theorem memWrite_wf {m : List Host.Cell} (a : Nat) (b : List Byte) (h : Memory.wf m = true) :
    Memory.wf (memWrite m a b) = true :=
  let w := newCells_within a b
  Memory.wf_splice h w.2 w.1 (Nat.le_add_right _ _)

theorem memZero_wf {m : List Host.Cell} (a len : Nat) (h : Memory.wf m = true) : Memory.wf (memZero m a len) = true := by
  simpa [memZero] using Memory.wf_splice (y := []) h rfl (a := a) (b := a + len) nofun (Nat.le_add_right _ _)

theorem memMove_wf {m : List Host.Cell} (src dst len : Nat) (h : Memory.wf m = true) :
    Memory.wf (memMove m src dst len) = true := by
  let mine := (m.filter fun c => src ≤ c.1 && c.1 < src + len).map fun c => (c.1 - src + dst, c.2)
  have from' : ∀ c ∈ mine, ∃ x ∈ m, src ≤ x.1 ∧ x.1 < src + len ∧ c = (x.1 - src + dst, x.2) := by
    intro c hc
    obtain ⟨x, hx, rfl⟩ := List.mem_map.mp hc
    have := (List.mem_filter.mp hx).2
    exact ⟨x, (List.mem_filter.mp hx).1, by simpa [and_assoc] using this⟩
  have hin : Within dst (dst + len) mine := by
    intro c hc
    obtain ⟨x, -, h1, h2, rfl⟩ := from' c hc
    dsimp only
    omega
  have hmine : Memory.wf mine = true := by
    have hm := (Memory.wf_iff m).mp h
    refine (Memory.wf_iff mine).mpr ⟨List.pairwise_map.mpr ((hm.1.filter _).imp_of_mem fun hx hy hxy => ?_), fun c hc => ?_⟩
    · have hx := (List.mem_filter.mp hx).2
      simp only [Bool.and_eq_true, decide_eq_true_eq] at hx
      dsimp only
      omega
    · obtain ⟨x, hx, -, -, rfl⟩ := from' c hc
      exact hm.2 x hx
  exact Memory.wf_splice (Memory.wf_filter _ h) hmine hin (Nat.le_add_right _ _)

/-- A byte past the cells of the first list is read in the second. -/
theorem memAt_app (x y : List Host.Cell) (a) (h : ∀ c ∈ x, c.1 ≠ a) : memAt (x ++ y) a = memAt y a := by
  have : x.find? (fun c => c.1 == a) = none := by rw [List.find?_eq_none]; intro c hc; simp [h c hc]
  simp [memAt, List.find?_append, this]

/-- A byte that the second list does not hold is read in the first. -/
theorem memAt_app' (x y : List Host.Cell) (a) (h : ∀ c ∈ y, c.1 ≠ a) : memAt (x ++ y) a = memAt x a := by
  have : y.find? (fun c => c.1 == a) = none := by rw [List.find?_eq_none]; intro c hc; simp [h c hc]
  simp [memAt, List.find?_append, this]

/-- A filter that keeps the cells of an address does not change what is read there. -/
theorem memAt_filter (x : List Host.Cell) (p : Host.Cell → Bool) (a) (h : ∀ c ∈ x, c.1 = a → p c = true) : memAt (x.filter p) a = memAt x a := by
  induction x with
  | nil => rfl
  | cons c x ih =>
    have ih := ih (fun d hd => h d (by simp [hd]))
    by_cases hc : c.1 = a
    · have := h c (by simp) hc
      simp [memAt, List.filter, this, hc]
    · by_cases hp : p c = true
      · simp only [List.filter, hp]
        have e : (c.1 == a) = false := by simpa using hc
        simp only [memAt, List.find?, e] at ih ⊢; exact ih
      · have hp : p c = false := by simpa using hp
        have e : (c.1 == a) = false := by simpa using hc
        simp only [List.filter, hp]
        simp only [memAt, List.find?, e] at ih ⊢; exact ih

/-- The cells of a run of bytes read as the bytes. -/
theorem newCells_at (a : Nat) (b : List Byte) (i) (hi : i < b.length) : memAt (newCells a b) (a + i) = b.getD i 0 := by
  induction b generalizing a i with
  | nil => simp at hi
  | cons c b ih =>
    cases i with
    | zero =>
      simp only [newCells]
      split
      · rename_i h
        have : memAt (newCells (a+1) b) a = 0 := by
          have : (newCells (a+1) b).find? (fun c => c.1 == a) = none := by
            rw [List.find?_eq_none]; intro d hd
            have := newCells_mem hd
            simp; omega
          simp [memAt, this]
        have h : c = 0 := by simpa using h
        simp [this, h]
      · simp [memAt]
    | succ i =>
      have := ih (a+1) i (by simpa using hi)
      simp only [newCells]
      split
      · rw [show a + (i+1) = a + 1 + i by omega, this]; simp
      · have e : memAt ((a, c) :: newCells (a+1) b) (a + (i+1)) = memAt (newCells (a+1) b) (a+1+i) := by
          simp only [memAt, List.find?]
          have : (a == a + (i+1)) = false := by simp
          rw [show a + (i+1) = a + 1 + i by omega] at this ⊢
          simp only [this]
        rw [e, this]; simp

/-- A write leaves every other byte. -/
theorem memAt_write (m : List Host.Cell) (a : Nat) (b : List Byte) (x) (h : x < a ∨ a + b.length ≤ x) : memAt (memWrite m a b) x = memAt m x := by
  unfold memWrite
  have h1 : ∀ c ∈ newCells a b, c.1 ≠ x := by
    intro c hc; have := newCells_mem hc; omega
  rw [List.append_assoc]
  rcases h with h | h
  · rw [memAt_app' _ _ _ (by
      intro c hc
      rcases List.mem_append.1 hc with hc | hc
      · exact h1 c hc
      · have := (List.mem_filter.1 hc).2; simp at this; omega)]
    exact memAt_filter _ _ _ (by intro c _ hc; simp; omega)
  · rw [memAt_app _ _ _ (by intro c hc; have := (List.mem_filter.1 hc).2; simp at this; omega), memAt_app _ _ _ h1]
    exact memAt_filter _ _ _ (by intro c _ hc; simp; omega)

/-- A read after a write of the same place gives what was written. -/
theorem memRead_write (m : List Host.Cell) (a : Nat) (b : List Byte) : memRead (memWrite m a b) a b.length = b := by
  apply List.ext_getElem
  · simp [memRead]
  · intro i h1 h2
    simp only [memRead, List.getElem_map, List.getElem_range]
    rw [memAt_filter _ _ _ (by intro c _ hc; simp; omega)]
    unfold memWrite
    rw [List.append_assoc, memAt_app _ _ _ (by intro c hc; have := (List.mem_filter.1 hc).2; simp at this; omega)]
    rw [memAt_app' _ _ _ (by intro c hc; have := (List.mem_filter.1 hc).2; simp at this; omega), newCells_at _ _ _ h2]
    simp [h2]

/-- `t` differs from `s` at most in the contents of the memory and in what its stacks count of the accesses: its bytes, what its
sectors hold beside them, which pages have been written, and the stacks. -/
def OnlyContents (s t : State) : Prop :=
  t = { s with pool.mem := t.pool.mem, pool.sectors := t.pool.sectors, pool.wmap := t.pool.wmap, stk := t.stk }

theorem OnlyContents.refl (s : State) : OnlyContents s s := rfl

theorem OnlyContents.trans {s t u : State} (h : OnlyContents s t) (k : OnlyContents t u) : OnlyContents s u := by
  unfold OnlyContents at h k ⊢
  rw [h] at k
  exact k

theorem OnlyContents.foldl {α : Type} {f : State → α → State} (h : ∀ s a, OnlyContents s (f s a)) (l : List α) (s : State) :
    OnlyContents s (l.foldl f s) := by
  induction l generalizing s with
  | nil => exact .refl s
  | cons a l ih => exact (h s a).trans (ih _)

theorem putSector_contents (s : State) (n : Nat) (m : SecMeta) : OnlyContents s (s.putSector n m) := rfl
theorem touch_contents (s : State) (n : Nat) (w : Bool) : OnlyContents s (s.touch n w) := rfl

theorem setSecMeta_contents (s : State) (n : Nat) (m : SecMeta) : OnlyContents s (s.setSecMeta n m) := by
  unfold State.setSecMeta
  split <;> rfl

/-- Opening a page touches contents only. -/
theorem openPage_contents (s : State) (p : Nat) : OnlyContents s (s.openPage p) := by
  have put : ∀ (m : SecMeta) (u : State), OnlyContents u ((List.range 256).foldl (fun s i => s.putSector (p * 256 + i) m) u) :=
    fun m u => OnlyContents.foldl (fun s i => putSector_contents s _ m) _ u
  have sent : ∀ u : State, OnlyContents u ((List.range 256).foldl (fun s i => s.touch (p * 256 + i) true) u) :=
    fun u => OnlyContents.foldl (fun s i => touch_contents s _ true) _ u
  unfold State.openPage
  split
  · rfl
  · dsimp only
    split
    · rfl
    · split
      · exact OnlyContents.trans (by rfl) (sent _)
      · exact OnlyContents.trans (OnlyContents.trans (by rfl) (sent _)) (put _ _)

/-- A whole sector written touches contents only, and is OK whatever the sector held. -/
theorem writeSector_whole (s : State) (n : Nat) (b : List Byte) (bad : Bool) (h : 256 ≤ b.length) :
    (s.writeSector n 0 b bad).1 = .ok ∧ OnlyContents s (s.writeSector n 0 b bad).2 := by
  have e : (decide (256 ≤ b.length)) = true := by simp [h]
  simp only [State.writeSector, e, beq_self_eq_true, Bool.and_self, if_true, State.secEffect, State.readTouch]
  exact ⟨rfl, ((openPage_contents s (sectorPage n)).trans (by rfl)).trans (setSecMeta_contents _ _ _)⟩

/-- Whole sectors written one after another touch contents only. -/
theorem writeBytes_whole (k : Nat) (fuel : Nat) (s : State) (a : Nat) (b : List Byte) (bad : Bool) (ha : a % 256 = 0)
    (hb : b.length = 256 * k) : (s.writeBytes a b bad fuel).1 = .ok ∧ OnlyContents s (s.writeBytes a b bad fuel).2 := by
  induction k generalizing fuel s a b with
  | zero =>
    have : b = [] := List.eq_nil_of_length_eq_zero hb
    subst this
    cases fuel <;> exact ⟨rfl, .refl s⟩
  | succ k ih =>
    cases fuel with
    | zero => exact ⟨rfl, .refl s⟩
    | succ fuel =>
      cases b with
      | nil => simp at hb
      | cons c b =>
        simp only [State.writeBytes, ha, Nat.sub_zero]
        have h1 := writeSector_whole s (a / 256) ((c :: b).take 256) bad (by rw [List.length_take, hb]; omega)
        have h2 := ih fuel (s.writeSector (a / 256) 0 ((c :: b).take 256) bad).2 (a + 256) ((c :: b).drop 256) (by omega)
          (by rw [List.length_drop, hb]; omega)
        rw [h1.1, h2.1]
        exact ⟨rfl, .trans h1.2 h2.2⟩

/-- A page or another run of whole sectors stored touches contents only. -/
theorem store_whole (s : State) (a k : Nat) (b : List Byte) (bad : Bool) (ha : a % 256 = 0) (hb : b.length = 256 * k) :
    (s.store a b bad).1 = .ok ∧ OnlyContents s (s.store a b bad).2 :=
  writeBytes_whole k _ s a b bad ha hb

end Sys2Proof.Machine
end

