-- ==== Sys2Proof/Laws/Tables.lean ====
section
/-! SUPPORT. Tables.lean: reading a table after a write, a removal or a change. -/

namespace Sys2Proof.Machine

variable {α : Type}

@[simp] theorem Tbl.find_put_same (t : Tbl α) (k : Nat) (v : α) : (t.put k v).find k = some v := by
  induction t with
  | nil => simp [Tbl.put, Tbl.find]
  | cons e t ih =>
    by_cases h1 : k < e.1
    · simp [Tbl.put, Tbl.find, h1]
    · by_cases h2 : k = e.1
      · simp [Tbl.put, Tbl.find, h2]
      · simp [Tbl.put, Tbl.find, h1, h2, ih, Ne.symm h2]

/-- The later of two values put at a key stays. -/
@[simp] theorem Tbl.put_put (t : Tbl α) (k : Nat) (v w : α) : (t.put k v).put k w = t.put k w := by
  induction t with
  | nil => simp [Tbl.put]
  | cons e t ih =>
    by_cases h1 : k < e.1
    · simp [Tbl.put, h1]
    · by_cases h2 : k = e.1 <;> simp [Tbl.put, h1, h2, ih]

/-- What stands at a key is what was last put there; other keys are untouched. -/
theorem Tbl.find_put_other (t : Tbl α) {k j : Nat} (v : α) (h : j ≠ k) : (t.put k v).find j = t.find j := by
  induction t with
  | nil => simp [Tbl.put, Tbl.find, h.symm]
  | cons e t ih =>
    by_cases h1 : k < e.1
    · simp [Tbl.put, Tbl.find, h1, h.symm]
    · by_cases h2 : k = e.1
      · simp [Tbl.put, Tbl.find, h2, h2 ▸ h.symm]
      · simp [Tbl.put, Tbl.find, h1, h2, ih]

theorem Tbl.find_del_other (t : Tbl α) {k j : Nat} (h : j ≠ k) : (t.del k).find j = t.find j := by
  induction t with
  | nil => rfl
  | cons e t ih =>
    by_cases he : e.1 = k
    · simp [Tbl.del, Tbl.find, he, h.symm]
    · simp [Tbl.del, Tbl.find, he, ih]

/-- Keys rise strictly. -/
def Tbl.Rising (t : Tbl α) : Prop := t.Pairwise fun a b => a.1 < b.1

theorem Tbl.find_none_of_lt {t : Tbl α} {k : Nat} (h : ∀ e ∈ t, k < e.1) : t.find k = none := by
  induction t with
  | nil => rfl
  | cons e t ih => simp [Tbl.find, Nat.ne_of_gt (h e (by simp)), ih fun x hx => h x (by simp [hx])]

theorem Tbl.find_del_same {t : Tbl α} {k : Nat} (h : t.Rising) : (t.del k).find k = none := by
  induction t with
  | nil => rfl
  | cons e t ih =>
    by_cases he : e.1 = k
    · simpa [Tbl.del, he] using Tbl.find_none_of_lt fun x hx => he ▸ List.rel_of_pairwise_cons h hx
    · simpa [Tbl.del, Tbl.find, he] using ih h.of_cons

theorem Tbl.put_mem {t : Tbl α} {k : Nat} {v : α} {e : Nat × α} (h : e ∈ t.put k v) : e = (k, v) ∨ e ∈ t := by
  induction t with
  | nil => simpa [Tbl.put] using h
  | cons a t ih =>
    by_cases h1 : k < a.1
    · simpa [Tbl.put, h1] using h
    · by_cases h2 : k = a.1 <;> simp [Tbl.put, h1, h2] at h <;> grind

theorem Tbl.del_mem {t : Tbl α} {k : Nat} {e : Nat × α} (h : e ∈ t.del k) : e ∈ t := by
  induction t with
  | nil => exact h
  | cons a t ih => by_cases ha : a.1 = k <;> simp [Tbl.del, ha] at h <;> grind

/-- A write keeps the keys rising. -/
theorem Tbl.put_rising {t : Tbl α} {k : Nat} {v : α} (h : t.Rising) : (t.put k v).Rising := by
  induction t with
  | nil => exact List.pairwise_singleton _ _
  | cons e t ih =>
    have hl := fun x hx => List.rel_of_pairwise_cons (a' := x) h hx
    by_cases h1 : k < e.1
    · have : ∀ a b, (a, b) ∈ t → k < a := fun a b hx => Nat.lt_trans h1 (hl (a, b) hx)
      simpa [Tbl.put, h1, Tbl.Rising] using ⟨this, fun a b hx => hl (a, b) hx, h.of_cons⟩
    · by_cases h2 : k = e.1
      · subst h2
        simpa [Tbl.put, Tbl.Rising] using List.pairwise_cons.mp h
      · have : ∀ a b, (a, b) ∈ Tbl.put t k v → e.1 < a := fun a b hx =>
          (Tbl.put_mem hx).elim (fun hk => by cases hk; omega) (hl (a, b))
        simpa [Tbl.put, h1, h2, Tbl.Rising] using ⟨this, ih h.of_cons⟩

/-- A removal keeps the keys rising. -/
theorem Tbl.del_rising {t : Tbl α} {k : Nat} (h : t.Rising) : (t.del k).Rising := by
  suffices hs : ∀ u : Tbl α, (u.del k).Sublist u from List.Pairwise.sublist (hs t) h
  intro u
  induction u with
  | nil => exact List.nil_sublist _
  | cons e u ih => by_cases he : e.1 = k <;> simp [Tbl.del, he, ih]

end Sys2Proof.Machine
end

