-- ==== Sys2Proof/Laws/Kept.lean ====
section
/-! SUPPORT. Kept.lean: `Kept r t` says that `t`, reached from `r`, is sane and has kept the queue, the fused security
version and the one-time leaves of `r`; with the rules by which one goes through a definition's text. -/

namespace Sys2Proof.Machine

/-- What never turns back: the fused version, the one-time leaves, what has left the block, the free values drawn. -/
def Onward (r t : State) : Prop :=
  r.fw.fusedSec ≤ t.fw.fusedSec ∧ r.ten.hssNext ≤ t.ten.hssNext ∧ r.out <:+ t.out ∧ r.draws ≤ t.draws

/-- A state reached from `r`: its queue untouched, nothing turned back, and sane. -/
def Kept (r t : State) : Prop := t.pending = r.pending ∧ Onward r t ∧ Sane t

/-- The same of what a CCP command's body answers. -/
def KeptOut (r : State) (o : CcpOut) : Prop := Kept r o.s ∧ ∀ t, Kept r t → Kept r (o.after t)

/-- The same of a CCP command's body. -/
def BodyKeeps (r : State) (b : CcpBody) : Prop := ∀ c s, Kept r s → KeptOut r (b c s)

/-- The same of every row of a command table. -/
def BodiesKeep (r : State) (l : List (CcpSpec × CcpBody)) : Prop := ∀ x ∈ l, BodyKeeps r x.2

theorem BodiesKeep.nil {r : State} : BodiesKeep r [] := nofun
theorem BodiesKeep.cons {r : State} {a : CcpSpec} {b : CcpBody} {l : List (CcpSpec × CcpBody)} (h : BodyKeeps r b)
    (hl : BodiesKeep r l) : BodiesKeep r ((a, b) :: l) := List.forall_mem_cons.mpr ⟨h, hl⟩
theorem BodiesKeep.append {r : State} {l m : List (CcpSpec × CcpBody)} (hl : BodiesKeep r l) (hm : BodiesKeep r m) :
    BodiesKeep r (l ++ m) := List.forall_mem_append.mpr ⟨hl, hm⟩

/-- No check fails exactly when each one passes. -/
theorem firstRefuse_none {l : List (Bool × Refuse)} (h : firstRefuse l = none) : ∀ x ∈ l, x.1 = false := by
  induction l with
  | nil => nofun
  | cons a l ih =>
    obtain ⟨_ | _, e⟩ := a
    · exact List.forall_mem_cons.mpr ⟨rfl, ih h⟩
    · exact nomatch h

/-- Nothing said of a value. -/
def Any {α : Type} (_ : α) : Prop := True
/-- Something said of each part of a pair. -/
def PairAll {α β : Type} (p : α → Prop) (w : β → Prop) (x : α × β) : Prop := p x.1 ∧ w x.2
/-- Something said of what an option holds. -/
def OptAll {α : Type} (p : α → Prop) : Option α → Prop
  | none => True
  | some a => p a
/-- Something said of each outcome. -/
def ExcAll {α β : Type} (p : α → Prop) (w : β → Prop) : Except α β → Prop
  | .error a => p a
  | .ok b => w b

theorem OptAll.any {α : Type} {o : Option α} : OptAll Any o := by cases o <;> exact trivial
theorem OptAll.map {α β : Type} {p : α → Prop} {w : β → Prop} {f : α → β} {o : Option α} (h : ∀ a, p a → w (f a))
    (ho : OptAll p o) : OptAll w (o.map f) := by cases o <;> first | exact trivial | exact h _ ho
theorem OptAll.mk {α β : Type} {w : β → Prop} {f : α → β} {o : Option α} (h : ∀ a, w (f a)) : OptAll w (o.map f) := by
  cases o <;> first | exact trivial | exact h _
theorem OptAll.getD {α : Type} {p : α → Prop} {o : Option α} {d : α} (h : OptAll p o) (hd : p d) : p (o.getD d) := by
  cases o <;> assumption
theorem via {α : Type} {p : α → Prop} {a b : α} (e : a = b) (h : p a) : p b := e ▸ h

theorem ite_keep {α : Type} {p : α → Prop} {c : Prop} [Decidable c] {a b : α} (ha : p a) (hb : p b) :
    p (if c then a else b) := by by_cases h : c <;> simp only [h, if_true, if_false, ha, hb]

theorem foldl_keep {α β : Type} {p : β → Prop} {g : β → α → β} {l : List α} {b : β} (h : ∀ z a, p z → p (g z a)) (hb : p b) :
    p (l.foldl g b) := List.foldlRecOn l g hb fun z hz a _ => h z a hz

theorem Kept.foldl {r : State} {α : Type} {g : State → α → State} {l : List α} {b : State}
    (h : ∀ z a, Kept r z → Kept r (g z a)) (hb : Kept r b) : Kept r (l.foldl g b) := foldl_keep (p := Kept r) h hb

theorem Onward.refl (s : State) : Onward s s := ⟨Nat.le_refl _, Nat.le_refl _, List.suffix_refl _, Nat.le_refl _⟩

theorem Kept.refl {s : State} (h : Sane s) : Kept s s := ⟨rfl, Onward.refl s, h⟩
theorem Kept.pending {r s : State} (h : Kept r s) : s.pending = r.pending := h.1
theorem Kept.onward {r s : State} (h : Kept r s) : Onward r s := h.2.1
theorem Kept.sane {r s : State} (h : Kept r s) : Sane s := h.2.2
theorem Kept.formats {r s : State} (h : Kept r s) : FormatsLegal s.str.formats := h.2.2.1
theorem Kept.wf {r s : State} (h : Kept r s) : Memory.wf s.pool.mem = true := h.2.2.2.1
theorem Kept.queues {r s : State} (h : Kept r s) : QueuesBounded s.log := h.2.2.2.2.1
theorem Kept.leaves {r s : State} (h : Kept r s) : LeavesKept s.ten := h.2.2.2.2.2

/-- A free value has been drawn. -/
theorem Kept.drawn {r s : State} (h : Kept r s) : Kept r { s with draws := s.draws + 1 } :=
  ⟨h.1, ⟨h.2.1.1, h.2.1.2.1, h.2.1.2.2.1, Nat.le_succ_of_le h.2.1.2.2.2⟩, h.2.2⟩

/-- What `Kept` looks at beside the memory and the event queues. -/
def State.core (s : State) : List Instr × Nat × Nat × Nat × Nat × List Output × Nat × Tbl Nat :=
  (s.pending, s.fw.fusedSec, s.ten.hssNext, s.ten.hssLimit, s.ten.hssMark, s.out, s.draws, s.str.formats)

/-- A state that differs from one already kept at most in its memory, its event queues and what `Kept` does not look at. -/
theorem Kept.ofCore {r s t : State} (h : Kept r s) (hm : Memory.wf t.pool.mem = true) (hl : QueuesBounded t.log)
    (e : t.core = s.core) : Kept r t := by
  simp only [State.core, Prod.mk.injEq] at e
  obtain ⟨e1, e2, e3, e4, e5, e6, e7, e8⟩ := e
  simpa only [Kept, Onward, Sane, LeavesKept, e1, e2, e3, e4, e5, e6, e7, e8] using
    ⟨h.1, h.2.1, h.formats, hm, hl, h.leaves⟩

/-- A state that differs from one already kept in nothing that `Kept` looks at. -/
theorem Kept.upd {r s t : State} (h : Kept r s) (e : (t.core, t.pool.mem, t.log) = (s.core, s.pool.mem, s.log)) : Kept r t := by
  simp only [Prod.mk.injEq] at e
  exact h.ofCore (e.2.1 ▸ h.wf) (e.2.2 ▸ h.queues) e.1

theorem Kept.ofMem {r s t : State} (h : Kept r s) (hm : Memory.wf t.pool.mem = true) (e : t.core = s.core) (el : t.log = s.log) :
    Kept r t := h.ofCore hm (el ▸ h.queues) e

theorem Kept.ofLog {r s t : State} (h : Kept r s) (hl : QueuesBounded t.log) (e : t.core = s.core)
    (em : t.pool.mem = s.pool.mem) : Kept r t := h.ofCore (em ▸ h.wf) hl e

/-- A state that differs from one already kept in its formats. -/
theorem Kept.ofFormats {r s : State} (h : Kept r s) {f : Tbl Nat} (hf : FormatsLegal f) : Kept r { s with str.formats := f } :=
  ⟨h.1, h.2.1, hf, h.2.2.2⟩

/-! Event queues. -/

theorem Tbl.mem_of_find {α : Type} {t : Tbl α} {k : Nat} {v : α} (h : t.find k = some v) : (k, v) ∈ t := by
  induction t with
  | nil => cases h
  | cons e t ih =>
    by_cases he : e.1 = k
    · simp only [Tbl.find, beq_iff_eq, he, if_true, Option.some.injEq] at h
      exact he ▸ h ▸ List.mem_cons_self
    · simp only [Tbl.find, beq_iff_eq, he, if_false] at h
      exact List.mem_cons_of_mem _ (ih h)

theorem EvQueue.push_length {cap : Nat} {q : EvQueue} {e : EvNew} (h : q.recs.length ≤ cap) :
    (q.push cap e).recs.length ≤ cap := by
  by_cases hq : q.recs.length + (chainOf e q.nextSeq q.lost).length ≤ cap
  · simp only [EvQueue.push, hq, if_true, List.length_append]
  · simpa only [EvQueue.push, hq, if_false] using h

theorem dropWhile_length {α : Type} (p : α → Bool) (l : List α) : (l.dropWhile p).length ≤ l.length :=
  (List.dropWhile_sublist p).length_le

theorem EvQueue.ackTo_length (q : EvQueue) (n : Nat) : (q.ackTo n).recs.length ≤ q.recs.length := by
  unfold EvQueue.ackTo
  split
  next => exact Nat.le_refl _
  next a l e =>
    extract_lets dist
    clear_value dist
    split
    next => exact Nat.le_refl _
    next => exact Nat.le_trans (dropWhile_length _ _) (dropWhile_length _ _)

theorem QueuesBounded.put {l : Log} {t : Nat} {q : EvQueue} (h : QueuesBounded l) (hq : q.recs.length ≤ 4096) :
    QueuesBounded { l with ten := l.ten.put t q } :=
  ⟨h.1, fun x hx => (Tbl.put_mem hx).elim (fun e => e ▸ hq) (h.2 x)⟩

theorem QueuesBounded.del {l : Log} {t : Nat} (h : QueuesBounded l) : QueuesBounded { l with ten := l.ten.del t } :=
  ⟨h.1, fun x hx => h.2 x (Tbl.del_mem hx)⟩

theorem QueuesBounded.find {l : Log} {t : Nat} {q : EvQueue} (h : QueuesBounded l) (hq : l.ten.find t = some q) :
    q.recs.length ≤ 4096 := h.2 _ (Tbl.mem_of_find hq)

theorem QueuesBounded.adjust {l : Log} {t : Nat} {f : EvQueue → EvQueue} (h : QueuesBounded l)
    (hf : ∀ q, (f q).recs.length = q.recs.length) : QueuesBounded { l with ten := l.ten.adjust t f } := by
  cases e : l.ten.find t with
  | none => simpa only [Tbl.adjust, e] using h
  | some q => simpa only [Tbl.adjust, e] using h.put (hf q ▸ h.find e)

theorem QueuesBounded.op {l : Log} {q : EvQueue} (h : QueuesBounded l) (hq : q.recs.length ≤ 65536) :
    QueuesBounded { l with op := q } := ⟨hq, h.2⟩

/-! Formats. -/

theorem FormatsLegal.put {f : Tbl Nat} {n d : Nat} (h : FormatsLegal f) (h1 : 14 ≤ n) (h2 : n < 32) (h3 : d ≠ 0)
    (h4 : descBad d = false) : FormatsLegal (f.put n d) :=
  fun x hx => (Tbl.put_mem hx).elim (fun e => e ▸ ⟨h1, h2, h3, h4⟩) (h x)

theorem FormatsLegal.del {f : Tbl Nat} {n : Nat} (h : FormatsLegal f) : FormatsLegal (f.del n) :=
  fun x hx => h x (Tbl.del_mem hx)

/-! Memory. -/

theorem Kept.zeroMem {r s t : State} {a n : Nat} (h : Kept r s) (hm : t.pool.mem = memZero s.pool.mem a n)
    (e : t.core = s.core) (el : t.log = s.log) : Kept r t := h.ofMem (hm ▸ memZero_wf a n h.wf) e el

theorem Kept.writeMem {r s t : State} {a : Nat} {b : List Byte} (h : Kept r s) (hm : t.pool.mem = memWrite s.pool.mem a b)
    (e : t.core = s.core) (el : t.log = s.log) : Kept r t := h.ofMem (hm ▸ memWrite_wf a b h.wf) e el

theorem Kept.moveMem {r s t : State} {a b n : Nat} (h : Kept r s) (hm : t.pool.mem = memMove s.pool.mem a b n)
    (e : t.core = s.core) (el : t.log = s.log) : Kept r t := h.ofMem (hm ▸ memMove_wf a b n h.wf) e el

end Sys2Proof.Machine
end

