-- ==== Sys2Proof/Laws/Kept/Part1.lean ====
section
/-! SUPPORT. Part1.lean: what each operation of the machine keeps (Laws/Kept.lean), one lemma per definition, in the
order in which they call each other. -/

namespace Sys2Proof.Machine

theorem State.acceptAppend_kept {r s : State} {hdr : Nat} (h : Kept r s) : Kept r (s.acceptAppend hdr) := by
  unfold State.acceptAppend; exact h

theorem State.eachPage_kept {r s : State} {f : State → Nat → Nat → Bool → Prep × State} {l : List (Nat × Nat × Bool)}
    (h : Kept r s) (hf : ∀ t, Kept r t → ∀ a n w, PairAll Any (Kept r) (f t a n w)) :
    PairAll Any (Kept r) (s.eachPage f l) := by
  induction l generalizing s with
  | nil => exact ⟨trivial, h⟩
  | cons x l ih =>
    have k := hf s h x.1 x.2.1 x.2.2
    unfold State.eachPage
    split
    · exact ih (via ‹_› k).2
    · exact k

theorem State.fillL1_kept {r s : State} {engine : Nat} {b : BufEntry} (h : Kept r s) : Kept r (s.fillL1 engine b) := by
  unfold State.fillL1; exact ite_keep h h

theorem State.lookup_kept {r s : State} {engine asid va : Nat}
    {ver : Nat → Option Nat} (h : Kept r s) : Kept r (s.lookup engine asid va ver) := by
  unfold State.lookup
  extract_lets -underBinder -useContext x1 x2 x3
  clear_value x1 x2 x3
  refine ite_keep h ?_
  split
  · exact ite_keep h (State.fillL1_kept h)
  · extract_lets -underBinder -useContext x4 x5
    clear_value x4
    exact ite_keep h h

theorem State.putCheckout_kept {r s : State} {k : Nat} {v : Checkout} (h : Kept r s) : Kept r (s.putCheckout k v) := by
  unfold State.putCheckout; exact h

theorem State.countDev_kept {r s : State} {i : Nat} {n : optParam Nat 1} (h : Kept r s) : Kept r (s.countDev i n) := by
  unfold State.countDev; exact h

theorem State.emit_kept {r s : State} {o : Output} (h : Kept r s) : Kept r (s.emit o) :=
  ⟨h.1, ⟨h.2.1.1, h.2.1.2.1, h.2.1.2.2.1.trans (List.suffix_cons _ _), h.2.1.2.2.2⟩, h.2.2⟩

theorem State.putPort_kept {r s : State} {k : Nat} {v : Port} (h : Kept r s) : Kept r (s.putPort k v) := by
  unfold State.putPort; exact h

theorem State.modPort_kept {r s : State} {p : Nat} {f : Port → Port} (h : Kept r s) : Kept r (s.modPort p f) := by
  unfold State.modPort; exact State.putPort_kept h

theorem State.commit_kept {r s : State} {port op : Nat} {p : Packet} {own : Bool}
    {held sub svc : Nat} (h : Kept r s) : Kept r (s.commit port op p own held sub svc) := by
  unfold State.commit
  extract_lets -underBinder -useContext x1 x2
  clear_value x1 x2
  exact State.modPort_kept h

theorem State.route_kept {r s : State} {op : Nat} {p : Packet} {inPort : Option Nat} {own : Bool} {since : Nat}
    {sub : Nat × Nat} {a : Nat} (h : Kept r s) : Kept r (s.route op p inPort own since sub a) := by
  induction a generalizing s op p inPort own since sub with
  | zero =>
    unfold State.route
    exact h
  | succ n ih =>
    unfold State.route
    extract_lets -underBinder -useContext x1 x2 x3 x4 x5 x6 x7
    clear_value x1 x2
    have k8 : Kept r x4 := ite_keep h h
    clear_value x4 x5 x6 x7
    split
    · extract_lets -underBinder -useContext x9 x10 x11
      have k12 : Kept r x10 := State.countDev_kept k8
      clear_value x10 x11
      exact ite_keep k12 (ite_keep k12 (ih (State.emit_kept k12)))
    · split
      · exact State.commit_kept k8
      · exact k8

theorem State.sendAs_kept {r s : State} {op : Nat} {p : Packet}
    {sub : Nat × Nat} (h : Kept r s) : Kept r (s.sendAs op p sub) := by
  unfold State.sendAs; exact State.route_kept (State.emit_kept h)

theorem State.send_kept {r s : State} {op : Nat} {p : Packet} (h : Kept r s) : Kept r (s.send op p) := by
  unfold State.send; exact State.sendAs_kept h

theorem State.issueWith_kept {r s : State} {what : IssuedFor} {op dst session address : Nat}
    {payloadOf : Nat → Nat → List Byte}
    (h : Kept r s) : PairAll Any (Kept r) (s.issueWith what op dst session address payloadOf) := by
  unfold State.issueWith
  split
  · exact ⟨trivial, h⟩
  · extract_lets -underBinder -useContext x1 x2 x3 x4 x5
    clear_value x1 x2 x3
    have k6 : Kept r x5 := h
    clear_value x5
    exact ⟨trivial, State.send_kept k6⟩

theorem State.issue_kept {r s : State} {what : IssuedFor} {op dst session address : Nat}
    {payload : List Byte} (h : Kept r s) : PairAll Any (Kept r) (s.issue what op dst session address payload) := by
  unfold State.issue; exact State.issueWith_kept h

theorem State.pairSend_kept {r s : State} {what : IssuedFor}
    {op : Nat} (h : Kept r s) : PairAll Any (Kept r) (s.pairSend what op) := by
  unfold State.pairSend; exact State.issue_kept h

theorem State.sendMeta_kept {r s : State} {a1 : PairRec} (h : Kept r s) : Kept r (s.sendMeta a1) := by
  unfold State.sendMeta
  refine ite_keep ?_ h
  extract_lets -underBinder -useContext x1
  have k2 : PairAll Any (Kept r) x1 := State.pairSend_kept h
  clear_value x1
  exact State.emit_kept k2.2

theorem State.awaitPage_kept {r s : State} {key : Nat}
    {who : Access} (h : Kept r s) : OptAll (Kept r) (s.awaitPage key who) := by
  unfold State.awaitPage
  split
  · exact h
  · refine ite_keep trivial (ite_keep (State.putCheckout_kept h) ?_)
    extract_lets -underBinder -useContext x1 x2 x3 x4
    clear_value x1 x2
    have k5 : Kept r x3 := State.sendMeta_kept (State.putCheckout_kept h)
    clear_value x3 x4
    split
    · exact (State.issue_kept k5).2
    · exact k5

theorem State.putSector_kept {r s : State} {k : Nat} {v : SecMeta} (h : Kept r s) : Kept r (s.putSector k v) := by
  unfold State.putSector; exact h

theorem State.putStack_kept {r s : State} {k : Nat} {v : Stack} (h : Kept r s) : Kept r (s.putStack k v) := by
  unfold State.putStack; exact h

theorem State.modStack_kept {r s : State} {k : Nat} {f : Stack → Stack} (h : Kept r s) : Kept r (s.modStack k f) := by
  unfold State.modStack; exact State.putStack_kept h

theorem State.touch_kept {r s : State} {n : Nat} {write : Bool} (h : Kept r s) : Kept r (s.touch n write) := by
  unfold State.touch
  extract_lets -underBinder -useContext x1 x2 x3 x4
  clear_value x1 x2 x3 x4
  exact State.modStack_kept h

theorem State.poisonSector_kept {r s : State} {n : Nat} (h : Kept r s) : Kept r (s.poisonSector n) := by
  unfold State.poisonSector
  extract_lets -underBinder -useContext x1 x2
  clear_value x1
  exact State.putSector_kept (State.touch_kept (Kept.zeroMem h rfl rfl rfl))

theorem State.rankNow_kept {r s : State} (h : Kept r s) : Kept r s.rankNow := by
  unfold State.rankNow
  extract_lets -underBinder -useContext x1 x2
  clear_value x1
  exact ite_keep h h

theorem State.countBad_kept {r s : State} {n : Nat} (h : Kept r s) : Kept r (s.countBad n) := by
  unfold State.countBad
  extract_lets -underBinder -useContext x1 x2 x3
  clear_value x1
  have k4 : Kept r x2 := State.rankNow_kept h
  clear_value x2
  exact k4

theorem State.logSector_kept {r s : State} {n pin kind : Nat} (h : Kept r s) : Kept r (s.logSector n pin kind) := by
  unfold State.logSector
  extract_lets -underBinder -useContext x1
  clear_value x1
  exact State.modStack_kept h

theorem State.owe_kept {r s : State} {d : EvDest} (h : Kept r s) : Kept r (s.owe d) := by
  unfold State.owe; exact h

theorem State.enqueue_kept {r s : State} {d : EvDest} {e : EvNew} (h : Kept r s) : Kept r (s.enqueue d e) := by
  have q := h.queues
  unfold State.enqueue
  split
  · exact State.owe_kept (h.ofLog (q.op (EvQueue.push_length q.1)) rfl rfl)
  · split
    · exact State.owe_kept (h.ofLog (q.put (EvQueue.push_length (q.find ‹_›))) rfl rfl)
    · exact h

theorem State.record_kept {r s : State} {d : EvDest} {code kind subject arg0 arg1 : Nat}
    {more : optParam (List Nat) []} (h : Kept r s) : Kept r (s.record d code kind subject arg0 arg1 more) := by
  unfold State.record
  extract_lets -underBinder -useContext x1
  clear_value x1
  split
  · exact State.enqueue_kept h
  · exact ite_keep h h

theorem State.recTen_kept {r s : State}
    {t code kind subject arg0 arg1 : Nat} (h : Kept r s) : Kept r (s.recTen t code kind subject arg0 arg1) := by
  unfold State.recTen; exact State.record_kept h

theorem State.loseSector_kept {r s : State} {n : Nat} (h : Kept r s) : Kept r (s.loseSector n) := by
  unfold State.loseSector
  extract_lets -underBinder -useContext x1 x2 x3 x4
  clear_value x1 x2
  have k5 : Kept r x3 := State.poisonSector_kept h
  clear_value x3
  have k6 : Kept r x4 := State.countBad_kept (State.logSector_kept k5)
  clear_value x4
  refine ite_keep (State.modStack_kept k5) ?_
  split
  · exact State.recTen_kept k6
  · exact k6

theorem State.macFail_kept {r s : State} {n : Nat} (h : Kept r s) : Kept r (s.macFail n) := by
  unfold State.macFail
  extract_lets -underBinder -useContext x1 x2 x3 x4 x5
  clear_value x1 x2
  have k6 : Kept r x3 := State.putSector_kept h
  clear_value x3
  have k7 : Kept r x4 := State.logSector_kept k6
  clear_value x4
  have k8 : Kept r x5 := State.putSector_kept k7
  clear_value x5
  refine ite_keep (State.modStack_kept k6) (ite_keep k7 ?_)
  split
  · exact State.recTen_kept k8
  · exact k8

theorem State.modPch_kept {r s : State} {k p : Nat} {f : Pch → Pch} (h : Kept r s) : Kept r (s.modPch k p f) := by
  unfold State.modPch; exact State.modStack_kept h

theorem State.recOp_kept {r s : State}
    {code kind subject arg0 arg1 : Nat} (h : Kept r s) : Kept r (s.recOp code kind subject arg0 arg1) := by
  unfold State.recOp; exact State.record_kept h

theorem State.wearPin_kept {r s : State} {k p pin : Nat} (h : Kept r s) : Kept r (s.wearPin k p pin) := by
  unfold State.wearPin
  refine ite_keep h ?_
  extract_lets -underBinder -useContext x1 x2
  clear_value x1
  have k3 : Kept r x2 := State.modPch_kept h
  clear_value x2
  exact ite_keep (State.recOp_kept k3) k3

theorem State.countFixed_kept {r s : State} {n : Nat}
    {fixed : List (Nat × Nat)} (h : Kept r s) : Kept r (s.countFixed n fixed) := by
  unfold State.countFixed
  extract_lets -underBinder -useContext x1 x2 x3 x4 x5 x6 x7
  clear_value x1 x2 x3 x4
  have k8 : Kept r x5 := State.modPch_kept h
  clear_value x5 x6
  have k9 : Kept r x7 := State.logSector_kept k8
  clear_value x7
  exact ite_keep (State.modStack_kept h) (ite_keep (State.wearPin_kept k9) k9)

theorem State.delSector_kept {r s : State} {k : Nat} (h : Kept r s) : Kept r (s.delSector k) := by
  unfold State.delSector; exact h

theorem State.setSecMeta_kept {r s : State} {n : Nat} {m : SecMeta} (h : Kept r s) : Kept r (s.setSecMeta n m) := by
  unfold State.setSecMeta; exact ite_keep (State.delSector_kept h) (State.putSector_kept h)

theorem State.secEffect_kept {r s : State} {n : Nat} {a : SecCond} (h : Kept r s) : Kept r (s.secEffect n a) := by
  unfold State.secEffect
  split
  · exact h
  · exact State.loseSector_kept h
  · exact State.macFail_kept h
  · exact h
  · exact h
  · exact State.countFixed_kept (State.touch_kept (State.setSecMeta_kept h))

theorem State.readTouch_kept {r s : State} {n : Nat} {e1 : RawErr}
    {c : SecCond} (h : Kept r s) : Kept r (s.readTouch n e1 c) := by
  unfold State.readTouch
  refine ite_keep h ?_
  extract_lets -underBinder -useContext x1
  have k2 : Kept r x1 := State.touch_kept h
  clear_value x1
  exact ite_keep (State.touch_kept k2) k2

theorem State.readSector_kept {r s : State} {n : Nat}
    {e1 e2 : optParam RawErr []} (h : Kept r s) : PairAll Any (PairAll Any (Kept r)) (s.readSector n e1 e2) := by
  unfold State.readSector
  extract_lets -underBinder -useContext x1
  clear_value x1
  exact ⟨trivial, ⟨trivial, State.secEffect_kept (State.readTouch_kept h)⟩⟩

theorem State.openPage_kept {r s : State} {p : Nat} (h : Kept r s) : Kept r (s.openPage p) := by
  unfold State.openPage
  refine ite_keep h ?_
  extract_lets -underBinder -useContext x1 x2 x3 x4 x5 x6 x7
  clear_value x1 x2
  have k8 : Kept r x4 := h
  clear_value x4
  have k9 : Kept r x6 := Kept.zeroMem k8 rfl rfl rfl
  clear_value x6
  have k10 : Kept r x7 := Kept.foldl (fun y11 y12 k13 => State.touch_kept k13) k9
  clear_value x7
  exact ite_keep k8 (ite_keep k10 (Kept.foldl (fun y14 y15 k16 => State.putSector_kept k16) k10))

theorem State.writeSector_kept {r s : State} {n off : Nat} {b : List Byte}
    {bad : Bool} (h : Kept r s) : PairAll Any (Kept r) (s.writeSector n off b bad) := by
  unfold State.writeSector
  extract_lets -underBinder -useContext x1 x2 x3
  clear_value x1 x2
  have k4 : Kept r x3 := State.secEffect_kept (State.readTouch_kept h)
  clear_value x3
  split
  · exact ⟨trivial, k4⟩
  · extract_lets -underBinder -useContext x5 x6 x7 x8 x9
    clear_value x5
    have k10 : Kept r x6 := State.openPage_kept k4
    clear_value x6 x7
    have k11 : Kept r x9 := State.touch_kept (Kept.writeMem k10 rfl rfl rfl)
    clear_value x9
    exact ⟨trivial, State.setSecMeta_kept k11⟩

theorem State.copyPage_kept {r s : State} {src dst : Nat} (h : Kept r s) : Kept r (s.copyPage src dst) := by
  unfold State.copyPage
  refine Kept.foldl (fun y1 y2 k3 => ?_) h
  extract_lets -underBinder -useContext x4 x5 x6 x7
  have k8 : PairAll Any (PairAll Any (Kept r)) x4 := State.readSector_kept k3
  clear_value x4 x5
  have k9 : Kept r x6 := (State.writeSector_kept k8.2.2).2
  clear_value x6 x7
  exact ite_keep (State.putSector_kept k9) k9

theorem State.redraft_kept {r s : State}
    {ext page version frame : Nat} (h : Kept r s) : Kept r (s.redraft ext page version frame) := by
  unfold State.redraft; exact h

theorem State.putExtent_kept {r s : State} {k : Nat} {v : Extent} (h : Kept r s) : Kept r (s.putExtent k v) := by
  unfold State.putExtent; exact h

theorem State.putGran_kept {r s : State} {k : Nat} {v : Gran} (h : Kept r s) : Kept r (s.putGran k v) := by
  unfold State.putGran; exact h

theorem State.takeFrame_kept {r s : State}
    {ext stack : Nat} (h : Kept r s) : OptAll (PairAll Any (Kept r)) (s.takeFrame ext stack) := by
  unfold State.takeFrame
  split
  · exact trivial
  · extract_lets -underBinder -useContext x1 x2
    clear_value x1 x2
    split
    · exact ⟨trivial, h⟩
    · refine ite_keep trivial (OptAll.mk fun y3 => ?_)
      extract_lets -underBinder -useContext x4
      have k5 : Kept r x4 := State.putGran_kept h
      clear_value x4
      exact ⟨trivial, State.putExtent_kept k5⟩

theorem State.draftFrame_kept {r s : State} {ext page : Nat}
    {whole : Bool} (h : Kept r s) : OptAll (PairAll Any (Kept r)) (s.draftFrame ext page whole) := by
  unfold State.draftFrame
  split
  · exact trivial
  · split
    · exact trivial
    · extract_lets -underBinder -useContext x1 x2
      clear_value x1 x2
      refine ite_keep ⟨trivial, h⟩ (OptAll.map (fun y3 k4 => ?_) (State.takeFrame_kept h))
      extract_lets -underBinder -useContext x5
      have k6 : Kept r x5 := ite_keep k4.2 (State.copyPage_kept k4.2)
      clear_value x5
      split
      · exact ⟨trivial, State.redraft_kept (State.putExtent_kept k6)⟩
      · exact ⟨trivial, k6⟩

theorem State.putSpace_kept {r s : State} {k : Nat} {v : Space} (h : Kept r s) : Kept r (s.putSpace k v) := by
  unfold State.putSpace; exact h

theorem State.populate_kept {r s : State} {asid v : Nat}
    {who : Access} (h : Kept r s) : PairAll Any (Kept r) (s.populate asid v who) := by
  unfold State.populate
  split
  · exact ⟨trivial, h⟩
  · split
    · exact ⟨trivial, State.putSpace_kept h⟩
    · refine ite_keep ⟨trivial, State.recTen_kept h⟩ ?_
      split
      · exact ⟨trivial, h⟩
      · extract_lets -underBinder -useContext x1
        have k2 : Kept r x1 := State.putGran_kept h
        clear_value x1
        exact ⟨trivial, State.putSpace_kept k2⟩

theorem State.reachPage_kept {r s : State} {a1 : Reacher} {va len : Nat}
    {write : Bool} (h : Kept r s) : PairAll Any (Kept r) (s.reachPage a1 va len write) := by
  unfold State.reachPage
  extract_lets -underBinder -useContext x1
  have k2 : Kept r x1 := State.lookup_kept h
  clear_value x1
  split
  · extract_lets -underBinder -useContext x3
    clear_value x3
    refine ite_keep ?_ ?_
    · have k4 : OptAll (Kept r) (x1.awaitPage x3 a1.who) := State.awaitPage_kept k2
      split
      · rename_i z5 z6 z7 e8 z9 z10 e11
        have k12 := via e11 k4
        have k13 : Kept r z10 := k12
        exact ⟨trivial, k13⟩
      · rename_i z14 z15 z16 e17 z18 e19
        have k20 := via e19 k4
        exact ⟨trivial, k2⟩
    · split
      · exact ⟨trivial, k2⟩
      · rename_i z21 z22 z23 e24 z25 z26 e27
        have k28 : OptAll (Kept r) (if (write && extVersioned z26) = true then Option.map (fun (x :
            Nat × State) => x.2) (x1.draftFrame z22 z23 (len == 65536)) else some x1) :=
            ite_keep (OptAll.map (fun y29 k30 => k30.2) (State.draftFrame_kept k2)) k2
        split
        · rename_i z31 e32
          have k33 := via e32 k28
          exact ⟨trivial, k2⟩
        · rename_i z34 z35 e36
          have k37 := via e36 k28
          have k38 : Kept r z35 := k37
          exact ⟨trivial, k38⟩
  · refine ite_keep ⟨trivial, k2⟩ ?_
    rename_i z39 z40 e41
    have k42 : PairAll Any (Kept r) (x1.populate a1.asid z40 a1.who) := State.populate_kept k2
    split
    · rename_i z43 z44 z45 e46
      have k47 := via e46 k42
      have k48 : Kept r z45 := k47.2
      exact ⟨trivial, k48⟩
    · rename_i z49 z50 e51
      have k52 := via e51 k42
      have k53 : Kept r z50 := k52.2
      exact ⟨trivial, k53⟩
  · exact ⟨trivial, k2⟩
  · exact ⟨trivial, k2⟩
  · exact ⟨trivial, k2⟩

theorem State.reachSpans_kept {r s : State} {a1 : Reacher}
    {l : List Span} (h : Kept r s) : PairAll Any (Kept r) (s.reachSpans a1 l) := by
  unfold State.reachSpans
  split
  · exact ⟨trivial, h⟩
  · exact State.eachPage_kept h (fun y1 k2 y3 y4 y5 => State.reachPage_kept k2)

theorem State.delDir_kept {r s : State} {k : Nat} (h : Kept r s) : Kept r (s.delDir k) := by
  unfold State.delDir; exact h

theorem State.mirrorOut_kept {r s : State} {ext : Nat} {writes : List (Nat × List Byte)} {bad : List Nat}
    {caches : List CacheRec} {w : MirrorWait} (h : Kept r s) : Kept r (s.mirrorOut ext writes bad caches w) := by
  unfold State.mirrorOut
  extract_lets -underBinder -useContext x1 x2 x3
  have k4 : PairAll Any (Kept r) x1 := State.pairSend_kept h
  clear_value x1
  have k5 : Kept r x2 := State.emit_kept k4.2
  clear_value x2
  exact k5

theorem State.writeLine_kept {r s : State} {h : Nat} {d : List Byte} (hk : Kept r s) : Kept r (s.writeLine h d) := by
  unfold State.writeLine
  extract_lets -underBinder -useContext x1
  have k2 : Kept r x1 := (State.writeSector_kept hk).2
  clear_value x1
  exact ite_keep (State.mirrorOut_kept k2) k2

theorem State.markLost_kept {r s : State} {n : Nat} (h : Kept r s) : Kept r (s.markLost n) := by
  unfold State.markLost
  extract_lets -underBinder -useContext x1 x2 x3
  clear_value x1
  have k4 : Kept r x2 := State.openPage_kept h
  clear_value x2 x3
  exact State.putSector_kept k4

theorem State.loseLine_kept {r s : State} {h : Nat} (hk : Kept r s) : Kept r (s.loseLine h) := by
  unfold State.loseLine; exact State.delDir_kept (State.markLost_kept hk)

theorem State.later_kept {r s : State} {l : List Todo} (h : Kept r s) : Kept r (s.later l) := by
  unfold State.later; exact h

theorem State.putTrans_kept {r s : State} {k : Nat} {v : Trans} (h : Kept r s) : Kept r (s.putTrans k v) := by
  unfold State.putTrans; exact h

theorem State.lineCleaned_kept {r s : State} {h : Nat}
    {lost : optParam Bool false} (hk : Kept r s) : Kept r (s.lineCleaned h lost) := by
  unfold State.lineCleaned; exact ite_keep (State.sendMeta_kept hk) hk

theorem State.clearLost_kept {r s : State} {h : Nat} (hk : Kept r s) : Kept r (s.clearLost h) := by
  unfold State.clearLost; exact hk

theorem State.lineStall_kept {r s : State} {h : Nat} (hk : Kept r s) : Kept r (s.lineStall h) := by
  unfold State.lineStall
  split
  · exact State.putTrans_kept hk
  · exact hk

theorem State.fetchMirror_kept {r s : State} {n ext off : Nat} (h : Kept r s) : Kept r (s.fetchMirror n ext off) := by
  unfold State.fetchMirror
  refine ite_keep h ?_
  extract_lets -underBinder -useContext x1 x2 x3
  have k4 : PairAll Any (Kept r) x1 := State.pairSend_kept h
  clear_value x1
  have k5 : Kept r x2 := State.emit_kept k4.2
  clear_value x2
  exact k5

theorem State.trimLost_kept {r s : State} {h : Nat} (hk : Kept r s) : Kept r (s.trimLost h) := by
  unfold State.trimLost; exact hk

theorem State.delTrans_kept {r s : State} {k : Nat} (h : Kept r s) : Kept r (s.delTrans k) := by
  unfold State.delTrans; exact h

theorem State.lineNext_kept {r s : State} {h : Nat} (hk : Kept r s) : Kept r (s.lineNext h) := by
  unfold State.lineNext
  extract_lets -underBinder -useContext x1 x2
  have k3 : Kept r x1 := State.trimLost_kept hk
  clear_value x1 x2
  split
  · exact k3
  · extract_lets -underBinder -useContext x4
    have k5 : Kept r x4 := by
      unfold x4
      split
      · exact State.delTrans_kept k3
      · exact State.later_kept (State.putTrans_kept k3)
    clear_value x4
    exact State.later_kept k5

theorem State.putTagRec_kept {r s : State} {k : Nat} {v : TagRec} (h : Kept r s) : Kept r (s.putTagRec k v) := by
  unfold State.putTagRec; exact h

theorem State.chargeUnits_kept {r s : State}
    {point sub svc n : Nat} (h : Kept r s) : Kept r (s.chargeUnits point sub svc n) := by
  unfold State.chargeUnits
  extract_lets -underBinder -useContext x1 x2 x3
  clear_value x1 x2
  exact ite_keep h h

theorem State.chargeHub_kept {r s : State} {a1 : Req} {st : Status} (h : Kept r s) : Kept r (s.chargeHub a1 st) := by
  unfold State.chargeHub
  split
  · exact h
  · extract_lets -underBinder -useContext x1
    clear_value x1
    exact State.later_kept (ite_keep (State.chargeUnits_kept h) h)

theorem State.countTen_kept {r s : State} {t i : Nat} {n : optParam Nat 1} (h : Kept r s) : Kept r (s.countTen t i n) := by
  unfold State.countTen; exact h

theorem State.countStatus_kept {r s : State} {session : Nat}
    {st : Status} (h : Kept r s) : Kept r (s.countStatus session st) := by
  unfold State.countStatus
  split
  · exact h
  · split
    · exact State.countTen_kept h
    · exact State.countTen_kept h
    · exact State.countTen_kept h
    · exact State.countTen_kept h
    · exact h

theorem State.answer_kept {r s : State} {a1 : Req} {st : Status} {payload : optParam (List Byte) []}
    {address : optParam Nat 0} (h : Kept r s) : Kept r (s.answer a1 st payload address) := by
  unfold State.answer; exact State.sendAs_kept h

theorem State.complete_kept {r s : State} {a1 : Req} {st : Status} {word : optParam (Option Nat) none}
    {payload : optParam (Option (List Byte)) none}
    {address : optParam Nat 0} (h : Kept r s) : Kept r (s.complete a1 st word payload address) := by
  unfold State.complete
  extract_lets -underBinder -useContext x1 x2 x3 x4 x5 x6 x7 x8 x9
  clear_value x1 x2 x3 x4
  have k10 : Kept r x5 := ite_keep (State.putTagRec_kept h) h
  clear_value x5
  have k11 : Kept r x7 := ite_keep k10 k10
  clear_value x7
  have k12 : Kept r x8 := State.chargeHub_kept (State.countStatus_kept k11)
  clear_value x8
  have k13 : Kept r x9 := State.answer_kept k12
  clear_value x9
  exact Kept.foldl (fun y14 y15 k16 => State.answer_kept k16) k13

theorem State.lineData_kept {r s : State} {h : Nat}
    {own : Option (List Byte)} (hk : Kept r s) : PairAll Any (PairAll Any (Kept r)) (s.lineData h own) := by
  unfold State.lineData
  extract_lets -underBinder -useContext x1
  clear_value x1
  split
  · exact ⟨trivial, ⟨trivial, hk⟩⟩
  · exact State.readSector_kept hk

theorem State.putDir_kept {r s : State} {k : Nat} {v : DirEntry} (h : Kept r s) : Kept r (s.putDir k v) := by
  unfold State.putDir; exact h

theorem State.setEntry_kept {r s : State} {h : Nat} {e : DirEntry} (hk : Kept r s) : Kept r (s.setEntry h e) := by
  unfold State.setEntry; exact ite_keep (State.delDir_kept hk) (State.putDir_kept hk)

theorem State.afterWrite_kept {r s : State} {h off : Nat} {b : List Byte} {a4 : Req} {st : Status} {word : Option Nat}
    {payload : List Byte} (hk : Kept r s) : Kept r (s.afterWrite h off b a4 st word payload) := by
  unfold State.afterWrite
  refine ite_keep (State.mirrorOut_kept hk) ?_
  extract_lets -underBinder -useContext x1
  have k2 : Kept r x1 := ite_keep (State.mirrorOut_kept hk) hk
  clear_value x1
  exact State.complete_kept k2

theorem State.runAtomic_kept {r s : State} {h : Nat} {a2 : Req} (hk : Kept r s) : Kept r (s.runAtomic h a2) := by
  unfold State.runAtomic
  extract_lets -underBinder -useContext x1 x2 x3 x4 x5 x6 x7 x8 x9 x10 x11
  clear_value x1 x2 x3 x4
  have k12 : PairAll Any (PairAll Any (Kept r)) x5 := State.readSector_kept hk
  clear_value x5
  have k13 : Kept r x6 := k12.2.2
  clear_value x6 x7 x8
  have k14 : ∀ (s : State), Kept r s → ∀ (st : Status) (w : Nat), Kept r (x9 s st w) := by
    unfold x9
    intro y15 k16 y17 y18
    exact State.complete_kept k16
  clear_value x9 x10 x11
  refine ite_keep (k14 _ k13 _ _) ?_
  split
  · exact k14 _ k13 _ _
  · extract_lets -underBinder -useContext x19 x20
    clear_value x19
    have k21 : Kept r x20 := (State.writeSector_kept k13).2
    clear_value x20
    exact State.afterWrite_kept k21

theorem State.grant_kept {r s : State} {h : Nat} {a2 : Req} {st : Status}
    {payload : List Byte} (hk : Kept r s) : Kept r (s.grant h a2 st payload) := by
  unfold State.grant
  refine ite_keep ?_ ?_
  · extract_lets -underBinder -useContext x1 x2 x3
    have k4 : PairAll Any (Kept r) x1 := State.pairSend_kept hk
    clear_value x1
    have k5 : Kept r x2 := State.emit_kept k4.2
    clear_value x2
    exact k5
  · extract_lets -underBinder -useContext x6
    have k7 : Kept r x6 := ite_keep (State.sendMeta_kept hk) hk
    clear_value x6
    exact State.complete_kept k7

theorem State.serveLine_kept {r s : State} {h : Nat} {a2 : Req}
    {own : Option (List Byte)} (hk : Kept r s) : Kept r (s.serveLine h a2 own) := by
  unfold State.serveLine
  extract_lets -underBinder -useContext x1 x2 x3 x4 x5 x6 x7 x8 x9 x10
  clear_value x1 x2 x3 x4 x5
  have k11 : ∀ (s : State), Kept r s → PairAll Any (PairAll Any (Kept r)) (x6 s) := by
    unfold x6
    intro y12 k13
    extract_lets -underBinder -useContext x14
    have k15 : PairAll Any (PairAll Any (Kept r)) x14 := State.lineData_kept k13
    clear_value x14
    exact ⟨trivial, ⟨trivial, k15.2.2⟩⟩
  clear_value x6 x7
  have k16 : Kept r x8 := by
    unfold x8
    split
    · exact State.writeLine_kept hk
    · exact hk
  clear_value x8
  have k17 : ∀ (s : State), Kept r s → ∀ (e : DirEntry) (data : Bool), Kept r (x9 s e data) := by
    unfold x9
    intro y18 k19 y20 y21
    extract_lets -underBinder -useContext x22 x23
    have k24 : Kept r x22 := State.putDir_kept k19
    clear_value x22
    have k25 : PairAll Any (PairAll Any (Kept r)) x23 := k11 _ k24
    clear_value x23
    exact ite_keep (State.grant_kept k25.2.2) (State.grant_kept k24)
  clear_value x9
  have k26 : ∀ (s : State), Kept r s → OptAll (PairAll Any (Kept r)) (x10 s) := by
    unfold x10
    intro y27 k28
    exact OptAll.mk fun y29 => ⟨trivial, k28⟩
  clear_value x10
  refine ite_keep ?_ (ite_keep (State.runAtomic_kept (ite_keep (State.lineCleaned_kept (State.delDir_kept k16)) k16)) ?_)
  · split
    · refine ite_keep ?_ (ite_keep (State.complete_kept hk) (State.complete_kept hk))
      extract_lets -underBinder -useContext x30 x31 x32
      clear_value x30
      have k33 : Kept r x31 := (State.writeSector_kept hk).2
      clear_value x31
      have k34 : Kept r x32 := ite_keep (State.delDir_kept k33) (State.setEntry_kept k33)
      clear_value x32
      exact State.afterWrite_kept (State.lineCleaned_kept k34)
    · exact ite_keep (State.complete_kept hk) (State.complete_kept hk)
  · split
    · have k35 : OptAll (PairAll Any (Kept r)) (x10 s) := k26 _ hk
      split
      · rename_i z36 z37 e38
        have k39 := via e38 k35
        exact hk
      · rename_i z40 z41 z42 z43 e44
        have k45 := via e44 k35
        have k46 : Kept r z43 := k45.2
        refine ite_keep ?_ (k17 _ k46 _ _)
        extract_lets -underBinder -useContext x47 x48
        have k49 : Kept r x47 := State.putDir_kept k46
        clear_value x47
        have k50 : PairAll Any (PairAll Any (Kept r)) x48 := k11 _ k49
        clear_value x48
        exact State.complete_kept k50.2.2
    · refine ite_keep ?_ (ite_keep (State.complete_kept hk) ?_)
      · split
        · extract_lets -underBinder -useContext x51 x52
          have k53 : Kept r x51 := State.putDir_kept hk
          clear_value x51
          have k54 : PairAll Any (PairAll Any (Kept r)) x52 := k11 _ k53
          clear_value x52
          exact State.complete_kept k54.2.2
        · split
          · extract_lets -underBinder -useContext x55 x56
            have k57 : Kept r x55 := State.putDir_kept hk
            clear_value x55
            have k58 : PairAll Any (PairAll Any (Kept r)) x56 := k11 _ k57
            clear_value x56
            exact State.grant_kept k58.2.2
          · extract_lets -underBinder -useContext x59 x60
            have k61 : Kept r x59 := State.lineCleaned_kept (State.putDir_kept hk)
            clear_value x59
            have k62 : PairAll Any (PairAll Any (Kept r)) x60 := k11 _ k61
            clear_value x60
            exact State.complete_kept k62.2.2
        · extract_lets -underBinder -useContext x63 x64
          have k65 : Kept r x63 := State.putDir_kept hk
          clear_value x63
          have k66 : PairAll Any (PairAll Any (Kept r)) x64 := k11 _ k65
          clear_value x64
          exact State.complete_kept k66.2.2
      · extract_lets -underBinder -useContext x67
        clear_value x67
        exact k17 _ hk _ _

theorem State.lineFinish_kept {r s : State} {h : Nat} (hk : Kept r s) : Kept r (s.lineFinish h) := by
  unfold State.lineFinish
  split
  · exact hk
  · refine ite_keep ?_ (ite_keep (State.lineStall_kept hk) (ite_keep ?_ ?_))
    · extract_lets -underBinder -useContext x1
      have k2 : Kept r x1 := by
        unfold x1
        split
        · exact State.delDir_kept (State.writeLine_kept hk)
        · exact State.loseLine_kept hk
      clear_value x1
      exact State.later_kept (State.putTrans_kept (State.lineCleaned_kept (State.clearLost_kept k2)))
    · extract_lets -underBinder -useContext x3
      have k4 : Kept r x3 := Kept.foldl (fun y5 y6 k7 => State.fetchMirror_kept k7) hk
      clear_value x3
      exact State.lineStall_kept k4
    · extract_lets -underBinder -useContext x8 x9
      clear_value x8 x9
      split
      · extract_lets -underBinder -useContext x10 x11
        clear_value x10
        have k12 : Kept r x11 := State.lineStall_kept hk
        clear_value x11
        refine ite_keep (State.lineNext_kept (State.complete_kept hk)) (ite_keep (ite_keep k12 ?_) (State.lineNext_kept
            (State.serveLine_kept hk)))
        split
        · exact State.later_kept (State.putTrans_kept k12)
        · exact k12
      · extract_lets -underBinder -useContext x13 x14 x15 x16
        have k17 : Kept r x13 := by
          unfold x13
          split
          · exact State.writeLine_kept hk
          · exact hk
        clear_value x13
        have k18 : Kept r x14 := by
          unfold x14
          split
          · exact hk
          · exact hk
        clear_value x14
        have k19 : Kept r x15 := by
          unfold x15
          refine ite_keep (ite_keep (State.lineCleaned_kept (State.delDir_kept k17)) k17) ?_
          split
          · exact ite_keep k18 (ite_keep (State.putDir_kept k18) (State.lineCleaned_kept (State.putDir_kept k18)))
          · exact k18
        clear_value x15
        have k20 : Kept r x16 := State.putTrans_kept k19
        clear_value x16
        exact ite_keep (State.later_kept k20) k20
      · extract_lets -underBinder -useContext x21
        have k22 : Kept r x21 := by
          unfold x21
          split
          · exact State.writeLine_kept hk
          · exact hk
        clear_value x21
        exact State.lineNext_kept (State.lineCleaned_kept (State.delDir_kept k22))
      · extract_lets -underBinder -useContext x23
        have k24 : Kept r x23 := by
          unfold x23
          split
          · exact State.writeLine_kept hk
          · exact hk
        clear_value x23
        exact State.lineNext_kept (State.later_kept (State.lineCleaned_kept (State.delDir_kept k24)))
      · exact State.lineNext_kept (State.delDir_kept hk)
      · exact State.lineNext_kept hk

theorem State.sendSnoops_kept {r s : State} {h : Nat}
    {dests : List (Nat × SnoopKind)} (hk : Kept r s) : Kept r (s.sendSnoops h dests) := by
  unfold State.sendSnoops
  refine Kept.foldl (fun y1 y2 k3 => ?_) hk
  split
  · extract_lets -underBinder -useContext x4
    have k5 : PairAll Any (Kept r) x4 := State.issue_kept k3
    clear_value x4
    exact State.putTrans_kept k5.2
  · exact k3

theorem State.dropLine_kept {r s : State} {h : Nat} {e : DirEntry} (hk : Kept r s) : Kept r (s.dropLine h e) := by
  unfold State.dropLine
  extract_lets -underBinder -useContext x1
  have k2 : Kept r x1 := State.sendSnoops_kept hk
  clear_value x1
  exact ite_keep (State.lineFinish_kept k2) k2

theorem State.lineGo_kept {r s : State} {h : Nat} (hk : Kept r s) : Kept r (s.lineGo h) := by
  unfold State.lineGo
  split
  · exact hk
  · refine ite_keep hk (ite_keep (State.lineFinish_kept (State.putTrans_kept hk)) ?_)
    extract_lets -underBinder -useContext x1
    have k2 : Kept r x1 := State.putTrans_kept hk
    clear_value x1
    split
    · exact State.lineFinish_kept k2
    · refine ite_keep (State.dropLine_kept k2) ?_
      extract_lets -underBinder -useContext x3 x4 x5 x6
      clear_value x3 x4 x5
      have k7 : Kept r x6 := State.clearLost_kept (State.setEntry_kept k2)
      clear_value x6
      refine ite_keep ?_ ?_
      · split
        · extract_lets -underBinder -useContext x8 x9 x10
          clear_value x8
          have k11 : Kept r x9 := State.putTrans_kept (State.putDir_kept k2)
          clear_value x9
          have k12 : Kept r x10 := State.sendSnoops_kept k11
          clear_value x10
          exact ite_keep (State.lineFinish_kept k12) k12
        · exact State.later_kept (State.lineCleaned_kept (State.clearLost_kept (State.loseLine_kept k2)))
      · split
        · exact State.lineFinish_kept k7
        · refine ite_keep (State.lineFinish_kept k7) ?_
          extract_lets -underBinder -useContext x13 x14
          clear_value x13
          have k15 : Kept r x14 := State.sendSnoops_kept k7
          clear_value x14
          exact ite_keep (State.lineFinish_kept k7) (ite_keep (State.later_kept k15) k15)

theorem State.lineArrive_kept {r s : State} {h : Nat} {job : LineJob} (hk : Kept r s) : Kept r (s.lineArrive h job) := by
  unfold State.lineArrive
  split
  · exact State.lineGo_kept (State.putTrans_kept hk)
  · exact State.putTrans_kept hk

theorem State.lineAccess_kept {r s : State} {a : Access} {h : Nat}
    {write : Bool} (hk : Kept r s) : Kept r (s.lineAccess a h write) := by
  unfold State.lineAccess
  split
  · exact State.lineArrive_kept hk
  · exact ite_keep (ite_keep (State.lineGo_kept (State.putTrans_kept hk)) hk) (ite_keep (ite_keep
        (State.putTrans_kept hk) hk) (State.lineArrive_kept hk))

theorem State.comGuard_kept {r s : State} {a : Access}
    {l : List (Nat × Nat × Nat × Bool)} (h : Kept r s) : PairAll Any (Kept r) (s.comGuard a l) := by
  unfold State.comGuard
  extract_lets -underBinder -useContext x1 x2
  clear_value x1 x2
  exact ite_keep ⟨trivial, h⟩ (ite_keep ⟨trivial, h⟩ ⟨trivial, Kept.foldl (fun y3 y4 k5 => State.lineAccess_kept k5) h⟩)

theorem State.awaitStack_kept {r s : State} {who : Access}
    {l : List Nat} (h : Kept r s) : PairAll Any (Kept r) (s.awaitStack who l) := by
  unfold State.awaitStack
  split
  · exact ⟨trivial, h⟩
  · extract_lets -underBinder -useContext x1 x2
    clear_value x1
    exact ⟨trivial, ite_keep h h⟩

theorem State.awaitMirror_kept {r s : State} {who : Access}
    {all need : List Nat} (h : Kept r s) : PairAll Any (Kept r) (s.awaitMirror who all need) := by
  unfold State.awaitMirror
  have k1 : PairAll Any (Kept r) (s.awaitStack who all) := State.awaitStack_kept h
  split
  · rename_i z2 z3 e4
    have k5 := via e4 k1
    have k6 : Kept r z3 := k5.2
    exact ⟨trivial, k6⟩
  · rename_i z7 z8 e9
    have k10 := via e9 k1
    have k11 : Kept r z8 := k10.2
    extract_lets -underBinder -useContext x12 x13 x14
    clear_value x12
    have k15 : Kept r x13 := Kept.foldl (fun y16 y17 k18 => State.fetchMirror_kept k18) h
    clear_value x13
    exact ite_keep ⟨trivial, h⟩ ⟨trivial, k15⟩

theorem State.guardPieces_kept {r s : State} {who : Access}
    {l : List Piece} (h : Kept r s) : PairAll Any (Kept r) (s.guardPieces who l) := by
  unfold State.guardPieces
  have k1 : PairAll Any (Kept r) (s.comGuard who (List.filterMap (fun (x : Piece) => Option.map (fun (e :
      Nat × Nat) => (e.1, e.2, x.len, x.write)) x.ext) l)) := State.comGuard_kept h
  split
  · rename_i z2 z3 e4
    have k5 := via e4 k1
    have k6 : Kept r z3 := k5.2
    exact State.awaitMirror_kept k6
  · rename_i z7 z8 e9
    have k10 := via e9 k1
    have k11 : Kept r z8 := k10.2
    exact ⟨trivial, k11⟩
  · rename_i z12 z13 e14
    have k15 := via e14 k1
    have k16 : Kept r z13 := k15.2
    exact ⟨trivial, k16⟩

theorem State.guardSpans_kept {r s : State} {a1 : Reacher}
    {l : List Span} (h : Kept r s) : PairAll Any (Kept r) (s.guardSpans a1 l) := by
  unfold State.guardSpans; exact State.guardPieces_kept h

theorem State.readySpans_kept {r s : State} {a1 : Reacher}
    {l : List Span} (h : Kept r s) : PairAll Any (Kept r) (s.readySpans a1 l) := by
  unfold State.readySpans
  have k1 : PairAll Any (Kept r) (s.reachSpans a1 l) := State.reachSpans_kept h
  split
  · rename_i z2 z3 e4
    have k5 := via e4 k1
    have k6 : Kept r z3 := k5.2
    exact State.guardSpans_kept k6
  · rename_i z7 e8
    have k9 : PairAll Any (Kept r) (s.reachSpans a1 l) := k1
    exact State.reachSpans_kept h

theorem State.load_kept {r s : State} {a len : Nat} (h : Kept r s) : PairAll Any (PairAll Any (Kept r)) (s.load a len) := by
  unfold State.load
  extract_lets -underBinder -useContext x1
  have k2 : PairAll Any (PairAll Any (Kept r)) x1 := by
    unfold x1
    refine foldl_keep (fun y3 y4 k5 => ?_) ⟨trivial, ⟨trivial, h⟩⟩
    extract_lets -underBinder -useContext x6
    have k7 : PairAll Any (PairAll Any (Kept r)) x6 := State.readSector_kept k5.2.2
    clear_value x6
    exact ⟨trivial, ⟨trivial, k7.2.2⟩⟩
  clear_value x1
  exact ⟨trivial, ⟨trivial, k2.2.2⟩⟩

theorem State.fetch_kept {r s : State} {a1 : Reacher}
    {va len : Nat} (h : Kept r s) : PairAll Any (Kept r) (s.fetch a1 va len) := by
  unfold State.fetch
  refine foldl_keep (fun y1 y2 k3 => ?_) ⟨trivial, h⟩
  extract_lets -underBinder -useContext x4
  clear_value x4
  split
  · exact ⟨trivial, k3.2⟩
  · extract_lets -underBinder -useContext x5 x6 x7
    have k8 : PairAll Any (PairAll Any (Kept r)) x5 := State.load_kept k3.2
    clear_value x5 x6 x7
    exact ⟨trivial, k8.2.2⟩

end Sys2Proof.Machine
end

