-- ==== Sys2Proof/Laws/Kept/Part2.lean ====
section
/-! SUPPORT. Part2.lean: what each operation of the machine keeps (Laws/Kept.lean), one lemma per definition, in the
order in which they call each other. -/

namespace Sys2Proof.Machine

theorem State.readOperands_kept {r s : State} {rr : Reacher}
    {elems w : Nat} (h : Kept r s) : PairAll Any (Kept r) (s.readOperands rr elems w) := by
  unfold State.readOperands
  extract_lets -underBinder -useContext x1
  clear_value x1
  refine ite_keep ⟨trivial, h⟩ ?_
  have k2 : PairAll Any (Kept r) (s.readySpans rr [{ va := rsRef w, len := 8 * x1, write := false }]) :=
      State.readySpans_kept h
  split
  · rename_i z3 z4 z5 e6
    have k7 := via e6 k2
    have k8 : Kept r z5 := k7.2
    exact ⟨trivial, k8⟩
  · rename_i z9 z10 e11
    have k12 := via e11 k2
    have k13 : Kept r z10 := k12.2
    exact ⟨trivial, k13⟩
  · rename_i z14 z15 e16
    have k17 := via e16 k2
    have k18 : Kept r z15 := k17.2
    extract_lets -underBinder -useContext x19 x20 x21
    have k22 : PairAll Any (Kept r) x19 := State.fetch_kept k18
    clear_value x19 x20 x21
    exact ite_keep ⟨trivial, k22.2⟩ (ite_keep ⟨trivial, k22.2⟩ (ite_keep ⟨trivial, k22.2⟩ ⟨trivial, k22.2⟩))

theorem State.readTables_kept {r s : State} {rr : Reacher} {elems : Nat}
    {a : List Nat} (h : Kept r s) : PairAll Any (Kept r) (s.readTables rr elems a) := by
  induction a generalizing s rr elems with
  | nil =>
    unfold State.readTables
    exact ⟨trivial, h⟩
  | cons a l ih =>
    unfold State.readTables
    have k1 : PairAll Any (Kept r) (if (rsKind a == kVector) = true then s.readOperands rr elems a else (Opened.yes [],
        s)) := ite_keep (State.readOperands_kept h) ⟨trivial, h⟩
    split
    · rename_i z2 z3 z4 e5
      have k6 := via e5 k1
      have k7 : Kept r z4 := k6.2
      extract_lets -underBinder -useContext x8
      have k9 : PairAll Any (Kept r) x8 := ih k7
      clear_value x8
      exact ⟨trivial, k9.2⟩
    · rename_i z10 z11 z12 e13 e14
      have k15 := via e14 k1
      have k16 : Kept r z12 := k15.2
      exact ⟨trivial, k16⟩

theorem State.dropGot_kept {r s : State} {a : Access} (h : Kept r s) : Kept r (s.dropGot a) := by
  unfold State.dropGot; exact h

theorem State.putStream_kept {r s : State} {k : Nat} {v : Stream} (h : Kept r s) : Kept r (s.putStream k v) := by
  unfold State.putStream; exact h

theorem State.enterStream_kept {r s : State} {o : Opener} {node : Nat} {ccp : Option Nat} {head : Nat}
    {steps : List Nat} {tables : List (List Operand)} {areas : List Area}
    {sid : Nat} (h : Kept r s) : Kept r (s.enterStream o node ccp head steps tables areas sid) := by
  unfold State.enterStream
  extract_lets -underBinder -useContext x1 x2 x3 x4 x5 x6 x7 x8 x9
  clear_value x1 x2
  have k10 : Kept r x4 := h
  clear_value x4
  have k11 : Kept r x6 := k10
  clear_value x6
  have k12 : Kept r x8 := k11
  clear_value x8 x9
  exact State.putStream_kept k12

theorem State.openStream_kept {r s : State} {o : Opener} {node : Nat} {ccp : Option Nat} {who : Access}
    {desc : List Byte} (h : Kept r s) : PairAll Any (Kept r) (s.openStream o node ccp who desc) := by
  unfold State.openStream
  extract_lets -underBinder -useContext x1 x2 x3
  clear_value x1 x2 x3
  refine ite_keep ⟨trivial, h⟩ (ite_keep ⟨trivial, h⟩ (ite_keep ⟨trivial, h⟩ (ite_keep ⟨trivial, h⟩ (ite_keep ⟨trivial,
      h⟩ ?_))))
  split
  · exact ⟨trivial, h⟩
  · extract_lets -underBinder -useContext x4 x5 x6 x7 x8 x9 x10 x11
    have k12 : PairAll Any (Kept r) x4 := State.readTables_kept h
    clear_value x4 x5 x6 x7 x8 x9 x10 x11
    split
    · exact ⟨trivial, h⟩
    · extract_lets -underBinder -useContext x13
      clear_value x13
      split
      · exact ⟨trivial, k12.2⟩
      · exact ⟨trivial, k12.2⟩
      · extract_lets -underBinder -useContext x14
        have k15 : Kept r x14 := State.dropGot_kept k12.2
        clear_value x14
        split
        · exact ⟨trivial, k15⟩
        · extract_lets -underBinder -useContext x16
          clear_value x16
          exact ⟨trivial, State.enterStream_kept k15⟩

theorem State.putLink_kept {r s : State} {k : Nat} {v : Link} (h : Kept r s) : Kept r (s.putLink k v) := by
  unfold State.putLink; exact h

theorem State.chargeLink_kept {r s : State} {id : Nat} (h : Kept r s) : Kept r (s.chargeLink id) := by
  unfold State.chargeLink
  split
  · exact h
  · extract_lets -underBinder -useContext x1 x2
    clear_value x1
    have k3 : Kept r x2 := State.countTen_kept (State.putLink_kept h)
    clear_value x2
    exact ite_keep (State.recTen_kept k3) k3

theorem State.runOpen_kept {r s : State} {a1 : Req} (h : Kept r s) : Kept r (s.runOpen a1) := by
  unfold State.runOpen
  extract_lets -underBinder -useContext x1
  clear_value x1
  have k2 : PairAll Any (Kept r) (s.openStream
      { tenant := x1, session := some a1.p.session, kfp2 := s.kfp2 a1.p } a1.p.src none
      (Access.request a1) a1.p.payload) := State.openStream_kept h
  split
  · rename_i z3 z4 z5 e6
    have k7 := via e6 k2
    have k8 : Kept r z5 := k7.2
    exact State.complete_kept k8
  · rename_i z9 z10 z11 e12
    have k13 := via e12 k2
    have k14 : Kept r z11 := k13.2
    exact State.complete_kept (ite_keep (State.chargeLink_kept k14) k14)
  · rename_i z15 z16 e17
    have k18 := via e17 k2
    have k19 : Kept r z16 := k18.2
    exact k19

theorem State.putStation_kept {r s : State} {k : Nat} {v : Station} (h : Kept r s) : Kept r (s.putStation k v) := by
  unfold State.putStation; exact h

theorem State.modStation_kept {r s : State} {n : Nat}
    {f : Station → Station} (h : Kept r s) : Kept r (s.modStation n f) := by
  unfold State.modStation; exact State.putStation_kept h

theorem State.dropWork_kept {r s : State} {sid : Nat} (h : Kept r s) : Kept r (s.dropWork sid) := by
  unfold State.dropWork
  extract_lets -underBinder -useContext x1
  clear_value x1
  refine Kept.foldl (fun y2 y3 k4 => ite_keep ?_ k4) h
  extract_lets -underBinder -useContext x5 x6
  clear_value x5 x6
  exact State.later_kept (State.modStation_kept k4)

theorem State.appendEnded_kept {r s : State} {t : Tile}
    {written : Bool} (h : Kept r s) : Kept r (s.appendEnded t written) := by
  unfold State.appendEnded
  refine ite_keep h ?_
  extract_lets -underBinder -useContext x1
  clear_value x1
  exact State.later_kept h

theorem State.delStream_kept {r s : State} {k : Nat} (h : Kept r s) : Kept r (s.delStream k) := by
  unfold State.delStream; exact h

theorem State.putInval_kept {r s : State} {k : Nat} {v : Inval} (h : Kept r s) : Kept r (s.putInval k v) := by
  unfold State.putInval; exact h

theorem State.invalidate_kept {r s : State} {range : InvalRange}
    {purpose : InvalFor} (h : Kept r s) : Kept r (s.invalidate range purpose) := by
  unfold State.invalidate; exact State.putInval_kept h

theorem State.retireVersions_kept {r s : State} {ext : Nat} (h : Kept r s) : Kept r (s.retireVersions ext) := by
  unfold State.retireVersions
  split
  · exact h
  · extract_lets -underBinder -useContext x1 x2 x3 x4 x5
    clear_value x1 x2 x3 x4
    have k6 : Kept r x5 := State.putExtent_kept h
    clear_value x5
    exact ite_keep h (ite_keep k6 (State.invalidate_kept k6))

theorem State.freeStream_kept {r s : State} {sid : Nat} (h : Kept r s) : Kept r (s.freeStream sid) := by
  unfold State.freeStream
  split
  · exact h
  · extract_lets -underBinder -useContext x1
    have k2 : Kept r x1 := State.dropWork_kept (State.delStream_kept h)
    clear_value x1
    refine Kept.foldl (fun y3 y4 k5 => ?_) k2
    split
    · exact k5
    · extract_lets -underBinder -useContext x6
      clear_value x6
      exact State.retireVersions_kept (State.putExtent_kept k5)

theorem State.delMailbox_kept {r s : State} {k : Nat} (h : Kept r s) : Kept r (s.delMailbox k) := by
  unfold State.delMailbox; exact h

theorem State.putSession_kept {r s : State} {k : Nat} {v : Session} (h : Kept r s) : Kept r (s.putSession k v) := by
  unfold State.putSession; exact h

theorem State.putEth_kept {r s : State} {p : Nat} {e : EthPort} (h : Kept r s) : Kept r (s.putEth p e) := by
  unfold State.putEth; exact ite_keep h h

theorem State.sendResponse_kept {r s : State} {port cls sid opcode cmdId mailbox : Nat}
    {a7 : Reply} (h : Kept r s) : Kept r (s.sendResponse port cls sid opcode cmdId mailbox a7) := by
  unfold State.sendResponse
  extract_lets -underBinder -useContext x1
  clear_value x1
  exact ite_keep (State.putEth_kept h) (State.emit_kept h)

theorem State.delSession_kept {r s : State} {k : Nat} (h : Kept r s) : Kept r (s.delSession k) := by
  unfold State.delSession; exact h

theorem State.endSession_kept {r s : State} {sid : Nat} (h : Kept r s) : Kept r (s.endSession sid) := by
  unfold State.endSession
  extract_lets -underBinder -useContext x1 x2 x3
  have k4 : Kept r x1 := State.delSession_kept h
  clear_value x1 x2
  exact k4

theorem State.numberFrames_kept {r s : State} {sid len : Nat} (h : Kept r s) : Kept r (s.numberFrames sid len) := by
  unfold State.numberFrames
  split
  · exact h
  · extract_lets -underBinder -useContext x1
    clear_value x1
    exact ite_keep (State.endSession_kept h) (State.putSession_kept h)

theorem State.respond_kept {r s : State} {ref : CmdRef} {a2 : Reply} (h : Kept r s) : Kept r (s.respond ref a2) := by
  unfold State.respond
  split
  · exact h
  · extract_lets -underBinder -useContext x1
    have k2 : Kept r x1 := State.delMailbox_kept h
    clear_value x1
    split
    · exact k2
    · extract_lets -underBinder -useContext x3 x4 x5
      clear_value x3 x4
      have k6 : Kept r x5 := State.putSession_kept k2
      clear_value x5
      exact ite_keep k6 (State.sendResponse_kept (State.numberFrames_kept k6))

theorem State.recordDone_kept {r s : State} {sid : Nat} (h : Kept r s) : Kept r (s.recordDone sid) := by
  unfold State.recordDone
  split
  · exact h
  · refine ite_keep (State.freeStream_kept h) (ite_keep h ?_)
    extract_lets -underBinder -useContext x1 x2
    clear_value x1
    have k3 : Kept r x2 := Kept.foldl (fun y4 y5 k6 => State.complete_kept k6) (State.freeStream_kept h)
    clear_value x2
    exact ite_keep (ite_keep (State.putStream_kept h) h) (Kept.foldl (fun y7 y8 k9 => State.respond_kept k9) k3)

theorem State.cutStream_kept {r s : State} {sid : Nat} {out : Status} (h : Kept r s) : Kept r (s.cutStream sid out) := by
  unfold State.cutStream
  split
  · exact h
  · refine ite_keep h ?_
    extract_lets -underBinder -useContext x1 x2 x3
    clear_value x1
    have k4 : Kept r x2 := State.dropWork_kept (State.putStream_kept h)
    clear_value x2
    have k5 : Kept r x3 := by
      unfold x3
      refine Kept.foldl (fun y6 y7 k8 => ?_) k4
      extract_lets -underBinder -useContext x9
      have k10 : Kept r x9 := State.appendEnded_kept (State.dropGot_kept k8)
      clear_value x9
      split
      · exact State.complete_kept k10
      · exact k10
    clear_value x3
    exact State.recordDone_kept k5

theorem State.runEnd_kept {r s : State} {a1 : Req} (h : Kept r s) : Kept r (s.runEnd a1) := by
  unfold State.runEnd
  extract_lets -underBinder -useContext x1 x2 x3
  clear_value x1 x2 x3
  split
  · exact State.complete_kept h
  · exact ite_keep (State.complete_kept (State.chargeLink_kept h)) (ite_keep (State.complete_kept h) (ite_keep
        (ite_keep (State.complete_kept h) (State.complete_kept (State.cutStream_kept h))) (ite_keep
        (State.complete_kept (State.freeStream_kept h)) (State.putStream_kept h))))

theorem State.modStream_kept {r s : State} {sid : Nat}
    {f : Stream → Stream} (h : Kept r s) : Kept r (s.modStream sid f) := by
  unfold State.modStream
  split
  · exact State.putStream_kept h
  · exact h

theorem State.acceptTile_kept {r s : State} {v : Stream}
    {h len : Nat} (hk : Kept r s) : PairAll Any (Kept r) (s.acceptTile v h len) := by
  unfold State.acceptTile
  extract_lets -underBinder -useContext x1 x2 x3
  clear_value x1
  have k4 : ∀ (st : Status), PairAll Any (Kept r) (x2 st) := by
    unfold x2
    intro y5
    exact ⟨trivial, hk⟩
  clear_value x2 x3
  refine ite_keep (k4 _) (ite_keep (k4 _) (ite_keep (k4 _) (ite_keep (k4 _) (ite_keep (k4 _) (ite_keep (k4 _) (ite_keep
      (k4 _) (ite_keep (k4 _) (ite_keep (k4 _) (ite_keep ⟨trivial, State.modStream_kept hk⟩ ?_)))))))))
  split
  · exact k4 _
  · extract_lets -underBinder -useContext x6
    clear_value x6
    exact ⟨trivial, hk⟩

theorem State.acceptSequence_kept {r s : State} {v : Stream}
    {h : Nat} (hk : Kept r s) : PairAll Any (Kept r) (s.acceptSequence v h) := by
  unfold State.acceptSequence
  refine ite_keep ⟨trivial, hk⟩ ?_
  split
  · exact ⟨trivial, hk⟩
  · refine ite_keep ⟨trivial, hk⟩ ?_
    split
    · exact ⟨trivial, hk⟩
    · exact ⟨trivial, State.acceptAppend_kept hk⟩

theorem State.enterTile_kept {r s : State} {v : Stream} {i h : Nat}
    {req : Option Req} (hk : Kept r s) : Kept r (s.enterTile v i h req) := by
  unfold State.enterTile
  extract_lets -underBinder -useContext x1
  clear_value x1
  exact State.later_kept (State.putStream_kept hk)

theorem State.runTile_kept {r s : State} {a1 : Req} (h : Kept r s) : Kept r (s.runTile a1) := by
  unfold State.runTile
  extract_lets -underBinder -useContext x1 x2 x3
  clear_value x1 x2
  have k4 : ∀ (s : State), Kept r s → ∀ (e : Status × Bool), Kept r (x3 s e) := by
    unfold x3
    intro y5 k6 y7
    exact State.complete_kept (ite_keep (State.chargeLink_kept k6) k6)
  clear_value x3
  split
  · exact k4 _ h _
  · refine ite_keep (k4 _ h _) (ite_keep (k4 _ h _) ?_)
    rename_i z8 z9 e10
    have k11 : PairAll Any (Kept r) (s.acceptTile z9 x1 x2) := State.acceptTile_kept h
    split
    · rename_i z12 z13 z14 e15
      have k16 := via e15 k11
      have k17 : Kept r z14 := k16.2
      exact k4 _ k17 _
    · rename_i z18 z19 z20 e21
      have k22 := via e21 k11
      have k23 : Kept r z20 := k22.2
      have k24 : PairAll Any (Kept r) (z20.acceptSequence z19 x1) := State.acceptSequence_kept k23
      split
      · rename_i z25 z26 z27 e28
        have k29 := via e28 k24
        have k30 : Kept r z27 := k29.2
        exact k4 _ k30 _
      · rename_i z31 z32 z33 e34
        have k35 := via e34 k24
        have k36 : Kept r z33 := k35.2
        exact State.enterTile_kept k36

theorem State.emitMarks_kept {r s : State} {req : Option Req} {payload : List Byte}
    {marks : List Nat} (h : Kept r s) : Kept r (s.emitMarks req payload marks) := by
  unfold State.emitMarks
  split
  · exact ite_keep h (State.emit_kept h)
  · exact h

theorem State.scratchRead_kept {r s : State}
    {w t d va len : Nat} (h : Kept r s) : PairAll Any (Kept r) (s.scratchRead w t d va len) := by
  unfold State.scratchRead; exact State.fetch_kept h

theorem State.wordsOf_kept {r s : State}
    {w t : Nat} (h : Kept r s) : PairAll Any (PairAll Any (Kept r)) (s.wordsOf w t) := by
  unfold State.wordsOf
  split
  · exact ⟨trivial, ⟨trivial, h⟩⟩
  · extract_lets -underBinder -useContext x1 x2 x3 x4
    clear_value x1 x2 x3
    have k5 : PairAll Any (Kept r) x4 := State.scratchRead_kept h
    clear_value x4
    exact ite_keep ⟨trivial, ⟨trivial, h⟩⟩ ⟨trivial, ⟨trivial, k5.2⟩⟩

theorem State.resultTileOf_kept {r s : State} {w t : Nat}
    {v : Window} (h : Kept r s) : PairAll Any (PairAll Any (PairAll Any (Kept r))) (s.resultTileOf w t v) := by
  unfold State.resultTileOf
  extract_lets -underBinder -useContext x1 x2 x3 x4 x5
  clear_value x1
  have k6 : PairAll Any (PairAll Any (Kept r)) x2 := State.wordsOf_kept h
  clear_value x2 x3 x4 x5
  exact ⟨trivial, ⟨trivial, ⟨trivial, k6.2.2⟩⟩⟩

theorem State.runResult_kept {r s : State} {a1 : Req} (h : Kept r s) : Kept r (s.runResult a1) := by
  unfold State.runResult
  extract_lets -underBinder -useContext x1 x2 x3 x4 x5
  clear_value x1 x2 x3
  have k6 : ∀ (s : State), Kept r s → ∀ (st : Status), Kept r (x4 s st) := by
    unfold x4
    intro y7 k8 y9
    exact State.complete_kept k8
  clear_value x4
  have k10 : ∀ (s : State), Kept r s → ∀ (st : Status) (tile : List Byte) (marks :
      List Nat), Kept r (x5 s st tile marks) := by
    unfold x5
    intro y11 k12 y13 y14 y15
    exact State.complete_kept (State.emitMarks_kept k12)
  clear_value x5
  refine ite_keep (k6 _ h _) ?_
  split
  · exact k10 _ (by exact h) _ _ _
  · split
    · exact k6 _ h _
    · refine ite_keep (k6 _ h _) (ite_keep (k6 _ h _) (ite_keep (k6 _ h _) ?_))
      extract_lets -underBinder -useContext x16
      clear_value x16
      split
      · exact k6 _ h _
      · exact k6 _ h _
      · refine ite_keep (k6 _ h _) ?_
        extract_lets -underBinder -useContext x17 x18
        clear_value x17 x18
        rename_i z19 e20 z21 z22 e23 z24 e25 e26
        have k27 : PairAll Any (Kept r) (s.readySpans x18 (List.take 1 (imageSpans z22.desc x3))) := State.readySpans_kept h
        split
        · rename_i z28 z29 e30
          have k31 := via e30 k27
          have k32 : Kept r z29 := k31.2
          exact k32
        · rename_i z33 z34 z35 e36 e37
          have k38 := via e37 k27
          have k39 : Kept r z35 := k38.2
          extract_lets -underBinder -useContext x40
          have k41 : PairAll Any (PairAll Any (PairAll Any (Kept r))) x40 := State.resultTileOf_kept k39
          clear_value x40
          exact k10 _ (by exact State.dropGot_kept k41.2.2.2) _ _ _

theorem State.writeBytes_kept {r s : State} {a : Nat} {b : List Byte} {bad : Bool}
    {a4 : Nat} (h : Kept r s) : PairAll Any (Kept r) (s.writeBytes a b bad a4) := by
  induction a4 generalizing s a b bad with
  | zero =>
    unfold State.writeBytes
    exact ⟨trivial, h⟩
  | succ n ih =>
    unfold State.writeBytes
    split
    · exact ⟨trivial, h⟩
    · extract_lets -underBinder -useContext x1 x2 x3
      clear_value x1
      have k4 : PairAll Any (Kept r) x2 := State.writeSector_kept h
      clear_value x2
      have k5 : PairAll Any (Kept r) x3 := ih k4.2
      clear_value x3
      exact ⟨trivial, k5.2⟩

theorem State.store_kept {r s : State} {a : Nat} {b : List Byte}
    {bad : optParam Bool false} (h : Kept r s) : PairAll Any (Kept r) (s.store a b bad) := by
  unfold State.store; exact State.writeBytes_kept h

theorem State.storePage_kept {r s : State} {a1 : Req}
    {ext page dp : Nat} (h : Kept r s) : Kept r (s.storePage a1 ext page dp) := by
  unfold State.storePage
  extract_lets -underBinder -useContext x1 x2 x3 x4
  clear_value x1
  have k5 : PairAll Any (Kept r) x2 := State.store_kept h
  clear_value x2
  have k6 : Kept r x3 := State.dropGot_kept k5.2
  clear_value x3
  have k7 : Kept r x4 := ite_keep (State.mirrorOut_kept k6) k6
  clear_value x4
  exact ite_keep (State.mirrorOut_kept k6) (State.complete_kept k7)

theorem State.readPage_kept {r s : State}
    {p : Nat} (h : Kept r s) : PairAll Any (PairAll Any (PairAll Any (Kept r))) (s.readPage p) := by
  unfold State.readPage
  extract_lets -underBinder -useContext x1 x2 x3
  have k4 : PairAll Any (PairAll Any (Kept r)) x1 := State.load_kept h
  clear_value x1 x2 x3
  exact ⟨trivial, ⟨trivial, ⟨trivial, k4.2.2⟩⟩⟩

theorem State.fetchPage_kept {r s : State} {a1 : Req} {ext page dp : Nat}
    {held : Option Status} (h : Kept r s) : Kept r (s.fetchPage a1 ext page dp held) := by
  unfold State.fetchPage
  extract_lets -underBinder -useContext x1
  clear_value x1
  have k2 : PairAll Any (Kept r) (s.awaitStack x1 (pageSectors dp)) := State.awaitStack_kept h
  split
  · rename_i z3 z4 e5
    have k6 := via e5 k2
    have k7 : Kept r z4 := k6.2
    exact k7
  · rename_i z8 z9 e10
    have k11 := via e10 k2
    have k12 : Kept r z9 := k11.2
    extract_lets -underBinder -useContext x13
    clear_value x13
    split
    · rename_i z17 z18 z19
      exact Kept.upd (s := List.foldl (fun s w => s.fetchMirror w.1 w.2.1 w.2.2) s (z18 :: z19)) (Kept.foldl
          (fun y20 y21 k22 => State.fetchMirror_kept k22) h) rfl
    · extract_lets -underBinder -useContext x23 x24 x25 x26 x27 x28 x29
      have k30 : PairAll Any (PairAll Any (PairAll Any (Kept r))) x23 := State.readPage_kept h
      clear_value x23 x24 x25 x26
      have k31 : Kept r x27 := k30.2.2.2
      clear_value x27
      have k32 : PairAll Any (PairAll Any (PairAll Any (Kept r))) x29 := ⟨trivial, ⟨trivial, ⟨trivial, k31⟩⟩⟩
      clear_value x29
      exact State.complete_kept (State.dropGot_kept k32.2.2.2)

theorem State.execPage_kept {r s : State} {a1 : Req} {ext page : Nat} {e : Extent}
    {ver : Option Nat} (h : Kept r s) : Kept r (s.execPage a1 ext page e ver) := by
  unfold State.execPage
  extract_lets -underBinder -useContext x1 x2
  clear_value x1
  have k3 : ∀ (write : Bool) (go : State → State), (∀ (a : State), Kept r a → Kept r (go a)) → Kept r (x2 write go) := by
    unfold x2
    intro y4 y5 k6
    have k7 : PairAll Any (Kept r) (s.comGuard (Access.request a1) [(ext, page * 65536, 65536, y4)]) := State.comGuard_kept h
    split
    · rename_i z8 z9 e10
      have k11 := via e10 k7
      have k12 : Kept r z9 := k11.2
      exact k6 _ k12
    · rename_i z13 z14 e15
      have k16 := via e15 k7
      have k17 : Kept r z14 := k16.2
      exact k17
    · rename_i z18 z19 e20
      have k21 := via e20 k7
      have k22 : Kept r z19 := k21.2
      exact State.complete_kept k22
  clear_value x2
  refine ite_keep (k3 _ _ (by exact fun y23 k24 => State.fetchPage_kept k24)) (ite_keep ?_ (k3 _ _
      (by exact fun y25 k26 => State.storePage_kept k26)))
  have k27 : OptAll (PairAll Any (Kept r)) (s.draftFrame ext page true) := State.draftFrame_kept h
  split
  · rename_i z28 z29 z30 e31
    have k32 := via e31 k27
    have k33 : Kept r z30 := k32.2
    exact State.storePage_kept k33
  · rename_i z34 e35
    have k36 := via e35 k27
    exact State.complete_kept h

theorem State.delCheckout_kept {r s : State} {k : Nat} (h : Kept r s) : Kept r (s.delCheckout k) := by
  unfold State.delCheckout; exact h

theorem State.endCheckout_kept {r s : State} {key : Nat}
    {reverted : Bool} (h : Kept r s) : Kept r (s.endCheckout key reverted) := by
  unfold State.endCheckout
  split
  · exact h
  · extract_lets -underBinder -useContext x1 x2
    have k3 : Kept r x1 := State.sendMeta_kept (State.delCheckout_kept h)
    clear_value x1
    exact State.later_kept k3

theorem State.checkoutStep_kept {r s : State} {a1 : Req} {ext page : Nat} {e : Extent}
    {ver : Option Nat} (h : Kept r s) : Kept r (s.checkoutStep a1 ext page e ver) := by
  unfold State.checkoutStep
  extract_lets -underBinder -useContext x1 x2 x3 x4 x5
  clear_value x1 x2 x3 x4
  have k6 : PairAll Any (Kept r) x5 := State.awaitStack_kept h
  clear_value x5
  refine ite_keep (State.complete_kept h) (ite_keep (State.complete_kept h) (ite_keep k6.2 ?_))
  split
  · refine ite_keep ?_ (ite_keep ?_ (State.execPage_kept h))
    · extract_lets -underBinder -useContext x7 x8 x9
      have k10 : Kept r x7 := State.putCheckout_kept h
      clear_value x7
      have k11 : Kept r x9 := State.sendMeta_kept k10
      clear_value x9
      exact State.invalidate_kept k11
    · split
      · exact ite_keep (State.complete_kept h) (State.complete_kept h)
      · exact State.complete_kept h
  · refine ite_keep (ite_keep (State.fetchPage_kept h) (ite_keep ?_ (State.execPage_kept h))) (ite_keep
        (State.complete_kept h) ?_)
    · extract_lets -underBinder -useContext x12
      clear_value x12
      exact ite_keep (State.complete_kept (State.endCheckout_kept h)) (State.storePage_kept (State.endCheckout_kept h))
    · have k13 : OptAll (Kept r) (s.awaitPage x1 (Access.request a1)) := State.awaitPage_kept h
      split
      · rename_i z14 z15 e16 z17 z18 e19
        have k20 := via e19 k13
        have k21 : Kept r z18 := k20
        exact k21
      · rename_i z22 z23 e24 z25 e26
        have k27 := via e26 k13
        exact State.complete_kept h

theorem State.runPage_kept {r s : State} {a1 : Req} (h : Kept r s) : Kept r (s.runPage a1) := by
  unfold State.runPage
  extract_lets -underBinder -useContext x1 x2 x3 x4 x5 x6 x7 x8 x9 x10 x11
  clear_value x1 x2 x3 x4 x5 x6
  have k12 : ∀ (s : State), Kept r s → ∀ (st : Status), Kept r (x7 s st) := by
    unfold x7
    intro y13 k14 y15
    exact State.complete_kept k14
  clear_value x7 x8 x9 x10 x11
  refine ite_keep (k12 _ h _) (ite_keep (k12 _ h _) ?_)
  split
  · exact k12 _ h _
  · exact k12 _ h _
  · extract_lets -underBinder -useContext x16 x17
    have k18 : Kept r x16 := State.lookup_kept h
    clear_value x16
    have k19 : PairAll Any (Kept r) x17 := State.awaitStack_kept k18
    clear_value x17
    exact ite_keep (k12 _ k18 _) (ite_keep (k12 _ k18 _) (ite_keep k19.2 (ite_keep (State.storePage_kept k18)
        (State.fetchPage_kept k18))))
  · refine ite_keep (k12 _ h _) (ite_keep (k12 _ h _) (ite_keep ?_ (State.complete_kept h)))
    rename_i z20 z21 e22
    have k23 : PairAll Any (Kept r) (s.populate x3 z21 (Access.request a1)) := State.populate_kept h
    split
    · rename_i z24 z25 z26 e27
      have k28 := via e27 k23
      have k29 : Kept r z26 := k28.2
      exact k12 _ k29 _
    · rename_i z30 z31 e32
      have k33 := via e32 k23
      have k34 : Kept r z31 := k33.2
      exact k34
  · split
    · exact k12 _ h _
    · extract_lets -underBinder -useContext x35 x36 x37
      clear_value x35 x36
      have k38 : Kept r x37 := State.lookup_kept h
      clear_value x37
      exact ite_keep (k12 _ k38 _) (ite_keep (k12 _ (by exact State.chargeLink_kept k38) _) (ite_keep (k12 _ k38 _)
          (ite_keep (k12 _ k38 _) (ite_keep (k12 _ k38 _) (ite_keep (k12 _ k38 _) (State.checkoutStep_kept k38))))))

theorem State.putHandle_kept {r s : State} {k : Nat} {v : Handle} (h : Kept r s) : Kept r (s.putHandle k v) := by
  unfold State.putHandle; exact h

theorem State.newHandle_kept {r s : State} {h : Handle} (hk : Kept r s) : OptAll (PairAll Any (Kept r)) (s.newHandle h) := by
  unfold State.newHandle
  extract_lets -underBinder -useContext x1
  clear_value x1
  exact OptAll.mk fun y2 => ⟨trivial, State.putHandle_kept hk⟩

theorem State.delHandle_kept {r s : State} {k : Nat} (h : Kept r s) : Kept r (s.delHandle k) := by
  unfold State.delHandle; exact h

theorem State.sendMetaFor_kept {r s : State} {a1 : PairRec}
    {w : MirrorWait} (h : Kept r s) : PairAll Any (Kept r) (s.sendMetaFor a1 w) := by
  unfold State.sendMetaFor
  refine ite_keep ?_ ⟨trivial, State.sendMeta_kept h⟩
  extract_lets -underBinder -useContext x1 x2 x3
  have k4 : PairAll Any (Kept r) x1 := State.pairSend_kept h
  clear_value x1
  have k5 : Kept r x2 := State.emit_kept k4.2
  clear_value x2
  exact ⟨trivial, k5⟩

theorem State.commitDraft_kept {r s : State} {ext : Nat} (h : Kept r s) : Kept r (s.commitDraft ext) := by
  unfold State.commitDraft
  split
  · exact h
  · split
    · split
      · extract_lets -underBinder -useContext x1 x2 x3 x4 x5 x6 x7
        have k8 : Kept r x1 := State.putExtent_kept h
        clear_value x1
        have k9 : Kept r x2 := by
          unfold x2
          split
          · exact State.putHandle_kept k8
          · exact k8
        clear_value x2 x3 x4 x5
        have k10 : PairAll Any (Kept r) x6 := State.sendMetaFor_kept k9
        clear_value x6
        have k11 : Kept r x7 := State.retireVersions_kept k10.2
        clear_value x7
        exact ite_keep (ite_keep k11 (State.complete_kept k11)) (State.complete_kept (State.retireVersions_kept
            (State.sendMeta_kept k9)))
      · exact h
    · exact h

theorem State.runVersion_kept {r s : State} {a1 : Req} (h : Kept r s) : Kept r (s.runVersion a1) := by
  unfold State.runVersion
  extract_lets -underBinder -useContext x1 x2 x3 x4 x5 x6 x7 x8
  clear_value x1 x2 x3 x4 x5
  have k9 : ∀ (s : State), Kept r s → ∀ (st : Status), Kept r (x6 s st) := by
    unfold x6
    intro y10 k11 y12
    exact State.complete_kept k11
  clear_value x6
  have k13 : ∀ (s : State), Kept r s → ∀ (st : Status) (w : Nat), Kept r (x7 s st w) := by
    unfold x7
    intro y14 k15 y16 y17
    exact State.complete_kept k15
  clear_value x7 x8
  refine ite_keep (k9 _ h _) (ite_keep (k9 _ h _) (ite_keep ?_ ?_))
  · split
    · exact k9 _ h _
    · exact k9 _ h _
    · extract_lets -underBinder -useContext x18
      have k19 : Kept r x18 := State.lookup_kept h
      clear_value x18
      split
      · exact k9 _ k19 _
      · refine ite_keep (k9 _ k19 _) (ite_keep (k9 _ k19 _) (ite_keep ?_ ?_))
        · rename_i z20 z21 z22 e23 z24 z25 e26
          have k27 : OptAll (PairAll Any (Kept r)) (x18.newHandle
              { extent := z21, node := x1.src, version := z25.current, st := HandleSt.reader }) := State.newHandle_kept k19
          split
          · rename_i z28 e29
            have k30 := via e29 k27
            exact k9 _ k19 _
          · rename_i z31 z32 z33 e34
            have k35 := via e34 k27
            have k36 : Kept r z33 := k35.2
            exact k13 _ k36 _ _
        · split
          · exact k13 _ k19 _ _
          · extract_lets -underBinder -useContext x37
            clear_value x37
            refine ite_keep (k9 _ k19 _) ?_
            rename_i z38 z39 z40 e41 z42 z43 e44 z45 e46
            have k47 : OptAll (PairAll Any (Kept r)) (x18.newHandle
                { extent := z39, node := x1.src, version := x37, st := HandleSt.draft }) := State.newHandle_kept k19
            split
            · rename_i z48 e49
              have k50 := via e49 k47
              exact k9 _ k19 _
            · rename_i z51 z52 z53 e54
              have k55 := via e54 k47
              have k56 : Kept r z53 := k55.2
              extract_lets -underBinder -useContext x57 x58
              clear_value x57
              have k59 : Kept r x58 := State.putExtent_kept k56
              clear_value x58
              exact k13 _ k59 _ _
    · exact k9 _ h _
  · split
    · exact ite_keep (k9 _ h _) (k9 _ h _)
    · extract_lets -underBinder -useContext x60
      clear_value x60
      split
      · exact ite_keep (k9 _ h _) (k9 _ h _)
      · refine ite_keep (k9 _ h _) (ite_keep (k9 _ h _) (ite_keep (ite_keep (k9 _ h _) (k9 _
            (by exact State.retireVersions_kept (State.delHandle_kept h)) _)) ?_))
        extract_lets -underBinder -useContext x61
        clear_value x61
        split
        · exact k9 _ h _
        · exact ite_keep (k13 _ h _ _) (k9 _ h _)
        · exact ite_keep (k9 _ h _) (k9 _ h _)
        · split
          · exact k9 _ h _
          · refine ite_keep (ite_keep (k13 _ h _ _) (k9 _ h _)) (ite_keep ?_ ?_)
            · extract_lets -underBinder -useContext x62
              have k63 : Kept r x62 := State.putExtent_kept h
              clear_value x62
              exact ite_keep k63 (State.commitDraft_kept k63)
            · extract_lets -underBinder -useContext x64 x65
              have k66 : Kept r x64 := State.putExtent_kept (State.putHandle_kept h)
              clear_value x64
              have k67 : Kept r x65 := State.sendMeta_kept k66
              clear_value x65
              exact k9 _ (by exact State.retireVersions_kept k67) _

theorem State.runLine_kept {r s : State} {a1 : Req} (h : Kept r s) : Kept r (s.runLine a1) := by
  unfold State.runLine
  extract_lets -underBinder -useContext x1 x2 x3 x4 x5
  clear_value x1 x2 x3 x4 x5
  refine ite_keep (State.complete_kept h) (ite_keep (State.complete_kept h) ?_)
  split
  · exact State.complete_kept h
  · exact State.complete_kept h
  · exact State.complete_kept h
  · exact State.complete_kept h
  · extract_lets -underBinder -useContext x6
    have k7 : Kept r x6 := State.lookup_kept h
    clear_value x6
    refine ite_keep (State.complete_kept k7) ?_
    split
    · refine ite_keep (State.complete_kept k7) (ite_keep (State.complete_kept (State.chargeLink_kept k7)) (ite_keep
          (State.complete_kept k7) ?_))
      extract_lets -underBinder -useContext x8
      clear_value x8
      split
      · exact ite_keep (State.complete_kept k7) (State.lineArrive_kept k7)
      · exact State.lineArrive_kept k7
    · exact State.complete_kept k7

theorem State.delLink_kept {r s : State} {k : Nat} (h : Kept r s) : Kept r (s.delLink k) := by
  unfold State.delLink; exact h

theorem State.endLink_kept {r s : State} {id : Nat} (h : Kept r s) : Kept r (s.endLink id) := by
  unfold State.endLink
  split
  · exact Kept.upd (s := s.delLink id) (State.delLink_kept h) rfl
  · exact h

theorem State.putNodeRec_kept {r s : State} {k : Nat} {v : NodeRec} (h : Kept r s) : Kept r (s.putNodeRec k v) := by
  unfold State.putNodeRec; exact h

theorem State.nodeGen_kept {r s : State} {n gen : Nat} (h : Kept r s) : Kept r (s.nodeGen n gen) := by
  unfold State.nodeGen
  extract_lets -underBinder -useContext x1 x2 x3 x4 x5 x6 x7
  clear_value x1 x2
  have k8 : Kept r x3 := State.sendMeta_kept (State.putNodeRec_kept h)
  clear_value x3 x4
  have k9 : Kept r x6 := k8
  clear_value x6
  have k10 : Kept r x7 := State.countDev_kept k9
  clear_value x7
  exact ite_keep h (ite_keep k10 (State.later_kept k10))

theorem State.newBucket_kept {r s : State} {id t : Nat} (h : Kept r s) : Kept r (s.newBucket id t) := by
  unfold State.newBucket; exact h

theorem State.runLinkOpen_kept {r s : State} {a1 : Req} (h : Kept r s) : Kept r (s.runLinkOpen a1) := by
  unfold State.runLinkOpen
  extract_lets -underBinder -useContext x1 x2 x3 x4
  clear_value x1 x2 x3 x4
  refine ite_keep (State.complete_kept h) (ite_keep (State.complete_kept h) ?_)
  split
  · exact State.complete_kept h
  · split
    · exact State.complete_kept h
    · extract_lets -underBinder -useContext x5 x6 x7 x8 x9
      clear_value x5
      have k10 : Kept r x6 := Kept.foldl (fun y11 y12 k13 => State.endLink_kept k13) h
      clear_value x6
      have k14 : Kept r x7 := State.putLink_kept (State.nodeGen_kept k10)
      clear_value x7
      have k15 : Kept r x9 := State.newBucket_kept k14
      clear_value x9
      exact State.complete_kept k15

theorem State.runLinkClose_kept {r s : State} {a1 : Req} (h : Kept r s) : Kept r (s.runLinkClose a1) := by
  unfold State.runLinkClose; exact State.complete_kept (State.endLink_kept h)

theorem State.runRequest_kept {r s : State} {a1 : Req} (h : Kept r s) : Kept r (s.runRequest a1) := by
  unfold State.runRequest
  extract_lets -underBinder -useContext x1
  clear_value x1
  exact ite_keep (State.runOpen_kept h) (ite_keep (State.runEnd_kept h) (ite_keep (State.runTile_kept h) (ite_keep
      (State.runResult_kept h) (ite_keep (State.runPage_kept h) (ite_keep (State.runVersion_kept h) (ite_keep
      (State.runLine_kept h) (ite_keep (State.runLinkOpen_kept h) (State.runLinkClose_kept h))))))))

theorem State.beginRequest_kept {r s : State} {a1 : Req} (h : Kept r s) : Kept r (s.beginRequest a1) := by
  unfold State.beginRequest
  split
  · exact State.runRequest_kept h
  · extract_lets -underBinder -useContext x1 x2 x3 x4 x5
    clear_value x1
    have k6 : Kept r x2 := State.modStation_kept h
    clear_value x2
    have k7 : Kept r x4 := ite_keep k6 k6
    clear_value x4
    exact ite_keep (State.runRequest_kept h) k7

theorem State.acceptRequest_kept {r s : State} {a1 : Req} (h : Kept r s) : Kept r (s.acceptRequest a1) := by
  unfold State.acceptRequest
  split
  · exact State.beginRequest_kept h
  · extract_lets -underBinder -useContext x1 x2 x3 x4 x5
    clear_value x1 x2 x3 x4
    exact State.later_kept h

theorem State.ackStopped_kept {r s : State} {n : Nat} (h : Kept r s) : Kept r (s.ackStopped n) := by
  unfold State.ackStopped; exact h

theorem State.ackResets_kept {r s : State} (h : Kept r s) : Kept r s.ackResets := by
  unfold State.ackResets
  exact ite_keep h (Kept.foldl (fun y1 y2 k3 => ite_keep (State.ackStopped_kept k3) k3) h)

theorem State.writeVolt_kept {r s : State} {c : LevelChange} (h : Kept r s) : Kept r (s.writeVolt c) := by
  unfold State.writeVolt; exact State.emit_kept h

theorem State.relevel_kept {r s : State} (h : Kept r s) : Kept r s.relevel := by
  unfold State.relevel
  extract_lets -underBinder -useContext x1 x2
  clear_value x1
  exact ite_keep h (ite_keep h (ite_keep h (ite_keep (State.writeVolt_kept h) (ite_keep (State.writeVolt_kept h) h))))

theorem State.ackTimeout_kept {r s : State} (h : Kept r s) : Kept r s.ackTimeout := by
  unfold State.ackTimeout
  split
  · exact h
  · exact ite_keep h (ite_keep (State.writeVolt_kept h) (State.relevel_kept (State.recOp_kept h)))

theorem State.ackTimer_kept {r s : State} {p : Nat} (h : Kept r s) : Kept r (s.ackTimer p) := by
  unfold State.ackTimer; exact State.modPort_kept h

theorem State.recAll_kept {r s : State}
    {code kind subject arg0 arg1 tKind tSubject tArg0 tArg1 : Nat}
    (h : Kept r s) : Kept r (s.recAll code kind subject arg0 arg1 tKind tSubject tArg0 tArg1) := by
  unfold State.recAll
  exact Kept.foldl (fun y1 y2 k3 => State.recTen_kept k3) (State.recOp_kept h)

theorem State.beginMgmtReset_kept {r s : State} {cause : Nat} (h : Kept r s) : Kept r (s.beginMgmtReset cause) := by
  unfold State.beginMgmtReset; exact State.recAll_kept h

theorem State.writeSlots_kept {r s : State} (h : Kept r s) : Kept r s.writeSlots := by
  unfold State.writeSlots Fw.writeRecord
  extract_lets now x
  by_cases e : (now == s.fw.copyA) = true <;> simp only [e] <;> exact h

theorem State.activateMgmt_kept {r s : State} {n : Nat} (h : Kept r s) : Kept r (s.activateMgmt n) := by
  unfold State.activateMgmt; exact State.beginMgmtReset_kept (State.writeSlots_kept h)

theorem State.modWindow_kept {r s : State} {w : Nat} {f : Window → Window} (h : Kept r s) : Kept r (s.modWindow w f) := by
  unfold State.modWindow; exact h

theorem State.modLTile_kept {r s : State} {w t : Nat} {f : LTile → LTile} (h : Kept r s) : Kept r (s.modLTile w t f) := by
  unfold State.modLTile; exact State.modWindow_kept h

theorem State.markTile_kept {r s : State} {w t : Nat} {marks : List Nat} (h : Kept r s) : Kept r (s.markTile w t marks) := by
  unfold State.markTile; exact ite_keep h (State.modLTile_kept h)

theorem State.mirrorWrites_kept {r s : State} {l : List TileWrite} {caches : List CacheRec}
    {w : MirrorWait} (h : Kept r s) : PairAll Any (Kept r) (s.mirrorWrites l caches w) := by
  unfold State.mirrorWrites
  extract_lets -underBinder -useContext x1 x2
  clear_value x1 x2
  refine ⟨trivial, Kept.foldl (fun y3 y4 k5 => ?_) h⟩
  extract_lets -underBinder -useContext x6 x7 x8
  clear_value x6 x7 x8
  exact State.mirrorOut_kept k5

theorem State.putWrite_kept {r s : State} {w : TileWrite} (h : Kept r s) : PairAll Any (Kept r) (s.putWrite w) := by
  unfold State.putWrite
  refine foldl_keep (fun y1 y2 k3 => ?_) ⟨trivial, h⟩
  extract_lets -underBinder -useContext x4 x5 x6
  clear_value x4 x5
  have k7 : PairAll Any (Kept r) x6 := State.writeSector_kept k3.2
  clear_value x6
  exact ⟨trivial, k7.2⟩

theorem State.putWrites_kept {r s : State} {l : List TileWrite} (h : Kept r s) : PairAll Any (Kept r) (s.putWrites l) := by
  unfold State.putWrites
  refine foldl_keep (fun y1 y2 k3 => ?_) ⟨trivial, h⟩
  extract_lets -underBinder -useContext x4
  have k5 : PairAll Any (Kept r) x4 := State.putWrite_kept k3.2
  clear_value x4
  exact ⟨trivial, k5.2⟩

theorem State.scratchWrite_kept {r s : State} {w t d va : Nat} {b : List Byte}
    {bad : optParam (Nat → Bool) fun (x : Nat) => false} (h : Kept r s) : Kept r (s.scratchWrite w t d va b bad) := by
  unfold State.scratchWrite
  extract_lets -underBinder -useContext x1
  clear_value x1
  exact (State.mirrorWrites_kept ((State.putWrites_kept h).2)).2

theorem State.setWords_kept {r s : State} {w t : Nat} {words : List Nat} (h : Kept r s) : Kept r (s.setWords w t words) := by
  unfold State.setWords
  split
  · exact h
  · exact ite_keep (State.scratchWrite_kept h) (State.modLTile_kept h)

theorem State.addTo_kept {r s : State} {w t op : Nat} {first : Bool}
    {vals : List Val} (h : Kept r s) : Kept r (s.addTo w t op first vals) := by
  unfold State.addTo
  split
  · exact h
  · extract_lets -underBinder -useContext x1 x2
    have k3 : PairAll Any (PairAll Any (Kept r)) x1 := State.wordsOf_kept h
    clear_value x1 x2
    exact State.markTile_kept (State.modLTile_kept (State.setWords_kept k3.2.2))

end Sys2Proof.Machine
end

