-- ==== Sys2Proof/Laws/Kept/Part3.lean ====
section
/-! SUPPORT. Part3.lean: what each operation of the machine keeps (Laws/Kept.lean), one lemma per definition, in the
order in which they call each other. -/

namespace Sys2Proof.Machine

theorem State.addHeld_kept {r s : State} {w t a : Nat} (h : Kept r s) : Kept r (s.addHeld w t a) := by
  induction a generalizing s w t with
  | zero =>
    unfold State.addHeld
    exact h
  | succ n ih =>
    unfold State.addHeld
    split
    · exact h
    · extract_lets -underBinder -useContext x1 x2 x3 x4 x5
      clear_value x1 x2
      have k6 : PairAll Any (Kept r) x3 := State.scratchRead_kept h
      clear_value x3
      have k7 : Kept r x4 := State.addTo_kept k6.2
      clear_value x4 x5
      exact ite_keep (ih (State.markTile_kept (State.modLTile_kept k7))) h

theorem State.addRow_kept {r s : State} {w i first : Nat}
    {row : List TileWrite} (h : Kept r s) : PairAll Any (PairAll Any (Kept r)) (s.addRow w i first row) := by
  unfold State.addRow
  extract_lets -underBinder -useContext x1 x2 x3 x4 x5 x6 x7 x8 x9
  clear_value x1 x2
  have k10 : PairAll Any (PairAll Any (Kept r)) x3 := by
    unfold x3
    refine foldl_keep (fun y11 y12 k13 => ?_) ⟨trivial, ⟨trivial, h⟩⟩
    extract_lets -underBinder -useContext x14
    have k15 : PairAll Any (PairAll Any (Kept r)) x14 := State.load_kept k13.2.2
    clear_value x14
    exact ⟨trivial, ⟨trivial, k15.2.2⟩⟩
  clear_value x3 x4 x5 x6 x7 x8
  have k16 : PairAll Any (Kept r) x9 := State.putWrites_kept k10.2.2
  clear_value x9
  exact ⟨trivial, ⟨trivial, k16.2⟩⟩

theorem State.putTenant_kept {r s : State} {k : Nat} {v : Tenant} (h : Kept r s) : Kept r (s.putTenant k v) := by
  unfold State.putTenant; exact h

theorem State.openTenant_kept {r s : State} {t : Nat} (h : Kept r s) : ExcAll Any (Kept r) (s.openTenant t) := by
  have k v : Kept r (s.putTenant t v) := State.putTenant_kept h
  unfold State.openTenant
  split
  · trivial
  · split
    · exact h
    · trivial
    · refine ite_keep (p := ExcAll Any (Kept r)) trivial ?_
      extract_lets x
      have kx : Kept r x := k _
      exact kx.ofLog (t := { x with ten.nextKey := s.ten.nextKey + 1, log.ten := s.log.ten.put t {} })
        (kx.queues.put (Nat.zero_le _)) rfl rfl

theorem State.admitSession_kept {r s : State} {h : Handshake}
    {sigOk : Bool} (hk : Kept r s) : ExcAll Any (Kept r) (s.admitSession h sigOk) := by
  unfold State.admitSession
  extract_lets -underBinder -useContext x1 x2
  clear_value x1 x2
  refine ite_keep trivial ?_
  split
  · exact ite_keep trivial (ite_keep trivial hk)
  · exact ite_keep trivial (ite_keep trivial (ite_keep trivial (State.openTenant_kept hk)))

theorem State.payCredits_kept {r s : State} (h : Kept r s) : Kept r s.payCredits := by
  unfold State.payCredits
  extract_lets -underBinder -useContext x1 x2
  clear_value x1
  exact Kept.foldl (fun y3 y4 k5 => State.modPort_kept k5) h

theorem State.noteRoutes_kept {r s : State} (h : Kept r s) : Kept r s.noteRoutes := by
  unfold State.noteRoutes; exact h

theorem State.becomeOut_kept {r s : State} (h : Kept r s) : Kept r s.becomeOut := by
  unfold State.becomeOut; exact h

theorem State.linkCheck_kept {r s : State} (h : Kept r s) : Kept r s.linkCheck := by
  unfold State.linkCheck; exact ite_keep (State.becomeOut_kept h) h

theorem State.delImport_kept {r s : State} {k : Nat} (h : Kept r s) : Kept r (s.delImport k) := by
  unfold State.delImport; exact h

theorem State.respondBad_kept {r s : State} {ref : CmdRef} {st : Status} (h : Kept r s) : Kept r (s.respondBad ref st) := by
  unfold State.respondBad; exact State.respond_kept h

theorem State.endImports_kept {r s : State} {st : Status}
    {gone : Nat → Import → Bool} (h : Kept r s) : Kept r (s.endImports st gone) := by
  unfold State.endImports
  refine Kept.foldl (fun y1 y2 k3 => ite_keep ?_ k3) h
  extract_lets -underBinder -useContext x4 x5 x6
  have k7 : Kept r x4 := State.delImport_kept k3
  clear_value x4
  have k8 : Kept r x6 := k7
  clear_value x6
  split
  · exact State.respondBad_kept k8
  · exact k8

theorem State.beginEnd_kept {r s : State} {t : Nat} {x : Tenant}
    {cmds : List CmdRef} (h : Kept r s) : Kept r (s.beginEnd t x cmds) := by
  unfold State.beginEnd
  extract_lets -underBinder -useContext x1 x2
  have k3 : Kept r x1 := State.putTenant_kept h
  clear_value x1
  have k4 : Kept r x2 := Kept.foldl (fun y5 y6 k7 => State.endLink_kept k7) k3
  clear_value x2
  exact State.endImports_kept k4

theorem State.draw_kept {r s : State} {w : Nat} (h : Kept r s) : PairAll Any (Kept r) (s.draw w) := ⟨trivial, h.drawn⟩

theorem State.downCode_kept {r s : State} {reason w : Nat} (h : Kept r s) : PairAll Any (Kept r) (s.downCode reason w) := by
  unfold State.downCode; exact ite_keep (State.draw_kept h) ⟨trivial, h⟩

theorem State.setPortReady_kept {r s : State} {p : Nat} {up : Bool} (h : Kept r s) : Kept r (s.setPortReady p up) := by
  unfold State.setPortReady
  extract_lets -underBinder -useContext x1 x2 x3
  clear_value x1 x2
  exact h

theorem State.lostEntry_kept {r s : State} {port : Nat} {o : Outst} (h : Kept r s) : Kept r (s.lostEntry port o) := by
  unfold State.lostEntry; exact ite_keep (State.later_kept h) (State.send_kept h)

theorem State.portDown_kept {r s : State} {p reason : Nat} (h : Kept r s) : Kept r (s.portDown p reason) := by
  unfold State.portDown
  extract_lets -underBinder -useContext x1 x2 x3 x4 x5 x6 x7 x8 x9 x10 x11
  clear_value x1
  have k12 : PairAll Any (Kept r) x2 := State.downCode_kept h
  clear_value x2
  have k13 : Kept r x3 := k12.2
  clear_value x3 x4
  have k14 : Kept r x5 := ite_keep (State.emit_kept k13) k13
  clear_value x5
  have k15 : Kept r x6 := State.emit_kept k14
  clear_value x6
  have k16 : PairAll Any (Kept r) x7 := State.downCode_kept k15
  clear_value x7
  have k17 : Kept r x8 := State.recOp_kept k16.2
  clear_value x8 x9
  have k18 : Kept r x10 := State.setPortReady_kept (State.putPort_kept k17)
  clear_value x10
  exact ite_keep h (Kept.foldl (fun y19 y20 k21 => State.lostEntry_kept k21) k18)

theorem State.pairBoot_kept {r s : State} (h : Kept r s) : Kept r s.pairBoot := by
  unfold State.pairBoot
  extract_lets -underBinder -useContext x1 x2
  clear_value x1 x2
  exact h

theorem State.restartKeys_kept {r s : State} {n : Nat} (h : Kept r s) : Kept r (s.restartKeys n) := by
  unfold State.restartKeys
  extract_lets -underBinder -useContext x1 x2 x3 x4 x5 x6 x7 x8 x9 x10 x11
  have k12 : Kept r x1 := Kept.foldl (fun y13 y14 k15 => ite_keep (State.beginEnd_kept k15) k15) h
  clear_value x1
  have k16 : Kept r x3 := k12
  clear_value x3
  have k17 : Kept r x4 := Kept.foldl (fun y18 y19 k20 => State.endLink_kept k20) k16
  clear_value x4
  have k21 : Kept r x5 := Kept.foldl (fun y22 y23 k24 => State.endSession_kept k24) k17
  clear_value x5
  have k25 : Kept r x6 := Kept.foldl (fun y26 y27 k28 => State.portDown_kept k28) k21
  clear_value x6
  have k29 : Kept r x11 := k25
  clear_value x11
  exact State.pairBoot_kept (State.writeSlots_kept k29)

theorem State.respondOk_kept {r s : State} {ref : CmdRef} (h : Kept r s) : Kept r (s.respondOk ref) := by
  unfold State.respondOk; exact State.respond_kept h

theorem State.handoverCheck_kept {r s : State} (h : Kept r s) : Kept r s.handoverCheck := by
  unfold State.handoverCheck
  split
  · refine ite_keep ?_ h
    extract_lets -underBinder -useContext x1 x2
    have k3 : Kept r x2 := h
    clear_value x2
    exact State.restartKeys_kept (State.respondOk_kept k3)
  · exact h

theorem State.setSlot_kept {r s : State} {n : Nat} {x : Slot} (h : Kept r s) : Kept r (s.setSlot n x) := by
  unfold State.setSlot; exact State.writeSlots_kept (ite_keep h h)

theorem State.stageEnd_kept {r s : State} {st : Stage} {x : Slot}
    {a3 : Reply} (h : Kept r s) : Kept r (s.stageEnd st x a3) := by
  unfold State.stageEnd
  extract_lets -underBinder -useContext x1 x2 x3
  have k4 : Kept r x2 := State.setSlot_kept h
  clear_value x2
  have k5 : Kept r x3 := by
    unfold x3
    split
    · exact k4
    · exact k4
  clear_value x3
  split
  · exact State.respond_kept k5
  · exact k5

theorem State.stageFail_kept {r s : State} {st : Stage} {status : Status}
    {reason : Nat} (h : Kept r s) : Kept r (s.stageFail st status reason) := by
  unfold State.stageFail; exact State.stageEnd_kept h

theorem State.stageCheck_kept {r s : State} (h : Kept r s) : Kept r s.stageCheck := by
  unfold State.stageCheck
  split
  · split
    · exact ite_keep h (State.stageFail_kept h)
    · exact h
  · exact h

theorem State.importEnds_kept {r s : State} {ext : Nat} {m : Import} (h : Kept r s) : Kept r (s.importEnds ext m) := by
  unfold State.importEnds
  extract_lets -underBinder -useContext x1
  have k2 : Kept r x1 := State.delImport_kept h
  clear_value x1
  split
  · exact k2
  · exact k2

theorem State.putImport_kept {r s : State} {k : Nat} {v : Import} (h : Kept r s) : Kept r (s.putImport k v) := by
  unfold State.putImport; exact h

theorem State.importCheck_kept {r s : State} {ext : Nat} (h : Kept r s) : Kept r (s.importCheck ext) := by
  unfold State.importCheck
  split
  · exact h
  · split
    · extract_lets -underBinder -useContext x1
      have k2 : Kept r x1 := ite_keep (State.importEnds_kept h) (State.putImport_kept h)
      clear_value x1
      exact State.respond_kept k2
    · exact h

theorem State.importsEnd_kept {r s : State} (h : Kept r s) : Kept r s.importsEnd := by
  unfold State.importsEnd
  extract_lets -underBinder -useContext x1
  have k2 : Kept r x1 := ite_keep h (State.endImports_kept h)
  clear_value x1
  exact Kept.foldl (fun y3 y4 k5 => State.importCheck_kept k5) k2

theorem State.delInval_kept {r s : State} {k : Nat} (h : Kept r s) : Kept r (s.delInval k) := by
  unfold State.delInval; exact h

theorem State.delGran_kept {r s : State} {k : Nat} (h : Kept r s) : Kept r (s.delGran k) := by
  unfold State.delGran; exact h

theorem State.setGran_kept {r s : State} {g : Nat} {x : Gran} (h : Kept r s) : Kept r (s.setGran g x) := by
  unfold State.setGran; exact ite_keep (State.delGran_kept h) (State.putGran_kept h)

theorem State.settleRank_kept {r s : State} {a1 : Nat} {st : RankSt} (h : Kept r s) : Kept r (s.settleRank a1 st) := by
  unfold State.settleRank; exact h

theorem State.startMigration_kept {r s : State} (h : Kept r s) : Kept r s.startMigration := by
  unfold State.startMigration
  split
  · extract_lets -underBinder -useContext x1 x2
    have k3 : Kept r x2 := h
    clear_value x2
    split
    · exact k3
    · exact k3
  · exact h

theorem State.endMigration_kept {r s : State} {m : Migration} (h : Kept r s) : Kept r (s.endMigration m) := by
  unfold State.endMigration
  extract_lets -underBinder -useContext x1 x2 x3
  have k4 : Kept r x1 := State.settleRank_kept h
  clear_value x1
  have k5 : Kept r x2 := by
    unfold x2
    split
    · exact State.settleRank_kept k4
    · exact k4
  clear_value x2
  exact State.startMigration_kept (State.recOp_kept k5)

theorem State.migrationCheck_kept {r s : State} (h : Kept r s) : Kept r s.migrationCheck := by
  unfold State.migrationCheck
  split
  · exact ite_keep (State.endMigration_kept h) h
  · exact h

theorem State.migrateDone_kept {r s : State} {src dst : Nat} (h : Kept r s) : Kept r (s.migrateDone src dst) := by
  unfold State.migrateDone
  extract_lets -underBinder -useContext x1 x2
  clear_value x1
  have k3 : Kept r x2 := State.putGran_kept (State.setGran_kept h)
  clear_value x2
  exact State.migrationCheck_kept (ite_keep (State.later_kept k3) k3)

theorem State.delExtent_kept {r s : State} {k : Nat} (h : Kept r s) : Kept r (s.delExtent k) := by
  unfold State.delExtent; exact h

theorem State.quarantine_kept {r s : State} {l : List Nat} (h : Kept r s) : Kept r (s.quarantine l) := by
  unfold State.quarantine
  refine Kept.foldl (fun y1 y2 k3 => ?_) h
  extract_lets -underBinder -useContext x4 x5 x6 x7
  clear_value x4
  have k8 : Kept r x5 := ite_keep (State.putGran_kept k3) k3
  clear_value x5 x6 x7
  exact State.putGran_kept k8

theorem State.endRevoke_kept {r s : State} {ext : Nat} (h : Kept r s) : Kept r (s.endRevoke ext) := by
  unfold State.endRevoke
  split
  · exact h
  · extract_lets -underBinder -useContext x1 x2 x3 x4 x5
    have k6 : Kept r x1 := by
      unfold x1
      split
      · exact State.complete_kept h
      · exact h
    clear_value x1
    have k7 : Kept r x2 := State.delExtent_kept (State.quarantine_kept k6)
    clear_value x2
    have k8 : Kept r x5 := k7
    clear_value x5
    exact State.sendMeta_kept k8

theorem State.dropMap_kept {r s : State} {asid va : Nat} (h : Kept r s) : Kept r (s.dropMap asid va) := by
  unfold State.dropMap; exact h

theorem State.touchGran_kept {r s : State} {g : Nat} (h : Kept r s) : Kept r (s.touchGran g) := by
  unfold State.touchGran
  extract_lets -underBinder -useContext x1 x2 x3
  clear_value x1 x2 x3
  exact State.modStack_kept h

theorem State.zeroGran_kept {r s : State} {g : Nat} (h : Kept r s) : Kept r (s.zeroGran g) := by
  unfold State.zeroGran
  extract_lets -underBinder -useContext x1 x2
  have k3 : Kept r x2 := Kept.zeroMem h rfl rfl rfl
  clear_value x2
  exact ite_keep k3 (State.touchGran_kept k3)

theorem State.freeFrames_kept {r s : State} {ext : Nat} (h : Kept r s) : Kept r (s.freeFrames ext) := by
  unfold State.freeFrames
  split
  · exact h
  · extract_lets -underBinder -useContext x1 x2
    clear_value x1 x2
    exact State.quarantine_kept (State.putExtent_kept h)

theorem State.endCheckoutWait_kept {r s : State} {ext page : Nat}
    {a3 : Req} (h : Kept r s) : Kept r (s.endCheckoutWait ext page a3) := by
  unfold State.endCheckoutWait
  split
  · exact ite_keep (State.complete_kept h) (State.fetchPage_kept h)
  · exact State.complete_kept h

theorem State.invalDone_kept {r s : State} {p : InvalFor} (h : Kept r s) : Kept r (s.invalDone p) := by
  unfold State.invalDone
  split
  · exact State.endRevoke_kept h
  · split
    · extract_lets -underBinder -useContext x1
      have k2 : Kept r x1 := State.dropMap_kept h
      clear_value x1
      split
      · exact State.respondOk_kept k2
      · exact k2
    · exact h
  · exact State.dropMap_kept h
  · exact State.quarantine_kept h
  · exact Kept.foldl (fun y3 y4 k5 => State.setGran_kept (State.zeroGran_kept k5)) h
  · exact State.freeFrames_kept h
  · exact State.endCheckoutWait_kept h
  · exact h

theorem State.invalsEnd_kept {r s : State} (h : Kept r s) : Kept r s.invalsEnd := by
  unfold State.invalsEnd
  refine Kept.foldl (fun y1 y2 k3 => ite_keep ?_ k3) h
  extract_lets -underBinder -useContext x4
  have k5 : Kept r x4 := State.delInval_kept k3
  clear_value x4
  split
  · exact State.migrateDone_kept k5
  · exact State.invalDone_kept k5

theorem State.sweepLate_kept {r s : State} (h : Kept r s) : Kept r s.sweepLate := by
  unfold State.sweepLate
  extract_lets -underBinder -useContext x1
  clear_value x1
  refine ite_keep h (Kept.foldl (fun y2 y3 k4 => ?_) h)
  extract_lets -underBinder -useContext x5 x6
  clear_value x5 x6
  exact ite_keep k4 (State.lineArrive_kept k4)

theorem State.releaseLines_kept {r s : State} (h : Kept r s) : Kept r s.releaseLines := by
  unfold State.releaseLines
  refine Kept.foldl (fun y1 y2 k3 => ?_) h
  split
  · exact ite_keep k3 (State.lineNext_kept (State.putTrans_kept k3))
  · exact k3

theorem State.delCommon_kept {r s : State} {k : Nat} (h : Kept r s) : Kept r (s.delCommon k) := by
  unfold State.delCommon; exact h

theorem State.commonEnd_kept {r s : State} (h : Kept r s) : Kept r s.commonEnd := by
  unfold State.commonEnd
  extract_lets -underBinder -useContext x1
  have k2 : Kept r x1 := State.sweepLate_kept (State.releaseLines_kept h)
  clear_value x1
  refine Kept.foldl (fun y3 y4 k5 => ite_keep ?_ k5) k2
  extract_lets -underBinder -useContext x6
  have k7 : Kept r x6 := State.sendMeta_kept (State.delCommon_kept k5)
  clear_value x6
  split
  · exact State.respondOk_kept k7
  · exact k7

theorem State.repick_kept {r s : State} (h : Kept r s) : Kept r s.repick := by
  unfold State.repick
  refine Kept.foldl (fun y1 y2 k3 => ?_) h
  extract_lets -underBinder -useContext x4 x5 x6 x7 x8 x9
  clear_value x4 x5 x6 x7 x8 x9
  split
  · exact State.route_kept k3
  · split
    · exact State.commit_kept k3
    · exact k3

theorem State.tidy_kept {r s : State} (h : Kept r s) : Kept r s.tidy := by
  unfold State.tidy
  extract_lets -underBinder -useContext x1
  have k2 : Kept r x1 := State.payCredits_kept (State.noteRoutes_kept (State.linkCheck_kept (State.handoverCheck_kept
      (State.stageCheck_kept (State.importsEnd_kept (State.invalsEnd_kept (State.ackResets_kept
      (State.commonEnd_kept h))))))))
  clear_value x1
  exact ite_keep k2 (State.repick_kept k2)

theorem State.modTile_kept {r s : State} {sid i : Nat} {f : Tile → Tile} (h : Kept r s) : Kept r (s.modTile sid i f) := by
  unfold State.modTile
  split
  · exact State.putStream_kept h
  · exact h

theorem State.modSplit_kept {r s : State} {sid i j : Nat}
    {f : Split → Split} (h : Kept r s) : Kept r (s.modSplit sid i j f) := by
  unfold State.modSplit; exact State.modTile_kept h

theorem State.commitStream_kept {r s : State} {sid : Nat} (h : Kept r s) : Kept r (s.commitStream sid) := by
  unfold State.commitStream
  split
  · exact h
  · split
    · exact State.recordDone_kept h
    · extract_lets -underBinder -useContext x1 x2
      clear_value x1 x2
      exact ite_keep (State.recordDone_kept (State.dropWork_kept (State.putStream_kept h))) (State.recordDone_kept h)

theorem State.endTile_kept {r s : State} {sid i : Nat} {st : Status}
    {payload : optParam (List Byte) []} (h : Kept r s) : Kept r (s.endTile sid i st payload) := by
  unfold State.endTile
  split
  · exact h
  · extract_lets -underBinder -useContext x1 x2 x3 x4 x5 x6 x7 x8 x9 x10 x11
    have k12 : Kept r x1 := State.dropGot_kept h
    clear_value x1 x2 x3 x4 x5
    have k13 : Kept r x6 := State.putStream_kept k12
    clear_value x6
    have k14 : Kept r x8 := ite_keep k13 k13
    clear_value x8
    have k15 : Kept r x9 := ite_keep (State.countTen_kept k14) k14
    clear_value x9
    have k16 : Kept r x10 := State.emitMarks_kept k15
    clear_value x10
    have k17 : Kept r x11 := by
      unfold x11
      split
      · exact State.complete_kept k16
      · exact k16
    clear_value x11
    exact State.later_kept (State.commitStream_kept (State.appendEnded_kept k17))

theorem State.dropSplits_kept {r s : State} {sid i : Nat} {l : List Nat} (h : Kept r s) : Kept r (s.dropSplits sid i l) := by
  unfold State.dropSplits
  refine Kept.foldl (fun y1 y2 k3 => ?_) h
  extract_lets -underBinder -useContext x4
  clear_value x4
  exact ite_keep (State.later_kept (State.modStation_kept k3)) k3

theorem State.dropGrant_kept {r s : State} {n : Nat} (h : Kept r s) : Kept r (s.dropGrant n) := by
  unfold State.dropGrant; exact State.modStation_kept h

theorem State.returnItems_kept {r s : State} {n sid : Nat} (h : Kept r s) : Kept r (s.returnItems n sid) := by
  unfold State.returnItems
  extract_lets -underBinder -useContext x1 x2 x3
  clear_value x1
  have k4 : Kept r x2 := State.modStation_kept h
  clear_value x2
  have k5 : Kept r x3 := by
    unfold x3
    refine Kept.foldl (fun y6 y7 k8 => ?_) k4
    split
    · exact State.modTile_kept k8
    · exact State.modTile_kept k8
  clear_value x3
  exact ite_keep k5 (State.later_kept k5)

theorem State.boundary_kept {r s : State} {n : Nat} (h : Kept r s) : Kept r (s.boundary n) := by
  unfold State.boundary
  extract_lets -underBinder -useContext x1 x2 x3 x4 x5
  have k6 : Kept r x1 := State.modStation_kept h
  clear_value x1
  have k7 : Kept r x3 := ite_keep k6 h
  clear_value x3
  have k8 : Kept r x4 := State.modStation_kept k7
  clear_value x4 x5
  split
  · exact State.later_kept k8
  · split
    · exact State.later_kept (State.dropGrant_kept k8)
    · extract_lets -underBinder -useContext x9 x10 x11 x12
      clear_value x9 x10 x11
      have k13 : ∀ (s : State), Kept r s → ∀ (mark : Stream → Stream) (cut : Bool), Kept r (x12 s mark cut) := by
        unfold x12
        intro y14 k15 y16 y17
        extract_lets -underBinder -useContext x18 x19
        have k20 : Kept r x18 := State.modStream_kept k15
        clear_value x18
        have k21 : Kept r x19 := State.modStation_kept k20
        clear_value x19
        exact State.later_kept (State.returnItems_kept k21)
      clear_value x12
      exact ite_keep (k13 _ k8 _ _) (ite_keep (k13 _ k8 _ _) (ite_keep (ite_keep (k13 _ k8 _ _) (State.later_kept
          (State.modStation_kept k8))) (State.later_kept k8)))

theorem State.readRow_kept {r s : State} {rr : Reacher} {d h pos : Nat}
    {value : Bool} (hk : Kept r s) : PairAll Any (PairAll Any (PairAll Any (Kept r))) (s.readRow rr d h pos value) := by
  unfold State.readRow
  extract_lets -underBinder -useContext x1 x2
  clear_value x1 x2
  split
  · extract_lets -underBinder -useContext x3
    have k4 : PairAll Any (Kept r) x3 := State.fetch_kept hk
    clear_value x3
    exact ⟨trivial, ⟨trivial, ⟨trivial, k4.2⟩⟩⟩
  · extract_lets -underBinder -useContext x5 x6 x7 x8
    have k9 : PairAll Any (Kept r) x5 := State.fetch_kept hk
    clear_value x5
    have k10 : PairAll Any (Kept r) x6 := State.fetch_kept k9.2
    clear_value x6 x7 x8
    exact ⟨trivial, ⟨trivial, ⟨trivial, k10.2⟩⟩⟩
  · exact ⟨trivial, ⟨trivial, ⟨trivial, hk⟩⟩⟩

theorem State.readSplit_kept {r s : State} {rr : Reacher} {t : Tile}
    {d j : Nat} (h : Kept r s) : PairAll Any (PairAll Any (Kept r)) (s.readSplit rr t d j) := by
  unfold State.readSplit
  extract_lets -underBinder -useContext x1
  clear_value x1
  refine foldl_keep (fun y2 y3 k4 => foldl_keep (fun y5 y6 k7 => ?_) k4) ⟨trivial, ⟨trivial, h⟩⟩
  extract_lets -underBinder -useContext x8 x9
  have k10 : PairAll Any (PairAll Any (PairAll Any (Kept r))) x8 := State.readRow_kept k7.2.2
  clear_value x8
  have k11 : PairAll Any (PairAll Any (PairAll Any (Kept r))) x9 := State.readRow_kept k10.2.2.2
  clear_value x9
  exact ⟨trivial, ⟨trivial, k11.2.2.2⟩⟩

theorem State.beginWrite_kept {r s : State} {sid i n : Nat} {v : Stream}
    {t : Tile} (h : Kept r s) : Kept r (s.beginWrite sid i n v t) := by
  unfold State.beginWrite
  extract_lets -underBinder -useContext x1 x2 x3 x4
  clear_value x1 x2 x3 x4
  exact State.commitStream_kept (State.modTile_kept h)

theorem State.finishTile_kept {r s : State} {sid i n : Nat} {v : Stream}
    {t : Tile} (h : Kept r s) : Kept r (s.finishTile sid i n v t) := by
  unfold State.finishTile
  exact ite_keep (State.later_kept (State.modTile_kept h)) (ite_keep (State.beginWrite_kept h) (State.endTile_kept h))

theorem State.mergeQuery_kept {r s : State} {sid i : Nat} (h : Kept r s) : Kept r (s.mergeQuery sid i) := by
  unfold State.mergeQuery
  split
  · exact h
  · refine ite_keep h ?_
    extract_lets -underBinder -useContext x1 x2 x3 x4 x5 x6 x7
    clear_value x1 x2 x3 x4 x5 x6 x7
    rename_i z8 z9 z10 e11
    have k12 : PairAll Any (Kept r) (s.reachSpans x7 (s.outSpan z9 z10 i)) := State.reachSpans_kept h
    split
    · rename_i z13 z14 e15
      have k16 := via e15 k12
      have k17 : Kept r z14 := k16.2
      exact k17
    · rename_i z18 z19 z20 e21
      have k22 := via e21 k12
      have k23 : Kept r z20 := k22.2
      exact State.endTile_kept k23
    · rename_i z24 z25 e26
      have k27 := via e26 k12
      have k28 : Kept r z25 := k27.2
      extract_lets -underBinder -useContext x29
      clear_value x29
      exact State.finishTile_kept k28

theorem State.splitFinish_kept {r s : State} {sid i j : Nat} (h : Kept r s) : Kept r (s.splitFinish sid i j) := by
  unfold State.splitFinish
  split
  · split
    · exact h
    · extract_lets -underBinder -useContext x1 x2
      clear_value x1 x2
      rename_i z3 z4 z5 z6 z7 z8 e9 e10 z11 z12 e13
      have k14 : PairAll Any (Kept r) (s.guardSpans x2 (s.splitSpans z6 z12.desc j)) := State.guardSpans_kept h
      split
      · rename_i z15 z16 e17
        have k18 := via e17 k14
        have k19 : Kept r z16 := k18.2
        exact State.modSplit_kept k19
      · rename_i z20 z21 z22 e23
        have k24 := via e23 k14
        have k25 : Kept r z22 := k24.2
        exact State.endTile_kept (State.dropSplits_kept (State.boundary_kept k25))
      · rename_i z26 z27 e28
        have k29 := via e28 k14
        have k30 : Kept r z27 := k29.2
        extract_lets -underBinder -useContext x31 x32 x33 x34
        have k35 : PairAll Any (PairAll Any (Kept r)) x31 := State.readSplit_kept k30
        clear_value x31 x32
        have k36 : Kept r x33 := State.modSplit_kept k35.2.2
        clear_value x33
        have k37 : Kept r x34 := State.mergeQuery_kept (State.boundary_kept k36)
        clear_value x34
        exact State.later_kept k37
  · exact h

theorem State.guardWrites_kept {r s : State} {who : Access}
    {l : List TileWrite} (h : Kept r s) : PairAll Any (Kept r) (s.guardWrites who l) := by
  unfold State.guardWrites; exact State.guardPieces_kept h

theorem State.scatterAdd_kept {r s : State} {w i first fuel : Nat} {l : List TileWrite} (h : Kept r s) :
    PairAll Any (PairAll Any (Kept r)) (s.scatterAdd w i first fuel l) := by
  induction fuel generalizing s first l with
  | zero => exact ⟨trivial, trivial, h⟩
  | succ n ih =>
    cases l with
    | nil => exact ⟨trivial, trivial, h⟩
    | cons x l => exact ⟨trivial, trivial, (ih (State.addRow_kept h).2.2).2.2⟩

theorem State.multicast_kept {r s : State} {v : Stream} {i : Nat} {t : Tile}
    {st : Status} (h : Kept r s) : Kept r (s.multicast v i t st) := by
  unfold State.multicast
  extract_lets -underBinder -useContext x1 x2 x3
  clear_value x1 x2 x3
  refine Kept.foldl (fun y4 y5 k6 => ?_) h
  extract_lets -underBinder -useContext x7
  clear_value x7
  exact ite_keep (State.commit_kept (State.emit_kept k6)) (State.countDev_kept k6)

theorem State.mirrorFrontier_kept {r s : State} {t : Tile}
    {w : MirrorWait} (h : Kept r s) : Kept r (s.mirrorFrontier t w) := by
  unfold State.mirrorFrontier
  split
  · extract_lets -underBinder -useContext x1 x2 x3 x4
    have k5 : PairAll Any (Kept r) x1 := State.pairSend_kept h
    clear_value x1 x2
    have k6 : Kept r x3 := State.emit_kept k5.2
    clear_value x3
    exact k6
  · exact h

theorem State.tileWritten_kept {r s : State} {sid i : Nat} (h : Kept r s) : Kept r (s.tileWritten sid i) := by
  unfold State.tileWritten
  split
  · exact h
  · refine ite_keep h ?_
    rename_i z1 z2 z3 e4
    have k5 : PairAll Any (Kept r) (s.guardWrites (Access.tile sid i) z3.writes) := State.guardWrites_kept h
    split
    · rename_i z6 z7 z8 e9
      have k10 := via e9 k5
      have k11 : Kept r z8 := k10.2
      exact k11
    · rename_i z12 z13 e14
      have k15 := via e14 k5
      have k16 : Kept r z13 := k15.2
      exact State.modTile_kept k16
    · rename_i z17 z18 e19
      have k20 := via e19 k5
      have k21 : Kept r z18 := k20.2
      extract_lets -underBinder -useContext x22 x23 x24 x25 x26 x27 x28 x29 x30 x31 x32 x33 x34
      clear_value x22 x23
      have k35 : PairAll Any (Kept r) x24 := State.putWrites_kept k21
      clear_value x24
      have k36 : PairAll Any (PairAll Any (Kept r)) x25 := State.scatterAdd_kept k35.2
      clear_value x25
      have k37 : PairAll Any (Kept r) x26 := State.putWrites_kept k21
      clear_value x26
      have k38 : PairAll Any (PairAll Any (Kept r)) x27 := ite_keep ⟨trivial, ⟨trivial, k36.2.2⟩⟩ ⟨trivial, ⟨trivial, k37.2⟩⟩
      clear_value x27
      have k39 : Kept r x28 := State.dropGot_kept k38.2.2
      clear_value x28 x29
      have k40 : Kept r x30 := State.modTile_kept k39
      clear_value x30
      have k41 : Kept r x31 := ite_keep (State.multicast_kept k40) k40
      clear_value x31
      have k42 : Kept r x32 := ite_keep (State.modStream_kept k41) k41
      clear_value x32
      have k43 : PairAll Any (Kept r) x33 := State.mirrorWrites_kept k42
      clear_value x33
      have k44 : Kept r x34 := ite_keep (State.mirrorFrontier_kept k43.2) k43.2
      clear_value x34
      exact ite_keep (State.modTile_kept k44) (State.endTile_kept k43.2)

theorem State.putWindow_kept {r s : State} {k : Nat} {v : Window} (h : Kept r s) : Kept r (s.putWindow k v) := by
  unfold State.putWindow; exact h

theorem State.placeTile_kept {r s : State} {w t : Nat} (h : Kept r s) : Kept r (s.placeTile w t) := by
  unfold State.placeTile
  split
  · exact h
  · extract_lets -underBinder -useContext x1 x2
    clear_value x1 x2
    refine ite_keep h ?_
    split
    · exact h
    · extract_lets -underBinder -useContext x3 x4
      clear_value x3
      have k5 : Kept r x4 := State.scratchWrite_kept h
      clear_value x4
      exact ite_keep (State.modLTile_kept (State.modStation_kept h)) (State.modLTile_kept (State.modWindow_kept k5))

theorem State.tryClose_kept {r s : State} {w t : Nat} (h : Kept r s) : Kept r (s.tryClose w t) := by
  unfold State.tryClose
  split
  · exact h
  · extract_lets -underBinder -useContext x1 x2 x3 x4
    clear_value x1 x2 x3 x4
    exact ite_keep h (ite_keep (State.sendMeta_kept (State.putWindow_kept h)) (State.putWindow_kept h))

theorem State.contribute_kept {r s : State} {w t c : Nat} {vals : List Val}
    {marks : List Nat} (h : Kept r s) : PairAll Any (Kept r) (s.contribute w t c vals marks) := by
  unfold State.contribute
  split
  · exact ⟨trivial, h⟩
  · refine ite_keep ⟨trivial, h⟩ (ite_keep ⟨trivial, h⟩ ?_)
    extract_lets -underBinder -useContext x1 x2 x3 x4 x5 x6 x7
    clear_value x1
    have k8 : Kept r x2 := State.placeTile_kept h
    clear_value x2 x3
    have k9 : Kept r x4 := State.scratchWrite_kept (State.modLTile_kept k8)
    clear_value x4
    have k10 : Kept r x5 := ite_keep (State.markTile_kept (State.addTo_kept k9)) (ite_keep (State.addHeld_kept
        (State.modLTile_kept (State.markTile_kept (State.addTo_kept k9)))) (State.scratchWrite_kept k9))
    clear_value x5
    have k11 : Kept r x6 := State.modWindow_kept k10
    clear_value x6
    have k12 : Kept r x7 := State.later_kept (State.tryClose_kept k11)
    clear_value x7
    exact ite_keep ⟨trivial, State.putWindow_kept h⟩ (ite_keep ⟨trivial, h⟩ ⟨trivial, k12⟩)

theorem State.contributeTile_kept {r s : State} {sid i : Nat} (h : Kept r s) : Kept r (s.contributeTile sid i) := by
  unfold State.contributeTile
  split
  · exact h
  · split
    · extract_lets -underBinder -useContext x1 x2 x3 x4
      clear_value x1 x2 x3 x4
      refine ite_keep h ?_
      have k5 : PairAll Any (Kept r) (s.guardWrites (Access.tile sid i) x4) := State.guardWrites_kept h
      split
      · rename_i z6 z7 z8 e9 z10 z11 e12 z13 z14 z15 e16
        have k17 := via e16 k5
        have k18 : Kept r z15 := k17.2
        exact k18
      · rename_i z19 z20 z21 e22 z23 z24 e25 z26 z27 e28
        have k29 := via e28 k5
        have k30 : Kept r z27 := k29.2
        exact State.modTile_kept k30
      · rename_i z31 z32 z33 e34 z35 z36 e37 z38 z39 e40
        have k41 := via e40 k5
        have k42 : Kept r z39 := k41.2
        extract_lets -underBinder -useContext x43 x44 x45 x46 x47 x48 x49
        clear_value x43
        have k50 : PairAll Any (Kept r) x44 := State.contribute_kept k42
        clear_value x44
        have k51 : Kept r x45 := State.dropGot_kept k50.2
        clear_value x45
        have k52 : PairAll Any (Kept r) x46 := State.putWrites_kept k51
        clear_value x46 x47
        have k53 : Kept r x48 := State.modTile_kept k52.2
        clear_value x48
        have k54 : PairAll Any (Kept r) x49 := State.mirrorWrites_kept k53
        clear_value x49
        exact ite_keep (State.endTile_kept (State.boundary_kept k51)) (ite_keep (State.boundary_kept
            (State.commitStream_kept (State.modTile_kept k54.2))) (State.endTile_kept (State.boundary_kept k54.2)))
    · exact h

theorem State.loadSource_kept {r s : State} {rr : Reacher} {v : Stream} {i : Nat}
    {t : Tile} (h : Kept r s) : PairAll Any (PairAll Any (Kept r)) (s.loadSource rr v i t) := by
  unfold State.loadSource
  refine ite_keep ⟨trivial, ⟨trivial, h⟩⟩ ?_
  extract_lets -underBinder -useContext x1 x2
  clear_value x1 x2
  have k3 : PairAll Any (Kept r) (s.guardSpans rr (s.sourceSpan v t i)) := State.guardSpans_kept h
  split
  · rename_i z4 z5 e6
    have k7 := via e6 k3
    have k8 : Kept r z5 := k7.2
    extract_lets -underBinder -useContext x9 x10 x11 x12 x13 x14 x15 x16
    have k17 : PairAll Any (Kept r) x9 := State.fetch_kept k8
    clear_value x9 x10 x11 x12 x13 x14 x15 x16
    exact ⟨trivial, ⟨trivial, k17.2⟩⟩
  · rename_i z18 z19 z20 e21 e22
    have k23 := via e22 k3
    have k24 : Kept r z20 := k23.2
    exact ⟨trivial, ⟨trivial, k24⟩⟩

theorem State.readRows_kept {r s : State} {rr : Reacher} {w : Nat}
    {t : Tile} (h : Kept r s) : PairAll Any (PairAll Any (PairAll Any (Kept r))) (s.readRows rr w t) := by
  unfold State.readRows
  extract_lets -underBinder -useContext x1 x2
  clear_value x1 x2
  refine foldl_keep (fun y3 y4 k5 => ?_) ⟨trivial, ⟨trivial, ⟨trivial, h⟩⟩⟩
  extract_lets -underBinder -useContext x6 x7
  have k8 : PairAll Any (Kept r) x6 := State.fetch_kept k5.2.2.2
  clear_value x6 x7
  exact ⟨trivial, ⟨trivial, ⟨trivial, k8.2⟩⟩⟩

theorem State.stepGather_kept {r s : State} {rr : Reacher} {w i : Nat}
    {t : Tile} (h : Kept r s) : PairAll Any (Kept r) (s.stepGather rr w i t) := by
  unfold State.stepGather
  extract_lets -underBinder -useContext x1 x2 x3 x4 x5 x6 x7 x8 x9
  clear_value x1 x2 x3
  have k10 : PairAll Any (PairAll Any (PairAll Any (Kept r))) x4 := State.readRows_kept h
  clear_value x4 x5 x6 x7 x8 x9
  exact ite_keep ⟨trivial, k10.2.2.2⟩ ⟨trivial, k10.2.2.2⟩

theorem State.stepVector_kept {r s : State} {rr : Reacher} {v : Stream} {w i : Nat}
    {t : Tile} (h : Kept r s) : PairAll Any (Kept r) (s.stepVector rr v w i t) := by
  unfold State.stepVector
  extract_lets -underBinder -useContext x1 x2 x3 x4 x5 x6 x7 x8 x9 x10 x11 x12 x13 x14 x15 x16
  clear_value x1 x2 x3 x4
  have k17 : PairAll Any (PairAll Any (PairAll Any (Kept r))) x5 := by
    unfold x5
    refine foldl_keep (fun y18 y19 k20 => ?_) ⟨trivial, ⟨trivial, ⟨trivial, h⟩⟩⟩
    extract_lets -underBinder -useContext x21 x22
    clear_value x21
    have k23 : PairAll Any (Kept r) x22 := State.fetch_kept k20.2.2.2
    clear_value x22
    exact ⟨trivial, ⟨trivial, ⟨trivial, k23.2⟩⟩⟩
  clear_value x5 x6 x7 x8 x9 x10 x11 x12 x13 x14 x15 x16
  exact ⟨trivial, k17.2.2.2⟩

theorem State.stepCheck_kept {r s : State} {rr : Reacher} {v : Stream} {w i : Nat}
    {t : Tile} (h : Kept r s) : PairAll Any (Kept r) (s.stepCheck rr v w i t) := by
  unfold State.stepCheck
  refine ite_keep ?_ ⟨trivial, h⟩
  extract_lets -underBinder -useContext x1 x2 x3
  clear_value x1
  have k4 : PairAll Any (Kept r) x2 := State.fetch_kept h
  clear_value x2 x3
  exact ⟨trivial, k4.2⟩

theorem State.compute_kept {r s : State} {rr : Reacher} {v : Stream} {i : Nat}
    {t : Tile} (h : Kept r s) : PairAll Any (Kept r) (s.compute rr v i t) := by
  unfold State.compute
  extract_lets -underBinder -useContext x1
  clear_value x1
  exact ite_keep ⟨trivial, h⟩ (ite_keep (State.stepGather_kept h) (ite_keep (State.stepVector_kept h) (ite_keep
      (State.stepCheck_kept h) ⟨trivial, h⟩)))

theorem State.stepDone_kept {r s : State} {n sid i : Nat} {v : Stream}
    {t : Tile} (h : Kept r s) : Kept r (s.stepDone n sid i v t) := by
  unfold State.stepDone
  extract_lets -underBinder -useContext x1 x2 x3
  clear_value x1 x2
  have k4 : ∀ (s : State), Kept r s → Kept r (x3 s) := by
    unfold x3
    intro y5 k6
    exact State.modTile_kept k6
  clear_value x3
  have k7 : PairAll Any (PairAll Any (Kept r)) (s.loadSource x2 v i t) := State.loadSource_kept h
  split
  · rename_i z8 z9 z10 e11
    have k12 := via e11 k7
    have k13 : Kept r z10 := k12.2.2
    exact k4 _ k13
  · rename_i z14 z15 z16 z17 e18
    have k19 := via e18 k7
    have k20 : Kept r z17 := k19.2.2
    exact State.endTile_kept (State.boundary_kept k20)
  · rename_i z21 z22 z23 e24
    have k25 := via e24 k7
    have k26 : Kept r z23 := k25.2.2
    split
    · exact State.endTile_kept (State.boundary_kept k26)
    · extract_lets -underBinder -useContext x27
      clear_value x27
      have k28 : PairAll Any (Kept r) (z23.reachSpans x2 x27) := State.reachSpans_kept k26
      split
      · rename_i z29 e30 z31 z32 e33
        have k34 := via e33 k28
        have k35 : Kept r z32 := k34.2
        exact State.boundary_kept (State.modTile_kept k35)
      · rename_i z36 e37 z38 z39 z40 e41
        have k42 := via e41 k28
        have k43 : Kept r z40 := k42.2
        exact State.endTile_kept (State.boundary_kept k43)
      · rename_i z44 e45 z46 z47 e48
        have k49 := via e48 k28
        have k50 : Kept r z47 := k49.2
        extract_lets -underBinder -useContext x51
        clear_value x51
        have k52 : PairAll Any (Kept r) (z47.guardSpans x51 (List.filter (fun (x :
            Span) => !x.write) (z47.stepSpans v z22 i t.step))) := State.guardSpans_kept k50
        split
        · rename_i z53 z54 e55
          have k56 := via e55 k52
          have k57 : Kept r z54 := k56.2
          exact k4 _ k57
        · rename_i z58 z59 z60 e61
          have k62 := via e61 k52
          have k63 : Kept r z60 := k62.2
          exact State.endTile_kept (State.boundary_kept k63)
        · rename_i z64 z65 e66
          have k67 := via e66 k52
          have k68 : Kept r z65 := k67.2
          extract_lets -underBinder -useContext x69 x70 x71
          have k72 : PairAll Any (Kept r) x69 := State.compute_kept k68
          clear_value x69 x70 x71
          exact ite_keep (State.later_kept (State.boundary_kept (State.modTile_kept k72.2))) (State.boundary_kept
              (State.finishTile_kept k72.2))

theorem State.resumeTile_kept {r s : State} {sid i n : Nat} {v : Stream}
    {t : Tile} (h : Kept r s) : Kept r (s.resumeTile sid i n v t) := by
  unfold State.resumeTile
  exact ite_keep h (ite_keep (State.tileWritten_kept h) (ite_keep (State.contributeTile_kept h) (State.stepDone_kept h)))

theorem State.rerunTile_kept {r s : State} {sid i : Nat} (h : Kept r s) : Kept r (s.rerunTile sid i) := by
  unfold State.rerunTile
  split
  · exact h
  · split
    · exact State.later_kept (State.modTile_kept h)
    · extract_lets -underBinder -useContext x1
      have k2 : Kept r x1 := Kept.foldl (fun y3 y4 k5 => State.splitFinish_kept k5) h
      clear_value x1
      exact State.later_kept (State.mergeQuery_kept k2)
    · exact State.resumeTile_kept h
    · exact State.resumeTile_kept h
    · exact State.later_kept h
    · exact h

end Sys2Proof.Machine
end

