-- ==== Sys2Proof/Laws/Kept/Part4.lean ====
section
/-! SUPPORT. Part4.lean: what each operation of the machine keeps (Laws/Kept.lean), one lemma per definition, in the
order in which they call each other. -/

namespace Sys2Proof.Machine

theorem State.homeOf_kept {r s : State} {w t : Nat} (h : Kept r s) : PairAll Any (Kept r) (s.homeOf w t) := by
  unfold State.homeOf
  split
  · exact ⟨trivial, h⟩
  · split
    · exact ite_keep ⟨trivial, h⟩ ⟨trivial, h⟩
    · extract_lets -underBinder -useContext x1
      clear_value x1
      split
      · exact ⟨trivial, State.modLTile_kept h⟩
      · exact ⟨trivial, h⟩

theorem State.deliver_kept {r s : State} {w t : Nat} (h : Kept r s) : OptAll (Kept r) (s.deliver w t) := by
  unfold State.deliver
  split
  · exact h
  · extract_lets -underBinder -useContext x1 x2 x3 x4 x5 x6
    clear_value x1 x2 x3
    have k7 : PairAll Any (PairAll Any (Kept r)) x4 := State.wordsOf_kept h
    clear_value x4
    have k8 : Kept r x5 := k7.2.2
    clear_value x5
    have k9 : ∀ (s : State), Kept r s → ∀ (st : Status), Kept r (x6 s st) := by
      unfold x6
      intro y10 k11 y12
      exact State.modLTile_kept k11
    clear_value x6
    refine ite_keep h ?_
    split
    · exact k9 _ k8 _
    · extract_lets -underBinder -useContext x13 x14 x15
      clear_value x13 x14
      have k16 : Kept r x15 := (State.homeOf_kept k8).2
      clear_value x15
      have k17 : PairAll Any (Kept r) (x15.contribute x2 t (wParentIndex x1) x14 x3.marks) := State.contribute_kept k16
      split
      · rename_i z18 z19 e20 z21 z22 e23 z24 z25 e26
        have k27 := via e26 k17
        have k28 : Kept r z25 := k27.2
        exact trivial
      · rename_i z29 z30 e31 z32 z33 e34 z35 z36 e37
        have k38 := via e37 k17
        have k39 : Kept r z36 := k38.2
        exact State.modLTile_kept k39
      · rename_i z40 z41 e42 z43 z44 e45 z46 z47 e48
        have k49 := via e48 k17
        have k50 : Kept r z47 := k49.2
        exact k50
      · rename_i z51 z52 e53 z54 z55 e56 z57 z58 z59 e60 e61 e62 e63
        have k64 := via e63 k17
        have k65 : Kept r z59 := k64.2
        exact k9 _ k65 _

theorem State.retireWindow_kept {r s : State} {w : Nat} {v : Window} (h : Kept r s) : Kept r (s.retireWindow w v) := by
  unfold State.retireWindow
  extract_lets -underBinder -useContext x1 x2 x3
  clear_value x1 x2
  have k4 : Kept r x3 := by
    unfold x3
    refine Kept.foldl (fun y5 y6 k7 => ?_) h
    extract_lets -underBinder -useContext x8 x9 x10 x11 x12
    clear_value x8
    have k13 : PairAll Any (PairAll Any (PairAll Any (Kept r))) x10 := State.resultTileOf_kept k7
    clear_value x10
    have k14 : Kept r x11 := k13.2.2.2
    clear_value x11
    exact ite_keep k7 k14
  clear_value x3
  exact State.sendMeta_kept (State.putWindow_kept k4)

theorem State.ledgerClosed_kept {r s : State} {w t : Nat} (h : Kept r s) : Kept r (s.ledgerClosed w t) := by
  unfold State.ledgerClosed
  split
  · exact h
  · extract_lets -underBinder -useContext x1 x2 x3 x4 x5 x6 x7 x8
    clear_value x1
    have k9 : PairAll Any (PairAll Any (Kept r)) x2 := State.wordsOf_kept h
    clear_value x2 x3 x4 x5 x6
    have k10 : Kept r x7 := State.putWindow_kept h
    clear_value x7
    have k11 : Kept r x8 := by
      unfold x8
      split
      · exact State.modStation_kept k10
      · exact k10
    clear_value x8
    split
    · exact ite_keep k11 (State.respondOk_kept (State.retireWindow_kept k11))
    · exact k11

theorem State.ledgerRest_kept {r s : State} {w t : Nat} (h : Kept r s) : Kept r (s.ledgerRest w t) := by
  unfold State.ledgerRest
  have k1 : OptAll (Kept r) (s.deliver w t) := State.deliver_kept h
  split
  · rename_i z2 e3
    have k4 := via e3 k1
    exact State.modLTile_kept h
  · rename_i z5 z6 e7
    have k8 := via e7 k1
    have k9 : Kept r z6 := k8
    extract_lets -underBinder -useContext x10
    have k11 : PairAll Any (Kept r) x10 := State.mirrorWrites_kept k9
    clear_value x10
    exact ite_keep (State.modLTile_kept k11.2) (State.ledgerClosed_kept k11.2)

theorem State.ledgerWrite_kept {r s : State} {w t : Nat} (h : Kept r s) : Kept r (s.ledgerWrite w t) := by
  unfold State.ledgerWrite
  split
  · exact h
  · extract_lets -underBinder -useContext x1 x2
    clear_value x1 x2
    split
    · exact State.ledgerRest_kept h
    · extract_lets -underBinder -useContext x3 x4 x5 x6 x7 x8
      clear_value x3 x4 x5 x6 x7
      have k9 : PairAll Any (Kept r) x8 := by
        unfold x8
        have k10 : PairAll Any (Kept r) (s.guardSpans x3 (imageSpans x1 t)) := State.guardSpans_kept h
        split
        · rename_i z11 z12 e13 z14 e15 z16 z17 e18
          have k19 := via e18 k10
          have k20 : Kept r z17 := k19.2
          exact ⟨trivial, k20⟩
        · rename_i z21 z22 e23 z24 e25 z26 z27 z28 e29 e30
          have k31 := via e30 k10
          have k32 : Kept r z28 := k31.2
          exact ite_keep (State.readySpans_kept k32) ⟨trivial, k32⟩
      clear_value x8
      have k33 : PairAll Any (Kept r) x8 := k9
      split
      · rename_i z34 z35 e36 z37 e38 z39 z40
        have k41 : Kept r z40 := k33.2
        exact k41
      · rename_i z42 z43 e44 z45 e46 z47 z48 z49 e50
        have k51 : Kept r z49 := k33.2
        extract_lets -underBinder -useContext x52 x53 x54 x55 x56 x57 x58 x59 x60 x61 x62 x63 x64 x65 x66 x67
        clear_value x52 x53
        have k68 : PairAll Any (Kept r) x54 := State.fetch_kept k51
        clear_value x54 x55
        have k69 : Kept r x56 := ite_keep (State.markTile_kept (State.addTo_kept k68.2)) k51
        clear_value x56
        have k70 : PairAll Any (PairAll Any (Kept r)) x57 := State.wordsOf_kept k69
        clear_value x57
        have k71 : Kept r x58 := State.markTile_kept k70.2.2
        clear_value x58 x59 x60 x61 x62 x63 x64 x65
        have k72 : Kept r x66 := State.dropGot_kept ((State.putWrites_kept k71).2)
        clear_value x66
        have k73 : Kept r x67 := by
          unfold x67
          split
          · exact State.modLTile_kept k72
          · exact k72
        clear_value x67
        exact State.ledgerRest_kept (State.modLTile_kept k73)
    · exact h

theorem okBytes_kept {r s : State} {b : List Byte} (h : Kept r s) : KeptOut r (okBytes s b) := by
  unfold okBytes; exact ⟨h, fun _ k => k⟩

theorem okNum_kept {r s : State} {n : Nat} (h : Kept r s) : KeptOut r (okNum s n) := by
  unfold okNum; exact okBytes_kept h

theorem refuse_kept {r s : State} {a1 : Refuse} (h : Kept r s) : KeptOut r (refuse s a1) := by
  unfold refuse; exact ⟨h, fun _ k => k⟩

theorem heldCmd_kept {r s : State} (h : Kept r s) : KeptOut r (heldCmd s) := by
  unfold heldCmd; exact ⟨h, fun _ k => k⟩

theorem bodyStreamCreate_kept {r : State} {a : CcpCtx} {a1 : State} (h : Kept r a1) : KeptOut r (bodyStreamCreate a a1) := by
  unfold bodyStreamCreate
  extract_lets -underBinder -useContext x1
  clear_value x1
  have k2 : PairAll Any (Kept r) (a1.openStream
      { tenant := a.tenant, session := none } 0 (some a.sid) x1.who (leBytes a.block a.total)) := State.openStream_kept h
  split
  · rename_i z3 z4 z5 e6
    have k7 := via e6 k2
    have k8 : Kept r z5 := k7.2
    exact okNum_kept k8
  · rename_i z9 z10 z11 e12
    have k13 := via e12 k2
    have k14 : Kept r z11 := k13.2
    exact refuse_kept k14
  · rename_i z15 z16 e17
    have k18 := via e17 k2
    have k19 : Kept r z16 := k18.2
    exact heldCmd_kept k19

theorem okEmpty_kept {r s : State} (h : Kept r s) : KeptOut r (okEmpty s) := by
  unfold okEmpty; exact okBytes_kept h

theorem State.putContext_kept {r s : State} {k : Nat} {v : Context} (h : Kept r s) : Kept r (s.putContext k v) := by
  unfold State.putContext; exact h

theorem bodySeqEnable_kept {r : State} {a : CcpCtx} {a1 : State} (h : Kept r a1) : KeptOut r (bodySeqEnable a a1) := by
  unfold bodySeqEnable
  extract_lets -underBinder -useContext x1
  clear_value x1
  refine ite_keep (refuse_kept h) ?_
  split
  · exact refuse_kept h
  · split
    · exact refuse_kept h
    · extract_lets -underBinder -useContext x2 x3 x4 x5
      clear_value x2 x3 x4 x5
      have k6 : PairAll Any (Kept r) (a1.readySpans x4 x5) := State.readySpans_kept h
      split
      · rename_i z7 z8 e9 z10 e11 z12 z13 e14
        have k15 := via e14 k6
        have k16 : Kept r z13 := k15.2
        exact heldCmd_kept k16
      · rename_i z17 z18 e19 z20 e21 z22 z23 z24 e25
        have k26 := via e25 k6
        have k27 : Kept r z24 := k26.2
        exact refuse_kept k27
      · rename_i z28 z29 e30 z31 e32 z33 z34 e35
        have k36 := via e35 k6
        have k37 : Kept r z34 := k36.2
        extract_lets -underBinder -useContext x38 x39 x40
        have k41 : PairAll Any (Kept r) x38 := ite_keep (State.fetch_kept k37) ⟨trivial, k37⟩
        clear_value x38 x39 x40
        exact okEmpty_kept (State.sendMeta_kept (State.putContext_kept (State.dropGot_kept k41.2)))

theorem State.rerunCommand_kept {r s : State} {op tenant block total : Nat} {ref : CmdRef} (h : Kept r s) :
    Kept r (s.rerunCommand op ref tenant block total) := by
  unfold State.rerunCommand
  extract_lets v c o
  have k : KeptOut r o := by
    by_cases e : (op == 0x0401) = true <;> simp only [o, e, if_true]
    · exact bodyStreamCreate_kept h
    · exact bodySeqEnable_kept h
  split
  · exact k.2 _ (State.respond_kept k.1)
  · exact k.1

theorem State.askMirror_kept {r s : State} {n : Nat}
    {e : RawErr} (h : Kept r s) : PairAll Any (Kept r) (s.askMirror n e) := by
  unfold State.askMirror
  extract_lets -underBinder -useContext x1 x2
  clear_value x1
  have k3 : Kept r x2 := State.putSector_kept h
  clear_value x2
  split
  · exact ⟨trivial, h⟩
  · exact ⟨trivial, Kept.foldl (fun y4 y5 k6 => State.fetchMirror_kept k6) k3⟩

theorem State.joinFetch_kept {r s : State} {n : Nat} {who : Access} (h : Kept r s) : Kept r (s.joinFetch n who) := by
  unfold State.joinFetch; exact h

theorem State.readNow_kept {r s : State} {n : Nat} {e1 e2 : RawErr} (h : Kept r s) : Kept r (s.readNow n e1 e2) := by
  unfold State.readNow
  extract_lets -underBinder -useContext x1 x2
  have k3 : PairAll Any (Kept r) x1 := ite_keep (State.askMirror_kept h) ⟨trivial, h⟩
  clear_value x1
  have k4 : PairAll Any (PairAll Any (Kept r)) x2 := State.readSector_kept h
  clear_value x2
  exact ite_keep (State.joinFetch_kept k3.2) (State.emit_kept k4.2.2)

theorem State.writeNow_kept {r s : State} {n off : Nat}
    {data : List Byte} (h : Kept r s) : Kept r (s.writeNow n off data) := by
  unfold State.writeNow
  extract_lets -underBinder -useContext x1 x2 x3 x4
  clear_value x1
  have k5 : PairAll Any (Kept r) x2 := ite_keep (State.askMirror_kept h) ⟨trivial, h⟩
  clear_value x2 x3
  have k6 : PairAll Any (Kept r) x4 := State.writeSector_kept h
  clear_value x4
  refine ite_keep (State.joinFetch_kept k5.2) ?_
  split
  · exact ite_keep (State.mirrorOut_kept k6.2) k6.2
  · exact k6.2

theorem State.sectorAgain_kept {r s : State} {n : Nat}
    {write : Option (Nat × List Byte)} (h : Kept r s) : Kept r (s.sectorAgain n write) := by
  unfold State.sectorAgain
  split
  · exact State.readNow_kept h
  · exact State.writeNow_kept h

theorem State.runAccess_kept {r s : State} {a : Access} (h : Kept r s) : Kept r (s.runAccess a) := by
  unfold State.runAccess
  split
  · exact State.runRequest_kept h
  · exact State.rerunTile_kept h
  · exact State.ledgerWrite_kept h
  · exact State.rerunCommand_kept h
  · exact State.sectorAgain_kept h

theorem State.leaveQueue_kept {r s : State}
    {kind index sub since : Nat} (h : Kept r s) : Kept r (s.leaveQueue kind index sub since) := by
  unfold State.leaveQueue
  extract_lets -underBinder -useContext x1 x2 x3 x4 x5 x6
  clear_value x1 x2 x3 x4 x5
  exact h

theorem State.startHub_kept {r s : State} {f : Nat} {e : HubEntry} (h : Kept r s) : Kept r (s.startHub f e) := by
  unfold State.startHub
  extract_lets -underBinder -useContext x1 x2 x3 x4
  clear_value x1
  have k5 : Kept r x3 := h
  clear_value x3
  have k6 : Kept r x4 := State.leaveQueue_kept k5
  clear_value x4
  exact State.beginRequest_kept (ite_keep k6 (State.later_kept k6))

theorem State.takeSlot_kept {r s : State} {k p cls : Nat} (h : Kept r s) : OptAll (Kept r) (s.takeSlot k p cls) := by
  unfold State.takeSlot
  extract_lets -underBinder -useContext x1 x2 x3 x4 x5 x6
  clear_value x1 x2 x3 x4 x5 x6
  exact ite_keep trivial (State.putStack_kept h)

theorem State.takeSlots_kept {r s : State} {cls : Nat}
    {a : List Nat} (h : Kept r s) : PairAll Any (Kept r) (s.takeSlots cls a) := by
  induction a generalizing s cls with
  | nil =>
    unfold State.takeSlots
    exact ⟨trivial, h⟩
  | cons a l ih =>
    unfold State.takeSlots
    have k1 : OptAll (Kept r) (s.takeSlot (granStack (sectorGran a)) (s.pchOf (localSector a)) cls) := State.takeSlot_kept h
    split
    · rename_i z2 z3 e4
      have k5 := via e4 k1
      have k6 : Kept r z3 := k5
      exact ih k6
    · rename_i z7 e8
      have k9 := via e8 k1
      extract_lets -underBinder -useContext x10
      have k11 : PairAll Any (Kept r) x10 := ih h
      clear_value x10
      exact ⟨trivial, k11.2⟩

theorem State.serveIsolated_kept {r s : State} {f t : Nat} (h : Kept r s) : Kept r (s.serveIsolated f t) := by
  unfold State.serveIsolated
  split
  · exact h
  · extract_lets -underBinder -useContext x1 x2 x3
    have k4 : PairAll Any (Kept r) x1 := State.takeSlots_kept h
    clear_value x1
    have k5 : Kept r x2 := k4.2
    clear_value x2
    exact ite_keep (State.startHub_kept k4.2) k5

theorem State.serveHub_kept {r s : State} {f : Nat} (h : Kept r s) : Kept r (s.serveHub f) := by
  unfold State.serveHub
  extract_lets -underBinder -useContext x1 own x2
  clear_value x1 own
  have k3 : Kept r x2 := by
    unfold x2
    split
    · exact State.startHub_kept h
    · exact h
  clear_value x2
  exact Kept.foldl (fun y4 y5 k6 => State.serveIsolated_kept k6) k3

theorem State.nodeLost_kept {r s : State} {n : Nat} (h : Kept r s) : Kept r (s.nodeLost n) := by
  unfold State.nodeLost
  extract_lets -underBinder -useContext x1
  clear_value x1
  exact ite_keep (State.later_kept (State.sendMeta_kept (State.putNodeRec_kept h))) h

theorem State.delIssued_kept {r s : State} {k : Nat} (h : Kept r s) : Kept r (s.delIssued k) := by
  unfold State.delIssued; exact h

theorem State.lineAnswered_kept {r s : State} {h : Nat} (hk : Kept r s) : Kept r (s.lineAnswered h) := by
  unfold State.lineAnswered
  split
  · exact ite_keep (State.later_kept hk) (State.lineFinish_kept (State.putTrans_kept hk))
  · exact State.lineFinish_kept hk

theorem State.snoopAnswer_kept {r s : State} {h : Nat} {x : Snoop} {told : SnoopSays}
    {wb : Bool} (hk : Kept r s) : Kept r (s.snoopAnswer h x told wb) := by
  unfold State.snoopAnswer
  split
  · exact hk
  · extract_lets -underBinder -useContext x1 x2 x3 x4 x5 x6 x7
    clear_value x1
    have k8 : Kept r x2 := State.delIssued_kept (State.putTrans_kept hk)
    clear_value x2 x3 x4
    have k9 : ∀ (s : State), Kept r s → Kept r (x5 s) := by
      unfold x5
      intro y10 k11
      split
      · refine ite_keep ?_ (State.setEntry_kept k11)
        split
        · exact State.setEntry_kept k11
        · exact State.delDir_kept k11
      · exact k11
    clear_value x5
    have k12 : ∀ (s : State), Kept r s → Kept r (x6 s) := by
      unfold x6
      intro y13 k14
      exact ite_keep k14 (k9 _ k14)
    clear_value x6
    have k15 : Kept r x7 := by
      unfold x7
      split
      · rename_i z16 z17 e18 z19 z20
        exact ite_keep (Kept.upd (s := (x5 (x2.writeLine h z20)).lineCleaned h) (State.lineCleaned_kept (k9 _
            (by exact State.writeLine_kept k8))) rfl) (ite_keep k8 (ite_keep (ite_keep k8 (State.putTrans_kept k8))
            (ite_keep (State.putTrans_kept k8) k8)))
      · exact ite_keep (Kept.upd (s := x5 x2) (k9 _ k8) rfl) k8
      · exact ite_keep k8 (k12 _ k8)
      · exact ite_keep k8 (k12 _ k8)
    clear_value x7
    exact ite_keep (State.lineAnswered_kept k15) k15

theorem State.tileMirrored_kept {r s : State} {sid i : Nat} (h : Kept r s) : Kept r (s.tileMirrored sid i) := by
  unfold State.tileMirrored
  split
  · exact h
  · exact ite_keep (State.endTile_kept h) h

theorem State.importHeld_kept {r s : State} {ext : Nat} (h : Kept r s) : Kept r (s.importHeld ext) := by
  unfold State.importHeld; exact State.importCheck_kept h

theorem State.mirrorGo_kept {r s : State} {w : MirrorWait} {ok : Bool} (h : Kept r s) : Kept r (s.mirrorGo w ok) := by
  unfold State.mirrorGo
  split
  · exact ite_keep (State.complete_kept h) (State.complete_kept h)
  · exact ite_keep (State.tileMirrored_kept h) (State.endTile_kept h)
  · refine ite_keep (State.ledgerClosed_kept h) ?_
    extract_lets -underBinder -useContext x1 x2
    have k3 : Kept r x2 := h
    clear_value x2
    exact State.ledgerClosed_kept k3
  · exact State.importHeld_kept h
  · exact h

theorem State.releaseMirrors_kept {r s : State} {ok : Bool} (h : Kept r s) : Kept r (s.releaseMirrors ok) := by
  unfold State.releaseMirrors
  extract_lets -underBinder -useContext x1 x2
  clear_value x1
  exact Kept.foldl (fun y3 y4 k5 => State.mirrorGo_kept k5) h

theorem State.fenceUnit_kept {r s : State} (h : Kept r s) : Kept r s.fenceUnit := by
  unfold State.fenceUnit
  extract_lets -underBinder -useContext x1 x2 x3
  have k4 : Kept r x2 := h
  clear_value x2
  have k5 : Kept r x3 := State.releaseMirrors_kept k4
  clear_value x3
  exact ite_keep ((State.pairSend_kept k5).2) k5

theorem State.mirrorAck_kept {r s : State} {tag : Nat} (h : Kept r s) : Kept r (s.mirrorAck tag) := by
  unfold State.mirrorAck
  split
  · exact h
  · extract_lets -underBinder -useContext x1 x2
    have k3 : Kept r x2 := h
    clear_value x2
    exact ite_keep k3 (State.mirrorGo_kept k3)

theorem State.sendLease_kept {r s : State} {what : IssuedFor}
    {claim out back : Bool} (h : Kept r s) : Kept r (s.sendLease what claim out back) := by
  unfold State.sendLease
  extract_lets -underBinder -useContext x1 x2 x3
  clear_value x1 x2
  have k4 : PairAll Any (Kept r) x3 := State.issueWith_kept h
  clear_value x3
  exact State.emit_kept k4.2

theorem State.renew_kept {r s : State} {out back : Bool} (h : Kept r s) : Kept r (s.renew out back) := by
  unfold State.renew; exact State.sendLease_kept h

theorem State.askOut_kept {r s : State} (h : Kept r s) : Kept r s.askOut := by
  unfold State.askOut
  extract_lets -underBinder -useContext x1
  clear_value x1
  exact ite_keep (State.renew_kept h) h

theorem State.copyDraft_kept {r s : State} {ext off : Nat} (h : Kept r s) : Kept r (s.copyDraft ext off) := by
  unfold State.copyDraft
  split
  · exact h
  · extract_lets -underBinder -useContext x1 x2 x3 x4
    clear_value x1 x2
    have k5 : PairAll Any (PairAll Any (Kept r)) x3 := State.readSector_kept h
    clear_value x3 x4
    exact ite_keep h (State.mirrorOut_kept k5.2.2)

theorem State.copyGo_kept {r s : State} (h : Kept r s) : Kept r s.copyGo := by
  unfold State.copyGo
  refine ite_keep h ?_
  split
  · extract_lets -underBinder -useContext x1 x2 x3 x4 x5 x6
    have k7 : PairAll Any (PairAll Any (Kept r)) x1 := State.readSector_kept h
    clear_value x1
    have k8 : Kept r x2 := k7.2.2
    clear_value x2
    have k9 : Kept r x4 := k8
    clear_value x4 x5
    have k10 : PairAll Any (Kept r) x6 := State.pairSend_kept k9
    clear_value x6
    exact State.copyDraft_kept (State.emit_kept k10.2)
  · exact ite_keep h (Kept.foldl (fun y11 y12 k13 => State.sendMeta_kept k13) h)

theorem State.peerSays_kept {r s : State} {i : PeerInfo} (h : Kept r s) : Kept r (s.peerSays i) := by
  unfold State.peerSays
  refine ite_keep h ?_
  extract_lets -underBinder -useContext x1 x2 x3 x4 x5 x6 x7 x8 x9
  clear_value x1 x2
  have k10 : Kept r x4 := h
  clear_value x4
  have k11 : Kept r x5 := Kept.foldl (fun y12 y13 k14 => State.recTen_kept k14) k10
  clear_value x5
  have k15 : Kept r x7 := k11
  clear_value x7
  have k16 : Kept r x8 := Kept.foldl (fun y17 y18 k19 => State.sendMeta_kept k19) k11
  clear_value x8
  exact ite_keep (State.copyGo_kept (Kept.foldl (fun y20 y21 k22 => State.sendMeta_kept k22) k15)) (ite_keep k11
      (State.copyGo_kept k16))

theorem State.mirrorCopy_kept {r s : State} {n : Nat}
    {data : Option (List Byte)} (h : Kept r s) : Kept r (s.mirrorCopy n data) := by
  unfold State.mirrorCopy
  split
  · exact h
  · extract_lets -underBinder -useContext x1 x2 x3 x4 x5 x6
    clear_value x1
    have k7 : Kept r x3 := h
    clear_value x3
    have k8 : Kept r x4 := by
      unfold x4
      refine ite_keep k7 ?_
      split
      · extract_lets -underBinder -useContext x9 x10 x11
        clear_value x9
        have k12 : Kept r x10 := (State.writeSector_kept k7).2
        clear_value x10 x11
        exact State.countFixed_kept (State.setSecMeta_kept k12)
      · exact State.loseSector_kept k7
    clear_value x4 x5 x6
    exact State.later_kept k8

theorem State.renewDone_kept {r s : State} {sent : Nat} {out back : Bool}
    {st : Nat} (h : Kept r s) : Kept r (s.renewDone sent out back st) := by
  unfold State.renewDone
  refine ite_keep ?_ (ite_keep (State.fenceUnit_kept h) h)
  extract_lets -underBinder -useContext x1 x2 x3 x4 x5 x6 x7
  have k8 : Kept r x2 := h
  clear_value x2
  have k9 : Kept r x4 := ite_keep (State.releaseMirrors_kept k8) k8
  clear_value x4
  have k10 : Kept r x6 := ite_keep k9 k9
  clear_value x6
  exact ite_keep k10 k10

theorem State.putCopy_kept {r s : State} {ext off : Nat} {data : List Byte}
    {bad : optParam Bool false} (h : Kept r s) : Kept r (s.putCopy ext off data bad) := by
  unfold State.putCopy
  split
  · exact h
  · refine ite_keep h ?_
    extract_lets -underBinder -useContext x1
    clear_value x1
    exact ite_keep (State.poisonSector_kept h) ((State.store_kept h).2)

theorem State.putRecord_kept {r s : State} {c : CacheRec} (h : Kept r s) : Kept r (s.putRecord c) := by
  unfold State.putRecord
  exact Kept.upd (s := s.putTagRec (tagKey c.src c.tag) { tgen := c.tgen, st := TagSt.done }) (State.putTagRec_kept h) rfl

theorem State.applyMirror_kept {r s : State} {m : MirrorMsg} (h : Kept r s) : Kept r (s.applyMirror m) := by
  unfold State.applyMirror
  extract_lets -underBinder -useContext x1 x2
  clear_value x1
  have k3 : Kept r x2 := by
    unfold x2
    refine Kept.foldl (fun y4 y5 k6 => ?_) h
    extract_lets -underBinder -useContext x7 x8
    clear_value x7
    exact ite_keep k6 (State.putCopy_kept k6)
  clear_value x2
  exact Kept.foldl (fun y9 y10 k11 => State.putRecord_kept k11) k3

theorem State.dropSpaces_kept {r s : State} {of : Nat → Bool} (h : Kept r s) : Kept r (s.dropSpaces of) := by
  unfold State.dropSpaces; exact h

theorem State.becomeActive_kept {r s : State} {term sent : Nat} (h : Kept r s) : Kept r (s.becomeActive term sent) := by
  unfold State.becomeActive; exact h

theorem State.recallAgain_kept {r s : State} (h : Kept r s) : Kept r s.recallAgain := by
  unfold State.recallAgain
  refine Kept.foldl (fun y1 y2 k3 => ?_) h
  extract_lets -underBinder -useContext x4 x5 x6 x7
  clear_value x4 x5 x6
  have k8 : Kept r x7 := State.putCheckout_kept k3
  clear_value x7
  split
  · exact (State.issue_kept k8).2
  · exact k8

theorem State.carryOver_kept {r s : State} (h : Kept r s) : Kept r s.carryOver := by
  unfold State.carryOver
  extract_lets -underBinder -useContext x1 x2 x3 x4 x5
  clear_value x1
  have k6 : Kept r x2 := State.recallAgain_kept (Kept.foldl (fun y7 y8 k9 => State.markLost_kept k9) h)
  clear_value x2
  exact k6

theorem State.dropUnmirrored_kept {r s : State} (h : Kept r s) : Kept r s.dropUnmirrored := by
  unfold State.dropUnmirrored
  extract_lets -underBinder -useContext x1 x2 x3 x4 x5 x6 x7 x8 x9 x10 x11
  clear_value x1 x2 x3
  have k12 : Kept r x4 := Kept.foldl (fun y13 y14 k15 => State.delExtent_kept k15) h
  clear_value x4
  have k16 : Kept r x5 := ite_keep k12 (State.invalidate_kept k12)
  clear_value x5 x6
  have k17 : Kept r x7 := Kept.foldl (fun y18 y19 k20 => State.freeStream_kept k20) k16
  clear_value x7
  have k21 : Kept r x10 := k17
  clear_value x10
  have k22 : Kept r x11 := State.recOp_kept k21
  clear_value x11
  refine Kept.foldl (fun y23 y24 k25 => ?_) k22
  extract_lets -underBinder -useContext x26
  clear_value x26
  exact State.record_kept k25

theorem State.takeover_kept {r s : State} {term sent : Nat} (h : Kept r s) : Kept r (s.takeover term sent) := by
  unfold State.takeover
  extract_lets -underBinder -useContext x1 x2 x3 x4 x5 x6
  have k7 : Kept r x1 := Kept.foldl (fun y8 y9 k10 => State.applyMirror_kept k10) h
  clear_value x1
  have k11 : Kept r x2 := State.dropSpaces_kept (State.becomeActive_kept k7)
  clear_value x2
  have k12 : Kept r x4 := k11
  clear_value x4
  have k13 : Kept r x5 := State.carryOver_kept (State.dropUnmirrored_kept k12)
  clear_value x5
  exact State.renew_kept k13

theorem State.claimLease_kept {r s : State} (h : Kept r s) : Kept r s.claimLease := by
  unfold State.claimLease; exact State.sendLease_kept h

theorem State.claimDone_kept {r s : State}
    {sent st term remaining : Nat} (h : Kept r s) : Kept r (s.claimDone sent st term remaining) := by
  unfold State.claimDone
  extract_lets -underBinder -useContext x1 x2 x3 x4
  have k5 : Kept r x2 := h
  clear_value x2 x3
  exact ite_keep k5 (ite_keep (ite_keep (State.takeover_kept k5) (State.becomeActive_kept k5)) (ite_keep (ite_keep
      (State.becomeOut_kept k5) (State.recOp_kept (State.becomeOut_kept k5))) (ite_keep k5 (ite_keep
      (State.claimLease_kept k5) k5))))

theorem State.place_kept {r s : State}
    {ext t mask pos a : Nat} (h : Kept r s) : PairAll Any (Kept r) (s.place ext t mask pos a) := by
  induction a generalizing s ext t mask pos with
  | zero =>
    unfold State.place
    exact ⟨trivial, h⟩
  | succ n ih =>
    unfold State.place
    split
    · exact ⟨trivial, h⟩
    · extract_lets -underBinder -useContext x1 x2
      have k3 : Kept r x1 := State.putGran_kept h
      clear_value x1
      have k4 : PairAll Any (Kept r) x2 := ih k3
      clear_value x2
      exact ⟨trivial, k4.2⟩

theorem State.enableExtent_kept {r s : State} {n : Nat} {e : Extent}
    {version : Nat} (h : Kept r s) : Kept r (s.enableExtent n e version) := by
  unfold State.enableExtent
  extract_lets -underBinder -useContext x1
  have k2 : PairAll Any (Kept r) x1 := State.place_kept h
  clear_value x1
  exact State.putExtent_kept k2.2

theorem State.placedThere_kept {r s : State} {n : Nat} {cmd : CmdRef}
    {st : Nat} (h : Kept r s) : Kept r (s.placedThere n cmd st) := by
  unfold State.placedThere
  split
  · exact State.respondBad_kept h
  · refine ite_keep ?_ (ite_keep (State.respond_kept h) (State.respond_kept h))
    split
    · exact State.respondOk_kept (State.enableExtent_kept h)
    · exact State.respond_kept h

theorem State.issuedDone_kept {r s : State} {tag : Nat} {what : IssuedFor} {st : Nat}
    {payload : List Byte} (h : Kept r s) : Kept r (s.issuedDone tag what st payload) := by
  unfold State.issuedDone
  extract_lets -underBinder -useContext x1 x2
  clear_value x1 x2
  split
  · split
    · exact State.snoopAnswer_kept h
    · exact h
  · exact h
  · exact ite_keep (State.fenceUnit_kept h) (ite_keep (State.mirrorAck_kept h) h)
  · exact ite_keep (State.fenceUnit_kept h) (ite_keep (State.mirrorAck_kept h) (ite_keep (State.askOut_kept h) h))
  · refine ite_keep (State.fenceUnit_kept h) (ite_keep ?_ h)
    split
    · exact State.peerSays_kept h
    · exact h
  · exact ite_keep (State.fenceUnit_kept h) (State.mirrorCopy_kept h)
  · exact ite_keep (State.fenceUnit_kept h) (State.copyGo_kept h)
  · exact h
  · exact State.renewDone_kept h
  · exact State.claimDone_kept h
  · exact ite_keep (State.respondBad_kept (State.fenceUnit_kept h)) (State.placedThere_kept h)

theorem State.issuedLost_kept {r s : State} {tag : Nat} (h : Kept r s) : Kept r (s.issuedLost tag) := by
  unfold State.issuedLost
  split
  · exact h
  · exact State.nodeLost_kept (State.issuedDone_kept (State.delIssued_kept h))

theorem State.revertPage_kept {r s : State} {p : Nat} (h : Kept r s) : Kept r (s.revertPage p) := by
  unfold State.revertPage; exact Kept.foldl (fun y1 y2 k3 => State.markLost_kept k3) h

theorem State.revert_kept {r s : State} {key : Nat} (h : Kept r s) : Kept r (s.revert key) := by
  unfold State.revert
  split
  · extract_lets -underBinder -useContext x1 x2
    have k3 : Kept r x1 := State.revertPage_kept h
    clear_value x1
    have k4 : Kept r x2 := State.putExtent_kept k3
    clear_value x2
    exact State.endCheckout_kept (State.countTen_kept k4)
  · exact h

theorem State.revertNode_kept {r s : State} {n : Nat} (h : Kept r s) : Kept r (s.revertNode n) := by
  unfold State.revertNode; exact Kept.foldl (fun y1 y2 k3 => State.revert_kept k3) h

theorem State.comLoseNode_kept {r s : State} {n : Nat} (h : Kept r s) : Kept r (s.comLoseNode n) := by
  unfold State.comLoseNode
  extract_lets -underBinder -useContext x1 x2 x3
  clear_value x1
  have k4 : Kept r x3 := h
  clear_value x3
  exact Kept.foldl (fun y5 y6 k7 => State.snoopAnswer_kept k7) k4

theorem State.putBank_kept {r s : State} {e : Nat} {b : Bank} (h : Kept r s) : Kept r (s.putBank e b) := by
  unfold State.putBank; exact ite_keep h h

theorem State.touchBank_kept {r s : State} {e : Nat} (h : Kept r s) : Kept r (s.touchBank e) := by
  unfold State.touchBank
  extract_lets -underBinder -useContext x1
  clear_value x1
  exact State.putBank_kept h

theorem State.clearOutst_kept {r s : State} {p : Packet} (h : Kept r s) : Kept r (s.clearOutst p) := by
  unfold State.clearOutst; exact h

theorem State.arrive_kept {r s : State} {op : Nat}
    {p : Packet} (h : Kept r s) : PairAll Any (PairAll Any (Kept r)) (s.arrive op p) := by
  unfold State.arrive
  refine ite_keep ⟨trivial, ⟨trivial, State.countDev_kept h⟩⟩ ?_
  extract_lets -underBinder -useContext x1 x2 x3 x4
  have k5 : Kept r x2 := State.touchBank_kept h
  clear_value x2
  have k6 : Kept r x4 := ite_keep (State.clearOutst_kept k5) k5
  clear_value x4
  exact ite_keep ⟨trivial, ⟨trivial, State.countDev_kept k5⟩⟩ (ite_keep ⟨trivial, ⟨trivial, k6⟩⟩ (ite_keep ⟨trivial,
      ⟨trivial, k6⟩⟩ ⟨trivial, ⟨trivial, k6⟩⟩))

theorem State.mcastIn_kept {r s : State} {op : Nat} {p : Packet} (h : Kept r s) : Kept r (s.mcastIn op p) := by
  unfold State.mcastIn
  extract_lets -underBinder -useContext x1
  clear_value x1
  refine Kept.foldl (fun y2 y3 k4 => ?_) h
  extract_lets -underBinder -useContext x5
  clear_value x5
  exact ite_keep (State.commit_kept k4) (State.countDev_kept k4)

theorem State.transitIn_kept {r s : State} {op : Nat} {p : Packet} (h : Kept r s) : Kept r (s.transitIn op p) := by
  unfold State.transitIn; exact State.route_kept h

theorem State.heardTaken_kept {r s : State} {m : PairMsg} (h : Kept r s) : Kept r (s.heardTaken m) := by
  unfold State.heardTaken
  split
  · exact ite_keep h h
  · exact h

theorem State.delTenant_kept {r s : State} {k : Nat} (h : Kept r s) : Kept r (s.delTenant k) := by
  unfold State.delTenant; exact h

theorem State.assignStations_kept {r s : State} (h : Kept r s) : Kept r s.assignStations := by
  unfold State.assignStations
  extract_lets -underBinder -useContext x1 x2 x3 x4 x5 x6 x7
  clear_value x1 x2 x3
  have k8 : Kept r x6 := h
  clear_value x6
  have k9 : Kept r x7 := by
    unfold x7
    refine Kept.foldl (fun y10 y11 k12 => ?_) k8
    extract_lets -underBinder -useContext x13 x14
    clear_value x13 x14
    exact State.recTen_kept (State.recOp_kept k12)
  clear_value x7
  exact State.later_kept k9

theorem State.forgetTenant_kept {r s : State} {t : Nat} (h : Kept r s) : Kept r (s.forgetTenant t) := by
  unfold State.forgetTenant
  extract_lets -underBinder -useContext x1 x2 x3 x4 x5 x6
  have k7 : Kept r x1 := State.delTenant_kept h
  clear_value x1
  have k8 : Kept r x6 := k7
  clear_value x6
  exact State.sendMeta_kept (State.assignStations_kept k8)

theorem State.delSpace_kept {r s : State} {k : Nat} (h : Kept r s) : Kept r (s.delSpace k) := by
  unfold State.delSpace; exact h

theorem State.settleDraft_kept {r s : State} {ext : Nat}
    {commit : Bool} (h : Kept r s) : Kept r (s.settleDraft ext commit) := by
  unfold State.settleDraft
  extract_lets -underBinder -useContext x1 x2 x3
  clear_value x1
  have k4 : Kept r x3 := h
  clear_value x3
  exact ite_keep (Kept.foldl (fun y5 y6 k7 => State.putCopy_kept k7) k4) k4

theorem State.recordExtent_kept {r s : State}
    {n t desc st version : Nat} (h : Kept r s) : PairAll Any (Kept r) (s.recordExtent n t desc st version) := by
  unfold State.recordExtent
  extract_lets -underBinder -useContext x1 x2 x3 x4
  clear_value x1 x2 x3
  have k5 : Kept r x4 := ite_keep (State.settleDraft_kept h) h
  clear_value x4
  exact ite_keep ⟨trivial, State.putExtent_kept h⟩ (ite_keep ⟨trivial, State.putExtent_kept h⟩ (ite_keep ⟨trivial,
      State.putExtent_kept k5⟩ (ite_keep ⟨trivial, State.enableExtent_kept k5⟩ ⟨trivial, k5⟩)))

theorem State.dropCopy_kept {r s : State} {n : Nat} (h : Kept r s) : Kept r (s.dropCopy n) := by
  unfold State.dropCopy
  split
  · exact h
  · exact State.delExtent_kept (Kept.foldl (fun y1 y2 k3 => State.setGran_kept (State.zeroGran_kept k3)) h)

theorem State.delWindow_kept {r s : State} {k : Nat} (h : Kept r s) : Kept r (s.delWindow k) := by
  unfold State.delWindow; exact h

theorem State.delContext_kept {r s : State} {k : Nat} (h : Kept r s) : Kept r (s.delContext k) := by
  unfold State.delContext; exact h

theorem State.putCommon_kept {r s : State} {k : Nat} {v : Common} (h : Kept r s) : Kept r (s.putCommon k v) := by
  unfold State.putCommon; exact h

theorem State.applyBlock_kept {r s : State} {body : CcpBody} {block : Nat}
    {tenant : optParam (Option Nat) none} (h : Kept r s)
    (h1 : ∀ (a : CcpCtx) (a_1 : State), Kept r a_1 → KeptOut r (body a a_1)) : Kept r (s.applyBlock body block tenant) := by
  unfold State.applyBlock; exact (h1 _ _ h).1

theorem checked_kept {r s : State} {l : List (Bool × Refuse)}
    {k : CcpOut} (h : Kept r s) (h1 : KeptOut r k) : KeptOut r (checked s l k) := by
  unfold checked
  split
  · exact refuse_kept h
  · exact h1

theorem bodySchedSet_kept {r : State} {a : CcpCtx} {a1 : State} (h : Kept r a1) : KeptOut r (bodySchedSet a a1) := by
  unfold bodySchedSet
  extract_lets -underBinder -useContext x1 x2 x3 x4 x5 x6 x7 x8 x9 x10 x11 x12 x13 x14 x15 x16
  clear_value x1 x2 x3 x4 x5 x6 x7 x8 x9 x10 x11 x12
  have k17 : Kept r x14 := h
  clear_value x14
  have k18 : Kept r x16 := k17
  clear_value x16
  exact checked_kept h (okEmpty_kept (State.sendMeta_kept k18))

theorem bodyPoliceSet_kept {r : State} {a : CcpCtx} {a1 : State} (h : Kept r a1) : KeptOut r (bodyPoliceSet a a1) := by
  unfold bodyPoliceSet
  extract_lets -underBinder -useContext x1 x2 x3 x4 x5 x6 x7 x8 x9 x10
  clear_value x1 x2 x3 x4 x5 x6 x7 x8
  have k11 : Kept r x10 := ite_keep h h
  clear_value x10
  exact checked_kept h (okEmpty_kept (State.sendMeta_kept k11))

theorem bodyArbSet_kept {r : State} {a : CcpCtx} {a1 : State} (h : Kept r a1) : KeptOut r (bodyArbSet a a1) := by
  unfold bodyArbSet
  extract_lets -underBinder -useContext x1 x2 x3 x4 x5 x6
  clear_value x1 x2 x3 x4
  have k7 : Kept r x6 := h
  clear_value x6
  exact checked_kept h (okEmpty_kept (State.sendMeta_kept k7))

theorem bodyIsolateSet_kept {r : State} {a : CcpCtx} {a1 : State} (h : Kept r a1) : KeptOut r (bodyIsolateSet a a1) := by
  unfold bodyIsolateSet
  extract_lets -underBinder -useContext x1 x2 x3 x4 x5 x6 x7 x8 x9
  clear_value x1 x2 x3 x4 x5 x6 x7
  have k10 : Kept r x9 := h
  clear_value x9
  exact checked_kept h (okEmpty_kept (State.sendMeta_kept (State.assignStations_kept k10)))

theorem State.putCadence_kept {r s : State} {k : Nat} {v : Cadence} (h : Kept r s) : Kept r (s.putCadence k v) := by
  unfold State.putCadence; exact h

theorem bodyCadenceSet_kept {r : State} {a : CcpCtx} {a1 : State} (h : Kept r a1) : KeptOut r (bodyCadenceSet a a1) := by
  unfold bodyCadenceSet
  extract_lets -underBinder -useContext x1 x2 x3 x4 x5
  clear_value x1 x2 x3 x4 x5
  exact checked_kept h (okEmpty_kept (State.sendMeta_kept (State.putCadence_kept h)))

theorem bodyPowerSet_kept {r : State} {a : CcpCtx} {a1 : State} (h : Kept r a1) : KeptOut r (bodyPowerSet a a1) := by
  unfold bodyPowerSet
  extract_lets -underBinder -useContext x1 x2 x3 x4
  clear_value x1 x2
  have k5 : Kept r x4 := h
  clear_value x4
  exact checked_kept h (okEmpty_kept (State.relevel_kept (State.sendMeta_kept k5)))

end Sys2Proof.Machine
end

