-- ==== Sys2Proof/Laws/Kept/Part5.lean ====
section
/-! SUPPORT. Part5.lean: what each operation of the machine keeps (Laws/Kept.lean), one lemma per definition, in the
order in which they call each other. -/

namespace Sys2Proof.Machine

theorem State.applyRecord_kept {r s : State} {a1 : PairRec} (h : Kept r s) : PairAll Any (Kept r) (s.applyRecord a1) := by
  unfold State.applyRecord
  extract_lets -underBinder -useContext x1
  have k2 : ∀ (s : State), Kept r s → PairAll Any (Kept r) (x1 s) := by
    unfold x1
    intro y3 k4
    exact ⟨trivial, k4⟩
  clear_value x1
  split
  · exact k2 _ (by exact State.putTenant_kept h)
  · exact k2 _ (by exact State.forgetTenant_kept h)
  · refine k2 _ ?_
    split
    · exact State.putTenant_kept h
    · exact h
  · exact k2 _ (by exact ite_keep h (State.putSpace_kept h))
  · rename_i z5 z6
    exact k2 _ (by exact Kept.upd (s := s.delSpace z6) (State.delSpace_kept h) rfl)
  · extract_lets -underBinder -useContext x7 x8 x9
    clear_value x7 x8
    exact k2 _ (by exact h)
  · extract_lets -underBinder -useContext x10 x11
    clear_value x10
    exact k2 _ (by exact h)
  · exact State.recordExtent_kept h
  · exact k2 _ (by exact State.dropCopy_kept h)
  · exact k2 _ (by exact State.putWindow_kept h)
  · exact k2 _ (by exact State.delWindow_kept h)
  · exact k2 _ (by exact State.putContext_kept h)
  · exact k2 _ (by exact State.delContext_kept h)
  · exact k2 _ (by exact State.putCommon_kept h)
  · exact k2 _ (by exact State.delCommon_kept h)
  · exact k2 _ (by exact State.putDir_kept h)
  · extract_lets -underBinder -useContext x12 x13
    clear_value x12
    have k14 : Kept r x13 := State.delDir_kept h
    clear_value x13
    exact k2 _ (by exact ite_keep (State.markLost_kept k14) k14)
  · extract_lets -underBinder -useContext x15 x16
    have k17 : Kept r x16 := h
    clear_value x16
    exact k2 _ (by exact State.putCheckout_kept k17)
  · extract_lets -underBinder -useContext x18 x19 x20 x21
    clear_value x18
    have k22 : Kept r x19 := State.delCheckout_kept h
    clear_value x19
    have k23 : Kept r x21 := k22
    clear_value x21
    refine k2 _ (ite_keep ?_ k23)
    split
    · exact State.putExtent_kept (State.revertPage_kept k23)
    · exact k23
  · exact k2 _ (by exact State.putNodeRec_kept h)
  · extract_lets -underBinder -useContext x24 x25
    clear_value x24
    exact k2 _ (by exact h)
  · exact k2 _ (by exact State.applyBlock_kept h (fun y26 y27 k28 => bodySchedSet_kept k28))
  · exact k2 _ (by exact State.applyBlock_kept h (fun y29 y30 k31 => bodyPoliceSet_kept k31))
  · exact k2 _ (by exact State.applyBlock_kept h (fun y32 y33 k34 => bodyArbSet_kept k34))
  · exact k2 _ (by exact State.applyBlock_kept h (fun y35 y36 k37 => bodyIsolateSet_kept k37))
  · exact k2 _ (by exact State.applyBlock_kept h (fun y38 y39 k40 => bodyCadenceSet_kept k40))
  · exact k2 _ (by exact State.applyBlock_kept h (fun y41 y42 k43 => bodyPowerSet_kept k43))
  · exact k2 _ (by exact State.putRecord_kept h)
  · exact k2 _ (by exact h)

theorem State.dropCopies_kept {r s : State} (h : Kept r s) : Kept r s.dropCopies := by
  unfold State.dropCopies
  extract_lets -underBinder -useContext x1 x2 x3 x4 x5 x6 x7 x8 x9
  have k10 : Kept r x1 := Kept.foldl (fun y11 y12 k13 => State.freeStream_kept k13) h
  clear_value x1 x2
  have k14 : Kept r x3 := Kept.foldl (fun y15 y16 k17 => State.setGran_kept (State.zeroGran_kept k17)) k10
  clear_value x3
  have k18 : Kept r x4 := State.dropSpaces_kept k14
  clear_value x4
  exact k18

theorem State.becomeSyncing_kept {r s : State} (h : Kept r s) : Kept r s.becomeSyncing := by
  unfold State.becomeSyncing; exact Kept.upd (s := s.dropCopies) (State.dropCopies_kept h) rfl

theorem State.beatFrom_kept {r s : State} {i : PeerInfo} (h : Kept r s) : Kept r (s.beatFrom i) := by
  unfold State.beatFrom
  split
  · exact ite_keep h (ite_keep (State.recOp_kept h) (ite_keep (State.becomeSyncing_kept h) h))
  · exact ite_keep (State.becomeSyncing_kept h) h
  · exact ite_keep h h
  · exact h

theorem State.placeForCopy_kept {r s : State} {ext : Nat} (h : Kept r s) : Kept r (s.placeForCopy ext) := by
  unfold State.placeForCopy
  split
  · exact ite_keep (State.enableExtent_kept h) h
  · exact h

theorem State.standbyClaims_kept {r s : State} (h : Kept r s) : Kept r s.standbyClaims := by
  unfold State.standbyClaims
  extract_lets -underBinder -useContext x1 x2
  have k3 : Kept r x2 := h
  clear_value x2
  exact ite_keep k3 (State.claimLease_kept k3)

theorem State.pairDo_kept {r s : State} {msg : PairMsg} (h : Kept r s) : PairAll Any (Kept r) (s.pairDo msg) := by
  unfold State.pairDo
  extract_lets -underBinder -useContext x1
  have k2 : ∀ (s : State), Kept r s → PairAll Any (Kept r) (x1 s) := by
    unfold x1
    intro y3 k4
    exact ⟨trivial, k4⟩
  clear_value x1
  split
  · exact ite_keep ⟨trivial, h⟩ (ite_keep ⟨trivial, h⟩ (k2 _ (by exact State.applyMirror_kept h)))
  · refine ite_keep ⟨trivial, h⟩ ?_
    rename_i z5 z6
    have k7 : PairAll Any (Kept r) (s.applyRecord z6) := State.applyRecord_kept h
    split
    · rename_i z8 z9 e10
      have k11 := via e10 k7
      have k12 : Kept r z9 := k11.2
      exact k2 _ k12
    · rename_i z13 z14 e15
      have k16 := via e15 k7
      have k17 : Kept r z14 := k16.2
      exact ⟨trivial, k17⟩
  · exact k2 _ (by exact State.beatFrom_kept h)
  · refine ite_keep ⟨trivial, h⟩ (ite_keep ⟨trivial, h⟩ ?_)
    extract_lets -underBinder -useContext x18
    have k19 : PairAll Any (PairAll Any (Kept r)) x18 := State.readSector_kept h
    clear_value x18
    exact ⟨trivial, k19.2.2⟩
  · exact ite_keep ⟨trivial, h⟩ (k2 _ (by exact State.putCopy_kept (State.placeForCopy_kept h)))
  · exact k2 _ (by exact ite_keep (State.standbyClaims_kept h) h)

theorem State.pairIn_kept {r s : State} {op : Nat} {p : Packet}
    {msg : Option (Nat × PairMsg)} (h : Kept r s) : Kept r (s.pairIn op p msg) := by
  unfold State.pairIn
  extract_lets -underBinder -useContext x1 x2 x3
  clear_value x1 x2
  refine ite_keep (State.countDev_kept h) (ite_keep (State.answer_kept h) (ite_keep (State.answer_kept h) (ite_keep
      (State.answer_kept (State.countDev_kept h)) ?_)))
  split
  · exact State.answer_kept h
  · refine ite_keep (State.answer_kept h) (ite_keep (State.answer_kept (State.heardTaken_kept h)) ?_)
    extract_lets -underBinder -useContext x4 x5 x6 x7
    clear_value x4
    have k8 : Kept r x6 := h
    clear_value x6
    have k9 : PairAll Any (Kept r) x7 := State.pairDo_kept k8
    clear_value x7
    split
    · exact State.answer_kept k9.2
    · exact k9.2

theorem State.heard_kept {r s : State} {n : Nat} (h : Kept r s) : Kept r (s.heard n) := by
  unfold State.heard; exact ite_keep h (State.putNodeRec_kept h)

theorem State.leaseIn_kept {r s : State} {p : Packet} {sigOk : Bool} (h : Kept r s) : Kept r (s.leaseIn p sigOk) := by
  unfold State.leaseIn
  split
  · exact State.countDev_kept h
  · refine ite_keep (State.issuedLost_kept h) (ite_keep (State.countDev_kept h) ?_)
    extract_lets -underBinder -useContext x1 x2
    have k3 : Kept r x1 := State.delIssued_kept (State.heard_kept h)
    clear_value x1 x2
    split
    · exact State.renewDone_kept k3
    · exact State.claimDone_kept k3
    · exact k3

theorem State.completionIn_kept {r s : State} {p : Packet} (h : Kept r s) : Kept r (s.completionIn p) := by
  unfold State.completionIn
  extract_lets -underBinder -useContext x1 x2
  have k3 : Kept r x1 := ite_keep h (State.heard_kept h)
  clear_value x1 x2
  split
  · exact State.countDev_kept k3
  · extract_lets -underBinder -useContext x4
    clear_value x4
    exact ite_keep (State.countDev_kept k3) (ite_keep (State.issuedLost_kept k3) (State.issuedDone_kept
        (State.delIssued_kept k3)))

theorem State.snoopResponse_kept {r s : State} {p : Packet}
    {told : SnoopSays} (h : Kept r s) : Kept r (s.snoopResponse p told) := by
  unfold State.snoopResponse
  extract_lets -underBinder -useContext x1
  have k2 : Kept r x1 := by
    unfold x1
    split
    · exact State.countTen_kept h
    · exact State.countTen_kept h
    · exact State.countTen_kept h
    · exact h
  clear_value x1
  split
  · refine ite_keep k2 ?_
    split
    · exact ite_keep (State.snoopAnswer_kept h) k2
    · exact k2
  · exact k2

theorem State.chargePort_kept {r s : State} {p : Nat} (h : Kept r s) : Kept r (s.chargePort p) := by
  unfold State.chargePort
  extract_lets -underBinder -useContext x1 x2 x3
  clear_value x1
  have k4 : Kept r x3 := h
  clear_value x3
  exact ite_keep (State.recOp_kept k4) k4

theorem State.releaseFences_kept {r s : State} {src a : Nat} (h : Kept r s) : Kept r (s.releaseFences src a) := by
  induction a generalizing s src with
  | zero =>
    unfold State.releaseFences
    exact h
  | succ n ih =>
    unfold State.releaseFences
    extract_lets -underBinder -useContext x1
    clear_value x1
    split
    · exact h
    · exact ih h

theorem State.fenceIn_kept {r s : State} {a1 : Req} (h : Kept r s) : Kept r (s.fenceIn a1) := by
  unfold State.fenceIn
  extract_lets -underBinder -useContext x1 x2 x3 x4 x5 x6
  clear_value x1 x2
  have k7 : ∀ (s : State), Kept r s → Kept r (x3 s) := by
    unfold x3
    intro y8 k9
    exact k9
  clear_value x3 x4
  have k10 : Kept r x6 := ite_keep h h
  clear_value x6
  exact ite_keep (State.releaseFences_kept (k7 _ k10)) (ite_keep (State.releaseFences_kept (k7 _ (by exact h)))
      (ite_keep (State.complete_kept h) h))

theorem State.police_kept {r s : State}
    {session tenant length draw : Nat} (h : Kept r s) : PairAll Any (Kept r) (s.police session tenant length draw) := by
  unfold State.police
  extract_lets -underBinder -useContext x1 x2 x3 x4 x5 x6 x7 x8 x9 x10 x11
  clear_value x1 x2 x3 x4 x5 x6 x7
  have k12 : Kept r x9 := ite_keep h h
  clear_value x9
  have k13 : Kept r x11 := ite_keep k12 k12
  clear_value x11
  exact ite_keep ⟨trivial, h⟩ (ite_keep ⟨trivial, h⟩ (ite_keep ⟨trivial, h⟩ ⟨trivial, k13⟩))

theorem State.newRequest_kept {r s : State} {a1 : Req} (h : Kept r s) : Kept r (s.newRequest a1) := by
  unfold State.newRequest
  refine ite_keep (State.fenceIn_kept h) ?_
  split
  · exact State.fenceIn_kept h
  · rename_i z1 z2 e3
    have k4 : PairAll Any (Kept r) (s.police a1.p.session z2.tenant a1.p.length (s.drawOf a1.opcode a1.p)) :=
        State.police_kept h
    split
    · rename_i z5 z6 e7
      have k8 := via e7 k4
      have k9 : Kept r z6 := k8.2
      exact State.complete_kept k9
    · rename_i z10 z11 z12 e13
      have k14 := via e13 k4
      have k15 : Kept r z12 := k14.2
      exact State.fenceIn_kept k15

theorem State.byTag_kept {r s : State} {a1 : Req} (h : Kept r s) : Kept r (s.byTag a1) := by
  unfold State.byTag
  extract_lets -underBinder -useContext x1 x2 x3
  clear_value x1 x2
  have k4 : ∀ (s : State), Kept r s → Kept r (x3 s) := by
    unfold x3
    intro y5 k6
    exact State.newRequest_kept (State.putTagRec_kept k6)
  clear_value x3
  split
  · exact k4 _ h
  · extract_lets -underBinder -useContext x7 x8 x9
    clear_value x7 x9
    refine ite_keep (State.countDev_kept h) (ite_keep (k4 _ h) (ite_keep (State.answer_kept h) (ite_keep (k4 _ h) ?_)))
    split
    · exact State.putTagRec_kept h
    · split
      · extract_lets -underBinder -useContext x10 x11
        have k12 : Kept r x11 := h
        clear_value x11
        exact State.answer_kept k12
      · exact State.answer_kept h
    · exact k4 _ h

theorem State.classify_kept {r s : State} {op : Nat} {p : Packet} (h : Kept r s) : Kept r (s.classify op p) := by
  unfold State.classify
  extract_lets -underBinder -useContext x1 x2 x3
  clear_value x1 x2
  refine ite_keep (State.countDev_kept h) (ite_keep (State.answer_kept h) ?_)
  split
  · extract_lets -underBinder -useContext x4
    have k5 : Kept r x4 := by
      unfold x4
      split
      · exact h
      · exact State.chargeLink_kept h
      · exact State.chargePort_kept h
    clear_value x4
    exact State.answer_kept k5
  · extract_lets -underBinder -useContext x6
    have k7 : Kept r x6 := ite_keep h (State.heard_kept h)
    clear_value x6
    split
    · exact State.answer_kept k7
    · split
      · exact State.answer_kept k7
      · exact State.byTag_kept k7

theorem State.deliverIn_kept {r s : State} {op : Nat} {p : Packet}
    {x : Inner} (h : Kept r s) : Kept r (s.deliverIn op p x) := by
  unfold State.deliverIn
  refine ite_keep (State.pairIn_kept h) (ite_keep (ite_keep (State.leaseIn_kept h) (State.completionIn_kept h))
      (ite_keep (State.snoopResponse_kept (State.heard_kept h)) (ite_keep (State.snoopResponse_kept
      (State.heard_kept h)) (ite_keep (State.snoopResponse_kept (State.heard_kept h)) (ite_keep h ?_)))))
  extract_lets -underBinder -useContext x1 x2
  clear_value x1
  exact ite_keep (State.answer_kept h) (ite_keep h (State.classify_kept h))

theorem State.packetIn_kept {r s : State} {op : Nat} {p : Packet}
    {x : Inner} (h : Kept r s) : Kept r (s.packetIn op p x) := by
  unfold State.packetIn
  have k1 : PairAll Any (PairAll Any (Kept r)) (s.arrive op p) := State.arrive_kept h
  split
  · rename_i z2 z3 z4 e5
    have k6 := via e5 k1
    have k7 : Kept r z4 := k6.2.2
    exact k7
  · rename_i z8 z9 z10 e11
    have k12 := via e11 k1
    have k13 : Kept r z10 := k12.2.2
    exact State.mcastIn_kept k13
  · rename_i z14 z15 z16 e17
    have k18 := via e17 k1
    have k19 : Kept r z16 := k18.2.2
    exact State.transitIn_kept k19
  · rename_i z20 z21 z22 e23
    have k24 := via e23 k1
    have k25 : Kept r z22 := k24.2.2
    exact State.deliverIn_kept k25

theorem State.modSess_kept {r s : State} {p : Nat} {f : PortSess → PortSess} (h : Kept r s) : Kept r (s.modSess p f) := by
  unfold State.modSess; exact State.modPort_kept h

theorem State.sayFree_kept {r s : State} {p type : Nat} (h : Kept r s) : Kept r (s.sayFree p type) :=
  (State.modPort_kept h).drawn

theorem State.finishOut_kept {r s : State} {p : Nat} (h : Kept r s) : Kept r (s.finishOut p) := by
  unfold State.finishOut; exact State.sayFree_kept (State.modSess_kept h)

theorem State.hello_kept {r s : State} {p peerHash : Nat}
    {chain : Chain} (h : Kept r s) : Kept r (s.hello p peerHash chain) := by
  unfold State.hello
  extract_lets -underBinder -useContext x1 x2 x3 x4
  clear_value x1 x2
  have k5 : Kept r x3 := State.modSess_kept h
  clear_value x3
  have k6 : Kept r x4 := State.sayFree_kept k5
  clear_value x4
  exact ite_keep h (ite_keep k5 (ite_keep (State.finishOut_kept k6) (State.portDown_kept k6)))

theorem State.kem_kept {r s : State} {p : Nat} {chain : Chain} (h : Kept r s) : Kept r (s.kem p chain) := by
  unfold State.kem
  extract_lets -underBinder -useContext x1
  clear_value x1
  exact ite_keep h (ite_keep (State.finishOut_kept h) (State.portDown_kept h))

theorem State.finish_kept {r s : State} {p : Nat} {sigOk : Bool} (h : Kept r s) : Kept r (s.finish p sigOk) := by
  unfold State.finish
  extract_lets -underBinder -useContext x1 x2 x3 x4 x5
  clear_value x1 x2
  have k6 : Kept r x4 := h
  clear_value x4 x5
  exact ite_keep h (ite_keep (State.portDown_kept h) (State.putPort_kept k6))

theorem State.retrain_kept {r s : State} {p w : Nat} {counted : Bool} (h : Kept r s) : Kept r (s.retrain p w counted) := by
  unfold State.retrain; exact State.modPort_kept h

theorem State.lowerW_kept {r s : State} {p : Nat} (h : Kept r s) : Kept r (s.lowerW p) := by
  unfold State.lowerW
  extract_lets -underBinder -useContext x1
  clear_value x1
  exact ite_keep (State.retrain_kept h) (ite_keep (State.modPort_kept h) h)

theorem State.params_kept {r s : State} {p : Nat} {buffers : List Nat} (h : Kept r s) : Kept r (s.params p buffers) := by
  unfold State.params
  extract_lets -underBinder -useContext x1 x2
  clear_value x1 x2
  exact ite_keep h (ite_keep (State.portDown_kept h) (State.lowerW_kept (State.setPortReady_kept (State.putPort_kept h))))

theorem State.keyNextOut_kept {r s : State} {p : Nat} (h : Kept r s) : Kept r (s.keyNextOut p) := by
  unfold State.keyNextOut; exact ite_keep h (State.sayFree_kept (State.modSess_kept h))

theorem State.loadNext_kept {r s : State} {p : Nat} (h : Kept r s) : Kept r (s.loadNext p) := by
  unfold State.loadNext
  extract_lets -underBinder -useContext x1 x2 x3
  clear_value x1
  have k4 : Kept r x3 := h
  clear_value x3
  exact State.modPort_kept k4

theorem State.keyNext_kept {r s : State} {p : Nat} (h : Kept r s) : Kept r (s.keyNext p) := by
  unfold State.keyNext
  extract_lets -underBinder -useContext x1 x2
  clear_value x1
  have k3 : Kept r x2 := State.modSess_kept (State.keyNextOut_kept h)
  clear_value x2
  exact ite_keep h (ite_keep (State.loadNext_kept (State.sayFree_kept k3)) k3)

theorem State.keyNextKem_kept {r s : State} {p : Nat} (h : Kept r s) : Kept r (s.keyNextKem p) := by
  unfold State.keyNextKem
  extract_lets -underBinder -useContext x1
  clear_value x1
  exact ite_keep h (State.loadNext_kept h)

theorem State.peerDown_kept {r s : State} {p reason : Nat} (h : Kept r s) : Kept r (s.peerDown p reason) := by
  unfold State.peerDown
  extract_lets -underBinder -useContext x1
  clear_value x1
  exact ite_keep (State.portDown_kept h) h

theorem State.controlIn_kept {r s : State} {p : Nat} {b : List Byte} (h : Kept r s) : Kept r (s.controlIn p b) := by
  unfold State.controlIn
  split
  · exact h
  · split
    · extract_lets -underBinder -useContext x1
      clear_value x1
      exact State.hello_kept h
    · exact State.kem_kept h
    · exact State.finish_kept h
    · exact State.params_kept h
    · exact State.keyNext_kept h
    · exact State.keyNextKem_kept h
    · exact State.peerDown_kept h
    · exact h

theorem State.dropForeign_kept {r s : State} {n : Nat} (h : Kept r s) : Kept r (s.dropForeign n) := by
  unfold State.dropForeign
  extract_lets -underBinder -useContext x1
  clear_value x1
  exact Kept.foldl (fun y2 y3 k4 => State.returnItems_kept (State.modStation_kept k4)) h

theorem State.passTo_kept {r s : State} {n t : Nat} (h : Kept r s) : Kept r (s.passTo n t) := by
  unfold State.passTo
  extract_lets -underBinder -useContext x1 x2 x3 x4
  clear_value x1 x2
  have k5 : Kept r x3 := State.modStation_kept h
  clear_value x3
  exact ite_keep k5 k5

theorem State.beginItem_kept {r s : State} {n : Nat}
    {w : Nat × Nat × Option Nat} (h : Kept r s) : Kept r (s.beginItem n w) := by
  unfold State.beginItem
  extract_lets -underBinder -useContext x1 x2
  have k3 : Kept r x1 := by
    unfold x1
    split
    · exact State.passTo_kept h
    · exact h
  clear_value x1
  have k4 : Kept r x2 := State.modStation_kept k3
  clear_value x2
  split
  · exact State.later_kept (State.modTile_kept k4)
  · exact State.later_kept (State.modTile_kept k4)

theorem State.offerAgain_kept {r s : State} (h : Kept r s) : Kept r s.offerAgain := by
  unfold State.offerAgain; exact State.later_kept h

theorem State.arbitrate_kept {r s : State} {n : Nat} (h : Kept r s) : Kept r (s.arbitrate n) := by
  unfold State.arbitrate
  extract_lets -underBinder -useContext x1 x2 x3
  have k4 : Kept r x1 := State.dropForeign_kept h
  clear_value x1
  have k5 : Kept r x2 := State.modStation_kept k4
  clear_value x2 x3
  refine ite_keep k4 ?_
  split
  · exact State.beginItem_kept k5
  · extract_lets -underBinder -useContext x6
    have k7 : Kept r x6 := State.dropGrant_kept k5
    clear_value x6
    split
    · exact k7
    · split
      · exact k7
      · extract_lets -underBinder -useContext x8 x9 x10
        clear_value x8
        have k11 : Kept r x9 := State.modStation_kept k7
        clear_value x9
        have k12 : Kept r x10 := ite_keep (State.offerAgain_kept k11) k11
        clear_value x10
        exact State.beginItem_kept (State.leaveQueue_kept k12)

theorem State.yieldStation_kept {r s : State} {n : Nat} (h : Kept r s) : Kept r (s.yieldStation n) := by
  unfold State.yieldStation; exact State.later_kept (State.modStation_kept h)

theorem State.refuseStep_kept {r s : State} {n sid i : Nat}
    {st : Status} (h : Kept r s) : Kept r (s.refuseStep n sid i st) := by
  unfold State.refuseStep; exact State.endTile_kept (State.yieldStation_kept h)

theorem State.startTile_kept {r s : State} {n sid i : Nat} {v : Stream}
    {t : Tile} (h : Kept r s) : Kept r (s.startTile n sid i v t) := by
  unfold State.startTile
  extract_lets -underBinder -useContext x1 x2 x3
  clear_value x1 x2 x3
  split
  · exact State.refuseStep_kept h
  · extract_lets -underBinder -useContext x4
    clear_value x4
    have k5 : PairAll Any (Kept r) (s.reachSpans x1 x3) := State.reachSpans_kept h
    split
    · rename_i z6 e7 z8 z9 z10 e11
      have k12 := via e11 k5
      have k13 : Kept r z10 := k12.2
      exact State.refuseStep_kept k13
    · rename_i z14 e15 z16 z17 e18
      have k19 := via e18 k5
      have k20 : Kept r z17 := k19.2
      exact State.yieldStation_kept (State.modTile_kept k20)
    · rename_i z21 e22 z23 z24 e25
      have k26 := via e25 k5
      have k27 : Kept r z24 := k26.2
      have k28 : PairAll Any (Kept r) (if (z24.spanFault x1 x4).isNone = true then z24.reachSpans x1 x4 else (Prep.yes,
          z24)) := ite_keep (State.reachSpans_kept k27) ⟨trivial, k27⟩
      split
      · rename_i z29 z30 e31
        have k32 := via e31 k28
        have k33 : Kept r z30 := k32.2
        exact State.yieldStation_kept (State.modTile_kept k33)
      · rename_i z34 z35 z36 e37
        have k38 := via e37 k28
        have k39 : Kept r z36 := k38.2
        exact State.refuseStep_kept k39
      · rename_i z40 z41 e42
        have k43 := via e42 k28
        have k44 : Kept r z41 := k43.2
        exact State.modTile_kept k44

theorem State.startSplit_kept {r s : State} {n sid i j : Nat} {v : Stream}
    {t : Tile} (h : Kept r s) : Kept r (s.startSplit n sid i j v t) := by
  unfold State.startSplit
  split
  · exact h
  · extract_lets -underBinder -useContext x1 x2
    clear_value x1 x2
    have k3 : PairAll Any (Kept r) (s.reachSpans x1 x2) := State.reachSpans_kept h
    split
    · rename_i z4 z5 e6 z7 z8 e9
      have k10 := via e9 k3
      have k11 : Kept r z8 := k10.2
      exact State.yieldStation_kept (State.modSplit_kept k11)
    · rename_i z12 z13 e14 z15 z16 z17 e18
      have k19 := via e18 k3
      have k20 : Kept r z17 := k19.2
      exact State.endTile_kept (State.dropSplits_kept (State.yieldStation_kept k20))
    · rename_i z21 z22 e23 z24 z25 e26
      have k27 := via e26 k3
      have k28 : Kept r z25 := k27.2
      exact State.modSplit_kept k28

theorem State.startItem_kept {r s : State} {n : Nat} (h : Kept r s) : Kept r (s.startItem n) := by
  unfold State.startItem
  split
  · exact h
  · split
    · exact h
    · split
      · exact State.startTile_kept h
      · exact State.startSplit_kept h

theorem State.unappend_kept {r s : State} {ctx h pos : Nat} (hk : Kept r s) : Kept r (s.unappend ctx h pos) := by
  unfold State.unappend
  split
  · exact hk
  · extract_lets -underBinder -useContext x1 x2 x3
    clear_value x1
    have k4 : Kept r x2 := State.putContext_kept hk
    clear_value x2 x3
    refine ite_keep hk (Kept.foldl (fun y5 y6 k7 => Kept.foldl (fun y8 y9 k10 => ?_) k7) k4)
    split
    · exact State.endTile_kept k10
    · exact k10

theorem State.lateTile_kept {r s : State} {sid i : Nat} (h : Kept r s) : Kept r (s.lateTile sid i) := by
  unfold State.lateTile
  split
  · exact ite_keep (State.rerunTile_kept h) (State.endTile_kept h)
  · exact h

theorem State.spillTile_kept {r s : State} {n w t : Nat} (h : Kept r s) : Kept r (s.spillTile n w t) := by
  unfold State.spillTile
  extract_lets -underBinder -useContext x1
  have k2 : Kept r x1 := State.modStation_kept h
  clear_value x1
  split
  · exact k2
  · extract_lets -underBinder -useContext x3 x4
    clear_value x3
    have k5 : Kept r x4 := State.scratchWrite_kept k2
    clear_value x4
    exact State.modWindow_kept k5

theorem State.spillFor_kept {r s : State} {n a : Nat} (h : Kept r s) : Kept r (s.spillFor n a) := by
  induction a generalizing s n with
  | zero =>
    unfold State.spillFor
    exact h
  | succ n ih =>
    unfold State.spillFor
    extract_lets -underBinder -useContext x1
    clear_value x1
    refine ite_keep h ?_
    split
    · exact h
    · exact ih (State.spillTile_kept h)

theorem State.bindTo_kept {r s : State} {n sid i : Nat}
    {split : Option Nat} (h : Kept r s) : PairAll Any (Kept r) (s.bindTo n sid i split) := by
  unfold State.bindTo
  extract_lets -underBinder -useContext x1 x2 x3 x4 x5
  clear_value x1 x2
  have k6 : Kept r x3 := State.modStation_kept h
  clear_value x3
  have k7 : Kept r x5 := ite_keep k6 k6
  clear_value x5
  exact ite_keep ⟨trivial, h⟩ ⟨trivial, State.later_kept k7⟩

theorem State.bindTile_kept {r s : State} {sid i : Nat} {v : Stream}
    {t : Tile} (h : Kept r s) : Kept r (s.bindTile sid i v t) := by
  unfold State.bindTile
  extract_lets -underBinder -useContext x1 x2 x3
  clear_value x1
  have k4 : ∀ (s : State), Kept r s → ∀ (n : Option Nat), Kept r (x2 s n) := by
    unfold x2
    intro y5 k6 y7
    split
    · exact k6
    · extract_lets -underBinder -useContext x8
      have k9 : PairAll Any (Kept r) x8 := State.bindTo_kept k6
      clear_value x8
      exact ite_keep (State.modTile_kept k9.2) k6
  clear_value x2
  have k10 : PairAll Any (Kept r) x3 := State.homeOf_kept h
  clear_value x3
  exact ite_keep h (ite_keep h (ite_keep (k4 _ (by exact k10.2) _) (k4 _ h _)))

theorem State.placeSplits_kept {r s : State} {sid i : Nat} {v : Stream}
    {t : Tile} (h : Kept r s) : Kept r (s.placeSplits sid i v t) := by
  unfold State.placeSplits
  split
  · exact h
  · refine Kept.foldl (fun y1 y2 k3 => ?_) h
    extract_lets -underBinder -useContext x4 x5
    clear_value x4 x5
    split
    · exact k3
    · extract_lets -underBinder -useContext x6
      have k7 : PairAll Any (Kept r) x6 := State.bindTo_kept k3
      clear_value x6
      exact ite_keep (State.modTile_kept k7.2) k3

theorem State.scatterTurn_kept {r s : State} {sid i : Nat} {v : Stream}
    {t : Tile} (h : Kept r s) : Kept r (s.scatterTurn sid i v t) := by
  unfold State.scatterTurn
  extract_lets -underBinder -useContext x1 x2 x3
  clear_value x1 x2 x3
  have k4 : PairAll Any (Kept r) (s.reachSpans x2 x3) := State.reachSpans_kept h
  split
  · rename_i z5 z6 e7
    have k8 := via e7 k4
    have k9 : Kept r z6 := k8.2
    exact State.beginWrite_kept k9
  · rename_i z10 z11 e12
    have k13 := via e12 k4
    have k14 : Kept r z11 := k13.2
    exact k14
  · rename_i z15 z16 z17 e18
    have k19 := via e18 k4
    have k20 : Kept r z17 := k19.2
    exact State.endTile_kept k20

theorem State.bindStream_kept {r s : State} {sid : Nat} (h : Kept r s) : Kept r (s.bindStream sid) := by
  unfold State.bindStream
  split
  · exact h
  · refine Kept.foldl (fun y1 y2 k3 => ?_) h
    split
    · exact k3
    · split
      · exact ite_keep k3 (State.bindTile_kept k3)
      · exact State.placeSplits_kept k3
      · exact ite_keep (State.scatterTurn_kept k3) k3
      · exact k3

theorem State.unstall_kept {r s : State} (h : Kept r s) : Kept r s.unstall := by
  unfold State.unstall
  split
  · exact h
  · exact h

theorem State.cutWindow_kept {r s : State} {w : Nat} {out : Status} (h : Kept r s) : Kept r (s.cutWindow w out) := by
  unfold State.cutWindow
  split
  · exact h
  · refine ite_keep h ?_
    extract_lets -underBinder -useContext x1 x2 x3 x4
    clear_value x1
    have k5 : Kept r x2 := State.putWindow_kept h
    clear_value x2
    have k6 : Kept r x4 := k5
    clear_value x4
    exact State.sendMeta_kept k6

theorem State.checkScratch_kept {r s : State} (h : Kept r s) : Kept r s.checkScratch := by
  unfold State.checkScratch
  refine Kept.foldl (fun y1 y2 k3 => ite_keep k3 ?_) h
  extract_lets -underBinder -useContext x4 x5 x6
  clear_value x4 x5 x6
  exact ite_keep (State.cutWindow_kept k3) (ite_keep (State.cutWindow_kept k3) k3)

theorem State.setRankRecord_kept {r s : State} {a1 : Nat} {on : Bool} (h : Kept r s) : Kept r (s.setRankRecord a1 on) := by
  unfold State.setRankRecord; exact h

theorem State.retireRank_kept {r s : State} {a1 : Nat} (h : Kept r s) : Kept r (s.retireRank a1) := by
  unfold State.retireRank
  extract_lets -underBinder -useContext x1
  have k2 : ∀ (s : State), Kept r s → Kept r (x1 s) := by
    unfold x1
    intro y3 k4
    exact State.recAll_kept (State.setRankRecord_kept k4)
  clear_value x1
  split
  · exact k2 _ (by exact Kept.upd (s := s.settleRank a1 RankSt.retired) (State.settleRank_kept h) rfl)
  · exact ite_keep h (k2 _ (by exact h))
  · exact State.startMigration_kept (k2 _ (by exact h))
  · exact h

theorem State.checkRank_kept {r s : State} {a1 : Nat} (h : Kept r s) : Kept r (s.checkRank a1) := by
  unfold State.checkRank
  extract_lets -underBinder -useContext x1 x2
  have k3 : Kept r x1 := State.rankNow_kept h
  clear_value x1 x2
  exact ite_keep (State.retireRank_kept k3) k3

theorem State.follow_kept {r s : State} {t : Todo} (h : Kept r s) : Kept r (s.follow t) := by
  unfold State.follow
  split
  · exact State.runAccess_kept h
  · exact State.acceptRequest_kept h
  · exact State.serveHub_kept h
  · exact State.issuedLost_kept h
  · exact State.revertNode_kept (State.comLoseNode_kept h)
  · exact State.lineGo_kept h
  · exact State.packetIn_kept h
  · exact State.controlIn_kept h
  · exact State.arbitrate_kept h
  · exact State.startItem_kept h
  · exact State.unappend_kept h
  · exact State.lateTile_kept h
  · exact State.spillFor_kept h
  · exact State.bindStream_kept h
  · exact State.unstall_kept h
  · exact State.ledgerWrite_kept h
  · exact State.checkScratch_kept h
  · exact State.checkRank_kept h

theorem State.drain_kept {r s : State} {a : Nat} (h : Kept r s) : Kept r (s.drain a) := by
  induction a generalizing s with
  | zero =>
    unfold State.drain
    exact h
  | succ n ih =>
    unfold State.drain
    split
    · exact h
    · exact ih (State.follow_kept h)

theorem State.settleFor_kept {r s : State} {a : Nat} (h : Kept r s) : Kept r (s.settleFor a) := by
  induction a generalizing s with
  | zero =>
    unfold State.settleFor
    exact h
  | succ n ih =>
    unfold State.settleFor
    extract_lets -underBinder -useContext x1
    have k2 : Kept r x1 := State.tidy_kept (State.drain_kept h)
    clear_value x1
    exact ite_keep k2 (ih k2)

theorem State.settle_kept {r s : State} (h : Kept r s) : Kept r s.settle := by
  unfold State.settle; exact State.settleFor_kept h

theorem State.after_kept {r s : State}
    {f : State → State} (h : Kept r s) (h1 : ∀ (a : State), Kept r a → Kept r (f a)) : Kept r (s.after f) := by
  unfold State.after; exact ite_keep h (State.settle_kept (h1 _ h))

theorem State.ageLimit_kept {r s : State} {k p : Nat} (h : Kept r s) : Kept r (s.ageLimit k p) := by
  unfold State.ageLimit
  extract_lets -underBinder -useContext x1
  clear_value x1
  exact ite_keep h (State.modPch_kept h)

theorem State.ageOut_kept {r s : State} {id : Nat} (h : Kept r s) : Kept r (s.ageOut id) := by
  unfold State.ageOut
  split
  · exact h
  · exact ite_keep (State.countDev_kept h) h

theorem State.alignLoss_kept {r s : State} {p : Nat} (h : Kept r s) : Kept r (s.alignLoss p) := by
  unfold State.alignLoss
  extract_lets -underBinder -useContext x1
  clear_value x1
  exact ite_keep (State.portDown_kept h) h

theorem Fw.writeRecord_fusedSec (f : Fw) : f.writeRecord.fusedSec = f.fusedSec :=
  ite_keep (p := fun g : Fw => g.fusedSec = f.fusedSec) rfl rfl

theorem Fw.kept_fusedSec (f : Fw) : f.kept.fusedSec = f.fusedSec :=
  ite_keep (p := fun g : Fw => g.fusedSec = f.fusedSec) (Fw.writeRecord_fusedSec _) rfl

theorem State.coldReset_kept {r s : State} {phase : Phase} (h : Kept r s) : Kept r (s.coldReset phase) :=
  ⟨h.pending, ⟨Nat.le_trans h.onward.1 (Nat.le_of_eq (Fw.kept_fusedSec s.fw).symm), h.onward.2⟩, nofun, rfl,
      ⟨Nat.zero_le _, nofun⟩, h.leaves⟩

theorem State.aonLoss_kept {r s : State} (h : Kept r s) : Kept r s.aonLoss := by
  unfold State.aonLoss; exact Kept.upd (s := s.coldReset Phase.off) (State.coldReset_kept h) rfl

theorem State.badFlit_kept {r s : State} {p : Nat} {a : FlitCheck} (h : Kept r s) : Kept r (s.badFlit p a) := by
  unfold State.badFlit
  split
  · exact State.modPort_kept h
  · exact State.portDown_kept (State.recOp_kept (State.modPort_kept h))
  · exact State.portDown_kept h
  · exact h

theorem State.bankQuiet_kept {r s : State} {b : Nat} (h : Kept r s) : Kept r (s.bankQuiet b) := by
  unfold State.bankQuiet
  extract_lets -underBinder -useContext x1
  clear_value x1
  exact ite_keep (State.putBank_kept h) h

theorem State.barExpiry_kept {r s : State} {id : Nat} (h : Kept r s) : Kept r (s.barExpiry id) := by
  unfold State.barExpiry; exact ite_keep h h

theorem State.beatSend_kept {r s : State} (h : Kept r s) : Kept r s.beatSend := by
  unfold State.beatSend; exact ite_keep ((State.pairSend_kept h).2) h

theorem State.spillAll_kept {r s : State} {n : Nat} (h : Kept r s) : Kept r (s.spillAll n) := by
  unfold State.spillAll; exact Kept.foldl (fun y1 y2 k3 => State.spillTile_kept k3) h

theorem State.bindAll_kept {r s : State} (h : Kept r s) : Kept r s.bindAll := by
  unfold State.bindAll; exact State.later_kept h

theorem State.releaseAtomics_kept {r s : State} {n : Nat} (h : Kept r s) : Kept r (s.releaseAtomics n) := by
  unfold State.releaseAtomics
  extract_lets -underBinder -useContext x1 x2 x3
  clear_value x1
  have k4 : Kept r x3 := h
  clear_value x3
  exact State.later_kept k4

theorem State.evacuate_kept {r s : State} {n : Nat} (h : Kept r s) : Kept r (s.evacuate n) := by
  unfold State.evacuate
  extract_lets -underBinder -useContext x1 x2 x3 x4 x5 x6
  clear_value x1
  have k7 : Kept r x2 := State.modStation_kept h
  clear_value x2
  have k8 : Kept r x3 := by
    unfold x3
    refine Kept.foldl (fun y9 y10 k11 => ?_) k7
    split
    · exact State.modTile_kept k11
    · exact k11
  clear_value x3
  have k12 : Kept r x5 := k8
  clear_value x5
  have k13 : Kept r x6 := by
    unfold x6
    refine Kept.foldl (fun y14 y15 k16 => Kept.foldl (fun y17 y18 k19 => ite_keep ?_ k19) k16) k12
    extract_lets -underBinder -useContext x20 x21
    clear_value x20 x21
    exact State.dropSplits_kept (State.modTile_kept k19)
  clear_value x6
  exact State.bindAll_kept (State.releaseAtomics_kept k13)

theorem State.beginFieldReset_kept {r s : State} {f : Nat} (h : Kept r s) : Kept r (s.beginFieldReset f) := by
  unfold State.beginFieldReset
  extract_lets -underBinder -useContext x1 x2 x3 x4
  have k5 : Kept r x3 := h
  clear_value x3
  have k6 : Kept r x4 := by
    unfold x4
    refine Kept.foldl (fun y7 y8 k9 => ?_) k5
    extract_lets -underBinder -useContext x10 x11
    clear_value x10
    have k12 : Kept r x11 := State.spillAll_kept k9
    clear_value x11
    exact ite_keep (State.evacuate_kept k12) (State.later_kept k12)
  clear_value x4
  exact State.assignStations_kept k6

theorem State.beginRevoke_kept {r s : State} {ext : Nat}
    {cmd : Option CmdRef} (h : Kept r s) : Kept r (s.beginRevoke ext cmd) := by
  unfold State.beginRevoke
  split
  · exact h
  · extract_lets -underBinder -useContext x1 x2
    have k3 : Kept r x1 := State.sendMeta_kept (State.putExtent_kept h)
    clear_value x1
    have k4 : Kept r x2 := Kept.foldl (fun y5 y6 k7 => ite_keep (State.revert_kept k7) k7) k3
    clear_value x2
    exact State.later_kept k4

theorem State.putMailbox_kept {r s : State} {k : Nat} {v : Mailbox} (h : Kept r s) : Kept r (s.putMailbox k v) := by
  unfold State.putMailbox; exact h

theorem bodyCcpClose_kept {r : State} {a : CcpCtx} {a1 : State} (h : Kept r a1) : KeptOut r (bodyCcpClose a a1) := by
  unfold bodyCcpClose
  extract_lets -underBinder -useContext x1
  have k2 : KeptOut r x1 := okEmpty_kept h
  clear_value x1
  exact ⟨k2.1, fun y3 k4 => State.endSession_kept k4⟩

theorem done_kept {r s : State} {st : Status}
    {body : optParam (List Byte) []} (h : Kept r s) : KeptOut r (done s st body) := by
  unfold done; exact ⟨h, fun _ k => k⟩

theorem State.dropMailbox_kept {r s : State} {mb : Nat} {m : Mailbox} (h : Kept r s) : Kept r (s.dropMailbox mb m) := by
  unfold State.dropMailbox
  extract_lets -underBinder -useContext x1
  have k2 : Kept r x1 := State.delMailbox_kept h
  clear_value x1
  split
  · exact k2
  · extract_lets -underBinder -useContext x3
    clear_value x3
    exact State.putSession_kept k2

end Sys2Proof.Machine
end

