-- ==== Sys2Proof/Laws/Kept/Part6.lean ====
section
/-! SUPPORT. Part6.lean: what each operation of the machine keeps (Laws/Kept.lean), one lemma per definition, in the
order in which they call each other. -/

namespace Sys2Proof.Machine

theorem bodyMbxDrop_kept {r : State} {a : CcpCtx} {a1 : State} (h : Kept r a1) : KeptOut r (bodyMbxDrop a a1) := by
  unfold bodyMbxDrop
  extract_lets -underBinder -useContext x1
  clear_value x1
  split
  · exact ite_keep (done_kept h) (okEmpty_kept (State.dropMailbox_kept h))
  · split
    · exact okEmpty_kept h
    · refine ite_keep (done_kept h) ?_
      extract_lets -underBinder -useContext x2 x3
      clear_value x2 x3
      exact okEmpty_kept (State.putSession_kept h)

theorem bodyEthSet_kept {r : State} {a : CcpCtx} {a1 : State} (h : Kept r a1) : KeptOut r (bodyEthSet a a1) := by
  unfold bodyEthSet
  extract_lets -underBinder -useContext x1 x2 x3 x4 x5 x6
  clear_value x1 x2 x3 x4 x5 x6
  exact checked_kept h (okEmpty_kept (State.putEth_kept h))

theorem bodyCapabilityQuery_kept {r : State} {a : CcpCtx}
    {a1 : State} (h : Kept r a1) : KeptOut r (bodyCapabilityQuery a a1) := by
  unfold bodyCapabilityQuery
  extract_lets -underBinder -useContext x1 x2 x3
  clear_value x1 x2 x3
  exact okBytes_kept h

theorem bodyReadyQuery_kept {r : State} {a : CcpCtx} {a1 : State} (h : Kept r a1) : KeptOut r (bodyReadyQuery a a1) := by
  unfold bodyReadyQuery; exact okBytes_kept h

theorem bodyExpTableQuery_kept {r : State} {a : CcpCtx}
    {a1 : State} (h : Kept r a1) : KeptOut r (bodyExpTableQuery a a1) := by
  unfold bodyExpTableQuery; exact okBytes_kept h

theorem State.startBoot_kept {r s : State} (h : Kept r s) : Kept r s.startBoot := by
  unfold State.startBoot
  exact Kept.upd (s := s.coldReset Phase.keyBoot) (State.coldReset_kept h) rfl

theorem State.darkNow_kept {r s : State} {p : Nat} (h : Kept r s) : Kept r (s.darkNow p) := by
  unfold State.darkNow; exact State.modPort_kept h

theorem State.portReset_kept {r s : State} {p : Nat} (h : Kept r s) : Kept r (s.portReset p) := by
  unfold State.portReset; exact State.darkNow_kept (State.portDown_kept h)

theorem bodyDeviceReset_kept {r : State} {a : CcpCtx} {a1 : State} (h : Kept r a1) : KeptOut r (bodyDeviceReset a a1) := by
  unfold bodyDeviceReset
  extract_lets -underBinder -useContext x1 x2 x3
  clear_value x1 x2
  have k4 : ∀ (f : State → State), (∀ (a : State), Kept r a → Kept r (f a)) → KeptOut r (x3 f) := by
    unfold x3
    intro y5 k6
    exact ⟨h, k6⟩
  clear_value x3
  refine checked_kept h ?_
  split
  · exact k4 _ (by exact fun y7 k8 => State.startBoot_kept k8)
  · exact k4 _ (by exact fun y9 k10 => State.beginMgmtReset_kept k10)
  · exact k4 _ (by exact fun y11 k12 => State.beginFieldReset_kept k12)
  · exact k4 _ (by exact fun y13 k14 => State.portReset_kept k14)

theorem State.takeLeaf_kept {r s : State} (h : Kept r s) : OptAll (PairAll Any (Kept r)) s.takeLeaf := by
  have l := h.leaves
  have o := h.onward
  unfold LeavesKept at l
  unfold State.takeLeaf
  extract_lets q
  by_cases hq : 2 ^ 40 ≤ q
  · simp only [hq, if_true, OptAll]
  · simp only [hq, if_false, OptAll]
    refine ⟨trivial, h.pending, ⟨o.1, Nat.le_succ_of_le o.2.1, o.2.2⟩, h.formats, h.wf, h.queues, ?_⟩
    by_cases hl : s.ten.hssLimit ≤ q <;> simp only [LeavesKept, hl, if_true, if_false] <;> refine ⟨?_, ?_, ?_⟩ <;> omega

theorem State.spdmReply_kept {r s : State} {msg : List Byte} (h : Kept r s) : PairAll Any (Kept r) (s.spdmReply msg) := by
  unfold State.spdmReply
  extract_lets -underBinder -useContext x1
  clear_value x1
  refine ite_keep ⟨trivial, h⟩ ?_
  split
  · exact ⟨trivial, h⟩
  · extract_lets -underBinder -useContext x2
    clear_value x2
    refine ite_keep ⟨trivial, h⟩ ?_
    have k3 : OptAll (PairAll Any (Kept r)) s.takeLeaf := State.takeLeaf_kept h
    split
    · rename_i z4 z5 e6 z7 e8
      have k9 := via e8 k3
      exact ⟨trivial, h⟩
    · rename_i z10 z11 e12 z13 z14 z15 e16
      have k17 := via e16 k3
      have k18 : Kept r z15 := k17.2
      exact ⟨trivial, k18⟩

theorem bodySpdm_kept {r : State} {a : CcpCtx} {a1 : State} (h : Kept r a1) : KeptOut r (bodySpdm a a1) := by
  unfold bodySpdm
  extract_lets -underBinder -useContext x1
  have k2 : PairAll Any (Kept r) x1 := State.spdmReply_kept h
  clear_value x1
  exact ⟨k2.2, fun _ k => k⟩

theorem bodyTenantCreate_kept {r : State} {a : CcpCtx} {a1 : State} (h : Kept r a1) : KeptOut r (bodyTenantCreate a a1) := by
  unfold bodyTenantCreate
  extract_lets -underBinder -useContext x1 x2
  clear_value x1 x2
  exact checked_kept h (okBytes_kept (State.sendMeta_kept (State.putTenant_kept h)))

theorem bodyTenantDelete_kept {r : State} {a : CcpCtx} {a1 : State} (h : Kept r a1) : KeptOut r (bodyTenantDelete a a1) := by
  unfold bodyTenantDelete
  extract_lets -underBinder -useContext x1
  clear_value x1
  split
  · exact ite_keep (refuse_kept h) (refuse_kept h)
  · exact ite_keep (refuse_kept h) (okEmpty_kept (State.forgetTenant_kept h))

theorem bodySessionEnd_kept {r : State} {a : CcpCtx} {a1 : State} (h : Kept r a1) : KeptOut r (bodySessionEnd a a1) := by
  unfold bodySessionEnd
  split
  · exact refuse_kept h
  · split
    · exact heldCmd_kept (State.beginEnd_kept h)
    · exact done_kept h

theorem bodyTenantEvict_kept {r : State} {a : CcpCtx} {a1 : State} (h : Kept r a1) : KeptOut r (bodyTenantEvict a a1) := by
  unfold bodyTenantEvict
  extract_lets -underBinder -useContext x1
  clear_value x1
  split
  · exact ite_keep (refuse_kept h) (refuse_kept h)
  · split
    · exact heldCmd_kept (State.beginEnd_kept h)
    · exact done_kept h

theorem bodyKeyRotate_kept {r : State} {a : CcpCtx} {a1 : State} (h : Kept r a1) : KeptOut r (bodyKeyRotate a a1) := by
  unfold bodyKeyRotate
  split
  · exact refuse_kept h
  · exact ite_keep (refuse_kept h) (ite_keep (refuse_kept h) (okEmpty_kept (State.putTenant_kept h)))

theorem bodyAdmit_kept {r : State} {a : CcpCtx} {a1 : State} (h : Kept r a1) : KeptOut r (bodyAdmit a a1) := by
  unfold bodyAdmit
  extract_lets -underBinder -useContext x1 x2 x3 x4 x5
  clear_value x1 x2 x3
  have k6 : Kept r x5 := h
  clear_value x5
  exact ite_keep (ite_keep (done_kept h) (ite_keep (refuse_kept h) (okBytes_kept h))) (ite_keep (done_kept h)
      (okBytes_kept (Kept.foldl (fun y7 y8 k9 => State.endLink_kept k9) k6)))

theorem State.putBulk_kept {r s : State} {k : Nat} {v : Bulk} (h : Kept r s) : Kept r (s.putBulk k v) := by
  unfold State.putBulk; exact h

theorem State.loadSet_kept {r s : State} {t h : Nat} {b : List Byte}
    {sigOk : Bool} (hk : Kept r s) : ExcAll Any (Kept r) (s.loadSet t h b sigOk) := by
  unfold State.loadSet
  extract_lets -underBinder -useContext x1 x2 x3 x4
  clear_value x1 x2 x3 x4
  split
  · exact trivial
  · extract_lets -underBinder -useContext x5 x6
    clear_value x5
    exact State.sendMeta_kept hk

theorem State.setLoadGo_kept {r s : State} {ch : Nat} (h : Kept r s) : Kept r (s.setLoadGo ch) := by
  unfold State.setLoadGo
  split
  · exact h
  · split
    · extract_lets -underBinder -useContext x1 x2 x3 x4
      clear_value x1 x2 x3
      have k5 : ∀ (s : State), Kept r s → ∀ (r_1 : Reply), Kept r (x4 s r_1) := by
        unfold x4
        intro y6 k7 y8
        exact State.respond_kept k7
      clear_value x4
      refine ite_keep h (ite_keep (k5 _ h _) (ite_keep (k5 _ h _) (ite_keep h ?_)))
      split
      · exact h
      · rename_i z9 z10 e11 z12 z13 z14 z15 e16 z17 z18 e19
        have k20 : ExcAll Any (Kept r) (s.loadSet z18.tenant x2 x1 z15) := State.loadSet_kept h
        split
        · rename_i z21 z22 e23
          have k24 := via e23 k20
          have k25 : Kept r z22 := k24
          exact k5 _ k25 _
        · rename_i z26 z27 e28
          have k29 := via e28 k20
          exact k5 _ h _
    · exact h

theorem bodySetLoad_kept {r : State} {a : CcpCtx} {a1 : State} (h : Kept r a1) : KeptOut r (bodySetLoad a a1) := by
  unfold bodySetLoad
  extract_lets -underBinder -useContext x1
  clear_value x1
  split
  · exact ite_keep (refuse_kept h) (refuse_kept h)
  · refine ite_keep (refuse_kept h) (ite_keep (refuse_kept h) ?_)
    extract_lets -underBinder -useContext x2
    have k3 : Kept r x2 := State.putBulk_kept h
    clear_value x2
    exact ⟨k3, fun y4 k5 => State.setLoadGo_kept k5⟩

theorem bodySetDelete_kept {r : State} {a : CcpCtx} {a1 : State} (h : Kept r a1) : KeptOut r (bodySetDelete a a1) := by
  unfold bodySetDelete
  extract_lets -underBinder -useContext x1 x2 x3
  clear_value x1 x2
  exact ite_keep (refuse_kept h) (ite_keep (refuse_kept h) (ite_keep (refuse_kept h) (okEmpty_kept (State.sendMeta_kept h))))

theorem bodyImportBegin_kept {r : State} {a : CcpCtx} {a1 : State} (h : Kept r a1) : KeptOut r (bodyImportBegin a a1) := by
  unfold bodyImportBegin
  split
  · exact refuse_kept h
  · extract_lets -underBinder -useContext x1 x2 x3 x4 x5 x6 x7 x8 x9
    clear_value x1
    have k10 : Kept r x2 := State.putSession_kept h
    clear_value x2 x3 x4 x5 x6 x7 x8 x9
    split
    · exact refuse_kept k10
    · extract_lets -underBinder -useContext x11 x12
      have k13 : Kept r x11 := State.putImport_kept k10
      clear_value x11
      exact okEmpty_kept k13

theorem bodyImportEnd_kept {r : State} {a : CcpCtx} {a1 : State} (h : Kept r a1) : KeptOut r (bodyImportEnd a a1) := by
  unfold bodyImportEnd
  extract_lets -underBinder -useContext x1
  clear_value x1
  split
  · exact ite_keep (refuse_kept h) (refuse_kept h)
  · refine ite_keep (refuse_kept h) (ite_keep (refuse_kept h) ?_)
    extract_lets -underBinder -useContext x2
    have k3 : Kept r x2 := State.putImport_kept h
    clear_value x2
    exact ⟨k3, fun y4 k5 => State.importCheck_kept k5⟩

theorem bodyImportBind_kept {r : State} {a : CcpCtx} {a1 : State} (h : Kept r a1) : KeptOut r (bodyImportBind a a1) := by
  unfold bodyImportBind
  extract_lets -underBinder -useContext x1 x2
  clear_value x1 x2
  exact ite_keep (okEmpty_kept (State.putSession_kept h)) (refuse_kept h)

theorem bodyReserveSet_kept {r : State} {a : CcpCtx} {a1 : State} (h : Kept r a1) : KeptOut r (bodyReserveSet a a1) := by
  unfold bodyReserveSet
  extract_lets -underBinder -useContext x1 x2 x3
  clear_value x1 x2 x3
  split
  · exact ite_keep (refuse_kept h) (refuse_kept h)
  · exact checked_kept h (okEmpty_kept (State.sendMeta_kept (State.putTenant_kept h)))

theorem bodyCapacityQuery_kept {r : State} {a : CcpCtx}
    {a1 : State} (h : Kept r a1) : KeptOut r (bodyCapacityQuery a a1) := by
  unfold bodyCapacityQuery
  extract_lets -underBinder -useContext x1 x2
  clear_value x1 x2
  exact ite_keep (okBytes_kept h) (okBytes_kept h)

theorem bodySpaceCreate_kept {r : State} {a : CcpCtx} {a1 : State} (h : Kept r a1) : KeptOut r (bodySpaceCreate a a1) := by
  unfold bodySpaceCreate
  extract_lets -underBinder -useContext x1 x2 x3 x4
  clear_value x1 x2 x3 x4
  refine checked_kept h ?_
  split
  · exact refuse_kept h
  · extract_lets -underBinder -useContext x5
    have k6 : Kept r x5 := State.putSpace_kept h
    clear_value x5
    exact okBytes_kept (State.sendMeta_kept k6)

theorem State.eachMap_kept {r s : State} {f : Mapping → Mapping} (h : Kept r s) : Kept r (s.eachMap f) := by
  unfold State.eachMap; exact h

theorem State.deleteSpace_kept {r s : State} {asid : Nat}
    {cmd : Option CmdRef} (h : Kept r s) : Kept r (s.deleteSpace asid cmd) := by
  unfold State.deleteSpace
  split
  · exact h
  · refine ite_keep h ?_
    extract_lets -underBinder -useContext x1 x2
    have k3 : Kept r x1 := State.putSpace_kept h
    clear_value x1
    have k4 : Kept r x2 := State.eachMap_kept k3
    clear_value x2
    exact State.later_kept (State.sendMeta_kept k4)

theorem bodySpaceDelete_kept {r : State} {a : CcpCtx} {a1 : State} (h : Kept r a1) : KeptOut r (bodySpaceDelete a a1) := by
  unfold bodySpaceDelete
  extract_lets -underBinder -useContext x1 x2 x3
  clear_value x1 x2 x3
  exact checked_kept h (heldCmd_kept (State.deleteSpace_kept h))

theorem bodyExtentCreate_kept {r : State} {a : CcpCtx} {a1 : State} (h : Kept r a1) : KeptOut r (bodyExtentCreate a a1) := by
  unfold bodyExtentCreate
  split
  · exact refuse_kept h
  · extract_lets -underBinder -useContext x1 x2
    have k3 : Kept r x2 := State.putExtent_kept h
    clear_value x2
    exact okNum_kept (State.sendMeta_kept k3)

theorem bodyExtentEnable_kept {r : State} {a : CcpCtx} {a1 : State} (h : Kept r a1) : KeptOut r (bodyExtentEnable a a1) := by
  unfold bodyExtentEnable
  extract_lets -underBinder -useContext x1
  clear_value x1
  split
  · exact refuse_kept h
  · extract_lets -underBinder -useContext x2 x3
    clear_value x2
    have k4 : PairAll Any (Kept r) x3 := State.pairSend_kept h
    clear_value x3
    exact ite_keep (heldCmd_kept (State.emit_kept k4.2)) (okEmpty_kept (State.sendMeta_kept (State.enableExtent_kept h)))

theorem bodyExtentDelete_kept {r : State} {a : CcpCtx} {a1 : State} (h : Kept r a1) : KeptOut r (bodyExtentDelete a a1) := by
  unfold bodyExtentDelete
  extract_lets -underBinder -useContext x1
  clear_value x1
  split
  · exact refuse_kept h
  · refine ite_keep (refuse_kept h) ?_
    split
    · exact refuse_kept h
    · exact okEmpty_kept (State.sendMeta_kept (State.delExtent_kept h))
    · exact heldCmd_kept (State.beginRevoke_kept h)

theorem bodyExtentQuery_kept {r : State} {a : CcpCtx} {a1 : State} (h : Kept r a1) : KeptOut r (bodyExtentQuery a a1) := by
  unfold bodyExtentQuery
  extract_lets -underBinder -useContext x1
  clear_value x1
  split
  · exact refuse_kept h
  · refine ite_keep (refuse_kept h) ?_
    extract_lets -underBinder -useContext x2
    clear_value x2
    exact okBytes_kept h

theorem bodyExtentReclaim_kept {r : State} {a : CcpCtx}
    {a1 : State} (h : Kept r a1) : KeptOut r (bodyExtentReclaim a a1) := by
  unfold bodyExtentReclaim
  extract_lets -underBinder -useContext x1
  clear_value x1
  split
  · exact refuse_kept h
  · refine ite_keep (refuse_kept h) ?_
    extract_lets -underBinder -useContext x2
    have k3 : Kept r x2 := State.beginRevoke_kept h
    clear_value x2
    exact heldCmd_kept (State.recTen_kept k3)

theorem bodyExtentMap_kept {r : State} {a : CcpCtx} {a1 : State} (h : Kept r a1) : KeptOut r (bodyExtentMap a a1) := by
  unfold bodyExtentMap
  extract_lets -underBinder -useContext x1
  clear_value x1
  split
  · exact refuse_kept h
  · refine ite_keep (refuse_kept h) ?_
    extract_lets -underBinder -useContext x2 x3
    clear_value x2
    exact okEmpty_kept (State.sendMeta_kept h)

theorem bodyExtentUnmap_kept {r : State} {a : CcpCtx} {a1 : State} (h : Kept r a1) : KeptOut r (bodyExtentUnmap a a1) := by
  unfold bodyExtentUnmap
  extract_lets -underBinder -useContext x1 x2 x3 x4 x5
  clear_value x1 x2 x3 x4 x5
  split
  · exact refuse_kept h
  · refine checked_kept h ?_
    extract_lets -underBinder -useContext x6
    have k7 : Kept r x6 := State.eachMap_kept h
    clear_value x6
    exact heldCmd_kept (State.later_kept (State.sendMeta_kept k7))

theorem bodyL2Partition_kept {r : State} {a : CcpCtx} {a1 : State} (h : Kept r a1) : KeptOut r (bodyL2Partition a a1) := by
  unfold bodyL2Partition
  extract_lets -underBinder -useContext x1 x2 x3
  clear_value x1 x2
  exact checked_kept h (okEmpty_kept h)

theorem bodyCommonCreate_kept {r : State} {a : CcpCtx} {a1 : State} (h : Kept r a1) : KeptOut r (bodyCommonCreate a a1) := by
  unfold bodyCommonCreate
  split
  · exact refuse_kept h
  · extract_lets -underBinder -useContext x1 x2
    have k3 : Kept r x2 := State.putCommon_kept h
    clear_value x2
    exact okBytes_kept (State.sendMeta_kept k3)

theorem bodyCommonEnable_kept {r : State} {a : CcpCtx} {a1 : State} (h : Kept r a1) : KeptOut r (bodyCommonEnable a a1) := by
  unfold bodyCommonEnable
  extract_lets -underBinder -useContext x1
  clear_value x1
  split
  · exact ite_keep (refuse_kept h) (refuse_kept h)
  · refine ite_keep (refuse_kept h) ?_
    extract_lets -underBinder -useContext x2 x3 x4 x5
    clear_value x2 x3 x4 x5
    split
    · exact refuse_kept h
    · exact okEmpty_kept (State.sendMeta_kept (State.putCommon_kept h))

theorem State.sweepCommon_kept {r s : State} {c : Nat} {job : LineJob} (h : Kept r s) : Kept r (s.sweepCommon c job) := by
  unfold State.sweepCommon; exact Kept.foldl (fun y1 y2 k3 => State.lineArrive_kept k3) h

theorem bodyCommonDelete_kept {r : State} {a : CcpCtx} {a1 : State} (h : Kept r a1) : KeptOut r (bodyCommonDelete a a1) := by
  unfold bodyCommonDelete
  extract_lets -underBinder -useContext x1
  clear_value x1
  split
  · exact ite_keep (refuse_kept h) (refuse_kept h)
  · refine ite_keep (refuse_kept h) ?_
    split
    · exact okEmpty_kept (State.sendMeta_kept (State.delCommon_kept h))
    · exact refuse_kept h
    · extract_lets -underBinder -useContext x2
      have k3 : Kept r x2 := State.putCommon_kept h
      clear_value x2
      exact heldCmd_kept (State.sweepCommon_kept k3)

theorem bodyDirPartition_kept {r : State} {a : CcpCtx} {a1 : State} (h : Kept r a1) : KeptOut r (bodyDirPartition a a1) := by
  unfold bodyDirPartition
  extract_lets -underBinder -useContext x1 x2 x3
  clear_value x1 x2
  exact checked_kept h (okEmpty_kept h)

theorem bodyStreamClose_kept {r : State} {a : CcpCtx} {a1 : State} (h : Kept r a1) : KeptOut r (bodyStreamClose a a1) := by
  unfold bodyStreamClose
  split
  · exact refuse_kept h
  · exact ite_keep (refuse_kept h) (ite_keep (okBytes_kept (State.freeStream_kept h))
        (heldCmd_kept (State.putStream_kept h)))

theorem bodyStreamAbort_kept {r : State} {a : CcpCtx} {a1 : State} (h : Kept r a1) : KeptOut r (bodyStreamAbort a a1) := by
  unfold bodyStreamAbort
  split
  · exact refuse_kept h
  · exact ite_keep (refuse_kept h) (ite_keep (done_kept h) (okEmpty_kept (State.cutStream_kept h)))

theorem bodyStreamPriority_kept {r : State} {a : CcpCtx}
    {a1 : State} (h : Kept r a1) : KeptOut r (bodyStreamPriority a a1) := by
  unfold bodyStreamPriority
  split
  · exact refuse_kept h
  · exact ite_keep (refuse_kept h) (okEmpty_kept (State.putStream_kept h))

theorem bodyFormatLoad_kept {r : State} {c : CcpCtx} {s : State} (h : Kept r s) : KeptOut r (bodyFormatLoad c s) := by
  unfold bodyFormatLoad checked
  extract_lets d slot
  split
  · exact refuse_kept h
  · rename_i e
    have low := firstRefuse_none e _ List.mem_cons_self
    have legal := firstRefuse_none e _ (List.mem_cons_of_mem _ List.mem_cons_self)
    have high : slot < 32 := Nat.mod_lt _ (by decide)
    refine okEmpty_kept (h.ofFormats ?_)
    by_cases z : d = 0
    · simpa only [z, beq_self_eq_true, if_true] using h.formats.del
    · simpa only [beq_iff_eq, z, if_false] using h.formats.put (by simpa using low) high z legal

theorem bodyVectorProgLoad_kept {r : State} {a : CcpCtx}
    {a1 : State} (h : Kept r a1) : KeptOut r (bodyVectorProgLoad a a1) := by
  unfold bodyVectorProgLoad
  extract_lets -underBinder -useContext x1 x2 x3 x4 x5 x6
  clear_value x1 x2 x3 x4 x5
  exact checked_kept h (okEmpty_kept h)

theorem bodyWindowCreate_kept {r : State} {a : CcpCtx} {a1 : State} (h : Kept r a1) : KeptOut r (bodyWindowCreate a a1) := by
  unfold bodyWindowCreate
  split
  · exact refuse_kept h
  · extract_lets -underBinder -useContext x1 x2
    have k3 : Kept r x2 := State.putWindow_kept h
    clear_value x2
    exact okNum_kept (State.sendMeta_kept k3)

theorem bodyWindowEnable_kept {r : State} {a : CcpCtx} {a1 : State} (h : Kept r a1) : KeptOut r (bodyWindowEnable a a1) := by
  unfold bodyWindowEnable
  extract_lets -underBinder -useContext x1
  clear_value x1
  refine ite_keep (refuse_kept h) ?_
  split
  · exact refuse_kept h
  · split
    · exact refuse_kept h
    · exact okEmpty_kept (State.sendMeta_kept (State.putWindow_kept h))

theorem bodyWindowAbort_kept {r : State} {a : CcpCtx} {a1 : State} (h : Kept r a1) : KeptOut r (bodyWindowAbort a a1) := by
  unfold bodyWindowAbort
  extract_lets -underBinder -useContext x1
  clear_value x1
  refine ite_keep (refuse_kept h) ?_
  split
  · exact refuse_kept h
  · split
    · exact okEmpty_kept (State.cutWindow_kept h)
    · exact done_kept h
    · exact refuse_kept h

theorem bodyWindowRetire_kept {r : State} {a : CcpCtx} {a1 : State} (h : Kept r a1) : KeptOut r (bodyWindowRetire a a1) := by
  unfold bodyWindowRetire
  extract_lets -underBinder -useContext x1
  clear_value x1
  refine ite_keep (refuse_kept h) ?_
  split
  · exact refuse_kept h
  · exact ite_keep (refuse_kept h) (ite_keep
        (heldCmd_kept (State.putWindow_kept h)) (okEmpty_kept (State.retireWindow_kept h)))

theorem bodyWindowDelete_kept {r : State} {a : CcpCtx} {a1 : State} (h : Kept r a1) : KeptOut r (bodyWindowDelete a a1) := by
  unfold bodyWindowDelete
  extract_lets -underBinder -useContext x1
  clear_value x1
  refine ite_keep (refuse_kept h) ?_
  split
  · exact refuse_kept h
  · split
    · exact okEmpty_kept (State.sendMeta_kept (State.delWindow_kept h))
    · exact okEmpty_kept (State.sendMeta_kept (State.delWindow_kept h))
    · exact refuse_kept h

theorem bodyWindowQuery_kept {r : State} {a : CcpCtx} {a1 : State} (h : Kept r a1) : KeptOut r (bodyWindowQuery a a1) := by
  unfold bodyWindowQuery
  extract_lets -underBinder -useContext x1
  clear_value x1
  refine ite_keep (refuse_kept h) ?_
  split
  · exact refuse_kept h
  · exact ite_keep (refuse_kept h) (okBytes_kept h)

theorem bodySeqCreate_kept {r : State} {a : CcpCtx} {a1 : State} (h : Kept r a1) : KeptOut r (bodySeqCreate a a1) := by
  unfold bodySeqCreate
  split
  · exact refuse_kept h
  · extract_lets -underBinder -useContext x1 x2
    have k3 : Kept r x2 := State.putContext_kept h
    clear_value x2
    exact okNum_kept (State.sendMeta_kept k3)

theorem State.oneHold_kept {r s : State} {n : Nat} {h : SeqHold} (hk : Kept r s) : Kept r (s.oneHold n h) := by
  unfold State.oneHold
  split
  · exact hk
  · extract_lets -underBinder -useContext x1
    clear_value x1
    split
    · extract_lets -underBinder -useContext x2
      clear_value x2
      exact State.respondOk_kept (State.sendMeta_kept (State.putContext_kept hk))
    · exact State.respondOk_kept (State.sendMeta_kept (State.putContext_kept hk))

theorem State.endHold_kept {r s : State} {n : Nat} (h : Kept r s) : Kept r (s.endHold n) := by
  unfold State.endHold
  split
  · exact h
  · exact ite_keep h (Kept.foldl (fun y1 y2 k3 => State.oneHold_kept k3) (State.putContext_kept h))

theorem seqHold_kept {r : State} {h : CcpCtx → SeqHold} {a : CcpCtx}
    {a2 : State} (hk : Kept r a2) : KeptOut r (seqHold h a a2) := by
  unfold seqHold
  extract_lets -underBinder -useContext x1
  clear_value x1
  refine ite_keep (refuse_kept hk) ?_
  split
  · exact refuse_kept hk
  · exact ite_keep (refuse_kept hk) (heldCmd_kept (State.endHold_kept (State.putContext_kept hk)))

theorem bodySeqTruncate_kept {r : State} {a : CcpCtx} {a1 : State} (h : Kept r a1) : KeptOut r (bodySeqTruncate a a1) := by
  unfold bodySeqTruncate; exact seqHold_kept h

theorem bodySeqDisable_kept {r : State} {a : CcpCtx} {a1 : State} (h : Kept r a1) : KeptOut r (bodySeqDisable a a1) := by
  unfold bodySeqDisable; exact seqHold_kept h

theorem bodySeqDelete_kept {r : State} {a : CcpCtx} {a1 : State} (h : Kept r a1) : KeptOut r (bodySeqDelete a a1) := by
  unfold bodySeqDelete
  extract_lets -underBinder -useContext x1
  clear_value x1
  refine ite_keep (refuse_kept h) ?_
  split
  · exact refuse_kept h
  · exact ite_keep (refuse_kept h) (okEmpty_kept (State.sendMeta_kept (State.delContext_kept h)))

theorem bodySeqQuery_kept {r : State} {a : CcpCtx} {a1 : State} (h : Kept r a1) : KeptOut r (bodySeqQuery a a1) := by
  unfold bodySeqQuery
  extract_lets -underBinder -useContext x1
  clear_value x1
  refine ite_keep (refuse_kept h) ?_
  split
  · exact refuse_kept h
  · refine ite_keep (refuse_kept h) ?_
    extract_lets -underBinder -useContext x2
    clear_value x2
    exact okBytes_kept h

theorem bodyPortSet_kept {r : State} {a : CcpCtx} {a1 : State} (h : Kept r a1) : KeptOut r (bodyPortSet a a1) := by
  unfold bodyPortSet
  extract_lets -underBinder -useContext x1 x2 x3 x4 x5 x6 x7 x8 x9
  clear_value x1 x2 x3 x4 x5 x6 x7
  have k12 : Kept r x8 := State.modPort_kept (State.portDown_kept h)
  clear_value x8
  have k14 : Kept r x9 := ite_keep (ite_keep (State.darkNow_kept (State.modPort_kept k12)) (State.modPort_kept k12))
      (State.lowerW_kept (State.modPort_kept h))
  clear_value x9
  exact checked_kept h (okEmpty_kept k14)

theorem bodyPortQuery_kept {r : State} {a : CcpCtx} {a1 : State} (h : Kept r a1) : KeptOut r (bodyPortQuery a a1) := by
  unfold bodyPortQuery
  refine checked_kept h ?_
  extract_lets -underBinder -useContext x1
  clear_value x1
  exact okBytes_kept h

theorem bodyRouteSet_kept {r : State} {a : CcpCtx} {a1 : State} (h : Kept r a1) : KeptOut r (bodyRouteSet a a1) := by
  unfold bodyRouteSet
  extract_lets -underBinder -useContext x1 x2 x3 x4 x5 x6 x7
  clear_value x1 x2 x3 x4 x5 x6 x7
  exact checked_kept h (okEmpty_kept (State.putBank_kept h))

theorem bodyRouteEpoch_kept {r : State} {a : CcpCtx} {a1 : State} (h : Kept r a1) : KeptOut r (bodyRouteEpoch a a1) := by
  unfold bodyRouteEpoch
  extract_lets -underBinder -useContext x1 x2 x3 x4 x5 x6 x7 x8 x9
  clear_value x1 x2
  have k10 : Kept r x4 := h
  clear_value x4 x5
  have k11 : Kept r x6 := State.putBank_kept k10
  clear_value x6
  have k12 : Kept r x8 := ite_keep k10 k11
  clear_value x8 x9
  exact okEmpty_kept (State.putBank_kept k12)

theorem bodyRouteQuery_kept {r : State} {a : CcpCtx} {a1 : State} (h : Kept r a1) : KeptOut r (bodyRouteQuery a a1) := by
  unfold bodyRouteQuery; exact okBytes_kept h

theorem bodyMcastSet_kept {r : State} {a : CcpCtx} {a1 : State} (h : Kept r a1) : KeptOut r (bodyMcastSet a a1) := by
  unfold bodyMcastSet
  extract_lets -underBinder -useContext x1 x2
  clear_value x1
  exact okEmpty_kept h

theorem bodyHistQuery_kept {r : State} {a : CcpCtx} {a1 : State} (h : Kept r a1) : KeptOut r (bodyHistQuery a a1) := by
  unfold bodyHistQuery
  extract_lets -underBinder -useContext x1 x2 x3 x4 x5 x6 x7 x8 x9 x10 x11 x12 x13 x14
  clear_value x1 x2 x3 x4 x5 x6 x7 x8 x9 x10 x11 x12
  have k15 : Kept r x14 := ite_keep h h
  clear_value x14
  exact checked_kept h (okBytes_kept k15)

theorem bodyPowerQuery_kept {r : State} {a : CcpCtx} {a1 : State} (h : Kept r a1) : KeptOut r (bodyPowerQuery a a1) := by
  unfold bodyPowerQuery
  extract_lets -underBinder -useContext x1 x2
  clear_value x1 x2
  exact okBytes_kept h

theorem bodySleepSet_kept {r : State} {a : CcpCtx} {a1 : State} (h : Kept r a1) : KeptOut r (bodySleepSet a a1) := by
  unfold bodySleepSet; exact okEmpty_kept h

theorem State.portSleep_kept {r s : State} {p : Nat} (h : Kept r s) : Kept r (s.portSleep p) := by
  unfold State.portSleep; exact State.modPort_kept (State.portDown_kept h)

theorem State.goSleep_kept {r s : State} {four : Bool} (h : Kept r s) : Kept r (s.goSleep four) := by
  unfold State.goSleep
  extract_lets -underBinder -useContext x1 x2 x3 x4 x5 x6
  have k7 : Kept r x1 := Kept.foldl (fun y8 y9 k10 => State.portSleep_kept k10) h
  clear_value x1 x2
  have k11 : Kept r x4 := k7
  clear_value x4
  exact k11

theorem bodySleepEnter_kept {r : State} {a : CcpCtx} {a1 : State} (h : Kept r a1) : KeptOut r (bodySleepEnter a a1) := by
  unfold bodySleepEnter
  split
  · exact ite_keep (done_kept h) (okEmpty_kept h)
  · exact checked_kept h ⟨h, fun y1 k2 => State.goSleep_kept k2⟩
  · exact checked_kept h ⟨h, fun y3 k4 => State.goSleep_kept k4⟩
  · exact refuse_kept h

theorem bodyPairSet_kept {r : State} {a : CcpCtx} {a1 : State} (h : Kept r a1) : KeptOut r (bodyPairSet a a1) := by
  unfold bodyPairSet
  extract_lets -underBinder -useContext x1 x2 x3 x4 x5 x6 x7 x8 x9 x10 x11 x12 x13 x14 x15 x16 x17
  clear_value x1 x2 x3 x4 x5 x6 x7 x8
  have k18 : Kept r x10 := h
  clear_value x10
  have k19 : Kept r x12 := k18
  clear_value x12
  have k20 : Kept r x13 := State.setPortReady_kept k19
  clear_value x13
  have k21 : Kept r x15 := State.releaseMirrors_kept ((State.pairSend_kept h).2)
  clear_value x15
  have k22 : Kept r x17 := k21
  clear_value x17
  exact checked_kept h (ite_keep (okEmpty_kept (ite_keep (State.claimLease_kept k20) k20)) (ite_keep (okEmpty_kept h)
      (okEmpty_kept (State.setPortReady_kept k22))))

theorem bodyPairQuery_kept {r : State} {a : CcpCtx} {a1 : State} (h : Kept r a1) : KeptOut r (bodyPairQuery a a1) := by
  unfold bodyPairQuery
  extract_lets -underBinder -useContext x1
  clear_value x1
  exact okBytes_kept h

theorem bodyFwStage_kept {r : State} {a : CcpCtx} {a1 : State} (h : Kept r a1) : KeptOut r (bodyFwStage a a1) := by
  unfold bodyFwStage
  extract_lets -underBinder -useContext x1 x2 x3 x4 x5
  clear_value x1 x2 x3 x4
  have k6 : ∀ (s : State), Kept r s → ∀ (target : Nat), KeptOut r (x5 s target) := by
    unfold x5
    intro y7 k8 y9
    extract_lets -underBinder -useContext x10 x11 x12 x13
    clear_value x10
    have k14 : Kept r x11 := State.setSlot_kept k8
    clear_value x11 x12
    exact heldCmd_kept k14
  clear_value x5
  split
  · exact refuse_kept h
  · refine ite_keep (refuse_kept h) (ite_keep (refuse_kept h) (ite_keep (ite_keep (k6 _ h _) (refuse_kept h)) ?_))
    split
    · exact refuse_kept h
    · exact ite_keep (refuse_kept h) (ite_keep (refuse_kept h) (k6 _ (by exact State.putBulk_kept h) _))

theorem bodyFwActivate_kept {r : State} {c : CcpCtx} {s : State} (h : Kept r s) : KeptOut r (bodyFwActivate c s) := by
  unfold bodyFwActivate
  extract_lets op busy f sv s' o x
  clear_value op busy o x
  refine ite_keep (refuse_kept h) ?_
  match op with
  | 0 => 
    cases s.fw.spareSlot with
    | some n => exact ite_keep ⟨h, fun _ k => State.activateMgmt_kept k⟩ (refuse_kept h)
    | none => exact refuse_kept h
  | 3 =>
    by_cases e : (f.mgmtSlot != f.keSlot || decide (sv ≤ f.fusedSec)) = true <;> simp only [e]
    · exact refuse_kept h
    · have k : Kept r s' := by
        have up : f.fusedSec ≤ sv := by simp at e; omega
        exact ⟨h.pending, ⟨Nat.le_trans h.onward.1 up, h.onward.2⟩, h.sane⟩
      exact okEmpty_kept (ite_keep (State.setSlot_kept k) k)
  | 1 | 2 | n + 4 =>
    cases s.fw.keTarget with
    | none => exact refuse_kept h
    | some n =>
      cases s.keRefusal (bit c.block 8) with
      | some r => exact refuse_kept h
      | none =>
        have k (v : State) (kv : Kept r v) : Kept r { v.fenceUnit with pair.handover := true, pair.peerTook := false } :=
          (State.fenceUnit_kept kv).upd rfl
        exact ite_keep (heldCmd_kept (k _ (h.upd rfl))) ⟨h, fun _ k => State.restartKeys_kept k⟩

theorem bodyFwQuery_kept {r : State} {a : CcpCtx} {a1 : State} (h : Kept r a1) : KeptOut r (bodyFwQuery a a1) := by
  unfold bodyFwQuery
  extract_lets -underBinder -useContext x1 x2 x3
  clear_value x2 x3
  exact okBytes_kept h

theorem bodyConfigSet_kept {r : State} {a : CcpCtx} {a1 : State} (h : Kept r a1) : KeptOut r (bodyConfigSet a a1) := by
  unfold bodyConfigSet
  extract_lets -underBinder -useContext x1 x2
  clear_value x1 x2
  split
  · exact refuse_kept h
  · refine ite_keep (refuse_kept h) (ite_keep (refuse_kept h) ?_)
    extract_lets -underBinder -useContext x3 x4
    clear_value x3
    exact okEmpty_kept h

theorem bodyConfigQuery_kept {r : State} {a : CcpCtx} {a1 : State} (h : Kept r a1) : KeptOut r (bodyConfigQuery a a1) := by
  unfold bodyConfigQuery
  split
  · exact refuse_kept h
  · split
    · exact okBytes_kept h
    · exact refuse_kept h

theorem bodyEventRead_kept {r : State} {c : CcpCtx} {s : State} (h : Kept r s) : KeptOut r (bodyEventRead c s) := by
  have turn (q : EvQueue) : (if bit c.block 8 then q.ackTo (bits c.block 63 32) else q).recs.length ≤ q.recs.length :=
    ite_keep (p := fun x : EvQueue => x.recs.length ≤ q.recs.length) (EvQueue.ackTo_length q _) (Nat.le_refl _)
  have q := h.queues
  unfold bodyEventRead
  refine ite_keep (okBytes_kept (h.ofLog (q.op (Nat.le_trans (turn _) q.1)) rfl rfl)) ?_
  split
  · exact okBytes_kept h
  · exact okBytes_kept (h.ofLog (q.put (Nat.le_trans (turn _) (q.find ‹_›))) rfl rfl)

theorem bodyStatsQuery_kept {r : State} {a : CcpCtx} {a1 : State} (h : Kept r a1) : KeptOut r (bodyStatsQuery a a1) := by
  unfold bodyStatsQuery
  extract_lets -underBinder -useContext x1 x2 x3 x4 x5 x6
  clear_value x1 x2 x3 x4 x5
  have k7 : ∀ (s : State), Kept r s → ∀ (l : List Nat), KeptOut r (x6 s l) := by
    unfold x6
    intro y8 k9 y10
    exact okBytes_kept k9
  clear_value x6
  split
  · exact refuse_kept h
  · split
    · refine ite_keep (refuse_kept h) (ite_keep (refuse_kept h) ?_)
      extract_lets -underBinder -useContext x11 x12
      clear_value x11
      exact k7 _ (by exact ite_keep h h) _
    · split
      · exact refuse_kept h
      · exact ite_keep (refuse_kept h) (k7 _ (by exact ite_keep (State.putLink_kept h) h) _)
    · refine ite_keep (refuse_kept h) ?_
      split
      · exact k7 _ h _
      · exact ite_keep (refuse_kept h) (k7 _ (by exact ite_keep (State.putCadence_kept h) h) _)
    · exact ite_keep (refuse_kept h) (k7 _ (by exact ite_keep h h) _)

theorem bodyMemErrLog_kept {r : State} {a : CcpCtx} {a1 : State} (h : Kept r a1) : KeptOut r (bodyMemErrLog a a1) := by
  unfold bodyMemErrLog
  extract_lets -underBinder -useContext x1 x2 x3 x4 x5
  clear_value x1 x2 x3 x4 x5
  exact okBytes_kept (ite_keep (State.putStack_kept h) h)

theorem bodyMowSet_kept {r : State} {a : CcpCtx} {a1 : State} (h : Kept r a1) : KeptOut r (bodyMowSet a a1) := by
  unfold bodyMowSet
  extract_lets -underBinder -useContext x1 x2
  clear_value x1
  exact checked_kept h (okEmpty_kept h)

theorem bodyCheckerTest_kept {r : State} {a : CcpCtx} {a1 : State} (h : Kept r a1) : KeptOut r (bodyCheckerTest a a1) := by
  unfold bodyCheckerTest
  extract_lets -underBinder -useContext x1 x2 x3 x4 x5 x6 x7 x8
  clear_value x1 x2 x3 x4 x5 x6 x7 x8
  refine ite_keep (refuse_kept h) ?_
  split
  · refine checked_kept h ?_
    extract_lets -underBinder -useContext x9 x10
    have k11 : Kept r x9 := ite_keep h (State.setGran_kept h)
    clear_value x9
    exact okEmpty_kept k11
  · refine ite_keep (refuse_kept h) ?_
    extract_lets -underBinder -useContext x12
    have k13 : Kept r x12 := (State.writeSector_kept h).2
    clear_value x12
    split
    · refine ite_keep (okEmpty_kept k13) ?_
      extract_lets -underBinder -useContext x14 x15 x16
      clear_value x14
      have k17 : Kept r x15 := State.putSector_kept k13
      clear_value x15
      exact okEmpty_kept k17
    · exact okEmpty_kept k13
  · refine ite_keep (refuse_kept h) ?_
    extract_lets -underBinder -useContext x18 x19
    clear_value x18 x19
    exact okBytes_kept (State.secEffect_kept (State.readTouch_kept h))
  · refine ite_keep (refuse_kept h) ?_
    extract_lets -underBinder -useContext x20 x21 x22
    clear_value x20
    have k23 : Kept r x21 := State.setGran_kept (State.zeroGran_kept h)
    clear_value x21
    exact okEmpty_kept (State.later_kept k23)

theorem bodyRankRetire_kept {r : State} {a : CcpCtx} {a1 : State} (h : Kept r a1) : KeptOut r (bodyRankRetire a a1) := by
  unfold bodyRankRetire
  extract_lets -underBinder -useContext x1
  clear_value x1
  split
  · exact ite_keep (okEmpty_kept (State.retireRank_kept h)) (refuse_kept h)
  · exact okEmpty_kept (State.setRankRecord_kept h)
  · exact refuse_kept h

theorem bodyStackDiag_kept {r : State} {a : CcpCtx} {a1 : State} (h : Kept r a1) : KeptOut r (bodyStackDiag a a1) := by
  unfold bodyStackDiag
  extract_lets -underBinder -useContext x1 x2 x3 x4 x5 x6 x7 x8
  clear_value x1 x2 x3 x4 x5 x6 x7 x8
  exact checked_kept h (ite_keep
      (heldCmd_kept (State.modPch_kept h)) (ite_keep (okBytes_kept h) (okBytes_kept (State.modPch_kept h))))

theorem bodyDebugUnlock_kept {r : State} {a : CcpCtx} {a1 : State} (h : Kept r a1) : KeptOut r (bodyDebugUnlock a a1) := by
  unfold bodyDebugUnlock; exact ite_keep (refuse_kept h) (okEmpty_kept h)

theorem bodyBulkOpen_kept {r : State} {a : CcpCtx} {a1 : State} (h : Kept r a1) : KeptOut r (bodyBulkOpen a a1) := by
  unfold bodyBulkOpen
  extract_lets -underBinder -useContext x1 x2
  clear_value x1 x2
  refine ite_keep (refuse_kept h) (ite_keep (refuse_kept h) ?_)
  split
  · exact refuse_kept h
  · extract_lets -underBinder -useContext x3 x4 x5
    clear_value x3
    have k6 : Kept r x4 := State.putBulk_kept h
    clear_value x4
    exact okNum_kept k6

theorem ownChannel_kept {r : State} {c : CcpCtx} {s : State}
    {k : Nat → Bulk → CcpOut} (h : Kept r s)
    (h1 : ∀ (a : Nat) (a_1 : Bulk), KeptOut r (k a a_1)) : KeptOut r (ownChannel c s k) := by
  unfold ownChannel
  extract_lets -underBinder -useContext x1
  clear_value x1
  split
  · exact ite_keep (h1 _ _) (refuse_kept h)
  · exact ite_keep (refuse_kept h) (refuse_kept h)

theorem State.delBulk_kept {r s : State} {k : Nat} (h : Kept r s) : Kept r (s.delBulk k) := by
  unfold State.delBulk; exact h

theorem State.closeChannel_kept {r s : State} {ch : Nat} (h : Kept r s) : Kept r (s.closeChannel ch) := by
  unfold State.closeChannel
  split
  · exact h
  · extract_lets -underBinder -useContext x1
    have k2 : Kept r x1 := State.delBulk_kept h
    clear_value x1
    split
    · exact State.respondBad_kept k2
    · exact k2

theorem bodyBulkClose_kept {r : State} {a : CcpCtx} {a1 : State} (h : Kept r a1) : KeptOut r (bodyBulkClose a a1) := by
  unfold bodyBulkClose
  exact ownChannel_kept h (fun y1 y2 => okEmpty_kept (State.closeChannel_kept h))

theorem bodyBulkStatus_kept {r : State} {a : CcpCtx} {a1 : State} (h : Kept r a1) : KeptOut r (bodyBulkStatus a a1) := by
  unfold bodyBulkStatus; exact ownChannel_kept h (fun y1 y2 => okBytes_kept h)

end Sys2Proof.Machine
end

