-- ==== Sys2Proof/Laws/Kept/Part7.lean ====
section
/-! SUPPORT. Part7.lean: what each operation of the machine keeps (Laws/Kept.lean), one lemma per definition, in the
order in which they call each other. -/

namespace Sys2Proof.Machine

theorem ccpTable_kept {r : State} : BodiesKeep r ccpTable :=
  .append (.append (.append (.append (.append (.append (.append (.append (.cons (fun _ _ h => bodyCcpClose_kept h) <|
      .cons (fun _ _ h => bodyMbxDrop_kept h) <| .cons (fun _ _ h => bodyEthSet_kept h) <|
      .cons (fun _ _ h => bodyCapabilityQuery_kept h) <| .cons (fun _ _ h => bodyReadyQuery_kept h) <|
      .cons (fun _ _ h => bodyExpTableQuery_kept h) <| .cons (fun _ _ h => bodyDeviceReset_kept h) <|
      .cons (fun _ _ h => bodySpdm_kept h) <| .cons (fun _ _ h => bodyTenantCreate_kept h) <|
      .cons (fun _ _ h => bodyTenantDelete_kept h) .nil)
    (.cons (fun _ _ h => bodySessionEnd_kept h) <| .cons (fun _ _ h => bodyTenantEvict_kept h) <|
      .cons (fun _ _ h => bodyKeyRotate_kept h) <| .cons (fun _ _ h => bodyAdmit_kept h) <|
      .cons (fun _ _ h => bodySetLoad_kept h) <| .cons (fun _ _ h => bodySetDelete_kept h) <|
      .cons (fun _ _ h => bodyImportBegin_kept h) <| .cons (fun _ _ h => bodyImportEnd_kept h) <|
      .cons (fun _ _ h => bodyImportBind_kept h) <| .cons (fun _ _ h => bodyReserveSet_kept h) .nil))
    (.cons (fun _ _ h => bodyCapacityQuery_kept h) <| .cons (fun _ _ h => bodySpaceCreate_kept h) <|
      .cons (fun _ _ h => bodySpaceDelete_kept h) <| .cons (fun _ _ h => bodyExtentCreate_kept h) <|
      .cons (fun _ _ h => bodyExtentEnable_kept h) <| .cons (fun _ _ h => bodyExtentDelete_kept h) <|
      .cons (fun _ _ h => bodyExtentQuery_kept h) <| .cons (fun _ _ h => bodyExtentReclaim_kept h) <|
      .cons (fun _ _ h => bodyExtentMap_kept h) <| .cons (fun _ _ h => bodyExtentUnmap_kept h) .nil))
    (.cons (fun _ _ h => bodyL2Partition_kept h) <| .cons (fun _ _ h => bodyCommonCreate_kept h) <|
      .cons (fun _ _ h => bodyCommonEnable_kept h) <| .cons (fun _ _ h => bodyCommonDelete_kept h) <|
      .cons (fun _ _ h => bodyDirPartition_kept h) <| .cons (fun _ _ h => bodyStreamCreate_kept h) <|
      .cons (fun _ _ h => bodyStreamClose_kept h) <| .cons (fun _ _ h => bodyStreamAbort_kept h) <|
      .cons (fun _ _ h => bodyStreamPriority_kept h) <| .cons (fun _ _ h => bodyFormatLoad_kept h) .nil))
    (.cons (fun _ _ h => bodyVectorProgLoad_kept h) <| .cons (fun _ _ h => bodyWindowCreate_kept h) <|
      .cons (fun _ _ h => bodyWindowEnable_kept h) <| .cons (fun _ _ h => bodyWindowAbort_kept h) <|
      .cons (fun _ _ h => bodyWindowRetire_kept h) <| .cons (fun _ _ h => bodyWindowDelete_kept h) <|
      .cons (fun _ _ h => bodyWindowQuery_kept h) <| .cons (fun _ _ h => bodySeqCreate_kept h) <|
      .cons (fun _ _ h => bodySeqEnable_kept h) <| .cons (fun _ _ h => bodySeqTruncate_kept h) .nil))
    (.cons (fun _ _ h => bodySeqDisable_kept h) <| .cons (fun _ _ h => bodySeqDelete_kept h) <|
      .cons (fun _ _ h => bodySeqQuery_kept h) <| .cons (fun _ _ h => bodyPortSet_kept h) <|
      .cons (fun _ _ h => bodyPortQuery_kept h) <| .cons (fun _ _ h => bodyRouteSet_kept h) <|
      .cons (fun _ _ h => bodyRouteEpoch_kept h) <| .cons (fun _ _ h => bodyRouteQuery_kept h) <|
      .cons (fun _ _ h => bodyMcastSet_kept h) <| .cons (fun _ _ h => bodyPoliceSet_kept h) .nil))
    (.cons (fun _ _ h => bodySchedSet_kept h) <| .cons (fun _ _ h => bodyArbSet_kept h) <|
      .cons (fun _ _ h => bodyIsolateSet_kept h) <| .cons (fun _ _ h => bodyCadenceSet_kept h) <|
      .cons (fun _ _ h => bodyHistQuery_kept h) <| .cons (fun _ _ h => bodyPowerSet_kept h) <|
      .cons (fun _ _ h => bodyPowerQuery_kept h) <| .cons (fun _ _ h => bodySleepSet_kept h) <|
      .cons (fun _ _ h => bodySleepEnter_kept h) <| .cons (fun _ _ h => bodyPairSet_kept h) .nil))
    (.cons (fun _ _ h => bodyPairQuery_kept h) <| .cons (fun _ _ h => bodyFwStage_kept h) <|
      .cons (fun _ _ h => bodyFwActivate_kept h) <| .cons (fun _ _ h => bodyFwQuery_kept h) <|
      .cons (fun _ _ h => bodyConfigSet_kept h) <| .cons (fun _ _ h => bodyConfigQuery_kept h) <|
      .cons (fun _ _ h => bodyEventRead_kept h) <| .cons (fun _ _ h => bodyStatsQuery_kept h) <|
      .cons (fun _ _ h => bodyMemErrLog_kept h) <| .cons (fun _ _ h => bodyMowSet_kept h) .nil))
    (.cons (fun _ _ h => bodyCheckerTest_kept h) <| .cons (fun _ _ h => bodyRankRetire_kept h) <|
      .cons (fun _ _ h => bodyStackDiag_kept h) <| .cons (fun _ _ h => bodyDebugUnlock_kept h) <|
      .cons (fun _ _ h => bodyBulkOpen_kept h) <| .cons (fun _ _ h => bodyBulkClose_kept h) <|
      .cons (fun _ _ h => bodyBulkStatus_kept h) .nil)

theorem ccpRow_kept {r : State} {op : Nat} {x : CcpSpec × CcpBody} (h : ccpRow op = some x) : BodyKeeps r x.2 :=
  ccpTable_kept x (List.mem_of_find?_eq_some h)

theorem ccpBegin_kept {r : State} {spec : CcpSpec} {body : CcpBody} {c : CcpCtx}
    {s : State} (h : ∀ (a : CcpCtx) (a_1 : State), Kept r a_1 → KeptOut r (body a a_1))
    (h1 : Kept r s) : Kept r (ccpBegin spec body c s) := by
  unfold ccpBegin
  extract_lets -underBinder -useContext x1
  have k2 : KeptOut r x1 := checked_kept h1 (h _ _ h1)
  clear_value x1
  split
  · exact k2.2 _ (State.respond_kept k2.1)
  · exact k2.2 _ k2.1

theorem State.beginWhole_kept {r s : State} {mb : Nat} {m : Mailbox}
    {v : Session} (h : Kept r s) : Kept r (s.beginWhole mb m v) := by
  unfold State.beginWhole
  extract_lets u c
  have k : Kept r u := State.putMailbox_kept h
  split
  · exact State.respond_kept k
  · rename_i e
    exact ccpBegin_kept (fun c s hc => ccpRow_kept e c s hc) k

theorem State.bulkAck_kept {r s : State}
    {port sid ch offset : Nat} (h : Kept r s) : Kept r (s.bulkAck port sid ch offset) := by
  unfold State.bulkAck; exact State.numberFrames_kept (State.emit_kept h)

theorem State.bulkIn_kept {r s : State} {f : CcpFrame} (h : Kept r s) : Kept r (s.bulkIn f) := by
  unfold State.bulkIn
  extract_lets -underBinder -useContext x1
  clear_value x1
  split
  · exact State.countDev_kept h
  · extract_lets -underBinder -useContext x2 x3 x4 x5 x6 x7 x8 x9 x10
    clear_value x2 x3 x4 x5
    have k11 : Kept r x6 := State.putBulk_kept h
    clear_value x6
    have k12 : Kept r x8 := ite_keep k11 k11
    clear_value x8
    have k13 : Kept r x9 := ite_keep (State.bulkAck_kept k12) k12
    clear_value x9
    have k14 : Kept r x10 := State.countDev_kept h
    clear_value x10
    exact ite_keep (State.setLoadGo_kept k13) (ite_keep (State.bulkAck_kept (State.putBulk_kept k14)) k14)

theorem State.cadenceEnd_kept {r s : State} {k : Nat} (h : Kept r s) : Kept r (s.cadenceEnd k) := by
  unfold State.cadenceEnd
  split
  · exact h
  · refine ite_keep h ?_
    extract_lets -underBinder -useContext x1 x2
    clear_value x1 x2
    exact State.putCadence_kept h

theorem State.cadenceTick_kept {r s : State} (h : Kept r s) : Kept r s.cadenceTick := by
  unfold State.cadenceTick; exact h

theorem State.cardOut_kept {r s : State} (h : Kept r s) : Kept r s.cardOut := by
  unfold State.cardOut
  extract_lets -underBinder -useContext x1 x2
  have k3 : Kept r x2 := h
  clear_value x2
  split
  · exact ite_keep (State.stageFail_kept k3) k3
  · exact k3

theorem State.onDie_kept {r s : State} {n report : Nat} (h : Kept r s) : Kept r (s.onDie n report) := by
  unfold State.onDie
  extract_lets -underBinder -useContext x1
  clear_value x1
  exact ite_keep h (ite_keep (State.modStack_kept h) (ite_keep (State.modPch_kept h) (State.countBad_kept
      (State.logSector_kept h))))

theorem State.carryOut_kept {r s : State} {k : Nat} {a : SecAccess} (h : Kept r s) : Kept r (s.carryOut k a) := by
  unfold State.carryOut
  extract_lets -underBinder -useContext x1
  clear_value x1
  refine ite_keep ?_ ?_
  · split
    · exact State.joinFetch_kept h
    · exact State.joinFetch_kept h
  · split
    · exact State.readNow_kept (State.onDie_kept (State.onDie_kept h))
    · exact State.writeNow_kept h

theorem State.helloAnswer_kept {r s : State} {port sid opcode : Nat}
    {a4 : Refuse} (h : Kept r s) : Kept r (s.helloAnswer port sid opcode a4) := by
  unfold State.helloAnswer; exact State.emit_kept h

theorem State.ccpFinish_kept {r s : State} {port sid : Nat}
    {sigOk : Bool} (h : Kept r s) : Kept r (s.ccpFinish port sid sigOk) := by
  unfold State.ccpFinish
  split
  · exact State.countDev_kept h
  · extract_lets -underBinder -useContext x1 x2
    have k3 : Kept r x2 := h
    clear_value x2
    refine ite_keep k3 ?_
    split
    · exact State.helloAnswer_kept h
    · rename_i z4 z5 e6 z7 e8
      have k9 : ExcAll Any (Kept r) (x2.admitSession z5 sigOk) := State.admitSession_kept k3
      split
      · rename_i z10 z11 e12
        have k13 := via e12 k9
        exact State.helloAnswer_kept k3
      · rename_i z14 z15 e16
        have k17 := via e16 k9
        have k18 : Kept r z15 := k17
        extract_lets -underBinder -useContext x19
        clear_value x19
        exact State.emit_kept (State.putSession_kept k18)

theorem State.ccpHello_kept {r s : State} {port ver : Nat} {role : Role}
    {tenant keyHash : Nat} (h : Kept r s) : Kept r (s.ccpHello port ver role tenant keyHash) := by
  unfold State.ccpHello
  refine ite_keep (State.countDev_kept h) ?_
  split
  · exact State.helloAnswer_kept h
  · refine ite_keep (State.helloAnswer_kept h) ?_
    split
    · exact State.helloAnswer_kept h
    · extract_lets -underBinder -useContext x1 x2
      clear_value x1
      exact State.emit_kept h

theorem State.ceilingUpdate_kept {r s : State} {n used : Nat} (h : Kept r s) : Kept r (s.ceilingUpdate n used) := by
  unfold State.ceilingUpdate
  extract_lets -underBinder -useContext x1
  clear_value x1
  exact State.modStation_kept h

theorem State.channelIdle_kept {r s : State} {ch : Nat} (h : Kept r s) : Kept r (s.channelIdle ch) := by
  unfold State.channelIdle
  split
  · exact ite_keep (State.closeChannel_kept h) h
  · exact h

theorem State.chargeCycles_kept {r s : State} {n sid cycles : Nat}
    {ctx : Option Nat} (h : Kept r s) : Kept r (s.chargeCycles n sid cycles ctx) := by
  unfold State.chargeCycles
  split
  · exact h
  · extract_lets -underBinder -useContext x1
    have k2 : Kept r x1 := State.chargeUnits_kept h
    clear_value x1
    split
    · exact k2
    · exact k2

theorem State.claimRetry_kept {r s : State} (h : Kept r s) : Kept r s.claimRetry := by
  unfold State.claimRetry
  extract_lets -underBinder -useContext x1
  clear_value x1
  exact ite_keep (State.claimLease_kept h) h

theorem State.clampLift_kept {r s : State} (h : Kept r s) : Kept r s.clampLift := by
  unfold State.clampLift; exact h

theorem State.setResetN_kept {r s : State} {high : Bool} (h : Kept r s) : Kept r (s.setResetN high) := by
  unfold State.setResetN; exact ite_keep h (State.emit_kept h)

theorem State.coldBoot_kept {r s : State} {strap : Bool} (h : Kept r s) : Kept r (s.coldBoot strap) := by
  unfold State.coldBoot
  exact ite_keep (Kept.upd (s := s.startBoot.setResetN true) (State.setResetN_kept (State.startBoot_kept h)) rfl) h

theorem State.intakeAnswer_kept {r s : State}
    {port cls sid opcode cmdId reason : Nat} (h : Kept r s) : Kept r (s.intakeAnswer port cls sid opcode cmdId reason) := by
  unfold State.intakeAnswer; exact State.sendResponse_kept (State.numberFrames_kept h)

theorem State.fragIn_kept {r s : State} {f : CcpFrame} {mb : Nat} {m : Mailbox}
    {v : Session} (h : Kept r s) : Kept r (s.fragIn f mb m v) := by
  unfold State.fragIn
  extract_lets -underBinder -useContext x1 x2 x3
  have k4 : ∀ (s : State), Kept r s → Kept r (x1 s) := by
    unfold x1
    intro y5 k6
    exact State.respond_kept k6
  clear_value x1 x2
  have k7 : Kept r x3 := State.putMailbox_kept h
  clear_value x3
  exact ite_keep (k4 _ (by exact State.putMailbox_kept h)) (ite_keep (State.countDev_kept h) (ite_keep
      (State.beginWhole_kept k7) k7))

theorem State.resendKept_kept {r s : State} {port cls sid cmdId opcode op mb : Nat}
    {a8 : Reply} (h : Kept r s) : Kept r (s.resendKept port cls sid cmdId opcode op mb a8) := by
  unfold State.resendKept; exact State.sendResponse_kept (State.numberFrames_kept h)

theorem State.commandIn_kept {r s : State} {f : CcpFrame} {v : Session} (h : Kept r s) : Kept r (s.commandIn f v) := by
  unfold State.commandIn
  extract_lets -underBinder -useContext x1
  have k2 : Kept r x1 := State.countDev_kept h
  clear_value x1
  split
  · exact ite_keep (State.intakeAnswer_kept h) h
  · split
    · exact ite_keep k2 (State.fragIn_kept h)
    · refine ite_keep ?_ ?_
      · extract_lets -underBinder -useContext x3
        clear_value x3
        split
        · extract_lets -underBinder -useContext x4
          have k5 : Kept r x4 := State.putSession_kept h
          clear_value x4
          exact State.intakeAnswer_kept k5
        · extract_lets -underBinder -useContext x6 x7
          clear_value x6 x7
          exact State.fragIn_kept (State.putMailbox_kept (State.putSession_kept h))
      · split
        · exact ite_keep (State.resendKept_kept h) k2
        · exact k2

theorem State.copyDone_kept {r s : State} (h : Kept r s) : Kept r s.copyDone := by
  unfold State.copyDone
  extract_lets -underBinder -useContext x1 x2 x3
  clear_value x1
  have k4 : Kept r x2 := Kept.foldl (fun y5 y6 k7 => State.sendMeta_kept k7) h
  clear_value x2
  exact ite_keep h (State.renew_kept k4)

theorem State.replay_kept {r s : State} {p : Nat} (h : Kept r s) : Kept r (s.replay p) := by
  unfold State.replay
  extract_lets -underBinder -useContext x1
  clear_value x1
  exact ite_keep h (ite_keep (ite_keep (State.portDown_kept h) (State.retrain_kept h)) (State.putPort_kept h))

theorem State.takeNak_kept {r s : State} {p : Nat} {f : Flit} (h : Kept r s) : Kept r (s.takeNak p f) := by
  unfold State.takeNak; exact ite_keep (State.replay_kept h) h

theorem State.freeBuffer_kept {r s : State} {p : Nat} {f : Flit} (h : Kept r s) : Kept r (s.freeBuffer p f) := by
  unfold State.freeBuffer
  exact ite_keep h (ite_keep (State.modPort_kept h) (State.modPort_kept h))

theorem State.oweCredit_kept {r s : State} {p vc : Nat} {x : Packet} (h : Kept r s) : Kept r (s.oweCredit p vc x) := by
  unfold State.oweCredit
  exact ite_keep h (Kept.upd (s := s.modPort p fun q => { q with reqFlits := 0 }) (State.modPort_kept h) rfl)

theorem State.gather_kept {r s : State} {p : Nat} {f : Flit} (h : Kept r s) : Kept r (s.gather p f) := by
  unfold State.gather
  extract_lets -underBinder -useContext x1 x2 x3 x4 x5 x6 x7 x8
  clear_value x1 x2 x3 x4
  have k9 : Kept r x5 := State.freeBuffer_kept h
  clear_value x5 x6
  have k10 : Kept r x7 := State.putPort_kept k9
  clear_value x7 x8
  exact ite_keep (State.portDown_kept h) (ite_keep (State.putPort_kept k9) (ite_keep (State.later_kept k10)
      (State.later_kept (State.oweCredit_kept k10))))

theorem State.dataFlit_kept {r s : State} {p : Nat} {f : Flit} (h : Kept r s) : Kept r (s.dataFlit p f) := by
  unfold State.dataFlit
  extract_lets -underBinder -useContext x1 x2
  clear_value x1
  have k3 : Kept r x2 := State.putPort_kept h
  clear_value x2
  refine ite_keep h ?_
  split
  · extract_lets -underBinder -useContext x4 x5 x6 x7 x8 x9
    clear_value x4
    have k10 : Kept r x5 := State.modPort_kept k3
    clear_value x5
    have k11 : Kept r x6 := State.takeNak_kept k10
    clear_value x6 x7 x8 x9
    exact ite_keep k11 (ite_keep (State.gather_kept (State.putPort_kept k11)) (ite_keep (State.putPort_kept k11)
        (ite_keep (State.putPort_kept k11) (State.portDown_kept k11))))
  · exact State.badFlit_kept k3

theorem State.delCadence_kept {r s : State} {k : Nat} (h : Kept r s) : Kept r (s.delCadence k) := by
  unfold State.delCadence; exact h

theorem State.delNodeRec_kept {r s : State} {k : Nat} (h : Kept r s) : Kept r (s.delNodeRec k) := by
  unfold State.delNodeRec; exact h

theorem State.delPort_kept {r s : State} {k : Nat} (h : Kept r s) : Kept r (s.delPort k) := by
  unfold State.delPort; exact h

theorem State.delStack_kept {r s : State} {k : Nat} (h : Kept r s) : Kept r (s.delStack k) := by
  unfold State.delStack; exact h

theorem State.delStation_kept {r s : State} {k : Nat} (h : Kept r s) : Kept r (s.delStation k) := by
  unfold State.delStation; exact h

theorem State.delTagRec_kept {r s : State} {k : Nat} (h : Kept r s) : Kept r (s.delTagRec k) := by
  unfold State.delTagRec; exact h

theorem State.depthSample_kept {r s : State} (h : Kept r s) : Kept r s.depthSample := by
  unfold State.depthSample; exact h

theorem State.draftDrained_kept {r s : State} {ext : Nat} (h : Kept r s) : Kept r (s.draftDrained ext) := by
  unfold State.draftDrained; exact ite_keep h (State.commitDraft_kept h)

theorem State.drainExtent_kept {r s : State} {ext : Nat} (h : Kept r s) : Kept r (s.drainExtent ext) := by
  unfold State.drainExtent
  extract_lets -underBinder -useContext x1
  have k2 : Kept r x1 := State.invalidate_kept h
  clear_value x1
  split
  · exact State.sweepCommon_kept (State.putCommon_kept k2)
  · exact k2

theorem State.droopTrip_kept {r s : State} {f : Nat} (h : Kept r s) : Kept r (s.droopTrip f) := by
  unfold State.droopTrip
  extract_lets -underBinder -useContext x1 x2
  have k3 : Kept r x2 := h
  clear_value x2
  exact Kept.foldl (fun y4 y5 k6 => State.modStation_kept k6) k3

theorem State.droopWindow_kept {r s : State} (h : Kept r s) : Kept r s.droopWindow := by
  unfold State.droopWindow
  extract_lets -underBinder -useContext x1 x2 x3 x4 x5
  clear_value x1
  have k6 : Kept r x3 := h
  clear_value x3
  have k7 : Kept r x5 := k6
  clear_value x5
  exact ite_keep k6 (State.relevel_kept (State.recAll_kept k7))

theorem State.dropAged_kept {r s : State} {p : Nat} (h : Kept r s) : Kept r (s.dropAged p) := by
  unfold State.dropAged
  extract_lets -underBinder -useContext x1 x2 x3 x4 x5 x6
  clear_value x1 x2 x3 x4
  have k7 : Kept r x6 := h
  clear_value x6
  exact ite_keep h (State.putPort_kept (State.countDev_kept k7))

theorem State.dropEntries_kept {r s : State} {engine : Nat}
    {a2 : InvalRange} (h : Kept r s) : Kept r (s.dropEntries engine a2) := by
  unfold State.dropEntries
  extract_lets -underBinder -useContext x1 x2
  clear_value x1
  exact ite_keep h h

theorem State.dropSegments_kept {r s : State} (h : Kept r s) : Kept r s.dropSegments := by
  unfold State.dropSegments
  refine ite_keep h ?_
  extract_lets -underBinder -useContext x1 x2 x3
  clear_value x1 x2
  exact h

theorem State.echoSecond_kept {r s : State} (h : Kept r s) : Kept r s.echoSecond := by
  unfold State.echoSecond; exact ite_keep h h

theorem State.endStream_kept {r s : State} {sid : Nat} {v : Stream} (h : Kept r s) : Kept r (s.endStream sid v) := by
  unfold State.endStream
  extract_lets -underBinder -useContext x1 x2 x3 x4 x5 x6 x7
  have k8 : Kept r x1 := State.putStream_kept h
  clear_value x1
  have k9 : Kept r x2 := Kept.foldl (fun y10 y11 k12 => State.complete_kept k12) k8
  clear_value x2
  have k13 : Kept r x3 := Kept.foldl (fun y14 y15 k16 => State.respondBad_kept k16) k9
  clear_value x3
  have k17 : Kept r x4 := by
    unfold x4
    refine Kept.foldl (fun y18 y19 k20 => ?_) k13
    extract_lets -underBinder -useContext x21
    have k22 : Kept r x21 := State.dropGot_kept k20
    clear_value x21
    split
    · exact State.complete_kept k22
    · exact k22
  clear_value x4 x5
  have k23 : Kept r x7 := k17
  clear_value x7
  exact State.recordDone_kept k23

theorem State.endObjects_kept {r s : State} {t : Nat} (h : Kept r s) : Kept r (s.endObjects t) := by
  unfold State.endObjects
  extract_lets -underBinder -useContext x1 x2 x3 x4 x5 x6 x7 x8 x9 x10
  have k11 : Kept r x1 := Kept.foldl (fun y12 y13 k14 => ite_keep (State.deleteSpace_kept k14) k14) h
  clear_value x1
  have k15 : Kept r x2 := by
    unfold x2
    refine Kept.foldl (fun y16 y17 k18 => ite_keep k18 ?_) k11
    split
    · exact k18
    · exact State.sendMeta_kept (State.delExtent_kept k18)
    · extract_lets -underBinder -useContext x19 x20
      have k21 : Kept r x19 := by
        unfold x19
        split
        · exact State.complete_kept k18
        · exact k18
      clear_value x19 x20
      exact State.beginRevoke_kept (State.putExtent_kept k21)
  clear_value x2
  have k22 : Kept r x3 := Kept.foldl (fun y23 y24 k25 => ite_keep (State.endStream_kept k25) k25) k15
  clear_value x3
  have k26 : Kept r x4 := by
    unfold x4
    refine Kept.foldl (fun y27 y28 k29 => ite_keep k29 ?_) k22
    extract_lets -underBinder -useContext x30
    have k31 : Kept r x30 := State.sendMeta_kept (State.delWindow_kept k29)
    clear_value x30
    split
    · exact State.respondBad_kept k31
    · exact k31
  clear_value x4
  have k32 : Kept r x5 := by
    unfold x5
    refine Kept.foldl (fun y33 y34 k35 => ite_keep k35 ?_) k26
    extract_lets -underBinder -useContext x36
    have k37 : Kept r x36 := State.sendMeta_kept (State.delContext_kept k35)
    clear_value x36
    refine Kept.foldl (fun y38 y39 k40 => ?_) k37
    split
    · exact State.respondBad_kept k40
    · exact State.respondBad_kept k40
  clear_value x5
  have k41 : Kept r x6 := Kept.foldl (fun y42 y43 k44 => ite_keep (State.sendMeta_kept (State.delCommon_kept k44)) k44) k32
  clear_value x6
  exact k41

theorem State.endSlow_kept {r s : State} {t : Nat} (h : Kept r s) : Kept r (s.endSlow t) := by
  unfold State.endSlow
  split
  · exact h
  · exact ite_keep (State.recOp_kept (State.putTenant_kept h)) h

theorem State.eraseKeys_kept {r s : State} {t : Nat} {x : Tenant} (h : Kept r s) : Kept r (s.eraseKeys t x) := by
  unfold State.eraseKeys
  extract_lets u v w
  have k : Kept r v := Kept.foldl (fun z a hz => State.respondOk_kept hz) (State.putTenant_kept h)
  exact .foldl (fun z a hz => State.endSession_kept hz) (k.ofLog k.queues.del rfl rfl)

theorem State.escapeWait_kept {r s : State} {id : Nat} (h : Kept r s) : Kept r (s.escapeWait id) := by
  unfold State.escapeWait
  split
  · exact h
  · exact ite_keep h h

theorem State.setEthReady_kept {r s : State} {p : Nat} {on : Bool} (h : Kept r s) : Kept r (s.setEthReady p on) := by
  unfold State.setEthReady; exact ite_keep h h

theorem State.ethDown_kept {r s : State} {p : Nat} (h : Kept r s) : Kept r (s.ethDown p) := by
  unfold State.ethDown
  extract_lets -underBinder -useContext x1
  clear_value x1
  exact State.setEthReady_kept (State.putEth_kept h)

theorem State.releaseTx_kept {r s : State} {p : Nat} (h : Kept r s) : Kept r (s.releaseTx p) := by
  unfold State.releaseTx
  extract_lets -underBinder -useContext x1 x2
  clear_value x1 x2
  exact Kept.foldl (fun y3 y4 k5 => State.emit_kept k5) (State.putEth_kept h)

theorem State.pfcIn_kept {r s : State} {p prio quanta : Nat} (h : Kept r s) : Kept r (s.pfcIn p prio quanta) := by
  unfold State.pfcIn
  extract_lets -underBinder -useContext x1
  clear_value x1
  exact State.releaseTx_kept (State.putEth_kept h)

theorem State.wakeByFrame_kept {r s : State} (h : Kept r s) : Kept r s.wakeByFrame := by
  unfold State.wakeByFrame; exact ite_keep h h

theorem State.fifoMarks_kept {r s : State} {p : Nat} (h : Kept r s) : Kept r (s.fifoMarks p) := by
  unfold State.fifoMarks
  extract_lets -underBinder -useContext x1 x2 x3
  clear_value x1 x2
  have k4 : ∀ (s : State), Kept r s → ∀ (q : Nat), Kept r (x3 s q) := by
    unfold x3
    intro y5 k6 y7
    exact ite_keep k6 (State.emit_kept k6)
  clear_value x3
  exact ite_keep (k4 _ (by exact State.putEth_kept h) _) (ite_keep (k4 _ (by exact State.putEth_kept h) _) h)

theorem State.fifoIn_kept {r s : State} {p : Nat} {f : EthFrame} (h : Kept r s) : Kept r (s.fifoIn p f) := by
  unfold State.fifoIn
  extract_lets -underBinder -useContext x1 x2 x3
  clear_value x1 x2 x3
  exact ite_keep (State.countDev_kept h) (State.fifoMarks_kept (State.putEth_kept h))

theorem State.ethFrame_kept {r s : State} {p : Nat} {f : EthFrame} (h : Kept r s) : Kept r (s.ethFrame p f) := by
  unfold State.ethFrame
  extract_lets -underBinder -useContext x1 x2 x3 x4 x5 x6
  clear_value x1 x2
  have k7 : Kept r x3 := State.countDev_kept h
  clear_value x3
  have k8 : Kept r x4 := State.wakeByFrame_kept h
  clear_value x4 x5 x6
  exact ite_keep h (ite_keep (ite_keep (State.pfcIn_kept h) k7) (ite_keep (ite_keep (State.emit_kept h) k7) (ite_keep
      (ite_keep (State.emit_kept (State.putEth_kept h)) k7) (ite_keep (ite_keep (ite_keep
      (State.intakeAnswer_kept k8) k8) (State.fifoIn_kept k8)) k7))))

theorem State.ethUp_kept {r s : State} {p : Nat} (h : Kept r s) : Kept r (s.ethUp p) := by
  unfold State.ethUp
  refine ite_keep h ?_
  extract_lets -underBinder -useContext x1
  clear_value x1
  exact State.setEthReady_kept (State.putEth_kept h)

theorem State.extentMark_kept {r s : State} {n : Nat} (h : Kept r s) : Kept r (s.extentMark n) := by
  unfold State.extentMark
  split
  · exact h
  · refine ite_keep h ?_
    extract_lets -underBinder -useContext x1
    have k2 : Kept r x1 := State.drainExtent_kept (State.putExtent_kept h)
    clear_value x1
    split
    · exact State.respondOk_kept k2
    · exact k2

theorem State.failStack_kept {r s : State} {k step pins : Nat} (h : Kept r s) : Kept r (s.failStack k step pins) := by
  unfold State.failStack
  extract_lets -underBinder -useContext x1 x2 x3 x4
  have k5 : Kept r x1 := State.modStack_kept h
  clear_value x1 x2
  have k6 : Kept r x4 := k5
  clear_value x4
  exact State.recOp_kept (Kept.foldl (fun y7 y8 k9 => State.settleRank_kept k9) k6)

theorem State.fenceAgeOut_kept {r s : State} {src tag : Nat} (h : Kept r s) : Kept r (s.fenceAgeOut src tag) := by
  unfold State.fenceAgeOut
  split
  · exact h
  · extract_lets -underBinder -useContext x1 x2 x3 x4 x5 x6 x7 x8
    clear_value x1 x2 x3 x4
    have k9 : Kept r x6 := h
    clear_value x6
    have k10 : Kept r x8 := k9
    clear_value x8
    exact State.releaseFences_kept (State.countDev_kept k10)

theorem State.fenceMoved_kept {r s : State} {n : Nat}
    {lost : List (Nat × Nat)} (h : Kept r s) : Kept r (s.fenceMoved n lost) := by
  unfold State.fenceMoved
  split
  · extract_lets -underBinder -useContext x1 x2 x3 x4 x5 x6 x7 x8
    clear_value x1
    have k9 : Kept r x2 := State.spillAll_kept h
    clear_value x2
    have k10 : Kept r x3 := by
      unfold x3
      refine Kept.foldl (fun y11 y12 k13 => ?_) k9
      split
      · exact State.modLTile_kept k13
      · exact k13
    clear_value x3 x4
    have k14 : Kept r x6 := k10
    clear_value x6
    have k15 : Kept r x8 := k14
    clear_value x8
    exact State.bindAll_kept (State.ackStopped_kept k15)
  · exact h

theorem State.fenceStation_kept {r s : State} {n cause : Nat} (h : Kept r s) : Kept r (s.fenceStation n cause) := by
  unfold State.fenceStation
  split
  · extract_lets -underBinder -useContext x1 x2
    have k3 : Kept r x1 := State.modStation_kept h
    clear_value x1
    have k4 : Kept r x2 := State.evacuate_kept (State.recOp_kept k3)
    clear_value x2
    exact State.assignStations_kept k4
  · exact h

theorem State.fetchTimeout_kept {r s : State} {n : Nat} (h : Kept r s) : Kept r (s.fetchTimeout n) := by
  unfold State.fetchTimeout
  split
  · exact ite_keep (State.mirrorCopy_kept h) h
  · exact h

theorem State.fieldResetDone_kept {r s : State} {f pass : Nat} (h : Kept r s) : Kept r (s.fieldResetDone f pass) := by
  unfold State.fieldResetDone
  refine ite_keep h ?_
  extract_lets -underBinder -useContext x1 x2 x3 x4 x5 x6 x7 x8 x9 x10
  have k11 : Kept r x1 := by
    unfold x1
    refine Kept.foldl (fun y12 y13 k14 => ?_) h
    extract_lets -underBinder -useContext x15 x16
    clear_value x15
    have k17 : Kept r x16 := ite_keep (State.evacuate_kept k14) k14
    clear_value x16
    split
    · exact ite_keep k17 (State.modStation_kept k17)
    · exact ite_keep k17 (State.modStation_kept k17)
    · exact k17
  clear_value x1 x2 x3 x4 x5 x6
  have k18 : Kept r x7 := by
    unfold x7
    split
    · exact State.modStation_kept k11
    · exact k11
  clear_value x7
  have k19 : Kept r x10 := k18
  clear_value x10
  exact State.bindAll_kept (State.assignStations_kept k19)

theorem State.preServe_kept {r s : State} {port cls cmdId opcode total : Nat} {whole : Bool}
    {msg : List Byte} (h : Kept r s) : Kept r (s.preServe port cls cmdId opcode total whole msg) := by
  unfold State.preServe
  extract_lets -underBinder -useContext x1 x2
  have k3 : ∀ (s : State), Kept r s → ∀ (mb : Nat) (r_1 : Reply), Kept r (x1 s mb r_1) := by
    unfold x1
    intro y4 k5 y6 y7
    exact State.sendResponse_kept k5
  clear_value x1
  have k8 : ∀ (r_1 : Refuse), Kept r (x2 r_1) := by
    unfold x2
    intro y9
    exact k3 _ h _ _
  clear_value x2
  split
  · exact k8 _
  · split
    · exact k8 _
    · refine ite_keep (k8 _) (ite_keep (k8 _) ?_)
      extract_lets -underBinder -useContext x10
      have k11 : PairAll Any (Kept r) x10 := State.spdmReply_kept h
      clear_value x10
      exact k3 _ (by exact k11.2) _ _

theorem State.handshakeIn_kept {r s : State} {f : CcpFrame} (h : Kept r s) : Kept r (s.handshakeIn f) := by
  unfold State.handshakeIn
  refine ite_keep h (ite_keep ?_ (ite_keep (State.ccpFinish_kept h) (State.countDev_kept h)))
  extract_lets -underBinder -useContext x1
  clear_value x1
  exact State.ccpHello_kept h

theorem State.touchSession_kept {r s : State} {sid port : Nat} (h : Kept r s) : Kept r (s.touchSession sid port) := by
  unfold State.touchSession
  split
  · exact h
  · exact State.putSession_kept h

theorem State.sessionIn_kept {r s : State} {f : CcpFrame} (h : Kept r s) : Kept r (s.sessionIn f) := by
  unfold State.sessionIn
  extract_lets -underBinder -useContext x1
  have k2 : Kept r x1 := State.countDev_kept h
  clear_value x1
  split
  · exact k2
  · refine ite_keep k2 ?_
    split
    · exact k2
    · refine ite_keep (State.endSession_kept h) ?_
      extract_lets -underBinder -useContext x3
      have k4 : Kept r x3 := State.touchSession_kept (State.putSession_kept h)
      clear_value x3
      split
      · exact k4
      · exact ite_keep (State.commandIn_kept k4) (ite_keep k4 (State.bulkIn_kept k4))

theorem State.takeCcp_kept {r s : State} {f : CcpFrame} (h : Kept r s) : Kept r (s.takeCcp f) := by
  unfold State.takeCcp
  refine ite_keep h (ite_keep (State.countDev_kept h) ?_)
  split
  · extract_lets -underBinder -useContext x1
    clear_value x1
    exact State.preServe_kept h
  · exact State.handshakeIn_kept h
  · exact State.sessionIn_kept h

theorem State.fifoRead_kept {r s : State} {p : Nat} (h : Kept r s) : Kept r (s.fifoRead p) := by
  unfold State.fifoRead
  extract_lets -underBinder -useContext x1
  clear_value x1
  refine ite_keep h ?_
  split
  · exact h
  · exact State.takeCcp_kept (State.fifoMarks_kept (State.putEth_kept h))

theorem State.fillL2_kept {r s : State} {b : BufEntry} (h : Kept r s) : Kept r (s.fillL2 b) := by
  unfold State.fillL2
  extract_lets -underBinder -useContext x1 x2 x3 x4
  clear_value x1 x2 x3
  have k5 : ∀ (s : State), Kept r s → ∀ (w : Nat), Kept r (x4 s w) := by
    unfold x4
    intro y6 k7 y8
    exact k7
  clear_value x4
  split
  · exact k5 _ h _
  · refine ite_keep h ?_
    extract_lets -underBinder -useContext x9
    have k10 : PairAll Any (Kept r) x9 := State.draw_kept h
    clear_value x9
    exact k5 _ (by exact k10.2) _

theorem State.holdFrames_kept {r s : State} {port : Nat}
    {l : List CcpFrame} (h : Kept r s) : Kept r (s.holdFrames port l) := by
  unfold State.holdFrames
  extract_lets -underBinder -useContext x1 x2
  clear_value x1 x2
  exact State.countDev_kept (State.fifoMarks_kept (State.putEth_kept h))

theorem State.whole_kept {r s : State} {port : Nat} {held : List CcpFrame}
    {go : State → State} (h : Kept r s) (h1 : ∀ (a : State), Kept r a → Kept r (go a)) : Kept r (s.whole port held go) := by
  unfold State.whole
  exact ite_keep h (ite_keep (State.holdFrames_kept (State.wakeByFrame_kept h)) (h1 _ (by exact State.wakeByFrame_kept h)))

theorem State.finishWhole_kept {r s : State} {port sid : Nat}
    {sigOk : Bool} (h : Kept r s) : Kept r (s.finishWhole port sid sigOk) := by
  unfold State.finishWhole
  extract_lets -underBinder -useContext x1
  clear_value x1
  exact State.whole_kept h (fun y2 k3 => ite_keep (State.ccpFinish_kept k3) k3)

theorem State.frameTick_kept {r s : State} {p : Nat} (h : Kept r s) : Kept r (s.frameTick p) := by
  unfold State.frameTick; exact ite_keep h h

theorem State.sendData_kept {r s : State} {p c i : Nat} {x : TxPkt} (h : Kept r s) : Kept r (s.sendData p c i x) := by
  unfold State.sendData
  extract_lets -underBinder -useContext x1 x2 x3 x4 x5 x6 x7 x8 x9 x10 x11 x12 x13 x14
  clear_value x1 x2 x3 x4 x5 x6 x7 x8 x9
  have k15 : Kept r x10 := State.putPort_kept h
  clear_value x10
  have k16 : Kept r x11 := ite_keep k15 (State.leaveQueue_kept k15)
  clear_value x11 x12
  have k17 : Kept r x14 := ite_keep k16 k16
  clear_value x14
  exact State.frameTick_kept (State.emit_kept k17)

theorem State.flitSend_kept {r s : State} {p : Nat} (h : Kept r s) : Kept r (s.flitSend p) := by
  unfold State.flitSend
  extract_lets -underBinder -useContext x1 x2 x3 x4 x5 x6 x7
  have k8 : Kept r x1 := State.dropAged_kept h
  clear_value x1
  have k9 : Kept r x2 := State.modPort_kept k8
  clear_value x2 x3 x4 x5
  have k10 : ∀ (s : State), Kept r s → Kept r (x7 s) := by
    unfold x7
    intro y11 k12
    extract_lets -underBinder -useContext x13 x14
    clear_value x13 x14
    exact ite_keep k12 (State.frameTick_kept (State.emit_kept (State.putPort_kept k12)))
  clear_value x7
  refine ite_keep k9 (ite_keep (State.portDown_kept k9) (ite_keep ?_ ?_))
  · split
    · exact k9
    · refine ite_keep (State.portDown_kept k9) ?_
      extract_lets -underBinder -useContext x15 x16
      clear_value x15 x16
      exact State.frameTick_kept (State.emit_kept (State.putPort_kept k9))
  · split
    · refine ite_keep ?_ (k10 _ k9)
      extract_lets -underBinder -useContext x17 x18 x19 x20 x21 x22
      clear_value x17 x18 x19 x20 x21 x22
      exact State.frameTick_kept (State.emit_kept (State.putPort_kept k9))
    · refine ite_keep ?_ (k10 _ k9)
      split
      · exact State.sendData_kept k9
      · exact k10 _ k9

theorem State.fragmentTimeout_kept {r s : State} {mb : Nat} (h : Kept r s) : Kept r (s.fragmentTimeout mb) := by
  unfold State.fragmentTimeout
  split
  · exact ite_keep (State.dropMailbox_kept h) h
  · exact h

theorem State.passFree_kept {r s : State} {a : Nat} (h : Kept r s) : Kept r (s.passFree a) := by
  induction a generalizing s with
  | zero =>
    unfold State.passFree
    exact h
  | succ n ih =>
    unfold State.passFree
    split
    · exact h
    · refine ite_keep h ?_
      extract_lets -underBinder -useContext x1 x2 x3 x4 x5 x6
      clear_value x1 x2
      have k7 : Kept r x4 := h
      clear_value x4
      have k8 : ∀ (s : State), Kept r s → Kept r (x5 s) := by
        unfold x5
        intro y9 k10
        extract_lets -underBinder -useContext x11
        have k12 : Kept r x11 := State.putGran_kept k10
        clear_value x11
        split
        · exact State.putGran_kept (State.zeroGran_kept k12)
        · exact k12
      clear_value x5
      exact ite_keep (ih (k8 _ k7)) (ite_keep (ih (k8 _ (by exact State.zeroGran_kept k7))) h)

theorem State.noteBad_kept {r s : State} {x : Nat × Nat} (h : Kept r s) : Kept r (s.noteBad x) := by
  unfold State.noteBad
  extract_lets -underBinder -useContext x1 x2
  clear_value x1
  have k3 : Kept r x2 := State.logSector_kept h
  clear_value x2
  split
  · exact State.recTen_kept k3
  · exact k3

theorem State.replaceDir_kept {r s : State} {dst : Nat} (h : Kept r s) : Kept r (s.replaceDir dst) := by
  unfold State.replaceDir
  refine Kept.foldl (fun y1 y2 k3 => ?_) h
  extract_lets -underBinder -useContext x4 x5 x6
  clear_value x4 x5 x6
  exact ite_keep k3 (State.putDir_kept k3)

theorem State.renameGran_kept {r s : State} {src dst : Nat} (h : Kept r s) : Kept r (s.renameGran src dst) := by
  unfold State.renameGran
  extract_lets -underBinder -useContext x1 x2 x3 x4 x5 x6 x7 x8 x9
  clear_value x1 x2 x5 x6
  have k10 : Kept r x9 := h
  clear_value x9
  exact State.replaceDir_kept k10

theorem State.moveGranule_kept {r s : State} {src dst : Nat}
    {errors : List (Nat × Nat)} (h : Kept r s) : Kept r (s.moveGranule src dst errors) := by
  unfold State.moveGranule
  extract_lets -underBinder -useContext x1 x2 x3 x4 x5 x6 x7 x8 x9 x10
  clear_value x1
  have k11 : Kept r x2 := Kept.foldl (fun y12 y13 k14 => State.noteBad_kept k14) h
  clear_value x2 x3 x4 x5 x6
  have k15 : Kept r x8 := Kept.moveMem k11 rfl rfl rfl
  clear_value x8
  have k16 : Kept r x9 := State.putGran_kept (State.renameGran_kept k15)
  clear_value x9
  have k17 : Kept r x10 := State.touchGran_kept (State.touchGran_kept (State.putGran_kept k16))
  clear_value x10
  exact Kept.foldl (fun y18 y19 k20 => State.poisonSector_kept k20) k17

theorem State.granuleCopied_kept {r s : State}
    {errors : List (Nat × Nat)} (h : Kept r s) : Kept r (s.granuleCopied errors) := by
  unfold State.granuleCopied
  extract_lets -underBinder -useContext x1
  have k2 : Kept r x1 := State.passFree_kept h
  clear_value x1
  split
  · exact k2
  · refine ite_keep (State.migrationCheck_kept k2) ?_
    extract_lets -underBinder -useContext x3 x4
    clear_value x3 x4
    split
    · exact ite_keep k2 (State.recOp_kept k2)
    · refine ite_keep k2 ?_
      extract_lets -underBinder -useContext x5 x6 x7 x8 x9
      clear_value x5
      have k10 : Kept r x6 := State.invalidate_kept (State.moveGranule_kept k2)
      clear_value x6
      have k11 : Kept r x8 := k10
      clear_value x8
      have k12 : Kept r x9 := by
        unfold x9
        split
        · refine ite_keep k11 ?_
          extract_lets -underBinder -useContext x13 x14
          clear_value x13 x14
          exact State.mirrorOut_kept k11
        · exact k11
      clear_value x9
      exact State.migrationCheck_kept (State.passFree_kept k12)

theorem State.granuleZeroed_kept {r s : State} {g : Nat} (h : Kept r s) : Kept r (s.granuleZeroed g) := by
  unfold State.granuleZeroed
  extract_lets -underBinder -useContext x1 x2 x3
  clear_value x1 x2
  have k4 : Kept r x3 := State.zeroGran_kept h
  clear_value x3
  exact ite_keep (State.later_kept (ite_keep (State.setGran_kept k4) (State.putGran_kept k4))) h

theorem State.halt_kept {r s : State} {cause : Nat} (h : Kept r s) : Kept r (s.halt cause) := by
  unfold State.halt
  refine ite_keep h ?_
  extract_lets -underBinder -useContext x1 x2 x3 x4
  have k5 : Kept r x2 := State.recOp_kept h
  clear_value x2
  have k6 : Kept r x3 := Kept.foldl (fun y7 y8 k9 => State.portDown_kept k9) k5
  clear_value x3
  exact k6

theorem State.handshakeTimeout_kept {r s : State} {sid : Nat} (h : Kept r s) : Kept r (s.handshakeTimeout sid) := by
  unfold State.handshakeTimeout
  split
  · exact ite_keep h h
  · exact h

theorem State.helloWhole_kept {r s : State} {port ver : Nat} {role : Role}
    {tenant keyHash : Nat} (h : Kept r s) : Kept r (s.helloWhole port ver role tenant keyHash) := by
  unfold State.helloWhole
  exact State.whole_kept h (fun y1 k2 => ite_keep (State.ccpHello_kept k2) k2)

theorem State.holdOver_kept {r s : State} {p : Nat} (h : Kept r s) : Kept r (s.holdOver p) := by
  unfold State.holdOver
  extract_lets -underBinder -useContext x1
  clear_value x1
  exact ite_keep (State.putPort_kept h) h

end Sys2Proof.Machine
end

