-- ==== Sys2Proof/Laws/Kept/Part8.lean ====
section
/-! SUPPORT. Part8.lean: what each operation of the machine keeps (Laws/Kept.lean), one lemma per definition, in the
order in which they call each other. -/

namespace Sys2Proof.Machine

theorem State.identInForce_kept {r s : State} {asid : Nat} (h : Kept r s) : Kept r (s.identInForce asid) := by
  unfold State.identInForce
  split
  · exact h
  · refine ite_keep h ?_
    extract_lets -underBinder -useContext x1 x2 x3 x4 x5 x6 x7
    clear_value x1 x2
    have k8 : Kept r x3 := State.putSpace_kept h
    clear_value x3
    have k9 : Kept r x4 := State.dropSpaces_kept k8
    clear_value x4
    have k10 : Kept r x5 := Kept.foldl (fun y11 y12 k13 => State.invalidate_kept k13) k9
    clear_value x5
    have k14 : Kept r x6 := ite_keep k10 (State.invalidate_kept k10)
    clear_value x6
    have k15 : Kept r x7 := State.later_kept k14
    clear_value x7
    split
    · exact State.respondOk_kept k15
    · exact k15

theorem State.idleFlit_kept {r s : State} {p : Nat} {f : Flit} (h : Kept r s) : Kept r (s.idleFlit p f) := by
  unfold State.idleFlit
  extract_lets -underBinder -useContext x1 x2
  clear_value x1
  have k3 : Kept r x2 := State.putPort_kept h
  clear_value x2
  refine ite_keep h ?_
  split
  · extract_lets -underBinder -useContext x4 x5
    clear_value x4
    have k6 : Kept r x5 := State.modPort_kept k3
    clear_value x5
    exact ite_keep (State.modPort_kept k3) (State.takeNak_kept k6)
  · exact State.badFlit_kept k3

theorem State.idleHubs_kept {r s : State} (h : Kept r s) : Kept r s.idleHubs := by
  unfold State.idleHubs
  refine Kept.foldl (fun y1 y2 k3 => ?_) h
  extract_lets -underBinder -useContext x4
  have k5 : Kept r x4 := ite_keep (State.chargeUnits_kept k3) k3
  clear_value x4
  exact State.later_kept k5

theorem State.idleRounds_kept {r s : State} (h : Kept r s) : Kept r s.idleRounds := by
  unfold State.idleRounds
  exact Kept.foldl (fun y1 y2 k3 => ite_keep (State.later_kept (State.chargeUnits_kept k3)) k3) h

theorem State.importFails_kept {r s : State} {ext : Nat} {m : Import} (h : Kept r s) : Kept r (s.importFails ext m) := by
  unfold State.importFails
  extract_lets -underBinder -useContext x1
  have k2 : Kept r x1 := State.importEnds_kept h
  clear_value x1
  exact State.importCheck_kept (State.putImport_kept k2)

theorem State.invalAck_kept {r s : State} {id engine : Nat} (h : Kept r s) : Kept r (s.invalAck id engine) := by
  unfold State.invalAck
  split
  · exact h
  · exact ite_keep h (State.dropEntries_kept (State.putInval_kept h))

theorem State.invalSlow_kept {r s : State} {id : Nat} (h : Kept r s) : Kept r (s.invalSlow id) := by
  unfold State.invalSlow
  split
  · exact h
  · exact ite_keep h (State.recOp_kept (State.putInval_kept h))

theorem State.issueTile_kept {r s : State} {sid : Nat} (h : Kept r s) : Kept r (s.issueTile sid) := by
  unfold State.issueTile
  split
  · exact h
  · refine ite_keep h ?_
    split
    · exact h
    · extract_lets -underBinder -useContext x1 x2 x3
      clear_value x1 x2 x3
      exact State.enterTile_kept h

theorem State.placeRanks_kept {r s : State} (h : Kept r s) : Kept r s.placeRanks := by
  unfold State.placeRanks
  extract_lets -underBinder -useContext x1 x2 x3 x4 x5 x6 x7
  clear_value x1 x2 x3 x4 x5 x6
  exact h

theorem State.loadMasks_kept {r s : State} (h : Kept r s) : Kept r s.loadMasks := by
  unfold State.loadMasks
  split
  · exact h
  · extract_lets -underBinder -useContext x1 x2
    clear_value x1
    exact ite_keep h (State.recOp_kept h)

theorem State.loadConfig_kept {r s : State} {v : BootVerdict} (h : Kept r s) : Kept r (s.loadConfig v) := by
  unfold State.loadConfig
  extract_lets -underBinder -useContext x1 x2 x3 x4 x5 x6 x7 x8 x9 x10 x11 x12 x13 x14
  clear_value x1 x2
  have k15 : Kept r x5 := h
  clear_value x5
  have k16 : Kept r x6 := ite_keep k15 (State.recOp_kept k15)
  clear_value x6 x7 x8 x11 x12
  have k17 : Kept r x14 := k16
  clear_value x14
  exact State.pairBoot_kept (State.placeRanks_kept (State.loadMasks_kept k17))

theorem State.resumeHss_kept {r s : State} {readable : Bool} (h : Kept r s) : Kept r (s.resumeHss readable) := by
  have l := h.leaves
  have o := h.onward
  unfold LeavesKept at l
  unfold State.resumeHss
  refine ite_keep ⟨h.pending, ⟨o.1, Nat.le_trans o.2.1 l.1, o.2.2⟩, h.formats, h.wf, h.queues, ?_⟩
    ⟨h.pending, ⟨o.1, Nat.le_trans o.2.1 ?_, o.2.2⟩, h.formats, h.wf, h.queues, ?_⟩ <;>
    dsimp only [LeavesKept] <;> omega

theorem State.recover_kept {r s : State} {ok : Bool} (h : Kept r s) : Kept r (s.recover ok) := by
  unfold State.recover
  refine ite_keep (State.startBoot_kept h) ?_
  extract_lets -underBinder -useContext x1 x2 x3 x4 x5
  have k6 : PairAll Any (Kept r) x1 := State.draw_kept h
  clear_value x1
  have k7 : PairAll Any (Kept r) x2 := State.draw_kept k6.2
  clear_value x2
  have k8 : PairAll Any (Kept r) x3 := State.draw_kept k7.2
  clear_value x3
  have k9 : Kept r x4 := State.setSlot_kept k8.2
  clear_value x4
  exact State.startBoot_kept (State.writeSlots_kept k9)

theorem State.keBoot_kept {r s : State} {v : BootVerdict} (h : Kept r s) : Kept r (s.keBoot v) := by
  unfold State.keBoot
  refine ite_keep h ?_
  split
  · extract_lets -underBinder -useContext x1 x2 x3 x4 x5 x6 x7 x8 x9 x10
    have k11 : ∀ (s : State), Kept r s → ∀ (was now : Nat), Kept r (x1 s was now) := by
      unfold x1
      intro y12 k13 y14 y15
      exact ite_keep k13 (State.recOp_kept k13)
    clear_value x1 x2
    have k16 : Kept r x3 := k11 _ (by exact k11 _ h _ _) _ _
    clear_value x3
    have k17 : Kept r x5 := ite_keep k16 (State.writeSlots_kept k16)
    clear_value x5
    have k18 : Kept r x10 := k17
    clear_value x10
    exact State.loadConfig_kept (State.resumeHss_kept k18)
  · exact State.recover_kept h

theorem State.keDone_kept {r s : State} (h : Kept r s) : Kept r s.keDone := by
  unfold State.keDone
  refine ite_keep h ?_
  extract_lets -underBinder -useContext x1 x2 x3
  have k4 : Kept r x3 := h
  clear_value x3
  split
  · extract_lets -underBinder -useContext x5 x6
    have k7 : Kept r x6 := k4
    clear_value x6
    exact ite_keep (State.activateMgmt_kept k7) k7
  · exact k4

theorem State.keySlotErase_kept {r s : State} {t : Nat} (h : Kept r s) : Kept r (s.keySlotErase t) := by
  unfold State.keySlotErase
  split
  · exact h
  · exact ite_keep h (ite_keep (State.eraseKeys_kept h) (State.endObjects_kept h))

theorem State.laserFault_kept {r s : State} {engine : Nat} (h : Kept r s) : Kept r (s.laserFault engine) := by
  unfold State.laserFault; exact Kept.foldl (fun y1 y2 k3 => State.portDown_kept k3) h

theorem State.leaseLapse_kept {r s : State} (h : Kept r s) : Kept r s.leaseLapse := by
  unfold State.leaseLapse; exact ite_keep (State.fenceUnit_kept h) h

theorem State.levelDone_kept {r s : State} (h : Kept r s) : Kept r s.levelDone := by
  unfold State.levelDone; exact State.relevel_kept h

theorem State.linkDecision_kept {r s : State} {estimate : Nat} (h : Kept r s) : Kept r (s.linkDecision estimate) := by
  unfold State.linkDecision
  extract_lets -underBinder -useContext x1 x2 x3 x4 x5 x6 x7
  clear_value x1 x2 x3
  have k8 : Kept r x4 := h
  clear_value x4 x5 x6 x7
  exact ite_keep k8 (ite_keep (Kept.foldl (fun y9 y10 k11 => State.retrain_kept k11) k8) (Kept.foldl
      (fun y12 y13 k14 => State.retrain_kept k14) k8))

theorem State.loadRails_kept {r s : State} (h : Kept r s) : Kept r s.loadRails := by
  unfold State.loadRails
  split
  · exact h
  · exact h

theorem State.lostSweep_kept {r s : State} {h : Nat} (hk : Kept r s) : Kept r (s.lostSweep h) := by
  unfold State.lostSweep; exact ite_keep (State.lineArrive_kept hk) hk

theorem State.mappingMark_kept {r s : State} {asid va : Nat} (h : Kept r s) : Kept r (s.mappingMark asid va) := by
  unfold State.mappingMark
  split
  · exact h
  · exact ite_keep h (State.invalidate_kept h)

theorem State.tenantMark_kept {r s : State} {t : Nat} (h : Kept r s) : Kept r (s.tenantMark t) := by
  unfold State.tenantMark
  split
  · exact h
  · exact ite_keep h (State.endObjects_kept (State.putTenant_kept h))

theorem State.markInForce_kept {r s : State} {m : MarkOf} (h : Kept r s) : Kept r (s.markInForce m) := by
  unfold State.markInForce
  split
  · exact State.extentMark_kept h
  · exact State.mappingMark_kept h
  · exact State.tenantMark_kept h

theorem State.releaseHeld_kept {r s : State} (h : Kept r s) : Kept r s.releaseHeld := by
  unfold State.releaseHeld
  refine .foldl (fun z a hz => ?_) (.foldl (fun z a hz => State.enqueue_kept hz) (h.ofLog h.queues rfl rfl))
  cases a with
  | operator => exact hz.ofLog (hz.queues.op hz.queues.1) rfl rfl
  | tenant t => exact hz.ofLog (hz.queues.adjust fun _ => rfl) rfl rfl

theorem State.mgmtRestarted_kept {r s : State} (h : Kept r s) : Kept r s.mgmtRestarted := by
  unfold State.mgmtRestarted
  split
  · exact h
  · exact State.releaseHeld_kept h

theorem State.mgmtStart_kept {r s : State} (h : Kept r s) : Kept r s.mgmtStart := by
  unfold State.mgmtStart
  refine ite_keep h ?_
  extract_lets -underBinder -useContext x1 x2 x3 x4 x5 x6
  clear_value x1
  have k7 : Kept r x6 := h
  clear_value x6
  exact State.relevel_kept (State.loadRails_kept k7)

theorem State.mgmtWatchdog_kept {r s : State} (h : Kept r s) : Kept r s.mgmtWatchdog := by
  unfold State.mgmtWatchdog; exact ite_keep (State.beginMgmtReset_kept h) h

theorem State.mirrorTimeout_kept {r s : State} {tag : Nat} (h : Kept r s) : Kept r (s.mirrorTimeout tag) := by
  unfold State.mirrorTimeout
  split
  · exact h
  · extract_lets -underBinder -useContext x1
    clear_value x1
    exact ite_keep (State.renew_kept h) h

theorem State.mowSlot_kept {r s : State} {k n cls : Nat}
    {ahead : Bool} (h : Kept r s) : OptAll (Kept r) (s.mowSlot k n cls ahead) := by
  unfold State.mowSlot
  extract_lets -underBinder -useContext x1
  clear_value x1
  exact ite_keep trivial (ite_keep (State.takeSlot_kept h) trivial)

theorem State.rewriteSector_kept {r s : State} {n : Nat} (h : Kept r s) : Kept r (s.rewriteSector n) := by
  unfold State.rewriteSector
  extract_lets -underBinder -useContext x1 x2 x3
  clear_value x1 x2
  have k4 : Kept r x3 := State.touch_kept (State.putSector_kept h)
  clear_value x3
  refine ite_keep h ?_
  split
  · exact ite_keep (State.mirrorOut_kept k4) k4
  · exact k4

theorem State.mowSector_kept {r s : State} {n : Nat} {e1 e2 : ReadErr} (h : Kept r s) : Kept r (s.mowSector n e1 e2) := by
  unfold State.mowSector
  extract_lets -underBinder -useContext x1 x2
  have k3 : Kept r x1 := State.onDie_kept (State.onDie_kept h)
  clear_value x1
  have k4 : PairAll Any (Kept r) x2 := ite_keep (State.askMirror_kept k3) ⟨trivial, k3⟩
  clear_value x2
  exact ite_keep k4.2 (State.rewriteSector_kept (((State.readSector_kept k3).2).2))

theorem State.mowRead_kept {r s : State} {k : Nat} {e1 e2 : ReadErr} (h : Kept r s) : Kept r (s.mowRead k e1 e2) := by
  unfold State.mowRead
  extract_lets -underBinder -useContext x1
  clear_value x1
  refine ite_keep h ?_
  split
  · rename_i z2 z3 e4
    have k5 : OptAll (Kept r) (s.mowSlot k z3 (s.slotClass ((s.granOwner (sectorGran z3)).getD 0)) true) :=
        State.mowSlot_kept h
    split
    · rename_i z6 z7 e8
      have k9 := via e8 k5
      have k10 : Kept r z7 := k9
      exact State.mowSector_kept k10
    · rename_i z11 e12
      have k13 := via e12 k5
      exact h
  · extract_lets -underBinder -useContext x14
    clear_value x14
    split
    · exact h
    · rename_i z15 e16 z17 z18 e19
      have k20 : OptAll (Kept r) (s.mowSlot k (deviceSector k z18) 65535 (s.mowLate k)) := State.mowSlot_kept h
      split
      · rename_i z21 e22
        have k23 := via e22 k20
        exact h
      · rename_i z24 z25 e26
        have k27 := via e26 k20
        have k28 : Kept r z25 := k27
        exact State.mowSector_kept (State.modStack_kept k28)

theorem State.noticeSend_kept {r s : State} {sid : Nat} (h : Kept r s) : Kept r (s.noticeSend sid) := by
  unfold State.noticeSend
  split
  · exact h
  · refine ite_keep ?_ h
    extract_lets -underBinder -useContext x1
    have k2 : Kept r x1 := State.putSession_kept h
    clear_value x1
    exact State.numberFrames_kept (State.emit_kept k2)

theorem State.nudge_kept {r s : State} {v top : Nat} (h : Kept r s) : PairAll Any (Kept r) (s.nudge v top) := by
  unfold State.nudge
  extract_lets -underBinder -useContext x1
  have k2 : PairAll Any (Kept r) x1 := State.draw_kept h
  clear_value x1
  exact ⟨trivial, k2.2⟩

theorem State.outstExpiry_kept {r s : State}
    {p src tag tgen : Nat} (h : Kept r s) : Kept r (s.outstExpiry p src tag tgen) := by
  unfold State.outstExpiry; exact State.modPort_kept h

theorem State.packetOn_kept {r s : State} {op : Nat} {p : Packet}
    {x : Inner} (h : Kept r s) : Kept r (s.packetOn op p x) := by
  unfold State.packetOn; exact ite_keep (State.packetIn_kept h) h

theorem State.pairSilence_kept {r s : State} (h : Kept r s) : Kept r s.pairSilence := by
  unfold State.pairSilence
  refine ite_keep h ?_
  split
  · exact State.standbyClaims_kept h
  · exact State.becomeOut_kept h
  · exact h

theorem State.parityError_kept {r s : State} {k rank : Nat} (h : Kept r s) : Kept r (s.parityError k rank) := by
  unfold State.parityError
  extract_lets -underBinder -useContext x1 x2 x3 x4 x5
  clear_value x1 x2 x3
  have k6 : Kept r x4 := Kept.foldl (fun y7 y8 k9 => State.carryOut_kept k9) (State.modStack_kept (State.rankNow_kept h))
  clear_value x4
  exact State.later_kept k6

theorem State.pauseExpiry_kept {r s : State} {sid cmdId : Nat} (h : Kept r s) : Kept r (s.pauseExpiry sid cmdId) := by
  unfold State.pauseExpiry
  extract_lets -underBinder -useContext x1
  have k2 : ∀ (s : State), Kept r s → ∀ (p : Nat), Kept r (x1 s p) := by
    unfold x1
    intro y3 k4 y5
    extract_lets -underBinder -useContext x6 x7
    clear_value x6 x7
    exact State.putEth_kept k4
  clear_value x1
  exact k2 _ (by exact k2 _ h _) _

theorem State.pchRun_kept {r s : State} {k p a : Nat} (h : Kept r s) : Kept r (s.pchRun k p a) := by
  induction a generalizing s k p with
  | zero =>
    unfold State.pchRun
    exact h
  | succ n ih =>
    unfold State.pchRun
    refine ite_keep h ?_
    split
    · exact h
    · split
      · exact h
      · extract_lets -underBinder -useContext x1 x2
        have k3 : Kept r x1 := OptAll.getD (State.takeSlot_kept h) h
        clear_value x1
        have k4 : Kept r x2 := State.modPch_kept k3
        clear_value x2
        exact ih (State.carryOut_kept k4)

theorem State.peerWait_kept {r s : State} (h : Kept r s) : Kept r s.peerWait := by
  unfold State.peerWait; exact ite_keep (State.claimLease_kept h) h

theorem State.pfcRepeat_kept {r s : State} {p : Nat} (h : Kept r s) : Kept r (s.pfcRepeat p) := by
  unfold State.pfcRepeat
  extract_lets -underBinder -useContext x1
  clear_value x1
  exact ite_keep (State.emit_kept (State.putEth_kept h)) h

theorem State.putPin_kept {r s : State} {k p i : Nat} {v : Pin} (h : Kept r s) : Kept r (s.putPin k p i v) := by
  unfold State.putPin; exact State.modPch_kept h

theorem State.runPch_kept {r s : State} {k p : Nat} (h : Kept r s) : Kept r (s.runPch k p) := by
  unfold State.runPch; exact State.pchRun_kept h

theorem State.runStack_kept {r s : State} {k : Nat} (h : Kept r s) : Kept r (s.runStack k) := by
  unfold State.runStack
  extract_lets -underBinder -useContext x1 x2 x3
  have k4 : Kept r x1 := Kept.foldl (fun y5 y6 k7 => State.runPch_kept k7) h
  clear_value x1 x2
  exact State.later_kept k4

theorem State.pgenDone_kept {r s : State} {k p : Nat}
    {mismatches : List Nat} (h : Kept r s) : Kept r (s.pgenDone k p mismatches) := by
  unfold State.pgenDone
  extract_lets -underBinder -useContext x1 x2 x3 x4 x5
  clear_value x1 x2
  have k6 : Kept r x3 := by
    unfold x3
    refine ite_keep h (Kept.foldl (fun y7 y8 k9 => ?_) h)
    extract_lets -underBinder -useContext x10
    clear_value x10
    exact ite_keep k9 (State.putPin_kept k9)
  clear_value x3
  have k11 : Kept r x4 := State.modPch_kept k6
  clear_value x4
  have k12 : Kept r x5 := by
    unfold x5
    split
    · exact State.respondOk_kept k11
    · exact k11
  clear_value x5
  exact ite_keep h (State.runStack_kept k12)

theorem State.raise_kept {r s : State} {c : LevelChange} (h : Kept r s) : Kept r (s.raise c) := by
  unfold State.raise
  exact ite_keep (ite_keep (State.levelDone_kept h) (State.levelDone_kept h)) h

theorem State.pllLock_kept {r s : State} (h : Kept r s) : Kept r s.pllLock := by
  unfold State.pllLock
  split
  · exact h
  · refine ite_keep h (ite_keep ?_ (State.raise_kept h))
    extract_lets -underBinder -useContext x1 x2
    have k3 : Kept r x2 := h
    clear_value x2
    exact ite_keep (State.levelDone_kept k3) (State.writeVolt_kept k3)

theorem State.pmbAlert_kept {r s : State} (h : Kept r s) : Kept r s.pmbAlert := by
  unfold State.pmbAlert; exact h

theorem State.policeRefill_kept {r s : State} (h : Kept r s) : Kept r s.policeRefill := by
  unfold State.policeRefill; exact h

theorem State.populationDone_kept {r s : State} {asid v : Nat} (h : Kept r s) : Kept r (s.populationDone asid v) := by
  unfold State.populationDone
  split
  · exact h
  · split
    · exact h
    · extract_lets -underBinder -useContext x1
      have k2 : Kept r x1 := State.putSpace_kept h
      clear_value x1
      exact State.later_kept k2

theorem State.populationTick_kept {r s : State} (h : Kept r s) : Kept r s.populationTick := by
  unfold State.populationTick
  refine Kept.foldl (fun y1 y2 k3 => Kept.foldl (fun y4 y5 k6 => ?_) k3) h
  extract_lets -underBinder -useContext x7 x8 x9
  clear_value x7 x8
  have k10 : Kept r x9 := by
    unfold x9
    split
    · exact State.putSpace_kept k6
    · exact k6
  clear_value x9
  exact ite_keep k6 (State.later_kept k10)

theorem State.populationWait_kept {r s : State} {src tag : Nat} (h : Kept r s) : Kept r (s.populationWait src tag) := by
  unfold State.populationWait
  split
  · extract_lets -underBinder -useContext x1
    have k2 : Kept r x1 := State.putSpace_kept h
    clear_value x1
    split
    · exact State.complete_kept k2
    · exact State.later_kept k2
    · exact k2
    · exact k2
    · exact k2
  · exact h

theorem State.portLight_kept {r s : State} {p : Nat} (h : Kept r s) : Kept r (s.portLight p) := by
  unfold State.portLight
  extract_lets -underBinder -useContext x1 x2
  have k3 : Kept r x1 := State.modPort_kept h
  clear_value x1 x2
  exact ite_keep (State.putPort_kept k3) k3

theorem State.powerPeriod_kept {r s : State} {m : PowerSample} (h : Kept r s) : Kept r (s.powerPeriod m) := by
  unfold State.powerPeriod
  extract_lets -underBinder -useContext x1 x2 x3 x4 x5 x6 x7 x8 x9 x10 x11 x12 x13 x14 x15 x16 x17 x18 x19 x20 x21 x22
      x23 x24 x25 x26 x27 x28
  clear_value x1 x2 x3 x4 x5 x6
  have k29 : Kept r x8 := h
  clear_value x8 x9 x10 x11
  have k30 : Kept r x13 := State.recOp_kept k29
  clear_value x13
  have k31 : Kept r x14 := ite_keep (Kept.foldl (fun y32 y33 k34 => State.recTen_kept k34) k30) k29
  clear_value x14 x15
  have k35 : Kept r x16 := ite_keep (State.recOp_kept k31) k31
  clear_value x16 x17 x18 x19 x20 x21 x22 x23 x24 x25 x26 x27
  exact k35

theorem State.putIssued_kept {r s : State} {k : Nat} {v : Issued} (h : Kept r s) : Kept r (s.putIssued k v) := by
  unfold State.putIssued; exact h

theorem State.railRead_kept {r s : State} {i : Nat} {mw : Option Nat} (h : Kept r s) : Kept r (s.railRead i mw) := by
  unfold State.railRead
  split
  · exact h
  · extract_lets -underBinder -useContext x1 x2 x3 x4 x5 x6 x7 x8 x9 x10
    clear_value x1 x2 x3 x4 x5 x6 x7 x8 x9
    exact ite_keep (State.recOp_kept h) (ite_keep (State.recOp_kept h) h)

theorem State.rankWindow_kept {r s : State} (h : Kept r s) : Kept r s.rankWindow := by
  unfold State.rankWindow; exact State.rankNow_kept h

theorem State.reachTimeout_kept {r s : State} {n : Nat} (h : Kept r s) : Kept r (s.reachTimeout n) := by
  unfold State.reachTimeout
  extract_lets -underBinder -useContext x1
  clear_value x1
  exact ite_keep (State.nodeLost_kept h) h

theorem State.recallTimeout_kept {r s : State} {ext page : Nat} (h : Kept r s) : Kept r (s.recallTimeout ext page) := by
  unfold State.recallTimeout
  split
  · exact h
  · exact ite_keep (State.revert_kept h) h

theorem State.refreshBank_kept {r s : State}
    {k p rank bank : Nat} (h : Kept r s) : Kept r (s.refreshBank k p rank bank) := by
  unfold State.refreshBank
  extract_lets -underBinder -useContext x1 x2 x3 x4
  clear_value x1 x2 x3
  have k5 : ∀ (b : DramBank) (cmds : List DramCmd), Kept r (x4 b cmds) := by
    unfold x4
    intro y6 y7
    exact State.putStack_kept h
  clear_value x4
  exact ite_keep h (ite_keep (k5 _ _) (k5 _ _))

theorem State.rekeyStart_kept {r s : State} {p : Nat} (h : Kept r s) : Kept r (s.rekeyStart p) := by
  unfold State.rekeyStart
  extract_lets -underBinder -useContext x1
  clear_value x1
  exact ite_keep (State.keyNextOut_kept h) h

theorem State.releaseWaiting_kept {r s : State} (h : Kept r s) : Kept r s.releaseWaiting := by
  unfold State.releaseWaiting; exact Kept.foldl (fun y1 y2 k3 => State.classify_kept k3) h

theorem State.renewTimer_kept {r s : State} (h : Kept r s) : Kept r s.renewTimer := by
  unfold State.renewTimer
  extract_lets -underBinder -useContext x1 x2
  clear_value x1
  exact ite_keep (State.renew_kept h) h

theorem State.replayTimeout_kept {r s : State} {p : Nat} (h : Kept r s) : Kept r (s.replayTimeout p) := by
  unfold State.replayTimeout
  extract_lets -underBinder -useContext x1
  clear_value x1
  exact ite_keep (State.replay_kept h) h

theorem State.resetAssert_kept {r s : State} (h : Kept r s) : Kept r s.resetAssert := by
  unfold State.resetAssert; exact State.setResetN_kept (State.coldReset_kept h)

theorem State.retrainDone_kept {r s : State} {p : Nat} (h : Kept r s) : Kept r (s.retrainDone p) := by
  unfold State.retrainDone
  extract_lets -underBinder -useContext x1 x2
  clear_value x1 x2
  exact ite_keep h (State.putPort_kept h)

theorem State.retrainPin_kept {r s : State} {k p : Nat} {e : PinEye} (h : Kept r s) : Kept r (s.retrainPin k p e) := by
  unfold State.retrainPin
  extract_lets -underBinder -useContext x1 x2 x3
  have k4 : PairAll Any (Kept r) x1 := State.draw_kept h
  clear_value x1 x2 x3
  exact State.putPin_kept k4.2

theorem State.retrainEnd_kept {r s : State} {k p : Nat} {passed : Bool}
    {eyes : List PinEye} (h : Kept r s) : Kept r (s.retrainEnd k p passed eyes) := by
  unfold State.retrainEnd
  extract_lets -underBinder -useContext x1 x2 x3
  have k4 : Kept r x1 := State.modPch_kept h
  clear_value x1
  have k5 : Kept r x2 := Kept.foldl (fun y6 y7 k8 => State.putPin_kept k8) k4
  clear_value x2
  have k9 : Kept r x3 := ite_keep (Kept.foldl (fun y10 y11 k12 => State.retrainPin_kept k12) k5) (State.recOp_kept k5)
  clear_value x3
  exact State.runStack_kept k9

theorem State.retrainSlice_kept {r s : State} {k p : Nat} {starts passed : Bool}
    {eyes : List PinEye} (h : Kept r s) : Kept r (s.retrainSlice k p starts passed eyes) := by
  unfold State.retrainSlice
  extract_lets -underBinder -useContext x1 x2
  clear_value x1 x2
  split
  · exact ite_keep (State.retrainEnd_kept h) h
  · refine ite_keep ?_ (ite_keep h (ite_keep (State.retrainEnd_kept h) (State.runStack_kept (State.modPch_kept h))))
    extract_lets -underBinder -useContext x3
    clear_value x3
    exact ite_keep h (State.modPch_kept h)

theorem State.retrainTick_kept {r s : State} {k p : Nat} (h : Kept r s) : Kept r (s.retrainTick k p) := by
  unfold State.retrainTick
  split
  · exact h
  · exact ite_keep (State.retrainEnd_kept h) (ite_keep (State.runStack_kept (State.modPch_kept h)) h)

theorem State.retrainTimeout_kept {r s : State} {p : Nat} (h : Kept r s) : Kept r (s.retrainTimeout p) := by
  unfold State.retrainTimeout
  extract_lets -underBinder -useContext x1
  clear_value x1
  exact ite_keep (State.portDown_kept h) h

theorem State.rotationDone_kept {r s : State} {t : Nat} (h : Kept r s) : Kept r (s.rotationDone t) := by
  unfold State.rotationDone
  split
  · exact h
  · extract_lets -underBinder -useContext x1
    clear_value x1
    exact ite_keep h (State.recTen_kept (State.putTenant_kept h))

theorem State.runningReport_kept {r s : State} (h : Kept r s) : Kept r s.runningReport := by
  unfold State.runningReport; exact ite_keep (State.writeSlots_kept h) h

theorem State.scoreRelease_kept {r s : State} {sid i : Nat} (h : Kept r s) : Kept r (s.scoreRelease sid i) := by
  unfold State.scoreRelease
  split
  · exact h
  · split
    · exact h
    · refine ite_keep h ?_
      extract_lets -underBinder -useContext x1 x2 x3
      clear_value x1 x2 x3
      split
      · exact State.endTile_kept h
      · extract_lets -underBinder -useContext x4
        clear_value x4
        exact State.later_kept (State.modTile_kept h)

theorem State.toQueue_kept {r s : State} {k n : Nat} {op : SecOp} (h : Kept r s) : Kept r (s.toQueue k n op) := by
  unfold State.toQueue
  extract_lets -underBinder -useContext x1 x2 x3
  clear_value x1 x2
  have k4 : Kept r x3 := State.modStack_kept h
  clear_value x3
  exact State.runPch_kept k4

theorem State.sectorRead_kept {r s : State} {k m : Nat}
    {e1 e2 : ReadErr} (h : Kept r s) : Kept r (s.sectorRead k m e1 e2) := by
  unfold State.sectorRead
  extract_lets -underBinder -useContext x1
  clear_value x1
  exact ite_keep h (ite_keep (State.emit_kept h) (State.toQueue_kept h))

theorem State.sectorWrite_kept {r s : State} {k m off : Nat}
    {data : List Byte} (h : Kept r s) : Kept r (s.sectorWrite k m off data) := by
  unfold State.sectorWrite; exact ite_keep h (State.toQueue_kept h)

theorem State.selfEntry_kept {r s : State} {k : Nat} (h : Kept r s) : Kept r (s.selfEntry k) := by
  unfold State.selfEntry
  refine ite_keep h ?_
  extract_lets -underBinder -useContext x1 x2 x3
  have k4 : Kept r x1 := State.runStack_kept (State.modStack_kept h)
  clear_value x1 x2 x3
  exact ite_keep (State.putStack_kept k4) (State.putStack_kept k4)

theorem State.selfExit_kept {r s : State} {k : Nat} {c : Int} (h : Kept r s) : Kept r (s.selfExit k c) := by
  unfold State.selfExit
  extract_lets -underBinder -useContext x1 x2 x3
  clear_value x1 x2 x3
  exact ite_keep h (State.putStack_kept h)

theorem State.sessTimeout_kept {r s : State} {p : Nat} (h : Kept r s) : Kept r (s.sessTimeout p) := by
  unfold State.sessTimeout; exact ite_keep (State.portDown_kept h) h

theorem State.sessionIdle_kept {r s : State} {sid : Nat} (h : Kept r s) : Kept r (s.sessionIdle sid) := by
  unfold State.sessionIdle
  split
  · exact ite_keep (State.endSession_kept h) h
  · exact h

theorem State.setThermal_kept {r s : State} {level : Nat}
    {celsius : Int} (h : Kept r s) : Kept r (s.setThermal level celsius) := by
  unfold State.setThermal
  extract_lets -underBinder -useContext x1 x2 x3
  have k4 : Kept r x2 := h
  clear_value x2 x3
  exact State.relevel_kept (State.recAll_kept k4)

theorem State.sl1Idle_kept {r s : State} {n : Nat} (h : Kept r s) : Kept r (s.sl1Idle n) := by
  unfold State.sl1Idle
  extract_lets -underBinder -useContext x1 x2 x3 x4
  clear_value x1
  have k5 : Kept r x2 := State.modStation_kept h
  clear_value x2 x3
  exact ite_keep h (ite_keep k5 k5)

theorem State.sl2Idle_kept {r s : State} {f : Nat} (h : Kept r s) : Kept r (s.sl2Idle f) := by
  unfold State.sl2Idle
  extract_lets -underBinder -useContext x1 x2 x3
  clear_value x1 x2
  exact ite_keep h h

theorem State.snoopTimeout_kept {r s : State} {h node : Nat} (hk : Kept r s) : Kept r (s.snoopTimeout h node) := by
  unfold State.snoopTimeout
  split
  · exact hk
  · exact Kept.foldl (fun y1 y2 k3 => State.snoopAnswer_kept k3) hk

theorem ccpServe_kept {r : State} {spec : CcpSpec} {body : CcpBody} {c : CcpCmd} {sigOk auxOk : Bool}
    {s : State} (h : ∀ (a : CcpCtx) (a_1 : State), Kept r a_1 → KeptOut r (body a a_1))
    (h1 : Kept r s) : Kept r (ccpServe spec body c sigOk auxOk s) := by
  unfold ccpServe
  refine ite_keep h1 (ite_keep (State.intakeAnswer_kept (State.wakeByFrame_kept h1)) (ite_keep (State.holdFrames_kept
      (State.wakeByFrame_kept h1)) ?_))
  split
  · exact State.countDev_kept h1
  · extract_lets -underBinder -useContext x1
    have k2 : Kept r x1 := State.touchSession_kept (State.wakeByFrame_kept h1)
    clear_value x1
    split
    · exact k2
    · refine ite_keep (State.intakeAnswer_kept k2) (ite_keep (State.intakeAnswer_kept k2) ?_)
      extract_lets -underBinder -useContext x3 x4
      clear_value x3 x4
      refine ite_keep ?_ ?_
      · split
        · exact State.resendKept_kept k2
        · exact State.countDev_kept k2
      · split
        · extract_lets -underBinder -useContext x5
          have k6 : Kept r x5 := State.putSession_kept k2
          clear_value x5
          exact State.intakeAnswer_kept k6
        · extract_lets -underBinder -useContext x7 x8
          clear_value x7
          have k9 : Kept r x8 := State.putMailbox_kept (State.putSession_kept k2)
          clear_value x8
          exact ccpBegin_kept (fun y10 y11 k12 => h _ _ k12) k9

theorem State.spdmServe_kept {r s : State} {c : CcpCmd} (h : Kept r s) : Kept r (s.spdmServe c) := by
  unfold State.spdmServe
  refine ite_keep (ccpServe_kept (fun y1 y2 k3 => bodySpdm_kept k3) h) ?_
  extract_lets -underBinder -useContext x4 x5
  clear_value x4 x5
  exact ite_keep (State.sendResponse_kept (State.wakeByFrame_kept h)) (State.whole_kept h
      (fun y6 k7 => State.preServe_kept k7))

theorem State.stackInit_kept {r s : State} {k : Nat} (h : Kept r s) : Kept r (s.stackInit k) := by
  unfold State.stackInit
  extract_lets -underBinder -useContext x1 x2 x3 x4
  clear_value x1
  have k5 : Kept r x2 := State.putStack_kept h
  clear_value x2
  exact ite_keep h (Kept.zeroMem k5 rfl rfl rfl)

theorem State.stackTemp_kept {r s : State} {k : Nat} {c : Int} (h : Kept r s) : Kept r (s.stackTemp k c) := by
  unfold State.stackTemp
  extract_lets -underBinder -useContext x1 x2 x3 x4
  clear_value x1 x2 x3
  have k5 : Kept r x4 := State.putStack_kept h
  clear_value x4
  exact ite_keep (State.halt_kept k5) k5

theorem State.stackTick_kept {r s : State} (h : Kept r s) : Kept r s.stackTick := by
  unfold State.stackTick
  refine Kept.foldl (fun y1 y2 k3 => ?_) h
  extract_lets -underBinder -useContext x4 x5
  have k6 : Kept r x4 := State.modStack_kept k3
  clear_value x4
  have k7 : Kept r x5 := Kept.foldl (fun y8 y9 k10 => State.retrainTick_kept k10) k6
  clear_value x5
  exact Kept.foldl (fun y11 y12 k13 => State.runPch_kept k13) k7

theorem State.stageDone_kept {r s : State} {a1 : StageResult} (h : Kept r s) : Kept r (s.stageDone a1) := by
  unfold State.stageDone
  split
  · exact h
  · extract_lets -underBinder -useContext x1
    have k2 : ∀ (n : Nat) (found : Bool), Kept r (x1 n found) := by
      unfold x1
      intro y3 y4
      exact State.stageFail_kept h
    clear_value x1
    split
    · rename_i z5 z6 e7 z8 z9 z10 z11 z12 e13
      exact ite_keep (k2 _ _) (Kept.upd (s :=
          s.stageEnd z6 { state := SlotState.bootable, imgVer := z10, secVer := z11, digest := z12 }
          { status := 0, reason := 0, body := [] }) (State.stageEnd_kept h) rfl)
    · refine ite_keep h ?_
      split
      · exact k2 _ _
      · extract_lets -underBinder -useContext x14 x15 x16
        clear_value x14
        have k17 : Kept r x15 := State.stageEnd_kept h
        clear_value x15
        exact k17
    · split
      · exact ite_keep (k2 _ _) (k2 _ _)
      · exact k2 _ _

theorem State.stageTimeout_kept {r s : State} (h : Kept r s) : Kept r s.stageTimeout := by
  unfold State.stageTimeout
  split
  · exact ite_keep (State.stageFail_kept h) h
  · exact h

theorem State.stationReady_kept {r s : State} {n : Nat} (h : Kept r s) : Kept r (s.stationReady n) := by
  unfold State.stationReady
  exact State.releaseAtomics_kept (State.later_kept (State.modStation_kept h))

theorem State.stationTested_kept {r s : State} {f pass : Nat} (h : Kept r s) : Kept r (s.stationTested f pass) := by
  unfold State.stationTested
  refine ite_keep h ?_
  extract_lets -underBinder -useContext x1 x2 x3 x4
  have k5 : Kept r x1 := Kept.foldl (fun y6 y7 k8 => State.modStation_kept k8) h
  clear_value x1
  have k9 : Kept r x4 := k5
  clear_value x4
  exact State.bindAll_kept (State.assignStations_kept k9)

theorem State.stepEnd_kept {r s : State} {n sid i cycles : Nat}
    {check : StepCheck} (h : Kept r s) : Kept r (s.stepEnd n sid i cycles check) := by
  unfold State.stepEnd
  split
  · exact h
  · refine ite_keep h ?_
    split
    · exact State.fenceStation_kept h
    · exact State.fenceStation_kept h
    · split
      · exact h
      · extract_lets -underBinder -useContext x1 x2
        clear_value x1
        have k3 : Kept r x2 := State.chargeCycles_kept h
        clear_value x2
        exact ite_keep k3 (State.stepDone_kept k3)

theorem State.stepPassed_kept {r s : State} {k pins : Nat} (h : Kept r s) : Kept r (s.stepPassed k pins) := by
  unfold State.stepPassed
  extract_lets -underBinder -useContext x1 x2
  clear_value x1
  have k3 : PairAll Any (Kept r) x2 := State.draw_kept h
  clear_value x2
  split
  · exact State.putStack_kept k3.2
  · exact State.putStack_kept k3.2
  · extract_lets -underBinder -useContext x4 x5
    have k6 : Kept r x5 := h
    clear_value x5
    exact State.putStack_kept k6
  · exact State.putStack_kept k3.2
  · exact State.putStack_kept h

theorem State.stepWatchdog_kept {r s : State} {n : Nat} (h : Kept r s) : Kept r (s.stepWatchdog n) := by
  unfold State.stepWatchdog
  split
  · exact ite_keep h (State.fenceStation_kept h)
  · exact h

theorem State.streamIdle_kept {r s : State} {sid : Nat} (h : Kept r s) : Kept r (s.streamIdle sid) := by
  unfold State.streamIdle
  split
  · exact ite_keep (State.cutStream_kept h) h
  · exact h

theorem State.streamRelease_kept {r s : State} {sid : Nat} (h : Kept r s) : Kept r (s.streamRelease sid) := by
  unfold State.streamRelease
  split
  · exact ite_keep (State.countTen_kept (State.freeStream_kept h)) h
  · exact h

theorem State.telemetry_kept {r s : State} {l : List (Option Nat)} (h : Kept r s) : Kept r (s.telemetry l) := by
  unfold State.telemetry; exact Kept.foldl (fun y1 y2 k3 => State.railRead_kept k3) h

theorem State.thermalReading_kept {r s : State} {celsius : Int} (h : Kept r s) : Kept r (s.thermalReading celsius) := by
  unfold State.thermalReading
  refine ite_keep (State.halt_kept h) ?_
  extract_lets -underBinder -useContext x1 x2 x3
  have k3 : Kept r x3 := h
  exact ite_keep (State.setThermal_kept k3) (ite_keep (State.setThermal_kept k3) k3)

theorem State.trackPin_kept {r s : State} {k p : Nat} {e : PinEye} (h : Kept r s) : Kept r (s.trackPin k p e) := by
  unfold State.trackPin
  extract_lets -underBinder -useContext x1 x2 x3
  clear_value x1
  have k4 : PairAll Any (Kept r) x2 := State.nudge_kept h
  clear_value x2 x3
  exact State.putPin_kept k4.2

theorem State.track_kept {r s : State} {k p : Nat} {eyes : List PinEye} (h : Kept r s) : Kept r (s.track k p eyes) := by
  unfold State.track
  extract_lets -underBinder -useContext x1 x2 x3 x4 x5 x6
  clear_value x1
  have k7 : Kept r x2 := Kept.foldl (fun y8 y9 k10 => State.trackPin_kept k10) h
  clear_value x2 x3 x4 x5
  have k11 : Kept r x6 := State.modPch_kept k7
  clear_value x6
  exact ite_keep h (ite_keep k7 (State.runStack_kept k11))

theorem State.trainStep_kept {r s : State} {k : Nat} {passed : Bool}
    {pins : Nat} (h : Kept r s) : Kept r (s.trainStep k passed pins) := by
  unfold State.trainStep
  extract_lets -underBinder -useContext x1 x2 x3 x4
  clear_value x1 x2 x3 x4
  exact ite_keep h (ite_keep (State.stepPassed_kept h) (ite_keep (State.putStack_kept h) (State.failStack_kept h)))

theorem State.trainTimeout_kept {r s : State} {p : Nat} (h : Kept r s) : Kept r (s.trainTimeout p) := by
  unfold State.trainTimeout; exact ite_keep (State.portDown_kept h) h

theorem State.trained_kept {r s : State} {p tNs : Nat} (h : Kept r s) : Kept r (s.trained p tNs) := by
  unfold State.trained
  extract_lets -underBinder -useContext x1 x2 x3 x4 x5
  clear_value x1 x2
  have k6 : Kept r x3 := State.recOp_kept h
  clear_value x3 x4
  have k7 : Kept r x5 := State.putPort_kept h
  clear_value x5
  exact ite_keep h (ite_keep (State.putPort_kept k6) (ite_keep k7 (State.sayFree_kept k7)))

theorem State.trialTimeout_kept {r s : State} (h : Kept r s) : Kept r s.trialTimeout := by
  unfold State.trialTimeout
  split
  · exact h
  · refine ite_keep h ?_
    extract_lets -underBinder -useContext x1 x2
    have k3 : Kept r x2 := State.writeSlots_kept h
    clear_value x2
    exact State.recOp_kept (State.beginMgmtReset_kept k3)

theorem State.vdone_kept {r s : State} (h : Kept r s) : Kept r s.vdone := by
  unfold State.vdone
  split
  · exact h
  · refine ite_keep h ?_
    extract_lets -underBinder -useContext x1 x2
    have k3 : Kept r x2 := h
    clear_value x2
    exact ite_keep (State.levelDone_kept k3) (State.raise_kept k3)

theorem State.wakeDevice_kept {r s : State} (h : Kept r s) : Kept r s.wakeDevice := by
  unfold State.wakeDevice
  refine ite_keep h ?_
  extract_lets -underBinder -useContext x1 x2 x3 x4 x5
  clear_value x1
  have k6 : Kept r x2 := ite_keep (State.dropSegments_kept h) h
  clear_value x2
  have k7 : Kept r x5 := k6
  clear_value x5
  exact State.releaseWaiting_kept k7

theorem State.wakeField_kept {r s : State} {f : Nat} (h : Kept r s) : Kept r (s.wakeField f) := by
  unfold State.wakeField
  refine ite_keep ?_ h
  extract_lets -underBinder -useContext x1 x2
  have k3 : Kept r x2 := h
  clear_value x2
  exact Kept.foldl (fun y4 y5 k6 => State.stationReady_kept k6) k3

theorem State.wakeOn_kept {r s : State} {w : WakeSource} (h : Kept r s) : Kept r (s.wakeOn w) := by
  unfold State.wakeOn
  split
  · exact ite_keep (State.modPort_kept (State.wakeByFrame_kept h)) h
  · exact State.wakeByFrame_kept h
  · exact ite_keep (State.wakeByFrame_kept h) h

theorem State.wakeStation_kept {r s : State} {n : Nat} (h : Kept r s) : Kept r (s.wakeStation n) := by
  unfold State.wakeStation
  extract_lets -underBinder -useContext x1 x2 x3
  clear_value x1
  have k4 : Kept r x2 := State.stationReady_kept h
  clear_value x2
  exact ite_keep k4 h

theorem State.wakeReady_kept {r s : State} {d : WakeDomain} (h : Kept r s) : Kept r (s.wakeReady d) := by
  unfold State.wakeReady
  split
  · exact State.wakeStation_kept h
  · exact State.wakeField_kept h
  · exact State.wakeDevice_kept h

theorem State.walkDone_kept {r s : State} {engine asid va : Nat} (h : Kept r s) : Kept r (s.walkDone engine asid va) := by
  unfold State.walkDone
  split
  · exact h
  · extract_lets -underBinder -useContext x1 x2
    have k3 : Kept r x2 := h
    clear_value x2
    split
    · refine ite_keep k3 ?_
      extract_lets -underBinder -useContext x4 x5
      clear_value x4
      have k6 : Kept r x5 := State.fillL2_kept k3
      clear_value x5
      exact ite_keep k6 (State.fillL1_kept k6)
    · exact k3

theorem State.wbExpiry_kept {r s : State} {h node : Nat} (hk : Kept r s) : Kept r (s.wbExpiry h node) := by
  unfold State.wbExpiry
  split
  · exact hk
  · exact ite_keep hk hk

theorem State.weightChunk_kept {r s : State} {ext : Nat} {plain : List Byte}
    {tagOk : Bool} (h : Kept r s) : Kept r (s.weightChunk ext plain tagOk) := by
  unfold State.weightChunk
  split
  · exact h
  · extract_lets -underBinder -useContext x1
    clear_value x1
    split
    · exact h
    · refine ite_keep h ?_
      extract_lets -underBinder -useContext x2 x3 x4 x5 x6
      have k7 : Kept r x2 := State.putBulk_kept h
      clear_value x2 x3 x4
      have k8 : Kept r x5 := (State.putWrite_kept k7).2
      clear_value x5
      have k9 : PairAll Any (Kept r) x6 := State.mirrorWrites_kept k8
      clear_value x6
      exact ite_keep (State.importFails_kept k7) (State.importCheck_kept (State.putImport_kept k9.2))

theorem State.windowIdle_kept {r s : State} {w : Nat} (h : Kept r s) : Kept r (s.windowIdle w) := by
  unfold State.windowIdle
  split
  · exact ite_keep (State.cutWindow_kept h) h
  · exact h

theorem answer_kept {r t : State} {x : CcpCtx} {body : List Byte} (h : Kept r t) : Kept r (answer t x body) := by
  unfold answer; exact State.settle_kept (State.respond_kept h)

theorem atomicEnd_kept {r t : State} {a1 : Req} {op h n : Nat} {new : Option Nat} {st : Status}
    {ans : Nat} (hk : Kept r t) : Kept r (atomicEnd t a1 op h n new st ans) := by
  unfold atomicEnd
  extract_lets -underBinder -useContext x1
  clear_value x1
  split
  · exact State.lineNext_kept (State.complete_kept hk)
  · extract_lets -underBinder -useContext x2
    clear_value x2
    exact State.lineNext_kept (State.afterWrite_kept ((State.writeSector_kept hk).2))

theorem idleTick_kept {r s : State} (h : Kept r s) : Kept r (idleTick s) := by
  unfold idleTick
  refine ite_keep h ?_
  extract_lets -underBinder -useContext x1 x2
  have k3 : Kept r x2 := h
  clear_value x2
  exact State.settle_kept (State.idleHubs_kept (State.idleRounds_kept (State.releaseTx_kept (State.releaseTx_kept
      (State.echoSecond_kept (State.populationTick_kept (State.cadenceTick_kept (State.stackTick_kept k3))))))))

theorem refused_kept {r t : State} {x : CcpCtx} {a2 : Refuse} (h : Kept r t) : Kept r (refused t x a2) := by
  unfold refused; exact State.settle_kept (State.respond_kept h)

end Sys2Proof.Machine
end

