-- ==== Sys2Proof/Laws/Rows.lean ====
section
/-! SUPPORT. Rows.lean: what every row keeps, said once for each shape of row: a command of a unit, a CCP command, a packet.
(A tick: `idleTick_kept`.) -/

namespace Sys2Proof.Machine

/-- A command of a unit keeps what its effect keeps. -/
theorem effect_kept {r s t : State} {ok : Bool} {f : State → State} (hs : Kept r s) (hf : ∀ x, Kept r x → Kept r (f x))
    (h : effect ok f s = .next t) : Kept r t := by
  unfold effect at h
  split at h
  · cases h
    exact State.after_kept hs hf
  · cases h

/-- A command that acts on a dead device too keeps what its effect keeps. -/
theorem settled_kept {r s t : State} (hs : Kept r s) (h : (Host.Outcome.next s.settle : Out) = .next t) :
    Kept r t := by
  rw [← Host.Outcome.next.inj h]
  exact State.settle_kept hs

/-- A CCP command keeps what its body keeps. -/
theorem ccpRowOf_kept {r s t : State} {spec : CcpSpec} {body : CcpBody} {c : CcpCmd} {a b : Bool} (hs : Kept r s)
    (hb : ∀ x y, Kept r y → KeptOut r (body x y)) (h : ccpRowOf spec body c a b s = .next t) : Kept r t :=
  effect_kept hs (fun _ hx => ccpServe_kept hb hx) h

/-- A packet keeps what its way through the device keeps. -/
theorem kfpRow_kept {r s t : State} {op : Nat} {p : Packet} {x : Inner} (hs : Kept r s) (h : kfpRow op p x s = .next t) :
    Kept r t :=
  effect_kept hs (fun _ hx => State.packetOn_kept hx) h

end Sys2Proof.Machine
end

