-- ==== Sys2Proof/Laws/State.lean ====
section
/-! SUPPORT. State.lean: what each update of the state's tables changes, field by field. -/

namespace Sys2Proof.Machine

/-! putTenant -/
@[simp] theorem State.putTenant_dev (s : State) (k : Nat) (v : Tenant) : (s.putTenant k v).dev = s.dev := rfl
@[simp] theorem State.putTenant_ready (s : State) (k : Nat) (v : Tenant) : (s.putTenant k v).ready = s.ready := rfl
@[simp] theorem State.putTenant_log (s : State) (k : Nat) (v : Tenant) : (s.putTenant k v).log = s.log := rfl
@[simp] theorem State.putTenant_stats (s : State) (k : Nat) (v : Tenant) : (s.putTenant k v).stats = s.stats := rfl
@[simp] theorem State.putTenant_ctl (s : State) (k : Nat) (v : Tenant) : (s.putTenant k v).ctl = s.ctl := rfl
@[simp] theorem State.putTenant_ten (s : State) (k : Nat) (v : Tenant) :
    (s.putTenant k v).ten = { s.ten with tenants := s.ten.tenants.put k v } := rfl
@[simp] theorem State.putTenant_pair (s : State) (k : Nat) (v : Tenant) : (s.putTenant k v).pair = s.pair := rfl
@[simp] theorem State.putTenant_fw (s : State) (k : Nat) (v : Tenant) : (s.putTenant k v).fw = s.fw := rfl
@[simp] theorem State.putTenant_pool (s : State) (k : Nat) (v : Tenant) : (s.putTenant k v).pool = s.pool := rfl
@[simp] theorem State.putTenant_com (s : State) (k : Nat) (v : Tenant) : (s.putTenant k v).com = s.com := rfl
@[simp] theorem State.putTenant_stk (s : State) (k : Nat) (v : Tenant) : (s.putTenant k v).stk = s.stk := rfl
@[simp] theorem State.putTenant_str (s : State) (k : Nat) (v : Tenant) : (s.putTenant k v).str = s.str := rfl
@[simp] theorem State.putTenant_stn (s : State) (k : Nat) (v : Tenant) : (s.putTenant k v).stn = s.stn := rfl
@[simp] theorem State.putTenant_seq (s : State) (k : Nat) (v : Tenant) : (s.putTenant k v).seq = s.seq := rfl
@[simp] theorem State.putTenant_sch (s : State) (k : Nat) (v : Tenant) : (s.putTenant k v).sch = s.sch := rfl
@[simp] theorem State.putTenant_fab (s : State) (k : Nat) (v : Tenant) : (s.putTenant k v).fab = s.fab := rfl
@[simp] theorem State.putTenant_ports (s : State) (k : Nat) (v : Tenant) : (s.putTenant k v).ports = s.ports := rfl
@[simp] theorem State.putTenant_pwr (s : State) (k : Nat) (v : Tenant) : (s.putTenant k v).pwr = s.pwr := rfl
@[simp] theorem State.putTenant_todo (s : State) (k : Nat) (v : Tenant) : (s.putTenant k v).todo = s.todo := rfl
@[simp] theorem State.putTenant_pending (s : State) (k : Nat) (v : Tenant) : (s.putTenant k v).pending = s.pending := rfl
@[simp] theorem State.putTenant_out (s : State) (k : Nat) (v : Tenant) : (s.putTenant k v).out = s.out := rfl
@[simp] theorem State.putTenant_draws (s : State) (k : Nat) (v : Tenant) : (s.putTenant k v).draws = s.draws := rfl

/-! delTenant -/
@[simp] theorem State.delTenant_dev (s : State) (k : Nat) : (s.delTenant k).dev = s.dev := rfl
@[simp] theorem State.delTenant_ready (s : State) (k : Nat) : (s.delTenant k).ready = s.ready := rfl
@[simp] theorem State.delTenant_log (s : State) (k : Nat) : (s.delTenant k).log = s.log := rfl
@[simp] theorem State.delTenant_stats (s : State) (k : Nat) : (s.delTenant k).stats = s.stats := rfl
@[simp] theorem State.delTenant_ctl (s : State) (k : Nat) : (s.delTenant k).ctl = s.ctl := rfl
@[simp] theorem State.delTenant_ten (s : State) (k : Nat) :
    (s.delTenant k).ten = { s.ten with tenants := s.ten.tenants.del k } := rfl
@[simp] theorem State.delTenant_pair (s : State) (k : Nat) : (s.delTenant k).pair = s.pair := rfl
@[simp] theorem State.delTenant_fw (s : State) (k : Nat) : (s.delTenant k).fw = s.fw := rfl
@[simp] theorem State.delTenant_pool (s : State) (k : Nat) : (s.delTenant k).pool = s.pool := rfl
@[simp] theorem State.delTenant_com (s : State) (k : Nat) : (s.delTenant k).com = s.com := rfl
@[simp] theorem State.delTenant_stk (s : State) (k : Nat) : (s.delTenant k).stk = s.stk := rfl
@[simp] theorem State.delTenant_str (s : State) (k : Nat) : (s.delTenant k).str = s.str := rfl
@[simp] theorem State.delTenant_stn (s : State) (k : Nat) : (s.delTenant k).stn = s.stn := rfl
@[simp] theorem State.delTenant_seq (s : State) (k : Nat) : (s.delTenant k).seq = s.seq := rfl
@[simp] theorem State.delTenant_sch (s : State) (k : Nat) : (s.delTenant k).sch = s.sch := rfl
@[simp] theorem State.delTenant_fab (s : State) (k : Nat) : (s.delTenant k).fab = s.fab := rfl
@[simp] theorem State.delTenant_ports (s : State) (k : Nat) : (s.delTenant k).ports = s.ports := rfl
@[simp] theorem State.delTenant_pwr (s : State) (k : Nat) : (s.delTenant k).pwr = s.pwr := rfl
@[simp] theorem State.delTenant_todo (s : State) (k : Nat) : (s.delTenant k).todo = s.todo := rfl
@[simp] theorem State.delTenant_pending (s : State) (k : Nat) : (s.delTenant k).pending = s.pending := rfl
@[simp] theorem State.delTenant_out (s : State) (k : Nat) : (s.delTenant k).out = s.out := rfl
@[simp] theorem State.delTenant_draws (s : State) (k : Nat) : (s.delTenant k).draws = s.draws := rfl

/-! putLink -/
@[simp] theorem State.putLink_dev (s : State) (k : Nat) (v : Link) : (s.putLink k v).dev = s.dev := rfl
@[simp] theorem State.putLink_ready (s : State) (k : Nat) (v : Link) : (s.putLink k v).ready = s.ready := rfl
@[simp] theorem State.putLink_log (s : State) (k : Nat) (v : Link) : (s.putLink k v).log = s.log := rfl
@[simp] theorem State.putLink_stats (s : State) (k : Nat) (v : Link) : (s.putLink k v).stats = s.stats := rfl
@[simp] theorem State.putLink_ctl (s : State) (k : Nat) (v : Link) : (s.putLink k v).ctl = s.ctl := rfl
@[simp] theorem State.putLink_ten (s : State) (k : Nat) (v : Link) :
    (s.putLink k v).ten = { s.ten with links := s.ten.links.put k v } := rfl
@[simp] theorem State.putLink_pair (s : State) (k : Nat) (v : Link) : (s.putLink k v).pair = s.pair := rfl
@[simp] theorem State.putLink_fw (s : State) (k : Nat) (v : Link) : (s.putLink k v).fw = s.fw := rfl
@[simp] theorem State.putLink_pool (s : State) (k : Nat) (v : Link) : (s.putLink k v).pool = s.pool := rfl
@[simp] theorem State.putLink_com (s : State) (k : Nat) (v : Link) : (s.putLink k v).com = s.com := rfl
@[simp] theorem State.putLink_stk (s : State) (k : Nat) (v : Link) : (s.putLink k v).stk = s.stk := rfl
@[simp] theorem State.putLink_str (s : State) (k : Nat) (v : Link) : (s.putLink k v).str = s.str := rfl
@[simp] theorem State.putLink_stn (s : State) (k : Nat) (v : Link) : (s.putLink k v).stn = s.stn := rfl
@[simp] theorem State.putLink_seq (s : State) (k : Nat) (v : Link) : (s.putLink k v).seq = s.seq := rfl
@[simp] theorem State.putLink_sch (s : State) (k : Nat) (v : Link) : (s.putLink k v).sch = s.sch := rfl
@[simp] theorem State.putLink_fab (s : State) (k : Nat) (v : Link) : (s.putLink k v).fab = s.fab := rfl
@[simp] theorem State.putLink_ports (s : State) (k : Nat) (v : Link) : (s.putLink k v).ports = s.ports := rfl
@[simp] theorem State.putLink_pwr (s : State) (k : Nat) (v : Link) : (s.putLink k v).pwr = s.pwr := rfl
@[simp] theorem State.putLink_todo (s : State) (k : Nat) (v : Link) : (s.putLink k v).todo = s.todo := rfl
@[simp] theorem State.putLink_pending (s : State) (k : Nat) (v : Link) : (s.putLink k v).pending = s.pending := rfl
@[simp] theorem State.putLink_out (s : State) (k : Nat) (v : Link) : (s.putLink k v).out = s.out := rfl
@[simp] theorem State.putLink_draws (s : State) (k : Nat) (v : Link) : (s.putLink k v).draws = s.draws := rfl

/-! delLink -/
@[simp] theorem State.delLink_dev (s : State) (k : Nat) : (s.delLink k).dev = s.dev := rfl
@[simp] theorem State.delLink_ready (s : State) (k : Nat) : (s.delLink k).ready = s.ready := rfl
@[simp] theorem State.delLink_log (s : State) (k : Nat) : (s.delLink k).log = s.log := rfl
@[simp] theorem State.delLink_stats (s : State) (k : Nat) : (s.delLink k).stats = s.stats := rfl
@[simp] theorem State.delLink_ctl (s : State) (k : Nat) : (s.delLink k).ctl = s.ctl := rfl
@[simp] theorem State.delLink_ten (s : State) (k : Nat) :
    (s.delLink k).ten = { s.ten with links := s.ten.links.del k } := rfl
@[simp] theorem State.delLink_pair (s : State) (k : Nat) : (s.delLink k).pair = s.pair := rfl
@[simp] theorem State.delLink_fw (s : State) (k : Nat) : (s.delLink k).fw = s.fw := rfl
@[simp] theorem State.delLink_pool (s : State) (k : Nat) : (s.delLink k).pool = s.pool := rfl
@[simp] theorem State.delLink_com (s : State) (k : Nat) : (s.delLink k).com = s.com := rfl
@[simp] theorem State.delLink_stk (s : State) (k : Nat) : (s.delLink k).stk = s.stk := rfl
@[simp] theorem State.delLink_str (s : State) (k : Nat) : (s.delLink k).str = s.str := rfl
@[simp] theorem State.delLink_stn (s : State) (k : Nat) : (s.delLink k).stn = s.stn := rfl
@[simp] theorem State.delLink_seq (s : State) (k : Nat) : (s.delLink k).seq = s.seq := rfl
@[simp] theorem State.delLink_sch (s : State) (k : Nat) : (s.delLink k).sch = s.sch := rfl
@[simp] theorem State.delLink_fab (s : State) (k : Nat) : (s.delLink k).fab = s.fab := rfl
@[simp] theorem State.delLink_ports (s : State) (k : Nat) : (s.delLink k).ports = s.ports := rfl
@[simp] theorem State.delLink_pwr (s : State) (k : Nat) : (s.delLink k).pwr = s.pwr := rfl
@[simp] theorem State.delLink_todo (s : State) (k : Nat) : (s.delLink k).todo = s.todo := rfl
@[simp] theorem State.delLink_pending (s : State) (k : Nat) : (s.delLink k).pending = s.pending := rfl
@[simp] theorem State.delLink_out (s : State) (k : Nat) : (s.delLink k).out = s.out := rfl
@[simp] theorem State.delLink_draws (s : State) (k : Nat) : (s.delLink k).draws = s.draws := rfl

/-! putImport -/
@[simp] theorem State.putImport_dev (s : State) (k : Nat) (v : Import) : (s.putImport k v).dev = s.dev := rfl
@[simp] theorem State.putImport_ready (s : State) (k : Nat) (v : Import) : (s.putImport k v).ready = s.ready := rfl
@[simp] theorem State.putImport_log (s : State) (k : Nat) (v : Import) : (s.putImport k v).log = s.log := rfl
@[simp] theorem State.putImport_stats (s : State) (k : Nat) (v : Import) : (s.putImport k v).stats = s.stats := rfl
@[simp] theorem State.putImport_ctl (s : State) (k : Nat) (v : Import) : (s.putImport k v).ctl = s.ctl := rfl
@[simp] theorem State.putImport_ten (s : State) (k : Nat) (v : Import) :
    (s.putImport k v).ten = { s.ten with imports := s.ten.imports.put k v } := rfl
@[simp] theorem State.putImport_pair (s : State) (k : Nat) (v : Import) : (s.putImport k v).pair = s.pair := rfl
@[simp] theorem State.putImport_fw (s : State) (k : Nat) (v : Import) : (s.putImport k v).fw = s.fw := rfl
@[simp] theorem State.putImport_pool (s : State) (k : Nat) (v : Import) : (s.putImport k v).pool = s.pool := rfl
@[simp] theorem State.putImport_com (s : State) (k : Nat) (v : Import) : (s.putImport k v).com = s.com := rfl
@[simp] theorem State.putImport_stk (s : State) (k : Nat) (v : Import) : (s.putImport k v).stk = s.stk := rfl
@[simp] theorem State.putImport_str (s : State) (k : Nat) (v : Import) : (s.putImport k v).str = s.str := rfl
@[simp] theorem State.putImport_stn (s : State) (k : Nat) (v : Import) : (s.putImport k v).stn = s.stn := rfl
@[simp] theorem State.putImport_seq (s : State) (k : Nat) (v : Import) : (s.putImport k v).seq = s.seq := rfl
@[simp] theorem State.putImport_sch (s : State) (k : Nat) (v : Import) : (s.putImport k v).sch = s.sch := rfl
@[simp] theorem State.putImport_fab (s : State) (k : Nat) (v : Import) : (s.putImport k v).fab = s.fab := rfl
@[simp] theorem State.putImport_ports (s : State) (k : Nat) (v : Import) : (s.putImport k v).ports = s.ports := rfl
@[simp] theorem State.putImport_pwr (s : State) (k : Nat) (v : Import) : (s.putImport k v).pwr = s.pwr := rfl
@[simp] theorem State.putImport_todo (s : State) (k : Nat) (v : Import) : (s.putImport k v).todo = s.todo := rfl
@[simp] theorem State.putImport_pending (s : State) (k : Nat) (v : Import) : (s.putImport k v).pending = s.pending := rfl
@[simp] theorem State.putImport_out (s : State) (k : Nat) (v : Import) : (s.putImport k v).out = s.out := rfl
@[simp] theorem State.putImport_draws (s : State) (k : Nat) (v : Import) : (s.putImport k v).draws = s.draws := rfl

/-! delImport -/
@[simp] theorem State.delImport_dev (s : State) (k : Nat) : (s.delImport k).dev = s.dev := rfl
@[simp] theorem State.delImport_ready (s : State) (k : Nat) : (s.delImport k).ready = s.ready := rfl
@[simp] theorem State.delImport_log (s : State) (k : Nat) : (s.delImport k).log = s.log := rfl
@[simp] theorem State.delImport_stats (s : State) (k : Nat) : (s.delImport k).stats = s.stats := rfl
@[simp] theorem State.delImport_ctl (s : State) (k : Nat) : (s.delImport k).ctl = s.ctl := rfl
@[simp] theorem State.delImport_ten (s : State) (k : Nat) :
    (s.delImport k).ten = { s.ten with imports := s.ten.imports.del k } := rfl
@[simp] theorem State.delImport_pair (s : State) (k : Nat) : (s.delImport k).pair = s.pair := rfl
@[simp] theorem State.delImport_fw (s : State) (k : Nat) : (s.delImport k).fw = s.fw := rfl
@[simp] theorem State.delImport_pool (s : State) (k : Nat) : (s.delImport k).pool = s.pool := rfl
@[simp] theorem State.delImport_com (s : State) (k : Nat) : (s.delImport k).com = s.com := rfl
@[simp] theorem State.delImport_stk (s : State) (k : Nat) : (s.delImport k).stk = s.stk := rfl
@[simp] theorem State.delImport_str (s : State) (k : Nat) : (s.delImport k).str = s.str := rfl
@[simp] theorem State.delImport_stn (s : State) (k : Nat) : (s.delImport k).stn = s.stn := rfl
@[simp] theorem State.delImport_seq (s : State) (k : Nat) : (s.delImport k).seq = s.seq := rfl
@[simp] theorem State.delImport_sch (s : State) (k : Nat) : (s.delImport k).sch = s.sch := rfl
@[simp] theorem State.delImport_fab (s : State) (k : Nat) : (s.delImport k).fab = s.fab := rfl
@[simp] theorem State.delImport_ports (s : State) (k : Nat) : (s.delImport k).ports = s.ports := rfl
@[simp] theorem State.delImport_pwr (s : State) (k : Nat) : (s.delImport k).pwr = s.pwr := rfl
@[simp] theorem State.delImport_todo (s : State) (k : Nat) : (s.delImport k).todo = s.todo := rfl
@[simp] theorem State.delImport_pending (s : State) (k : Nat) : (s.delImport k).pending = s.pending := rfl
@[simp] theorem State.delImport_out (s : State) (k : Nat) : (s.delImport k).out = s.out := rfl
@[simp] theorem State.delImport_draws (s : State) (k : Nat) : (s.delImport k).draws = s.draws := rfl

/-! putExtent -/
@[simp] theorem State.putExtent_dev (s : State) (k : Nat) (v : Extent) : (s.putExtent k v).dev = s.dev := rfl
@[simp] theorem State.putExtent_ready (s : State) (k : Nat) (v : Extent) : (s.putExtent k v).ready = s.ready := rfl
@[simp] theorem State.putExtent_log (s : State) (k : Nat) (v : Extent) : (s.putExtent k v).log = s.log := rfl
@[simp] theorem State.putExtent_stats (s : State) (k : Nat) (v : Extent) : (s.putExtent k v).stats = s.stats := rfl
@[simp] theorem State.putExtent_ctl (s : State) (k : Nat) (v : Extent) : (s.putExtent k v).ctl = s.ctl := rfl
@[simp] theorem State.putExtent_ten (s : State) (k : Nat) (v : Extent) : (s.putExtent k v).ten = s.ten := rfl
@[simp] theorem State.putExtent_pair (s : State) (k : Nat) (v : Extent) : (s.putExtent k v).pair = s.pair := rfl
@[simp] theorem State.putExtent_fw (s : State) (k : Nat) (v : Extent) : (s.putExtent k v).fw = s.fw := rfl
@[simp] theorem State.putExtent_pool (s : State) (k : Nat) (v : Extent) :
    (s.putExtent k v).pool = { s.pool with extents := s.pool.extents.put k v } := rfl
@[simp] theorem State.putExtent_com (s : State) (k : Nat) (v : Extent) : (s.putExtent k v).com = s.com := rfl
@[simp] theorem State.putExtent_stk (s : State) (k : Nat) (v : Extent) : (s.putExtent k v).stk = s.stk := rfl
@[simp] theorem State.putExtent_str (s : State) (k : Nat) (v : Extent) : (s.putExtent k v).str = s.str := rfl
@[simp] theorem State.putExtent_stn (s : State) (k : Nat) (v : Extent) : (s.putExtent k v).stn = s.stn := rfl
@[simp] theorem State.putExtent_seq (s : State) (k : Nat) (v : Extent) : (s.putExtent k v).seq = s.seq := rfl
@[simp] theorem State.putExtent_sch (s : State) (k : Nat) (v : Extent) : (s.putExtent k v).sch = s.sch := rfl
@[simp] theorem State.putExtent_fab (s : State) (k : Nat) (v : Extent) : (s.putExtent k v).fab = s.fab := rfl
@[simp] theorem State.putExtent_ports (s : State) (k : Nat) (v : Extent) : (s.putExtent k v).ports = s.ports := rfl
@[simp] theorem State.putExtent_pwr (s : State) (k : Nat) (v : Extent) : (s.putExtent k v).pwr = s.pwr := rfl
@[simp] theorem State.putExtent_todo (s : State) (k : Nat) (v : Extent) : (s.putExtent k v).todo = s.todo := rfl
@[simp] theorem State.putExtent_pending (s : State) (k : Nat) (v : Extent) : (s.putExtent k v).pending = s.pending := rfl
@[simp] theorem State.putExtent_out (s : State) (k : Nat) (v : Extent) : (s.putExtent k v).out = s.out := rfl
@[simp] theorem State.putExtent_draws (s : State) (k : Nat) (v : Extent) : (s.putExtent k v).draws = s.draws := rfl

/-! delExtent -/
@[simp] theorem State.delExtent_dev (s : State) (k : Nat) : (s.delExtent k).dev = s.dev := rfl
@[simp] theorem State.delExtent_ready (s : State) (k : Nat) : (s.delExtent k).ready = s.ready := rfl
@[simp] theorem State.delExtent_log (s : State) (k : Nat) : (s.delExtent k).log = s.log := rfl
@[simp] theorem State.delExtent_stats (s : State) (k : Nat) : (s.delExtent k).stats = s.stats := rfl
@[simp] theorem State.delExtent_ctl (s : State) (k : Nat) : (s.delExtent k).ctl = s.ctl := rfl
@[simp] theorem State.delExtent_ten (s : State) (k : Nat) : (s.delExtent k).ten = s.ten := rfl
@[simp] theorem State.delExtent_pair (s : State) (k : Nat) : (s.delExtent k).pair = s.pair := rfl
@[simp] theorem State.delExtent_fw (s : State) (k : Nat) : (s.delExtent k).fw = s.fw := rfl
@[simp] theorem State.delExtent_pool (s : State) (k : Nat) :
    (s.delExtent k).pool = { s.pool with extents := s.pool.extents.del k } := rfl
@[simp] theorem State.delExtent_com (s : State) (k : Nat) : (s.delExtent k).com = s.com := rfl
@[simp] theorem State.delExtent_stk (s : State) (k : Nat) : (s.delExtent k).stk = s.stk := rfl
@[simp] theorem State.delExtent_str (s : State) (k : Nat) : (s.delExtent k).str = s.str := rfl
@[simp] theorem State.delExtent_stn (s : State) (k : Nat) : (s.delExtent k).stn = s.stn := rfl
@[simp] theorem State.delExtent_seq (s : State) (k : Nat) : (s.delExtent k).seq = s.seq := rfl
@[simp] theorem State.delExtent_sch (s : State) (k : Nat) : (s.delExtent k).sch = s.sch := rfl
@[simp] theorem State.delExtent_fab (s : State) (k : Nat) : (s.delExtent k).fab = s.fab := rfl
@[simp] theorem State.delExtent_ports (s : State) (k : Nat) : (s.delExtent k).ports = s.ports := rfl
@[simp] theorem State.delExtent_pwr (s : State) (k : Nat) : (s.delExtent k).pwr = s.pwr := rfl
@[simp] theorem State.delExtent_todo (s : State) (k : Nat) : (s.delExtent k).todo = s.todo := rfl
@[simp] theorem State.delExtent_pending (s : State) (k : Nat) : (s.delExtent k).pending = s.pending := rfl
@[simp] theorem State.delExtent_out (s : State) (k : Nat) : (s.delExtent k).out = s.out := rfl
@[simp] theorem State.delExtent_draws (s : State) (k : Nat) : (s.delExtent k).draws = s.draws := rfl

/-! putHandle -/
@[simp] theorem State.putHandle_dev (s : State) (k : Nat) (v : Handle) : (s.putHandle k v).dev = s.dev := rfl
@[simp] theorem State.putHandle_ready (s : State) (k : Nat) (v : Handle) : (s.putHandle k v).ready = s.ready := rfl
@[simp] theorem State.putHandle_log (s : State) (k : Nat) (v : Handle) : (s.putHandle k v).log = s.log := rfl
@[simp] theorem State.putHandle_stats (s : State) (k : Nat) (v : Handle) : (s.putHandle k v).stats = s.stats := rfl
@[simp] theorem State.putHandle_ctl (s : State) (k : Nat) (v : Handle) : (s.putHandle k v).ctl = s.ctl := rfl
@[simp] theorem State.putHandle_ten (s : State) (k : Nat) (v : Handle) : (s.putHandle k v).ten = s.ten := rfl
@[simp] theorem State.putHandle_pair (s : State) (k : Nat) (v : Handle) : (s.putHandle k v).pair = s.pair := rfl
@[simp] theorem State.putHandle_fw (s : State) (k : Nat) (v : Handle) : (s.putHandle k v).fw = s.fw := rfl
@[simp] theorem State.putHandle_pool (s : State) (k : Nat) (v : Handle) :
    (s.putHandle k v).pool = { s.pool with handles := s.pool.handles.put k v } := rfl
@[simp] theorem State.putHandle_com (s : State) (k : Nat) (v : Handle) : (s.putHandle k v).com = s.com := rfl
@[simp] theorem State.putHandle_stk (s : State) (k : Nat) (v : Handle) : (s.putHandle k v).stk = s.stk := rfl
@[simp] theorem State.putHandle_str (s : State) (k : Nat) (v : Handle) : (s.putHandle k v).str = s.str := rfl
@[simp] theorem State.putHandle_stn (s : State) (k : Nat) (v : Handle) : (s.putHandle k v).stn = s.stn := rfl
@[simp] theorem State.putHandle_seq (s : State) (k : Nat) (v : Handle) : (s.putHandle k v).seq = s.seq := rfl
@[simp] theorem State.putHandle_sch (s : State) (k : Nat) (v : Handle) : (s.putHandle k v).sch = s.sch := rfl
@[simp] theorem State.putHandle_fab (s : State) (k : Nat) (v : Handle) : (s.putHandle k v).fab = s.fab := rfl
@[simp] theorem State.putHandle_ports (s : State) (k : Nat) (v : Handle) : (s.putHandle k v).ports = s.ports := rfl
@[simp] theorem State.putHandle_pwr (s : State) (k : Nat) (v : Handle) : (s.putHandle k v).pwr = s.pwr := rfl
@[simp] theorem State.putHandle_todo (s : State) (k : Nat) (v : Handle) : (s.putHandle k v).todo = s.todo := rfl
@[simp] theorem State.putHandle_pending (s : State) (k : Nat) (v : Handle) : (s.putHandle k v).pending = s.pending := rfl
@[simp] theorem State.putHandle_out (s : State) (k : Nat) (v : Handle) : (s.putHandle k v).out = s.out := rfl
@[simp] theorem State.putHandle_draws (s : State) (k : Nat) (v : Handle) : (s.putHandle k v).draws = s.draws := rfl

/-! delHandle -/
@[simp] theorem State.delHandle_dev (s : State) (k : Nat) : (s.delHandle k).dev = s.dev := rfl
@[simp] theorem State.delHandle_ready (s : State) (k : Nat) : (s.delHandle k).ready = s.ready := rfl
@[simp] theorem State.delHandle_log (s : State) (k : Nat) : (s.delHandle k).log = s.log := rfl
@[simp] theorem State.delHandle_stats (s : State) (k : Nat) : (s.delHandle k).stats = s.stats := rfl
@[simp] theorem State.delHandle_ctl (s : State) (k : Nat) : (s.delHandle k).ctl = s.ctl := rfl
@[simp] theorem State.delHandle_ten (s : State) (k : Nat) : (s.delHandle k).ten = s.ten := rfl
@[simp] theorem State.delHandle_pair (s : State) (k : Nat) : (s.delHandle k).pair = s.pair := rfl
@[simp] theorem State.delHandle_fw (s : State) (k : Nat) : (s.delHandle k).fw = s.fw := rfl
@[simp] theorem State.delHandle_pool (s : State) (k : Nat) :
    (s.delHandle k).pool = { s.pool with handles := s.pool.handles.del k } := rfl
@[simp] theorem State.delHandle_com (s : State) (k : Nat) : (s.delHandle k).com = s.com := rfl
@[simp] theorem State.delHandle_stk (s : State) (k : Nat) : (s.delHandle k).stk = s.stk := rfl
@[simp] theorem State.delHandle_str (s : State) (k : Nat) : (s.delHandle k).str = s.str := rfl
@[simp] theorem State.delHandle_stn (s : State) (k : Nat) : (s.delHandle k).stn = s.stn := rfl
@[simp] theorem State.delHandle_seq (s : State) (k : Nat) : (s.delHandle k).seq = s.seq := rfl
@[simp] theorem State.delHandle_sch (s : State) (k : Nat) : (s.delHandle k).sch = s.sch := rfl
@[simp] theorem State.delHandle_fab (s : State) (k : Nat) : (s.delHandle k).fab = s.fab := rfl
@[simp] theorem State.delHandle_ports (s : State) (k : Nat) : (s.delHandle k).ports = s.ports := rfl
@[simp] theorem State.delHandle_pwr (s : State) (k : Nat) : (s.delHandle k).pwr = s.pwr := rfl
@[simp] theorem State.delHandle_todo (s : State) (k : Nat) : (s.delHandle k).todo = s.todo := rfl
@[simp] theorem State.delHandle_pending (s : State) (k : Nat) : (s.delHandle k).pending = s.pending := rfl
@[simp] theorem State.delHandle_out (s : State) (k : Nat) : (s.delHandle k).out = s.out := rfl
@[simp] theorem State.delHandle_draws (s : State) (k : Nat) : (s.delHandle k).draws = s.draws := rfl

/-! putCheckout -/
@[simp] theorem State.putCheckout_dev (s : State) (k : Nat) (v : Checkout) : (s.putCheckout k v).dev = s.dev := rfl
@[simp] theorem State.putCheckout_ready (s : State) (k : Nat) (v : Checkout) : (s.putCheckout k v).ready = s.ready := rfl
@[simp] theorem State.putCheckout_log (s : State) (k : Nat) (v : Checkout) : (s.putCheckout k v).log = s.log := rfl
@[simp] theorem State.putCheckout_stats (s : State) (k : Nat) (v : Checkout) : (s.putCheckout k v).stats = s.stats := rfl
@[simp] theorem State.putCheckout_ctl (s : State) (k : Nat) (v : Checkout) : (s.putCheckout k v).ctl = s.ctl := rfl
@[simp] theorem State.putCheckout_ten (s : State) (k : Nat) (v : Checkout) : (s.putCheckout k v).ten = s.ten := rfl
@[simp] theorem State.putCheckout_pair (s : State) (k : Nat) (v : Checkout) : (s.putCheckout k v).pair = s.pair := rfl
@[simp] theorem State.putCheckout_fw (s : State) (k : Nat) (v : Checkout) : (s.putCheckout k v).fw = s.fw := rfl
@[simp] theorem State.putCheckout_pool (s : State) (k : Nat) (v : Checkout) :
    (s.putCheckout k v).pool = { s.pool with checkouts := s.pool.checkouts.put k v } := rfl
@[simp] theorem State.putCheckout_com (s : State) (k : Nat) (v : Checkout) : (s.putCheckout k v).com = s.com := rfl
@[simp] theorem State.putCheckout_stk (s : State) (k : Nat) (v : Checkout) : (s.putCheckout k v).stk = s.stk := rfl
@[simp] theorem State.putCheckout_str (s : State) (k : Nat) (v : Checkout) : (s.putCheckout k v).str = s.str := rfl
@[simp] theorem State.putCheckout_stn (s : State) (k : Nat) (v : Checkout) : (s.putCheckout k v).stn = s.stn := rfl
@[simp] theorem State.putCheckout_seq (s : State) (k : Nat) (v : Checkout) : (s.putCheckout k v).seq = s.seq := rfl
@[simp] theorem State.putCheckout_sch (s : State) (k : Nat) (v : Checkout) : (s.putCheckout k v).sch = s.sch := rfl
@[simp] theorem State.putCheckout_fab (s : State) (k : Nat) (v : Checkout) : (s.putCheckout k v).fab = s.fab := rfl
@[simp] theorem State.putCheckout_ports (s : State) (k : Nat) (v : Checkout) : (s.putCheckout k v).ports = s.ports := rfl
@[simp] theorem State.putCheckout_pwr (s : State) (k : Nat) (v : Checkout) : (s.putCheckout k v).pwr = s.pwr := rfl
@[simp] theorem State.putCheckout_todo (s : State) (k : Nat) (v : Checkout) : (s.putCheckout k v).todo = s.todo := rfl
@[simp] theorem State.putCheckout_pending (s : State) (k : Nat) (v : Checkout) : (s.putCheckout k v).pending = s.pending := rfl
@[simp] theorem State.putCheckout_out (s : State) (k : Nat) (v : Checkout) : (s.putCheckout k v).out = s.out := rfl
@[simp] theorem State.putCheckout_draws (s : State) (k : Nat) (v : Checkout) : (s.putCheckout k v).draws = s.draws := rfl

/-! delCheckout -/
@[simp] theorem State.delCheckout_dev (s : State) (k : Nat) : (s.delCheckout k).dev = s.dev := rfl
@[simp] theorem State.delCheckout_ready (s : State) (k : Nat) : (s.delCheckout k).ready = s.ready := rfl
@[simp] theorem State.delCheckout_log (s : State) (k : Nat) : (s.delCheckout k).log = s.log := rfl
@[simp] theorem State.delCheckout_stats (s : State) (k : Nat) : (s.delCheckout k).stats = s.stats := rfl
@[simp] theorem State.delCheckout_ctl (s : State) (k : Nat) : (s.delCheckout k).ctl = s.ctl := rfl
@[simp] theorem State.delCheckout_ten (s : State) (k : Nat) : (s.delCheckout k).ten = s.ten := rfl
@[simp] theorem State.delCheckout_pair (s : State) (k : Nat) : (s.delCheckout k).pair = s.pair := rfl
@[simp] theorem State.delCheckout_fw (s : State) (k : Nat) : (s.delCheckout k).fw = s.fw := rfl
@[simp] theorem State.delCheckout_pool (s : State) (k : Nat) :
    (s.delCheckout k).pool = { s.pool with checkouts := s.pool.checkouts.del k } := rfl
@[simp] theorem State.delCheckout_com (s : State) (k : Nat) : (s.delCheckout k).com = s.com := rfl
@[simp] theorem State.delCheckout_stk (s : State) (k : Nat) : (s.delCheckout k).stk = s.stk := rfl
@[simp] theorem State.delCheckout_str (s : State) (k : Nat) : (s.delCheckout k).str = s.str := rfl
@[simp] theorem State.delCheckout_stn (s : State) (k : Nat) : (s.delCheckout k).stn = s.stn := rfl
@[simp] theorem State.delCheckout_seq (s : State) (k : Nat) : (s.delCheckout k).seq = s.seq := rfl
@[simp] theorem State.delCheckout_sch (s : State) (k : Nat) : (s.delCheckout k).sch = s.sch := rfl
@[simp] theorem State.delCheckout_fab (s : State) (k : Nat) : (s.delCheckout k).fab = s.fab := rfl
@[simp] theorem State.delCheckout_ports (s : State) (k : Nat) : (s.delCheckout k).ports = s.ports := rfl
@[simp] theorem State.delCheckout_pwr (s : State) (k : Nat) : (s.delCheckout k).pwr = s.pwr := rfl
@[simp] theorem State.delCheckout_todo (s : State) (k : Nat) : (s.delCheckout k).todo = s.todo := rfl
@[simp] theorem State.delCheckout_pending (s : State) (k : Nat) : (s.delCheckout k).pending = s.pending := rfl
@[simp] theorem State.delCheckout_out (s : State) (k : Nat) : (s.delCheckout k).out = s.out := rfl
@[simp] theorem State.delCheckout_draws (s : State) (k : Nat) : (s.delCheckout k).draws = s.draws := rfl

/-! putSpace -/
@[simp] theorem State.putSpace_dev (s : State) (k : Nat) (v : Space) : (s.putSpace k v).dev = s.dev := rfl
@[simp] theorem State.putSpace_ready (s : State) (k : Nat) (v : Space) : (s.putSpace k v).ready = s.ready := rfl
@[simp] theorem State.putSpace_log (s : State) (k : Nat) (v : Space) : (s.putSpace k v).log = s.log := rfl
@[simp] theorem State.putSpace_stats (s : State) (k : Nat) (v : Space) : (s.putSpace k v).stats = s.stats := rfl
@[simp] theorem State.putSpace_ctl (s : State) (k : Nat) (v : Space) : (s.putSpace k v).ctl = s.ctl := rfl
@[simp] theorem State.putSpace_ten (s : State) (k : Nat) (v : Space) : (s.putSpace k v).ten = s.ten := rfl
@[simp] theorem State.putSpace_pair (s : State) (k : Nat) (v : Space) : (s.putSpace k v).pair = s.pair := rfl
@[simp] theorem State.putSpace_fw (s : State) (k : Nat) (v : Space) : (s.putSpace k v).fw = s.fw := rfl
@[simp] theorem State.putSpace_pool (s : State) (k : Nat) (v : Space) :
    (s.putSpace k v).pool = { s.pool with spaces := s.pool.spaces.put k v } := rfl
@[simp] theorem State.putSpace_com (s : State) (k : Nat) (v : Space) : (s.putSpace k v).com = s.com := rfl
@[simp] theorem State.putSpace_stk (s : State) (k : Nat) (v : Space) : (s.putSpace k v).stk = s.stk := rfl
@[simp] theorem State.putSpace_str (s : State) (k : Nat) (v : Space) : (s.putSpace k v).str = s.str := rfl
@[simp] theorem State.putSpace_stn (s : State) (k : Nat) (v : Space) : (s.putSpace k v).stn = s.stn := rfl
@[simp] theorem State.putSpace_seq (s : State) (k : Nat) (v : Space) : (s.putSpace k v).seq = s.seq := rfl
@[simp] theorem State.putSpace_sch (s : State) (k : Nat) (v : Space) : (s.putSpace k v).sch = s.sch := rfl
@[simp] theorem State.putSpace_fab (s : State) (k : Nat) (v : Space) : (s.putSpace k v).fab = s.fab := rfl
@[simp] theorem State.putSpace_ports (s : State) (k : Nat) (v : Space) : (s.putSpace k v).ports = s.ports := rfl
@[simp] theorem State.putSpace_pwr (s : State) (k : Nat) (v : Space) : (s.putSpace k v).pwr = s.pwr := rfl
@[simp] theorem State.putSpace_todo (s : State) (k : Nat) (v : Space) : (s.putSpace k v).todo = s.todo := rfl
@[simp] theorem State.putSpace_pending (s : State) (k : Nat) (v : Space) : (s.putSpace k v).pending = s.pending := rfl
@[simp] theorem State.putSpace_out (s : State) (k : Nat) (v : Space) : (s.putSpace k v).out = s.out := rfl
@[simp] theorem State.putSpace_draws (s : State) (k : Nat) (v : Space) : (s.putSpace k v).draws = s.draws := rfl

/-! delSpace -/
@[simp] theorem State.delSpace_dev (s : State) (k : Nat) : (s.delSpace k).dev = s.dev := rfl
@[simp] theorem State.delSpace_ready (s : State) (k : Nat) : (s.delSpace k).ready = s.ready := rfl
@[simp] theorem State.delSpace_log (s : State) (k : Nat) : (s.delSpace k).log = s.log := rfl
@[simp] theorem State.delSpace_stats (s : State) (k : Nat) : (s.delSpace k).stats = s.stats := rfl
@[simp] theorem State.delSpace_ctl (s : State) (k : Nat) : (s.delSpace k).ctl = s.ctl := rfl
@[simp] theorem State.delSpace_ten (s : State) (k : Nat) : (s.delSpace k).ten = s.ten := rfl
@[simp] theorem State.delSpace_pair (s : State) (k : Nat) : (s.delSpace k).pair = s.pair := rfl
@[simp] theorem State.delSpace_fw (s : State) (k : Nat) : (s.delSpace k).fw = s.fw := rfl
@[simp] theorem State.delSpace_pool (s : State) (k : Nat) :
    (s.delSpace k).pool = { s.pool with spaces := s.pool.spaces.del k } := rfl
@[simp] theorem State.delSpace_com (s : State) (k : Nat) : (s.delSpace k).com = s.com := rfl
@[simp] theorem State.delSpace_stk (s : State) (k : Nat) : (s.delSpace k).stk = s.stk := rfl
@[simp] theorem State.delSpace_str (s : State) (k : Nat) : (s.delSpace k).str = s.str := rfl
@[simp] theorem State.delSpace_stn (s : State) (k : Nat) : (s.delSpace k).stn = s.stn := rfl
@[simp] theorem State.delSpace_seq (s : State) (k : Nat) : (s.delSpace k).seq = s.seq := rfl
@[simp] theorem State.delSpace_sch (s : State) (k : Nat) : (s.delSpace k).sch = s.sch := rfl
@[simp] theorem State.delSpace_fab (s : State) (k : Nat) : (s.delSpace k).fab = s.fab := rfl
@[simp] theorem State.delSpace_ports (s : State) (k : Nat) : (s.delSpace k).ports = s.ports := rfl
@[simp] theorem State.delSpace_pwr (s : State) (k : Nat) : (s.delSpace k).pwr = s.pwr := rfl
@[simp] theorem State.delSpace_todo (s : State) (k : Nat) : (s.delSpace k).todo = s.todo := rfl
@[simp] theorem State.delSpace_pending (s : State) (k : Nat) : (s.delSpace k).pending = s.pending := rfl
@[simp] theorem State.delSpace_out (s : State) (k : Nat) : (s.delSpace k).out = s.out := rfl
@[simp] theorem State.delSpace_draws (s : State) (k : Nat) : (s.delSpace k).draws = s.draws := rfl

/-! putInval -/
@[simp] theorem State.putInval_dev (s : State) (k : Nat) (v : Inval) : (s.putInval k v).dev = s.dev := rfl
@[simp] theorem State.putInval_ready (s : State) (k : Nat) (v : Inval) : (s.putInval k v).ready = s.ready := rfl
@[simp] theorem State.putInval_log (s : State) (k : Nat) (v : Inval) : (s.putInval k v).log = s.log := rfl
@[simp] theorem State.putInval_stats (s : State) (k : Nat) (v : Inval) : (s.putInval k v).stats = s.stats := rfl
@[simp] theorem State.putInval_ctl (s : State) (k : Nat) (v : Inval) : (s.putInval k v).ctl = s.ctl := rfl
@[simp] theorem State.putInval_ten (s : State) (k : Nat) (v : Inval) : (s.putInval k v).ten = s.ten := rfl
@[simp] theorem State.putInval_pair (s : State) (k : Nat) (v : Inval) : (s.putInval k v).pair = s.pair := rfl
@[simp] theorem State.putInval_fw (s : State) (k : Nat) (v : Inval) : (s.putInval k v).fw = s.fw := rfl
@[simp] theorem State.putInval_pool (s : State) (k : Nat) (v : Inval) :
    (s.putInval k v).pool = { s.pool with invals := s.pool.invals.put k v } := rfl
@[simp] theorem State.putInval_com (s : State) (k : Nat) (v : Inval) : (s.putInval k v).com = s.com := rfl
@[simp] theorem State.putInval_stk (s : State) (k : Nat) (v : Inval) : (s.putInval k v).stk = s.stk := rfl
@[simp] theorem State.putInval_str (s : State) (k : Nat) (v : Inval) : (s.putInval k v).str = s.str := rfl
@[simp] theorem State.putInval_stn (s : State) (k : Nat) (v : Inval) : (s.putInval k v).stn = s.stn := rfl
@[simp] theorem State.putInval_seq (s : State) (k : Nat) (v : Inval) : (s.putInval k v).seq = s.seq := rfl
@[simp] theorem State.putInval_sch (s : State) (k : Nat) (v : Inval) : (s.putInval k v).sch = s.sch := rfl
@[simp] theorem State.putInval_fab (s : State) (k : Nat) (v : Inval) : (s.putInval k v).fab = s.fab := rfl
@[simp] theorem State.putInval_ports (s : State) (k : Nat) (v : Inval) : (s.putInval k v).ports = s.ports := rfl
@[simp] theorem State.putInval_pwr (s : State) (k : Nat) (v : Inval) : (s.putInval k v).pwr = s.pwr := rfl
@[simp] theorem State.putInval_todo (s : State) (k : Nat) (v : Inval) : (s.putInval k v).todo = s.todo := rfl
@[simp] theorem State.putInval_pending (s : State) (k : Nat) (v : Inval) : (s.putInval k v).pending = s.pending := rfl
@[simp] theorem State.putInval_out (s : State) (k : Nat) (v : Inval) : (s.putInval k v).out = s.out := rfl
@[simp] theorem State.putInval_draws (s : State) (k : Nat) (v : Inval) : (s.putInval k v).draws = s.draws := rfl

/-! delInval -/
@[simp] theorem State.delInval_dev (s : State) (k : Nat) : (s.delInval k).dev = s.dev := rfl
@[simp] theorem State.delInval_ready (s : State) (k : Nat) : (s.delInval k).ready = s.ready := rfl
@[simp] theorem State.delInval_log (s : State) (k : Nat) : (s.delInval k).log = s.log := rfl
@[simp] theorem State.delInval_stats (s : State) (k : Nat) : (s.delInval k).stats = s.stats := rfl
@[simp] theorem State.delInval_ctl (s : State) (k : Nat) : (s.delInval k).ctl = s.ctl := rfl
@[simp] theorem State.delInval_ten (s : State) (k : Nat) : (s.delInval k).ten = s.ten := rfl
@[simp] theorem State.delInval_pair (s : State) (k : Nat) : (s.delInval k).pair = s.pair := rfl
@[simp] theorem State.delInval_fw (s : State) (k : Nat) : (s.delInval k).fw = s.fw := rfl
@[simp] theorem State.delInval_pool (s : State) (k : Nat) :
    (s.delInval k).pool = { s.pool with invals := s.pool.invals.del k } := rfl
@[simp] theorem State.delInval_com (s : State) (k : Nat) : (s.delInval k).com = s.com := rfl
@[simp] theorem State.delInval_stk (s : State) (k : Nat) : (s.delInval k).stk = s.stk := rfl
@[simp] theorem State.delInval_str (s : State) (k : Nat) : (s.delInval k).str = s.str := rfl
@[simp] theorem State.delInval_stn (s : State) (k : Nat) : (s.delInval k).stn = s.stn := rfl
@[simp] theorem State.delInval_seq (s : State) (k : Nat) : (s.delInval k).seq = s.seq := rfl
@[simp] theorem State.delInval_sch (s : State) (k : Nat) : (s.delInval k).sch = s.sch := rfl
@[simp] theorem State.delInval_fab (s : State) (k : Nat) : (s.delInval k).fab = s.fab := rfl
@[simp] theorem State.delInval_ports (s : State) (k : Nat) : (s.delInval k).ports = s.ports := rfl
@[simp] theorem State.delInval_pwr (s : State) (k : Nat) : (s.delInval k).pwr = s.pwr := rfl
@[simp] theorem State.delInval_todo (s : State) (k : Nat) : (s.delInval k).todo = s.todo := rfl
@[simp] theorem State.delInval_pending (s : State) (k : Nat) : (s.delInval k).pending = s.pending := rfl
@[simp] theorem State.delInval_out (s : State) (k : Nat) : (s.delInval k).out = s.out := rfl
@[simp] theorem State.delInval_draws (s : State) (k : Nat) : (s.delInval k).draws = s.draws := rfl

/-! putGran -/
@[simp] theorem State.putGran_dev (s : State) (k : Nat) (v : Gran) : (s.putGran k v).dev = s.dev := rfl
@[simp] theorem State.putGran_ready (s : State) (k : Nat) (v : Gran) : (s.putGran k v).ready = s.ready := rfl
@[simp] theorem State.putGran_log (s : State) (k : Nat) (v : Gran) : (s.putGran k v).log = s.log := rfl
@[simp] theorem State.putGran_stats (s : State) (k : Nat) (v : Gran) : (s.putGran k v).stats = s.stats := rfl
@[simp] theorem State.putGran_ctl (s : State) (k : Nat) (v : Gran) : (s.putGran k v).ctl = s.ctl := rfl
@[simp] theorem State.putGran_ten (s : State) (k : Nat) (v : Gran) : (s.putGran k v).ten = s.ten := rfl
@[simp] theorem State.putGran_pair (s : State) (k : Nat) (v : Gran) : (s.putGran k v).pair = s.pair := rfl
@[simp] theorem State.putGran_fw (s : State) (k : Nat) (v : Gran) : (s.putGran k v).fw = s.fw := rfl
@[simp] theorem State.putGran_pool (s : State) (k : Nat) (v : Gran) :
    (s.putGran k v).pool = { s.pool with grans := s.pool.grans.put k v } := rfl
@[simp] theorem State.putGran_com (s : State) (k : Nat) (v : Gran) : (s.putGran k v).com = s.com := rfl
@[simp] theorem State.putGran_stk (s : State) (k : Nat) (v : Gran) : (s.putGran k v).stk = s.stk := rfl
@[simp] theorem State.putGran_str (s : State) (k : Nat) (v : Gran) : (s.putGran k v).str = s.str := rfl
@[simp] theorem State.putGran_stn (s : State) (k : Nat) (v : Gran) : (s.putGran k v).stn = s.stn := rfl
@[simp] theorem State.putGran_seq (s : State) (k : Nat) (v : Gran) : (s.putGran k v).seq = s.seq := rfl
@[simp] theorem State.putGran_sch (s : State) (k : Nat) (v : Gran) : (s.putGran k v).sch = s.sch := rfl
@[simp] theorem State.putGran_fab (s : State) (k : Nat) (v : Gran) : (s.putGran k v).fab = s.fab := rfl
@[simp] theorem State.putGran_ports (s : State) (k : Nat) (v : Gran) : (s.putGran k v).ports = s.ports := rfl
@[simp] theorem State.putGran_pwr (s : State) (k : Nat) (v : Gran) : (s.putGran k v).pwr = s.pwr := rfl
@[simp] theorem State.putGran_todo (s : State) (k : Nat) (v : Gran) : (s.putGran k v).todo = s.todo := rfl
@[simp] theorem State.putGran_pending (s : State) (k : Nat) (v : Gran) : (s.putGran k v).pending = s.pending := rfl
@[simp] theorem State.putGran_out (s : State) (k : Nat) (v : Gran) : (s.putGran k v).out = s.out := rfl
@[simp] theorem State.putGran_draws (s : State) (k : Nat) (v : Gran) : (s.putGran k v).draws = s.draws := rfl

/-! delGran -/
@[simp] theorem State.delGran_dev (s : State) (k : Nat) : (s.delGran k).dev = s.dev := rfl
@[simp] theorem State.delGran_ready (s : State) (k : Nat) : (s.delGran k).ready = s.ready := rfl
@[simp] theorem State.delGran_log (s : State) (k : Nat) : (s.delGran k).log = s.log := rfl
@[simp] theorem State.delGran_stats (s : State) (k : Nat) : (s.delGran k).stats = s.stats := rfl
@[simp] theorem State.delGran_ctl (s : State) (k : Nat) : (s.delGran k).ctl = s.ctl := rfl
@[simp] theorem State.delGran_ten (s : State) (k : Nat) : (s.delGran k).ten = s.ten := rfl
@[simp] theorem State.delGran_pair (s : State) (k : Nat) : (s.delGran k).pair = s.pair := rfl
@[simp] theorem State.delGran_fw (s : State) (k : Nat) : (s.delGran k).fw = s.fw := rfl
@[simp] theorem State.delGran_pool (s : State) (k : Nat) :
    (s.delGran k).pool = { s.pool with grans := s.pool.grans.del k } := rfl
@[simp] theorem State.delGran_com (s : State) (k : Nat) : (s.delGran k).com = s.com := rfl
@[simp] theorem State.delGran_stk (s : State) (k : Nat) : (s.delGran k).stk = s.stk := rfl
@[simp] theorem State.delGran_str (s : State) (k : Nat) : (s.delGran k).str = s.str := rfl
@[simp] theorem State.delGran_stn (s : State) (k : Nat) : (s.delGran k).stn = s.stn := rfl
@[simp] theorem State.delGran_seq (s : State) (k : Nat) : (s.delGran k).seq = s.seq := rfl
@[simp] theorem State.delGran_sch (s : State) (k : Nat) : (s.delGran k).sch = s.sch := rfl
@[simp] theorem State.delGran_fab (s : State) (k : Nat) : (s.delGran k).fab = s.fab := rfl
@[simp] theorem State.delGran_ports (s : State) (k : Nat) : (s.delGran k).ports = s.ports := rfl
@[simp] theorem State.delGran_pwr (s : State) (k : Nat) : (s.delGran k).pwr = s.pwr := rfl
@[simp] theorem State.delGran_todo (s : State) (k : Nat) : (s.delGran k).todo = s.todo := rfl
@[simp] theorem State.delGran_pending (s : State) (k : Nat) : (s.delGran k).pending = s.pending := rfl
@[simp] theorem State.delGran_out (s : State) (k : Nat) : (s.delGran k).out = s.out := rfl
@[simp] theorem State.delGran_draws (s : State) (k : Nat) : (s.delGran k).draws = s.draws := rfl

/-! putSector -/
@[simp] theorem State.putSector_dev (s : State) (k : Nat) (v : SecMeta) : (s.putSector k v).dev = s.dev := rfl
@[simp] theorem State.putSector_ready (s : State) (k : Nat) (v : SecMeta) : (s.putSector k v).ready = s.ready := rfl
@[simp] theorem State.putSector_log (s : State) (k : Nat) (v : SecMeta) : (s.putSector k v).log = s.log := rfl
@[simp] theorem State.putSector_stats (s : State) (k : Nat) (v : SecMeta) : (s.putSector k v).stats = s.stats := rfl
@[simp] theorem State.putSector_ctl (s : State) (k : Nat) (v : SecMeta) : (s.putSector k v).ctl = s.ctl := rfl
@[simp] theorem State.putSector_ten (s : State) (k : Nat) (v : SecMeta) : (s.putSector k v).ten = s.ten := rfl
@[simp] theorem State.putSector_pair (s : State) (k : Nat) (v : SecMeta) : (s.putSector k v).pair = s.pair := rfl
@[simp] theorem State.putSector_fw (s : State) (k : Nat) (v : SecMeta) : (s.putSector k v).fw = s.fw := rfl
@[simp] theorem State.putSector_pool (s : State) (k : Nat) (v : SecMeta) :
    (s.putSector k v).pool = { s.pool with sectors := s.pool.sectors.put k v } := rfl
@[simp] theorem State.putSector_com (s : State) (k : Nat) (v : SecMeta) : (s.putSector k v).com = s.com := rfl
@[simp] theorem State.putSector_stk (s : State) (k : Nat) (v : SecMeta) : (s.putSector k v).stk = s.stk := rfl
@[simp] theorem State.putSector_str (s : State) (k : Nat) (v : SecMeta) : (s.putSector k v).str = s.str := rfl
@[simp] theorem State.putSector_stn (s : State) (k : Nat) (v : SecMeta) : (s.putSector k v).stn = s.stn := rfl
@[simp] theorem State.putSector_seq (s : State) (k : Nat) (v : SecMeta) : (s.putSector k v).seq = s.seq := rfl
@[simp] theorem State.putSector_sch (s : State) (k : Nat) (v : SecMeta) : (s.putSector k v).sch = s.sch := rfl
@[simp] theorem State.putSector_fab (s : State) (k : Nat) (v : SecMeta) : (s.putSector k v).fab = s.fab := rfl
@[simp] theorem State.putSector_ports (s : State) (k : Nat) (v : SecMeta) : (s.putSector k v).ports = s.ports := rfl
@[simp] theorem State.putSector_pwr (s : State) (k : Nat) (v : SecMeta) : (s.putSector k v).pwr = s.pwr := rfl
@[simp] theorem State.putSector_todo (s : State) (k : Nat) (v : SecMeta) : (s.putSector k v).todo = s.todo := rfl
@[simp] theorem State.putSector_pending (s : State) (k : Nat) (v : SecMeta) : (s.putSector k v).pending = s.pending := rfl
@[simp] theorem State.putSector_out (s : State) (k : Nat) (v : SecMeta) : (s.putSector k v).out = s.out := rfl
@[simp] theorem State.putSector_draws (s : State) (k : Nat) (v : SecMeta) : (s.putSector k v).draws = s.draws := rfl

/-! delSector -/
@[simp] theorem State.delSector_dev (s : State) (k : Nat) : (s.delSector k).dev = s.dev := rfl
@[simp] theorem State.delSector_ready (s : State) (k : Nat) : (s.delSector k).ready = s.ready := rfl
@[simp] theorem State.delSector_log (s : State) (k : Nat) : (s.delSector k).log = s.log := rfl
@[simp] theorem State.delSector_stats (s : State) (k : Nat) : (s.delSector k).stats = s.stats := rfl
@[simp] theorem State.delSector_ctl (s : State) (k : Nat) : (s.delSector k).ctl = s.ctl := rfl
@[simp] theorem State.delSector_ten (s : State) (k : Nat) : (s.delSector k).ten = s.ten := rfl
@[simp] theorem State.delSector_pair (s : State) (k : Nat) : (s.delSector k).pair = s.pair := rfl
@[simp] theorem State.delSector_fw (s : State) (k : Nat) : (s.delSector k).fw = s.fw := rfl
@[simp] theorem State.delSector_pool (s : State) (k : Nat) :
    (s.delSector k).pool = { s.pool with sectors := s.pool.sectors.del k } := rfl
@[simp] theorem State.delSector_com (s : State) (k : Nat) : (s.delSector k).com = s.com := rfl
@[simp] theorem State.delSector_stk (s : State) (k : Nat) : (s.delSector k).stk = s.stk := rfl
@[simp] theorem State.delSector_str (s : State) (k : Nat) : (s.delSector k).str = s.str := rfl
@[simp] theorem State.delSector_stn (s : State) (k : Nat) : (s.delSector k).stn = s.stn := rfl
@[simp] theorem State.delSector_seq (s : State) (k : Nat) : (s.delSector k).seq = s.seq := rfl
@[simp] theorem State.delSector_sch (s : State) (k : Nat) : (s.delSector k).sch = s.sch := rfl
@[simp] theorem State.delSector_fab (s : State) (k : Nat) : (s.delSector k).fab = s.fab := rfl
@[simp] theorem State.delSector_ports (s : State) (k : Nat) : (s.delSector k).ports = s.ports := rfl
@[simp] theorem State.delSector_pwr (s : State) (k : Nat) : (s.delSector k).pwr = s.pwr := rfl
@[simp] theorem State.delSector_todo (s : State) (k : Nat) : (s.delSector k).todo = s.todo := rfl
@[simp] theorem State.delSector_pending (s : State) (k : Nat) : (s.delSector k).pending = s.pending := rfl
@[simp] theorem State.delSector_out (s : State) (k : Nat) : (s.delSector k).out = s.out := rfl
@[simp] theorem State.delSector_draws (s : State) (k : Nat) : (s.delSector k).draws = s.draws := rfl

/-! putCommon -/
@[simp] theorem State.putCommon_dev (s : State) (k : Nat) (v : Common) : (s.putCommon k v).dev = s.dev := rfl
@[simp] theorem State.putCommon_ready (s : State) (k : Nat) (v : Common) : (s.putCommon k v).ready = s.ready := rfl
@[simp] theorem State.putCommon_log (s : State) (k : Nat) (v : Common) : (s.putCommon k v).log = s.log := rfl
@[simp] theorem State.putCommon_stats (s : State) (k : Nat) (v : Common) : (s.putCommon k v).stats = s.stats := rfl
@[simp] theorem State.putCommon_ctl (s : State) (k : Nat) (v : Common) : (s.putCommon k v).ctl = s.ctl := rfl
@[simp] theorem State.putCommon_ten (s : State) (k : Nat) (v : Common) : (s.putCommon k v).ten = s.ten := rfl
@[simp] theorem State.putCommon_pair (s : State) (k : Nat) (v : Common) : (s.putCommon k v).pair = s.pair := rfl
@[simp] theorem State.putCommon_fw (s : State) (k : Nat) (v : Common) : (s.putCommon k v).fw = s.fw := rfl
@[simp] theorem State.putCommon_pool (s : State) (k : Nat) (v : Common) : (s.putCommon k v).pool = s.pool := rfl
@[simp] theorem State.putCommon_com (s : State) (k : Nat) (v : Common) :
    (s.putCommon k v).com = { s.com with commons := s.com.commons.put k v } := rfl
@[simp] theorem State.putCommon_stk (s : State) (k : Nat) (v : Common) : (s.putCommon k v).stk = s.stk := rfl
@[simp] theorem State.putCommon_str (s : State) (k : Nat) (v : Common) : (s.putCommon k v).str = s.str := rfl
@[simp] theorem State.putCommon_stn (s : State) (k : Nat) (v : Common) : (s.putCommon k v).stn = s.stn := rfl
@[simp] theorem State.putCommon_seq (s : State) (k : Nat) (v : Common) : (s.putCommon k v).seq = s.seq := rfl
@[simp] theorem State.putCommon_sch (s : State) (k : Nat) (v : Common) : (s.putCommon k v).sch = s.sch := rfl
@[simp] theorem State.putCommon_fab (s : State) (k : Nat) (v : Common) : (s.putCommon k v).fab = s.fab := rfl
@[simp] theorem State.putCommon_ports (s : State) (k : Nat) (v : Common) : (s.putCommon k v).ports = s.ports := rfl
@[simp] theorem State.putCommon_pwr (s : State) (k : Nat) (v : Common) : (s.putCommon k v).pwr = s.pwr := rfl
@[simp] theorem State.putCommon_todo (s : State) (k : Nat) (v : Common) : (s.putCommon k v).todo = s.todo := rfl
@[simp] theorem State.putCommon_pending (s : State) (k : Nat) (v : Common) : (s.putCommon k v).pending = s.pending := rfl
@[simp] theorem State.putCommon_out (s : State) (k : Nat) (v : Common) : (s.putCommon k v).out = s.out := rfl
@[simp] theorem State.putCommon_draws (s : State) (k : Nat) (v : Common) : (s.putCommon k v).draws = s.draws := rfl

/-! delCommon -/
@[simp] theorem State.delCommon_dev (s : State) (k : Nat) : (s.delCommon k).dev = s.dev := rfl
@[simp] theorem State.delCommon_ready (s : State) (k : Nat) : (s.delCommon k).ready = s.ready := rfl
@[simp] theorem State.delCommon_log (s : State) (k : Nat) : (s.delCommon k).log = s.log := rfl
@[simp] theorem State.delCommon_stats (s : State) (k : Nat) : (s.delCommon k).stats = s.stats := rfl
@[simp] theorem State.delCommon_ctl (s : State) (k : Nat) : (s.delCommon k).ctl = s.ctl := rfl
@[simp] theorem State.delCommon_ten (s : State) (k : Nat) : (s.delCommon k).ten = s.ten := rfl
@[simp] theorem State.delCommon_pair (s : State) (k : Nat) : (s.delCommon k).pair = s.pair := rfl
@[simp] theorem State.delCommon_fw (s : State) (k : Nat) : (s.delCommon k).fw = s.fw := rfl
@[simp] theorem State.delCommon_pool (s : State) (k : Nat) : (s.delCommon k).pool = s.pool := rfl
@[simp] theorem State.delCommon_com (s : State) (k : Nat) :
    (s.delCommon k).com = { s.com with commons := s.com.commons.del k } := rfl
@[simp] theorem State.delCommon_stk (s : State) (k : Nat) : (s.delCommon k).stk = s.stk := rfl
@[simp] theorem State.delCommon_str (s : State) (k : Nat) : (s.delCommon k).str = s.str := rfl
@[simp] theorem State.delCommon_stn (s : State) (k : Nat) : (s.delCommon k).stn = s.stn := rfl
@[simp] theorem State.delCommon_seq (s : State) (k : Nat) : (s.delCommon k).seq = s.seq := rfl
@[simp] theorem State.delCommon_sch (s : State) (k : Nat) : (s.delCommon k).sch = s.sch := rfl
@[simp] theorem State.delCommon_fab (s : State) (k : Nat) : (s.delCommon k).fab = s.fab := rfl
@[simp] theorem State.delCommon_ports (s : State) (k : Nat) : (s.delCommon k).ports = s.ports := rfl
@[simp] theorem State.delCommon_pwr (s : State) (k : Nat) : (s.delCommon k).pwr = s.pwr := rfl
@[simp] theorem State.delCommon_todo (s : State) (k : Nat) : (s.delCommon k).todo = s.todo := rfl
@[simp] theorem State.delCommon_pending (s : State) (k : Nat) : (s.delCommon k).pending = s.pending := rfl
@[simp] theorem State.delCommon_out (s : State) (k : Nat) : (s.delCommon k).out = s.out := rfl
@[simp] theorem State.delCommon_draws (s : State) (k : Nat) : (s.delCommon k).draws = s.draws := rfl

/-! putDir -/
@[simp] theorem State.putDir_dev (s : State) (k : Nat) (v : DirEntry) : (s.putDir k v).dev = s.dev := rfl
@[simp] theorem State.putDir_ready (s : State) (k : Nat) (v : DirEntry) : (s.putDir k v).ready = s.ready := rfl
@[simp] theorem State.putDir_log (s : State) (k : Nat) (v : DirEntry) : (s.putDir k v).log = s.log := rfl
@[simp] theorem State.putDir_stats (s : State) (k : Nat) (v : DirEntry) : (s.putDir k v).stats = s.stats := rfl
@[simp] theorem State.putDir_ctl (s : State) (k : Nat) (v : DirEntry) : (s.putDir k v).ctl = s.ctl := rfl
@[simp] theorem State.putDir_ten (s : State) (k : Nat) (v : DirEntry) : (s.putDir k v).ten = s.ten := rfl
@[simp] theorem State.putDir_pair (s : State) (k : Nat) (v : DirEntry) : (s.putDir k v).pair = s.pair := rfl
@[simp] theorem State.putDir_fw (s : State) (k : Nat) (v : DirEntry) : (s.putDir k v).fw = s.fw := rfl
@[simp] theorem State.putDir_pool (s : State) (k : Nat) (v : DirEntry) : (s.putDir k v).pool = s.pool := rfl
@[simp] theorem State.putDir_com (s : State) (k : Nat) (v : DirEntry) :
    (s.putDir k v).com = { s.com with dir := s.com.dir.put k v } := rfl
@[simp] theorem State.putDir_stk (s : State) (k : Nat) (v : DirEntry) : (s.putDir k v).stk = s.stk := rfl
@[simp] theorem State.putDir_str (s : State) (k : Nat) (v : DirEntry) : (s.putDir k v).str = s.str := rfl
@[simp] theorem State.putDir_stn (s : State) (k : Nat) (v : DirEntry) : (s.putDir k v).stn = s.stn := rfl
@[simp] theorem State.putDir_seq (s : State) (k : Nat) (v : DirEntry) : (s.putDir k v).seq = s.seq := rfl
@[simp] theorem State.putDir_sch (s : State) (k : Nat) (v : DirEntry) : (s.putDir k v).sch = s.sch := rfl
@[simp] theorem State.putDir_fab (s : State) (k : Nat) (v : DirEntry) : (s.putDir k v).fab = s.fab := rfl
@[simp] theorem State.putDir_ports (s : State) (k : Nat) (v : DirEntry) : (s.putDir k v).ports = s.ports := rfl
@[simp] theorem State.putDir_pwr (s : State) (k : Nat) (v : DirEntry) : (s.putDir k v).pwr = s.pwr := rfl
@[simp] theorem State.putDir_todo (s : State) (k : Nat) (v : DirEntry) : (s.putDir k v).todo = s.todo := rfl
@[simp] theorem State.putDir_pending (s : State) (k : Nat) (v : DirEntry) : (s.putDir k v).pending = s.pending := rfl
@[simp] theorem State.putDir_out (s : State) (k : Nat) (v : DirEntry) : (s.putDir k v).out = s.out := rfl
@[simp] theorem State.putDir_draws (s : State) (k : Nat) (v : DirEntry) : (s.putDir k v).draws = s.draws := rfl

/-! delDir -/
@[simp] theorem State.delDir_dev (s : State) (k : Nat) : (s.delDir k).dev = s.dev := rfl
@[simp] theorem State.delDir_ready (s : State) (k : Nat) : (s.delDir k).ready = s.ready := rfl
@[simp] theorem State.delDir_log (s : State) (k : Nat) : (s.delDir k).log = s.log := rfl
@[simp] theorem State.delDir_stats (s : State) (k : Nat) : (s.delDir k).stats = s.stats := rfl
@[simp] theorem State.delDir_ctl (s : State) (k : Nat) : (s.delDir k).ctl = s.ctl := rfl
@[simp] theorem State.delDir_ten (s : State) (k : Nat) : (s.delDir k).ten = s.ten := rfl
@[simp] theorem State.delDir_pair (s : State) (k : Nat) : (s.delDir k).pair = s.pair := rfl
@[simp] theorem State.delDir_fw (s : State) (k : Nat) : (s.delDir k).fw = s.fw := rfl
@[simp] theorem State.delDir_pool (s : State) (k : Nat) : (s.delDir k).pool = s.pool := rfl
@[simp] theorem State.delDir_com (s : State) (k : Nat) :
    (s.delDir k).com = { s.com with dir := s.com.dir.del k } := rfl
@[simp] theorem State.delDir_stk (s : State) (k : Nat) : (s.delDir k).stk = s.stk := rfl
@[simp] theorem State.delDir_str (s : State) (k : Nat) : (s.delDir k).str = s.str := rfl
@[simp] theorem State.delDir_stn (s : State) (k : Nat) : (s.delDir k).stn = s.stn := rfl
@[simp] theorem State.delDir_seq (s : State) (k : Nat) : (s.delDir k).seq = s.seq := rfl
@[simp] theorem State.delDir_sch (s : State) (k : Nat) : (s.delDir k).sch = s.sch := rfl
@[simp] theorem State.delDir_fab (s : State) (k : Nat) : (s.delDir k).fab = s.fab := rfl
@[simp] theorem State.delDir_ports (s : State) (k : Nat) : (s.delDir k).ports = s.ports := rfl
@[simp] theorem State.delDir_pwr (s : State) (k : Nat) : (s.delDir k).pwr = s.pwr := rfl
@[simp] theorem State.delDir_todo (s : State) (k : Nat) : (s.delDir k).todo = s.todo := rfl
@[simp] theorem State.delDir_pending (s : State) (k : Nat) : (s.delDir k).pending = s.pending := rfl
@[simp] theorem State.delDir_out (s : State) (k : Nat) : (s.delDir k).out = s.out := rfl
@[simp] theorem State.delDir_draws (s : State) (k : Nat) : (s.delDir k).draws = s.draws := rfl

/-! putTrans -/
@[simp] theorem State.putTrans_dev (s : State) (k : Nat) (v : Trans) : (s.putTrans k v).dev = s.dev := rfl
@[simp] theorem State.putTrans_ready (s : State) (k : Nat) (v : Trans) : (s.putTrans k v).ready = s.ready := rfl
@[simp] theorem State.putTrans_log (s : State) (k : Nat) (v : Trans) : (s.putTrans k v).log = s.log := rfl
@[simp] theorem State.putTrans_stats (s : State) (k : Nat) (v : Trans) : (s.putTrans k v).stats = s.stats := rfl
@[simp] theorem State.putTrans_ctl (s : State) (k : Nat) (v : Trans) : (s.putTrans k v).ctl = s.ctl := rfl
@[simp] theorem State.putTrans_ten (s : State) (k : Nat) (v : Trans) : (s.putTrans k v).ten = s.ten := rfl
@[simp] theorem State.putTrans_pair (s : State) (k : Nat) (v : Trans) : (s.putTrans k v).pair = s.pair := rfl
@[simp] theorem State.putTrans_fw (s : State) (k : Nat) (v : Trans) : (s.putTrans k v).fw = s.fw := rfl
@[simp] theorem State.putTrans_pool (s : State) (k : Nat) (v : Trans) : (s.putTrans k v).pool = s.pool := rfl
@[simp] theorem State.putTrans_com (s : State) (k : Nat) (v : Trans) :
    (s.putTrans k v).com = { s.com with trans := s.com.trans.put k v } := rfl
@[simp] theorem State.putTrans_stk (s : State) (k : Nat) (v : Trans) : (s.putTrans k v).stk = s.stk := rfl
@[simp] theorem State.putTrans_str (s : State) (k : Nat) (v : Trans) : (s.putTrans k v).str = s.str := rfl
@[simp] theorem State.putTrans_stn (s : State) (k : Nat) (v : Trans) : (s.putTrans k v).stn = s.stn := rfl
@[simp] theorem State.putTrans_seq (s : State) (k : Nat) (v : Trans) : (s.putTrans k v).seq = s.seq := rfl
@[simp] theorem State.putTrans_sch (s : State) (k : Nat) (v : Trans) : (s.putTrans k v).sch = s.sch := rfl
@[simp] theorem State.putTrans_fab (s : State) (k : Nat) (v : Trans) : (s.putTrans k v).fab = s.fab := rfl
@[simp] theorem State.putTrans_ports (s : State) (k : Nat) (v : Trans) : (s.putTrans k v).ports = s.ports := rfl
@[simp] theorem State.putTrans_pwr (s : State) (k : Nat) (v : Trans) : (s.putTrans k v).pwr = s.pwr := rfl
@[simp] theorem State.putTrans_todo (s : State) (k : Nat) (v : Trans) : (s.putTrans k v).todo = s.todo := rfl
@[simp] theorem State.putTrans_pending (s : State) (k : Nat) (v : Trans) : (s.putTrans k v).pending = s.pending := rfl
@[simp] theorem State.putTrans_out (s : State) (k : Nat) (v : Trans) : (s.putTrans k v).out = s.out := rfl
@[simp] theorem State.putTrans_draws (s : State) (k : Nat) (v : Trans) : (s.putTrans k v).draws = s.draws := rfl

/-! delTrans -/
@[simp] theorem State.delTrans_dev (s : State) (k : Nat) : (s.delTrans k).dev = s.dev := rfl
@[simp] theorem State.delTrans_ready (s : State) (k : Nat) : (s.delTrans k).ready = s.ready := rfl
@[simp] theorem State.delTrans_log (s : State) (k : Nat) : (s.delTrans k).log = s.log := rfl
@[simp] theorem State.delTrans_stats (s : State) (k : Nat) : (s.delTrans k).stats = s.stats := rfl
@[simp] theorem State.delTrans_ctl (s : State) (k : Nat) : (s.delTrans k).ctl = s.ctl := rfl
@[simp] theorem State.delTrans_ten (s : State) (k : Nat) : (s.delTrans k).ten = s.ten := rfl
@[simp] theorem State.delTrans_pair (s : State) (k : Nat) : (s.delTrans k).pair = s.pair := rfl
@[simp] theorem State.delTrans_fw (s : State) (k : Nat) : (s.delTrans k).fw = s.fw := rfl
@[simp] theorem State.delTrans_pool (s : State) (k : Nat) : (s.delTrans k).pool = s.pool := rfl
@[simp] theorem State.delTrans_com (s : State) (k : Nat) :
    (s.delTrans k).com = { s.com with trans := s.com.trans.del k } := rfl
@[simp] theorem State.delTrans_stk (s : State) (k : Nat) : (s.delTrans k).stk = s.stk := rfl
@[simp] theorem State.delTrans_str (s : State) (k : Nat) : (s.delTrans k).str = s.str := rfl
@[simp] theorem State.delTrans_stn (s : State) (k : Nat) : (s.delTrans k).stn = s.stn := rfl
@[simp] theorem State.delTrans_seq (s : State) (k : Nat) : (s.delTrans k).seq = s.seq := rfl
@[simp] theorem State.delTrans_sch (s : State) (k : Nat) : (s.delTrans k).sch = s.sch := rfl
@[simp] theorem State.delTrans_fab (s : State) (k : Nat) : (s.delTrans k).fab = s.fab := rfl
@[simp] theorem State.delTrans_ports (s : State) (k : Nat) : (s.delTrans k).ports = s.ports := rfl
@[simp] theorem State.delTrans_pwr (s : State) (k : Nat) : (s.delTrans k).pwr = s.pwr := rfl
@[simp] theorem State.delTrans_todo (s : State) (k : Nat) : (s.delTrans k).todo = s.todo := rfl
@[simp] theorem State.delTrans_pending (s : State) (k : Nat) : (s.delTrans k).pending = s.pending := rfl
@[simp] theorem State.delTrans_out (s : State) (k : Nat) : (s.delTrans k).out = s.out := rfl
@[simp] theorem State.delTrans_draws (s : State) (k : Nat) : (s.delTrans k).draws = s.draws := rfl

/-! putStream -/
@[simp] theorem State.putStream_dev (s : State) (k : Nat) (v : Stream) : (s.putStream k v).dev = s.dev := rfl
@[simp] theorem State.putStream_ready (s : State) (k : Nat) (v : Stream) : (s.putStream k v).ready = s.ready := rfl
@[simp] theorem State.putStream_log (s : State) (k : Nat) (v : Stream) : (s.putStream k v).log = s.log := rfl
@[simp] theorem State.putStream_stats (s : State) (k : Nat) (v : Stream) : (s.putStream k v).stats = s.stats := rfl
@[simp] theorem State.putStream_ctl (s : State) (k : Nat) (v : Stream) : (s.putStream k v).ctl = s.ctl := rfl
@[simp] theorem State.putStream_ten (s : State) (k : Nat) (v : Stream) : (s.putStream k v).ten = s.ten := rfl
@[simp] theorem State.putStream_pair (s : State) (k : Nat) (v : Stream) : (s.putStream k v).pair = s.pair := rfl
@[simp] theorem State.putStream_fw (s : State) (k : Nat) (v : Stream) : (s.putStream k v).fw = s.fw := rfl
@[simp] theorem State.putStream_pool (s : State) (k : Nat) (v : Stream) : (s.putStream k v).pool = s.pool := rfl
@[simp] theorem State.putStream_com (s : State) (k : Nat) (v : Stream) : (s.putStream k v).com = s.com := rfl
@[simp] theorem State.putStream_stk (s : State) (k : Nat) (v : Stream) : (s.putStream k v).stk = s.stk := rfl
@[simp] theorem State.putStream_str (s : State) (k : Nat) (v : Stream) :
    (s.putStream k v).str = { s.str with streams := s.str.streams.put k v } := rfl
@[simp] theorem State.putStream_stn (s : State) (k : Nat) (v : Stream) : (s.putStream k v).stn = s.stn := rfl
@[simp] theorem State.putStream_seq (s : State) (k : Nat) (v : Stream) : (s.putStream k v).seq = s.seq := rfl
@[simp] theorem State.putStream_sch (s : State) (k : Nat) (v : Stream) : (s.putStream k v).sch = s.sch := rfl
@[simp] theorem State.putStream_fab (s : State) (k : Nat) (v : Stream) : (s.putStream k v).fab = s.fab := rfl
@[simp] theorem State.putStream_ports (s : State) (k : Nat) (v : Stream) : (s.putStream k v).ports = s.ports := rfl
@[simp] theorem State.putStream_pwr (s : State) (k : Nat) (v : Stream) : (s.putStream k v).pwr = s.pwr := rfl
@[simp] theorem State.putStream_todo (s : State) (k : Nat) (v : Stream) : (s.putStream k v).todo = s.todo := rfl
@[simp] theorem State.putStream_pending (s : State) (k : Nat) (v : Stream) : (s.putStream k v).pending = s.pending := rfl
@[simp] theorem State.putStream_out (s : State) (k : Nat) (v : Stream) : (s.putStream k v).out = s.out := rfl
@[simp] theorem State.putStream_draws (s : State) (k : Nat) (v : Stream) : (s.putStream k v).draws = s.draws := rfl

/-! delStream -/
@[simp] theorem State.delStream_dev (s : State) (k : Nat) : (s.delStream k).dev = s.dev := rfl
@[simp] theorem State.delStream_ready (s : State) (k : Nat) : (s.delStream k).ready = s.ready := rfl
@[simp] theorem State.delStream_log (s : State) (k : Nat) : (s.delStream k).log = s.log := rfl
@[simp] theorem State.delStream_stats (s : State) (k : Nat) : (s.delStream k).stats = s.stats := rfl
@[simp] theorem State.delStream_ctl (s : State) (k : Nat) : (s.delStream k).ctl = s.ctl := rfl
@[simp] theorem State.delStream_ten (s : State) (k : Nat) : (s.delStream k).ten = s.ten := rfl
@[simp] theorem State.delStream_pair (s : State) (k : Nat) : (s.delStream k).pair = s.pair := rfl
@[simp] theorem State.delStream_fw (s : State) (k : Nat) : (s.delStream k).fw = s.fw := rfl
@[simp] theorem State.delStream_pool (s : State) (k : Nat) : (s.delStream k).pool = s.pool := rfl
@[simp] theorem State.delStream_com (s : State) (k : Nat) : (s.delStream k).com = s.com := rfl
@[simp] theorem State.delStream_stk (s : State) (k : Nat) : (s.delStream k).stk = s.stk := rfl
@[simp] theorem State.delStream_str (s : State) (k : Nat) :
    (s.delStream k).str = { s.str with streams := s.str.streams.del k } := rfl
@[simp] theorem State.delStream_stn (s : State) (k : Nat) : (s.delStream k).stn = s.stn := rfl
@[simp] theorem State.delStream_seq (s : State) (k : Nat) : (s.delStream k).seq = s.seq := rfl
@[simp] theorem State.delStream_sch (s : State) (k : Nat) : (s.delStream k).sch = s.sch := rfl
@[simp] theorem State.delStream_fab (s : State) (k : Nat) : (s.delStream k).fab = s.fab := rfl
@[simp] theorem State.delStream_ports (s : State) (k : Nat) : (s.delStream k).ports = s.ports := rfl
@[simp] theorem State.delStream_pwr (s : State) (k : Nat) : (s.delStream k).pwr = s.pwr := rfl
@[simp] theorem State.delStream_todo (s : State) (k : Nat) : (s.delStream k).todo = s.todo := rfl
@[simp] theorem State.delStream_pending (s : State) (k : Nat) : (s.delStream k).pending = s.pending := rfl
@[simp] theorem State.delStream_out (s : State) (k : Nat) : (s.delStream k).out = s.out := rfl
@[simp] theorem State.delStream_draws (s : State) (k : Nat) : (s.delStream k).draws = s.draws := rfl

/-! putStation -/
@[simp] theorem State.putStation_dev (s : State) (k : Nat) (v : Station) : (s.putStation k v).dev = s.dev := rfl
@[simp] theorem State.putStation_ready (s : State) (k : Nat) (v : Station) : (s.putStation k v).ready = s.ready := rfl
@[simp] theorem State.putStation_log (s : State) (k : Nat) (v : Station) : (s.putStation k v).log = s.log := rfl
@[simp] theorem State.putStation_stats (s : State) (k : Nat) (v : Station) : (s.putStation k v).stats = s.stats := rfl
@[simp] theorem State.putStation_ctl (s : State) (k : Nat) (v : Station) : (s.putStation k v).ctl = s.ctl := rfl
@[simp] theorem State.putStation_ten (s : State) (k : Nat) (v : Station) : (s.putStation k v).ten = s.ten := rfl
@[simp] theorem State.putStation_pair (s : State) (k : Nat) (v : Station) : (s.putStation k v).pair = s.pair := rfl
@[simp] theorem State.putStation_fw (s : State) (k : Nat) (v : Station) : (s.putStation k v).fw = s.fw := rfl
@[simp] theorem State.putStation_pool (s : State) (k : Nat) (v : Station) : (s.putStation k v).pool = s.pool := rfl
@[simp] theorem State.putStation_com (s : State) (k : Nat) (v : Station) : (s.putStation k v).com = s.com := rfl
@[simp] theorem State.putStation_stk (s : State) (k : Nat) (v : Station) : (s.putStation k v).stk = s.stk := rfl
@[simp] theorem State.putStation_str (s : State) (k : Nat) (v : Station) : (s.putStation k v).str = s.str := rfl
@[simp] theorem State.putStation_stn (s : State) (k : Nat) (v : Station) :
    (s.putStation k v).stn = { s.stn with stations := s.stn.stations.put k v } := rfl
@[simp] theorem State.putStation_seq (s : State) (k : Nat) (v : Station) : (s.putStation k v).seq = s.seq := rfl
@[simp] theorem State.putStation_sch (s : State) (k : Nat) (v : Station) : (s.putStation k v).sch = s.sch := rfl
@[simp] theorem State.putStation_fab (s : State) (k : Nat) (v : Station) : (s.putStation k v).fab = s.fab := rfl
@[simp] theorem State.putStation_ports (s : State) (k : Nat) (v : Station) : (s.putStation k v).ports = s.ports := rfl
@[simp] theorem State.putStation_pwr (s : State) (k : Nat) (v : Station) : (s.putStation k v).pwr = s.pwr := rfl
@[simp] theorem State.putStation_todo (s : State) (k : Nat) (v : Station) : (s.putStation k v).todo = s.todo := rfl
@[simp] theorem State.putStation_pending (s : State) (k : Nat) (v : Station) : (s.putStation k v).pending = s.pending := rfl
@[simp] theorem State.putStation_out (s : State) (k : Nat) (v : Station) : (s.putStation k v).out = s.out := rfl
@[simp] theorem State.putStation_draws (s : State) (k : Nat) (v : Station) : (s.putStation k v).draws = s.draws := rfl

/-! delStation -/
@[simp] theorem State.delStation_dev (s : State) (k : Nat) : (s.delStation k).dev = s.dev := rfl
@[simp] theorem State.delStation_ready (s : State) (k : Nat) : (s.delStation k).ready = s.ready := rfl
@[simp] theorem State.delStation_log (s : State) (k : Nat) : (s.delStation k).log = s.log := rfl
@[simp] theorem State.delStation_stats (s : State) (k : Nat) : (s.delStation k).stats = s.stats := rfl
@[simp] theorem State.delStation_ctl (s : State) (k : Nat) : (s.delStation k).ctl = s.ctl := rfl
@[simp] theorem State.delStation_ten (s : State) (k : Nat) : (s.delStation k).ten = s.ten := rfl
@[simp] theorem State.delStation_pair (s : State) (k : Nat) : (s.delStation k).pair = s.pair := rfl
@[simp] theorem State.delStation_fw (s : State) (k : Nat) : (s.delStation k).fw = s.fw := rfl
@[simp] theorem State.delStation_pool (s : State) (k : Nat) : (s.delStation k).pool = s.pool := rfl
@[simp] theorem State.delStation_com (s : State) (k : Nat) : (s.delStation k).com = s.com := rfl
@[simp] theorem State.delStation_stk (s : State) (k : Nat) : (s.delStation k).stk = s.stk := rfl
@[simp] theorem State.delStation_str (s : State) (k : Nat) : (s.delStation k).str = s.str := rfl
@[simp] theorem State.delStation_stn (s : State) (k : Nat) :
    (s.delStation k).stn = { s.stn with stations := s.stn.stations.del k } := rfl
@[simp] theorem State.delStation_seq (s : State) (k : Nat) : (s.delStation k).seq = s.seq := rfl
@[simp] theorem State.delStation_sch (s : State) (k : Nat) : (s.delStation k).sch = s.sch := rfl
@[simp] theorem State.delStation_fab (s : State) (k : Nat) : (s.delStation k).fab = s.fab := rfl
@[simp] theorem State.delStation_ports (s : State) (k : Nat) : (s.delStation k).ports = s.ports := rfl
@[simp] theorem State.delStation_pwr (s : State) (k : Nat) : (s.delStation k).pwr = s.pwr := rfl
@[simp] theorem State.delStation_todo (s : State) (k : Nat) : (s.delStation k).todo = s.todo := rfl
@[simp] theorem State.delStation_pending (s : State) (k : Nat) : (s.delStation k).pending = s.pending := rfl
@[simp] theorem State.delStation_out (s : State) (k : Nat) : (s.delStation k).out = s.out := rfl
@[simp] theorem State.delStation_draws (s : State) (k : Nat) : (s.delStation k).draws = s.draws := rfl

/-! putWindow -/
@[simp] theorem State.putWindow_dev (s : State) (k : Nat) (v : Window) : (s.putWindow k v).dev = s.dev := rfl
@[simp] theorem State.putWindow_ready (s : State) (k : Nat) (v : Window) : (s.putWindow k v).ready = s.ready := rfl
@[simp] theorem State.putWindow_log (s : State) (k : Nat) (v : Window) : (s.putWindow k v).log = s.log := rfl
@[simp] theorem State.putWindow_stats (s : State) (k : Nat) (v : Window) : (s.putWindow k v).stats = s.stats := rfl
@[simp] theorem State.putWindow_ctl (s : State) (k : Nat) (v : Window) : (s.putWindow k v).ctl = s.ctl := rfl
@[simp] theorem State.putWindow_ten (s : State) (k : Nat) (v : Window) : (s.putWindow k v).ten = s.ten := rfl
@[simp] theorem State.putWindow_pair (s : State) (k : Nat) (v : Window) : (s.putWindow k v).pair = s.pair := rfl
@[simp] theorem State.putWindow_fw (s : State) (k : Nat) (v : Window) : (s.putWindow k v).fw = s.fw := rfl
@[simp] theorem State.putWindow_pool (s : State) (k : Nat) (v : Window) : (s.putWindow k v).pool = s.pool := rfl
@[simp] theorem State.putWindow_com (s : State) (k : Nat) (v : Window) : (s.putWindow k v).com = s.com := rfl
@[simp] theorem State.putWindow_stk (s : State) (k : Nat) (v : Window) : (s.putWindow k v).stk = s.stk := rfl
@[simp] theorem State.putWindow_str (s : State) (k : Nat) (v : Window) : (s.putWindow k v).str = s.str := rfl
@[simp] theorem State.putWindow_stn (s : State) (k : Nat) (v : Window) : (s.putWindow k v).stn = s.stn := rfl
@[simp] theorem State.putWindow_seq (s : State) (k : Nat) (v : Window) :
    (s.putWindow k v).seq = { s.seq with windows := s.seq.windows.put k v } := rfl
@[simp] theorem State.putWindow_sch (s : State) (k : Nat) (v : Window) : (s.putWindow k v).sch = s.sch := rfl
@[simp] theorem State.putWindow_fab (s : State) (k : Nat) (v : Window) : (s.putWindow k v).fab = s.fab := rfl
@[simp] theorem State.putWindow_ports (s : State) (k : Nat) (v : Window) : (s.putWindow k v).ports = s.ports := rfl
@[simp] theorem State.putWindow_pwr (s : State) (k : Nat) (v : Window) : (s.putWindow k v).pwr = s.pwr := rfl
@[simp] theorem State.putWindow_todo (s : State) (k : Nat) (v : Window) : (s.putWindow k v).todo = s.todo := rfl
@[simp] theorem State.putWindow_pending (s : State) (k : Nat) (v : Window) : (s.putWindow k v).pending = s.pending := rfl
@[simp] theorem State.putWindow_out (s : State) (k : Nat) (v : Window) : (s.putWindow k v).out = s.out := rfl
@[simp] theorem State.putWindow_draws (s : State) (k : Nat) (v : Window) : (s.putWindow k v).draws = s.draws := rfl

/-! delWindow -/
@[simp] theorem State.delWindow_dev (s : State) (k : Nat) : (s.delWindow k).dev = s.dev := rfl
@[simp] theorem State.delWindow_ready (s : State) (k : Nat) : (s.delWindow k).ready = s.ready := rfl
@[simp] theorem State.delWindow_log (s : State) (k : Nat) : (s.delWindow k).log = s.log := rfl
@[simp] theorem State.delWindow_stats (s : State) (k : Nat) : (s.delWindow k).stats = s.stats := rfl
@[simp] theorem State.delWindow_ctl (s : State) (k : Nat) : (s.delWindow k).ctl = s.ctl := rfl
@[simp] theorem State.delWindow_ten (s : State) (k : Nat) : (s.delWindow k).ten = s.ten := rfl
@[simp] theorem State.delWindow_pair (s : State) (k : Nat) : (s.delWindow k).pair = s.pair := rfl
@[simp] theorem State.delWindow_fw (s : State) (k : Nat) : (s.delWindow k).fw = s.fw := rfl
@[simp] theorem State.delWindow_pool (s : State) (k : Nat) : (s.delWindow k).pool = s.pool := rfl
@[simp] theorem State.delWindow_com (s : State) (k : Nat) : (s.delWindow k).com = s.com := rfl
@[simp] theorem State.delWindow_stk (s : State) (k : Nat) : (s.delWindow k).stk = s.stk := rfl
@[simp] theorem State.delWindow_str (s : State) (k : Nat) : (s.delWindow k).str = s.str := rfl
@[simp] theorem State.delWindow_stn (s : State) (k : Nat) : (s.delWindow k).stn = s.stn := rfl
@[simp] theorem State.delWindow_seq (s : State) (k : Nat) :
    (s.delWindow k).seq = { s.seq with windows := s.seq.windows.del k } := rfl
@[simp] theorem State.delWindow_sch (s : State) (k : Nat) : (s.delWindow k).sch = s.sch := rfl
@[simp] theorem State.delWindow_fab (s : State) (k : Nat) : (s.delWindow k).fab = s.fab := rfl
@[simp] theorem State.delWindow_ports (s : State) (k : Nat) : (s.delWindow k).ports = s.ports := rfl
@[simp] theorem State.delWindow_pwr (s : State) (k : Nat) : (s.delWindow k).pwr = s.pwr := rfl
@[simp] theorem State.delWindow_todo (s : State) (k : Nat) : (s.delWindow k).todo = s.todo := rfl
@[simp] theorem State.delWindow_pending (s : State) (k : Nat) : (s.delWindow k).pending = s.pending := rfl
@[simp] theorem State.delWindow_out (s : State) (k : Nat) : (s.delWindow k).out = s.out := rfl
@[simp] theorem State.delWindow_draws (s : State) (k : Nat) : (s.delWindow k).draws = s.draws := rfl

/-! putContext -/
@[simp] theorem State.putContext_dev (s : State) (k : Nat) (v : Context) : (s.putContext k v).dev = s.dev := rfl
@[simp] theorem State.putContext_ready (s : State) (k : Nat) (v : Context) : (s.putContext k v).ready = s.ready := rfl
@[simp] theorem State.putContext_log (s : State) (k : Nat) (v : Context) : (s.putContext k v).log = s.log := rfl
@[simp] theorem State.putContext_stats (s : State) (k : Nat) (v : Context) : (s.putContext k v).stats = s.stats := rfl
@[simp] theorem State.putContext_ctl (s : State) (k : Nat) (v : Context) : (s.putContext k v).ctl = s.ctl := rfl
@[simp] theorem State.putContext_ten (s : State) (k : Nat) (v : Context) : (s.putContext k v).ten = s.ten := rfl
@[simp] theorem State.putContext_pair (s : State) (k : Nat) (v : Context) : (s.putContext k v).pair = s.pair := rfl
@[simp] theorem State.putContext_fw (s : State) (k : Nat) (v : Context) : (s.putContext k v).fw = s.fw := rfl
@[simp] theorem State.putContext_pool (s : State) (k : Nat) (v : Context) : (s.putContext k v).pool = s.pool := rfl
@[simp] theorem State.putContext_com (s : State) (k : Nat) (v : Context) : (s.putContext k v).com = s.com := rfl
@[simp] theorem State.putContext_stk (s : State) (k : Nat) (v : Context) : (s.putContext k v).stk = s.stk := rfl
@[simp] theorem State.putContext_str (s : State) (k : Nat) (v : Context) : (s.putContext k v).str = s.str := rfl
@[simp] theorem State.putContext_stn (s : State) (k : Nat) (v : Context) : (s.putContext k v).stn = s.stn := rfl
@[simp] theorem State.putContext_seq (s : State) (k : Nat) (v : Context) :
    (s.putContext k v).seq = { s.seq with contexts := s.seq.contexts.put k v } := rfl
@[simp] theorem State.putContext_sch (s : State) (k : Nat) (v : Context) : (s.putContext k v).sch = s.sch := rfl
@[simp] theorem State.putContext_fab (s : State) (k : Nat) (v : Context) : (s.putContext k v).fab = s.fab := rfl
@[simp] theorem State.putContext_ports (s : State) (k : Nat) (v : Context) : (s.putContext k v).ports = s.ports := rfl
@[simp] theorem State.putContext_pwr (s : State) (k : Nat) (v : Context) : (s.putContext k v).pwr = s.pwr := rfl
@[simp] theorem State.putContext_todo (s : State) (k : Nat) (v : Context) : (s.putContext k v).todo = s.todo := rfl
@[simp] theorem State.putContext_pending (s : State) (k : Nat) (v : Context) : (s.putContext k v).pending = s.pending := rfl
@[simp] theorem State.putContext_out (s : State) (k : Nat) (v : Context) : (s.putContext k v).out = s.out := rfl
@[simp] theorem State.putContext_draws (s : State) (k : Nat) (v : Context) : (s.putContext k v).draws = s.draws := rfl

/-! delContext -/
@[simp] theorem State.delContext_dev (s : State) (k : Nat) : (s.delContext k).dev = s.dev := rfl
@[simp] theorem State.delContext_ready (s : State) (k : Nat) : (s.delContext k).ready = s.ready := rfl
@[simp] theorem State.delContext_log (s : State) (k : Nat) : (s.delContext k).log = s.log := rfl
@[simp] theorem State.delContext_stats (s : State) (k : Nat) : (s.delContext k).stats = s.stats := rfl
@[simp] theorem State.delContext_ctl (s : State) (k : Nat) : (s.delContext k).ctl = s.ctl := rfl
@[simp] theorem State.delContext_ten (s : State) (k : Nat) : (s.delContext k).ten = s.ten := rfl
@[simp] theorem State.delContext_pair (s : State) (k : Nat) : (s.delContext k).pair = s.pair := rfl
@[simp] theorem State.delContext_fw (s : State) (k : Nat) : (s.delContext k).fw = s.fw := rfl
@[simp] theorem State.delContext_pool (s : State) (k : Nat) : (s.delContext k).pool = s.pool := rfl
@[simp] theorem State.delContext_com (s : State) (k : Nat) : (s.delContext k).com = s.com := rfl
@[simp] theorem State.delContext_stk (s : State) (k : Nat) : (s.delContext k).stk = s.stk := rfl
@[simp] theorem State.delContext_str (s : State) (k : Nat) : (s.delContext k).str = s.str := rfl
@[simp] theorem State.delContext_stn (s : State) (k : Nat) : (s.delContext k).stn = s.stn := rfl
@[simp] theorem State.delContext_seq (s : State) (k : Nat) :
    (s.delContext k).seq = { s.seq with contexts := s.seq.contexts.del k } := rfl
@[simp] theorem State.delContext_sch (s : State) (k : Nat) : (s.delContext k).sch = s.sch := rfl
@[simp] theorem State.delContext_fab (s : State) (k : Nat) : (s.delContext k).fab = s.fab := rfl
@[simp] theorem State.delContext_ports (s : State) (k : Nat) : (s.delContext k).ports = s.ports := rfl
@[simp] theorem State.delContext_pwr (s : State) (k : Nat) : (s.delContext k).pwr = s.pwr := rfl
@[simp] theorem State.delContext_todo (s : State) (k : Nat) : (s.delContext k).todo = s.todo := rfl
@[simp] theorem State.delContext_pending (s : State) (k : Nat) : (s.delContext k).pending = s.pending := rfl
@[simp] theorem State.delContext_out (s : State) (k : Nat) : (s.delContext k).out = s.out := rfl
@[simp] theorem State.delContext_draws (s : State) (k : Nat) : (s.delContext k).draws = s.draws := rfl

/-! putCadence -/
@[simp] theorem State.putCadence_dev (s : State) (k : Nat) (v : Cadence) : (s.putCadence k v).dev = s.dev := rfl
@[simp] theorem State.putCadence_ready (s : State) (k : Nat) (v : Cadence) : (s.putCadence k v).ready = s.ready := rfl
@[simp] theorem State.putCadence_log (s : State) (k : Nat) (v : Cadence) : (s.putCadence k v).log = s.log := rfl
@[simp] theorem State.putCadence_stats (s : State) (k : Nat) (v : Cadence) : (s.putCadence k v).stats = s.stats := rfl
@[simp] theorem State.putCadence_ctl (s : State) (k : Nat) (v : Cadence) : (s.putCadence k v).ctl = s.ctl := rfl
@[simp] theorem State.putCadence_ten (s : State) (k : Nat) (v : Cadence) : (s.putCadence k v).ten = s.ten := rfl
@[simp] theorem State.putCadence_pair (s : State) (k : Nat) (v : Cadence) : (s.putCadence k v).pair = s.pair := rfl
@[simp] theorem State.putCadence_fw (s : State) (k : Nat) (v : Cadence) : (s.putCadence k v).fw = s.fw := rfl
@[simp] theorem State.putCadence_pool (s : State) (k : Nat) (v : Cadence) : (s.putCadence k v).pool = s.pool := rfl
@[simp] theorem State.putCadence_com (s : State) (k : Nat) (v : Cadence) : (s.putCadence k v).com = s.com := rfl
@[simp] theorem State.putCadence_stk (s : State) (k : Nat) (v : Cadence) : (s.putCadence k v).stk = s.stk := rfl
@[simp] theorem State.putCadence_str (s : State) (k : Nat) (v : Cadence) : (s.putCadence k v).str = s.str := rfl
@[simp] theorem State.putCadence_stn (s : State) (k : Nat) (v : Cadence) : (s.putCadence k v).stn = s.stn := rfl
@[simp] theorem State.putCadence_seq (s : State) (k : Nat) (v : Cadence) :
    (s.putCadence k v).seq = { s.seq with cadence := s.seq.cadence.put k v } := rfl
@[simp] theorem State.putCadence_sch (s : State) (k : Nat) (v : Cadence) : (s.putCadence k v).sch = s.sch := rfl
@[simp] theorem State.putCadence_fab (s : State) (k : Nat) (v : Cadence) : (s.putCadence k v).fab = s.fab := rfl
@[simp] theorem State.putCadence_ports (s : State) (k : Nat) (v : Cadence) : (s.putCadence k v).ports = s.ports := rfl
@[simp] theorem State.putCadence_pwr (s : State) (k : Nat) (v : Cadence) : (s.putCadence k v).pwr = s.pwr := rfl
@[simp] theorem State.putCadence_todo (s : State) (k : Nat) (v : Cadence) : (s.putCadence k v).todo = s.todo := rfl
@[simp] theorem State.putCadence_pending (s : State) (k : Nat) (v : Cadence) : (s.putCadence k v).pending = s.pending := rfl
@[simp] theorem State.putCadence_out (s : State) (k : Nat) (v : Cadence) : (s.putCadence k v).out = s.out := rfl
@[simp] theorem State.putCadence_draws (s : State) (k : Nat) (v : Cadence) : (s.putCadence k v).draws = s.draws := rfl

/-! delCadence -/
@[simp] theorem State.delCadence_dev (s : State) (k : Nat) : (s.delCadence k).dev = s.dev := rfl
@[simp] theorem State.delCadence_ready (s : State) (k : Nat) : (s.delCadence k).ready = s.ready := rfl
@[simp] theorem State.delCadence_log (s : State) (k : Nat) : (s.delCadence k).log = s.log := rfl
@[simp] theorem State.delCadence_stats (s : State) (k : Nat) : (s.delCadence k).stats = s.stats := rfl
@[simp] theorem State.delCadence_ctl (s : State) (k : Nat) : (s.delCadence k).ctl = s.ctl := rfl
@[simp] theorem State.delCadence_ten (s : State) (k : Nat) : (s.delCadence k).ten = s.ten := rfl
@[simp] theorem State.delCadence_pair (s : State) (k : Nat) : (s.delCadence k).pair = s.pair := rfl
@[simp] theorem State.delCadence_fw (s : State) (k : Nat) : (s.delCadence k).fw = s.fw := rfl
@[simp] theorem State.delCadence_pool (s : State) (k : Nat) : (s.delCadence k).pool = s.pool := rfl
@[simp] theorem State.delCadence_com (s : State) (k : Nat) : (s.delCadence k).com = s.com := rfl
@[simp] theorem State.delCadence_stk (s : State) (k : Nat) : (s.delCadence k).stk = s.stk := rfl
@[simp] theorem State.delCadence_str (s : State) (k : Nat) : (s.delCadence k).str = s.str := rfl
@[simp] theorem State.delCadence_stn (s : State) (k : Nat) : (s.delCadence k).stn = s.stn := rfl
@[simp] theorem State.delCadence_seq (s : State) (k : Nat) :
    (s.delCadence k).seq = { s.seq with cadence := s.seq.cadence.del k } := rfl
@[simp] theorem State.delCadence_sch (s : State) (k : Nat) : (s.delCadence k).sch = s.sch := rfl
@[simp] theorem State.delCadence_fab (s : State) (k : Nat) : (s.delCadence k).fab = s.fab := rfl
@[simp] theorem State.delCadence_ports (s : State) (k : Nat) : (s.delCadence k).ports = s.ports := rfl
@[simp] theorem State.delCadence_pwr (s : State) (k : Nat) : (s.delCadence k).pwr = s.pwr := rfl
@[simp] theorem State.delCadence_todo (s : State) (k : Nat) : (s.delCadence k).todo = s.todo := rfl
@[simp] theorem State.delCadence_pending (s : State) (k : Nat) : (s.delCadence k).pending = s.pending := rfl
@[simp] theorem State.delCadence_out (s : State) (k : Nat) : (s.delCadence k).out = s.out := rfl
@[simp] theorem State.delCadence_draws (s : State) (k : Nat) : (s.delCadence k).draws = s.draws := rfl

/-! putSession -/
@[simp] theorem State.putSession_dev (s : State) (k : Nat) (v : Session) : (s.putSession k v).dev = s.dev := rfl
@[simp] theorem State.putSession_ready (s : State) (k : Nat) (v : Session) : (s.putSession k v).ready = s.ready := rfl
@[simp] theorem State.putSession_log (s : State) (k : Nat) (v : Session) : (s.putSession k v).log = s.log := rfl
@[simp] theorem State.putSession_stats (s : State) (k : Nat) (v : Session) : (s.putSession k v).stats = s.stats := rfl
@[simp] theorem State.putSession_ctl (s : State) (k : Nat) (v : Session) :
    (s.putSession k v).ctl = { s.ctl with sessions := s.ctl.sessions.put k v } := rfl
@[simp] theorem State.putSession_ten (s : State) (k : Nat) (v : Session) : (s.putSession k v).ten = s.ten := rfl
@[simp] theorem State.putSession_pair (s : State) (k : Nat) (v : Session) : (s.putSession k v).pair = s.pair := rfl
@[simp] theorem State.putSession_fw (s : State) (k : Nat) (v : Session) : (s.putSession k v).fw = s.fw := rfl
@[simp] theorem State.putSession_pool (s : State) (k : Nat) (v : Session) : (s.putSession k v).pool = s.pool := rfl
@[simp] theorem State.putSession_com (s : State) (k : Nat) (v : Session) : (s.putSession k v).com = s.com := rfl
@[simp] theorem State.putSession_stk (s : State) (k : Nat) (v : Session) : (s.putSession k v).stk = s.stk := rfl
@[simp] theorem State.putSession_str (s : State) (k : Nat) (v : Session) : (s.putSession k v).str = s.str := rfl
@[simp] theorem State.putSession_stn (s : State) (k : Nat) (v : Session) : (s.putSession k v).stn = s.stn := rfl
@[simp] theorem State.putSession_seq (s : State) (k : Nat) (v : Session) : (s.putSession k v).seq = s.seq := rfl
@[simp] theorem State.putSession_sch (s : State) (k : Nat) (v : Session) : (s.putSession k v).sch = s.sch := rfl
@[simp] theorem State.putSession_fab (s : State) (k : Nat) (v : Session) : (s.putSession k v).fab = s.fab := rfl
@[simp] theorem State.putSession_ports (s : State) (k : Nat) (v : Session) : (s.putSession k v).ports = s.ports := rfl
@[simp] theorem State.putSession_pwr (s : State) (k : Nat) (v : Session) : (s.putSession k v).pwr = s.pwr := rfl
@[simp] theorem State.putSession_todo (s : State) (k : Nat) (v : Session) : (s.putSession k v).todo = s.todo := rfl
@[simp] theorem State.putSession_pending (s : State) (k : Nat) (v : Session) : (s.putSession k v).pending = s.pending := rfl
@[simp] theorem State.putSession_out (s : State) (k : Nat) (v : Session) : (s.putSession k v).out = s.out := rfl
@[simp] theorem State.putSession_draws (s : State) (k : Nat) (v : Session) : (s.putSession k v).draws = s.draws := rfl

/-! delSession -/
@[simp] theorem State.delSession_dev (s : State) (k : Nat) : (s.delSession k).dev = s.dev := rfl
@[simp] theorem State.delSession_ready (s : State) (k : Nat) : (s.delSession k).ready = s.ready := rfl
@[simp] theorem State.delSession_log (s : State) (k : Nat) : (s.delSession k).log = s.log := rfl
@[simp] theorem State.delSession_stats (s : State) (k : Nat) : (s.delSession k).stats = s.stats := rfl
@[simp] theorem State.delSession_ctl (s : State) (k : Nat) :
    (s.delSession k).ctl = { s.ctl with sessions := s.ctl.sessions.del k } := rfl
@[simp] theorem State.delSession_ten (s : State) (k : Nat) : (s.delSession k).ten = s.ten := rfl
@[simp] theorem State.delSession_pair (s : State) (k : Nat) : (s.delSession k).pair = s.pair := rfl
@[simp] theorem State.delSession_fw (s : State) (k : Nat) : (s.delSession k).fw = s.fw := rfl
@[simp] theorem State.delSession_pool (s : State) (k : Nat) : (s.delSession k).pool = s.pool := rfl
@[simp] theorem State.delSession_com (s : State) (k : Nat) : (s.delSession k).com = s.com := rfl
@[simp] theorem State.delSession_stk (s : State) (k : Nat) : (s.delSession k).stk = s.stk := rfl
@[simp] theorem State.delSession_str (s : State) (k : Nat) : (s.delSession k).str = s.str := rfl
@[simp] theorem State.delSession_stn (s : State) (k : Nat) : (s.delSession k).stn = s.stn := rfl
@[simp] theorem State.delSession_seq (s : State) (k : Nat) : (s.delSession k).seq = s.seq := rfl
@[simp] theorem State.delSession_sch (s : State) (k : Nat) : (s.delSession k).sch = s.sch := rfl
@[simp] theorem State.delSession_fab (s : State) (k : Nat) : (s.delSession k).fab = s.fab := rfl
@[simp] theorem State.delSession_ports (s : State) (k : Nat) : (s.delSession k).ports = s.ports := rfl
@[simp] theorem State.delSession_pwr (s : State) (k : Nat) : (s.delSession k).pwr = s.pwr := rfl
@[simp] theorem State.delSession_todo (s : State) (k : Nat) : (s.delSession k).todo = s.todo := rfl
@[simp] theorem State.delSession_pending (s : State) (k : Nat) : (s.delSession k).pending = s.pending := rfl
@[simp] theorem State.delSession_out (s : State) (k : Nat) : (s.delSession k).out = s.out := rfl
@[simp] theorem State.delSession_draws (s : State) (k : Nat) : (s.delSession k).draws = s.draws := rfl

/-! putMailbox -/
@[simp] theorem State.putMailbox_dev (s : State) (k : Nat) (v : Mailbox) : (s.putMailbox k v).dev = s.dev := rfl
@[simp] theorem State.putMailbox_ready (s : State) (k : Nat) (v : Mailbox) : (s.putMailbox k v).ready = s.ready := rfl
@[simp] theorem State.putMailbox_log (s : State) (k : Nat) (v : Mailbox) : (s.putMailbox k v).log = s.log := rfl
@[simp] theorem State.putMailbox_stats (s : State) (k : Nat) (v : Mailbox) : (s.putMailbox k v).stats = s.stats := rfl
@[simp] theorem State.putMailbox_ctl (s : State) (k : Nat) (v : Mailbox) :
    (s.putMailbox k v).ctl = { s.ctl with mailboxes := s.ctl.mailboxes.put k v } := rfl
@[simp] theorem State.putMailbox_ten (s : State) (k : Nat) (v : Mailbox) : (s.putMailbox k v).ten = s.ten := rfl
@[simp] theorem State.putMailbox_pair (s : State) (k : Nat) (v : Mailbox) : (s.putMailbox k v).pair = s.pair := rfl
@[simp] theorem State.putMailbox_fw (s : State) (k : Nat) (v : Mailbox) : (s.putMailbox k v).fw = s.fw := rfl
@[simp] theorem State.putMailbox_pool (s : State) (k : Nat) (v : Mailbox) : (s.putMailbox k v).pool = s.pool := rfl
@[simp] theorem State.putMailbox_com (s : State) (k : Nat) (v : Mailbox) : (s.putMailbox k v).com = s.com := rfl
@[simp] theorem State.putMailbox_stk (s : State) (k : Nat) (v : Mailbox) : (s.putMailbox k v).stk = s.stk := rfl
@[simp] theorem State.putMailbox_str (s : State) (k : Nat) (v : Mailbox) : (s.putMailbox k v).str = s.str := rfl
@[simp] theorem State.putMailbox_stn (s : State) (k : Nat) (v : Mailbox) : (s.putMailbox k v).stn = s.stn := rfl
@[simp] theorem State.putMailbox_seq (s : State) (k : Nat) (v : Mailbox) : (s.putMailbox k v).seq = s.seq := rfl
@[simp] theorem State.putMailbox_sch (s : State) (k : Nat) (v : Mailbox) : (s.putMailbox k v).sch = s.sch := rfl
@[simp] theorem State.putMailbox_fab (s : State) (k : Nat) (v : Mailbox) : (s.putMailbox k v).fab = s.fab := rfl
@[simp] theorem State.putMailbox_ports (s : State) (k : Nat) (v : Mailbox) : (s.putMailbox k v).ports = s.ports := rfl
@[simp] theorem State.putMailbox_pwr (s : State) (k : Nat) (v : Mailbox) : (s.putMailbox k v).pwr = s.pwr := rfl
@[simp] theorem State.putMailbox_todo (s : State) (k : Nat) (v : Mailbox) : (s.putMailbox k v).todo = s.todo := rfl
@[simp] theorem State.putMailbox_pending (s : State) (k : Nat) (v : Mailbox) : (s.putMailbox k v).pending = s.pending := rfl
@[simp] theorem State.putMailbox_out (s : State) (k : Nat) (v : Mailbox) : (s.putMailbox k v).out = s.out := rfl
@[simp] theorem State.putMailbox_draws (s : State) (k : Nat) (v : Mailbox) : (s.putMailbox k v).draws = s.draws := rfl

/-! delMailbox -/
@[simp] theorem State.delMailbox_dev (s : State) (k : Nat) : (s.delMailbox k).dev = s.dev := rfl
@[simp] theorem State.delMailbox_ready (s : State) (k : Nat) : (s.delMailbox k).ready = s.ready := rfl
@[simp] theorem State.delMailbox_log (s : State) (k : Nat) : (s.delMailbox k).log = s.log := rfl
@[simp] theorem State.delMailbox_stats (s : State) (k : Nat) : (s.delMailbox k).stats = s.stats := rfl
@[simp] theorem State.delMailbox_ctl (s : State) (k : Nat) :
    (s.delMailbox k).ctl = { s.ctl with mailboxes := s.ctl.mailboxes.del k } := rfl
@[simp] theorem State.delMailbox_ten (s : State) (k : Nat) : (s.delMailbox k).ten = s.ten := rfl
@[simp] theorem State.delMailbox_pair (s : State) (k : Nat) : (s.delMailbox k).pair = s.pair := rfl
@[simp] theorem State.delMailbox_fw (s : State) (k : Nat) : (s.delMailbox k).fw = s.fw := rfl
@[simp] theorem State.delMailbox_pool (s : State) (k : Nat) : (s.delMailbox k).pool = s.pool := rfl
@[simp] theorem State.delMailbox_com (s : State) (k : Nat) : (s.delMailbox k).com = s.com := rfl
@[simp] theorem State.delMailbox_stk (s : State) (k : Nat) : (s.delMailbox k).stk = s.stk := rfl
@[simp] theorem State.delMailbox_str (s : State) (k : Nat) : (s.delMailbox k).str = s.str := rfl
@[simp] theorem State.delMailbox_stn (s : State) (k : Nat) : (s.delMailbox k).stn = s.stn := rfl
@[simp] theorem State.delMailbox_seq (s : State) (k : Nat) : (s.delMailbox k).seq = s.seq := rfl
@[simp] theorem State.delMailbox_sch (s : State) (k : Nat) : (s.delMailbox k).sch = s.sch := rfl
@[simp] theorem State.delMailbox_fab (s : State) (k : Nat) : (s.delMailbox k).fab = s.fab := rfl
@[simp] theorem State.delMailbox_ports (s : State) (k : Nat) : (s.delMailbox k).ports = s.ports := rfl
@[simp] theorem State.delMailbox_pwr (s : State) (k : Nat) : (s.delMailbox k).pwr = s.pwr := rfl
@[simp] theorem State.delMailbox_todo (s : State) (k : Nat) : (s.delMailbox k).todo = s.todo := rfl
@[simp] theorem State.delMailbox_pending (s : State) (k : Nat) : (s.delMailbox k).pending = s.pending := rfl
@[simp] theorem State.delMailbox_out (s : State) (k : Nat) : (s.delMailbox k).out = s.out := rfl
@[simp] theorem State.delMailbox_draws (s : State) (k : Nat) : (s.delMailbox k).draws = s.draws := rfl

/-! putBulk -/
@[simp] theorem State.putBulk_dev (s : State) (k : Nat) (v : Bulk) : (s.putBulk k v).dev = s.dev := rfl
@[simp] theorem State.putBulk_ready (s : State) (k : Nat) (v : Bulk) : (s.putBulk k v).ready = s.ready := rfl
@[simp] theorem State.putBulk_log (s : State) (k : Nat) (v : Bulk) : (s.putBulk k v).log = s.log := rfl
@[simp] theorem State.putBulk_stats (s : State) (k : Nat) (v : Bulk) : (s.putBulk k v).stats = s.stats := rfl
@[simp] theorem State.putBulk_ctl (s : State) (k : Nat) (v : Bulk) :
    (s.putBulk k v).ctl = { s.ctl with bulk := s.ctl.bulk.put k v } := rfl
@[simp] theorem State.putBulk_ten (s : State) (k : Nat) (v : Bulk) : (s.putBulk k v).ten = s.ten := rfl
@[simp] theorem State.putBulk_pair (s : State) (k : Nat) (v : Bulk) : (s.putBulk k v).pair = s.pair := rfl
@[simp] theorem State.putBulk_fw (s : State) (k : Nat) (v : Bulk) : (s.putBulk k v).fw = s.fw := rfl
@[simp] theorem State.putBulk_pool (s : State) (k : Nat) (v : Bulk) : (s.putBulk k v).pool = s.pool := rfl
@[simp] theorem State.putBulk_com (s : State) (k : Nat) (v : Bulk) : (s.putBulk k v).com = s.com := rfl
@[simp] theorem State.putBulk_stk (s : State) (k : Nat) (v : Bulk) : (s.putBulk k v).stk = s.stk := rfl
@[simp] theorem State.putBulk_str (s : State) (k : Nat) (v : Bulk) : (s.putBulk k v).str = s.str := rfl
@[simp] theorem State.putBulk_stn (s : State) (k : Nat) (v : Bulk) : (s.putBulk k v).stn = s.stn := rfl
@[simp] theorem State.putBulk_seq (s : State) (k : Nat) (v : Bulk) : (s.putBulk k v).seq = s.seq := rfl
@[simp] theorem State.putBulk_sch (s : State) (k : Nat) (v : Bulk) : (s.putBulk k v).sch = s.sch := rfl
@[simp] theorem State.putBulk_fab (s : State) (k : Nat) (v : Bulk) : (s.putBulk k v).fab = s.fab := rfl
@[simp] theorem State.putBulk_ports (s : State) (k : Nat) (v : Bulk) : (s.putBulk k v).ports = s.ports := rfl
@[simp] theorem State.putBulk_pwr (s : State) (k : Nat) (v : Bulk) : (s.putBulk k v).pwr = s.pwr := rfl
@[simp] theorem State.putBulk_todo (s : State) (k : Nat) (v : Bulk) : (s.putBulk k v).todo = s.todo := rfl
@[simp] theorem State.putBulk_pending (s : State) (k : Nat) (v : Bulk) : (s.putBulk k v).pending = s.pending := rfl
@[simp] theorem State.putBulk_out (s : State) (k : Nat) (v : Bulk) : (s.putBulk k v).out = s.out := rfl
@[simp] theorem State.putBulk_draws (s : State) (k : Nat) (v : Bulk) : (s.putBulk k v).draws = s.draws := rfl

/-! delBulk -/
@[simp] theorem State.delBulk_dev (s : State) (k : Nat) : (s.delBulk k).dev = s.dev := rfl
@[simp] theorem State.delBulk_ready (s : State) (k : Nat) : (s.delBulk k).ready = s.ready := rfl
@[simp] theorem State.delBulk_log (s : State) (k : Nat) : (s.delBulk k).log = s.log := rfl
@[simp] theorem State.delBulk_stats (s : State) (k : Nat) : (s.delBulk k).stats = s.stats := rfl
@[simp] theorem State.delBulk_ctl (s : State) (k : Nat) :
    (s.delBulk k).ctl = { s.ctl with bulk := s.ctl.bulk.del k } := rfl
@[simp] theorem State.delBulk_ten (s : State) (k : Nat) : (s.delBulk k).ten = s.ten := rfl
@[simp] theorem State.delBulk_pair (s : State) (k : Nat) : (s.delBulk k).pair = s.pair := rfl
@[simp] theorem State.delBulk_fw (s : State) (k : Nat) : (s.delBulk k).fw = s.fw := rfl
@[simp] theorem State.delBulk_pool (s : State) (k : Nat) : (s.delBulk k).pool = s.pool := rfl
@[simp] theorem State.delBulk_com (s : State) (k : Nat) : (s.delBulk k).com = s.com := rfl
@[simp] theorem State.delBulk_stk (s : State) (k : Nat) : (s.delBulk k).stk = s.stk := rfl
@[simp] theorem State.delBulk_str (s : State) (k : Nat) : (s.delBulk k).str = s.str := rfl
@[simp] theorem State.delBulk_stn (s : State) (k : Nat) : (s.delBulk k).stn = s.stn := rfl
@[simp] theorem State.delBulk_seq (s : State) (k : Nat) : (s.delBulk k).seq = s.seq := rfl
@[simp] theorem State.delBulk_sch (s : State) (k : Nat) : (s.delBulk k).sch = s.sch := rfl
@[simp] theorem State.delBulk_fab (s : State) (k : Nat) : (s.delBulk k).fab = s.fab := rfl
@[simp] theorem State.delBulk_ports (s : State) (k : Nat) : (s.delBulk k).ports = s.ports := rfl
@[simp] theorem State.delBulk_pwr (s : State) (k : Nat) : (s.delBulk k).pwr = s.pwr := rfl
@[simp] theorem State.delBulk_todo (s : State) (k : Nat) : (s.delBulk k).todo = s.todo := rfl
@[simp] theorem State.delBulk_pending (s : State) (k : Nat) : (s.delBulk k).pending = s.pending := rfl
@[simp] theorem State.delBulk_out (s : State) (k : Nat) : (s.delBulk k).out = s.out := rfl
@[simp] theorem State.delBulk_draws (s : State) (k : Nat) : (s.delBulk k).draws = s.draws := rfl

/-! putIssued -/
@[simp] theorem State.putIssued_dev (s : State) (k : Nat) (v : Issued) : (s.putIssued k v).dev = s.dev := rfl
@[simp] theorem State.putIssued_ready (s : State) (k : Nat) (v : Issued) : (s.putIssued k v).ready = s.ready := rfl
@[simp] theorem State.putIssued_log (s : State) (k : Nat) (v : Issued) : (s.putIssued k v).log = s.log := rfl
@[simp] theorem State.putIssued_stats (s : State) (k : Nat) (v : Issued) : (s.putIssued k v).stats = s.stats := rfl
@[simp] theorem State.putIssued_ctl (s : State) (k : Nat) (v : Issued) : (s.putIssued k v).ctl = s.ctl := rfl
@[simp] theorem State.putIssued_ten (s : State) (k : Nat) (v : Issued) : (s.putIssued k v).ten = s.ten := rfl
@[simp] theorem State.putIssued_pair (s : State) (k : Nat) (v : Issued) : (s.putIssued k v).pair = s.pair := rfl
@[simp] theorem State.putIssued_fw (s : State) (k : Nat) (v : Issued) : (s.putIssued k v).fw = s.fw := rfl
@[simp] theorem State.putIssued_pool (s : State) (k : Nat) (v : Issued) : (s.putIssued k v).pool = s.pool := rfl
@[simp] theorem State.putIssued_com (s : State) (k : Nat) (v : Issued) : (s.putIssued k v).com = s.com := rfl
@[simp] theorem State.putIssued_stk (s : State) (k : Nat) (v : Issued) : (s.putIssued k v).stk = s.stk := rfl
@[simp] theorem State.putIssued_str (s : State) (k : Nat) (v : Issued) : (s.putIssued k v).str = s.str := rfl
@[simp] theorem State.putIssued_stn (s : State) (k : Nat) (v : Issued) : (s.putIssued k v).stn = s.stn := rfl
@[simp] theorem State.putIssued_seq (s : State) (k : Nat) (v : Issued) : (s.putIssued k v).seq = s.seq := rfl
@[simp] theorem State.putIssued_sch (s : State) (k : Nat) (v : Issued) : (s.putIssued k v).sch = s.sch := rfl
@[simp] theorem State.putIssued_fab (s : State) (k : Nat) (v : Issued) :
    (s.putIssued k v).fab = { s.fab with issued := s.fab.issued.put k v } := rfl
@[simp] theorem State.putIssued_ports (s : State) (k : Nat) (v : Issued) : (s.putIssued k v).ports = s.ports := rfl
@[simp] theorem State.putIssued_pwr (s : State) (k : Nat) (v : Issued) : (s.putIssued k v).pwr = s.pwr := rfl
@[simp] theorem State.putIssued_todo (s : State) (k : Nat) (v : Issued) : (s.putIssued k v).todo = s.todo := rfl
@[simp] theorem State.putIssued_pending (s : State) (k : Nat) (v : Issued) : (s.putIssued k v).pending = s.pending := rfl
@[simp] theorem State.putIssued_out (s : State) (k : Nat) (v : Issued) : (s.putIssued k v).out = s.out := rfl
@[simp] theorem State.putIssued_draws (s : State) (k : Nat) (v : Issued) : (s.putIssued k v).draws = s.draws := rfl

/-! delIssued -/
@[simp] theorem State.delIssued_dev (s : State) (k : Nat) : (s.delIssued k).dev = s.dev := rfl
@[simp] theorem State.delIssued_ready (s : State) (k : Nat) : (s.delIssued k).ready = s.ready := rfl
@[simp] theorem State.delIssued_log (s : State) (k : Nat) : (s.delIssued k).log = s.log := rfl
@[simp] theorem State.delIssued_stats (s : State) (k : Nat) : (s.delIssued k).stats = s.stats := rfl
@[simp] theorem State.delIssued_ctl (s : State) (k : Nat) : (s.delIssued k).ctl = s.ctl := rfl
@[simp] theorem State.delIssued_ten (s : State) (k : Nat) : (s.delIssued k).ten = s.ten := rfl
@[simp] theorem State.delIssued_pair (s : State) (k : Nat) : (s.delIssued k).pair = s.pair := rfl
@[simp] theorem State.delIssued_fw (s : State) (k : Nat) : (s.delIssued k).fw = s.fw := rfl
@[simp] theorem State.delIssued_pool (s : State) (k : Nat) : (s.delIssued k).pool = s.pool := rfl
@[simp] theorem State.delIssued_com (s : State) (k : Nat) : (s.delIssued k).com = s.com := rfl
@[simp] theorem State.delIssued_stk (s : State) (k : Nat) : (s.delIssued k).stk = s.stk := rfl
@[simp] theorem State.delIssued_str (s : State) (k : Nat) : (s.delIssued k).str = s.str := rfl
@[simp] theorem State.delIssued_stn (s : State) (k : Nat) : (s.delIssued k).stn = s.stn := rfl
@[simp] theorem State.delIssued_seq (s : State) (k : Nat) : (s.delIssued k).seq = s.seq := rfl
@[simp] theorem State.delIssued_sch (s : State) (k : Nat) : (s.delIssued k).sch = s.sch := rfl
@[simp] theorem State.delIssued_fab (s : State) (k : Nat) :
    (s.delIssued k).fab = { s.fab with issued := s.fab.issued.del k } := rfl
@[simp] theorem State.delIssued_ports (s : State) (k : Nat) : (s.delIssued k).ports = s.ports := rfl
@[simp] theorem State.delIssued_pwr (s : State) (k : Nat) : (s.delIssued k).pwr = s.pwr := rfl
@[simp] theorem State.delIssued_todo (s : State) (k : Nat) : (s.delIssued k).todo = s.todo := rfl
@[simp] theorem State.delIssued_pending (s : State) (k : Nat) : (s.delIssued k).pending = s.pending := rfl
@[simp] theorem State.delIssued_out (s : State) (k : Nat) : (s.delIssued k).out = s.out := rfl
@[simp] theorem State.delIssued_draws (s : State) (k : Nat) : (s.delIssued k).draws = s.draws := rfl

/-! putTagRec -/
@[simp] theorem State.putTagRec_dev (s : State) (k : Nat) (v : TagRec) : (s.putTagRec k v).dev = s.dev := rfl
@[simp] theorem State.putTagRec_ready (s : State) (k : Nat) (v : TagRec) : (s.putTagRec k v).ready = s.ready := rfl
@[simp] theorem State.putTagRec_log (s : State) (k : Nat) (v : TagRec) : (s.putTagRec k v).log = s.log := rfl
@[simp] theorem State.putTagRec_stats (s : State) (k : Nat) (v : TagRec) : (s.putTagRec k v).stats = s.stats := rfl
@[simp] theorem State.putTagRec_ctl (s : State) (k : Nat) (v : TagRec) : (s.putTagRec k v).ctl = s.ctl := rfl
@[simp] theorem State.putTagRec_ten (s : State) (k : Nat) (v : TagRec) : (s.putTagRec k v).ten = s.ten := rfl
@[simp] theorem State.putTagRec_pair (s : State) (k : Nat) (v : TagRec) : (s.putTagRec k v).pair = s.pair := rfl
@[simp] theorem State.putTagRec_fw (s : State) (k : Nat) (v : TagRec) : (s.putTagRec k v).fw = s.fw := rfl
@[simp] theorem State.putTagRec_pool (s : State) (k : Nat) (v : TagRec) : (s.putTagRec k v).pool = s.pool := rfl
@[simp] theorem State.putTagRec_com (s : State) (k : Nat) (v : TagRec) : (s.putTagRec k v).com = s.com := rfl
@[simp] theorem State.putTagRec_stk (s : State) (k : Nat) (v : TagRec) : (s.putTagRec k v).stk = s.stk := rfl
@[simp] theorem State.putTagRec_str (s : State) (k : Nat) (v : TagRec) : (s.putTagRec k v).str = s.str := rfl
@[simp] theorem State.putTagRec_stn (s : State) (k : Nat) (v : TagRec) : (s.putTagRec k v).stn = s.stn := rfl
@[simp] theorem State.putTagRec_seq (s : State) (k : Nat) (v : TagRec) : (s.putTagRec k v).seq = s.seq := rfl
@[simp] theorem State.putTagRec_sch (s : State) (k : Nat) (v : TagRec) : (s.putTagRec k v).sch = s.sch := rfl
@[simp] theorem State.putTagRec_fab (s : State) (k : Nat) (v : TagRec) :
    (s.putTagRec k v).fab = { s.fab with tags := s.fab.tags.put k v } := rfl
@[simp] theorem State.putTagRec_ports (s : State) (k : Nat) (v : TagRec) : (s.putTagRec k v).ports = s.ports := rfl
@[simp] theorem State.putTagRec_pwr (s : State) (k : Nat) (v : TagRec) : (s.putTagRec k v).pwr = s.pwr := rfl
@[simp] theorem State.putTagRec_todo (s : State) (k : Nat) (v : TagRec) : (s.putTagRec k v).todo = s.todo := rfl
@[simp] theorem State.putTagRec_pending (s : State) (k : Nat) (v : TagRec) : (s.putTagRec k v).pending = s.pending := rfl
@[simp] theorem State.putTagRec_out (s : State) (k : Nat) (v : TagRec) : (s.putTagRec k v).out = s.out := rfl
@[simp] theorem State.putTagRec_draws (s : State) (k : Nat) (v : TagRec) : (s.putTagRec k v).draws = s.draws := rfl

/-! delTagRec -/
@[simp] theorem State.delTagRec_dev (s : State) (k : Nat) : (s.delTagRec k).dev = s.dev := rfl
@[simp] theorem State.delTagRec_ready (s : State) (k : Nat) : (s.delTagRec k).ready = s.ready := rfl
@[simp] theorem State.delTagRec_log (s : State) (k : Nat) : (s.delTagRec k).log = s.log := rfl
@[simp] theorem State.delTagRec_stats (s : State) (k : Nat) : (s.delTagRec k).stats = s.stats := rfl
@[simp] theorem State.delTagRec_ctl (s : State) (k : Nat) : (s.delTagRec k).ctl = s.ctl := rfl
@[simp] theorem State.delTagRec_ten (s : State) (k : Nat) : (s.delTagRec k).ten = s.ten := rfl
@[simp] theorem State.delTagRec_pair (s : State) (k : Nat) : (s.delTagRec k).pair = s.pair := rfl
@[simp] theorem State.delTagRec_fw (s : State) (k : Nat) : (s.delTagRec k).fw = s.fw := rfl
@[simp] theorem State.delTagRec_pool (s : State) (k : Nat) : (s.delTagRec k).pool = s.pool := rfl
@[simp] theorem State.delTagRec_com (s : State) (k : Nat) : (s.delTagRec k).com = s.com := rfl
@[simp] theorem State.delTagRec_stk (s : State) (k : Nat) : (s.delTagRec k).stk = s.stk := rfl
@[simp] theorem State.delTagRec_str (s : State) (k : Nat) : (s.delTagRec k).str = s.str := rfl
@[simp] theorem State.delTagRec_stn (s : State) (k : Nat) : (s.delTagRec k).stn = s.stn := rfl
@[simp] theorem State.delTagRec_seq (s : State) (k : Nat) : (s.delTagRec k).seq = s.seq := rfl
@[simp] theorem State.delTagRec_sch (s : State) (k : Nat) : (s.delTagRec k).sch = s.sch := rfl
@[simp] theorem State.delTagRec_fab (s : State) (k : Nat) :
    (s.delTagRec k).fab = { s.fab with tags := s.fab.tags.del k } := rfl
@[simp] theorem State.delTagRec_ports (s : State) (k : Nat) : (s.delTagRec k).ports = s.ports := rfl
@[simp] theorem State.delTagRec_pwr (s : State) (k : Nat) : (s.delTagRec k).pwr = s.pwr := rfl
@[simp] theorem State.delTagRec_todo (s : State) (k : Nat) : (s.delTagRec k).todo = s.todo := rfl
@[simp] theorem State.delTagRec_pending (s : State) (k : Nat) : (s.delTagRec k).pending = s.pending := rfl
@[simp] theorem State.delTagRec_out (s : State) (k : Nat) : (s.delTagRec k).out = s.out := rfl
@[simp] theorem State.delTagRec_draws (s : State) (k : Nat) : (s.delTagRec k).draws = s.draws := rfl

/-! putNodeRec -/
@[simp] theorem State.putNodeRec_dev (s : State) (k : Nat) (v : NodeRec) : (s.putNodeRec k v).dev = s.dev := rfl
@[simp] theorem State.putNodeRec_ready (s : State) (k : Nat) (v : NodeRec) : (s.putNodeRec k v).ready = s.ready := rfl
@[simp] theorem State.putNodeRec_log (s : State) (k : Nat) (v : NodeRec) : (s.putNodeRec k v).log = s.log := rfl
@[simp] theorem State.putNodeRec_stats (s : State) (k : Nat) (v : NodeRec) : (s.putNodeRec k v).stats = s.stats := rfl
@[simp] theorem State.putNodeRec_ctl (s : State) (k : Nat) (v : NodeRec) : (s.putNodeRec k v).ctl = s.ctl := rfl
@[simp] theorem State.putNodeRec_ten (s : State) (k : Nat) (v : NodeRec) : (s.putNodeRec k v).ten = s.ten := rfl
@[simp] theorem State.putNodeRec_pair (s : State) (k : Nat) (v : NodeRec) : (s.putNodeRec k v).pair = s.pair := rfl
@[simp] theorem State.putNodeRec_fw (s : State) (k : Nat) (v : NodeRec) : (s.putNodeRec k v).fw = s.fw := rfl
@[simp] theorem State.putNodeRec_pool (s : State) (k : Nat) (v : NodeRec) : (s.putNodeRec k v).pool = s.pool := rfl
@[simp] theorem State.putNodeRec_com (s : State) (k : Nat) (v : NodeRec) : (s.putNodeRec k v).com = s.com := rfl
@[simp] theorem State.putNodeRec_stk (s : State) (k : Nat) (v : NodeRec) : (s.putNodeRec k v).stk = s.stk := rfl
@[simp] theorem State.putNodeRec_str (s : State) (k : Nat) (v : NodeRec) : (s.putNodeRec k v).str = s.str := rfl
@[simp] theorem State.putNodeRec_stn (s : State) (k : Nat) (v : NodeRec) : (s.putNodeRec k v).stn = s.stn := rfl
@[simp] theorem State.putNodeRec_seq (s : State) (k : Nat) (v : NodeRec) : (s.putNodeRec k v).seq = s.seq := rfl
@[simp] theorem State.putNodeRec_sch (s : State) (k : Nat) (v : NodeRec) : (s.putNodeRec k v).sch = s.sch := rfl
@[simp] theorem State.putNodeRec_fab (s : State) (k : Nat) (v : NodeRec) :
    (s.putNodeRec k v).fab = { s.fab with nodes := s.fab.nodes.put k v } := rfl
@[simp] theorem State.putNodeRec_ports (s : State) (k : Nat) (v : NodeRec) : (s.putNodeRec k v).ports = s.ports := rfl
@[simp] theorem State.putNodeRec_pwr (s : State) (k : Nat) (v : NodeRec) : (s.putNodeRec k v).pwr = s.pwr := rfl
@[simp] theorem State.putNodeRec_todo (s : State) (k : Nat) (v : NodeRec) : (s.putNodeRec k v).todo = s.todo := rfl
@[simp] theorem State.putNodeRec_pending (s : State) (k : Nat) (v : NodeRec) : (s.putNodeRec k v).pending = s.pending := rfl
@[simp] theorem State.putNodeRec_out (s : State) (k : Nat) (v : NodeRec) : (s.putNodeRec k v).out = s.out := rfl
@[simp] theorem State.putNodeRec_draws (s : State) (k : Nat) (v : NodeRec) : (s.putNodeRec k v).draws = s.draws := rfl

/-! delNodeRec -/
@[simp] theorem State.delNodeRec_dev (s : State) (k : Nat) : (s.delNodeRec k).dev = s.dev := rfl
@[simp] theorem State.delNodeRec_ready (s : State) (k : Nat) : (s.delNodeRec k).ready = s.ready := rfl
@[simp] theorem State.delNodeRec_log (s : State) (k : Nat) : (s.delNodeRec k).log = s.log := rfl
@[simp] theorem State.delNodeRec_stats (s : State) (k : Nat) : (s.delNodeRec k).stats = s.stats := rfl
@[simp] theorem State.delNodeRec_ctl (s : State) (k : Nat) : (s.delNodeRec k).ctl = s.ctl := rfl
@[simp] theorem State.delNodeRec_ten (s : State) (k : Nat) : (s.delNodeRec k).ten = s.ten := rfl
@[simp] theorem State.delNodeRec_pair (s : State) (k : Nat) : (s.delNodeRec k).pair = s.pair := rfl
@[simp] theorem State.delNodeRec_fw (s : State) (k : Nat) : (s.delNodeRec k).fw = s.fw := rfl
@[simp] theorem State.delNodeRec_pool (s : State) (k : Nat) : (s.delNodeRec k).pool = s.pool := rfl
@[simp] theorem State.delNodeRec_com (s : State) (k : Nat) : (s.delNodeRec k).com = s.com := rfl
@[simp] theorem State.delNodeRec_stk (s : State) (k : Nat) : (s.delNodeRec k).stk = s.stk := rfl
@[simp] theorem State.delNodeRec_str (s : State) (k : Nat) : (s.delNodeRec k).str = s.str := rfl
@[simp] theorem State.delNodeRec_stn (s : State) (k : Nat) : (s.delNodeRec k).stn = s.stn := rfl
@[simp] theorem State.delNodeRec_seq (s : State) (k : Nat) : (s.delNodeRec k).seq = s.seq := rfl
@[simp] theorem State.delNodeRec_sch (s : State) (k : Nat) : (s.delNodeRec k).sch = s.sch := rfl
@[simp] theorem State.delNodeRec_fab (s : State) (k : Nat) :
    (s.delNodeRec k).fab = { s.fab with nodes := s.fab.nodes.del k } := rfl
@[simp] theorem State.delNodeRec_ports (s : State) (k : Nat) : (s.delNodeRec k).ports = s.ports := rfl
@[simp] theorem State.delNodeRec_pwr (s : State) (k : Nat) : (s.delNodeRec k).pwr = s.pwr := rfl
@[simp] theorem State.delNodeRec_todo (s : State) (k : Nat) : (s.delNodeRec k).todo = s.todo := rfl
@[simp] theorem State.delNodeRec_pending (s : State) (k : Nat) : (s.delNodeRec k).pending = s.pending := rfl
@[simp] theorem State.delNodeRec_out (s : State) (k : Nat) : (s.delNodeRec k).out = s.out := rfl
@[simp] theorem State.delNodeRec_draws (s : State) (k : Nat) : (s.delNodeRec k).draws = s.draws := rfl

/-! putStack -/
@[simp] theorem State.putStack_dev (s : State) (k : Nat) (v : Stack) : (s.putStack k v).dev = s.dev := rfl
@[simp] theorem State.putStack_ready (s : State) (k : Nat) (v : Stack) : (s.putStack k v).ready = s.ready := rfl
@[simp] theorem State.putStack_log (s : State) (k : Nat) (v : Stack) : (s.putStack k v).log = s.log := rfl
@[simp] theorem State.putStack_stats (s : State) (k : Nat) (v : Stack) : (s.putStack k v).stats = s.stats := rfl
@[simp] theorem State.putStack_ctl (s : State) (k : Nat) (v : Stack) : (s.putStack k v).ctl = s.ctl := rfl
@[simp] theorem State.putStack_ten (s : State) (k : Nat) (v : Stack) : (s.putStack k v).ten = s.ten := rfl
@[simp] theorem State.putStack_pair (s : State) (k : Nat) (v : Stack) : (s.putStack k v).pair = s.pair := rfl
@[simp] theorem State.putStack_fw (s : State) (k : Nat) (v : Stack) : (s.putStack k v).fw = s.fw := rfl
@[simp] theorem State.putStack_pool (s : State) (k : Nat) (v : Stack) : (s.putStack k v).pool = s.pool := rfl
@[simp] theorem State.putStack_com (s : State) (k : Nat) (v : Stack) : (s.putStack k v).com = s.com := rfl
@[simp] theorem State.putStack_stk (s : State) (k : Nat) (v : Stack) :
    (s.putStack k v).stk = { s.stk with units := s.stk.units.put k v } := rfl
@[simp] theorem State.putStack_str (s : State) (k : Nat) (v : Stack) : (s.putStack k v).str = s.str := rfl
@[simp] theorem State.putStack_stn (s : State) (k : Nat) (v : Stack) : (s.putStack k v).stn = s.stn := rfl
@[simp] theorem State.putStack_seq (s : State) (k : Nat) (v : Stack) : (s.putStack k v).seq = s.seq := rfl
@[simp] theorem State.putStack_sch (s : State) (k : Nat) (v : Stack) : (s.putStack k v).sch = s.sch := rfl
@[simp] theorem State.putStack_fab (s : State) (k : Nat) (v : Stack) : (s.putStack k v).fab = s.fab := rfl
@[simp] theorem State.putStack_ports (s : State) (k : Nat) (v : Stack) : (s.putStack k v).ports = s.ports := rfl
@[simp] theorem State.putStack_pwr (s : State) (k : Nat) (v : Stack) : (s.putStack k v).pwr = s.pwr := rfl
@[simp] theorem State.putStack_todo (s : State) (k : Nat) (v : Stack) : (s.putStack k v).todo = s.todo := rfl
@[simp] theorem State.putStack_pending (s : State) (k : Nat) (v : Stack) : (s.putStack k v).pending = s.pending := rfl
@[simp] theorem State.putStack_out (s : State) (k : Nat) (v : Stack) : (s.putStack k v).out = s.out := rfl
@[simp] theorem State.putStack_draws (s : State) (k : Nat) (v : Stack) : (s.putStack k v).draws = s.draws := rfl

/-! delStack -/
@[simp] theorem State.delStack_dev (s : State) (k : Nat) : (s.delStack k).dev = s.dev := rfl
@[simp] theorem State.delStack_ready (s : State) (k : Nat) : (s.delStack k).ready = s.ready := rfl
@[simp] theorem State.delStack_log (s : State) (k : Nat) : (s.delStack k).log = s.log := rfl
@[simp] theorem State.delStack_stats (s : State) (k : Nat) : (s.delStack k).stats = s.stats := rfl
@[simp] theorem State.delStack_ctl (s : State) (k : Nat) : (s.delStack k).ctl = s.ctl := rfl
@[simp] theorem State.delStack_ten (s : State) (k : Nat) : (s.delStack k).ten = s.ten := rfl
@[simp] theorem State.delStack_pair (s : State) (k : Nat) : (s.delStack k).pair = s.pair := rfl
@[simp] theorem State.delStack_fw (s : State) (k : Nat) : (s.delStack k).fw = s.fw := rfl
@[simp] theorem State.delStack_pool (s : State) (k : Nat) : (s.delStack k).pool = s.pool := rfl
@[simp] theorem State.delStack_com (s : State) (k : Nat) : (s.delStack k).com = s.com := rfl
@[simp] theorem State.delStack_stk (s : State) (k : Nat) :
    (s.delStack k).stk = { s.stk with units := s.stk.units.del k } := rfl
@[simp] theorem State.delStack_str (s : State) (k : Nat) : (s.delStack k).str = s.str := rfl
@[simp] theorem State.delStack_stn (s : State) (k : Nat) : (s.delStack k).stn = s.stn := rfl
@[simp] theorem State.delStack_seq (s : State) (k : Nat) : (s.delStack k).seq = s.seq := rfl
@[simp] theorem State.delStack_sch (s : State) (k : Nat) : (s.delStack k).sch = s.sch := rfl
@[simp] theorem State.delStack_fab (s : State) (k : Nat) : (s.delStack k).fab = s.fab := rfl
@[simp] theorem State.delStack_ports (s : State) (k : Nat) : (s.delStack k).ports = s.ports := rfl
@[simp] theorem State.delStack_pwr (s : State) (k : Nat) : (s.delStack k).pwr = s.pwr := rfl
@[simp] theorem State.delStack_todo (s : State) (k : Nat) : (s.delStack k).todo = s.todo := rfl
@[simp] theorem State.delStack_pending (s : State) (k : Nat) : (s.delStack k).pending = s.pending := rfl
@[simp] theorem State.delStack_out (s : State) (k : Nat) : (s.delStack k).out = s.out := rfl
@[simp] theorem State.delStack_draws (s : State) (k : Nat) : (s.delStack k).draws = s.draws := rfl

/-! putPort -/
@[simp] theorem State.putPort_dev (s : State) (k : Nat) (v : Port) : (s.putPort k v).dev = s.dev := rfl
@[simp] theorem State.putPort_ready (s : State) (k : Nat) (v : Port) : (s.putPort k v).ready = s.ready := rfl
@[simp] theorem State.putPort_log (s : State) (k : Nat) (v : Port) : (s.putPort k v).log = s.log := rfl
@[simp] theorem State.putPort_stats (s : State) (k : Nat) (v : Port) : (s.putPort k v).stats = s.stats := rfl
@[simp] theorem State.putPort_ctl (s : State) (k : Nat) (v : Port) : (s.putPort k v).ctl = s.ctl := rfl
@[simp] theorem State.putPort_ten (s : State) (k : Nat) (v : Port) : (s.putPort k v).ten = s.ten := rfl
@[simp] theorem State.putPort_pair (s : State) (k : Nat) (v : Port) : (s.putPort k v).pair = s.pair := rfl
@[simp] theorem State.putPort_fw (s : State) (k : Nat) (v : Port) : (s.putPort k v).fw = s.fw := rfl
@[simp] theorem State.putPort_pool (s : State) (k : Nat) (v : Port) : (s.putPort k v).pool = s.pool := rfl
@[simp] theorem State.putPort_com (s : State) (k : Nat) (v : Port) : (s.putPort k v).com = s.com := rfl
@[simp] theorem State.putPort_stk (s : State) (k : Nat) (v : Port) : (s.putPort k v).stk = s.stk := rfl
@[simp] theorem State.putPort_str (s : State) (k : Nat) (v : Port) : (s.putPort k v).str = s.str := rfl
@[simp] theorem State.putPort_stn (s : State) (k : Nat) (v : Port) : (s.putPort k v).stn = s.stn := rfl
@[simp] theorem State.putPort_seq (s : State) (k : Nat) (v : Port) : (s.putPort k v).seq = s.seq := rfl
@[simp] theorem State.putPort_sch (s : State) (k : Nat) (v : Port) : (s.putPort k v).sch = s.sch := rfl
@[simp] theorem State.putPort_fab (s : State) (k : Nat) (v : Port) : (s.putPort k v).fab = s.fab := rfl
@[simp] theorem State.putPort_ports (s : State) (k : Nat) (v : Port) :
    (s.putPort k v).ports = s.ports.put k v := rfl
@[simp] theorem State.putPort_pwr (s : State) (k : Nat) (v : Port) : (s.putPort k v).pwr = s.pwr := rfl
@[simp] theorem State.putPort_todo (s : State) (k : Nat) (v : Port) : (s.putPort k v).todo = s.todo := rfl
@[simp] theorem State.putPort_pending (s : State) (k : Nat) (v : Port) : (s.putPort k v).pending = s.pending := rfl
@[simp] theorem State.putPort_out (s : State) (k : Nat) (v : Port) : (s.putPort k v).out = s.out := rfl
@[simp] theorem State.putPort_draws (s : State) (k : Nat) (v : Port) : (s.putPort k v).draws = s.draws := rfl

/-! delPort -/
@[simp] theorem State.delPort_dev (s : State) (k : Nat) : (s.delPort k).dev = s.dev := rfl
@[simp] theorem State.delPort_ready (s : State) (k : Nat) : (s.delPort k).ready = s.ready := rfl
@[simp] theorem State.delPort_log (s : State) (k : Nat) : (s.delPort k).log = s.log := rfl
@[simp] theorem State.delPort_stats (s : State) (k : Nat) : (s.delPort k).stats = s.stats := rfl
@[simp] theorem State.delPort_ctl (s : State) (k : Nat) : (s.delPort k).ctl = s.ctl := rfl
@[simp] theorem State.delPort_ten (s : State) (k : Nat) : (s.delPort k).ten = s.ten := rfl
@[simp] theorem State.delPort_pair (s : State) (k : Nat) : (s.delPort k).pair = s.pair := rfl
@[simp] theorem State.delPort_fw (s : State) (k : Nat) : (s.delPort k).fw = s.fw := rfl
@[simp] theorem State.delPort_pool (s : State) (k : Nat) : (s.delPort k).pool = s.pool := rfl
@[simp] theorem State.delPort_com (s : State) (k : Nat) : (s.delPort k).com = s.com := rfl
@[simp] theorem State.delPort_stk (s : State) (k : Nat) : (s.delPort k).stk = s.stk := rfl
@[simp] theorem State.delPort_str (s : State) (k : Nat) : (s.delPort k).str = s.str := rfl
@[simp] theorem State.delPort_stn (s : State) (k : Nat) : (s.delPort k).stn = s.stn := rfl
@[simp] theorem State.delPort_seq (s : State) (k : Nat) : (s.delPort k).seq = s.seq := rfl
@[simp] theorem State.delPort_sch (s : State) (k : Nat) : (s.delPort k).sch = s.sch := rfl
@[simp] theorem State.delPort_fab (s : State) (k : Nat) : (s.delPort k).fab = s.fab := rfl
@[simp] theorem State.delPort_ports (s : State) (k : Nat) :
    (s.delPort k).ports = s.ports.del k := rfl
@[simp] theorem State.delPort_pwr (s : State) (k : Nat) : (s.delPort k).pwr = s.pwr := rfl
@[simp] theorem State.delPort_todo (s : State) (k : Nat) : (s.delPort k).todo = s.todo := rfl
@[simp] theorem State.delPort_pending (s : State) (k : Nat) : (s.delPort k).pending = s.pending := rfl
@[simp] theorem State.delPort_out (s : State) (k : Nat) : (s.delPort k).out = s.out := rfl
@[simp] theorem State.delPort_draws (s : State) (k : Nat) : (s.delPort k).draws = s.draws := rfl

/-! later -/
@[simp] theorem State.later_dev (s : State) (l : List Todo) : (s.later l).dev = s.dev := rfl
@[simp] theorem State.later_ready (s : State) (l : List Todo) : (s.later l).ready = s.ready := rfl
@[simp] theorem State.later_log (s : State) (l : List Todo) : (s.later l).log = s.log := rfl
@[simp] theorem State.later_stats (s : State) (l : List Todo) : (s.later l).stats = s.stats := rfl
@[simp] theorem State.later_ctl (s : State) (l : List Todo) : (s.later l).ctl = s.ctl := rfl
@[simp] theorem State.later_ten (s : State) (l : List Todo) : (s.later l).ten = s.ten := rfl
@[simp] theorem State.later_pair (s : State) (l : List Todo) : (s.later l).pair = s.pair := rfl
@[simp] theorem State.later_fw (s : State) (l : List Todo) : (s.later l).fw = s.fw := rfl
@[simp] theorem State.later_pool (s : State) (l : List Todo) : (s.later l).pool = s.pool := rfl
@[simp] theorem State.later_com (s : State) (l : List Todo) : (s.later l).com = s.com := rfl
@[simp] theorem State.later_stk (s : State) (l : List Todo) : (s.later l).stk = s.stk := rfl
@[simp] theorem State.later_str (s : State) (l : List Todo) : (s.later l).str = s.str := rfl
@[simp] theorem State.later_stn (s : State) (l : List Todo) : (s.later l).stn = s.stn := rfl
@[simp] theorem State.later_seq (s : State) (l : List Todo) : (s.later l).seq = s.seq := rfl
@[simp] theorem State.later_sch (s : State) (l : List Todo) : (s.later l).sch = s.sch := rfl
@[simp] theorem State.later_fab (s : State) (l : List Todo) : (s.later l).fab = s.fab := rfl
@[simp] theorem State.later_ports (s : State) (l : List Todo) : (s.later l).ports = s.ports := rfl
@[simp] theorem State.later_pwr (s : State) (l : List Todo) : (s.later l).pwr = s.pwr := rfl
@[simp] theorem State.later_todo (s : State) (l : List Todo) : (s.later l).todo = s.todo ++ l := rfl
@[simp] theorem State.later_pending (s : State) (l : List Todo) : (s.later l).pending = s.pending := rfl
@[simp] theorem State.later_out (s : State) (l : List Todo) : (s.later l).out = s.out := rfl
@[simp] theorem State.later_draws (s : State) (l : List Todo) : (s.later l).draws = s.draws := rfl

/-! emit -/
@[simp] theorem State.emit_dev (s : State) (o : Output) : (s.emit o).dev = s.dev := rfl
@[simp] theorem State.emit_ready (s : State) (o : Output) : (s.emit o).ready = s.ready := rfl
@[simp] theorem State.emit_log (s : State) (o : Output) : (s.emit o).log = s.log := rfl
@[simp] theorem State.emit_stats (s : State) (o : Output) : (s.emit o).stats = s.stats := rfl
@[simp] theorem State.emit_ctl (s : State) (o : Output) : (s.emit o).ctl = s.ctl := rfl
@[simp] theorem State.emit_ten (s : State) (o : Output) : (s.emit o).ten = s.ten := rfl
@[simp] theorem State.emit_pair (s : State) (o : Output) : (s.emit o).pair = s.pair := rfl
@[simp] theorem State.emit_fw (s : State) (o : Output) : (s.emit o).fw = s.fw := rfl
@[simp] theorem State.emit_pool (s : State) (o : Output) : (s.emit o).pool = s.pool := rfl
@[simp] theorem State.emit_com (s : State) (o : Output) : (s.emit o).com = s.com := rfl
@[simp] theorem State.emit_stk (s : State) (o : Output) : (s.emit o).stk = s.stk := rfl
@[simp] theorem State.emit_str (s : State) (o : Output) : (s.emit o).str = s.str := rfl
@[simp] theorem State.emit_stn (s : State) (o : Output) : (s.emit o).stn = s.stn := rfl
@[simp] theorem State.emit_seq (s : State) (o : Output) : (s.emit o).seq = s.seq := rfl
@[simp] theorem State.emit_sch (s : State) (o : Output) : (s.emit o).sch = s.sch := rfl
@[simp] theorem State.emit_fab (s : State) (o : Output) : (s.emit o).fab = s.fab := rfl
@[simp] theorem State.emit_ports (s : State) (o : Output) : (s.emit o).ports = s.ports := rfl
@[simp] theorem State.emit_pwr (s : State) (o : Output) : (s.emit o).pwr = s.pwr := rfl
@[simp] theorem State.emit_todo (s : State) (o : Output) : (s.emit o).todo = s.todo := rfl
@[simp] theorem State.emit_pending (s : State) (o : Output) : (s.emit o).pending = s.pending := rfl
@[simp] theorem State.emit_out (s : State) (o : Output) : (s.emit o).out = o :: s.out := rfl
@[simp] theorem State.emit_draws (s : State) (o : Output) : (s.emit o).draws = s.draws := rfl

/-! modPort -/
@[simp] theorem State.modPort_dev (s : State) (p : Nat) (f : Port → Port) : (s.modPort p f).dev = s.dev := rfl
@[simp] theorem State.modPort_ready (s : State) (p : Nat) (f : Port → Port) : (s.modPort p f).ready = s.ready := rfl
@[simp] theorem State.modPort_log (s : State) (p : Nat) (f : Port → Port) : (s.modPort p f).log = s.log := rfl
@[simp] theorem State.modPort_stats (s : State) (p : Nat) (f : Port → Port) : (s.modPort p f).stats = s.stats := rfl
@[simp] theorem State.modPort_ctl (s : State) (p : Nat) (f : Port → Port) : (s.modPort p f).ctl = s.ctl := rfl
@[simp] theorem State.modPort_ten (s : State) (p : Nat) (f : Port → Port) : (s.modPort p f).ten = s.ten := rfl
@[simp] theorem State.modPort_pair (s : State) (p : Nat) (f : Port → Port) : (s.modPort p f).pair = s.pair := rfl
@[simp] theorem State.modPort_fw (s : State) (p : Nat) (f : Port → Port) : (s.modPort p f).fw = s.fw := rfl
@[simp] theorem State.modPort_pool (s : State) (p : Nat) (f : Port → Port) : (s.modPort p f).pool = s.pool := rfl
@[simp] theorem State.modPort_com (s : State) (p : Nat) (f : Port → Port) : (s.modPort p f).com = s.com := rfl
@[simp] theorem State.modPort_stk (s : State) (p : Nat) (f : Port → Port) : (s.modPort p f).stk = s.stk := rfl
@[simp] theorem State.modPort_str (s : State) (p : Nat) (f : Port → Port) : (s.modPort p f).str = s.str := rfl
@[simp] theorem State.modPort_stn (s : State) (p : Nat) (f : Port → Port) : (s.modPort p f).stn = s.stn := rfl
@[simp] theorem State.modPort_seq (s : State) (p : Nat) (f : Port → Port) : (s.modPort p f).seq = s.seq := rfl
@[simp] theorem State.modPort_sch (s : State) (p : Nat) (f : Port → Port) : (s.modPort p f).sch = s.sch := rfl
@[simp] theorem State.modPort_fab (s : State) (p : Nat) (f : Port → Port) : (s.modPort p f).fab = s.fab := rfl
@[simp] theorem State.modPort_ports (s : State) (p : Nat) (f : Port → Port) : (s.modPort p f).ports = s.ports.put p (f (s.port p)) := rfl
@[simp] theorem State.modPort_pwr (s : State) (p : Nat) (f : Port → Port) : (s.modPort p f).pwr = s.pwr := rfl
@[simp] theorem State.modPort_todo (s : State) (p : Nat) (f : Port → Port) : (s.modPort p f).todo = s.todo := rfl
@[simp] theorem State.modPort_pending (s : State) (p : Nat) (f : Port → Port) : (s.modPort p f).pending = s.pending := rfl
@[simp] theorem State.modPort_out (s : State) (p : Nat) (f : Port → Port) : (s.modPort p f).out = s.out := rfl
@[simp] theorem State.modPort_draws (s : State) (p : Nat) (f : Port → Port) : (s.modPort p f).draws = s.draws := rfl

/-! modStack -/
@[simp] theorem State.modStack_dev (s : State) (k : Nat) (f : Stack → Stack) : (s.modStack k f).dev = s.dev := rfl
@[simp] theorem State.modStack_ready (s : State) (k : Nat) (f : Stack → Stack) : (s.modStack k f).ready = s.ready := rfl
@[simp] theorem State.modStack_log (s : State) (k : Nat) (f : Stack → Stack) : (s.modStack k f).log = s.log := rfl
@[simp] theorem State.modStack_stats (s : State) (k : Nat) (f : Stack → Stack) : (s.modStack k f).stats = s.stats := rfl
@[simp] theorem State.modStack_ctl (s : State) (k : Nat) (f : Stack → Stack) : (s.modStack k f).ctl = s.ctl := rfl
@[simp] theorem State.modStack_ten (s : State) (k : Nat) (f : Stack → Stack) : (s.modStack k f).ten = s.ten := rfl
@[simp] theorem State.modStack_pair (s : State) (k : Nat) (f : Stack → Stack) : (s.modStack k f).pair = s.pair := rfl
@[simp] theorem State.modStack_fw (s : State) (k : Nat) (f : Stack → Stack) : (s.modStack k f).fw = s.fw := rfl
@[simp] theorem State.modStack_pool (s : State) (k : Nat) (f : Stack → Stack) : (s.modStack k f).pool = s.pool := rfl
@[simp] theorem State.modStack_com (s : State) (k : Nat) (f : Stack → Stack) : (s.modStack k f).com = s.com := rfl
@[simp] theorem State.modStack_stk (s : State) (k : Nat) (f : Stack → Stack) : (s.modStack k f).stk = { s.stk with units := s.stk.units.put k (f (s.stack k)) } := rfl
@[simp] theorem State.modStack_str (s : State) (k : Nat) (f : Stack → Stack) : (s.modStack k f).str = s.str := rfl
@[simp] theorem State.modStack_stn (s : State) (k : Nat) (f : Stack → Stack) : (s.modStack k f).stn = s.stn := rfl
@[simp] theorem State.modStack_seq (s : State) (k : Nat) (f : Stack → Stack) : (s.modStack k f).seq = s.seq := rfl
@[simp] theorem State.modStack_sch (s : State) (k : Nat) (f : Stack → Stack) : (s.modStack k f).sch = s.sch := rfl
@[simp] theorem State.modStack_fab (s : State) (k : Nat) (f : Stack → Stack) : (s.modStack k f).fab = s.fab := rfl
@[simp] theorem State.modStack_ports (s : State) (k : Nat) (f : Stack → Stack) : (s.modStack k f).ports = s.ports := rfl
@[simp] theorem State.modStack_pwr (s : State) (k : Nat) (f : Stack → Stack) : (s.modStack k f).pwr = s.pwr := rfl
@[simp] theorem State.modStack_todo (s : State) (k : Nat) (f : Stack → Stack) : (s.modStack k f).todo = s.todo := rfl
@[simp] theorem State.modStack_pending (s : State) (k : Nat) (f : Stack → Stack) : (s.modStack k f).pending = s.pending := rfl
@[simp] theorem State.modStack_out (s : State) (k : Nat) (f : Stack → Stack) : (s.modStack k f).out = s.out := rfl
@[simp] theorem State.modStack_draws (s : State) (k : Nat) (f : Stack → Stack) : (s.modStack k f).draws = s.draws := rfl

/-! modStation -/
@[simp] theorem State.modStation_dev (s : State) (n : Nat) (f : Station → Station) : (s.modStation n f).dev = s.dev := rfl
@[simp] theorem State.modStation_ready (s : State) (n : Nat) (f : Station → Station) : (s.modStation n f).ready = s.ready := rfl
@[simp] theorem State.modStation_log (s : State) (n : Nat) (f : Station → Station) : (s.modStation n f).log = s.log := rfl
@[simp] theorem State.modStation_stats (s : State) (n : Nat) (f : Station → Station) : (s.modStation n f).stats = s.stats := rfl
@[simp] theorem State.modStation_ctl (s : State) (n : Nat) (f : Station → Station) : (s.modStation n f).ctl = s.ctl := rfl
@[simp] theorem State.modStation_ten (s : State) (n : Nat) (f : Station → Station) : (s.modStation n f).ten = s.ten := rfl
@[simp] theorem State.modStation_pair (s : State) (n : Nat) (f : Station → Station) : (s.modStation n f).pair = s.pair := rfl
@[simp] theorem State.modStation_fw (s : State) (n : Nat) (f : Station → Station) : (s.modStation n f).fw = s.fw := rfl
@[simp] theorem State.modStation_pool (s : State) (n : Nat) (f : Station → Station) : (s.modStation n f).pool = s.pool := rfl
@[simp] theorem State.modStation_com (s : State) (n : Nat) (f : Station → Station) : (s.modStation n f).com = s.com := rfl
@[simp] theorem State.modStation_stk (s : State) (n : Nat) (f : Station → Station) : (s.modStation n f).stk = s.stk := rfl
@[simp] theorem State.modStation_str (s : State) (n : Nat) (f : Station → Station) : (s.modStation n f).str = s.str := rfl
@[simp] theorem State.modStation_stn (s : State) (n : Nat) (f : Station → Station) : (s.modStation n f).stn = { s.stn with stations := s.stn.stations.put n (f (s.station n)) } := rfl
@[simp] theorem State.modStation_seq (s : State) (n : Nat) (f : Station → Station) : (s.modStation n f).seq = s.seq := rfl
@[simp] theorem State.modStation_sch (s : State) (n : Nat) (f : Station → Station) : (s.modStation n f).sch = s.sch := rfl
@[simp] theorem State.modStation_fab (s : State) (n : Nat) (f : Station → Station) : (s.modStation n f).fab = s.fab := rfl
@[simp] theorem State.modStation_ports (s : State) (n : Nat) (f : Station → Station) : (s.modStation n f).ports = s.ports := rfl
@[simp] theorem State.modStation_pwr (s : State) (n : Nat) (f : Station → Station) : (s.modStation n f).pwr = s.pwr := rfl
@[simp] theorem State.modStation_todo (s : State) (n : Nat) (f : Station → Station) : (s.modStation n f).todo = s.todo := rfl
@[simp] theorem State.modStation_pending (s : State) (n : Nat) (f : Station → Station) : (s.modStation n f).pending = s.pending := rfl
@[simp] theorem State.modStation_out (s : State) (n : Nat) (f : Station → Station) : (s.modStation n f).out = s.out := rfl
@[simp] theorem State.modStation_draws (s : State) (n : Nat) (f : Station → Station) : (s.modStation n f).draws = s.draws := rfl

end Sys2Proof.Machine
end

