-- ==== Sys2Proof/Laws/Taken.lean ====
section
/-! SUPPORT. Taken.lean: a CCP command that reaches its chapter does what the chapter's body says. -/

namespace Sys2Proof.Machine

/-- A command that is taken goes through its checks. -/
theorem taken_serve {spec c a b s x t} (body : CcpBody) (h : Taken spec c a b s x t) :
   ccpRowOf spec body c a b s = .next (ccpBegin spec body x t).settle := by
  obtain ⟨h1,h2,h3,h4,h5,v,mb,h6,h7,h8,h9,h10⟩ := h
  have hw : s.wakeByFrame.ctl = s.ctl ∧ s.wakeByFrame.dev = s.dev ∧ s.wakeByFrame.ready = s.ready := by
    unfold State.wakeByFrame; split <;> exact ⟨rfl, rfl, rfl⟩
  have hb : s.wakeByFrame.attestBusy spec.opcode = false := by
    simp [State.attestBusy, State.intakeHolds, hw.2.2, h3]
  have hd : s.dead = false := by
    simp only [State.ccpAnswers, Bool.and_eq_true, beq_iff_eq] at h2
    simp [State.dead, h2.1]
  have hn : isNewCmd v c.cmdId = isNewCmd { v with port := c.port, idleDue := s.dev.tick + (s.eth c.port).idleUnits * 2 ^ 20 } c.cmdId := rfl
  have he : s.wakeByFrame.eth = s.eth := by funext p; simp only [State.eth, hw.1]
  have hc : s.wakeByFrame.touchSession c.session c.port = s.wakeByFrame.putSession c.session { v with port := c.port, idleDue := s.dev.tick + (s.eth c.port).idleUnits * 2 ^ 20 } := by
    simp only [State.touchSession, hw.1, hw.2.1, he, h6]
  have hf : (s.wakeByFrame.putSession c.session { v with port := c.port, idleDue := s.dev.tick + (s.eth c.port).idleUnits * 2 ^ 20 }).freeMailbox c.session = some mb := by
    rw [← h8]; unfold State.freeMailbox; simp only [State.putSession, hw.1]
  have hp : ∀ (y : Session) , (s.wakeByFrame.putSession c.session y).ctl.sessions.find c.session = some y := by
    intro y; simp [State.putSession]
  have key : ccpServe spec body c a b s = ccpBegin spec body x t := by
    simp only [ccpServe, h2, hb, State.intakeHolds, h3, Bool.not_true, Bool.false_and, Bool.false_eq_true, if_false, h6, hc, hp, hf]
    have e1 : (s.wakeByFrame.putSession c.session { v with port := c.port, idleDue := s.dev.tick + (s.eth c.port).idleUnits * 2 ^ 20 }).dev = s.dev := hw.2.1
    have e2 : (!(isNewCmd { v with port := c.port, idleDue := s.dev.tick + (s.eth c.port).idleUnits * 2 ^ 20 } c.cmdId || v.cmds.find c.cmdId == some .again)) = false := by
      rw [← hn]; rcases h7 with h | h <;> simp [h]
    have e3 : (acceptCmd { v with port := c.port, idleDue := s.dev.tick + (s.eth c.port).idleUnits * 2 ^ 20 } c.cmdId).cmds = v.cmds := rfl
    simp only [e1, h4, h5, Option.isSome_none, Bool.false_eq_true, if_false, e2]
    subst h9 h10
    have e4 : ∀ a b, (s.wakeByFrame.putSession c.session a).putSession c.session b = s.wakeByFrame.putSession c.session b := by
      intro a b; simp only [State.putSession, Tbl.put_put]
    rw [e4]
    rfl
  have e5 : ccpRowOf spec body c a b s = .next (ccpServe spec body c a b s).settle := by
    simp only [ccpRowOf, effect, h1, decide_true, if_true, State.after, hd, Bool.false_eq_true, if_false]
  rw [e5, key]

/-- A command that reaches its chapter completes as the body answers, or is held. -/
theorem reaches_serve {spec c a b s x t} (body : CcpBody) (h : Reaches spec c a b s x t) :
   ccpRowOf spec body c a b s = .next (let o := body x t; match o.reply with
  | some r => (o.after (o.s.respond x.ref r)).settle
  | none => (o.after o.s).settle) := by
  rw [taken_serve body h.1, ccpBegin, checked, h.2]
  generalize body x t = o
  obtain ⟨o1, o2, o3⟩ := o
  cases o2 with
  | none => rfl
  | some r => rfl

end Sys2Proof.Machine
end

