-- ==== Sys2Proof/Machine/Pins.lean ====
section
/-! DEFINITION. Pins.lean: pins whose levels follow from the state (21 Table 21-7): the flash's reset (R523), the power of the card
slot (R524), and the JTAG port (R525, 09 R236). -/

namespace Sys2Proof.Machine

/-- XSPI_RESET_N: low while RESET_N is low (21 R523, log 196). -/
def State.xspiResetN (s : State) : Bool := s.dev.resetN

/-- SD_PWR_EN: the card is powered during the reads that 19 R489 permits alone: FW_STAGE from the card, and the recovery and
provisioning reads of a boot (21 R524, log 196). -/
def State.sdPower (s : State) : Bool :=
  s.dev.phase == .keyBoot || s.fw.staging.any (·.channel.isNone)

/-- MBX_FULL_A and MBX_FULL_B: high while the port's intake FIFO is held full (17 R455, R463). -/
def State.mbxFull (s : State) (p : Nat) : Bool := (s.eth p).full

/-! The JTAG port (21 R525). -/

/-- Whether the port offers an instruction: boundary scan always, other functions only under an unlock token (09 R236). -/
def State.tapOffers (s : State) (i : TapInstr) : Bool := i != .debug || s.fw.unlocked

/-- The function that an instruction in the register has: EXTEST and EXTEST_PULSE only while RESET_N is low, and BYPASS otherwise; what
is not offered acts as BYPASS (21 R525, log 195). -/
def State.tapFunction (s : State) (i : TapInstr) : TapInstr :=
  if !s.tapOffers i then .bypass
  else if (i == .extest || i == .extestPulse) && s.dev.resetN then .bypass
  else i

/-- The function that the port has. -/
def State.tapActs (s : State) : TapInstr := s.tapFunction s.dev.tap

/-- Whether a scan drives the device's pins. -/
def State.scanDrives (s : State) : Bool := s.tapActs == .extest || s.tapActs == .extestPulse

end Sys2Proof.Machine
end

