-- ==== Sys2Proof/Machine/Seal.lean ====
section
/-! DEFINITION. Seal.lean: a sector as it stands in its stack (09 R246, R247; 11 Table 11-1, R297 to R299): its ciphertext, its side
payload, and its eight codewords. The pool keeps plaintext and marks, and these follow from them. -/

namespace Sys2Proof.Machine

/-- The tag byte of a sector (11 Table 11-2). -/
def SecMeta.tag (m : SecMeta) : Nat := m.epoch * 8 + b2n m.lost * 4 + b2n m.poison * 2 + b2n m.written

/-- The keys of a sector's epoch: 64 bytes for its encryption, 32 for its MAC (09 R246). -/
def SecMeta.key (m : SecMeta) : List Byte := padTo (if m.epoch == 0 then Config.nullKey else Config.memoryKey m.keyId m.epoch) 96

/-- The plaintext of a sector. -/
def State.plainOf (s : State) (n : Nat) : List Byte := memRead s.pool.mem (sectorAddr n) 256

/-- The ciphertext of a sector: one XTS data unit whose tweak is its physical number (09 R246). -/
def State.cipherOf (s : State) (n : Nat) : List Byte := xts ((s.secMeta n).key.take 64) n (s.plainOf n)

/-- The MAC over 256 bytes of ciphertext, a sector number and a tag byte: the leftmost 56 bits (09 R247). -/
def macOver (key cipher : List Byte) (n tag : Nat) : List Byte := (cmac key (cipher ++ leBytes n 8 ++ leBytes tag 1)).take 7

/-- The MAC of a sector. -/
def State.macOf (s : State) (n : Nat) : List Byte :=
  let m := s.secMeta n
  macOver (m.key.drop 64) (s.cipherOf n) n m.tag

/-- The side payload: byte k travels in burst k; seven bytes of MAC, then the tag (11 Table 11-2, R298). -/
def State.sidePayload (s : State) (n : Nat) : List Byte := s.macOf n ++ leBytes (s.secMeta n).tag 1

/-! Codewords (11 R297). -/

/-- The three check symbols after more data symbols: division by x^3 + 7x^2 + 14x + 8, whose roots are 1, α and α^2. -/
def rsChecks (data : List Nat) : Nat × Nat × Nat :=
  data.foldl (fun c d =>
    let q := Nat.xor d c.1
    (Nat.xor c.2.1 (gfMul q 7 8), Nat.xor c.2.2 (gfMul q 14 8), gfMul q 8 8)) (0, 0, 0)

/-- The 36 symbols of a burst from its 33 data symbols. -/
def rsEncode (data : List Nat) : List Nat :=
  let c := rsChecks data
  data ++ [c.1, c.2.1, c.2.2]

/-- A syndrome of 36 symbols: the codeword polynomial at α^k. -/
def rsSyndrome (symbols : List Nat) (k : Nat) : Nat := symbols.foldl (fun a x => Nat.xor (gfMul a (gfPow k) 8) x) 0

/-- Burst k of a sector as pins 0 to 35 carry it (11 Table 11-1), with the symbol errors that its cells hold. -/
def State.burstOf (s : State) (n k : Nat) : List Nat :=
  let sym := rsEncode ((slice (s.cipherOf n) (32 * k) 32 ++ slice (s.sidePayload n) k 1).map (·.toNat))
  let err := (s.secMeta n).rawErr.filter fun e => e.1 == k
  sym.zipIdx.map fun x => err.foldl (fun v e => if e.2.1 == x.2 then Nat.xor v e.2.2 else v) x.1

end Sys2Proof.Machine
end

