-- ==== Sys2Proof/Tests/Slice0.lean ====
section
/-! SUPPORT. Slice0.lean: tests. Ill-formed commands are refused by the check; each statement's hypotheses are met by a small
state built here (`wit_…`, one theorem for each statement, one part for each of its clauses); and single commands are run
against values the spec states. -/

namespace Sys2Proof.Tests

open Sys2Proof.Machine

set_option Elab.async false

/-! A small device that runs: an operator's session 1 and a session 2 of tenant 5, a link session of the tenant, a router with
node 7 behind port 0. -/

def opSes : Session := { ver := 3, role := .operator, tenant := 0, port := 0 }
def tnSes : Session := { ver := 3, role := .tenant, tenant := 5, port := 0 }
def ten5 : Tenant := { keyHash := 0, sess := .opened }
def base : State := { State.reset with
  dev.phase := .running, ready.mgmt := true, ready.keyEngine := true, ready.ethA := true, ready.stack := 0xFFFF
  ctl.ethA := { up := true, ips := [1], mac := 2, vlan := 3 }, ctl.sessions := [(1, opSes), (2, tnSes)]
  ten.tenants := [(5, ten5)] }

def cmd (session block total : Nat) : CcpCmd := { port := 0, cls := 0, session, cmdId := 1, total, block }
def op (block total : Nat) : CcpCmd := cmd 1 block total
def tn (block total : Nat) : CcpCmd := cmd 2 block total

/-! The hypotheses `Reaches`, `Runs`, `Arrives`, `Rests` of the statements, as what one computes. -/

def ctxOf (c : CcpCmd) (a b : Bool) (s : State) : CcpCtx :=
  { sid := c.session, sess := accepted c s ((s.ctl.sessions.find c.session).getD opSes), cmdId := c.cmdId, block := c.block,
    total := c.total, sigOk := a, auxOk := b }
def atOf (spec : CcpSpec) (c : CcpCmd) (s : State) : State :=
  (s.wakeByFrame.putSession c.session (accepted c s ((s.ctl.sessions.find c.session).getD opSes))).putMailbox
    ((s.freeMailbox c.session).getD 0)
    { session := c.session, cmdId := c.cmdId, opcode := spec.opcode, port := c.port, cls := c.cls, total := c.total, running := true }
def takenB (c : CcpCmd) (s : State) : Bool :=
  decide (c.port < 2) && s.ccpAnswers c.port && s.ready.mgmt && s.dev.halt == none && s.dev.mgmtReset == none &&
    (s.ctl.sessions.find c.session).any (fun v => isNewCmd v c.cmdId) && (s.freeMailbox c.session).isSome

theorem taken_of {spec : CcpSpec} {c : CcpCmd} {a b : Bool} {s : State} (h : takenB c s = true) :
    Taken spec c a b s (ctxOf c a b s) (atOf spec c s) := by
  simp only [takenB, Bool.and_eq_true, decide_eq_true_eq, beq_iff_eq] at h
  obtain ⟨⟨⟨⟨⟨⟨h1, h2⟩, h3⟩, h4⟩, h5⟩, h6⟩, h7⟩ := h
  obtain ⟨v, hv, hn⟩ := (Option.any_eq_true ..).mp h6
  obtain ⟨mb, hm⟩ := Option.isSome_iff_exists.mp h7
  exact ⟨h1, h2, h3, h4, h5, v, mb, hv, .inl hn, hm, by simp [ctxOf, hv], by simp [atOf, hv, hm]⟩

def reachesB (spec : CcpSpec) (c : CcpCmd) (a b : Bool) (s : State) : Bool :=
  takenB c s && (firstRefuse (commonChecks spec (ctxOf c a b s) (atOf spec c s))).isNone

theorem reaches_of {spec : CcpSpec} {c : CcpCmd} {a b : Bool} {s : State} (h : reachesB spec c a b s = true) :
    Reaches spec c a b s (ctxOf c a b s) (atOf spec c s) := by
  simp only [reachesB, Bool.and_eq_true, Option.isNone_iff_eq_none] at h
  exact ⟨taken_of h.1, h.2⟩

/-- The request that a packet brings, the state in which it is accepted, and that in which it waits at a hub. -/
def inR (op : Nat) (p : Packet) (x : Inner) (s : State) : Req :=
  match (s.packetOn op p x).todo with
  | .accept r :: _ => r
  | _ => { opcode := op, p }
def inS (op : Nat) (p : Packet) (x : Inner) (s : State) : State := { s.packetOn op p x with todo := [] }
def queued (op : Nat) (p : Packet) (x : Inner) (s : State) : State :=
  { (inS op p x s).acceptRequest (inR op p x s) with todo := [] }
def fieldOf (op : Nat) (p : Packet) (x : Inner) (s : State) : Nat :=
  granStack (pageGran (((inS op p x s).hubPage (inR op p x s)).getD 0))
def picked (op : Nat) (p : Packet) (x : Inner) (s : State) : Option HubEntry :=
  let q := queued op p x s
  let f := fieldOf op p x s
  q.pickHub f ((q.sch.hubs.findD f []).filter fun e => !q.isolated e.use.sub)
/-- The request and the state in which it runs. -/
def runReq (op : Nat) (p : Packet) (x : Inner) (s : State) : Req :=
  match (inS op p x s).hubPage (inR op p x s) with
  | none => inR op p x s
  | some _ => ((picked op p x s).map (·.r)).getD (inR op p x s)
def runAt (op : Nat) (p : Packet) (x : Inner) (s : State) : State :=
  match (inS op p x s).hubPage (inR op p x s), picked op p x s with
  | some _, some e =>
    let q := queued op p x s
    let f := fieldOf op p x s
    ({ q with sch.hubs := q.sch.hubs.del f }).leaveQueue 1 f e.use.sub e.since
  | _, _ => inS op p x s
def awakeB (s : State) (r : Req) : Bool :=
  r.opcode != 0x28 || (s.atomicStation r).all fun n => !(s.station n).sl1 && !bit s.stn.sl2 (n / 9)
def runsB (op : Nat) (p : Packet) (x : Inner) (s : State) : Bool :=
  let q := queued op p x s
  decide (p.port < 64) && !s.dead && (runReq op p x s).opcode == op && awakeB (runAt op p x s) (runReq op p x s) &&
    (match (s.packetOn op p x).todo with
    | [.accept _] => true
    | _ => false) &&
    match (inS op p x s).hubPage (inR op p x s) with
    | none => true
    | some _ => q.sch.iso.isEmpty && (picked op p x s).any fun e =>
        ((q.sch.hubs.findD (fieldOf op p x s) []).filter (·.order != e.order)).isEmpty

theorem begin_of {s : State} {r : Req} (h : awakeB s r = true) : s.beginRequest r = s.runRequest r := by
  unfold State.beginRequest
  by_cases ho : r.opcode = 0x28
  · cases ha : s.atomicStation r <;> simp_all [awakeB]
  · simp [ho]

theorem runs_of {op : Nat} {p : Packet} {x : Inner} {s : State} (h : runsB op p x s = true) :
    Runs op p x s (runReq op p x s) (runAt op p x s) := by
  simp only [runsB, Bool.and_eq_true, decide_eq_true_eq, beq_iff_eq, Bool.not_eq_true'] at h
  obtain ⟨⟨⟨⟨⟨h1, h2⟩, h3⟩, h4⟩, h5⟩, h6⟩ := h
  have h7 : (s.packetOn op p x).todo = [.accept (inR op p x s)] := by
    unfold inR
    split at h5
    · rename_i r e
      rw [e]
    · cases h5
  cases hp : (inS op p x s).hubPage (inR op p x s) with
  | none =>
    have hr : runReq op p x s = inR op p x s := by simp [runReq, hp]
    have ht : runAt op p x s = inS op p x s := by simp [runAt, hp]
    rw [hr, ht] at h4 ⊢
    refine ⟨h1, h2, hr ▸ h3, 0, by omega, _, h7, ?_, rfl⟩
    show (inS op p x s).acceptRequest (inR op p x s) = _
    rw [State.acceptRequest, hp]
    exact begin_of h4
  | some g =>
    rw [hp] at h6
    simp only [Bool.and_eq_true, List.isEmpty_iff] at h6
    obtain ⟨e, he, hl⟩ := (Option.any_eq_true ..).mp h6.2
    have hr : runReq op p x s = e.r := by simp [runReq, hp, he]
    have hf : fieldOf op p x s = granStack (pageGran g) := by simp [fieldOf, hp]
    have hd : (s.packetOn op p x).drain 1 = (inS op p x s).acceptRequest (inR op p x s) := by
      rw [State.drain, h7]
      rfl
    have ht : ((inS op p x s).acceptRequest (inR op p x s)).todo = [.hub (fieldOf op p x s)] := by
      rw [State.acceptRequest, hp, hf]
      rfl
    rw [hr] at h3 h4 ⊢
    refine ⟨h1, h2, h3, 1, by omega, _, hd ▸ ht, ?_, ?_⟩
    · rw [hd]
      show (queued op p x s).serveHub (fieldOf op p x s) = _
      have hk : (queued op p x s).pickHub (fieldOf op p x s)
          (((queued op p x s).sch.hubs.findD (fieldOf op p x s) []).filter fun e => !(queued op p x s).isolated e.use.sub) = some e := he
      unfold State.serveHub
      dsimp only
      rw [hk, h6.1]
      simp only [List.map_nil, List.foldl_nil, State.startHub]
      simp only [List.isEmpty_iff] at hl
      simp only [hl, List.isEmpty_nil, if_true]
      have hs : runAt op p x s = (({ queued op p x s with sch.hubs := (queued op p x s).sch.hubs.del (fieldOf op p x s) } : State).leaveQueue 1
          (fieldOf op p x s) e.use.sub e.since) := by simp [runAt, hp, he]
      rw [← hs]
      exact begin_of h4
    · simp only [runAt, hp, he]
      rfl

def arrivesB (op : Nat) (p : Packet) (s : State) : Bool :=
  decide (p.port < 64) && !s.dead && (s.port p.port).st == .up && (s.arrive op p).1 == .here

theorem arrives_of {op : Nat} {p : Packet} {s : State} (h : arrivesB op p s = true) :
    Arrives op p s (s.arrive op p).2.1 (s.arrive op p).2.2 := by
  simp only [arrivesB, Bool.and_eq_true, decide_eq_true_eq, beq_iff_eq, Bool.not_eq_true'] at h
  obtain ⟨⟨⟨h1, h2⟩, h3⟩, h4⟩ := h
  exact ⟨h1, h2, h3, by rw [← h4]⟩

def quietB (s : State) : Bool :=
  s.todo.isEmpty && s.com.commons.all (fun x => x.2.state != .ending) && s.com.trans.all (fun x => !x.2.ready) &&
    s.dev.fieldReset == 0 && s.pool.invals.all (fun x => x.2.engines != 0) && s.ten.imports.isEmpty && s.fw.staging.isNone &&
    s.fw.activate.isNone && s.pair.role != .syncing && s.fab.transit.isEmpty && s.fab.owed.isEmpty &&
    s.fab.nodes.all fun x => x.2.noRoute.isSome == (x.2.reachable && !s.hasRoute x.1)

theorem foldl_same {α β : Type} (f : β → α → β) (b : β) (l : List α) (h : ∀ x ∈ l, f b x = b) : l.foldl f b = b := by
  induction l with
  | nil => rfl
  | cons x l ih => rw [List.foldl_cons, h x (by simp), ih fun y hy => h y (by simp [hy])]

theorem quiet_of {s : State} (h : quietB s = true) : Quiet s := by
  simp only [quietB, Bool.and_eq_true, List.isEmpty_iff, Option.isNone_iff_eq_none, bne_iff_ne, ne_eq, List.all_eq_true,
    beq_iff_eq, Bool.not_eq_true'] at h
  obtain ⟨⟨⟨⟨⟨⟨⟨⟨⟨⟨⟨h1, h2⟩, h3⟩, h4⟩, h5⟩, h6⟩, h7⟩, h8⟩, h9⟩, h10⟩, h11⟩, h12⟩ := h
  refine ⟨h1, ?_⟩
  have a1 : s.releaseLines = s := by
    have : s.com.trans.filter (·.2.ready) = [] := List.filter_eq_nil_iff.mpr fun x hx => by simp [h3 x hx]
    simp [State.releaseLines, this]
  have a2 : s.sweepLate = s := by
    have : s.com.commons.filter (fun c => c.2.state == .ending) = [] :=
      List.filter_eq_nil_iff.mpr fun x hx => by simpa using h2 x hx
    simp [State.sweepLate, this]
  have a3 : s.commonEnd = s := by
    unfold State.commonEnd
    rw [a1, a2]
    refine foldl_same _ _ _ fun x hx => ?_
    have : (x.2.state == ComSt.ending) = false := by simpa using h2 x hx
    simp [this]
  have a4 : s.ackResets = s := by simp [State.ackResets, h4]
  have a5 : s.invalsEnd = s := by
    refine foldl_same _ _ _ fun x hx => ?_
    have : (x.2.engines == 0) = false := by simpa using h5 x (List.mem_of_mem_take hx)
    simp [this]
  have a6 : s.importsEnd = s := by simp [State.importsEnd, h6]
  have a7 : s.stageCheck = s := by simp [State.stageCheck, h7]
  have a8 : s.handoverCheck = s := by simp [State.handoverCheck, h8]
  have a9 : s.linkCheck = s := by simp [State.linkCheck, h9]
  have a10 : s.noteRoutes = s := by
    have : s.fab.nodes.each (fun n v => if !v.reachable || s.hasRoute n then { v with noRoute := none }
        else if v.noRoute.isNone then { v with noRoute := some s.dev.tick } else v) = s.fab.nodes := by
      refine (List.map_congr_left fun x hx => ?_).trans (List.map_id _)
      have := h12 x hx
      obtain ⟨n, v⟩ := x
      cases hr : v.reachable <;> cases hh : s.hasRoute n <;> cases hn : v.noRoute <;> simp_all <;> (cases v; simp_all)
    unfold State.noteRoutes
    dsimp only
    rw [this]
  have a11 : s.payCredits = s := by
    simp only [State.payCredits, h11, List.filter_nil, List.foldl_nil]
    rw [← h11]
  simp only [State.tidy, a3, a4, a5, a6, a7, a8, a9, a10, a11, h10, List.isEmpty_nil, if_true]

theorem live_of {s : State} (h : s.dead = false) : Live s := h

theorem rests_of {a : State} (n : Nat) (hn : n ≤ 1000000) (h : quietB (a.drain n) = true) : Rests a (a.drain n) :=
  ⟨n, hn, rfl, quiet_of h⟩

/-! Objects of tenant 5: space 1, whose addresses 0 to 8 MiB are extent 1; a stream of one MOVE step of eight binary32
elements; a window of eight elements; a context; and what a stream's descriptor and a window's and a context's blocks are. -/

def ext1 : Extent := { tenant := 5, desc := 0x40000000000000003, state := .enabled, grans := [10100, 10101, 10102, 10103] }
def map1 : Mapping := { asid := 1, vaBase := 0, first := 0, count := 4, pageSize := 0, extent := 1 }
def space1 : Space := { tenant := 5, desc := 3 }
def mapped : State := { base with
  pool.spaces := [(1, space1)], pool.extents := [(1, ext1)], pool.maps := [map1] }
def head1 : Nat := 0x8000001000203
def desc1 : Nat := head1 + 2 ^ 516
def strm1 : Stream := { tenant := 5, session := none, ccp := some 2, head := head1, steps := [16] }
def streamed : State := { mapped with str.streams := [(3, strm1)] }
def win1 : Nat := 0x100000000000000000000000000000000000080001000000000203
def window1 : Window := { tenant := 5, desc := win1 }
def withWin (v : Window) : State := { mapped with seq.windows := [(4, v)] }
def ctx1 : Nat := 0x3f800000000000000000000000000000000000000000000000000000001f001f0000000000000000020000000001000000000003
def withCtx (v : Context) : State := { mapped with seq.contexts := [(6, v)] }

def okIs {ε : Type} : Except ε Nat → Nat → Bool
  | .ok k, n => k == n
  | .error _, _ => false

theorem ok_of {ε α : Type} {p : Except ε Nat × α} {n : Nat} (h : okIs p.1 n = true) : p = (.ok n, p.2) := by
  obtain ⟨e, a⟩ := p
  cases e <;> simp_all [okIs]

def fabric : State := { mapped with
  fab.nodeId := some 1, fab.nodes := [(7, { gen := some 0, reachable := true })], fab.bank0.entries := [(7, 0x10000040)]
  ten.links := [(9, { node := 7, gen := 0, tenant := 5, identity := 0 })], ports := [(0, { st := .up, credits := List.replicate 6 2047 })], ready.field := 0xFFFF }
def pkt (payload : List Byte) (address : Nat) : Packet :=
  { port := 0, hdrVer := 3, dst := 1, src := 7, tag := 3, tgen := 0, ngen := 0, fnum := 0, prior := 0, session := 9, age := 0,
    status := 0, fence := false, mcast := false, epoch := 0, escape := false, synthetic := false, wbPending := false,
    length := payload.length, address, rsvd := 0, payload }
def strm2 : Stream := { tenant := 5, session := some 9, node := 7, head := head1, steps := [16] }
/-- The operand of a request in space 1, with a cookie of zeros. -/
def opnd (n : Nat) : List Byte := leBytes n 8 ++ leBytes 0 8

def okGet {ε α : Type} (e : Except ε α) (d : α) : α :=
  match e with
  | .ok a => a
  | .error _ => d
def isOk {ε α : Type} : Except ε α → Bool
  | .ok _ => true
  | .error _ => false

theorem okGet_of {ε α β : Type} {p : Except ε α × β} (d : α) (h : isOk p.1 = true) : p = (.ok (okGet p.1 d), p.2) := by
  obtain ⟨e, a⟩ := p
  cases e <;> simp_all [isOk, okGet]

theorem mid_of {α β γ : Type} {p : α × β × γ} {m : β} (h : p.2.1 = m) : p = (p.1, m, p.2.2) := by
  subst h; rfl
theorem fst_of {α β : Type} {p : α × β} {m : α} (h : p.1 = m) : p = (m, p.2) := by
  subst h; rfl

theorem unit_of {ε β : Type} {p : Except ε Unit × β} (h : isOk p.1 = true) : p = (.ok (), p.2) := by
  obtain ⟨e, a⟩ := p
  cases e <;> simp_all [isOk]

theorem some_of {α β : Type} {o : Option (α × β)} (h : o.isSome = true) : o = some ((o.get h).1, (o.get h).2) :=
  (Option.some_get h).symm
theorem get_of {α : Type} {o : Option α} (h : o.isSome = true) : o = some (o.get h) :=
  (Option.some_get h).symm
theorem head_of {α β γ : Type} {p : α × β × γ} {m : α} (h : p.1 = m) : p = (m, p.2.1, p.2.2) := by
  subst h; rfl

/-- A common on extent 1, and the request `p` running on its line of page 0. -/
def com1 : Common := { tenant := 5, desc := 0x10003, state := .enabled }
def shared : State := { fabric with com.commons := [(2, com1)] }

def atomicReq (p : Packet) (s : State) : Req := runReq 0x28 p (innerOf 0x28 p) s
def atomicAt (p : Packet) (s : State) : State :=
  let r := atomicReq p s
  (runAt 0x28 p (innerOf 0x28 p) s).lookup (144 + r.p.port / 4) (bits (leNat (r.p.payload.take 32)) 35 24) r.p.address fun _ => none
def atomicLine (p : Packet) (s : State) : Nat := 2 * 2 ^ 28 + (atomicReq p s).p.address % 65536 / 256
def atomicRead (p : Packet) (s : State) : Status × List Byte × State :=
  ((atomicAt p s).putTrans (atomicLine p s) { job := .request (atomicReq p s) }).readSector
    ((atomicAt p s).lineSector (atomicLine p s))
def atomicOp (p : Packet) (s : State) : Nat := leNat ((atomicReq p s).p.payload.take 32)
def atomicOld (p : Packet) (s : State) : Nat :=
  leNat (slice (atomicRead p s).2.1 ((atomicReq p s).p.address % 256) (if bit (atomicOp p s) 8 then 8 else 4))
def atomicB (p : Packet) (s : State) : Bool :=
  let g := runAt 0x28 p (innerOf 0x28 p) s
  let u := atomicAt p s
  let r := atomicReq p s
  let op := atomicOp p s
  let h := atomicLine p s
  runsB 0x28 p (innerOf 0x28 p) s && g.asidOk (bits op 35 24) r.p.session && !atomicBad op r.p.address && g.faddFormat op == .ok &&
    g.locate (bits op 35 24) r.p.address == .ext 1 0 && !(u.kfp2 r.p && u.sharedExt 1) && u.pool.extents.find 1 == some ext1 &&
    u.commonOf 1 == some (2, com1) && u.faddFormat op == .ok && (u.com.trans.find h).isNone && (u.com.dir.find h).isNone &&
    u.heldFor [u.lineSector h] == none && !u.lineRevoked h && u.mirrorWants [u.lineSector h] == [] && (atomicRead p s).1 == .ok

theorem atomic_of {p : Packet} {s : State} (h : atomicB p s = true) :
    AtomicRuns p s (atomicReq p s) (atomicOp p s) (atomicLine p s) ((atomicAt p s).lineSector (atomicLine p s)) (atomicOld p s)
      (atomicRead p s).2.2 := by
  simp only [atomicB, Bool.and_eq_true, beq_iff_eq, Bool.not_eq_true', Option.isNone_iff_eq_none] at h
  obtain ⟨⟨⟨⟨⟨⟨⟨⟨⟨⟨⟨⟨⟨⟨h1, h2⟩, h3⟩, h4⟩, h5⟩, h6⟩, h7⟩, h8⟩, h9⟩, ha⟩, hb⟩, hc⟩, hd⟩, he⟩, hf⟩ := h
  exact ⟨_, _, 1, 0, ext1, 2, com1, (atomicRead p s).2.1, runs_of h1, rfl, h2, h3, h4, h5, rfl, h6, h7, h8, rfl, rfl, h9, rfl, ha, hb,
    hc, hd, he, rfl, head_of hf, rfl⟩

/-- A line request as it runs on line `h` of the common. -/
def lineReq (o : Nat) (p : Packet) (s : State) : Req := runReq o p (innerOf o p) s
def lineAt (o : Nat) (p : Packet) (s : State) : State :=
  (runAt o p (innerOf o p) s).lookup (144 + (lineReq o p s).p.port / 4) (bits (operandOf (lineReq o p s).p) 35 24)
    (lineReq o p s).p.address fun _ => none
def lineB (o : Nat) (p : Packet) (s : State) (h : Nat) : Bool :=
  let g := runAt o p (innerOf o p) s
  let u := lineAt o p s
  let r := lineReq o p s
  let op := operandOf r.p
  runsB o p (innerOf o p) s && g.asidOk (bits op 35 24) r.p.session && r.p.address % 256 == 0 && bits op 63 48 == 0 &&
    bits op 47 36 == 0 && bits op 23 0 == 0 && g.faddFormat op == .ok && g.locate (bits op 35 24) r.p.address == .ext 1 0 &&
    !(u.kfp2 r.p && u.sharedExt 1) && u.pool.extents.find 1 == some ext1 && u.commonOf 1 == some (2, com1) &&
    u.faddFormat op == .ok && h == 2 * 2 ^ 28 + 0 * 256 + r.p.address % 65536 / 256 && (u.com.trans.find h).isNone &&
    u.heldFor [u.lineSector h] == none && !u.lineRevoked h

theorem line_of {o : Nat} {p : Packet} {s : State} {h : Nat} (hb : lineB o p s h = true) :
    LineRuns o p s (lineReq o p s) (lineAt o p s) h := by
  simp only [lineB, Bool.and_eq_true, beq_iff_eq, Bool.not_eq_true', Option.isNone_iff_eq_none] at hb
  obtain ⟨⟨⟨⟨⟨⟨⟨⟨⟨⟨⟨⟨⟨⟨⟨h1, h2⟩, h3⟩, h4⟩, h5⟩, h6⟩, h7⟩, h8⟩, h9⟩, ha⟩, hb⟩, hc⟩, hd⟩, he⟩, hf⟩, hg⟩ := hb
  exact ⟨_, _, 1, 0, ext1, 2, com1, runs_of h1, rfl, h2, h3, h4, h5, h6, h7, h8, rfl, h9, ha, hb, rfl, rfl, hc, hd, he, hf, hg⟩

/-- A good flit from the peer, of 1 byte; its acknowledgement says that none of this end's flits has come. -/
def flit0 : Flit :=
  { seq := 0, ackSeq := 4095, ackValid := false, nak := false, keyPhase := 0, ftype := 1, vc := 0, pktFirst := false, pktLast := false
    payLenM1 := 0, creditVc := 0, creditTotal := 0, txNum := 0, idleCount := 0, payload := [0], crcOk := true, tagged := false
    tagOk := true, fec := [] }
/-- The fabric with port 0 as `q`. -/
def withPort (q : Port) : State := { fabric with ports := [(0, q)] }

/-- An access that finds its queue empty and goes at once. -/
def loneReq (s : State) (k m : Nat) (op : SecOp) : SecAccess :=
  { sector := m, sub := (s.granOwner (sectorGran (deviceSector k m))).getD 0, since := s.dev.tick, op }
def loneSlot (s : State) (k m : Nat) (op : SecOp) : Option State :=
  let u := s.modPch k (s.pchOf m) fun q => { q with queue := [loneReq s k m op] }
  u.takeSlot k (s.pchOf m) (u.slotClass (loneReq s k m op).sub)
def loneAt (s : State) (k m : Nat) (op : SecOp) : State :=
  ((loneSlot s k m op).getD s).modPch k (s.pchOf m) fun q => { q with
    queue := [], aged := false, writing := (loneReq s k m op).writes
    group := if (loneReq s k m op).writes = q.writing ∧ q.group < 16 then q.group + 1 else 1
    flight := q.flight ++ [loneReq s k m op] }
def loneB (s : State) (k m : Nat) (op : SecOp) : Bool :=
  s.stackServes k && !(s.stack k).holds (s.pchOf m) && decide (m < stackSectors) && (s.pch k (s.pchOf m)).queue == [] &&
    (loneSlot s k m op).isSome

theorem lone_of {s : State} {k m : Nat} {op : SecOp} (h : loneB s k m op = true) : LoneAccess s k m op (loneAt s k m op) := by
  simp only [loneB, Bool.and_eq_true, decide_eq_true_eq, beq_iff_eq, Bool.not_eq_true'] at h
  obtain ⟨⟨⟨⟨h1, h2⟩, h3⟩, h4⟩, h5⟩ := h
  obtain ⟨w, hw⟩ := Option.isSome_iff_exists.mp h5
  exact ⟨_, _, _, w, rfl, h1, h2, h3, h4, rfl, rfl, hw, by rw [loneAt, hw, Option.getD_some]; rfl⟩

/-- The payload of an atomic in space 1: its operation (with the flags above it), operand and comparand. -/
def atom (op x y : Nat) : List Byte := leBytes (op + 2 ^ 24 + x * 2 ^ 128 + y * 2 ^ 192) 32

def zeros : List Byte := List.replicate 65536 0

/-- A page of zeros stored in a populated granule of space 2: the request as it runs, and what it leaves. -/
def zoned : State := { fabric with pool.spaces := [(1, space1), (2, { tenant := 5, desc := 3 + 2 ^ 128, pops := [(0, 10200)] })] }
def pagePkt : Packet := { pkt (opnd 0x2000000 ++ zeros) 0 with length := 65552 }
def pageReq : Req := runReq 0x11 pagePkt (innerOf 0x11 pagePkt) zoned
def pageAt : State :=
  (runAt 0x11 pagePkt (innerOf 0x11 pagePkt) zoned).lookup (144 + pageReq.p.port / 4) 2 pageReq.p.address fun _ => none

theorem page_length : pageReq.p.payload.length = 65552 := by
  have h : (pageReq.p.payload.drop 65551).length = 1 := by decide +kernel
  rw [List.length_drop] at h
  omega

theorem page_rests : ∃ v, Rests (pageAt.storePage pageReq 65536 0 326400) v := by
  have h := (store_whole pageAt (326400 * 65536) 256 (slice pageReq.p.payload 16 65536) false (by decide)
    (by simp [slice, page_length])).2
  unfold State.storePage
  dsimp only
  rw [h]
  exact ⟨_, rests_of 1000 (by decide) (by decide +kernel)⟩


theorem identity_le : Config.identityHash.toNat ≤ 2 ^ 384 := Nat.le_of_lt Config.identityHash.isLt

def notExt : GranUse → Bool
  | .extent _ => false
  | _ => true
theorem use_ne {u : GranUse} (h : notExt u = true) : ∀ e, u ≠ .extent e := by
  rintro e rfl
  cases h

theorem bad_of {f : CcpFrame} (hl : f.length = f.body.length) (hb : f.length ≤ 8192)
    (h : frameBad { f with body := [], length := 0 } = false) : frameBad f = false := by
  simp only [frameBad, Bool.or_eq_false_iff, decide_eq_false_iff_not, Nat.not_lt, bne_eq_false_iff_eq] at h ⊢
  simp_all

theorem sane_of {s : State} (hf : s.str.formats = []) (hm : s.pool.mem = []) (ho : s.log.op.recs = []) (ht : s.log.ten = [])
    (hk : LeavesKept s.ten) : Sane s := by
  refine ⟨?_, ?_, ?_, hk⟩
  · rw [hf]; nofun
  · rw [hm]; rfl
  · simp [QueuesBounded, ho, ht]

/-! Ill-formed commands: each check of WellFormed.lean refuses a term that breaks it alone. -/

def cmdW : CcpCmd := { port := 1, cls := 7, session := 65535, cmdId := 65535, total := 8, block := 0 }
def pktW : Packet := { pkt [] 0 with port := 63, hdrVer := 3, dst := 65535, src := 65535, tag := 4095 }
def openW : LinkOpen := { tenant := 65535, gen := 15, identity := 2 ^ 384 - 1, chain := .further (2 ^ 2048 - 1), sigOk := true }
def mirW : MirrorMsg := { term := 0, extent := 65535, writes := [(255, [1])], caches := [] }
def peerW : PeerInfo :=
  { identity := 0, pairId := 65535, secVer := 31, active := true, syncing := false, peerIn := true, tenants := [] }
def flitW : Flit :=
  { seq := 4095, ackSeq := 4095, ackValid := true, nak := false, keyPhase := 1, ftype := 3, vc := 7, pktFirst := true
    pktLast := true, payLenM1 := 255, creditVc := 7, creditTotal := 2047, txNum := 255, idleCount := 0, payload := [], crcOk := true
    tagged := true, tagOk := true, fec := [] }
def frameW : CcpFrame :=
  { port := 1, cls := 7, ccpVer := 15, ftype := 15, first := true, last := true, rsvd := 0, session := 65535, seq := 2 ^ 32 - 1
    cmdId := 65535, frag := 65535, opcode := 65535, mailbox := 0, status := 0, reason := 0, length := 65535, total := 2 ^ 32 - 1
    bulkOff := 2 ^ 64 - 1, body := [], tagOk := true }
def ethW : EthFrame :=
  { fcsOk := true, kind := 0, dstMac := 0, vlan := 4095, pcp := 7, dstIp := 0, udpPort := 65535, udpLen := 0, ccp := frameW }
def sampleW : PowerSample :=
  { demand := [0, 0, 0], estimate := [0, 0, 0], fixed := 0, idle := 0, iso := 0, rails := List.replicate 8 0 }

theorem test_wf_holds :
    cmdW.wf = true ∧ pktW.wf = true ∧ openW.wf = true ∧ mirW.wf = true ∧ peerW.wf = true ∧ flitW.wf = true ∧ frameW.wf = true ∧
    ethW.wf = true ∧ sampleW.wf = true ∧ (ReadErr.mk [(7, 35, 255)] 2).wf = true := by decide +kernel

theorem test_wf_commands :
    ([{ cmdW with port := 2 }, { cmdW with cls := 8 }, { cmdW with session := 65536 }, { cmdW with cmdId := 65536 },
     { cmdW with total := 524289 }, { cmdW with block := 2 ^ 64 }].all fun c => !(Instr.ccpClose c).wf) = true := by decide +kernel

theorem test_wf_packets :
    ([{ pktW with port := 64 }, { pktW with hdrVer := 16 }, { pktW with dst := 65536 }, { pktW with src := 65536 },
     { pktW with tag := 4096 }, { pktW with tgen := 16 }, { pktW with ngen := 16 }, { pktW with fnum := 16 },
     { pktW with prior := 4096 }, { pktW with session := 65536 }, { pktW with age := 65536 }, { pktW with status := 256 },
     { pktW with epoch := 2 }, { pktW with length := 65553 }, { pktW with address := 2 ^ 48 }, { pktW with payload := [0] }].all
     fun p => !(Instr.tile p).wf) = true := by decide +kernel

theorem test_wf_operands :
    ([.linkSessionOpen pktW { openW with tenant := 65536 }, .linkSessionOpen pktW { openW with gen := 16 },
     .linkSessionOpen pktW { openW with identity := 2 ^ 384 }, .linkSessionOpen pktW { openW with nonce := 2 ^ 256 },
     .linkSessionOpen pktW { openW with chain := .further (2 ^ 2048) }, .pairMirror pktW { mirW with term := 2 ^ 32 },
     .pairMirror pktW { mirW with extent := 65536 }, .pairMirror pktW { mirW with writes := [(255, [1, 1])] },
     .pairMeta pktW 0 (.extent 65536 0 0 0 0), .pairMeta pktW 0 (.window 4096 0 0 0 0), .pairMeta pktW 0 (.context 4096 0 0 0 [] []),
     .pairMeta pktW 0 (.space 4096 0 0), .pairBeat pktW 0 { peerW with identity := 2 ^ 384 },
     .pairBeat pktW 0 { peerW with pairId := 65536 }, .pairBeat pktW 0 { peerW with secVer := 32 },
     .refusalMarkInForce (.extent 65536), .refusalMarkInForce (.mapping 4096 0), .refusalMarkInForce (.tenant 65536),
     .sectorReadDone 0 0 ⟨[(8, 0, 0)], 0⟩ ⟨[], 0⟩, .sectorReadDone 0 0 ⟨[], 0⟩ ⟨[(0, 36, 0)], 0⟩,
     .mowRead 0 ⟨[(0, 0, 256)], 0⟩ ⟨[], 0⟩, .mowRead 0 ⟨[], 0⟩ ⟨[], 3⟩,
     .powerPeriod { sampleW with demand := [] }, .powerPeriod { sampleW with estimate := [] },
     .powerPeriod { sampleW with rails := List.replicate 9 0 }, .domainWakeReady (.station 144), .domainWakeReady (.field 16),
     .wakeEvent (.light 64), .wakeEvent (.pattern 64), .wakeEvent (.ccpFrame 2), .fwStageDone (.done (2 ^ 24) 0 0),
     .fwStageDone (.done 0 32 0), .fwStageDone (.done 0 0 (2 ^ 384)), .fwStageDone (.failed 0 true), .fwStageDone (.failed 6 true),
     .ethFrameRx 0 { ethW with pcp := 8 }, .ethFrameRx 0 { ethW with vlan := 4096 }, .ethFrameRx 0 { ethW with udpPort := 65536 }].all
     fun i : Instr => !i.wf) = true := by decide +kernel

theorem test_wf_frames :
    ([{ flitW with seq := 4096 }, { flitW with ackSeq := 4096 }, { flitW with keyPhase := 2 }, { flitW with ftype := 4 },
     { flitW with vc := 8 }, { flitW with payLenM1 := 256 }, { flitW with creditVc := 8 }, { flitW with creditTotal := 2048 },
     { flitW with txNum := 256 }, { flitW with idleCount := 2 ^ 63 }, { flitW with payload := List.replicate 233 0 }].all
     fun f => !(Instr.dataFlitRx 0 f).wf) = true ∧
    ([{ frameW with port := 2 }, { frameW with cls := 8 }, { frameW with ccpVer := 16 }, { frameW with ftype := 16 },
     { frameW with session := 65536 }, { frameW with seq := 2 ^ 32 }, { frameW with cmdId := 65536 }, { frameW with frag := 65536 },
     { frameW with opcode := 65536 }, { frameW with length := 65536 }, { frameW with total := 2 ^ 32 },
     { frameW with bulkOff := 2 ^ 64 }].all fun f => !(Instr.ccpFragment f).wf) = true := by decide +kernel

theorem test_wf_rows_1 :
    ([.ccpHello 2 1 .operator 0 0, .ccpHello 0 0 .operator 0 0, .ccpHello 0 4 .operator 0 0,
     .ccpHello 0 1 .operator 65536 0, .ccpHello 0 1 .operator 0 (2 ^ 384), .ccpFinish 2 0 true, .ccpFinish 0 65536 true,
     .deviceResetCold { cmdW with block := 0x1 }, .deviceResetMgmt { cmdW with block := 0x2 },
     .deviceResetField { cmdW with block := 0x3 }, .deviceResetPort { cmdW with block := 0x0 },
     .spdmGetVersion { cmdW with block := 0x8500 }, .spdmGetCapabilities { cmdW with block := 0xe200 },
     .spdmNegotiateAlgorithms { cmdW with block := 0xe400 }, .spdmGetDigests { cmdW with block := 0x8200 },
     .spdmGetCertificate { cmdW with block := 0x8300 }, .spdmChallenge { cmdW with block := 0x8400 },
     .spdmGetMeasurements { cmdW with block := 0xe100 }, .admitIdentity { cmdW with block := 0x0 },
     .admitWithdraw { cmdW with block := 0x1 }, .policeSetMeter { cmdW with block := 0x10000 },
     .policeSetProfile { cmdW with block := 0x0 }, .isolateSetEnable { cmdW with block := 0x0 },
     .isolateSetDisable { cmdW with block := 0x1 }].all fun i : Instr => !i.wf) = true := by decide +kernel

theorem test_wf_rows_2 :
    ([.sleepEnterSl3 { cmdW with block := 0x4 }, .sleepEnterSl4 { cmdW with block := 0x5 },
     .sleepEnterWake { cmdW with block := 0x1 }, .pairSetEnable { cmdW with block := 0x0 },
     .pairSetDisable { cmdW with block := 0x1 }, .fwActivateMgmt { cmdW with block := 0x1 },
     .fwActivateKe { cmdW with block := 0x2 }, .fwActivateBoth { cmdW with block := 0x3 },
     .fwActivateCommitSec { cmdW with block := 0x0 }, .checkerTestArm { cmdW with block := 0x1 },
     .checkerTestWrite { cmdW with block := 0x2 }, .checkerTestRead { cmdW with block := 0x3 },
     .checkerTestRelease { cmdW with block := 0x0 }, .rankRetireNow { cmdW with block := 0x10000 },
     .rankRetireClear { cmdW with block := 0x20000 }, .stackDiagRead { cmdW with block := 0x1 },
     .stackDiagRun { cmdW with block := 0x2 }, .stackDiagReadClear { cmdW with block := 0x3 },
     .fetchAdd { pktW with payload := [2], length := 1 }, .fetchFaddx { pktW with payload := [3], length := 1 },
     .cas { pktW with payload := [4], length := 1 }, .swap { pktW with payload := [5], length := 1 },
     .fetchMin { pktW with payload := [6], length := 1 }, .fetchMax { pktW with payload := [7], length := 1 }].all fun i : Instr => !i.wf) = true := by decide +kernel

theorem test_wf_rows_3 :
    ([.fetchUmin { pktW with payload := [8], length := 1 }, .fetchUmax { pktW with payload := [9], length := 1 },
     .barrierArrive { pktW with payload := [17], length := 1 }, .lockAcquire { pktW with payload := [33], length := 1 },
     .lockRelease { pktW with payload := [34], length := 1 }, .packetForward 256 pktW,
     .pairMeta pktW (2 ^ 32) (.noTenant 0), .pairBeat pktW (2 ^ 32) peerW, .pairFetch pktW (2 ^ 32) 0 0,
     .pairFetch pktW 0 65536 0, .pairFetch pktW 0 0 256, .pairCopy pktW (2 ^ 32) 0 0 [0], .pairCopy pktW 0 65536 0 [0],
     .pairCopy pktW 0 0 256 [0], .pairFence pktW (2 ^ 32), .mirrorTimeout 4096, .portLightDetect 64,
     .portTrainingDone 64 0, .portTrainingDone 0 (2 ^ 32), .portTrainingTimeout 64, .psHello 64 0 .olizon,
     .psHello 0 (2 ^ 384) .olizon, .psKem 64 .olizon, .psFinish 64 true].all fun i : Instr => !i.wf) = true := by decide +kernel

theorem test_wf_rows_4 :
    ([.linkParams 64 [0, 0, 0, 0, 0, 0], .linkParams 0 [0], .linkParams 0 [0, 0, 0, 0, 0, 65536], .portSessionTimeout 64,
     .dataFlitRx 64 flitW, .idleFlitRx 64 flitW, .flitSend 64, .ackTimerExpiry 64, .replayTimeout 64, .retrainDone 64,
     .retrainTimeout 64, .rekeyStart 64, .keyNext 64, .keyNextKem 64, .downNotice 64 0, .downNotice 0 256,
     .downPatternRx 64, .alignmentLoss 64, .laserFaultAlarm 16, .laserLightLoss 16 0, .laserLightLoss 0 4,
     .portDownHoldExpiry 64, .outstandingEntryExpiry 64 0 0 0, .outstandingEntryExpiry 0 65536 0 0].all fun i : Instr => !i.wf) = true := by decide +kernel

theorem test_wf_rows_5 :
    ([.outstandingEntryExpiry 0 0 4096 0, .outstandingEntryExpiry 0 0 0 16, .packetAgeOut (2 ^ 64),
     .fenceHoldAgeOut 65536 0, .fenceHoldAgeOut 0 4096, .escapeWaitExpiry (2 ^ 64), .reachabilityTimeout 65536,
     .bankQuiet 2, .tileStepEnd 144 0 0 0 .ok, .tileStepEnd 0 16384 0 0 .ok, .tileStepEnd 0 0 (2 ^ 32) 0 .ok,
     .tileStepEnd 0 0 0 (2 ^ 64) .ok, .stepWatchdogExpiry 144, .fenceStateMoved 144 [], .tileFinalWriteDone 16384 0,
     .tileFinalWriteDone 0 (2 ^ 32), .extentTileIssue 16384, .streamIdleTimeout 16384, .streamReleaseTimeout 16384,
     .ledgerContribution 16384 0, .ledgerContribution 0 (2 ^ 32), .ledgerFinalWriteDone 4096 0,
     .ledgerFinalWriteDone 0 (2 ^ 20), .windowIdleTimeout 4096].all fun i : Instr => !i.wf) = true := by decide +kernel

theorem test_wf_rows_6 :
    ([.queryScoreRelease 16384 0, .queryScoreRelease 0 (2 ^ 32), .splitFinish 16384 0 0, .splitFinish 0 (2 ^ 32) 0,
     .splitFinish 0 0 256, .seqHoldRelease 4096, .cadencePeriodEnd 0, .cadencePeriodEnd 16, .recallTimeout 65536 0,
     .recallTimeout 0 (2 ^ 25), .draftWritesDrained 65536, .rangeInvalidationAck (2 ^ 64) 0, .rangeInvalidationAck 0 161,
     .revocationSlowExpiry (2 ^ 64), .granuleZeroed 589824, .snoopTimeout (2 ^ 36) 0, .snoopTimeout 0 65536,
     .writebackRecordExpiry (2 ^ 36) 0, .writebackRecordExpiry 0 65536, .lostHolderSweep (2 ^ 36),
     .identInvalidationInForce 4096, .translationWalkDone 161 0 0, .translationWalkDone 0 4096 0,
     .translationWalkDone 0 0 (2 ^ 48)].all fun i : Instr => !i.wf) = true := by decide +kernel

theorem test_wf_rows_7 :
    ([.populationDone 4096 0, .populationDone 0 (2 ^ 27), .populationWaitExpiry 65536 0, .populationWaitExpiry 0 4096,
     .keySlotErase 65536, .sessionEndSlowExpiry 65536, .rotationRewriteDone 65536, .weightChunk 65536 [] true,
     .sessionIdBarExpiry (2 ^ 64), .sectorReadDone 16 0 ⟨[], 0⟩ ⟨[], 0⟩, .sectorReadDone 0 (2 ^ 28) ⟨[], 0⟩ ⟨[], 0⟩,
     .sectorWriteDone 16 0 0 [0], .sectorWriteDone 0 (2 ^ 28) 0 [0], .sectorWriteDone 0 0 256 [0],
     .sectorWriteDone 0 0 0 [], .sectorWriteDone 0 0 255 [0, 0], .caParityError 16 0, .caParityError 0 4,
     .accessAgeLimit 16 0, .accessAgeLimit 0 64, .refreshDue 16 0 0 0, .refreshDue 0 64 0 0, .refreshDue 0 0 4 0,
     .refreshDue 0 0 0 16].all fun i : Instr => !i.wf) = true := by decide +kernel

theorem test_wf_rows_8 :
    ([.stackTemperatureRead 16 0, .stackSelfRefreshEntry 16, .stackSelfRefreshExit 16 0, .trainingStepDone 16 true 0,
     .trainingStepDone 0 true (2 ^ 36), .stackInitDone 16, .pgenRunDone 16 0 [0, 0, 0, 0, 0, 0],
     .pgenRunDone 0 64 [0, 0, 0, 0, 0, 0], .readTracking 16 0 [], .readTracking 0 64 [],
     .retrainSliceTimer 16 0 true true [], .retrainSliceTimer 0 64 true true [], .mowRead 16 ⟨[], 0⟩ ⟨[], 0⟩,
     .mirrorFetchTimeout 16 0, .mirrorFetchTimeout 0 (2 ^ 28), .linkPowerDecision (2 ^ 32), .stationCeilingUpdate 144 0,
     .stationCeilingUpdate 0 65, .droopTrip 16, .stationSl1Idle 144, .fieldSl2Idle 16, .ethFrameRx 2 ethW,
     .intakeFifoRead 2, .pfcRepeatTimer 2].all fun i : Instr => !i.wf) = true := by decide +kernel

theorem test_wf_rows_9 :
    ([.pfcPauseExpiry 65536 0, .pfcPauseExpiry 0 65536, .handshakeTimeout 65536, .fragmentTimeout 256, .bulkChannelIdle 32,
     .ccpSessionIdle 65536, .eventNoticeSend 65536, .stationTestDone 16 0, .stationTestDone 0 512, .fieldResetDone 16 0,
     .fieldResetDone 0 512, .ethLinkUp 2, .mgmtWatchdogExpiry 4, .pmbusClockTimeout 8, .ethLinkDown 2].all fun i : Instr => !i.wf) = true := by decide +kernel

/-! What the spec's worked examples and tables say. -/

/-- One step with a command in front. -/
def stepped (c : Instr) (s : State) : State :=
  match step { s with pending := [c] } with
  | .next t => t
  | _ => s

/-- What the last response says: status and reason code. -/
def told (s : State) : Option (Nat × Nat) :=
  match s.out with
  | .ccpResponse _ _ _ _ _ _ r :: _ => some (r.status, r.reason)
  | _ => none

/-- 21: with the default acknowledgement timer, full rate needs at most 1,110 ns, and one wavelength reaches 10,285 ns (R325). -/
theorem test_reach :
    [reachW 0 8 1110 200, reachW 0 8 1111 200, reachW 0 8 10285 200, reachW 0 8 10286 200] = [8, 7, 1, 0] := by decide +kernel

/-- 10, one address: granule 203,986, sector 6,716 of it (R281). -/
theorem test_address :
    granStack 203986 = 5 ∧ deviceSector 5 0x099A5A3C = 203986 * 8192 + 6716 ∧ 203986 * 8192 + 6716 = 0x639A5A3C00 / 256 ∧
    base.pchOf 0x099A5A3C = 46 ∧ base.bankOf 0x099A5A3C = 11 := by decide +kernel

/-- 13, moving routes: the entry with a safe port 44 and port 45 (R362). -/
theorem test_route_entry : entryCands 0x200016EC = [(true, 44), (false, 45)] := by decide +kernel

/-- 03, one element and three contributors: the words in exact mode with frame −40, and each contribution (R81). -/
theorem test_exact_words :
    [ledgerQ (fval 0x3F800000) (-40), ledgerQ (fval 0x33800000) (-40), ledgerQ (fval 0xBF000000) (-40)] =
      [(2 ^ 40, false), (2 ^ 16, false), (-(2 ^ 39), false)] ∧
    (f32.encode (ofFrame (2 ^ 39 + 2 ^ 16) (-40)) .even) = (0x3F000001, false) := by decide +kernel

/-- The same with frame −60: two contributions clamp (R81). -/
theorem test_exact_clamps :
    [ledgerQ (fval 0x3F800000) (-60), ledgerQ (fval 0x33800000) (-60), ledgerQ (fval 0xBF000000) (-60)] =
      [(2 ^ 50 - 1, true), (2 ^ 36, false), (-(2 ^ 50 - 1), true)] := by decide +kernel

/-- The same in ordered mode: 1.0 + 2^-24 − 0.5 is 0.5 (R84). -/
theorem test_ordered_sum : fadd (fadd 0x3F800000 0x33800000) 0xBF000000 = 0x3F000000 := by decide +kernel

/-- 03, a block of MXFP4 with 7.0, 5.0 and 0.3: scale 0x7F, elements 0x7, 0x6 and 0x1, and nothing marked (R71). -/
theorem test_block_scale :
    ((⟨9, preloaded.getD 9 0⟩ : Fmt).encodeBlock [fval 0x40E00000, fval 0x40A00000, fval 0x3E99999A] 0 toEven) =
      (0x7F, [(7, false), (6, false), (1, false)]) := by decide +kernel

/-- 03: a tile of 64 MXFP4 elements packs into 64 bytes (R63). -/
theorem test_block_packs : (⟨9, preloaded.getD 9 0⟩ : Fmt).packed 64 = 64 := by decide +kernel

/-- 20, one poisoned sector: the tenant's record as four words (R501). -/
theorem test_event_record :
    (List.range 4).map (fun i => EvRec.word ⟨0x4A817C000, 0x193, 0x0201, 0, 1, 0x0C81, 0x03450700, 0x30⟩ / 2 ^ (64 * i) % 2 ^ 64) =
      [0x0345070000000030, 0x01000C8100000000, 0x0000019302010000, 0x00000004A817C000] := by decide +kernel

/-- 18, one command in three sessions: SEQ_TRUNCATE from a v2 session, with 16 bytes, and from an operator (R466, R467). -/
theorem test_truncate_refused :
    let s : State := { base with ctl.sessions := [(1, opSes), (2, { tnSes with ver := 2 }), (3, { tnSes with ver := 3 })] }
    [told (stepped (.seqTruncate (cmd 2 0x2C0000000111 8)) s), told (stepped (.seqTruncate (cmd 3 0x2C0000000111 16)) s),
      told (stepped (.seqTruncate (cmd 1 0x2C0000000111 8)) s)].map (·.map fun r => (r.1, r.2 / 256)) =
      [some (0x51, 7), some (Status.malformed.code, 1), some (Status.denied.code, 5)] := by decide +kernel

/-- 18: on the STANDBY unit it completes FAILOVER with reason class state (R471). -/
theorem test_truncate_standby :
    (told (stepped (.seqTruncate (cmd 2 0x2C0000000111 8)) { base with pair.role := .standby })).map (fun r => (r.1, r.2 / 256)) =
      some (0x60, 6) := by decide +kernel

/-- 20: WINDOW_CREATE with mode 1 in a v2 session is refused with 0x0702 (R498). -/
theorem test_window_mode :
    told (stepped (.windowCreate (cmd 2 (win1 - win1 % 2 ^ 8 / 16 * 16 + 16) 64))
      { mapped with ctl.sessions := [(1, opSes), (2, { tnSes with ver := 2 })] }) = some (0x51, 0x0702) := by decide +kernel

/-- 12, replay across the wrap: with 4,094 expected, 4,095 asks for a replay and flit 0 asks for none more (R334). -/
theorem test_replay_wrap :
    let g (n : Nat) : Flit := { flitW with seq := n, ackValid := false, ftype := 1, vc := 0, payload := [0], payLenM1 := 0, creditVc := 0, tagged := false }
    let s : State := { fabric with ports := [(22, { st := .up, rxX := 4094 })] }
    let u := stepped (.dataFlitRx 22 (g 4095)) s
    let v := stepped (.dataFlitRx 22 (g 0)) { u with ports := u.ports.adjust 22 fun q => { q with nakDue := false } }
    ((u.port 22).nakDue, (v.port 22).nakDue, (v.port 22).rxX) = (true, false, 4094) := by decide +kernel

/-- R337: after four replays of the oldest flit the next timeout starts a retrain, and in a port that has run one, without
1,048,576 flits acknowledged since, it takes the port down with reason 1. -/
theorem test_replay_limit :
    let q : Port := { st := .up, replays := 4, unacked := [{ e := 1, ctl := false, vc := 0, first := true, last := true, payload := [0] }] }
    ((stepped (.replayTimeout 22) { fabric with ports := [(22, q)] }).port 22).st = .retrain ∧
    ((stepped (.replayTimeout 22) { fabric with ports := [(22, { q with ran := true, acked := 52900 })] }).port 22).st = .down := by
  decide +kernel

/-- R25, R26: a tick passes on an empty queue, and stands still without the reference. -/
theorem test_tick :
    (match step base with | .next t => t.dev.tick | _ => 9) = 1 ∧
    (match step { base with dev.halt := some 0 } with | .next t => t.dev.tick | _ => 9) = 0 := by decide +kernel

/-- An operand that names no unit faults (log 19). -/
theorem test_no_such_unit :
    (match exec (.portLightDetect 64) base with | .fault .noSuchUnit => true | _ => false) = true := by decide +kernel

/-- R297: a symbol error in each of eight bursts is corrected; two in one burst are not. -/
theorem test_symbol_errors :
    (decodeSector ((List.range 8).map fun k => (k, k, 255))).isSome = true ∧ decodeSector [(0, 0, 1), (0, 1, 1)] = none := by
  decide +kernel

/-! Named algorithms on the published values of their standards, and words written out from the spec's layouts. -/

/-- The bytes 0, 1, and on. -/
def upTo (n : Nat) : List Byte := (List.range n).map (BitVec.ofNat 8)

/-- SHA-384 of "abc" (FIPS 180-4). -/
theorem test_sha384 : sha384Bytes (ascii "abc") =
    beBytes 0xcb00753f45a35e8bb5a03d699ac65007272c32ab0eded1631a8b605a43ff5bed8086072ba1e7cc2358baeca134c825a7 48 := by
  decide +kernel

/-- AES-256 (FIPS 197, appendix C.3). -/
theorem test_aes : aesNum (aesKeys (upTo 32)) 0x00112233445566778899aabbccddeeff = 0x8ea2b7ca516745bfeafc49904b496089 := by
  decide +kernel

/-- AES-256-GCM of one block of zeros (test case 14 of its specification). -/
theorem test_gcm : gcm (padTo [] 32) (padTo [] 12) [] (padTo [] 16) =
    (beBytes 0xcea7403d4d606b6e074ec5d3baf39d18 16, beBytes 0xd0d1c8a799996bf0265b98b5d48ab919 16) := by decide +kernel

/-- AES key wrap of 128 bits under 256 (RFC 3394, 4.3). -/
theorem test_key_wrap : keyWrap (upTo 32) (beBytes 0x00112233445566778899AABBCCDDEEFF 16) =
    beBytes 0x64E8C3F9CE0F5BA263E9777905818A2A93C8191E7D6E8AE7 24 := by decide +kernel

/-- AES-256 CMAC of no bytes (NIST SP 800-38B). -/
theorem test_cmac : cmac (beBytes 0x603deb1015ca71be2b73aef0857d77811f352c073b6108d72d9810a30914dff4 32) [] =
    beBytes 0x028962f61b7bf89efc6b551f4667d983 16 := by decide +kernel

/-- The check value of CRC-32. -/
theorem test_crc32 : crc32 (ascii "123456789") = 0xCBF43926 := by decide +kernel

/-- A codeword has no syndrome, and a changed symbol has one (11 R297). -/
theorem test_rs_word : (List.range 3).map (rsSyndrome (rsEncode (List.range 33))) = [0, 0, 0] ∧
    rsSyndrome ((rsEncode (List.range 33)).set 5 0) 0 ≠ 0 := by decide +kernel

/-- A link header from Table 12-3, written out. -/
theorem test_link_header : linkHeaderBytes { flit0 with ackSeq := 0xABC, txNum := 5, vc := 6, ftype := 1 } =
    beBytes 0x000ABC0E00000005 8 := by decide +kernel

/-- A CCP header is read as it was laid out (Table 17-2). -/
def ccpT : CcpFrame :=
  { port := 0, cls := 0, ccpVer := 3, ftype := 2, first := true, last := false, rsvd := 0, session := 0x1234, seq := 5, cmdId := 6
    frag := 7, opcode := 0x20, mailbox := 0, status := 0, reason := 0, length := 1, total := 8, bulkOff := 9, body := [7]
    tagOk := true }

theorem test_ccp_header : (readCcp 0 0 true (ccpHeaderBytes ccpT ++ [7])) = ccpT := by decide +kernel

/-! One theorem for each statement with hypotheses, one part for each clause that has any: a state and operands that meet them
all. Where a clause turns on the device's own identity hash, which is free (log 8), its part names a value the hash may have. -/

theorem wit_sessions_open :
    (∃ (port ver sid : Nat), ∃ (s : State), (port < 2) ∧ (s.ccpAnswers port = true) ∧ (s.ready.mgmt = true) ∧
      (s.dev.halt = none) ∧ (s.dev.mgmtReset = none) ∧ (s.ready.keyEngine = true) ∧ (1 ≤ ver) ∧ (ver ≤ 3) ∧
      (s.ctl.handshakes.length < 16) ∧
      (cyclicFree (fun i => s.ctl.sessions.has i || s.ctl.handshakes.has i) s.ctl.lastSession 1 0xFFFF = some sid)) ∧
    (∃ (port sid : Nat), ∃ (h : Handshake), ∃ (s : State), (port < 2) ∧ (s.ccpAnswers port = true) ∧
      (s.ready.mgmt = true) ∧ (s.dev.halt = none) ∧ (s.dev.mgmtReset = none) ∧ (s.ready.keyEngine = true) ∧
      (s.ctl.handshakes.find sid = some h) ∧ (s.dev.tick ≤ h.due) ∧ (h.role = .operator) ∧ (s.ctl.sessions.length < 256) ∧
      (s.ctl.sessions.count (fun v => v.role == .operator) < 16) ∧ (s.operatorKey h.keyHash = true)) :=
  ⟨⟨0, 3, 3, base, by decide +kernel, by decide +kernel, by decide +kernel, by decide +kernel, by decide +kernel,
    by decide +kernel, by decide +kernel, by decide +kernel, by decide +kernel, by decide +kernel⟩,
   ⟨0, 3, { ver := 3, role := .operator, tenant := 0, keyHash := 0, due := 10 },
    { base with
      ctl.handshakes := [(3, { ver := 3, role := .operator, tenant := 0, keyHash := 0, due := 10 })]
      fw.live := [(0x20, List.replicate 192 0#8)] }, by decide +kernel, by decide +kernel, by decide +kernel,
    by decide +kernel, by decide +kernel, by decide +kernel, by decide +kernel, by decide +kernel, by decide +kernel,
    by decide +kernel, by decide +kernel, by decide +kernel⟩⟩

theorem wit_session_commands :
    (∃ c s x t, (Reaches ccpCloseSpec c true true s x t)) ∧
    (∃ c s x t mb m, (Reaches mbxDropSpec c true true s x t) ∧
      (t.mailboxOf c.session (bits c.block 15 0) = some (mb, m)) ∧ (m.running = false)) ∧
    (∃ c s x t, (Reaches ethSetSpec c true true s x t) ∧ (bits c.block 111 100 ≠ 4095) ∧
      (bits c.block 71 67 = 0 ∨ 2 ≤ bits c.block 71 67) ∧ (bits c.block 66 62 ≤ 30) ∧
      ((if bits c.block 66 62 = 0 then 8 else bits c.block 66 62) < (if bits c.block 71 67 = 0 then 24 else bits c.block 71 67))) ∧
    (∃ c s x t, (Reaches capabilityQuerySpec c true true s x t)) ∧
    (∃ c s x t, (Reaches readyQuerySpec c true true s x t)) ∧
    (∃ c s x t, (Reaches expTableQuerySpec c true true s x t)) :=
  ⟨⟨(op 0 0), base, _, _, reaches_of (by decide +kernel)⟩,
   ⟨(op 9 8),
    { base with ctl.mailboxes := [(9, { session := 1, cmdId := 9, opcode := 0x20, port := 0, cls := 0, total := 0 })] },
    _, _, 9, { session := 1, cmdId := 9, opcode := 0x20, port := 0, cls := 0, total := 0 },
    reaches_of (by decide +kernel), by decide +kernel, by decide +kernel⟩,
   ⟨(op 0 16), base, _, _, reaches_of (by decide +kernel), by decide +kernel, by decide +kernel, by decide +kernel,
    by decide +kernel⟩,
   ⟨(op 0 0), base, _, _, reaches_of (by decide +kernel)⟩,
   ⟨(op 0 0), base, _, _, reaches_of (by decide +kernel)⟩,
   ⟨(op 0 0), base, _, _, reaches_of (by decide +kernel)⟩⟩

theorem wit_device_resets :
    (∃ c s x t, (Reaches deviceResetSpec c true true s x t) ∧ (bits c.block 1 0 = 0) ∧ (bits c.block 13 8 = 0) ∧
      (t.fw.activate = none)) ∧
    (∃ c s x t, (Reaches deviceResetSpec c true true s x t) ∧ (bits c.block 1 0 = 1) ∧ (bits c.block 13 8 = 0) ∧
      (t.fw.activate = none)) ∧
    (∃ c s x t, (Reaches deviceResetSpec c true true s x t) ∧ (bits c.block 1 0 = 2) ∧ (bits c.block 13 8 < 16) ∧
      (t.fw.activate = none) ∧ (bit t.dev.fieldReset (bits c.block 13 8) = false) ∧
      (bit t.ready.field (bits c.block 13 8) = true)) ∧
    (∃ c s x t, (Reaches deviceResetSpec c true true s x t) ∧ (bits c.block 1 0 = 3) ∧ (t.fw.activate = none)) :=
  ⟨⟨(op 0 8), base, _, _, reaches_of (by decide +kernel), by decide +kernel, by decide +kernel, by decide +kernel⟩,
   ⟨(op 1 8), base, _, _, reaches_of (by decide +kernel), by decide +kernel, by decide +kernel, by decide +kernel⟩,
   ⟨(op 0x302 8), { base with ready.field := 0xFFFF }, _, _, reaches_of (by decide +kernel), by decide +kernel,
    by decide +kernel, by decide +kernel, by decide +kernel, by decide +kernel⟩,
   ⟨(op 0x703 8), base, _, _, reaches_of (by decide +kernel), by decide +kernel, by decide +kernel⟩⟩

theorem wit_spdm_requests :
    (∃ c s x t, ∃ m ver code hash, (Reaches spdmSpec c true true s x t) ∧ (c.session ≠ 0) ∧ (t.dev.keRestart = false) ∧
      (leBytes c.block c.total = m) ∧ (ver = (m.getD 0 0#8).toNat) ∧ (code = (m.getD 1 0#8).toNat) ∧
      (hash = leBytes (sha384 Config.certChain).toNat 48) ∧ (ver = 0x10) ∧ (code = 0x84)) ∧
    (∃ c s x t, ∃ m ver code hash, (Reaches spdmSpec c true true s x t) ∧ (c.session ≠ 0) ∧ (t.dev.keRestart = false) ∧
      (leBytes c.block c.total = m) ∧ (ver = (m.getD 0 0#8).toNat) ∧ (code = (m.getD 1 0#8).toNat) ∧
      (hash = leBytes (sha384 Config.certChain).toNat 48) ∧ (ver = 0x12 ∨ ver = 0x13) ∧ (code = 0xE1)) ∧
    (∃ c s x t, ∃ m ver code hash, (Reaches spdmSpec c true true s x t) ∧ (c.session ≠ 0) ∧ (t.dev.keRestart = false) ∧
      (leBytes c.block c.total = m) ∧ (ver = (m.getD 0 0#8).toNat) ∧ (code = (m.getD 1 0#8).toNat) ∧
      (hash = leBytes (sha384 Config.certChain).toNat 48) ∧ (ver = 0x12 ∨ ver = 0x13) ∧ (code = 0xE3)) ∧
    (∃ c s x t, ∃ m ver code hash, (Reaches spdmSpec c true true s x t) ∧ (c.session ≠ 0) ∧ (t.dev.keRestart = false) ∧
      (leBytes c.block c.total = m) ∧ (ver = (m.getD 0 0#8).toNat) ∧ (code = (m.getD 1 0#8).toNat) ∧
      (hash = leBytes (sha384 Config.certChain).toNat 48) ∧ (ver = 0x12 ∨ ver = 0x13) ∧ (code = 0x81)) ∧
    (∃ c s x t, ∃ m ver code hash, (Reaches spdmSpec c true true s x t) ∧ (c.session ≠ 0) ∧ (t.dev.keRestart = false) ∧
      (leBytes c.block c.total = m) ∧ (ver = (m.getD 0 0#8).toNat) ∧ (code = (m.getD 1 0#8).toNat) ∧
      (hash = leBytes (sha384 Config.certChain).toNat 48) ∧ (ver = 0x12 ∨ ver = 0x13) ∧ (code = 0x82) ∧
      ((m.getD 2 0#8).toNat % 16 = 0)) ∧
    (∃ c s x t, ∃ m ver code hash, ∃ u signed, (Reaches spdmSpec c true true s x t) ∧ (c.session ≠ 0) ∧
      (t.dev.keRestart = false) ∧ (leBytes c.block c.total = m) ∧ (ver = (m.getD 0 0#8).toNat) ∧
      (code = (m.getD 1 0#8).toNat) ∧ (hash = leBytes (sha384 Config.certChain).toNat 48) ∧ (ver = 0x12 ∨ ver = 0x13) ∧
      (t.ten.hssNext < 2 ^ 40) ∧
      (u = { t with
         ten.hssNext := t.ten.hssNext + 1
         ten.hssLimit := if t.ten.hssLimit ≤ t.ten.hssNext then min (t.ten.hssNext + 1024) (2 ^ 40) else t.ten.hssLimit
         ten.hssMark := max t.ten.hssMark ((t.ten.hssNext + 1) / 2 ^ 28) }) ∧
      (signed = (fun b : List Byte => b ++ ecdsaOf (m ++ b) ++ hssOf t.ten.hssNext (leBytes (sha384 (m ++ b)).toNat 48))) ∧
      (code = 0x83) ∧ ((m.getD 2 0#8).toNat % 16 = 0)) ∧
    (∃ c s x t, ∃ m ver code hash, ∃ u signed, ∃ b, (Reaches spdmSpec c true true s x t) ∧ (c.session ≠ 0) ∧
      (t.dev.keRestart = false) ∧ (leBytes c.block c.total = m) ∧ (ver = (m.getD 0 0#8).toNat) ∧
      (code = (m.getD 1 0#8).toNat) ∧ (hash = leBytes (sha384 Config.certChain).toNat 48) ∧ (ver = 0x12 ∨ ver = 0x13) ∧
      (t.ten.hssNext < 2 ^ 40) ∧
      (u = { t with
         ten.hssNext := t.ten.hssNext + 1
         ten.hssLimit := if t.ten.hssLimit ≤ t.ten.hssNext then min (t.ten.hssNext + 1024) (2 ^ 40) else t.ten.hssLimit
         ten.hssMark := max t.ten.hssMark ((t.ten.hssNext + 1) / 2 ^ 28) }) ∧
      (signed = (fun b : List Byte => b ++ ecdsaOf (m ++ b) ++ hssOf t.ten.hssNext (leBytes (sha384 (m ++ b)).toNat 48))) ∧
      (code = 0xE0) ∧ ((m.getD 36 0#8).toNat % 16 = 0) ∧ (t.measured (m.getD 3 0#8).toNat = some b)) ∧
    (∃ (c : CcpCmd), ∃ (s : State), ∃ mb m, (c.port < 2) ∧ (s.ccpAnswers c.port = true) ∧ (s.ready.mgmt = true) ∧
      (s.dev.halt = none) ∧ (s.dev.mgmtReset = none) ∧ (c.session = 0) ∧
      (firstFree (fun n => s.ctl.mailboxes.has n) 0 8 = some mb) ∧ (4 ≤ c.total) ∧ (c.total ≤ 8192) ∧
      (s.dev.keRestart = false) ∧ (leBytes c.block c.total = m) ∧ ((m.getD 0 0#8).toNat = 0x10) ∧
      ((m.getD 1 0#8).toNat = 0x84)) :=
  ⟨⟨(op 0x8410 4), base, _, _, _, _, _, _, reaches_of (by decide +kernel), by decide +kernel, by decide +kernel, rfl,
    rfl, rfl, rfl, rfl, rfl⟩,
   ⟨(op 0xe112 4), base, _, _, _, _, _, _, reaches_of (by decide +kernel), by decide +kernel, by decide +kernel, rfl,
    rfl, rfl, rfl, by decide +kernel, rfl⟩,
   ⟨(op 0xe313 4), base, _, _, _, _, _, _, reaches_of (by decide +kernel), by decide +kernel, by decide +kernel, rfl,
    rfl, rfl, rfl, by decide +kernel, rfl⟩,
   ⟨(op 0x8112 4), base, _, _, _, _, _, _, reaches_of (by decide +kernel), by decide +kernel, by decide +kernel, rfl,
    rfl, rfl, rfl, by decide +kernel, rfl⟩,
   ⟨(op 0x8212 4), base, _, _, _, _, _, _, reaches_of (by decide +kernel), by decide +kernel, by decide +kernel, rfl,
    rfl, rfl, rfl, by decide +kernel, rfl, by decide +kernel⟩,
   ⟨(op 0x8312 4), base, _, _, _, _, _, _, _, _, reaches_of (by decide +kernel), by decide +kernel, by decide +kernel,
    rfl, rfl, rfl, rfl, by decide +kernel, by decide +kernel, rfl, rfl, rfl, by decide +kernel⟩,
   ⟨(op 0xe012 4), base, _, _, _, _, _, _, _, _, _, reaches_of (by decide +kernel), by decide +kernel, by decide +kernel,
    rfl, rfl, rfl, rfl, by decide +kernel, by decide +kernel, rfl, rfl, rfl, by decide +kernel, by rfl⟩,
   ⟨(cmd 0 0x8410 4), base, 0, _, by decide +kernel, by decide +kernel, by decide +kernel, by decide +kernel,
    by decide +kernel, by decide +kernel, by decide +kernel, by decide +kernel, by decide +kernel, by decide +kernel,
    rfl, by decide +kernel, by decide +kernel⟩⟩

theorem wit_tenant_commands :
    (∃ c s x t, (Reaches tenantCreateSpec c true true s x t) ∧ (bits c.block 15 0 ≠ 0) ∧ (bits c.block 15 0 ≠ 0xFFFF) ∧
      (t.ten.tenants.has (bits c.block 15 0) = false) ∧ (t.ten.tenants.length < 1024)) ∧
    (∃ c s x t v, (Reaches tenantDeleteSpec c true true s x t) ∧ (t.tenantOf (bits c.block 15 0) = some v) ∧
      (v.sess = .closed) ∧ (t.charge (bits c.block 15 0) = 0) ∧ (v.reserve = 0)) ∧
    (∃ c s x t v, (Reaches tenantSessionEndSpec c true true s x t) ∧ (t.tenantOf x.tenant = some v) ∧ (v.sess = .opened)) ∧
    (∃ c s x t v, (Reaches tenantEvictSpec c true true s x t) ∧ (t.tenantOf (bits c.block 15 0) = some v) ∧
      (v.sess = .opened)) ∧
    (∃ c s x t v, (Reaches keyRotateSpec c true true s x t) ∧ (t.tenantOf x.tenant = some v) ∧ (v.sess = .opened) ∧
      (v.oldEpoch = none)) ∧
    (∃ c s x t, (Reaches admitSpec c true true s x t) ∧ (bit c.block 0 = true) ∧
      (t.ten.admissions.contains (x.tenant, bits c.block 511 128) = false) ∧ (t.ten.admissions.length < 65536)) ∧
    (∃ c s x t, (Reaches admitSpec c true true s x t) ∧ (bit c.block 0 = false) ∧
      (t.ten.admissions.contains (x.tenant, bits c.block 511 128) = true)) :=
  ⟨⟨(op 0x6 64), base, _, _, reaches_of (by decide +kernel), by decide +kernel, by decide +kernel, by decide +kernel,
    by decide +kernel⟩,
   ⟨(op 6 8), { base with ten.tenants := [(6, { keyHash := 0 })] }, _, _, { keyHash := 0 },
    reaches_of (by decide +kernel), by decide +kernel, by decide +kernel, by decide +kernel, by decide +kernel⟩,
   ⟨(tn 0 0), base, _, _, ten5, reaches_of (by decide +kernel), by decide +kernel, by decide +kernel⟩,
   ⟨(op 5 8), base, _, _, ten5, reaches_of (by decide +kernel), by decide +kernel, by decide +kernel⟩,
   ⟨(tn 0 0), base, _, _, ten5, reaches_of (by decide +kernel), by decide +kernel, by decide +kernel, by decide +kernel⟩,
   ⟨(tn 1 64), base, _, _, reaches_of (by decide +kernel), by decide +kernel, by decide +kernel, by decide +kernel⟩,
   ⟨(tn 0 64), { base with ten.admissions := [(5, 0)] }, _, _, reaches_of (by decide +kernel), by decide +kernel,
    by decide +kernel⟩⟩

theorem wit_weight_commands :
    (∃ c s x t k sigOk, (Reaches setLoadSpec c sigOk true s x t) ∧ (t.ctl.bulk.find (bits c.block 15 0) = some k) ∧
      (k.session = c.session) ∧ (k.consumer = none)) ∧
    (∃ c s x t, (Reaches setDeleteSpec c true true s x t) ∧ (bits c.block 15 0 ≠ 0) ∧
      (t.ten.sets.has (x.tenant * 65536 + bits c.block 15 0) = true) ∧
      ((t.pool.extents.any fun e => e.2.tenant == x.tenant && extSealed e.2 && extSet e.2 == bits c.block 15 0) = false)) ∧
    (∃ c s x t k, (Reaches weightImportBindSpec c true true s x t) ∧ (t.ctl.bulk.find (bits c.block 20 16) = some k) ∧
      (k.session = c.session)) ∧
    (Config.identityHash = 5#384 → ∃ c s x t ext ch e plain n set body, ∃ u,
      (Reaches weightImportBeginSpec c true true s x t) ∧ (x.sess.binding = some (ext, ch)) ∧
      (plain = bits c.block 255 192) ∧ (n = bits c.block 143 128 + 1) ∧ (set = bits c.block 63 48) ∧
      (body = leBytes c.block c.total) ∧ (plain ≠ 0) ∧ (bits c.block 191 160 = ceilDiv plain 65536) ∧ (n ≤ 256) ∧
      (bits c.block 3 0 = 3) ∧
      (((List.range n).any fun i => (slice body (64 + 1792 * i + 145) 15 ++ slice body (64 + 1792 * i + 1768) 24).any (· != 0)) = false) ∧
      (t.pool.extents.find ext = some e) ∧ (e.tenant = x.tenant) ∧ (e.state = .enabled) ∧ (extSealed e = true) ∧
      (extSet e = set) ∧ (hasRecord body n Config.identityHash.toNat = true) ∧
      ((t.ten.sets.findD (x.tenant * 65536 + set) []).contains Config.identityHash.toNat = true) ∧
      (bit e.desc 8 = true → (t.ten.sets.findD (x.tenant * 65536 + set) []).contains (bits t.pair.block 1023 640) = true) ∧
      (plain ≤ extCount e * 2097152) ∧ ((t.pool.maps.any fun m => m.extent == ext) = false) ∧ (t.importing ext = false) ∧
      ((t.ten.imports.count fun m => !m.failed) < 16) ∧ (u = t.putSession c.session { x.sess with binding := none })) ∧
    (∃ c s x t m, (Reaches weightImportEndSpec c true true s x t) ∧ (t.ten.imports.find (bits c.block 15 0) = some m) ∧
      (m.tenant = x.tenant) ∧ (m.endCmd = none)) ∧
    (∃ c s x t ch, (Reaches bulkOpenSpec c true true s x t) ∧ (bits c.block 47 0 ≠ 0) ∧ (t.ctl.bulk.length < 32) ∧
      (t.ctl.bulk.count (fun b => b.session == c.session) < 16) ∧
      (cyclicFree (fun i => t.ctl.bulk.has i) t.ctl.lastChannel 0 31 = some ch)) ∧
    (∃ c s x t b, (Reaches bulkCloseSpec c true true s x t) ∧ (t.ctl.bulk.find (bits c.block 15 0) = some b) ∧
      (b.session = c.session)) ∧
    (∃ c s x t b, (Reaches bulkStatusSpec c true true s x t) ∧ (t.ctl.bulk.find (bits c.block 15 0) = some b) ∧
      (b.session = c.session)) :=
  ⟨⟨(tn 0 8), { base with ctl.bulk := [(0, { session := 2, bytes := 100, due := 5 })] }, _, _,
    { session := 2, bytes := 100, due := 5 }, true, reaches_of (by decide +kernel), by decide +kernel, by decide +kernel,
    by decide +kernel⟩,
   ⟨(tn 1 8), { base with ten.sets := [(5 * 65536 + 1, [])] }, _, _, reaches_of (by decide +kernel), by decide +kernel,
    by decide +kernel, by decide +kernel⟩,
   ⟨(tn 0x4 8), { base with ctl.bulk := [(0, { session := 2, bytes := 100, due := 5 })] }, _, _,
    { session := 2, bytes := 100, due := 5 }, reaches_of (by decide +kernel), by decide +kernel, by decide +kernel⟩,
   (fun hc => ⟨(tn 0x500000000000000000000000000000000000000000000000000000000000000000000000000000010000000010000000000000000000000000009000000000003 1856),
               { base with
                 ctl.sessions := [(1, opSes), (2, { tnSes with binding := some (1, 4) })]
                 pool.extents := [(1, { ext1 with desc := 4 * 2 ^ 64 + 512 + 9 * 2 ^ 160 })]
                 ten.sets := [(5 * 65536 + 9, [5])] }, _, _, 1, 4, { ext1 with desc := 4 * 2 ^ 64 + 512 + 9 * 2 ^ 160 },
               _, _, _, _, _, reaches_of (by decide +kernel), by decide +kernel, rfl, rfl, rfl, rfl, by decide +kernel,
               by decide +kernel, by decide +kernel, by decide +kernel, by decide +kernel, by decide +kernel,
               by decide +kernel, by decide +kernel, by decide +kernel, rfl, by rw [hc]; decide +kernel,
               by rw [hc]; decide +kernel, fun h => absurd h (by decide +kernel), by decide +kernel, by decide +kernel,
               by decide +kernel, by decide +kernel, rfl⟩),
   ⟨(tn 4 8),
    { base with
      ten.imports := [(4, { session := 2, tenant := 5, channel := 0, setId := 0, plainBytes := 1, chunkCount := 1 })] },
    _, _, { session := 2, tenant := 5, channel := 0, setId := 0, plainBytes := 1, chunkCount := 1 },
    reaches_of (by decide +kernel), by decide +kernel, by decide +kernel, by decide +kernel⟩,
   ⟨(tn 100 8), base, _, _, 0, reaches_of (by decide +kernel), by decide +kernel, by decide +kernel, by decide +kernel,
    by decide +kernel⟩,
   ⟨(tn 0 8), { base with ctl.bulk := [(0, { session := 2, bytes := 100, due := 5 })] }, _, _,
    { session := 2, bytes := 100, due := 5 }, reaches_of (by decide +kernel), by decide +kernel, by decide +kernel⟩,
   ⟨(tn 0 8), { base with ctl.bulk := [(0, { session := 2, bytes := 100, due := 5 })] }, _, _,
    { session := 2, bytes := 100, due := 5 }, reaches_of (by decide +kernel), by decide +kernel, by decide +kernel⟩⟩

theorem wit_pool_commands :
    (∃ c s x t n k v, (Reaches reserveSetSpec c true true s x t) ∧ (n = bits c.block 15 0) ∧ (k = bits c.block 83 64) ∧
      (t.tenantOf n = some v) ∧ (k ≤ 587776) ∧
      (sumOf (t.ten.tenants.map fun y => if y.1 == n then 0 else y.2.reserve) + k ≤ t.capacity) ∧ (t.charge n ≤ k)) ∧
    (∃ c s x t, (Reaches capacityQuerySpec c true true s x t) ∧ (x.isOp = true)) ∧
    (∃ c s x t, (Reaches capacityQuerySpec c true true s x t) ∧ (x.isOp = false)) ∧
    (∃ c s x t asid, (Reaches spaceCreateSpec c true true s x t) ∧ (bits c.block 3 0 = 3) ∧
      (bits c.block 147 128 = 0 ∧ bits c.block 111 64 = 0 ∧ bits c.block 175 160 = 0 ∨ bits c.block 147 128 ≠ 0 ∧
       bits c.block 147 128 ≤ 587776 ∧ bits c.block 111 64 % 2097152 = 0 ∧
       bits c.block 111 64 + 2097152 * bits c.block 147 128 ≤ 2 ^ 48 ∧ bits c.block 175 160 ≠ 0) ∧
      (firstFree (fun a => !t.spaceFree a) 0 4096 = some asid)) ∧
    (∃ c s x t a, (Reaches spaceDeleteSpec c true true s x t) ∧ (bits c.block 15 0 < 4096) ∧
      (t.pool.spaces.find (bits c.block 15 0) = some a) ∧ (a.dead = false) ∧ (a.tenant = x.tenant)) :=
  ⟨⟨(op 0x10000000000000005 16), base, _, _, _, _, ten5, reaches_of (by decide +kernel), rfl, rfl, by decide +kernel,
    by decide +kernel, by decide +kernel, by decide +kernel⟩,
   ⟨(op 0 0), base, _, _, reaches_of (by decide +kernel), by decide +kernel⟩,
   ⟨(tn 0 0), base, _, _, reaches_of (by decide +kernel), by decide +kernel⟩,
   ⟨(tn 3 32), base, _, _, 0, reaches_of (by decide +kernel), by decide +kernel, by decide +kernel, by decide +kernel⟩,
   ⟨(tn 1 8), mapped, _, _, space1, reaches_of (by decide +kernel), by decide +kernel, by decide +kernel,
    by decide +kernel, by decide +kernel⟩⟩

theorem wit_extent_commands :
    (∃ c s x t n, (Reaches extentCreateSpec c true true s x t) ∧
      (cyclicFree (fun n => t.pool.extents.has n) t.ctl.lastExtent 0 65535 = some n)) ∧
    (∃ c s x t e, (Reaches extentEnableSpec c true true s x t) ∧ (t.enableRefusal (bits c.block 15 0) x.tenant = .ok e) ∧
      (bit e.desc 8 = false)) ∧
    (∃ c s x t e, (Reaches extentEnableSpec c true true s x t) ∧ (t.enableRefusal (bits c.block 15 0) x.tenant = .ok e) ∧
      (bit e.desc 8 = true)) ∧
    (∃ c s x t e, (Reaches extentDeleteSpec c true true s x t) ∧ (t.pool.extents.find (bits c.block 15 0) = some e) ∧
      (e.tenant = x.tenant) ∧ (e.state = .disabled)) ∧
    (∃ c s x t e, (Reaches extentDeleteSpec c true true s x t) ∧ (t.pool.extents.find (bits c.block 15 0) = some e) ∧
      (e.tenant = x.tenant) ∧ (e.state = .enabled)) ∧
    (∃ c s x t e, (Reaches extentQuerySpec c true true s x t) ∧ (t.pool.extents.find (bits c.block 15 0) = some e) ∧
      (x.isOp = true ∨ e.tenant = x.tenant)) ∧
    (∃ c s x t e, (Reaches extentReclaimSpec c true true s x t) ∧ (t.pool.extents.find (bits c.block 15 0) = some e) ∧
      (e.state = .enabled)) :=
  ⟨⟨(tn 3 32), base, _, _, 0, reaches_of (by decide +kernel), by decide +kernel⟩,
   ⟨(tn 1 8),
    { base with
      pool.extents := [(1, { ext1 with state := .disabled, desc := ext1.desc + 2 ^ 128 })]
      pool.grans := [(9216, { st := .free })], ten.tenants := [(5, { ten5 with reserve := 9 })] }, _, _,
    { ext1 with state := .disabled, desc := ext1.desc + 2 ^ 128 }, reaches_of (by decide +kernel), rfl, by decide +kernel⟩,
   ⟨(tn 1 8),
    { base with
      pool.extents := [(1, { ext1 with state := .disabled, desc := ext1.desc + 2 ^ 128 + 256 })]
      ten.tenants := [(5, { ten5 with reserve := 9 })], pair.enabled := true, pair.role := .active
      pair.peerIn := true, pair.peerTen := [5] }, _, _,
    { ext1 with state := .disabled, desc := ext1.desc + 2 ^ 128 + 256 }, reaches_of (by decide +kernel), rfl,
    by decide +kernel⟩,
   ⟨(tn 1 8), { base with pool.extents := [(1, { ext1 with state := .disabled })] }, _, _,
    { ext1 with state := .disabled }, reaches_of (by decide +kernel), by decide +kernel, by decide +kernel,
    by decide +kernel⟩,
   ⟨(tn 1 8), mapped, _, _, ext1, reaches_of (by decide +kernel), by decide +kernel, by decide +kernel, by decide +kernel⟩,
   ⟨(op 1 8), mapped, _, _, ext1, reaches_of (by decide +kernel), by decide +kernel, by decide +kernel⟩,
   ⟨(op 1 8), mapped, _, _, ext1, reaches_of (by decide +kernel), by decide +kernel, by decide +kernel⟩⟩

theorem wit_mapping_commands :
    (∃ c s x t, (Reaches extentMapSpec c true true s x t) ∧ (checkTable (mapRows x t) 0 = none) ∧
      (t.importing (bits c.block 15 0) = true)) ∧
    (∃ c s x t, (Reaches extentMapSpec c true true s x t) ∧ (checkTable (mapRows x t) 0 = none) ∧
      (t.importing (bits c.block 15 0) = false)) ∧
    (∃ c s x t a m, (Reaches extentUnmapSpec c true true s x t) ∧ (t.spaceLive (bits c.block 35 24) = some a) ∧
      (a.tenant = x.tenant) ∧
      ((t.pool.maps.find? fun m => m.asid == bits c.block 35 24 && m.vaBase == bits c.block 127 80 && m.extent == bits c.block 15 0) = some m) ∧
      (m.removing = false)) :=
  ⟨⟨(tn 0x80000000001000000001000001 16),
    { mapped with
      ten.imports := [(1, { session := 2, tenant := 5, channel := 0, setId := 9, plainBytes := 5, chunkCount := 1 })] },
    _, _, reaches_of (by decide +kernel), by decide +kernel, by decide +kernel⟩,
   ⟨(tn 0x80000000001000000001000001 16), mapped, _, _, reaches_of (by decide +kernel), by decide +kernel,
    by decide +kernel⟩,
   ⟨(tn 0x1000001 16), mapped, _, _, space1, map1, reaches_of (by decide +kernel), by decide +kernel, by decide +kernel,
    by decide +kernel, by decide +kernel⟩⟩

theorem wit_partition_commands :
    (∃ c s x t n w v, (Reaches l2PartitionSpec c true true s x t) ∧ (n = bits c.block 15 0) ∧ (w = bits c.block 31 16) ∧
      (t.tenantOf n = some v) ∧ ((t.pool.l2part.any fun y => y.1 != n && Nat.land y.2 w != 0) = false)) ∧
    (∃ c s x t n w v, (Reaches dirPartitionSpec c true true s x t) ∧ (n = bits c.block 15 0) ∧ (w = bits c.block 31 16) ∧
      (t.tenantOf n = some v) ∧ ((t.com.part.any fun y => y.1 != n && Nat.land y.2 w != 0) = false) ∧
      ((t.com.commons.any fun y => y.2.tenant == n && y.2.state == .enabled) = false)) ∧
    (∃ c s x t n, (Reaches commonCreateSpec c true true s x t) ∧
      (cyclicFree (fun n => t.com.commons.has n) t.ctl.lastCommon 0 255 = some n)) ∧
    (∃ c s x t n m e, (Reaches commonEnableSpec c true true s x t) ∧ (n = bits c.block 15 0) ∧
      (t.com.commons.find n = some m) ∧ (m.tenant = x.tenant) ∧ (m.state = .disabled) ∧ (bits m.desc 3 0 = 3) ∧
      (t.pool.extents.find (comExtent m) = some e) ∧ (e.tenant = x.tenant) ∧ (e.state = .enabled) ∧
      (extVersioned e = false) ∧ (extCheckout e = false) ∧ (t.commonOf (comExtent m) = none) ∧
      (sumOf (t.com.commons.map fun y => if y.2.state == .enabled then ((t.pool.extents.find (comExtent y.2)).map extCount).getD 0 else 0) + extCount e ≤ 32768) ∧
      (t.isolated x.tenant = true → t.com.part.has x.tenant = true)) ∧
    (∃ c s x t n m, (Reaches commonDeleteSpec c true true s x t) ∧ (n = bits c.block 15 0) ∧
      (t.com.commons.find n = some m) ∧ (m.tenant = x.tenant) ∧ (m.state = .disabled)) ∧
    (∃ c s x t n m, (Reaches commonDeleteSpec c true true s x t) ∧ (n = bits c.block 15 0) ∧
      (t.com.commons.find n = some m) ∧ (m.tenant = x.tenant) ∧ (m.state = .enabled)) :=
  ⟨⟨(op 0x30005 8), base, _, _, _, _, ten5, reaches_of (by decide +kernel), rfl, rfl, by decide +kernel,
    by decide +kernel⟩,
   ⟨(op 0x30005 8), base, _, _, _, _, ten5, reaches_of (by decide +kernel), rfl, rfl, by decide +kernel,
    by decide +kernel, by decide +kernel⟩,
   ⟨(tn 3 16), base, _, _, 0, reaches_of (by decide +kernel), by decide +kernel⟩,
   ⟨(tn 2 8), { mapped with com.commons := [(2, { tenant := 5, desc := 0x10003 })] }, _, _, _,
    { tenant := 5, desc := 0x10003 }, ext1, reaches_of (by decide +kernel), rfl, by decide +kernel, by decide +kernel,
    by decide +kernel, by decide +kernel, by decide +kernel, by decide +kernel, by decide +kernel, by decide +kernel,
    by decide +kernel, by decide +kernel, by decide +kernel, fun h => by revert h; decide +kernel⟩,
   ⟨(tn 2 8), { mapped with com.commons := [(2, { tenant := 5, desc := 0x10003 })] }, _, _, _,
    { tenant := 5, desc := 0x10003 }, reaches_of (by decide +kernel), rfl, by decide +kernel, by decide +kernel,
    by decide +kernel⟩,
   ⟨(tn 2 8), { mapped with com.commons := [(2, { tenant := 5, desc := 0x10003, state := .enabled })] }, _, _, _,
    { tenant := 5, desc := 0x10003, state := .enabled }, reaches_of (by decide +kernel), rfl, by decide +kernel,
    by decide +kernel, by decide +kernel⟩⟩

theorem wit_stream_opened :
    (∃ (s u : State), ∃ (o : Opener), ∃ (node sid : Nat), ∃ (ccp : Option Nat), ∃ (who : Access), ∃ (desc : List Byte),
      (s.openStream o node ccp who desc = (.yes sid, u))) :=
  ⟨mapped, _, { tenant := 5, session := none }, 0, 0, (some 2),
   (.command 0x0401 { session := 2, cmdId := 1 } 5 desc1 96), (leBytes desc1 96), fst_of (by decide +kernel)⟩

theorem wit_stream_commands :
    (∃ c s x t sid u, (Reaches streamCreateSpec c true true s x t) ∧
      (t.openStream { tenant := x.tenant, session := none } 0 (some c.session) (.command 0x0401 x.ref x.tenant x.block x.total) (leBytes c.block c.total) = (.yes sid,
                                                                                                                                                             u))) ∧
    (∃ c s x t sid v, (Reaches streamCloseCcpSpec c true true s x t) ∧ (sid = bits c.block 13 0) ∧
      (t.namedStream sid (bits c.block 23 16) = some v) ∧ (v.ccp = some c.session) ∧ (v.closed = true) ∧ (v.tiles = [])) ∧
    (∃ c s x t sid v, (Reaches streamCloseCcpSpec c true true s x t) ∧ (sid = bits c.block 13 0) ∧
      (t.namedStream sid (bits c.block 23 16) = some v) ∧ (v.ccp = some c.session) ∧ (v.closed = false)) ∧
    (∃ c s x t sid v, (Reaches streamAbortCcpSpec c true true s x t) ∧ (sid = bits c.block 13 0) ∧
      (t.namedStream sid (bits c.block 23 16) = some v) ∧ (v.ccp = some c.session) ∧ (v.closed = false)) ∧
    (∃ c s x t sid v, (Reaches streamPrioritySpec c true true s x t) ∧ (sid = bits c.block 13 0) ∧
      (t.namedStream sid (bits c.block 23 16) = some v) ∧ (v.tenant = x.tenant)) :=
  ⟨⟨(tn desc1 96), mapped, _, _, 0, _, reaches_of (by decide +kernel), fst_of (by decide +kernel)⟩,
   ⟨(tn 3 8), { mapped with str.streams := [(3, { strm1 with closed := true })] }, _, _, _,
    { strm1 with closed := true }, reaches_of (by decide +kernel), rfl, by decide +kernel, by decide +kernel,
    by decide +kernel, by decide +kernel⟩,
   ⟨(tn 3 8), streamed, _, _, _, strm1, reaches_of (by decide +kernel), rfl, by decide +kernel, by decide +kernel,
    by decide +kernel⟩,
   ⟨(tn 3 8), streamed, _, _, _, strm1, reaches_of (by decide +kernel), rfl, by decide +kernel, by decide +kernel,
    by decide +kernel⟩,
   ⟨(tn 0x2000003 8), streamed, _, _, _, strm1, reaches_of (by decide +kernel), rfl, by decide +kernel, by decide +kernel⟩⟩

theorem wit_load_commands :
    (∃ c s x t d n, (Reaches formatLoadSpec c true true s x t) ∧ (d = bits c.block 63 0) ∧ (n = bits c.block 68 64) ∧
      (14 ≤ n) ∧ (descBad d = false) ∧ (t.slotUsed n = false)) ∧
    (∃ c s x t n ops, (Reaches vectorProgLoadSpec c true true s x t) ∧ (n = bits c.block 15 8) ∧
      (ops = (List.range (progLen c.block)).map (progOp c.block)) ∧ (ops.any opReserved = false) ∧
      (c.block / 2 ^ (384 + 32 * progLen c.block) = 0) ∧ (ops.any opRange = false) ∧
      (∀ p, t.str.progs.find n = some p → p.tenant = x.tenant)) :=
  ⟨⟨(op 0xe00000000000011c2 16), base, _, _, _, _, reaches_of (by decide +kernel), rfl, rfl, by decide +kernel,
    by decide +kernel, by decide +kernel⟩,
   ⟨(tn 0x18000000000000000000000000000000000000000000000000000000000000000000000000000000000000000000000000000100 176),
    base, _, _, _, _, reaches_of (by decide +kernel), rfl, rfl, by decide +kernel, by decide +kernel, by decide +kernel,
    by decide +kernel⟩⟩

theorem wit_window_commands :
    (∃ c s x t n, (Reaches windowCreateSpec c true true s x t) ∧
      (cyclicFree (fun n => t.seq.windows.has n) t.ctl.lastWindow 0 4095 = some n)) ∧
    (∃ c s x t w v, (Reaches windowEnableSpec c true true s x t) ∧ (w = bits c.block 15 0) ∧ (w < 4096) ∧
      (t.seq.windows.find w = some v) ∧ (v.tenant = x.tenant) ∧ (checkTable (windowRows x t w v) 9 = none)) ∧
    (∃ c s x t w v, (Reaches windowAbortSpec c true true s x t) ∧ (w = bits c.block 15 0) ∧ (w < 4096) ∧
      (t.seq.windows.find w = some v) ∧ (v.tenant = x.tenant) ∧ (v.state = .opened)) ∧
    (∃ c s x t w v, (Reaches windowRetireSpec c true true s x t) ∧ (w = bits c.block 15 0) ∧ (w < 4096) ∧
      (t.seq.windows.find w = some v) ∧ (v.tenant = x.tenant) ∧ (v.state = .closed) ∧ (v.retireCmd = none) ∧
      ((v.tiles.any fun y => y.2.phase != .opened && y.2.phase != .closed) = false)) ∧
    (∃ c s x t w v, (Reaches windowRetireSpec c true true s x t) ∧ (w = bits c.block 15 0) ∧ (w < 4096) ∧
      (t.seq.windows.find w = some v) ∧ (v.tenant = x.tenant) ∧ (v.state = .closed) ∧ (v.retireCmd = none) ∧
      ((v.tiles.any fun y => y.2.phase != .opened && y.2.phase != .closed) = true)) ∧
    (∃ c s x t w v, (Reaches windowDeleteSpec c true true s x t) ∧ (w = bits c.block 15 0) ∧ (w < 4096) ∧
      (t.seq.windows.find w = some v) ∧ (v.tenant = x.tenant) ∧ (v.state = .disabled ∨ v.state = .retired)) ∧
    (∃ c s x t w v, (Reaches windowQuerySpec c true true s x t) ∧ (w = bits c.block 15 0) ∧ (w < 4096) ∧
      (t.seq.windows.find w = some v) ∧ (x.isOp = true ∨ v.tenant = x.tenant)) ∧
    (∃ (t : State), ∃ (w : Nat), ∃ (v : Window), (t.fab.held = []) ∧ ((t.sch.hubs.flatMap fun q => q.2) = [])) :=
  ⟨⟨(tn 3 64), base, _, _, 0, reaches_of (by decide +kernel), by decide +kernel⟩,
   ⟨(tn 4 8), (withWin window1), _, _, _, window1, reaches_of (by decide +kernel), rfl, by decide +kernel,
    by decide +kernel, by decide +kernel, by decide +kernel⟩,
   ⟨(tn 4 8), (withWin { window1 with state := .opened }), _, _, _, { window1 with state := .opened },
    reaches_of (by decide +kernel), rfl, by decide +kernel, by decide +kernel, by decide +kernel, by decide +kernel⟩,
   ⟨(tn 4 8), (withWin { window1 with state := .closed }), _, _, _, { window1 with state := .closed },
    reaches_of (by decide +kernel), rfl, by decide +kernel, by decide +kernel, by decide +kernel, by decide +kernel,
    by decide +kernel, by decide +kernel⟩,
   ⟨(tn 4 8), (withWin { window1 with state := .closed, tiles := [(0, { phase := .writing })] }), _, _, _,
    { window1 with state := .closed, tiles := [(0, { phase := .writing })] }, reaches_of (by decide +kernel), rfl,
    by decide +kernel, by decide +kernel, by decide +kernel, by decide +kernel, by decide +kernel, by decide +kernel⟩,
   ⟨(tn 4 8), (withWin window1), _, _, _, window1, reaches_of (by decide +kernel), rfl, by decide +kernel,
    by decide +kernel, by decide +kernel, by decide +kernel⟩,
   ⟨(tn 4 8), (withWin window1), _, _, _, window1, reaches_of (by decide +kernel), rfl, by decide +kernel,
    by decide +kernel, by decide +kernel⟩,
   ⟨base, 0, window1, by decide +kernel, by decide +kernel⟩⟩

theorem wit_context_commands :
    (∃ c s x t n, (Reaches seqCreateSpec c true true s x t) ∧
      (cyclicFree (fun n => t.seq.contexts.has n) t.ctl.lastContext 0 4095 = some n)) ∧
    (∃ c s x t n v, (Reaches seqEnableSpec c true true s x t) ∧ (n = bits c.block 15 0) ∧ (n < 4096) ∧
      (t.seq.contexts.find n = some v) ∧ (v.tenant = x.tenant) ∧ (checkTable (contextRows x t v) 6 = none) ∧
      (qScaleMode v.desc = false)) ∧
    (∃ c s x t n v, (Reaches seqTruncateSpec c true true s x t) ∧ (n = bits c.block 15 0) ∧ (n < 4096) ∧
      (t.seq.contexts.find n = some v) ∧ (v.tenant = x.tenant) ∧ (v.enabled = true)) ∧
    (∃ c s x t n v, (Reaches seqDisableSpec c true true s x t) ∧ (n = bits c.block 15 0) ∧ (n < 4096) ∧
      (t.seq.contexts.find n = some v) ∧ (v.tenant = x.tenant) ∧ (v.enabled = true)) ∧
    (∃ c s x t n v, (Reaches seqDeleteSpec c true true s x t) ∧ (n = bits c.block 15 0) ∧ (n < 4096) ∧
      (t.seq.contexts.find n = some v) ∧ (v.tenant = x.tenant) ∧ (v.enabled = false)) ∧
    (∃ c s x t n v, (Reaches seqQuerySpec c true true s x t) ∧ (n = bits c.block 15 0) ∧ (n < 4096) ∧
      (t.seq.contexts.find n = some v) ∧ (v.tenant = x.tenant)) :=
  ⟨⟨(tn 3 64), base, _, _, 0, reaches_of (by decide +kernel), by decide +kernel⟩,
   ⟨(tn 6 8), (withCtx { tenant := 5, desc := ctx1 }), _, _, _, { tenant := 5, desc := ctx1 },
    reaches_of (by decide +kernel), rfl, by decide +kernel, by decide +kernel, by decide +kernel, by decide +kernel,
    by decide +kernel⟩,
   ⟨(tn 0x400000006 8), (withCtx { tenant := 5, desc := ctx1, enabled := true }), _, _, _,
    { tenant := 5, desc := ctx1, enabled := true }, reaches_of (by decide +kernel), rfl, by decide +kernel,
    by decide +kernel, by decide +kernel, by decide +kernel⟩,
   ⟨(tn 6 8), (withCtx { tenant := 5, desc := ctx1, enabled := true }), _, _, _,
    { tenant := 5, desc := ctx1, enabled := true }, reaches_of (by decide +kernel), rfl, by decide +kernel,
    by decide +kernel, by decide +kernel, by decide +kernel⟩,
   ⟨(tn 6 8), (withCtx { tenant := 5, desc := ctx1 }), _, _, _, { tenant := 5, desc := ctx1 },
    reaches_of (by decide +kernel), rfl, by decide +kernel, by decide +kernel, by decide +kernel, by decide +kernel⟩,
   ⟨(tn 6 8), (withCtx { tenant := 5, desc := ctx1 }), _, _, _, { tenant := 5, desc := ctx1 },
    reaches_of (by decide +kernel), rfl, by decide +kernel, by decide +kernel, by decide +kernel⟩⟩

theorem wit_port_commands :
    (∃ c s x t p q top new, (Reaches portSetSpec c true true s x t) ∧ (p = bits c.block 5 0) ∧ (q = t.port p) ∧
      (bits c.block 17 16 < 2) ∧ (bits c.block 45 36 ≤ 512) ∧ (top = (if bits c.block 17 16 = 0 then 8 else 4)) ∧
      (bits c.block 31 28 ≤ top) ∧
      (new = (fun q : Port => { q with
                replayTo := orDefault (bits c.block 63 56) 20, ackTimer := orDefault (bits c.block 55 48) 20
                ackEvery := orDefault (bits c.block 45 36) 64, replayLim := orDefault (bits c.block 35 32) 4
                wMax := orDefault (bits c.block 31 28) top, mode := bits c.block 17 16, enable := bit c.block 8 })) ∧
      (bits c.block 17 16 = q.mode) ∧ (bit c.block 8 = q.enable) ∧
      (q.st ≠ .up ∧ q.st ≠ .retrain ∨ q.st = .up ∧ q.w ≤ orDefault (bits c.block 31 28) top)) ∧
    (∃ c s x t p q top new, (Reaches portSetSpec c true true s x t) ∧ (p = bits c.block 5 0) ∧ (q = t.port p) ∧
      (bits c.block 17 16 < 2) ∧ (bits c.block 45 36 ≤ 512) ∧ (top = (if bits c.block 17 16 = 0 then 8 else 4)) ∧
      (bits c.block 31 28 ≤ top) ∧
      (new = (fun q : Port => { q with
                replayTo := orDefault (bits c.block 63 56) 20, ackTimer := orDefault (bits c.block 55 48) 20
                ackEvery := orDefault (bits c.block 45 36) 64, replayLim := orDefault (bits c.block 35 32) 4
                wMax := orDefault (bits c.block 31 28) top, mode := bits c.block 17 16, enable := bit c.block 8 })) ∧
      (bits c.block 17 16 = q.mode) ∧ (bit c.block 8 = q.enable) ∧ (q.st = .retrain)) ∧
    (∃ c s x t p q top new, (Reaches portSetSpec c true true s x t) ∧ (p = bits c.block 5 0) ∧ (q = t.port p) ∧
      (bits c.block 17 16 < 2) ∧ (bits c.block 45 36 ≤ 512) ∧ (top = (if bits c.block 17 16 = 0 then 8 else 4)) ∧
      (bits c.block 31 28 ≤ top) ∧
      (new = (fun q : Port => { q with
                replayTo := orDefault (bits c.block 63 56) 20, ackTimer := orDefault (bits c.block 55 48) 20
                ackEvery := orDefault (bits c.block 45 36) 64, replayLim := orDefault (bits c.block 35 32) 4
                wMax := orDefault (bits c.block 31 28) top, mode := bits c.block 17 16, enable := bit c.block 8 })) ∧
      (bits c.block 17 16 = q.mode) ∧ (bit c.block 8 = q.enable) ∧ (q.st = .up) ∧
      (orDefault (bits c.block 31 28) top < q.w)) ∧
    (∃ c s x t p q top new, (Reaches portSetSpec c true true s x t) ∧ (p = bits c.block 5 0) ∧ (q = t.port p) ∧
      (bits c.block 17 16 < 2) ∧ (bits c.block 45 36 ≤ 512) ∧ (top = (if bits c.block 17 16 = 0 then 8 else 4)) ∧
      (bits c.block 31 28 ≤ top) ∧
      (new = (fun q : Port => { q with
                replayTo := orDefault (bits c.block 63 56) 20, ackTimer := orDefault (bits c.block 55 48) 20
                ackEvery := orDefault (bits c.block 45 36) 64, replayLim := orDefault (bits c.block 35 32) 4
                wMax := orDefault (bits c.block 31 28) top, mode := bits c.block 17 16, enable := bit c.block 8 })) ∧
      (bits c.block 17 16 ≠ q.mode ∨ bit c.block 8 ≠ q.enable) ∧ (bit c.block 8 = false)) ∧
    (∃ c s x t p q top new, (Reaches portSetSpec c true true s x t) ∧ (p = bits c.block 5 0) ∧ (q = t.port p) ∧
      (bits c.block 17 16 < 2) ∧ (bits c.block 45 36 ≤ 512) ∧ (top = (if bits c.block 17 16 = 0 then 8 else 4)) ∧
      (bits c.block 31 28 ≤ top) ∧
      (new = (fun q : Port => { q with
                replayTo := orDefault (bits c.block 63 56) 20, ackTimer := orDefault (bits c.block 55 48) 20
                ackEvery := orDefault (bits c.block 45 36) 64, replayLim := orDefault (bits c.block 35 32) 4
                wMax := orDefault (bits c.block 31 28) top, mode := bits c.block 17 16, enable := bit c.block 8 })) ∧
      (bits c.block 17 16 ≠ q.mode ∨ bit c.block 8 ≠ q.enable) ∧ (bit c.block 8 = true)) ∧
    (∃ c s x t, (Reaches portQuerySpec c true true s x t) ∧ (bits c.block 15 0 < 64)) :=
  ⟨⟨(op 0x100 8), base, _, _, _, _, _, _, reaches_of (by decide +kernel), rfl, rfl, by decide +kernel, by decide +kernel,
    rfl, by decide +kernel, rfl, by decide +kernel, by decide +kernel, by decide +kernel⟩,
   ⟨(op 0x20000100 8), { base with ports := [(0, { st := .retrain, w := 4 })] }, _, _, _, _, _, _,
    reaches_of (by decide +kernel), rfl, rfl, by decide +kernel, by decide +kernel, rfl, by decide +kernel, rfl,
    by decide +kernel, by decide +kernel, by decide +kernel⟩,
   ⟨(op 0x20000100 8), { base with ports := [(0, { st := .up, w := 4 })] }, _, _, _, _, _, _,
    reaches_of (by decide +kernel), rfl, rfl, by decide +kernel, by decide +kernel, rfl, by decide +kernel, rfl,
    by decide +kernel, by decide +kernel, by decide +kernel, by decide +kernel⟩,
   ⟨(op 0 8), base, _, _, _, _, _, _, reaches_of (by decide +kernel), rfl, rfl, by decide +kernel, by decide +kernel,
    rfl, by decide +kernel, rfl, by decide +kernel, by decide +kernel⟩,
   ⟨(op 0x10100 8), base, _, _, _, _, _, _, reaches_of (by decide +kernel), rfl, rfl, by decide +kernel,
    by decide +kernel, rfl, by decide +kernel, rfl, by decide +kernel, by decide +kernel⟩,
   ⟨(op 0 8), base, _, _, reaches_of (by decide +kernel), by decide +kernel⟩⟩

theorem wit_route_commands :
    (∃ c s x t n first bk es, (Reaches routeSetSpec c true true s x t) ∧ (n = bits c.block 39 32 + 1) ∧
      (first = bits c.block 63 48) ∧ (bk = c.block % 2) ∧
      (es = (List.range n).map (fun i => bits c.block (32 * i + 95) (32 * i + 64))) ∧
      (∀ e ∈ es, bit e 31 = false ∧ bits e 30 28 ≤ 4 ∧ (bits e 30 28 = 0 ∨ bit e 6 = true)) ∧ (first + n ≤ 65536) ∧
      ((t.bank bk).quiet = true ∨ (t.bank bk).opened = true)) ∧
    (∃ c s x t e, (Reaches routeEpochSpec c true true s x t) ∧ (e = c.block % 2) ∧ (e ≠ t.fab.epoch) ∧ ∃ u,
      (u = { t with fab.escWait := orDefault (bits c.block 15 8) 100 }) ∧ ∃ v,
      (v = u.putBank u.fab.epoch { u.bank u.fab.epoch with lastUse := t.dev.tick, quiet := false }) ∧ ∃ w,
      (w = { v with fab.epoch := e })) ∧
    (∃ c s x t, (Reaches routeQuerySpec c true true s x t)) ∧
    (∃ c s x t, (Reaches mcastSetSpec c true true s x t)) :=
  ⟨⟨(op 1 12), base, _, _, _, _, _, _, reaches_of (by decide +kernel), rfl, rfl, rfl, rfl, by decide +kernel,
    by decide +kernel, by decide +kernel⟩,
   ⟨(op 1 8), base, _, _, _, reaches_of (by decide +kernel), rfl, by decide +kernel, _, rfl, _, rfl, _, rfl⟩,
   ⟨(op 0 0), base, _, _, reaches_of (by decide +kernel)⟩,
   ⟨(op 0 16), base, _, _, reaches_of (by decide +kernel)⟩⟩

theorem wit_share_commands :
    (∃ c s x t n v, (Reaches policeSetSpec c true true s x t) ∧ (x.isOp = true) ∧ (n = bits c.block 15 0) ∧
      (bit c.block 16 = false) ∧ (t.tenantOf n = some v) ∧
      (bit c.block 17 = true → 258 ≤ bits c.block 59 40 ∧ 258 ≤ bits c.block 103 84 ∧
       bits c.block 83 60 ≤ bits c.block 127 104)) ∧
    (∃ c s x t n v, (Reaches policeSetSpec c true true s x t) ∧ (x.isOp = false) ∧ (n = bits c.block 15 0) ∧
      (bit c.block 16 = true) ∧ (n = x.tenant) ∧ (t.tenantOf n = some v) ∧
      (bit c.block 17 = true → 258 ≤ bits c.block 59 40 ∧ bits c.block 103 84 = 0 ∧ bits c.block 127 104 = 0)) ∧
    (∃ c s x t k, (Reaches schedSetSpec c true true s x t) ∧
      (k = nodeKey (bits c.block 63 48) (bits c.block 40 40) (bits c.block 43 41)) ∧ (bits c.block 63 48 = 0) ∧
      (bits c.block 43 41 = 7) ∧ (bits c.block 39 29 ≤ bits c.block 28 18) ∧ (bits c.block 39 29 ≤ 1024) ∧
      (1 ≤ bits c.block 28 18) ∧ (bits c.block 28 18 ≤ 1024) ∧
      (sumOf ((t.sch.nodes.filter fun y => (y.1 != k && y.1 / 8 % 2 == bits c.block 40 40) && y.1 % 8 == 7).map (·.2.minShare)) + bits c.block 39 29 ≤ 1024)) ∧
    (∃ c s x t, (Reaches arbSetSpec c true true s x t) ∧ (bits c.block 2 0 ≤ 4)) ∧
    (∃ c s x t n v l, (Reaches isolateSetSpec c true true s x t) ∧ (n = bits c.block 63 48) ∧ (t.tenantOf n = some v) ∧
      (bit c.block 0 = true) ∧ (bits c.block 47 38 ≠ 0) ∧ (bits c.block 37 28 ≠ 0) ∧ (bits c.block 27 25 ≠ 0) ∧
      (l = c.block :: (t.sch.iso.filter fun y => y.1 != n).map (·.2)) ∧ (sumOf (l.map (bits · 27 25)) ≤ 7) ∧
      (sumOf (l.map (bits · 47 38)) ≤ 896) ∧ (sumOf (l.map (bits · 37 28)) ≤ 896)) ∧
    (∃ c s x t n v, (Reaches isolateSetSpec c true true s x t) ∧ (n = bits c.block 63 48) ∧ (t.tenantOf n = some v) ∧
      (bit c.block 0 = false)) ∧
    (∃ c s x t k v, (Reaches cadenceSetSpec c true true s x t) ∧ (k = bits c.block 3 0) ∧ (k ≠ 0) ∧
      (1024 ≤ cdPeriod c.block) ∧ (cdPeriod c.block ≤ 16777216) ∧ (cdShare c.block ≠ 0) ∧ (cdShare c.block ≤ 512) ∧
      (cdEnabled c.block = true → t.tenantOf (cdTenant c.block) ≠ none ∧
       sumOf (t.seq.cadence.map fun y => if y.1 != k && cdEnabled (y.2.next.getD y.2.block) then cdShare (y.2.next.getD y.2.block) else 0) + cdShare c.block ≤ 512) ∧
      (v = t.seq.cadence.findD k {}) ∧ (cdEnabled v.block = false)) ∧
    (∃ c s x t k v, (Reaches cadenceSetSpec c true true s x t) ∧ (k = bits c.block 3 0) ∧ (k ≠ 0) ∧
      (1024 ≤ cdPeriod c.block) ∧ (cdPeriod c.block ≤ 16777216) ∧ (cdShare c.block ≠ 0) ∧ (cdShare c.block ≤ 512) ∧
      (cdEnabled c.block = true → t.tenantOf (cdTenant c.block) ≠ none ∧
       sumOf (t.seq.cadence.map fun y => if y.1 != k && cdEnabled (y.2.next.getD y.2.block) then cdShare (y.2.next.getD y.2.block) else 0) + cdShare c.block ≤ 512) ∧
      (v = t.seq.cadence.findD k {}) ∧ (cdEnabled v.block = true)) ∧
    (∃ c s x t, (Reaches histQuerySpec c true true s x t) ∧ (bits c.block 63 48 = 0) ∧ (x.isOp = true) ∧
      (bits c.block 41 40 = 0) ∧ (bits c.block 7 0 = 255) ∧ (bit c.block 8 = false)) :=
  ⟨⟨(op 5 16), base, _, _, _, ten5, reaches_of (by decide +kernel), by decide +kernel, rfl, by decide +kernel,
    by decide +kernel, by decide +kernel⟩,
   ⟨(tn 0x10005 16), base, _, _, _, ten5, reaches_of (by decide +kernel), by decide +kernel, rfl, by decide +kernel, rfl,
    by decide +kernel, by decide +kernel⟩,
   ⟨(op 0xe0810000000 8), base, _, _, _, reaches_of (by decide +kernel), rfl, by decide +kernel, by decide +kernel,
    by decide +kernel, by decide +kernel, by decide +kernel, by decide +kernel, by decide +kernel⟩,
   ⟨(op 0 8), base, _, _, reaches_of (by decide +kernel), by decide +kernel⟩,
   ⟨(op 0x5004012000001 8), base, _, _, _, ten5, _, reaches_of (by decide +kernel), rfl, by decide +kernel,
    by decide +kernel, by decide +kernel, by decide +kernel, by decide +kernel, rfl, by decide +kernel,
    by decide +kernel, by decide +kernel⟩,
   ⟨(op 0x5000000000000 8), base, _, _, _, ten5, reaches_of (by decide +kernel), rfl, by decide +kernel,
    by decide +kernel⟩,
   ⟨(op 0x5000004000000000100000101 16), base, _, _, _, _, reaches_of (by decide +kernel), rfl, by decide +kernel,
    by decide +kernel, by decide +kernel, by decide +kernel, by decide +kernel, by decide +kernel, rfl, by decide +kernel⟩,
   ⟨(op 0x5000004000000000100000101 16), { base with seq.cadence := [(1, { block := 0x5000004000000000100000101 })] }, _,
    _, _, _, reaches_of (by decide +kernel), rfl, by decide +kernel, by decide +kernel, by decide +kernel,
    by decide +kernel, by decide +kernel, by decide +kernel, rfl, by decide +kernel⟩,
   ⟨(op 255 8), base, _, _, reaches_of (by decide +kernel), by decide +kernel, by decide +kernel, by decide +kernel,
    by decide +kernel, by decide +kernel⟩⟩

theorem wit_power_commands :
    (∃ c s x t, (Reaches powerSetSpec c true true s x t) ∧
      (bits c.block 127 117 = 0 ∨ 600 ≤ bits c.block 127 117 ∧ bits c.block 127 117 ≤ 1400) ∧ (bits c.block 78 72 ≤ 100) ∧
      (bits c.block 70 64 ≤ 64) ∧ (bits c.block 63 57 ≤ 64) ∧ (bits c.block 56 54 ≤ 5) ∧ (bits c.block 53 51 ≤ 4) ∧
      (pbFloorC c.block + pbFloorM c.block + pbFloorL c.block + 80 ≤ pbCap c.block)) ∧
    (∃ c s x t, (Reaches powerQuerySpec c true true s x t)) ∧
    (∃ c s x t, (Reaches sleepSetSpec c true true s x t)) ∧
    (∃ c s x t, (Reaches sleepEnterSpec c true true s x t) ∧ (bits c.block 2 0 = 3) ∧ (t.sleepBarred = false) ∧
      (t.pwr.sleep = .active)) ∧
    (∃ c s x t, (Reaches sleepEnterSpec c true true s x t) ∧ (bits c.block 2 0 = 4) ∧ (t.sleepBarred = false) ∧
      (t.pwr.sleep = .active)) ∧
    (∃ c s x t, (Reaches sleepEnterSpec c true true s x t) ∧ (bits c.block 2 0 = 0) ∧ (t.pwr.sleep ≠ .active)) ∧
    (∃ c s x t, (Reaches pairQuerySpec c true true s x t)) ∧
    (∃ c s x t ports, ∃ u, (Reaches pairSetSpec c true true s x t) ∧ (ports = bits c.block 255 192) ∧
      (1 ≤ popcount ports 64) ∧ (popcount ports 64 ≤ 4) ∧ (bits c.block 159 144 ≠ 0) ∧ (bits c.block 127 112 ≠ 1) ∧
      (bits c.block 127 112 ≤ 64) ∧
      (∀ k, k = t.fab.bank0 ∨ k = t.fab.bank1 →
       (k.entries.any fun e => (entryCands e.2).any fun y => bit ports y.2) = false) ∧
      ((t.fab.groups.any fun g => g.2.2 && (List.range 64).any fun p => bit g.2.1 p && bit ports p) = false) ∧
      (bit c.block 0 = true) ∧ (t.pair.enabled = false) ∧
      (u = ({ t with
              pair.block := c.block, pair.enabled := true, pair.waitDue := some (t.dev.tick + 1562500)
              fw.config := t.fw.config.put 0x40 (leBytes c.block 128) } : State).setPortReady 0 (bit t.ready.port 0)) ∧
      (bit c.block 2 = false)) ∧
    (∃ c s x t ports, ∃ u, (Reaches pairSetSpec c true true s x t) ∧ (ports = bits c.block 255 192) ∧
      (1 ≤ popcount ports 64) ∧ (popcount ports 64 ≤ 4) ∧ (bits c.block 159 144 ≠ 0) ∧ (bits c.block 127 112 ≠ 1) ∧
      (bits c.block 127 112 ≤ 64) ∧
      (∀ k, k = t.fab.bank0 ∨ k = t.fab.bank1 →
       (k.entries.any fun e => (entryCands e.2).any fun y => bit ports y.2) = false) ∧
      ((t.fab.groups.any fun g => g.2.2 && (List.range 64).any fun p => bit g.2.1 p && bit ports p) = false) ∧
      (bit c.block 0 = true) ∧ (t.pair.enabled = false) ∧
      (u = ({ t with
              pair.block := c.block, pair.enabled := true, pair.waitDue := some (t.dev.tick + 1562500)
              fw.config := t.fw.config.put 0x40 (leBytes c.block 128) } : State).setPortReady 0 (bit t.ready.port 0)) ∧
      (bit c.block 2 = true)) ∧
    (∃ c s x t ports, (Reaches pairSetSpec c true true s x t) ∧ (ports = bits c.block 255 192) ∧ (1 ≤ popcount ports 64) ∧
      (popcount ports 64 ≤ 4) ∧ (bits c.block 159 144 ≠ 0) ∧ (bits c.block 127 112 ≠ 1) ∧ (bits c.block 127 112 ≤ 64) ∧
      (∀ k, k = t.fab.bank0 ∨ k = t.fab.bank1 →
       (k.entries.any fun e => (entryCands e.2).any fun y => bit ports y.2) = false) ∧
      ((t.fab.groups.any fun g => g.2.2 && (List.range 64).any fun p => bit g.2.1 p && bit ports p) = false) ∧
      (bit c.block 0 = false) ∧ (t.pair.enabled = false) ∧
      (t.pair.role ≠ .active ∨ (t.pool.extents.any fun e => e.2.state == .enabled && bit e.2.desc 8) = false)) ∧
    (∃ c s x t ports, ∃ u v, (Reaches pairSetSpec c true true s x t) ∧ (ports = bits c.block 255 192) ∧
      (1 ≤ popcount ports 64) ∧ (popcount ports 64 ≤ 4) ∧ (bits c.block 159 144 ≠ 0) ∧ (bits c.block 127 112 ≠ 1) ∧
      (bits c.block 127 112 ≤ 64) ∧
      (∀ k, k = t.fab.bank0 ∨ k = t.fab.bank1 →
       (k.entries.any fun e => (entryCands e.2).any fun y => bit ports y.2) = false) ∧
      ((t.fab.groups.any fun g => g.2.2 && (List.range 64).any fun p => bit g.2.1 p && bit ports p) = false) ∧
      (bit c.block 0 = false) ∧ (t.pair.enabled = true) ∧
      (t.pair.role ≠ .active ∨ (t.pool.extents.any fun e => e.2.state == .enabled && bit e.2.desc 8) = false) ∧
      (u = (t.pairSend .fence 0x75).2.releaseMirrors true) ∧
      (v = { u with pair := { block := c.block }, fw.config := u.fw.config.put 0x40 (leBytes c.block 128) })) :=
  ⟨⟨(op 0x4b000000000000000000000000000000 16), base, _, _, reaches_of (by decide +kernel), by decide +kernel,
    by decide +kernel, by decide +kernel, by decide +kernel, by decide +kernel, by decide +kernel, by decide +kernel⟩,
   ⟨(op 0 0), base, _, _, reaches_of (by decide +kernel)⟩,
   ⟨(op 0 8), base, _, _, reaches_of (by decide +kernel)⟩,
   ⟨(op 3 8), base, _, _, reaches_of (by decide +kernel), by decide +kernel, by decide +kernel, by decide +kernel⟩,
   ⟨(op 4 8), base, _, _, reaches_of (by decide +kernel), by decide +kernel, by decide +kernel, by decide +kernel⟩,
   ⟨(op 0 8), { base with pwr.sleep := .sl3 }, _, _, reaches_of (by decide +kernel), by decide +kernel, by decide +kernel⟩,
   ⟨(op 0 0), base, _, _, reaches_of (by decide +kernel)⟩,
   ⟨(op 0x1000000000001000000000000000000000000000000000001 128), base, _, _, _, _, reaches_of (by decide +kernel), rfl,
    by decide +kernel, by decide +kernel, by decide +kernel, by decide +kernel, by decide +kernel,
    (by rintro k (rfl | rfl) <;> decide +kernel), by decide +kernel, by decide +kernel, by decide +kernel, rfl,
    by decide +kernel⟩,
   ⟨(op 0x1000000000001000000000000000000000000000000000005 128), base, _, _, _, _, reaches_of (by decide +kernel), rfl,
    by decide +kernel, by decide +kernel, by decide +kernel, by decide +kernel, by decide +kernel,
    (by rintro k (rfl | rfl) <;> decide +kernel), by decide +kernel, by decide +kernel, by decide +kernel, rfl,
    by decide +kernel⟩,
   ⟨(op 0x1000000000001000000000000000000000000000000000000 128), base, _, _, _, reaches_of (by decide +kernel), rfl,
    by decide +kernel, by decide +kernel, by decide +kernel, by decide +kernel, by decide +kernel,
    (by rintro k (rfl | rfl) <;> decide +kernel), by decide +kernel, by decide +kernel, by decide +kernel,
    by decide +kernel⟩,
   ⟨(op 0x1000000000001000000000000000000000000000000000000 128), { base with pair.enabled := true }, _, _, _, _, _,
    reaches_of (by decide +kernel), rfl, by decide +kernel, by decide +kernel, by decide +kernel, by decide +kernel,
    by decide +kernel, (by rintro k (rfl | rfl) <;> decide +kernel), by decide +kernel, by decide +kernel,
    by decide +kernel, by decide +kernel, rfl, rfl⟩⟩

theorem wit_firmware_commands :
    (∃ c s x t n, (Reaches fwStageSpec c true true s x t) ∧ (t.fw.spareSlot = some n) ∧ (bit c.block 8 = false) ∧
      (bits c.block 20 16 = 0) ∧ (t.fw.trial = none) ∧ (t.fw.staging = none) ∧ (t.fw.activate = none) ∧
      (t.fw.cardIn = true) ∧ (t.fw.cardFile = true)) ∧
    (∃ c s x t n k, (Reaches fwStageSpec c true true s x t) ∧ (t.fw.spareSlot = some n) ∧ (bit c.block 8 = true) ∧
      (t.fw.trial = none) ∧ (t.fw.staging = none) ∧ (t.fw.activate = none) ∧
      (t.ctl.bulk.find (bits c.block 20 16) = some k) ∧ (k.session = c.session) ∧ (k.consumer = none) ∧ ∃ u,
      (u = t.putBulk (bits c.block 20 16) { k with consumer := some .stage, buffer := [] })) ∧
    (∃ c s x t, (Reaches fwActivateSpec c true true s x t) ∧ (t.fw.trial = none) ∧ (t.fw.staging = none) ∧
      (t.fw.activate = none) ∧ ∃ n, (bits c.block 1 0 = 0) ∧ (t.fw.spareSlot = some n) ∧ (t.fw.bootable n = true)) ∧
    (∃ c s x t, ∃ n, (Reaches fwActivateSpec c true true s x t) ∧ (t.fw.trial = none) ∧ (t.fw.staging = none) ∧
      (t.fw.activate = none) ∧ (t.fw.keTarget = some n) ∧ (t.keRefusal (bit c.block 8) = none) ∧
      (t.pair.enabled = false ∨ t.pair.role ≠ .active) ∧ (bits c.block 1 0 = 1)) ∧
    (∃ c s x t, ∃ n, (Reaches fwActivateSpec c true true s x t) ∧ (t.fw.trial = none) ∧ (t.fw.staging = none) ∧
      (t.fw.activate = none) ∧ (t.fw.keTarget = some n) ∧ (t.keRefusal (bit c.block 8) = none) ∧
      (t.pair.enabled = false ∨ t.pair.role ≠ .active) ∧ (bits c.block 1 0 = 2)) ∧
    (∃ c s x t, ∃ n u, (Reaches fwActivateSpec c true true s x t) ∧ (t.fw.trial = none) ∧ (t.fw.staging = none) ∧
      (t.fw.activate = none) ∧ (t.fw.keTarget = some n) ∧ (t.keRefusal (bit c.block 8) = none) ∧ (t.pair.enabled = true) ∧
      (t.pair.role = .active) ∧ (u = ({ t with fw.activate := some (bits c.block 1 0, n, x.ref) } : State).fenceUnit) ∧
      (bits c.block 1 0 = 1)) ∧
    (∃ c s x t, ∃ n u, (Reaches fwActivateSpec c true true s x t) ∧ (t.fw.trial = none) ∧ (t.fw.staging = none) ∧
      (t.fw.activate = none) ∧ (t.fw.keTarget = some n) ∧ (t.keRefusal (bit c.block 8) = none) ∧ (t.pair.enabled = true) ∧
      (t.pair.role = .active) ∧ (u = ({ t with fw.activate := some (bits c.block 1 0, n, x.ref) } : State).fenceUnit) ∧
      (bits c.block 1 0 = 2)) ∧
    (∃ c s x t, (Reaches fwActivateSpec c true true s x t) ∧ (t.fw.trial = none) ∧ (t.fw.staging = none) ∧
      (t.fw.activate = none) ∧ (bits c.block 1 0 = 3) ∧ (t.fw.mgmtSlot = t.fw.keSlot) ∧
      (t.fw.fusedSec < (t.fw.slot t.fw.mgmtSlot).secVer) ∧ ((t.fw.slot (1 - t.fw.mgmtSlot)).state ≠ .bootable)) ∧
    (∃ c s x t, ∃ n y, (Reaches fwActivateSpec c true true s x t) ∧ (t.fw.trial = none) ∧ (t.fw.staging = none) ∧
      (t.fw.activate = none) ∧ (bits c.block 1 0 = 3) ∧ (t.fw.mgmtSlot = t.fw.keSlot) ∧
      (n = (t.fw.slot t.fw.mgmtSlot).secVer) ∧ (t.fw.fusedSec < n) ∧ (y = t.fw.slot (1 - t.fw.mgmtSlot)) ∧
      (y.state = .bootable) ∧ (n ≤ y.secVer)) ∧
    (∃ c s x t, ∃ n y, (Reaches fwActivateSpec c true true s x t) ∧ (t.fw.trial = none) ∧ (t.fw.staging = none) ∧
      (t.fw.activate = none) ∧ (bits c.block 1 0 = 3) ∧ (t.fw.mgmtSlot = t.fw.keSlot) ∧
      (n = (t.fw.slot t.fw.mgmtSlot).secVer) ∧ (t.fw.fusedSec < n) ∧ (y = t.fw.slot (1 - t.fw.mgmtSlot)) ∧
      (y.state = .bootable) ∧ (y.secVer < n)) ∧
    (∃ c s x t, (Reaches fwQuerySpec c true true s x t)) ∧
    (∃ c s x t, (Reaches debugUnlockSpec c true true s x t)) :=
  ⟨⟨(op 0 8), { base with fw.cardIn := true, fw.cardFile := true }, _, _, 1, reaches_of (by decide +kernel),
    by decide +kernel, by decide +kernel, by decide +kernel, by decide +kernel, by decide +kernel, by decide +kernel,
    by decide +kernel, by decide +kernel⟩,
   ⟨(op 0x100 8), { base with ctl.bulk := [(0, { session := 1, bytes := 100, due := 5 })] }, _, _, 1,
    { session := 1, bytes := 100, due := 5 }, reaches_of (by decide +kernel), by decide +kernel, by decide +kernel,
    by decide +kernel, by decide +kernel, by decide +kernel, by decide +kernel, by decide +kernel, by decide +kernel, _,
    rfl⟩,
   ⟨(op 0 8), { base with fw.slotB := { state := .bootable } }, _, _, reaches_of (by decide +kernel), by decide +kernel,
    by decide +kernel, by decide +kernel, 1, by decide +kernel, by decide +kernel, by decide +kernel⟩,
   ⟨(op 0x101 8), { base with fw.slotB := { state := .bootable } }, _, _, 1, reaches_of (by decide +kernel),
    by decide +kernel, by decide +kernel, by decide +kernel, by decide +kernel, by decide +kernel, by decide +kernel,
    by decide +kernel⟩,
   ⟨(op 0x102 8), { base with fw.slotB := { state := .bootable } }, _, _, 1, reaches_of (by decide +kernel),
    by decide +kernel, by decide +kernel, by decide +kernel, by decide +kernel, by decide +kernel, by decide +kernel,
    by decide +kernel⟩,
   ⟨(op 0x101 8),
    { base with fw.slotB := { state := .bootable }, pair.enabled := true, pair.role := .active, pair.peerIn := true }, _,
    _, 1, _, reaches_of (by decide +kernel), by decide +kernel, by decide +kernel, by decide +kernel, by decide +kernel,
    by decide +kernel, by decide +kernel, by decide +kernel, rfl, by decide +kernel⟩,
   ⟨(op 0x102 8),
    { base with fw.slotB := { state := .bootable }, pair.enabled := true, pair.role := .active, pair.peerIn := true }, _,
    _, 1, _, reaches_of (by decide +kernel), by decide +kernel, by decide +kernel, by decide +kernel, by decide +kernel,
    by decide +kernel, by decide +kernel, by decide +kernel, rfl, by decide +kernel⟩,
   ⟨(op 3 8), { base with fw.slotA := { state := .bootable, secVer := 1 } }, _, _, reaches_of (by decide +kernel),
    by decide +kernel, by decide +kernel, by decide +kernel, by decide +kernel, by decide +kernel, by decide +kernel,
    by decide +kernel⟩,
   ⟨(op 0x3 8),
    { base with
      fw.slotA := { state := .bootable, secVer := 4 }, fw.slotB := { state := .bootable, secVer := 4 }
      fw.fusedSec := 3 }, _, _, _, _, reaches_of (by decide +kernel), by decide +kernel, by decide +kernel,
    by decide +kernel, by decide +kernel, by decide +kernel, rfl, by decide +kernel, rfl, by decide +kernel,
    by decide +kernel⟩,
   ⟨(op 0x3 8),
    { base with
      fw.slotA := { state := .bootable, secVer := 4 }, fw.slotB := { state := .bootable, secVer := 3 }
      fw.fusedSec := 3 }, _, _, _, _, reaches_of (by decide +kernel), by decide +kernel, by decide +kernel,
    by decide +kernel, by decide +kernel, by decide +kernel, rfl, by decide +kernel, rfl, by decide +kernel,
    by decide +kernel⟩,
   ⟨(op 0 0), base, _, _, reaches_of (by decide +kernel)⟩,
   ⟨(op 0 8), base, _, _, reaches_of (by decide +kernel)⟩⟩

theorem wit_record_commands :
    (∃ c s x t item len, (Reaches configSetSpec c true true s x t) ∧ (item = bits c.block 15 0) ∧
      (len = bits c.block 47 32) ∧ (itemOfDevice item = false) ∧ (len ≤ 4096) ∧ (len = 0) ∧ (itemFits item len ≠ none)) ∧
    (∃ c s x t item len, (Reaches configSetSpec c true true s x t) ∧ (item = bits c.block 15 0) ∧
      (len = bits c.block 47 32) ∧ (itemOfDevice item = false) ∧ (len ≤ 4096) ∧ (len ≠ 0) ∧
      (itemFits item len = some true)) ∧
    (∃ c s x t v, (Reaches configQuerySpec c true true s x t) ∧ (itemFits (bits c.block 15 0) 0 ≠ none) ∧
      (t.fw.config.find (bits c.block 15 0) = some v)) ∧
    (∃ c s x t, (Reaches eventReadSpec c true true s x t) ∧ (x.isOp = true) ∧ ∃ q,
      (q = (if bit c.block 8 then t.log.op.ackTo (bits c.block 63 32) else t.log.op))) ∧
    (∃ c s x t, (Reaches eventReadSpec c true true s x t) ∧ (x.isOp = false) ∧ ∃ q₀ q,
      (t.log.ten.find x.tenant = some q₀) ∧ (q = (if bit c.block 8 then q₀.ackTo (bits c.block 63 32) else q₀))) ∧
    (∃ c s x t, (Reaches statsQuerySpec c true true s x t) ∧ (x.isOp = true) ∧ (bits c.block 63 48 = 0) ∧
      (bits c.block 41 40 = 3) ∧ (bits c.block 39 24 = 0)) :=
  ⟨⟨(op 0x10 8), base, _, _, _, _, reaches_of (by decide +kernel), rfl, rfl, by decide +kernel, by decide +kernel, rfl,
    by decide +kernel⟩,
   ⟨(op 0x100000004 9), base, _, _, _, _, reaches_of (by decide +kernel), rfl, rfl, by decide +kernel, by decide +kernel,
    by decide +kernel, by decide +kernel⟩,
   ⟨(op 16 8), { base with fw.config := [(0x10, [1])] }, _, _, [1], reaches_of (by decide +kernel), by decide +kernel,
    by decide +kernel⟩,
   ⟨(op 0 8), base, _, _, reaches_of (by decide +kernel), by decide +kernel, _, rfl⟩,
   ⟨(tn 0 8), { base with log.ten := [(5, {})] }, _, _, reaches_of (by decide +kernel), by decide +kernel, {}, _,
    by decide +kernel, rfl⟩,
   ⟨(op 0x30000000000 8), base, _, _, reaches_of (by decide +kernel), by decide +kernel, by decide +kernel,
    by decide +kernel, by decide +kernel⟩⟩

theorem wit_stack_commands :
    (∃ c s x t, (Reaches memErrLogSpec c true true s x t)) ∧
    (∃ c s x t u, (Reaches mowSetSpec c true true s x t) ∧ (u = bits c.block 31 0) ∧ (u = 0 ∨ 5365 ≤ u ∧ u ≤ 901222)) ∧
    (∃ c s x t k n, ∃ u, (Reaches checkerTestSpec c true true s x t) ∧ (k = bits c.block 31 28) ∧
      (n = deviceSector k (bits c.block 59 32)) ∧ (bit t.ready.stack k = true) ∧ (bits c.block 1 0 = 0) ∧
      (bits c.block 383 96 ≠ 0) ∧ (bit c.block 4 = true → bits (bits c.block 383 96) 287 264 = 0) ∧
      (t.pool.armed.has k = false) ∧
      (t.isTest (sectorGran n) = false → t.granFree (sectorGran n) = true ∧
       (t.pool.grans.filter fun y => y.2.use == .test).length < 16) ∧
      (u = (if t.isTest (sectorGran n) then t else t.setGran (sectorGran n) { st := .allocated, use := .test }))) ∧
    (∃ c s x t k n, ∃ u, (Reaches checkerTestSpec c true true s x t) ∧ (k = bits c.block 31 28) ∧
      (n = deviceSector k (bits c.block 59 32)) ∧ (bit t.ready.stack k = true) ∧ (bits c.block 1 0 = 1) ∧
      (t.isTest (sectorGran n) = true) ∧
      (u = (t.writeSector n 0 (List.replicate 256 (BitVec.ofNat 8 (bits c.block 71 64))) false).2) ∧
      (∀ a, u.pool.armed.find k = some a → a.sector ≠ n)) ∧
    (∃ c s x t k n, ∃ u, ∃ a v, (Reaches checkerTestSpec c true true s x t) ∧ (k = bits c.block 31 28) ∧
      (n = deviceSector k (bits c.block 59 32)) ∧ (bit t.ready.stack k = true) ∧ (bits c.block 1 0 = 1) ∧
      (t.isTest (sectorGran n) = true) ∧
      (u = (t.writeSector n 0 (List.replicate 256 (BitVec.ofNat 8 (bits c.block 71 64))) false).2) ∧
      (u.pool.armed.find k = some a) ∧ (a.sector = n) ∧
      (v = u.putSector n (if a.stage then { u.secMeta n with macBad := true } else { u.secMeta n with
                            rawErr := flipErr a.mask a.burst }))) ∧
    (∃ c s x t k n, ∃ y fixed, (Reaches checkerTestSpec c true true s x t) ∧ (k = bits c.block 31 28) ∧
      (n = deviceSector k (bits c.block 59 32)) ∧ (bit t.ready.stack k = true) ∧ (bits c.block 1 0 = 2) ∧
      (t.isTest (sectorGran n) = true) ∧ (y = t.secCond n [] []) ∧
      (fixed = (decodeSector (t.secMeta n).rawErr).elim [] (·.2))) ∧
    (∃ c s x t k n, ∃ u, (Reaches checkerTestSpec c true true s x t) ∧ (k = bits c.block 31 28) ∧
      (n = deviceSector k (bits c.block 59 32)) ∧ (bit t.ready.stack k = true) ∧ (bits c.block 1 0 = 3) ∧
      (t.isTest (sectorGran n) = true) ∧ (u = (t.zeroGran (sectorGran n)).setGran (sectorGran n) { st := .free }) ∧
      (∀ a, t.pool.armed.find k = some a → sectorGran a.sector ≠ sectorGran n)) ∧
    (∃ c s x t k n, ∃ u, ∃ a, (Reaches checkerTestSpec c true true s x t) ∧ (k = bits c.block 31 28) ∧
      (n = deviceSector k (bits c.block 59 32)) ∧ (bit t.ready.stack k = true) ∧ (bits c.block 1 0 = 3) ∧
      (t.isTest (sectorGran n) = true) ∧ (u = (t.zeroGran (sectorGran n)).setGran (sectorGran n) { st := .free }) ∧
      (t.pool.armed.find k = some a) ∧ (sectorGran a.sector = sectorGran n)) ∧
    (∃ c s x t r, (Reaches rankRetireSpec c true true s x t) ∧ (r = 4 * bits c.block 3 0 + bits c.block 9 8) ∧
      (bits c.block 17 16 = 0) ∧ (bit t.ready.stack (r / 4) = true)) ∧
    (∃ c s x t r, (Reaches rankRetireSpec c true true s x t) ∧ (r = 4 * bits c.block 3 0 + bits c.block 9 8) ∧
      (bits c.block 17 16 = 1)) ∧
    (∃ c s x t k p, (Reaches stackDiagSpec c true true s x t) ∧ (k = bits c.block 11 8) ∧ (p = bits c.block 19 14) ∧
      (bits c.block 1 0 = 0) ∧ (bits c.block 127 64 = 0) ∧ (bits c.block 639 128 = 0)) ∧
    (∃ c s x t k p, (Reaches stackDiagSpec c true true s x t) ∧ (k = bits c.block 11 8) ∧ (p = bits c.block 19 14) ∧
      (bits c.block 1 0 = 2) ∧ (bits c.block 127 64 = 0) ∧ (bits c.block 639 128 = 0)) ∧
    (∃ c s x t k p, (Reaches stackDiagSpec c true true s x t) ∧ (k = bits c.block 11 8) ∧ (p = bits c.block 19 14) ∧ ∃ w,
      (bits c.block 1 0 = 1) ∧ (w = bits c.block 127 64) ∧ (bits w 63 48 ≠ 0) ∧ (bit w 0 = true) ∧ (bits w 16 8 = 0) ∧
      (bits w 2 1 = 0) ∧ (bits w 7 6 ≠ 3) ∧ (bits w 5 3 < 4) ∧ (bits w 5 3 < 2 → bits w 47 17 ≠ 0) ∧
      (bit t.ready.stack k = true) ∧ ((t.pch k p).running = none)) :=
  ⟨⟨(op 0 8), base, _, _, reaches_of (by decide +kernel)⟩,
   ⟨(op 0 8), base, _, _, _, reaches_of (by decide +kernel), rfl, by decide +kernel⟩,
   ⟨(op 0x1000000000480000000000000 48), base, _, _, _, _, _, reaches_of (by decide +kernel), rfl, rfl,
    by decide +kernel, by decide +kernel, by decide +kernel, fun h => absurd h (by decide +kernel), by decide +kernel,
    fun _ => by decide +kernel, rfl⟩,
   ⟨(op 0x480000000000001 48), { base with pool.grans := [(9216, { st := .allocated, use := .test })] }, _, _, _, _, _,
    reaches_of (by decide +kernel), rfl, rfl, by decide +kernel, by decide +kernel, by decide +kernel, rfl,
    (by intro a h; revert h; revert a; exact fun a h => absurd (Option.isSome_of_mem h) (by decide +kernel))⟩,
   ⟨(op 0x480000000000001 48),
    { base with
      pool.grans := [(9216, { st := .allocated, use := .test })]
      pool.armed := [(0, { sector := 75497472, mask := 1, burst := 0, stage := false })] }, _, _, _, _, _,
    { sector := 75497472, mask := 1, burst := 0, stage := false }, _, reaches_of (by decide +kernel), rfl, rfl,
    by decide +kernel, by decide +kernel, by decide +kernel, rfl, by decide +kernel, rfl, rfl⟩,
   ⟨(op 0x480000000000002 48), { base with pool.grans := [(9216, { st := .allocated, use := .test })] }, _, _, _, _, _,
    _, reaches_of (by decide +kernel), rfl, rfl, by decide +kernel, by decide +kernel, by decide +kernel, rfl, rfl⟩,
   ⟨(op 0x480000000000003 48), { base with pool.grans := [(9216, { st := .allocated, use := .test })] }, _, _, _, _, _,
    reaches_of (by decide +kernel), rfl, rfl, by decide +kernel, by decide +kernel, by decide +kernel, rfl,
    (by intro a h; exact absurd (Option.isSome_of_mem h) (by decide +kernel))⟩,
   ⟨(op 0x480000000000003 48),
    { base with
      pool.grans := [(9216, { st := .allocated, use := .test })]
      pool.armed := [(0, { sector := 75497473, mask := 1, burst := 0, stage := false })] }, _, _, _, _, _,
    { sector := 75497473, mask := 1, burst := 0, stage := false }, reaches_of (by decide +kernel), rfl, rfl,
    by decide +kernel, by decide +kernel, by decide +kernel, rfl, by decide +kernel, by decide +kernel⟩,
   ⟨(op 0 8), base, _, _, _, reaches_of (by decide +kernel), rfl, by decide +kernel, by decide +kernel⟩,
   ⟨(op 0x10000 8), base, _, _, _, reaches_of (by decide +kernel), rfl, by decide +kernel⟩,
   ⟨(op 0 80), base, _, _, _, _, reaches_of (by decide +kernel), rfl, rfl, by decide +kernel, by decide +kernel,
    by decide +kernel⟩,
   ⟨(op 2 80), base, _, _, _, _, reaches_of (by decide +kernel), rfl, rfl, by decide +kernel, by decide +kernel,
    by decide +kernel⟩,
   ⟨(op 0x10000000200010000000000000001 80), base, _, _, _, _, reaches_of (by decide +kernel), rfl, rfl, _,
    by decide +kernel, rfl, by decide +kernel, by decide +kernel, by decide +kernel, by decide +kernel,
    by decide +kernel, by decide +kernel, by decide +kernel, by decide +kernel, by decide +kernel⟩⟩

theorem wit_new_request_runs :
    (∃ (s : State), ∃ t, (Rests s t)) ∧
    (∃ (op : Nat), ∃ (p q : Packet), ∃ (x : Inner), ∃ (l : Link), ∃ (s a b c d : State), ∃ (r : Req),
      (Arrives op p s q a) ∧ (s.todo = []) ∧ (op < 0x40) ∧ (a.pwr.sleep = .active) ∧
      ((a.nodeRec q.src).gen = some q.ngen) ∧ (a.notReady op = false) ∧ (a.hedge op q = none) ∧ (b = a.heard q.src) ∧
      (row4 op q = none) ∧ (b.passiveAnswer op = none) ∧ (b.fab.tags.find (tagKey q.src q.tag) = none) ∧
      (b.ten.links.find q.session = some l) ∧ (b.sch.buckets.find q.session = none) ∧
      (b.sch.meters.find l.tenant = none) ∧ (q.fence = false) ∧ (b.fab.held = []) ∧
      (c = b.putTagRec (tagKey q.src q.tag) ⟨q.tgen, .executing, []⟩) ∧
      (d = (if (q.fnum + 16 - (c.fab.fences.findD q.src {}).x) % 16 < 8 then { c with
              fab.fences := c.fab.fences.put q.src { c.fab.fences.findD q.src {} with
                counts := listMod (c.fab.fences.findD q.src {}).counts ((q.fnum + 16 - (c.fab.fences.findD q.src {  }).x) % 16) (· + 1) } } else c)) ∧
      (r = { opcode := op, p := q }) ∧ (d.hubPage r = none) ∧
      (∀ n, op = 0x28 → d.atomicStation r = some n → (d.station n).sl1 = false ∧ bit d.stn.sl2 (n / 9) = false)) ∧
    (∃ (op : Nat), ∃ (p q : Packet), ∃ (x : Inner), ∃ (l : Link), ∃ (s a b c d : State), ∃ (r : Req), ∃ g f use e y z,
      (Arrives op p s q a) ∧ (s.todo = []) ∧ (op < 0x40) ∧ (a.pwr.sleep = .active) ∧
      ((a.nodeRec q.src).gen = some q.ngen) ∧ (a.notReady op = false) ∧ (a.hedge op q = none) ∧ (b = a.heard q.src) ∧
      (row4 op q = none) ∧ (b.passiveAnswer op = none) ∧ (b.fab.tags.find (tagKey q.src q.tag) = none) ∧
      (b.ten.links.find q.session = some l) ∧ (b.sch.buckets.find q.session = none) ∧
      (b.sch.meters.find l.tenant = none) ∧ (q.fence = false) ∧ (b.fab.held = []) ∧
      (c = b.putTagRec (tagKey q.src q.tag) ⟨q.tgen, .executing, []⟩) ∧
      (d = (if (q.fnum + 16 - (c.fab.fences.findD q.src {}).x) % 16 < 8 then { c with
              fab.fences := c.fab.fences.put q.src { c.fab.fences.findD q.src {} with
                counts := listMod (c.fab.fences.findD q.src {}).counts ((q.fnum + 16 - (c.fab.fences.findD q.src {  }).x) % 16) (· + 1) } } else c)) ∧
      (r = { opcode := op, p := q }) ∧ (d.hubPage r = some g) ∧ (f = granStack (pageGran g)) ∧ (d.sch.iso = []) ∧
      (d.sch.hubs.findD f [] = []) ∧
      (use = ⟨f, (d.serviceOf r).1, (d.serviceOf r).2, ((d.hubSpan r).map (·.2.2)).getD 0⟩) ∧
      (e = ⟨{ r with hub := some use }, use, d.dev.tick, d.sch.hubNext, []⟩) ∧
      (y = { d with sch.hubs := d.sch.hubs.put f [e], sch.hubNext := d.sch.hubNext + 1 }) ∧
      ((y.pickEntry (256 + f) [e.entry]).map (·.id) = some e.order) ∧
      (z = ({ y with sch.hubs := y.sch.hubs.del f } : State).leaveQueue 1 f use.sub d.dev.tick) ∧
      (∀ n, op = 0x28 → z.atomicStation e.r = some n → (z.station n).sl1 = false ∧ bit z.stn.sl2 (n / 9) = false)) :=
  ⟨⟨base, _, rests_of 5 (by decide) (by decide +kernel)⟩,
   ⟨1, (pkt (leBytes desc1 96) 0), _, {}, { node := 7, gen := 0, tenant := 5, identity := 0 }, fabric, _, _, _, _, _,
    arrives_of (by decide +kernel), by decide +kernel, by decide +kernel, by decide +kernel, by decide +kernel,
    by decide +kernel, by decide +kernel, rfl, by decide +kernel, by decide +kernel, by decide +kernel,
    by decide +kernel, by decide +kernel, by decide +kernel, by decide +kernel, by decide +kernel, rfl, rfl, rfl,
    by decide +kernel, (by rintro n ⟨⟩)⟩,
   ⟨0x10, (pkt (opnd 0x2000000) 0), _, {}, { node := 7, gen := 0, tenant := 5, identity := 0 }, zoned, _, _, _, _, _, _,
    _, _, _, _, _, arrives_of (by decide +kernel), by decide +kernel, by decide +kernel, by decide +kernel,
    by decide +kernel, by decide +kernel, by decide +kernel, rfl, by decide +kernel, by decide +kernel,
    by decide +kernel, by decide +kernel, by decide +kernel, by decide +kernel, by decide +kernel, by decide +kernel,
    rfl, rfl, rfl, get_of (by decide +kernel), rfl, by decide +kernel, by decide +kernel, rfl, rfl, rfl,
    by decide +kernel, rfl, (by rintro n ⟨⟩)⟩⟩

theorem wit_stream_packets :
    (∃ p s r u w sid v, (Runs 0x01 p (innerOf 0x01 p) s r u) ∧
      (u.openStream { tenant := (u.ten.links.find r.p.session).elim 0 (·.tenant), session := some r.p.session
                      kfp2 := u.kfp2 r.p } r.p.src none (.request r) r.p.payload = (.yes sid, w)) ∧
      (Rests (w.complete r .ok (some (streamOperand sid (w.str.epochs.findD sid 0)))) v)) ∧
    (∃ p, ∃ (s : State), ∃ r u op y v, (Runs 0x02 p (innerOf 0x02 p) s r u) ∧ (op = leNat (r.p.payload.take 8)) ∧
      (bits op 63 24 = 0) ∧ (bits op 15 14 = 0) ∧ (u.namedStream (bits op 13 0) (bits op 23 16) = some y) ∧
      (y.session = some r.p.session) ∧ (y.node = r.p.src) ∧ (y.closed = true) ∧ (y.tiles = []) ∧
      (Rests ((u.freeStream (bits op 13 0)).complete r .ok none (some (recordBytes (bits op 13 0) y))) v)) ∧
    (∃ p, ∃ (s : State), ∃ r u op y v, (Runs 0x03 p (innerOf 0x03 p) s r u) ∧ (op = leNat (r.p.payload.take 8)) ∧
      (bits op 63 24 = 0) ∧ (bits op 15 14 = 0) ∧ (u.namedStream (bits op 13 0) (bits op 23 16) = some y) ∧
      (y.session = some r.p.session) ∧ (y.node = r.p.src) ∧ (y.closed = false) ∧
      (Rests ((u.cutStream (bits op 13 0) .aborted).complete r .ok none (some [])) v)) ∧
    (∃ p, ∃ (s : State), ∃ r u h y z w a v, (Runs 0x04 p (innerOf 0x04 p) s r u) ∧
      (h = leNat (padTo (r.p.payload.take 64) 64)) ∧ (u.namedStream (thStream h) (thEpoch h) = some y) ∧
      (u.maySend y r = true) ∧ (u.acceptTile y h r.p.payload.length = (.ok z, w)) ∧ (w.acceptSequence z h = (.ok (), a)) ∧
      (Rests (a.enterTile z (thIndex h) h (some r)) v)) ∧
    (∃ p s r u op w t y l k b words bytes flags a st tile v, (Runs 0x05 p (innerOf 0x05 p) s r u) ∧
      (op = leNat (r.p.payload.take 8)) ∧ (w = bits op 11 0) ∧ (t = bits op 51 32) ∧ (bits op 63 52 = 0) ∧
      (bits op 31 12 = 0) ∧ ((u.seq.late.find? fun x => sameReq x.r r) = none) ∧ (u.seq.windows.find w = some y) ∧
      (u.asidOk (wAsid y.desc) r.p.session = true) ∧
      ((u.kfp2 r.p && u.reachesShared (wAsid y.desc) (imageSpans y.desc t)) = false) ∧ (t < wTiles y.desc) ∧
      (y.state = .opened ∨ y.state = .closed) ∧ (l = y.tiles.findD t {}) ∧ (l.phase = .closed) ∧
      (k = { ledgerReacher w t y.desc l.home with who := .request r }) ∧
      (u.readySpans k ((imageSpans y.desc t).take 1) = (.yes, b)) ∧ (b.wordsOf w t = (words, [], a)) ∧
      (a.resultOf y.desc t words = (bytes, flags)) ∧ (st = resultStatus l flags) ∧
      (tile = outTile (outHeader 0x81 st.code (wFormat y.desc) (wTileElems y.desc t) bytes.length 0 0 0 (w + t * 2 ^ 24) 0) bytes) ∧
      (Rests (((a.dropGot (.request r)).emitMarks (some r) tile (if st = .poisoned then l.marks else [])).complete r st none (some tile)) v)) :=
  ⟨⟨(pkt (leBytes desc1 96) 0), fabric, _, _, _, 0, _, runs_of (by decide +kernel), fst_of (by decide +kernel),
    rests_of 1000 (by decide) (by decide +kernel)⟩,
   ⟨(pkt (leBytes 3 8) 0), { fabric with str.streams := [(3, { strm2 with closed := true })] }, _, _, _,
    { strm2 with closed := true }, _, runs_of (by decide +kernel), rfl, by decide +kernel, by decide +kernel,
    by decide +kernel, by decide +kernel, by decide +kernel, by decide +kernel, by decide +kernel,
    rests_of 1000 (by decide) (by decide +kernel)⟩,
   ⟨(pkt (leBytes 3 8) 0), { fabric with str.streams := [(3, strm2)] }, _, _, _, strm2, _, runs_of (by decide +kernel),
    rfl, by decide +kernel, by decide +kernel, by decide +kernel, by decide +kernel, by decide +kernel,
    by decide +kernel, rests_of 1000 (by decide) (by decide +kernel)⟩,
   ⟨(pkt (leBytes 0x80000003013 320) 0), { fabric with str.streams := [(3, strm2)] }, _, _, _, strm2, _, _, _, _,
    runs_of (by decide +kernel), rfl, by decide +kernel, by decide +kernel, okGet_of strm2 (by decide +kernel),
    unit_of (by decide +kernel), rests_of 1000 (by decide) (by decide +kernel)⟩,
   ⟨(pkt (leBytes 4 8) 0),
    { fabric with
      seq.windows := [(4,
                       { window1 with
                         state := .closed, tiles := [(0, { phase := .closed, words := List.replicate 8 0 })] })] }, _, _,
    _, _, _, { window1 with state := .closed, tiles := [(0, { phase := .closed, words := List.replicate 8 0 })] }, _, _,
    _, _, _, _, _, _, _, _, runs_of (by decide +kernel), rfl, rfl, rfl, by decide +kernel, by decide +kernel,
    by decide +kernel, by decide +kernel, by decide +kernel, by decide +kernel, by decide +kernel, by decide +kernel,
    rfl, by decide +kernel, rfl, fst_of (by decide +kernel), mid_of (by decide +kernel), (Prod.eta _).symm, rfl, rfl,
    rests_of 1000 (by decide) (by decide +kernel)⟩⟩

theorem wit_page_packets :
    (∃ p s r g h op a dp v, (Runs 0x10 p (innerOf 0x10 p) s r g) ∧ (op = operandOf r.p) ∧ (a = bits op 35 24) ∧
      (r.p.payload.length = 16) ∧ (r.p.address % 65536 = 0) ∧ (bits op 47 36 = 0) ∧ (bits op 23 1 = 0) ∧
      (bit op 0 = false) ∧ (vhandleOf op = 0) ∧ (g.asidOk a r.p.session = true) ∧ (g.locate a r.p.address = .pop dp) ∧
      (h = g.lookup (144 + r.p.port / 4) a r.p.address (fun _ => none)) ∧
      ((h.awaitStack (.request r) (pageSectors dp)).1 = false) ∧ (Rests (h.fetchPage r 65536 0 dp none) v)) ∧
    (∃ p s r g h op a dp v, (Runs 0x11 p (innerOf 0x11 p) s r g) ∧ (op = operandOf r.p) ∧ (a = bits op 35 24) ∧
      (r.p.payload.length = 65552) ∧ (r.p.address % 65536 = 0) ∧ (bits op 47 36 = 0) ∧ (bits op 23 1 = 0) ∧
      (bit op 0 = false) ∧ (vhandleOf op = 0) ∧ (g.asidOk a r.p.session = true) ∧ (g.locate a r.p.address = .pop dp) ∧
      (h = g.lookup (144 + r.p.port / 4) a r.p.address (fun _ => none)) ∧
      ((h.awaitStack (.request r) (pageSectors dp)).1 = false) ∧ (Rests (h.storePage r 65536 0 dp) v)) ∧
    (∃ p s r g h op a e page y v, ∃ k, (Runs 0x12 p (innerOf 0x12 p) s r g) ∧ (op = operandOf r.p) ∧ (a = bits op 35 24) ∧
      (r.p.payload.length = 16) ∧ (r.p.address % 65536 = 0) ∧ (bits op 47 36 = 0) ∧ (bits op 23 1 = 0) ∧
      (bit op 0 = false) ∧ (vhandleOf op = 0) ∧ (g.asidOk a r.p.session = true) ∧ (g.locate a r.p.address = .ext e page) ∧
      (g.pool.extents.find e = some y) ∧
      (h = g.lookup (144 + r.p.port / 4) a r.p.address (fun x => if x = e then (g.readVersion e y 0 r.p.src).getD none else none)) ∧
      ((h.kfp2 r.p && h.sharedExt e) = false) ∧ (extVersioned y = false) ∧ (extSealed y = false) ∧
      (extCheckout y = true) ∧ ((h.awaitStack (.request r) (pageSectors (h.framePage e page none))).1 = false) ∧
      (h.pool.checkouts.find (e * 2 ^ 25 + page) = none) ∧ (h.pool.checkouts.length < 262144) ∧
      (k = h.putCheckout (e * 2 ^ 25 + page) { node := r.p.src, gen := r.p.ngen, opening := some r.p.tag }) ∧
      (Rests ((({ k with pool.past := k.pool.past.del (e * 2 ^ 25 + page) } : State).sendMeta (.checkout e page r.p.src r.p.ngen false)).invalidate (.page e page) (.checkout e page r)) v)) ∧
    (∃ p s r g h op a e page y k v, (Runs 0x13 p (innerOf 0x13 p) s r g) ∧ (op = operandOf r.p) ∧ (a = bits op 35 24) ∧
      (r.p.payload.length = 16) ∧ (r.p.address % 65536 = 0) ∧ (bits op 47 36 = 0) ∧ (bits op 23 1 = 0) ∧
      (bit op 0 = true) ∧ (vhandleOf op = 0) ∧ (g.asidOk a r.p.session = true) ∧ (g.locate a r.p.address = .ext e page) ∧
      (g.pool.extents.find e = some y) ∧
      (h = g.lookup (144 + r.p.port / 4) a r.p.address (fun x => if x = e then (g.readVersion e y 0 r.p.src).getD none else none)) ∧
      ((h.kfp2 r.p && h.sharedExt e) = false) ∧ (extVersioned y = false) ∧ (extCheckout y = true) ∧
      ((h.awaitStack (.request r) (pageSectors (h.framePage e page none))).1 = false) ∧
      (h.pool.checkouts.find (e * 2 ^ 25 + page) = some k) ∧ (k.node = r.p.src) ∧ (k.gen = r.p.ngen) ∧
      (Rests ((h.endCheckout (e * 2 ^ 25 + page) false).complete r .ok none (some (cookieOf r.p.payload))) v)) :=
  ⟨⟨(pkt (opnd 0x2000000) 0), zoned, _, _, _, _, _, 326400, _, runs_of (by decide +kernel), rfl, rfl, by decide +kernel,
    by decide +kernel, by decide +kernel, by decide +kernel, by decide +kernel, by decide +kernel, by decide +kernel,
    by decide +kernel, rfl, by decide +kernel, rests_of 1000 (by decide) (by decide +kernel)⟩,
   ⟨pagePkt, zoned, pageReq, _, pageAt, _, 2, 326400, page_rests.choose, runs_of (by decide +kernel), rfl,
    by decide +kernel, page_length, by decide +kernel, by decide +kernel, by decide +kernel, by decide +kernel,
    by decide +kernel, by decide +kernel, by decide +kernel, rfl, by decide +kernel, page_rests.choose_spec⟩,
   ⟨(pkt (opnd 0x1000000) 0), { fabric with pool.extents := [(1, { ext1 with desc := ext1.desc + 1024 })] }, _, _, _, _,
    _, 1, 0, { ext1 with desc := ext1.desc + 1024 }, _, _, runs_of (by decide +kernel), rfl, rfl, by decide +kernel,
    by decide +kernel, by decide +kernel, by decide +kernel, by decide +kernel, by decide +kernel, by decide +kernel,
    by decide +kernel, by decide +kernel, rfl, by decide +kernel, by decide +kernel, by decide +kernel,
    by decide +kernel, by decide +kernel, by decide +kernel, by decide +kernel, rfl,
    rests_of 1000 (by decide) (by decide +kernel)⟩,
   ⟨(pkt (opnd 0x1000001) 0),
    { fabric with
      pool.extents := [(1, { ext1 with desc := ext1.desc + 1024 })]
      pool.checkouts := [(2 ^ 25, { node := 7, gen := 0 })] }, _, _, _, _, _, 1, 0,
    { ext1 with desc := ext1.desc + 1024 }, { node := 7, gen := 0 }, _, runs_of (by decide +kernel), rfl, rfl,
    by decide +kernel, by decide +kernel, by decide +kernel, by decide +kernel, by decide +kernel, by decide +kernel,
    by decide +kernel, by decide +kernel, by decide +kernel, rfl, by decide +kernel, by decide +kernel,
    by decide +kernel, by decide +kernel, by decide +kernel, by decide +kernel, by decide +kernel,
    rests_of 1000 (by decide) (by decide +kernel)⟩⟩

theorem wit_version_packets :
    (∃ p s r g h op a e page y n w v, (Runs 0x18 p (innerOf 0x18 p) s r g) ∧ (op = operandOf r.p) ∧ (a = bits op 35 24) ∧
      (r.p.payload.length = 16) ∧ (r.p.address % 65536 = 0) ∧ (bits op 47 36 = 0) ∧ (bits op 23 0 = 0) ∧
      (vhandleOf op = 0) ∧ (g.asidOk a r.p.session = true) ∧ (g.locate a r.p.address = .ext e page) ∧
      (h = g.lookup (144 + r.p.port / 4) a r.p.address (fun _ => none)) ∧ (h.pool.extents.find e = some y) ∧
      ((h.kfp2 r.p && h.sharedExt e) = false) ∧ (extVersioned y = true) ∧
      (h.newHandle { extent := e, node := r.p.src, version := y.current, st := .reader } = some (n, w)) ∧
      (Rests (w.complete r .ok (some (versionWord n y.current)) (some (cookieOf r.p.payload ++ leBytes (versionWord n y.current) 8))) v)) ∧
    (∃ p s r g h op a e page y n k w v, (Runs 0x19 p (innerOf 0x19 p) s r g) ∧ (op = operandOf r.p) ∧
      (a = bits op 35 24) ∧ (r.p.payload.length = 16) ∧ (r.p.address % 65536 = 0) ∧ (bits op 47 36 = 0) ∧
      (bits op 23 0 = 0) ∧ (vhandleOf op = 0) ∧ (g.asidOk a r.p.session = true) ∧ (g.locate a r.p.address = .ext e page) ∧
      (h = g.lookup (144 + r.p.port / 4) a r.p.address (fun _ => none)) ∧ (h.pool.extents.find e = some y) ∧
      ((h.kfp2 r.p && h.sharedExt e) = false) ∧ (extVersioned y = true) ∧ (y.draft = none) ∧
      ((h.liveVersions e).length < 8) ∧ (k = (y.current + 1) % 2 ^ 32) ∧
      (h.newHandle { extent := e, node := r.p.src, version := k, st := .draft } = some (n, w)) ∧
      (Rests ((w.putExtent e { y with
                 versions := y.versions.put k { frames := ((y.versions.find y.current).map (·.frames)).getD [] }
                 draft := some ⟨n, y.current, k, none, []⟩ }).complete r .ok (some (versionWord n k)) (some (cookieOf r.p.payload ++ leBytes (versionWord n k) 8))) v)) ∧
    (∃ p s r h op a vh k y v, (Runs 0x1A p (innerOf 0x1A p) s r h) ∧ (op = operandOf r.p) ∧ (a = bits op 35 24) ∧
      (r.p.payload.length = 16) ∧ (r.p.address = 0) ∧ (bits op 47 36 = 0) ∧ (bits op 23 0 = 0) ∧ (vh = vhandleOf op) ∧
      (h.asidOk a r.p.session = true) ∧ (h.pool.handles.find vh = some k) ∧ (k.st = .reader) ∧ (k.node = r.p.src) ∧
      (h.pool.extents.find k.extent = some y) ∧ (y.state ≠ .revoking) ∧
      ((h.pool.maps.any fun m => m.asid == a && m.extent == k.extent && !m.removing) = true) ∧
      (Rests (((h.delHandle vh).retireVersions k.extent).complete r .ok none (some (cookieOf r.p.payload))) v)) ∧
    (∃ p s r h op a vh k y d v, ∃ w, (Runs 0x1B p (innerOf 0x1B p) s r h) ∧ (op = operandOf r.p) ∧ (a = bits op 35 24) ∧
      (r.p.payload.length = 16) ∧ (r.p.address = 0) ∧ (bits op 47 36 = 0) ∧ (bits op 23 0 = 0) ∧ (vh = vhandleOf op) ∧
      (h.asidOk a r.p.session = true) ∧ (h.pool.handles.find vh = some k) ∧ (k.st = .draft) ∧
      (h.pool.extents.find k.extent = some y) ∧ (y.state ≠ .revoking) ∧
      ((h.pool.maps.any fun m => m.asid == a && m.extent == k.extent && !m.removing) = true) ∧ (y.draft = some d) ∧
      (d.commit = none) ∧
      (w = h.putExtent k.extent { y with draft := some { d with commit := some r, owed := h.storesOpen vh } }) ∧
      (Rests (if w.draftBusy k.extent then w else w.commitDraft k.extent) v)) ∧
    (∃ p s r h op a vh k y d v, (Runs 0x1C p (innerOf 0x1C p) s r h) ∧ (op = operandOf r.p) ∧ (a = bits op 35 24) ∧
      (r.p.payload.length = 16) ∧ (r.p.address = 0) ∧ (bits op 47 36 = 0) ∧ (bits op 23 0 = 0) ∧ (vh = vhandleOf op) ∧
      (h.asidOk a r.p.session = true) ∧ (h.pool.handles.find vh = some k) ∧ (k.st = .draft) ∧
      (h.pool.extents.find k.extent = some y) ∧ (y.state ≠ .revoking) ∧
      ((h.pool.maps.any fun m => m.asid == a && m.extent == k.extent && !m.removing) = true) ∧ (y.draft = some d) ∧
      (d.commit = none) ∧
      (Rests (((((h.putHandle vh { k with st := .discarded }).putExtent k.extent { y with draft := none }).sendMeta (.extent k.extent y.tenant y.desc 2 y.current)).retireVersions k.extent).complete r .ok none (some (cookieOf r.p.payload))) v)) :=
  ⟨⟨(pkt (opnd 0x1000000) 0),
    { fabric with pool.extents := [(1, { ext1 with desc := ext1.desc + 128, versions := [(0, {})] })] }, _, _, _, _, _,
    1, 0, { ext1 with desc := ext1.desc + 128, versions := [(0, {})] }, _, _, _, runs_of (by decide +kernel), rfl, rfl,
    by decide +kernel, by decide +kernel, by decide +kernel, by decide +kernel, by decide +kernel, by decide +kernel,
    by decide +kernel, rfl, by decide +kernel, by decide +kernel, by decide +kernel, some_of (by decide +kernel),
    rests_of 1000 (by decide) (by decide +kernel)⟩,
   ⟨(pkt (opnd 0x1000000) 0),
    { fabric with pool.extents := [(1, { ext1 with desc := ext1.desc + 128, versions := [(0, {})] })] }, _, _, _, _, _,
    1, 0, { ext1 with desc := ext1.desc + 128, versions := [(0, {})] }, _, _, _, _, runs_of (by decide +kernel), rfl,
    rfl, by decide +kernel, by decide +kernel, by decide +kernel, by decide +kernel, by decide +kernel,
    by decide +kernel, by decide +kernel, rfl, by decide +kernel, by decide +kernel, by decide +kernel,
    by decide +kernel, by decide +kernel, rfl, some_of (by decide +kernel), rests_of 1000 (by decide) (by decide +kernel)⟩,
   ⟨(pkt (opnd 0x3000001000000) 0),
    { fabric with
      pool.extents := [(1, { ext1 with desc := ext1.desc + 128, versions := [(0, {})] })]
      pool.handles := [(3, { extent := 1, node := 7, version := 0, st := .reader })] }, _, _, _, _, _,
    { extent := 1, node := 7, version := 0, st := .reader },
    { ext1 with desc := ext1.desc + 128, versions := [(0, {})] }, _, runs_of (by decide +kernel), rfl, rfl,
    by decide +kernel, by decide +kernel, by decide +kernel, by decide +kernel, rfl, by decide +kernel,
    by decide +kernel, by decide +kernel, by decide +kernel, by decide +kernel, by decide +kernel, by decide +kernel,
    rests_of 1000 (by decide) (by decide +kernel)⟩,
   ⟨(pkt (opnd 0x3000001000000) 0),
    { fabric with
      pool.extents := [(1,
                        { ext1 with
                          desc := ext1.desc + 128, versions := [(0, {}), (1, {})]
                          draft := some { handle := 3, base := 0, number := 1 } })]
      pool.handles := [(3, { extent := 1, node := 7, version := 1, st := .draft })] }, _, _, _, _, _,
    { extent := 1, node := 7, version := 1, st := .draft },
    { ext1 with
      desc := ext1.desc + 128, versions := [(0, {}), (1, {})], draft := some { handle := 3, base := 0, number := 1 } },
    { handle := 3, base := 0, number := 1 }, _, _, runs_of (by decide +kernel), rfl, rfl, by decide +kernel,
    by decide +kernel, by decide +kernel, by decide +kernel, rfl, by decide +kernel, by decide +kernel,
    by decide +kernel, by decide +kernel, by decide +kernel, by decide +kernel, by decide +kernel, by decide +kernel,
    rfl, rests_of 1000 (by decide) (by decide +kernel)⟩,
   ⟨(pkt (opnd 0x3000001000000) 0),
    { fabric with
      pool.extents := [(1,
                        { ext1 with
                          desc := ext1.desc + 128, versions := [(0, {}), (1, {})]
                          draft := some { handle := 3, base := 0, number := 1 } })]
      pool.handles := [(3, { extent := 1, node := 7, version := 1, st := .draft })] }, _, _, _, _, _,
    { extent := 1, node := 7, version := 1, st := .draft },
    { ext1 with
      desc := ext1.desc + 128, versions := [(0, {}), (1, {})], draft := some { handle := 3, base := 0, number := 1 } },
    { handle := 3, base := 0, number := 1 }, _, runs_of (by decide +kernel), rfl, rfl, by decide +kernel,
    by decide +kernel, by decide +kernel, by decide +kernel, rfl, by decide +kernel, by decide +kernel,
    by decide +kernel, by decide +kernel, by decide +kernel, by decide +kernel, by decide +kernel, by decide +kernel,
    rests_of 1000 (by decide) (by decide +kernel)⟩⟩

theorem wit_line_packets :
    (∃ p s r u h d, ∃ w, ∃ v, (LineRuns 0x20 p s r u h) ∧ (u.com.dir.find h = none) ∧
      (u.mirrorWants [u.lineSector h] = []) ∧ ((u.putTrans h { job := .request r }).newEntry h = some d) ∧
      (w = u.putTrans h { job := .request r }) ∧ (Rests ((w.serveLine h r none).lineNext h) v)) ∧
    (∃ p s r u h d, ∃ w, ∃ v, (LineRuns 0x21 p s r u h) ∧ (u.com.dir.find h = none) ∧
      (u.mirrorWants [u.lineSector h] = []) ∧ ((u.putTrans h { job := .request r }).newEntry h = some d) ∧
      (w = u.putTrans h { job := .request r }) ∧ (Rests ((w.serveLine h r none).lineNext h) v)) ∧
    (∃ p s r u h d, ∃ w, ∃ v, (LineRuns 0x22 p s r u h) ∧ (u.com.dir.find h = none) ∧
      (u.mirrorWants [u.lineSector h] = []) ∧ ((u.putTrans h { job := .request r }).newEntry h = some d) ∧
      (w = u.putTrans h { job := .request r }) ∧ (Rests ((w.serveLine h r none).lineNext h) v)) ∧
    (∃ p s r u h d, ∃ w, ∃ x, ∃ v, (LineRuns 0x23 p s r u h) ∧ (u.com.dir.find h = some d) ∧ (d.st = .exclusive) ∧
      (d.sharers = .precise []) ∧ (d.owner = r.p.src) ∧ (d.gen = r.p.ngen) ∧ (u.com.lost = []) ∧
      (u.mirrorWants [u.lineSector h] = []) ∧ (w = (u.putTrans h { job := .request r }).putDir h d) ∧
      (x = (w.writeSector (w.lineSector h) 0 (padTo (slice r.p.payload 16 256) 256) false).2) ∧
      (Rests ((((x.delDir h).lineCleaned h).afterWrite h 0 (padTo (slice r.p.payload 16 256) 256) r .ok none (cookieOf r.p.payload)).lineNext h) v)) ∧
    (∃ (s a : State), ∃ (h : Nat), ∃ (r : Req), ∃ (e : DirEntry), ∃ (m : Common), ∃ (st : Status), ∃ (d : List Byte),
      ∃ (t : State), (s.com.dir.find h = none) ∧ (s.newEntry h = some e) ∧ (s.com.commons.find (lineCommon h) = some m) ∧
      (a = { s with com.order := s.com.order + 1 }) ∧ (r.opcode = 0x20 ∧ bit m.desc 32 = true) ∧
      ((a.putDir h { e with sharers := .precise [r.p.src] }).readSector ((a.putDir h { e with
                                                                            sharers := .precise [r.p.src] }).lineSector h) = (st,
                                                                                                                              d,
                                                                                                                              t))) ∧
    (∃ (s a : State), ∃ (h : Nat), ∃ (r : Req), ∃ (e : DirEntry), ∃ (m : Common), ∃ (st : Status), ∃ (d : List Byte),
      ∃ (t : State), (s.com.dir.find h = none) ∧ (s.newEntry h = some e) ∧ (s.com.commons.find (lineCommon h) = some m) ∧
      (a = { s with com.order := s.com.order + 1 }) ∧
      (r.opcode = 0x20 ∧ bit m.desc 32 = false ∨ r.opcode = 0x21 ∨ r.opcode = 0x22) ∧ ∃ x,
      (x = a.putDir h { e with
         st := .exclusive, owner := r.p.src, gen := (s.nodeRec r.p.src).gen.getD r.p.ngen, sharers := .precise [] }) ∧
      (x.readSector (x.lineSector h) = (st, d, t)) ∧ (t.mirrorsTo (t.lineExt h) = false) ∧
      (t.isMirrored (t.lineExt h) = false)) :=
  ⟨⟨(pkt (opnd 0x1000000) 256), shared, _, _, (2 * 2 ^ 28 + 1), _, _, _, line_of (by decide +kernel), by decide +kernel,
    by decide +kernel, get_of (by decide +kernel), rfl, rests_of 1000 (by decide) (by decide +kernel)⟩,
   ⟨(pkt (opnd 0x1000000) 256), shared, _, _, (2 * 2 ^ 28 + 1), _, _, _, line_of (by decide +kernel), by decide +kernel,
    by decide +kernel, get_of (by decide +kernel), rfl, rests_of 1000 (by decide) (by decide +kernel)⟩,
   ⟨(pkt (opnd 0x1000000) 256), shared, _, _, (2 * 2 ^ 28 + 1), _, _, _, line_of (by decide +kernel), by decide +kernel,
    by decide +kernel, get_of (by decide +kernel), rfl, rests_of 1000 (by decide) (by decide +kernel)⟩,
   ⟨(pkt (opnd 0x1000000 ++ List.replicate 256 1) 256),
    { shared with
      com.dir := [(2 * 2 ^ 28 + 1, { st := .exclusive, owner := 7, tenant := 5, set := 0, way := 0, order := 0 })] }, _,
    _, (2 * 2 ^ 28 + 1), { st := .exclusive, owner := 7, tenant := 5, set := 0, way := 0, order := 0 }, _, _, _,
    line_of (by decide +kernel), by decide +kernel, by decide +kernel, by decide +kernel, by decide +kernel,
    by decide +kernel, by decide +kernel, by decide +kernel, rfl, rfl, rests_of 1000 (by decide) (by decide +kernel)⟩,
   ⟨{ fabric with com.commons := [(2, { com1 with desc := com1.desc + 2 ^ 32 })] }, _, (2 * 2 ^ 28 + 1),
    { opcode := 0x20, p := pkt (opnd 0x1000000) 256 }, _, { com1 with desc := com1.desc + 2 ^ 32 }, _, _, _,
    by decide +kernel, get_of (by decide +kernel), by decide +kernel, rfl, by decide +kernel, rfl⟩,
   ⟨shared, _, (2 * 2 ^ 28 + 1), { opcode := 0x22, p := pkt (opnd 0x1000000) 256 }, _, com1, _, _, _, by decide +kernel,
    get_of (by decide +kernel), by decide +kernel, rfl, by decide +kernel, _, rfl, rfl, by decide +kernel,
    by decide +kernel⟩⟩

theorem wit_atomic_packets :
    (∃ p, ∃ (s : State), ∃ r op h n old t w x v, (AtomicRuns p s r op h n old t) ∧ (w = (if bit op 8 then 64 else 32)) ∧
      (x = bits op 191 128) ∧ (op % 256 = 1) ∧ (Rests (atomicEnd t r op h n (some ((old + x) % 2 ^ w)) .ok old) v)) ∧
    (∃ p, ∃ (s : State), ∃ r op h n old t w x v, (AtomicRuns p s r op h n old t) ∧ (w = (if bit op 8 then 64 else 32)) ∧
      (x = bits op 191 128) ∧ (op % 256 = 3) ∧
      (Rests (atomicEnd t r op h n (some (if old = bits op 255 192 then x else old)) .ok old) v)) ∧
    (∃ p, ∃ (s : State), ∃ r op h n old t w x v, (AtomicRuns p s r op h n old t) ∧ (w = (if bit op 8 then 64 else 32)) ∧
      (x = bits op 191 128) ∧ (op % 256 = 4) ∧ (Rests (atomicEnd t r op h n (some x) .ok old) v)) ∧
    (∃ p, ∃ (s : State), ∃ r op h n old t w x v, (AtomicRuns p s r op h n old t) ∧ (w = (if bit op 8 then 64 else 32)) ∧
      (x = bits op 191 128) ∧ (op % 256 = 5) ∧
      (Rests (atomicEnd t r op h n (some (if signed x w < signed old w then x else old)) .ok old) v)) ∧
    (∃ p, ∃ (s : State), ∃ r op h n old t w x v, (AtomicRuns p s r op h n old t) ∧ (w = (if bit op 8 then 64 else 32)) ∧
      (x = bits op 191 128) ∧ (op % 256 = 6) ∧
      (Rests (atomicEnd t r op h n (some (if signed old w < signed x w then x else old)) .ok old) v)) ∧
    (∃ p, ∃ (s : State), ∃ r op h n old t w x v, (AtomicRuns p s r op h n old t) ∧ (w = (if bit op 8 then 64 else 32)) ∧
      (x = bits op 191 128) ∧ (op % 256 = 7) ∧ (Rests (atomicEnd t r op h n (some (min old x)) .ok old) v)) ∧
    (∃ p, ∃ (s : State), ∃ r op h n old t w x v, (AtomicRuns p s r op h n old t) ∧ (w = (if bit op 8 then 64 else 32)) ∧
      (x = bits op 191 128) ∧ (op % 256 = 8) ∧ (Rests (atomicEnd t r op h n (some (max old x)) .ok old) v)) ∧
    (∃ p, ∃ (s : State), ∃ r op h n old t f q sum v, (AtomicRuns p s r op h n old t) ∧ (op % 256 = 2) ∧
      (f = t.fmt (bits op 52 48)) ∧ (q = ledgerQ (f.value (bits op 191 128 % 2 ^ f.width)) (signed (bits op 63 56) 8)) ∧
      (q.2 = false) ∧ (sum = signed old 64 + q.1) ∧ (-(2 ^ 63) ≤ sum) ∧ (sum < 2 ^ 63) ∧
      (Rests (atomicEnd t r op h n (some (unsigned sum 64)) .ok old) v)) :=
  ⟨⟨(pkt (atom 1 9 0) 256), shared, _, _, _, _, _, _, _, _, _, atomic_of (by decide +kernel), rfl, rfl,
    by decide +kernel, rests_of 1000 (by decide) (by decide +kernel)⟩,
   ⟨(pkt (atom 3 9 0) 256), shared, _, _, _, _, _, _, _, _, _, atomic_of (by decide +kernel), rfl, rfl,
    by decide +kernel, rests_of 1000 (by decide) (by decide +kernel)⟩,
   ⟨(pkt (atom 4 9 0) 256), shared, _, _, _, _, _, _, _, _, _, atomic_of (by decide +kernel), rfl, rfl,
    by decide +kernel, rests_of 1000 (by decide) (by decide +kernel)⟩,
   ⟨(pkt (atom 5 9 0) 256), shared, _, _, _, _, _, _, _, _, _, atomic_of (by decide +kernel), rfl, rfl,
    by decide +kernel, rests_of 1000 (by decide) (by decide +kernel)⟩,
   ⟨(pkt (atom 6 9 0) 256), shared, _, _, _, _, _, _, _, _, _, atomic_of (by decide +kernel), rfl, rfl,
    by decide +kernel, rests_of 1000 (by decide) (by decide +kernel)⟩,
   ⟨(pkt (atom 7 9 0) 256), shared, _, _, _, _, _, _, _, _, _, atomic_of (by decide +kernel), rfl, rfl,
    by decide +kernel, rests_of 1000 (by decide) (by decide +kernel)⟩,
   ⟨(pkt (atom 8 9 0) 256), shared, _, _, _, _, _, _, _, _, _, atomic_of (by decide +kernel), rfl, rfl,
    by decide +kernel, rests_of 1000 (by decide) (by decide +kernel)⟩,
   ⟨(pkt (atom 0x102 0x3F800000 0) 256), shared, _, _, _, _, _, _, _, _, _, _, atomic_of (by decide +kernel),
    by decide +kernel, rfl, rfl, by decide +kernel, rfl, by decide +kernel, by decide +kernel,
    rests_of 1000 (by decide) (by decide +kernel)⟩⟩

theorem wit_barrier_packets :
    (∃ p, ∃ (s : State), ∃ r op h n old t v, (AtomicRuns p s r op h n old t) ∧ (op % 256 = 16) ∧
      (bits old 15 0 < bits old 31 16) ∧ ∃ w,
      (w = (if bits old 15 0 + 1 = bits old 31 16 then (bits old 63 32 + 1) % 2 ^ 32 * 2 ^ 32 + bits old 31 16 * 2 ^ 16 else old + 1)) ∧
      (Rests (atomicEnd t r op h n (some w) .ok w) v)) ∧
    (∃ p, ∃ (s : State), ∃ r op h n old t v, (AtomicRuns p s r op h n old t) ∧ (op % 256 = 32) ∧ (bit old 0 = false) ∧
      ∃ w,
      (w = r.p.src * 2 ^ 48 + r.p.ngen * 2 ^ 44 + (t.nodeRec r.p.src).loss % 256 * 2 ^ 36 + (bits old 31 1 + 1) % 2 ^ 31 * 2 + 1) ∧
      (Rests (atomicEnd t r op h n (some w) .ok w) v)) ∧
    (∃ p, ∃ (s : State), ∃ r op h n old t v, (AtomicRuns p s r op h n old t) ∧ (op % 256 = 33) ∧ (bit old 0 = true) ∧
      (bits old 63 48 = r.p.src) ∧ ((t.nodeRec r.p.src).gen = some (bits old 47 44)) ∧
      ((t.nodeRec r.p.src).loss % 256 = bits old 43 36) ∧
      (Rests (atomicEnd t r op h n (some (bits old 31 1 * 2)) .ok (bits old 31 1 * 2)) v)) :=
  ⟨⟨(pkt (atom 0x110 0 0) 256), { shared with pool.wmap := [323200], pool.mem := [(21181235458, 2)] }, _, _, _, _, _, _,
    _, atomic_of (by decide +kernel), by decide +kernel, by decide +kernel, _, rfl,
    rests_of 1000 (by decide) (by decide +kernel)⟩,
   ⟨(pkt (atom 0x120 0 0) 256), shared, _, _, _, _, _, _, _, atomic_of (by decide +kernel), by decide +kernel,
    by decide +kernel, _, rfl, rests_of 1000 (by decide) (by decide +kernel)⟩,
   ⟨(pkt (atom 0x121 0 0) 256), { shared with pool.wmap := [323200], pool.mem := [(21181235456, 1), (21181235462, 7)] },
    _, _, _, _, _, _, _, atomic_of (by decide +kernel), by decide +kernel, by decide +kernel, by decide +kernel,
    by decide +kernel, by decide +kernel, rests_of 1000 (by decide) (by decide +kernel)⟩⟩

theorem wit_answer_packets :
    (∃ p, ∃ (s : State), ∃ q a b i, (Arrives 0x40 p s q a) ∧ (a.isLease q = false) ∧
      (b = (if q.synthetic then a else a.heard q.src)) ∧ (b.answered q = some i) ∧ (q.status ≠ Status.linkLost.code) ∧
      (∀ h n, i.what ≠ .snoop h n)) ∧
    (∃ p, ∃ (s : State), ∃ q a i sent, (Arrives 0x40 p s q a) ∧ (a.answered q = some i) ∧
      (i.what = .renew sent false false) ∧ (bits (leNat (q.payload.take 16)) 63 48 = pairId a) ∧ (q.status = 0) ∧ ∃ b,
      (b = (a.heard q.src).delIssued q.tag)) ∧
    (∃ p, ∃ (s : State), ∃ q a b h n t y, (Arrives 0x41 p s q a) ∧ (b = a.heard q.src) ∧
      (b.fab.issued.find q.tag = some ⟨q.tgen, q.src, .snoop h n⟩) ∧ (q.ngen = b.fab.ngen) ∧
      (b.com.trans.find h = some t) ∧ (t.snoops.find? (fun x => x.tag == q.tag) = some y) ∧ (y.session = q.session)) ∧
    (∃ p, ∃ (s : State), ∃ q a b h n t y, (Arrives 0x42 p s q a) ∧ (b = a.heard q.src) ∧
      (b.fab.issued.find q.tag = some ⟨q.tgen, q.src, .snoop h n⟩) ∧ (q.ngen = b.fab.ngen) ∧
      (b.com.trans.find h = some t) ∧ (t.snoops.find? (fun x => x.tag == q.tag) = some y) ∧ (y.session = q.session)) ∧
    (∃ p, ∃ (s : State), ∃ q a b h n t y, (Arrives 0x43 p s q a) ∧ (b = a.heard q.src) ∧
      (b.fab.issued.find q.tag = some ⟨q.tgen, q.src, .snoop h n⟩) ∧ (q.ngen = b.fab.ngen) ∧
      (b.com.trans.find h = some t) ∧ (t.snoops.find? (fun x => x.tag == q.tag) = some y) ∧ (y.session = q.session)) ∧
    (∃ p o s r u q id v, ∃ a, ∃ b, (Runs 0x50 p { link := some o } s r u) ∧ (q = LinkOpen.ofBytes r.p.payload) ∧
      (u.accepts q.chain = true) ∧ (q.sigOk = true) ∧ ((u.tenantOf q.tenant).any (fun t => t.sess == .opened) = true) ∧
      (u.ten.admissions.contains (q.tenant, q.identity) = true) ∧
      ((u.ten.links.find? fun l => (l.2.node == r.p.src && l.2.tenant == q.tenant) && l.2.gen == q.gen) = none) ∧
      (cyclicFree (fun i => u.ten.links.has i || u.ten.barred.has i) u.ten.lastLink 1 65535 = some id) ∧
      (a = (u.ten.links.keysWhere fun l => (l.node == r.p.src && l.tenant == q.tenant) && decide (1 ≤ (q.gen + 16 - l.gen) % 16) && decide ((q.gen + 16 - l.gen) % 16 ≤ 7)).foldl State.endLink u) ∧
      (b = (a.nodeGen r.p.src q.gen).putLink id { node := r.p.src, gen := q.gen, tenant := q.tenant
                                                  identity := q.identity }) ∧
      (Rests ((({ b with ten.lastLink := some id } : State).newBucket id q.tenant).complete r .ok none (some (linkAnswer r id))) v)) ∧
    (∃ p, ∃ (s : State), ∃ r u v, (Runs 0x51 p (innerOf 0x51 p) s r u) ∧
      (Rests ((u.endLink r.p.session).complete r .ok none (some [])) v)) :=
  ⟨⟨(pkt [] 0), { fabric with fab.issued := [(3, { tgen := 0, dst := 7, what := .beat })] }, _, _, _,
    { tgen := 0, dst := 7, what := .beat }, arrives_of (by decide +kernel), by decide +kernel, rfl, by decide +kernel,
    by decide +kernel, by rintro _ _ ⟨⟩⟩,
   ⟨(pkt (leBytes 0 16) 0), { fabric with fab.issued := [(3, { tgen := 0, dst := 7, what := .renew 4 false false })] },
    _, _, { tgen := 0, dst := 7, what := .renew 4 false false }, 4, arrives_of (by decide +kernel), by decide +kernel,
    by decide +kernel, by decide +kernel, by decide +kernel, _, rfl⟩,
   ⟨(pkt [] 0),
    { shared with
      fab.issued := [(3, { tgen := 0, dst := 7, what := .snoop 5 7 })]
      com.trans := [(5,
                     { job := .sweep
                       snoops := [{ node := 7, gen := 0, session := 9, tag := 3, kind := .inv, due := 9 }] })] }, _, _,
    _, 5, 7, { job := .sweep, snoops := [{ node := 7, gen := 0, session := 9, tag := 3, kind := .inv, due := 9 }] },
    { node := 7, gen := 0, session := 9, tag := 3, kind := .inv, due := 9 }, arrives_of (by decide +kernel), rfl,
    by decide +kernel, by decide +kernel, by decide +kernel, by decide +kernel, by decide +kernel⟩,
   ⟨(pkt [] 0),
    { shared with
      fab.issued := [(3, { tgen := 0, dst := 7, what := .snoop 5 7 })]
      com.trans := [(5,
                     { job := .sweep
                       snoops := [{ node := 7, gen := 0, session := 9, tag := 3, kind := .inv, due := 9 }] })] }, _, _,
    _, 5, 7, { job := .sweep, snoops := [{ node := 7, gen := 0, session := 9, tag := 3, kind := .inv, due := 9 }] },
    { node := 7, gen := 0, session := 9, tag := 3, kind := .inv, due := 9 }, arrives_of (by decide +kernel), rfl,
    by decide +kernel, by decide +kernel, by decide +kernel, by decide +kernel, by decide +kernel⟩,
   ⟨(pkt [] 0),
    { shared with
      fab.issued := [(3, { tgen := 0, dst := 7, what := .snoop 5 7 })]
      com.trans := [(5,
                     { job := .sweep
                       snoops := [{ node := 7, gen := 0, session := 9, tag := 3, kind := .inv, due := 9 }] })] }, _, _,
    _, 5, 7, { job := .sweep, snoops := [{ node := 7, gen := 0, session := 9, tag := 3, kind := .inv, due := 9 }] },
    { node := 7, gen := 0, session := 9, tag := 3, kind := .inv, due := 9 }, arrives_of (by decide +kernel), rfl,
    by decide +kernel, by decide +kernel, by decide +kernel, by decide +kernel, by decide +kernel⟩,
   ⟨(pkt [] 0), { tenant := 5, gen := 0, identity := 0, chain := .olizon, sigOk := true },
    { fabric with ten.links := [], ten.admissions := [(5, 0)] }, _, _, _, 1, _, _, _, runs_of (by decide +kernel), rfl,
    by decide +kernel, by decide +kernel, by decide +kernel, by decide +kernel, by decide +kernel, by decide +kernel,
    rfl, rfl, rests_of 1000 (by decide) (by decide +kernel)⟩,
   ⟨(pkt [] 0), fabric, _, _, _, runs_of (by decide +kernel), rests_of 1000 (by decide) (by decide +kernel)⟩⟩

theorem wit_transit_packets :
    (∃ p, ∃ (s : State), ∃ q a mask, (p.port < 64) ∧ (Live s) ∧ ((s.port p.port).st = .up) ∧
      (s.arrive 0x60 p = (.mcast, q, a)) ∧ (a.fab.groups.find (q.dst % 4096) = some (mask, true))) ∧
    (∃ op p, ∃ (s : State), ∃ q a n, (p.port < 64) ∧ (Live s) ∧ ((s.port p.port).st = .up) ∧
      (s.arrive op p = (.transit, q, a)) ∧ (a.routeBank q.epoch = q.epoch) ∧
      (a.eligible ((a.bank q.epoch).entries.findD q.dst 0) (channelOf op) (some q.port) q.escape false ≠ []) ∧
      (a.pickPort (a.eligible ((a.bank q.epoch).entries.findD q.dst 0) (channelOf op) (some q.port) q.escape false) (if q.escape then 5 else channelOf op) (isRequest op) = some n)) :=
  ⟨⟨{ pkt [] 0 with mcast := true, dst := 5 }, { fabric with fab.groups := [(5, (1, true))] }, _, _, 1,
    by decide +kernel, live_of (by decide +kernel), by decide +kernel, head_of (by decide +kernel), by decide +kernel⟩,
   ⟨1, { pkt (leBytes desc1 96) 0 with dst := 8 },
    { fabric with
      fab.bank0.entries := [(7, 0x10000040), (8, 0x10000041)]
      ports := [(0, { st := .up }), (1, { st := .up, credits := List.replicate 6 2047 })] }, _, _, 1, by decide +kernel,
    live_of (by decide +kernel), by decide +kernel, head_of (by decide +kernel), by decide +kernel, by decide +kernel,
    by decide +kernel⟩⟩

theorem wit_pair_packets :
    (∃ op i p s q a term msg, ∃ (r : Req), (PairRow op p term i msg) ∧ (Arrives op p s q a) ∧
      (∀ g, (a.nodeRec q.src).gen = some g → (q.ngen + 16 - g) % 16 < 8) ∧ (headerBad op q = false) ∧ (q.hdrVer = 3) ∧
      (q.src = a.peerNode) ∧ (a.isPairPort q.port = true) ∧ (r = { opcode := op, p := q }) ∧ (term < a.pair.term)) ∧
    (∃ op i p s q a term msg, ∃ (r : Req), (PairRow op p term i msg) ∧ (Arrives op p s q a) ∧
      (∀ g, (a.nodeRec q.src).gen = some g → (q.ngen + 16 - g) % 16 < 8) ∧ (headerBad op q = false) ∧ (q.hdrVer = 3) ∧
      (q.src = a.peerNode) ∧ (a.isPairPort q.port = true) ∧ (r = { opcode := op, p := q }) ∧ (a.pair.term ≤ term) ∧
      (a.pair.role = .fenced)) ∧
    (∃ op i p s q a term msg, ∃ (r : Req), ∃ b, ∃ m, (PairRow op p term i msg) ∧ (Arrives op p s q a) ∧
      (∀ g, (a.nodeRec q.src).gen = some g → (q.ngen + 16 - g) % 16 < 8) ∧ (headerBad op q = false) ∧ (q.hdrVer = 3) ∧
      (q.src = a.peerNode) ∧ (a.isPairPort q.port = true) ∧ (r = { opcode := op, p := q }) ∧ (a.pair.term ≤ term) ∧
      (a.pair.role ≠ .fenced) ∧
      (b = { a with
         pair.lastRx := a.dev.tick, pair.term := if a.copies || a.pair.role == PairRole.out then term else a.pair.term }) ∧
      (msg = .mirror m) ∧ (b.copies = true) ∧ (b.pair.noAck = false)) ∧
    (∃ op i p s q a term msg, ∃ (r : Req), ∃ b, ∃ m, (PairRow op p term i msg) ∧ (Arrives op p s q a) ∧
      (∀ g, (a.nodeRec q.src).gen = some g → (q.ngen + 16 - g) % 16 < 8) ∧ (headerBad op q = false) ∧ (q.hdrVer = 3) ∧
      (q.src = a.peerNode) ∧ (a.isPairPort q.port = true) ∧ (r = { opcode := op, p := q }) ∧ (a.pair.term ≤ term) ∧
      (a.pair.role ≠ .fenced) ∧
      (b = { a with
         pair.lastRx := a.dev.tick, pair.term := if a.copies || a.pair.role == PairRole.out then term else a.pair.term }) ∧
      (msg = .mirror m) ∧ (b.copies = true) ∧ (b.pair.noAck = true)) ∧
    (∃ op i p s q a term msg, ∃ (r : Req), ∃ b, ∃ m, (PairRow op p term i msg) ∧ (Arrives op p s q a) ∧
      (∀ g, (a.nodeRec q.src).gen = some g → (q.ngen + 16 - g) % 16 < 8) ∧ (headerBad op q = false) ∧ (q.hdrVer = 3) ∧
      (q.src = a.peerNode) ∧ (a.isPairPort q.port = true) ∧ (r = { opcode := op, p := q }) ∧ (a.pair.term ≤ term) ∧
      (a.pair.role ≠ .fenced) ∧
      (b = { a with
         pair.lastRx := a.dev.tick, pair.term := if a.copies || a.pair.role == PairRole.out then term else a.pair.term }) ∧
      (msg = .mirror m) ∧ (b.copies = false)) ∧
    (∃ op i p s q a term msg, ∃ (r : Req), ∃ b, ∃ x, ∃ w, (PairRow op p term i msg) ∧ (Arrives op p s q a) ∧
      (∀ g, (a.nodeRec q.src).gen = some g → (q.ngen + 16 - g) % 16 < 8) ∧ (headerBad op q = false) ∧ (q.hdrVer = 3) ∧
      (q.src = a.peerNode) ∧ (a.isPairPort q.port = true) ∧ (r = { opcode := op, p := q }) ∧ (a.pair.term ≤ term) ∧
      (a.pair.role ≠ .fenced) ∧
      (b = { a with
         pair.lastRx := a.dev.tick, pair.term := if a.copies || a.pair.role == PairRole.out then term else a.pair.term }) ∧
      (msg = .metaRec x) ∧ (b.copies = true) ∧ (b.applyRecord x = (true, w))) ∧
    (∃ op i p s q a term msg, ∃ (r : Req), ∃ b, ∃ x, ∃ w, (PairRow op p term i msg) ∧ (Arrives op p s q a) ∧
      (∀ g, (a.nodeRec q.src).gen = some g → (q.ngen + 16 - g) % 16 < 8) ∧ (headerBad op q = false) ∧ (q.hdrVer = 3) ∧
      (q.src = a.peerNode) ∧ (a.isPairPort q.port = true) ∧ (r = { opcode := op, p := q }) ∧ (a.pair.term ≤ term) ∧
      (a.pair.role ≠ .fenced) ∧
      (b = { a with
         pair.lastRx := a.dev.tick, pair.term := if a.copies || a.pair.role == PairRole.out then term else a.pair.term }) ∧
      (msg = .metaRec x) ∧ (b.copies = true) ∧ (b.applyRecord x = (false, w))) ∧
    (∃ op i p s q a term msg, ∃ (r : Req), ∃ b, ∃ x, (PairRow op p term i msg) ∧ (Arrives op p s q a) ∧
      (∀ g, (a.nodeRec q.src).gen = some g → (q.ngen + 16 - g) % 16 < 8) ∧ (headerBad op q = false) ∧ (q.hdrVer = 3) ∧
      (q.src = a.peerNode) ∧ (a.isPairPort q.port = true) ∧ (r = { opcode := op, p := q }) ∧ (a.pair.term ≤ term) ∧
      (a.pair.role ≠ .fenced) ∧
      (b = { a with
         pair.lastRx := a.dev.tick, pair.term := if a.copies || a.pair.role == PairRole.out then term else a.pair.term }) ∧
      (msg = .metaRec x) ∧ (b.copies = false)) ∧
    (∃ op i p s q a term msg, ∃ (r : Req), ∃ b, ∃ x, (PairRow op p term i msg) ∧ (Arrives op p s q a) ∧
      (∀ g, (a.nodeRec q.src).gen = some g → (q.ngen + 16 - g) % 16 < 8) ∧ (headerBad op q = false) ∧ (q.hdrVer = 3) ∧
      (q.src = a.peerNode) ∧ (a.isPairPort q.port = true) ∧ (r = { opcode := op, p := q }) ∧ (a.pair.term ≤ term) ∧
      (a.pair.role ≠ .fenced) ∧
      (b = { a with
         pair.lastRx := a.dev.tick, pair.term := if a.copies || a.pair.role == PairRole.out then term else a.pair.term }) ∧
      (msg = .beat x)) ∧
    (∃ op i p s q a term msg, ∃ (r : Req), ∃ b, ∃ e off, ∃ y st d w, (PairRow op p term i msg) ∧ (Arrives op p s q a) ∧
      (∀ g, (a.nodeRec q.src).gen = some g → (q.ngen + 16 - g) % 16 < 8) ∧ (headerBad op q = false) ∧ (q.hdrVer = 3) ∧
      (q.src = a.peerNode) ∧ (a.isPairPort q.port = true) ∧ (r = { opcode := op, p := q }) ∧ (a.pair.term ≤ term) ∧
      (a.pair.role ≠ .fenced) ∧
      (b = { a with
         pair.lastRx := a.dev.tick, pair.term := if a.copies || a.pair.role == PairRole.out then term else a.pair.term }) ∧
      (msg = .fetch e off) ∧ (b.pair.role = .standby) ∧ (b.pool.extents.find e = some y) ∧
      (off < y.grans.length * 2097152) ∧
      (b.readSector (b.framePage e (off / 65536) none * 256 + off % 65536 / 256) = (st, d, w))) ∧
    (∃ op i p s q a term msg, ∃ (r : Req), ∃ b, ∃ e off, (PairRow op p term i msg) ∧ (Arrives op p s q a) ∧
      (∀ g, (a.nodeRec q.src).gen = some g → (q.ngen + 16 - g) % 16 < 8) ∧ (headerBad op q = false) ∧ (q.hdrVer = 3) ∧
      (q.src = a.peerNode) ∧ (a.isPairPort q.port = true) ∧ (r = { opcode := op, p := q }) ∧ (a.pair.term ≤ term) ∧
      (a.pair.role ≠ .fenced) ∧
      (b = { a with
         pair.lastRx := a.dev.tick, pair.term := if a.copies || a.pair.role == PairRole.out then term else a.pair.term }) ∧
      (msg = .fetch e off) ∧ (b.pair.role ≠ .standby)) ∧
    (∃ op i p s q a term msg, ∃ (r : Req), ∃ b, ∃ e off d, (PairRow op p term i msg) ∧ (Arrives op p s q a) ∧
      (∀ g, (a.nodeRec q.src).gen = some g → (q.ngen + 16 - g) % 16 < 8) ∧ (headerBad op q = false) ∧ (q.hdrVer = 3) ∧
      (q.src = a.peerNode) ∧ (a.isPairPort q.port = true) ∧ (r = { opcode := op, p := q }) ∧ (a.pair.term ≤ term) ∧
      (a.pair.role ≠ .fenced) ∧
      (b = { a with
         pair.lastRx := a.dev.tick, pair.term := if a.copies || a.pair.role == PairRole.out then term else a.pair.term }) ∧
      (msg = .copy e off d) ∧ (b.copies = true)) ∧
    (∃ op i p s q a term msg, ∃ (r : Req), ∃ b, ∃ e off d, (PairRow op p term i msg) ∧ (Arrives op p s q a) ∧
      (∀ g, (a.nodeRec q.src).gen = some g → (q.ngen + 16 - g) % 16 < 8) ∧ (headerBad op q = false) ∧ (q.hdrVer = 3) ∧
      (q.src = a.peerNode) ∧ (a.isPairPort q.port = true) ∧ (r = { opcode := op, p := q }) ∧ (a.pair.term ≤ term) ∧
      (a.pair.role ≠ .fenced) ∧
      (b = { a with
         pair.lastRx := a.dev.tick, pair.term := if a.copies || a.pair.role == PairRole.out then term else a.pair.term }) ∧
      (msg = .copy e off d) ∧ (b.copies = false)) ∧
    (∃ op i p s q a term msg, ∃ (r : Req), ∃ b, (PairRow op p term i msg) ∧ (Arrives op p s q a) ∧
      (∀ g, (a.nodeRec q.src).gen = some g → (q.ngen + 16 - g) % 16 < 8) ∧ (headerBad op q = false) ∧ (q.hdrVer = 3) ∧
      (q.src = a.peerNode) ∧ (a.isPairPort q.port = true) ∧ (r = { opcode := op, p := q }) ∧ (a.pair.term ≤ term) ∧
      (a.pair.role ≠ .fenced) ∧
      (b = { a with
         pair.lastRx := a.dev.tick, pair.term := if a.copies || a.pair.role == PairRole.out then term else a.pair.term }) ∧
      (msg = .fence) ∧ (b.pair.role = .standby)) ∧
    (∃ op i p s q a term msg, ∃ (r : Req), ∃ b, (PairRow op p term i msg) ∧ (Arrives op p s q a) ∧
      (∀ g, (a.nodeRec q.src).gen = some g → (q.ngen + 16 - g) % 16 < 8) ∧ (headerBad op q = false) ∧ (q.hdrVer = 3) ∧
      (q.src = a.peerNode) ∧ (a.isPairPort q.port = true) ∧ (r = { opcode := op, p := q }) ∧ (a.pair.term ≤ term) ∧
      (a.pair.role ≠ .fenced) ∧
      (b = { a with
         pair.lastRx := a.dev.tick, pair.term := if a.copies || a.pair.role == PairRole.out then term else a.pair.term }) ∧
      (msg = .fence) ∧ (b.pair.role ≠ .standby)) :=
  ⟨⟨0x75, (.pairFence (pkt [] 0) 1), (pkt [] 0),
    { fabric with
      pair.block := 0x1000700000000000000000000000000000000000000000000, pair.enabled := true, pair.role := .standby
      pair.term := 2 }, _, _, 1, .fence, _, .inr (.inr (.inr (.inr (.inr ⟨rfl, rfl, rfl⟩)))),
    arrives_of (by decide +kernel), (by rintro g h; cases h; decide +kernel), by decide +kernel, by decide +kernel,
    by decide +kernel, by decide +kernel, rfl, by decide +kernel⟩,
   ⟨0x75, (.pairFence (pkt [] 0) 1), (pkt [] 0),
    { fabric with
      pair.block := 0x1000700000000000000000000000000000000000000000000, pair.enabled := true, pair.role := .fenced }, _,
    _, 1, .fence, _, .inr (.inr (.inr (.inr (.inr ⟨rfl, rfl, rfl⟩)))), arrives_of (by decide +kernel),
    (by rintro g h; cases h; decide +kernel), by decide +kernel, by decide +kernel, by decide +kernel, by decide +kernel,
    rfl, by decide +kernel, by decide +kernel⟩,
   ⟨0x70, (.pairMirror (pkt [] 0) { term := 1, extent := 1, writes := [], caches := [] }), (pkt [] 0),
    { fabric with
      pair.block := 0x1000700000000000000000000000000000000000000000000, pair.enabled := true, pair.role := .standby },
    _, _, 1, (.mirror { term := 1, extent := 1, writes := [], caches := [] }), _, _,
    { term := 1, extent := 1, writes := [], caches := [] }, .inl ⟨_, rfl, rfl, rfl, rfl⟩, arrives_of (by decide +kernel),
    (by rintro g h; cases h; decide +kernel), by decide +kernel, by decide +kernel, by decide +kernel, by decide +kernel,
    rfl, by decide +kernel, by decide +kernel, rfl, by decide +kernel, by decide +kernel, by decide +kernel⟩,
   ⟨0x70, (.pairMirror (pkt [] 0) { term := 1, extent := 1, writes := [], caches := [] }), (pkt [] 0),
    { fabric with
      pair.block := 0x1000700000000000000000000000000000000000000000000, pair.enabled := true, pair.role := .standby
      pair.noAck := true }, _, _, 1, (.mirror { term := 1, extent := 1, writes := [], caches := [] }), _, _,
    { term := 1, extent := 1, writes := [], caches := [] }, .inl ⟨_, rfl, rfl, rfl, rfl⟩, arrives_of (by decide +kernel),
    (by rintro g h; cases h; decide +kernel), by decide +kernel, by decide +kernel, by decide +kernel, by decide +kernel,
    rfl, by decide +kernel, by decide +kernel, rfl, by decide +kernel, by decide +kernel, by decide +kernel⟩,
   ⟨0x70, (.pairMirror (pkt [] 0) { term := 1, extent := 1, writes := [], caches := [] }), (pkt [] 0),
    { fabric with
      pair.block := 0x1000700000000000000000000000000000000000000000000, pair.enabled := true, pair.role := .active }, _,
    _, 1, (.mirror { term := 1, extent := 1, writes := [], caches := [] }), _, _,
    { term := 1, extent := 1, writes := [], caches := [] }, .inl ⟨_, rfl, rfl, rfl, rfl⟩, arrives_of (by decide +kernel),
    (by rintro g h; cases h; decide +kernel), by decide +kernel, by decide +kernel, by decide +kernel, by decide +kernel,
    rfl, by decide +kernel, by decide +kernel, rfl, by decide +kernel, by decide +kernel⟩,
   ⟨0x71, (.pairMeta (pkt [] 0) 1 (.noTenant 8)), (pkt [] 0),
    { fabric with
      pair.block := 0x1000700000000000000000000000000000000000000000000, pair.enabled := true, pair.role := .standby },
    _, _, 1, (.metaRec (.noTenant 8)), _, _, (.noTenant 8), _, .inr (.inl ⟨_, rfl, rfl, rfl⟩),
    arrives_of (by decide +kernel), (by rintro g h; cases h; decide +kernel), by decide +kernel, by decide +kernel,
    by decide +kernel, by decide +kernel, rfl, by decide +kernel, by decide +kernel, rfl, by decide +kernel,
    by decide +kernel, fst_of (by decide +kernel)⟩,
   ⟨0x71, (.pairMeta (pkt [] 0) 1 (.extent 2 5 0xFFFFF0000000000000103 2 0)), (pkt [] 0),
    { fabric with
      pair.block := 0x1000700000000000000000000000000000000000000000000, pair.enabled := true, pair.role := .standby },
    _, _, 1, (.metaRec (.extent 2 5 0xFFFFF0000000000000103 2 0)), _, _, (.extent 2 5 0xFFFFF0000000000000103 2 0), _,
    .inr (.inl ⟨_, rfl, rfl, rfl⟩), arrives_of (by decide +kernel), (by rintro g h; cases h; decide +kernel),
    by decide +kernel, by decide +kernel, by decide +kernel, by decide +kernel, rfl, by decide +kernel,
    by decide +kernel, rfl, by decide +kernel, by decide +kernel, fst_of (by decide +kernel)⟩,
   ⟨0x71, (.pairMeta (pkt [] 0) 1 (.noTenant 8)), (pkt [] 0),
    { fabric with
      pair.block := 0x1000700000000000000000000000000000000000000000000, pair.enabled := true, pair.role := .active }, _,
    _, 1, (.metaRec (.noTenant 8)), _, _, (.noTenant 8), .inr (.inl ⟨_, rfl, rfl, rfl⟩), arrives_of (by decide +kernel),
    (by rintro g h; cases h; decide +kernel), by decide +kernel, by decide +kernel, by decide +kernel, by decide +kernel,
    rfl, by decide +kernel, by decide +kernel, rfl, by decide +kernel, by decide +kernel⟩,
   ⟨0x72,
    (.pairBeat (pkt [] 0) 1 { identity := 0, pairId := 0, secVer := 0, active := true, syncing := false
                              peerIn := true, tenants := [] }), (pkt [] 0),
    { fabric with
      pair.block := 0x1000700000000000000000000000000000000000000000000, pair.enabled := true, pair.role := .standby },
    _, _, 1,
    (.beat { identity := 0, pairId := 0, secVer := 0, active := true, syncing := false, peerIn := true, tenants := [] }),
    _, _, { identity := 0, pairId := 0, secVer := 0, active := true, syncing := false, peerIn := true, tenants := [] },
    .inr (.inr (.inl ⟨_, rfl, rfl, rfl⟩)), arrives_of (by decide +kernel), (by rintro g h; cases h; decide +kernel),
    by decide +kernel, by decide +kernel, by decide +kernel, by decide +kernel, rfl, by decide +kernel,
    by decide +kernel, rfl, by decide +kernel⟩,
   ⟨0x73, (.pairFetch (pkt [] 0) 1 1 256), (pkt [] 0),
    { fabric with
      pair.block := 0x1000700000000000000000000000000000000000000000000, pair.enabled := true, pair.role := .standby },
    _, _, 1, (.fetch 1 256), _, _, 1, 256, ext1, _, _, _, .inr (.inr (.inr (.inl ⟨_, _, rfl, rfl, rfl⟩))),
    arrives_of (by decide +kernel), (by rintro g h; cases h; decide +kernel), by decide +kernel, by decide +kernel,
    by decide +kernel, by decide +kernel, rfl, by decide +kernel, by decide +kernel, rfl, by decide +kernel,
    by decide +kernel, by decide +kernel, by decide +kernel, rfl⟩,
   ⟨0x73, (.pairFetch (pkt [] 0) 1 1 256), (pkt [] 0),
    { fabric with
      pair.block := 0x1000700000000000000000000000000000000000000000000, pair.enabled := true, pair.role := .syncing },
    _, _, 1, (.fetch 1 256), _, _, 1, 256, .inr (.inr (.inr (.inl ⟨_, _, rfl, rfl, rfl⟩))),
    arrives_of (by decide +kernel), (by rintro g h; cases h; decide +kernel), by decide +kernel, by decide +kernel,
    by decide +kernel, by decide +kernel, rfl, by decide +kernel, by decide +kernel, rfl, by decide +kernel,
    by decide +kernel⟩,
   ⟨0x74, (.pairCopy (pkt [] 0) 1 1 256 []), (pkt [] 0),
    { fabric with
      pair.block := 0x1000700000000000000000000000000000000000000000000, pair.enabled := true, pair.role := .syncing },
    _, _, 1, (.copy 1 256 []), _, _, 1, 256, [], .inr (.inr (.inr (.inr (.inl ⟨_, _, _, rfl, rfl, rfl⟩)))),
    arrives_of (by decide +kernel), (by rintro g h; cases h; decide +kernel), by decide +kernel, by decide +kernel,
    by decide +kernel, by decide +kernel, rfl, by decide +kernel, by decide +kernel, rfl, by decide +kernel,
    by decide +kernel⟩,
   ⟨0x74, (.pairCopy (pkt [] 0) 1 1 256 []), (pkt [] 0),
    { fabric with
      pair.block := 0x1000700000000000000000000000000000000000000000000, pair.enabled := true, pair.role := .active }, _,
    _, 1, (.copy 1 256 []), _, _, 1, 256, [], .inr (.inr (.inr (.inr (.inl ⟨_, _, _, rfl, rfl, rfl⟩)))),
    arrives_of (by decide +kernel), (by rintro g h; cases h; decide +kernel), by decide +kernel, by decide +kernel,
    by decide +kernel, by decide +kernel, rfl, by decide +kernel, by decide +kernel, rfl, by decide +kernel,
    by decide +kernel⟩,
   ⟨0x75, (.pairFence (pkt [] 0) 1), (pkt [] 0),
    { fabric with
      pair.block := 0x1000700000000000000000000000000000000000000000000, pair.enabled := true, pair.role := .standby },
    _, _, 1, .fence, _, _, .inr (.inr (.inr (.inr (.inr ⟨rfl, rfl, rfl⟩)))), arrives_of (by decide +kernel),
    (by rintro g h; cases h; decide +kernel), by decide +kernel, by decide +kernel, by decide +kernel, by decide +kernel,
    rfl, by decide +kernel, by decide +kernel, rfl, by decide +kernel, by decide +kernel⟩,
   ⟨0x75, (.pairFence (pkt [] 0) 1), (pkt [] 0),
    { fabric with
      pair.block := 0x1000700000000000000000000000000000000000000000000, pair.enabled := true, pair.role := .active }, _,
    _, 1, .fence, _, _, .inr (.inr (.inr (.inr (.inr ⟨rfl, rfl, rfl⟩)))), arrives_of (by decide +kernel),
    (by rintro g h; cases h; decide +kernel), by decide +kernel, by decide +kernel, by decide +kernel, by decide +kernel,
    rfl, by decide +kernel, by decide +kernel, rfl, by decide +kernel, by decide +kernel⟩⟩

theorem wit_pair_timers :
    (∃ s, (Live s) ∧ (s.pair.renewDue ≤ s.dev.tick) ∧ (s.pair.role = .active)) ∧
    (∃ s, (Live s) ∧ (s.pair.renewDue ≤ s.dev.tick) ∧ (s.pair.role = .takeover)) ∧
    (∃ s, (Live s) ∧ (s.dev.tick < s.pair.renewDue ∨ s.pair.role ≠ .active ∧ s.pair.role ≠ .takeover)) ∧
    (∃ s, ∃ u, (Live s) ∧ (s.pair.role = .active) ∧ (s.pair.leaseOk + s.leaseTicks ≤ s.dev.tick) ∧
      (u = ({ s with
              pair.role := .fenced, pair.peerIn := false, pair.syncing := false, pair.claiming := false
              pair.retryDue := none } : State).releaseMirrors false) ∧ (u.ready.pairLink = true)) ∧
    (∃ s, ∃ u, (Live s) ∧ (s.pair.role = .active) ∧ (s.pair.leaseOk + s.leaseTicks ≤ s.dev.tick) ∧
      (u = ({ s with
              pair.role := .fenced, pair.peerIn := false, pair.syncing := false, pair.claiming := false
              pair.retryDue := none } : State).releaseMirrors false) ∧ (u.ready.pairLink = false)) ∧
    (∃ s, (Live s) ∧ (s.dev.tick < s.pair.leaseOk + s.leaseTicks ∨ s.pair.role ≠ .active)) ∧
    (∃ (s : State), (Live s) ∧ (s.pair.lastRx + 1024 ≤ s.dev.tick) ∧ (s.pair.role = .standby) ∧
      (s.pair.claiming = false) ∧ (s.pair.retryDue = none)) ∧
    (∃ s, (Live s) ∧ (s.pair.lastRx + 1024 ≤ s.dev.tick) ∧ (s.pair.role = .standby) ∧
      (s.pair.claiming = true ∨ s.pair.retryDue ≠ none)) ∧
    (∃ (s : State), (Live s) ∧ (s.pair.lastRx + 1024 ≤ s.dev.tick) ∧ (s.pair.role = .syncing)) ∧
    (∃ s, (Live s) ∧ (s.dev.tick < s.pair.lastRx + 1024 ∨ s.pair.role ≠ .standby ∧ s.pair.role ≠ .syncing)) ∧
    (∃ (s : State), (Live s) ∧ (s.pair.role = .active) ∧ (s.pair.enabled = true) ∧ (s.pair.lastTx + 64 ≤ s.dev.tick)) ∧
    (∃ s, (Live s) ∧ (s.pair.role ≠ .active ∨ s.pair.enabled = false ∨ s.dev.tick < s.pair.lastTx + 64)) ∧
    (∃ s tag, ∃ due w, (Live s) ∧ (s.pair.mirror.find tag = some (due, w)) ∧ (s.pair.role = .active) ∧
      (due ≤ s.dev.tick) ∧ (∀ x ∈ s.fab.issued, ∀ n b, x.2.what ≠ .renew n true b)) ∧
    (∃ s tag, ∃ due w, (Live s) ∧ (s.pair.mirror.find tag = some (due, w)) ∧
      (s.pair.role ≠ .active ∨ s.dev.tick < due ∨ (∃ x ∈ s.fab.issued, ∃ n b, x.2.what = .renew n true b))) ∧
    (∃ s tag, (Live s) ∧ (s.pair.mirror.find tag = none)) ∧
    (∃ (s : State), ∃ d, (Live s) ∧ (s.pair.role = .unpaired) ∧ (s.pair.enabled = true) ∧ (s.pair.waitDue = some d) ∧
      (d ≤ s.dev.tick)) ∧
    (∃ s, (Live s) ∧ (s.pair.role ≠ .unpaired ∨ s.pair.enabled = false ∨ (∀ d, s.pair.waitDue = some d → s.dev.tick < d))) ∧
    (∃ (s : State), (Live s) ∧ (s.pair.role = .active) ∧ (s.pair.syncing = true) ∧ (s.nextCopy = none) ∧
      (∀ x ∈ s.fab.issued, (∀ e o, x.2.what ≠ .copy e o) ∧ x.2.what ≠ .metaRec ∧ ∀ n b, x.2.what ≠ .renew n b true)) ∧
    (∃ s, (Live s) ∧ (s.pair.role ≠ .active ∨ s.pair.syncing = false ∨ s.nextCopy ≠ none)) ∧
    (∃ (s : State), ∃ d, (Live s) ∧ (s.pair.role = .standby ∨ s.pair.role = .unpaired ∧ s.pair.enabled = true) ∧
      (s.pair.retryDue = some d) ∧ (d ≤ s.dev.tick)) ∧
    (∃ s, (Live s) ∧ (∀ d, s.pair.retryDue = some d → s.dev.tick < d)) :=
  ⟨⟨{ fabric with dev.tick := 1000000000000, pair.role := .active }, live_of (by decide +kernel), by decide +kernel,
    by decide +kernel⟩,
   ⟨{ fabric with dev.tick := 1000000000000, pair.role := .takeover }, live_of (by decide +kernel), by decide +kernel,
    by decide +kernel⟩,
   ⟨{ fabric with pair.role := .standby }, live_of (by decide +kernel), by decide +kernel⟩,
   ⟨{ fabric with dev.tick := 1000000000000, pair.role := .active, ready.pairLink := true }, _,
    live_of (by decide +kernel), by decide +kernel, by decide +kernel, rfl, by decide +kernel⟩,
   ⟨{ fabric with dev.tick := 1000000000000, pair.role := .active }, _, live_of (by decide +kernel), by decide +kernel,
    by decide +kernel, rfl, by decide +kernel⟩,
   ⟨{ fabric with pair.role := .takeover }, live_of (by decide +kernel), by decide +kernel⟩,
   ⟨{ fabric with dev.tick := 1000000000000, pair.role := .standby }, live_of (by decide +kernel), by decide +kernel,
    by decide +kernel, by decide +kernel, by decide +kernel⟩,
   ⟨{ fabric with dev.tick := 1024, pair.role := .standby, pair.claiming := true }, live_of (by decide +kernel),
    by decide +kernel, by decide +kernel, by decide +kernel⟩,
   ⟨{ fabric with dev.tick := 1000000000000, pair.role := .syncing }, live_of (by decide +kernel), by decide +kernel,
    by decide +kernel⟩,
   ⟨{ fabric with dev.tick := 1023, pair.role := .standby }, live_of (by decide +kernel), by decide +kernel⟩,
   ⟨{ fabric with dev.tick := 1000000000000, pair.role := .active, pair.enabled := true }, live_of (by decide +kernel),
    by decide +kernel, by decide +kernel, by decide +kernel⟩,
   ⟨{ fabric with dev.tick := 63, pair.role := .active, pair.enabled := true }, live_of (by decide +kernel),
    by decide +kernel⟩,
   ⟨{ fabric with dev.tick := 7, pair.role := .active, pair.mirror := [(3, (7, .none))] }, 3, 7, .none,
    live_of (by decide +kernel), by decide +kernel, by decide +kernel, by decide +kernel, (by intro x hx; cases hx)⟩,
   ⟨{ fabric with dev.tick := 6, pair.role := .active, pair.mirror := [(3, (7, .none))] }, 3, 7, .none,
    live_of (by decide +kernel), by decide +kernel, .inr (.inl (by decide +kernel))⟩,
   ⟨{ fabric with pair.role := .active }, 3, live_of (by decide +kernel), by decide +kernel⟩,
   ⟨{ fabric with dev.tick := 1000000000000, pair.role := .unpaired, pair.enabled := true, pair.waitDue := some 7 }, 7,
    live_of (by decide +kernel), by decide +kernel, by decide +kernel, by decide +kernel, by decide +kernel⟩,
   ⟨{ fabric with pair.enabled := true, pair.waitDue := some 9, dev.tick := 8 }, live_of (by decide +kernel),
    .inr (.inr (by intro d h; cases h; decide +kernel))⟩,
   ⟨{ fabric with pool.extents := [], pair.role := .active, pair.syncing := true }, live_of (by decide +kernel),
    by decide +kernel, by decide +kernel, by decide +kernel, by intro x hx; cases hx⟩,
   ⟨{ fabric with pair.role := .standby, pair.syncing := true }, live_of (by decide +kernel), by decide +kernel⟩,
   ⟨{ fabric with dev.tick := 1000000000000, pair.role := .standby, pair.retryDue := some 7 }, 7,
    live_of (by decide +kernel), by decide +kernel, by decide +kernel, by decide +kernel⟩,
   ⟨{ fabric with dev.tick := 8, pair.retryDue := some 9 }, live_of (by decide +kernel),
    (by intro d h; cases h; decide +kernel)⟩⟩

theorem wit_ports_come_up :
    (∃ (s : State), ∃ p q, (Live s) ∧ (p < 64) ∧ (q = s.port p) ∧ (q.st = .dark) ∧ (q.enable = true) ∧ (q.laser = true) ∧
      (s.portsMayTrain = true) ∧ (s.pwr.sleep ≠ .sl3) ∧ (s.pwr.sleep ≠ .sl4)) ∧
    (∃ s p q tNs w, (Live s) ∧ (p < 64) ∧ (q = s.port p) ∧ (q.st = .training) ∧
      (w = reachW q.mode q.wMax tNs (q.ackTimer * 10)) ∧ (0 < w) ∧ (s.fw.unlocked = false)) ∧
    (∃ s p q tNs w, (Live s) ∧ (p < 64) ∧ (q = s.port p) ∧ (q.st = .training) ∧
      (w = reachW q.mode q.wMax tNs (q.ackTimer * 10)) ∧ (0 < w) ∧ (s.fw.unlocked = true)) ∧
    (∃ (s : State), ∃ p q tNs w, (Live s) ∧ (p < 64) ∧ (q = s.port p) ∧ (q.st = .training) ∧
      (w = reachW q.mode q.wMax tNs (q.ackTimer * 10)) ∧ (w = 0)) ∧
    (∃ (s : State), ∃ p, (Live s) ∧ (p < 64) ∧ ((s.port p).st = .training)) ∧
    (∃ s p q h u, (Live s) ∧ (p < 64) ∧ (q = s.port p) ∧ (q.st = .session) ∧ (q.sess.helloIn = false) ∧
      (s.fw.unlocked = false) ∧
      (u = s.modSess p (fun x => { x with
                          peerHash := h, helloIn := true, higher := decide (h < Config.identityHash.toNat) })) ∧
      (Config.identityHash.toNat ≤ h)) ∧
    (0 < Config.identityHash.toNat → ∃ s p q h ok u, (Live s) ∧ (p < 64) ∧ (q = s.port p) ∧ (q.st = .session) ∧
      (q.sess.helloIn = false) ∧ (s.fw.unlocked = false) ∧
      (u = s.modSess p (fun x => { x with
                          peerHash := h, helloIn := true, higher := decide (h < Config.identityHash.toNat) })) ∧
      (h < Config.identityHash.toNat) ∧ (s.accepts ok = true)) ∧
    (0 < Config.identityHash.toNat → ∃ s p q h ok u, (Live s) ∧ (p < 64) ∧ (q = s.port p) ∧ (q.st = .session) ∧
      (q.sess.helloIn = false) ∧ (s.fw.unlocked = false) ∧
      (u = s.modSess p (fun x => { x with
                          peerHash := h, helloIn := true, higher := decide (h < Config.identityHash.toNat) })) ∧
      (h < Config.identityHash.toNat) ∧ (s.accepts ok = false)) ∧
    (∃ (s : State), ∃ p q, (Live s) ∧ (p < 64) ∧ (q = s.port p) ∧ (q.st = .session) ∧ (q.sess.helloIn = true) ∧
      (q.sess.higher = false) ∧ (q.sess.kemDone = false)) ∧
    (∃ (s : State), ∃ p q, (Live s) ∧ (p < 64) ∧ (q = s.port p) ∧ (q.st = .session) ∧ (q.sess.kemDone = true) ∧
      (q.sess.finishIn = false)) ∧
    (∃ (s : State), ∃ p q, ∃ (l : List Nat), (Live s) ∧ (p < 64) ∧ (q = s.port p) ∧ (q.st = .session) ∧
      (q.sess.finishIn = true) ∧ (q.sess.paramsIn = false) ∧ (∀ n ∈ l, n ≤ 2047) ∧ (q.w ≤ q.wMax)) ∧
    (∃ (s : State), ∃ p q, ∃ (l : List Nat), (Live s) ∧ (p < 64) ∧ (q = s.port p) ∧ (q.st = .session) ∧
      (q.sess.finishIn = true) ∧ (q.sess.paramsIn = false) ∧ (∀ n ∈ l, n ≤ 2047) ∧ (q.wMax < q.w)) ∧
    (∃ (s : State), ∃ p q, ∃ (l : List Nat), (Live s) ∧ (p < 64) ∧ (q = s.port p) ∧ (q.st = .session) ∧
      (q.sess.finishIn = true) ∧ (q.sess.paramsIn = false) ∧ (∃ n ∈ l, 2047 < n)) ∧
    (∃ (s : State), ∃ p, (Live s) ∧ (p < 64) ∧ ((s.port p).st = .session)) :=
  ⟨⟨{ fabric with ports := [], ready.config := true }, 63, _, live_of (by decide +kernel), by decide +kernel, rfl,
    by decide +kernel, by decide +kernel, by decide +kernel, by decide +kernel, by decide +kernel, by decide +kernel⟩,
   ⟨(withPort { st := .training }), 0, _, 0, _, live_of (by decide +kernel), by decide +kernel, rfl, by decide +kernel,
    rfl, by decide +kernel, by decide +kernel⟩,
   ⟨{ withPort { st := .training } with fw.unlocked := true }, 0, _, 0, _, live_of (by decide +kernel),
    by decide +kernel, rfl, by decide +kernel, rfl, by decide +kernel, by decide +kernel⟩,
   ⟨{ fabric with ports := [(0, { st := .training })] }, 0, _, 1000000, _, live_of (by decide +kernel),
    by decide +kernel, rfl, by decide +kernel, rfl, rfl⟩,
   ⟨{ fabric with ports := [(0, { st := .training })] }, 0, live_of (by decide +kernel), by decide +kernel,
    by decide +kernel⟩,
   ⟨(withPort { st := .session }), 0, _, (2 ^ 384), _, live_of (by decide +kernel), by decide +kernel, rfl,
    by decide +kernel, by decide +kernel, by decide +kernel, rfl, identity_le⟩,
   (fun hc => ⟨(withPort { st := .session }), 0, _, 0, .olizon, _, live_of (by decide +kernel), by decide +kernel, rfl,
               by decide +kernel, by decide +kernel, by decide +kernel, rfl, hc, by decide +kernel⟩),
   (fun hc => ⟨(withPort { st := .session }), 0, _, 0, (.further 0), _, live_of (by decide +kernel), by decide +kernel,
               rfl, by decide +kernel, by decide +kernel, by decide +kernel, rfl, hc, by decide +kernel⟩),
   ⟨{ fabric with ports := [(0, { st := .session, sess.helloIn := true })] }, 0, _, live_of (by decide +kernel),
    by decide +kernel, rfl, by decide +kernel, by decide +kernel, by decide +kernel, by decide +kernel⟩,
   ⟨{ fabric with ports := [(0, { st := .session, sess.kemDone := true })] }, 0, _, live_of (by decide +kernel),
    by decide +kernel, rfl, by decide +kernel, by decide +kernel, by decide +kernel⟩,
   ⟨{ fabric with ports := [(0, { st := .session, sess.finishIn := true })] }, 0, _, [0, 2047],
    live_of (by decide +kernel), by decide +kernel, rfl, by decide +kernel, by decide +kernel, by decide +kernel,
    by decide +kernel, by decide +kernel⟩,
   ⟨{ fabric with ports := [(0, { st := .session, w := 8, wMax := 7, sess.finishIn := true })] }, 0, _, [0, 2047],
    live_of (by decide +kernel), by decide +kernel, rfl, by decide +kernel, by decide +kernel, by decide +kernel,
    by decide +kernel, by decide +kernel⟩,
   ⟨{ fabric with ports := [(0, { st := .session, sess.finishIn := true })] }, 0, _, [0, 2048],
    live_of (by decide +kernel), by decide +kernel, rfl, by decide +kernel, by decide +kernel, by decide +kernel,
    ⟨2048, by decide, by decide⟩⟩,
   ⟨{ fabric with ports := [(0, { st := .session })] }, 0, live_of (by decide +kernel), by decide +kernel,
    by decide +kernel⟩⟩

theorem wit_ports_go_down :
    (∃ (s : State), ∃ p r q u, ∃ v, (q = s.port p) ∧ (q.st ≠ .dark) ∧ (q.st ≠ .down) ∧ (1 ≤ r) ∧
      (u = (if (q.st = .up ∨ q.st = .session) ∧ q.unacked.length < 1024 ∧
            q.keyFlits < 2 ^ 31 ∧ (q.sess.finishSent = true → q.keys.getD 0 0 ≠ 0) then s.emit (.flit p (q.sendNew true 0 true true [7#8, BitVec.ofNat 8 r]).1) else s)) ∧
      (v = (((u.emit (.downPattern p)).recOp 0x0501 6 p q.ackedUp r).putPort p { q.cleared (s.dev.tick + 1048576) with
              downs := listMod q.downs r (sat32 · 1) }).setPortReady p false)) ∧
    (∃ s p, (Live s) ∧ (p < 64) ∧ ((s.port p).st = .up ∨ (s.port p).st = .session)) ∧
    (∃ s p, (Live s) ∧ (p < 64) ∧ ((s.port p).st = .up ∨ (s.port p).st = .session ∨ (s.port p).st = .retrain)) ∧
    (∃ (s : State), ∃ p, (Live s) ∧ (p < 64) ∧ ((s.port p).st = .retrain)) ∧
    (∃ (s : State), ∃ e f, (Live s) ∧ (e < 16) ∧ (f < 4)) ∧
    (∃ (s : State), ∃ e, (Live s) ∧ (e < 16)) ∧
    (∃ (s : State), ∃ p q, (Live s) ∧ (p < 64) ∧ (q = s.port p) ∧ (q.st = .down) ∧ (q.enable = true) ∧
      (q.downDue ≤ s.dev.tick)) :=
  ⟨⟨fabric, 0, 1, _, _, _, rfl, by decide +kernel, by decide +kernel, by decide +kernel, rfl, rfl⟩,
   ⟨fabric, 0, live_of (by decide +kernel), by decide +kernel, .inl (by decide +kernel)⟩,
   ⟨(withPort { st := .retrain }), 0, live_of (by decide +kernel), by decide +kernel, by decide +kernel⟩,
   ⟨{ fabric with ports := [(0, { st := .retrain })] }, 0, live_of (by decide +kernel), by decide +kernel,
    by decide +kernel⟩,
   ⟨fabric, 15, 3, live_of (by decide +kernel), by decide +kernel, by decide +kernel⟩,
   ⟨fabric, 15, live_of (by decide +kernel), by decide +kernel⟩,
   ⟨{ fabric with ports := [(0, { st := .down })] }, 0, _, live_of (by decide +kernel), by decide +kernel, rfl,
    by decide +kernel, by decide +kernel, by decide +kernel⟩⟩

theorem wit_port_flits :
    (∃ s p q, ∃ (f : Flit), ∃ u, (Live s) ∧ (p < 64) ∧ (q = s.port p) ∧ (q.hears = true) ∧ (f.ftype ≠ 0) ∧
      (q.check f = .good) ∧ (u = (s.putPort p (((q.addFec f).takeAck f).takeCredit f)).takeNak p f) ∧
      ((u.port p).hears = false)) ∧
    (∃ (s : State), ∃ p q, ∃ (f : Flit), ∃ u d, (Live s) ∧ (p < 64) ∧ (q = s.port p) ∧ (q.hears = true) ∧ (f.ftype ≠ 0) ∧
      (q.check f = .good) ∧ (u = (s.putPort p (((q.addFec f).takeAck f).takeCredit f)).takeNak p f) ∧
      ((u.port p).hears = true) ∧ (d = (f.seq + 4096 - q.rxX % 4096) % 4096) ∧ (d = 0) ∧ ∃ r, (r = (u.port p).switchRx f)) ∧
    (∃ (s : State), ∃ p q, ∃ (f : Flit), ∃ u d, (Live s) ∧ (p < 64) ∧ (q = s.port p) ∧ (q.hears = true) ∧ (f.ftype ≠ 0) ∧
      (q.check f = .good) ∧ (u = (s.putPort p (((q.addFec f).takeAck f).takeCredit f)).takeNak p f) ∧
      ((u.port p).hears = true) ∧ (d = (f.seq + 4096 - q.rxX % 4096) % 4096) ∧ (1 ≤ d) ∧ (d ≤ 1023)) ∧
    (∃ (s : State), ∃ p q, ∃ (f : Flit), ∃ u d, (Live s) ∧ (p < 64) ∧ (q = s.port p) ∧ (q.hears = true) ∧ (f.ftype ≠ 0) ∧
      (q.check f = .good) ∧ (u = (s.putPort p (((q.addFec f).takeAck f).takeCredit f)).takeNak p f) ∧
      ((u.port p).hears = true) ∧ (d = (f.seq + 4096 - q.rxX % 4096) % 4096) ∧ (1023 < d) ∧ (d < 3072)) ∧
    (∃ (s : State), ∃ p q, ∃ (f : Flit), ∃ u d, (Live s) ∧ (p < 64) ∧ (q = s.port p) ∧ (q.hears = true) ∧ (f.ftype ≠ 0) ∧
      (q.check f = .good) ∧ (u = (s.putPort p (((q.addFec f).takeAck f).takeCredit f)).takeNak p f) ∧
      ((u.port p).hears = true) ∧ (d = (f.seq + 4096 - q.rxX % 4096) % 4096) ∧ (3072 ≤ d)) ∧
    (∃ s p q, ∃ (f : Flit), ∃ (i : Instr), (Live s) ∧ (p < 64) ∧ (q = s.port p) ∧ (q.hears = true) ∧
      (f.ftype ≠ 0 ∧ i = .dataFlitRx p f ∨ f.ftype = 0 ∧ i = .idleFlitRx p f) ∧ (q.check f = .crc)) ∧
    (∃ s p q, ∃ (f : Flit), ∃ (i : Instr), (Live s) ∧ (p < 64) ∧ (q = s.port p) ∧ (q.hears = true) ∧
      (f.ftype ≠ 0 ∧ i = .dataFlitRx p f ∨ f.ftype = 0 ∧ i = .idleFlitRx p f) ∧ (q.check f = .security)) ∧
    (∃ s p q, ∃ (f : Flit), ∃ (i : Instr), (Live s) ∧ (p < 64) ∧ (q = s.port p) ∧ (q.hears = true) ∧
      (f.ftype ≠ 0 ∧ i = .dataFlitRx p f ∨ f.ftype = 0 ∧ i = .idleFlitRx p f) ∧ (q.check f = .protocol)) ∧
    (∃ s p q, ∃ (f : Flit), (Live s) ∧ (p < 64) ∧ (q = s.port p) ∧ (q.hears = true) ∧ (f.ftype = 0) ∧
      (q.check f = .good) ∧ ((∀ n, q.rxIdle = some n → n < f.idleCount) ∨ q.sess.finishIn = true ∧ f.keyPhase ≠ q.rxPhase)) ∧
    (∃ s p q, ∃ (f : Flit), ∃ n, (Live s) ∧ (p < 64) ∧ (q = s.port p) ∧ (q.hears = true) ∧ (f.ftype = 0) ∧
      (q.check f = .good) ∧ (q.rxIdle = some n) ∧ (f.idleCount ≤ n) ∧ (q.sess.finishIn = false ∨ f.keyPhase = q.rxPhase)) ∧
    (∃ s p u q, (Live s) ∧ (p < 64) ∧ (u = (s.dropAged p).modPort p Port.switchTx) ∧ (q = u.port p) ∧ (q.hears = true) ∧
      (2 ^ 31 ≤ q.keyFlits ∨ 2 ^ 55 ≤ q.txE)) ∧
    (∃ (s : State), ∃ p u q, (Live s) ∧ (p < 64) ∧ (u = (s.dropAged p).modPort p Port.switchTx) ∧ (q = u.port p) ∧
      (q.hears = true) ∧ (q.keyFlits < 2 ^ 31) ∧ (q.txE < 2 ^ 55) ∧ ∃ f i, (0 < q.toReplay) ∧
      (i = q.unacked.length - q.toReplay) ∧ (q.unacked[i]? = some f) ∧ (f.txNum < 255) ∧ ∃ y,
      (y = q.form (f.e % 4096) (if f.ctl then 2 else 1) f.vc f.first f.last f.payload (f.txNum + 1) 0)) ∧
    (∃ (s : State), ∃ p u q, (Live s) ∧ (p < 64) ∧ (u = (s.dropAged p).modPort p Port.switchTx) ∧ (q = u.port p) ∧
      (q.hears = true) ∧ (q.keyFlits < 2 ^ 31) ∧ (q.txE < 2 ^ 55) ∧ (q.toReplay = 0) ∧ (q.unacked.length < 1024) ∧
      ∃ m rest y, (q.ctlQueue = m :: rest) ∧ (u.slotOwner q.slot = none) ∧
      (y = q.sendNew true 0 (!q.sess.ctlBegun) (m.length ≤ flitMax q.mode) (m.take (flitMax q.mode)))) ∧
    (∃ s p u q, ∃ f i, (Live s) ∧ (p < 64) ∧ (u = (s.dropAged p).modPort p Port.switchTx) ∧ (q = u.port p) ∧
      (q.hears = true) ∧ (q.keyFlits < 2 ^ 31) ∧ (q.txE < 2 ^ 55) ∧ (0 < q.toReplay) ∧
      (i = q.unacked.length - q.toReplay) ∧ (q.unacked[i]? = some f) ∧ (255 ≤ f.txNum)) ∧
    (∃ (s : State), ∃ p u q, (Live s) ∧ (p < 64) ∧ (u = (s.dropAged p).modPort p Port.switchTx) ∧ (q = u.port p) ∧
      (q.hears = true) ∧ (q.keyFlits < 2 ^ 31) ∧ (q.txE < 2 ^ 55) ∧ ∃ c x i, (q.toReplay = 0) ∧
      (q.unacked.length < 1024) ∧ (q.ctlQueue = []) ∧ (q.st = .up) ∧ (u.nextData p = some (c, x, i))) ∧
    (∃ s p u q, ∃ y, (Live s) ∧ (p < 64) ∧ (u = (s.dropAged p).modPort p Port.switchTx) ∧ (q = u.port p) ∧
      (q.hears = true) ∧ (q.keyFlits < 2 ^ 31) ∧ (q.txE < 2 ^ 55) ∧ (q.toReplay = 0) ∧
      (y = q.form (q.txE % 4096) 0 0 false false [] 0 q.idleCount) ∧
      (q.ctlQueue = [] ∧ (q.st ≠ .up ∨ 1024 ≤ q.unacked.length ∨ u.nextData p = none) ∨ q.ctlQueue ≠ [] ∧
       (1024 ≤ q.unacked.length ∨ u.slotOwner q.slot ≠ none)) ∧ (q.sess.finishSent = true → q.keys.getD 0 0 ≠ 0)) ∧
    (∃ s p u q, ∃ y, (Live s) ∧ (p < 64) ∧ (u = (s.dropAged p).modPort p Port.switchTx) ∧ (q = u.port p) ∧
      (q.hears = true) ∧ (q.keyFlits < 2 ^ 31) ∧ (q.txE < 2 ^ 55) ∧ (q.toReplay = 0) ∧
      (y = q.form (q.txE % 4096) 0 0 false false [] 0 q.idleCount) ∧
      (q.ctlQueue = [] ∧ (q.st ≠ .up ∨ 1024 ≤ q.unacked.length ∨ u.nextData p = none) ∨ q.ctlQueue ≠ [] ∧
       (1024 ≤ q.unacked.length ∨ u.slotOwner q.slot ≠ none)) ∧ (q.sess.finishSent = true) ∧ (q.keys.getD 0 0 = 0)) ∧
    (∃ (s : State), ∃ p q, (Live s) ∧ (p < 64) ∧ (q = s.port p) ∧ (q.hears = true) ∧ (0 < q.sinceAck)) ∧
    (∃ s p q, (Live s) ∧ (p < 64) ∧ (q = s.port p) ∧ (q.hears = true) ∧ (q.toReplay = 0) ∧ (q.unacked ≠ []) ∧
      (q.replays + 1 ≤ q.replayLim ∨ q.st = .session)) ∧
    (∃ (s : State), ∃ p q, (Live s) ∧ (p < 64) ∧ (q = s.port p) ∧ (q.hears = true) ∧ (q.toReplay = 0) ∧ (q.unacked ≠ []) ∧
      (q.replayLim ≤ q.replays) ∧ (q.st = .up) ∧ (q.ran = true) ∧ (q.acked < 1048576)) ∧
    (∃ (s : State), ∃ p q, (Live s) ∧ (p < 64) ∧ (q = s.port p) ∧ (q.hears = true) ∧ (q.toReplay = 0) ∧ (q.unacked ≠ []) ∧
      (q.replayLim ≤ q.replays) ∧ (q.st = .up) ∧ (q.ran = false ∨ 1048576 ≤ q.acked)) ∧
    (∃ s p q, (Live s) ∧ (p < 64) ∧ (q = s.port p) ∧ (q.st = .retrain)) ∧
    (∃ (s : State), ∃ p q, (Live s) ∧ (p < 64) ∧ (q = s.port p) ∧ (q.st = .up) ∧ (q.sess.rekeyOut = false) ∧
      (2 ^ 30 ≤ q.keyFlits)) ∧
    (∃ (s : State), ∃ p q, (Live s) ∧ (p < 64) ∧ (q = s.port p) ∧ (q.st = .up) ∧ (q.sess.rekeyOut = true) ∧
      (q.sess.rekeyIn = false) ∧ (q.sess.higher = false)) ∧
    (∃ (s : State), ∃ p q, (Live s) ∧ (p < 64) ∧ (q = s.port p) ∧ (q.st = .up) ∧ (q.sess.rekeyOut = true) ∧
      (q.sess.rekeyIn = false) ∧ (q.sess.higher = true)) ∧
    (∃ (s : State), ∃ p q, (Live s) ∧ (p < 64) ∧ (q = s.port p) ∧ (q.st = .up) ∧ (q.sess.rekeyOut = false) ∧
      (q.sess.rekeyIn = false) ∧ (q.sess.higher = false)) ∧
    (∃ s p q, (Live s) ∧ (p < 64) ∧ (q = s.port p) ∧ (q.st = .up) ∧ (q.sess.rekeyOut = false) ∧ (q.sess.rekeyIn = false) ∧
      (q.sess.higher = true)) ∧
    (∃ (s : State), ∃ p q, (Live s) ∧ (p < 64) ∧ (q = s.port p) ∧ (q.st = .up) ∧ (q.sess.rekeyOut = true) ∧
      (q.sess.rekeyIn = true) ∧ (q.sess.higher = false) ∧ (q.sess.nextReady = false)) :=
  ⟨⟨(withPort { st := .up, replayLim := 0
                unacked := [{ e := 0, ctl := false, vc := 0, first := true, last := true, payload := [0] }] }), 0, _,
    { flit0 with ackValid := true, nak := true }, _, live_of (by decide +kernel), by decide +kernel, rfl,
    by decide +kernel, by decide +kernel, by decide +kernel, rfl, by decide +kernel⟩,
   ⟨fabric, 0, _,
    { seq := 0, ackSeq := 4095, ackValid := false, nak := false, keyPhase := 0, ftype := 1, vc := 0, pktFirst := false
      pktLast := false, payLenM1 := 0, creditVc := 0, creditTotal := 0, txNum := 0, idleCount := 0, payload := [0]
      crcOk := true, tagged := false, tagOk := true, fec := [] }, _, 0, live_of (by decide +kernel), by decide +kernel,
    rfl, by decide +kernel, by decide +kernel, by decide +kernel, rfl, by decide +kernel, by decide +kernel,
    by decide +kernel, _, rfl⟩,
   ⟨fabric, 0, _,
    { seq := 1, ackSeq := 4095, ackValid := false, nak := false, keyPhase := 0, ftype := 1, vc := 0, pktFirst := false
      pktLast := false, payLenM1 := 0, creditVc := 0, creditTotal := 0, txNum := 0, idleCount := 0, payload := [0]
      crcOk := true, tagged := false, tagOk := true, fec := [] }, _, 1, live_of (by decide +kernel), by decide +kernel,
    rfl, by decide +kernel, by decide +kernel, by decide +kernel, rfl, by decide +kernel, by decide +kernel,
    by decide +kernel, by decide +kernel⟩,
   ⟨fabric, 0, _,
    { seq := 1024, ackSeq := 4095, ackValid := false, nak := false, keyPhase := 0, ftype := 1, vc := 0
      pktFirst := false, pktLast := false, payLenM1 := 0, creditVc := 0, creditTotal := 0, txNum := 0, idleCount := 0
      payload := [0], crcOk := true, tagged := false, tagOk := true, fec := [] }, _, 1024, live_of (by decide +kernel),
    by decide +kernel, rfl, by decide +kernel, by decide +kernel, by decide +kernel, rfl, by decide +kernel,
    by decide +kernel, by decide +kernel, by decide +kernel⟩,
   ⟨fabric, 0, _,
    { seq := 3072, ackSeq := 4095, ackValid := false, nak := false, keyPhase := 0, ftype := 1, vc := 0
      pktFirst := false, pktLast := false, payLenM1 := 0, creditVc := 0, creditTotal := 0, txNum := 0, idleCount := 0
      payload := [0], crcOk := true, tagged := false, tagOk := true, fec := [] }, _, 3072, live_of (by decide +kernel),
    by decide +kernel, rfl, by decide +kernel, by decide +kernel, by decide +kernel, rfl, by decide +kernel,
    by decide +kernel, by decide +kernel⟩,
   ⟨fabric, 0, _, { flit0 with crcOk := false }, (.dataFlitRx 0 { flit0 with crcOk := false }),
    live_of (by decide +kernel), by decide +kernel, rfl, by decide +kernel, .inl ⟨by decide +kernel, rfl⟩,
    by decide +kernel⟩,
   ⟨(withPort { st := .up, sess.finishIn := true }), 0, _, { flit0 with ftype := 0 },
    (.idleFlitRx 0 { flit0 with ftype := 0 }), live_of (by decide +kernel), by decide +kernel, rfl, by decide +kernel,
    .inr ⟨rfl, rfl⟩, by decide +kernel⟩,
   ⟨fabric, 0, _, { flit0 with ftype := 3 }, (.dataFlitRx 0 { flit0 with ftype := 3 }), live_of (by decide +kernel),
    by decide +kernel, rfl, by decide +kernel, .inl ⟨by decide +kernel, rfl⟩, by decide +kernel⟩,
   ⟨fabric, 0, _, { flit0 with ftype := 0 }, live_of (by decide +kernel), by decide +kernel, rfl, by decide +kernel,
    by decide +kernel, by decide +kernel, .inl (by decide +kernel)⟩,
   ⟨(withPort { st := .up, rxIdle := some 4 }), 0, _, { flit0 with ftype := 0, idleCount := 4 }, 4,
    live_of (by decide +kernel), by decide +kernel, rfl, by decide +kernel, by decide +kernel, by decide +kernel,
    by decide +kernel, by decide +kernel, by decide +kernel⟩,
   ⟨(withPort { st := .up, keyFlits := 2 ^ 31 }), 0, _, _, live_of (by decide +kernel), by decide +kernel, rfl, rfl,
    by decide +kernel, by decide +kernel⟩,
   ⟨{ fabric with
      ports := [(0,
                 { st := .up, credits := List.replicate 6 2047
                   unacked := [{ e := 0, ctl := false, vc := 0, first := true, last := true, payload := [0] }]
                   toReplay := 1 })] }, 0, _, _, live_of (by decide +kernel), by decide +kernel, rfl, rfl,
    by decide +kernel, by decide +kernel, by decide +kernel,
    { e := 0, ctl := false, vc := 0, first := true, last := true, payload := [0] }, 0, by decide +kernel,
    by decide +kernel, by decide +kernel, by decide +kernel, _, rfl⟩,
   ⟨{ fabric with ports := [(0, { st := .up, credits := List.replicate 6 2047, ctlQueue := [[1]] })] }, 0, _, _,
    live_of (by decide +kernel), by decide +kernel, rfl, rfl, by decide +kernel, by decide +kernel, by decide +kernel,
    by decide +kernel, by decide +kernel, [1], [], _, by decide +kernel, by decide +kernel, rfl⟩,
   ⟨(withPort { st := .up, toReplay := 1
                unacked := [{ e := 0, ctl := false, vc := 0, first := true, last := true, payload := [0]
                              txNum := 255 }] }), 0, _, _,
    { e := 0, ctl := false, vc := 0, first := true, last := true, payload := [0], txNum := 255 }, _,
    live_of (by decide +kernel), by decide +kernel, rfl, rfl, by decide +kernel, by decide +kernel, by decide +kernel,
    by decide +kernel, rfl, by decide +kernel, by decide +kernel⟩,
   ⟨{ fabric with
      ports := [(0,
                 { st := .up, credits := List.replicate 6 2047
                   queues := [[{ opcode := 0x10, p := pkt (opnd 0) 0, bytes := leBytes 0 48, sub := 5
                                 svc := 0, own := true, since := 0 }], [], [], [], [], []] })] }, 0, _, _,
    live_of (by decide +kernel), by decide +kernel, rfl, rfl, by decide +kernel, by decide +kernel, by decide +kernel, _,
    _, _, by decide +kernel, by decide +kernel, by decide +kernel, by decide +kernel, some_of (by decide +kernel)⟩,
   ⟨fabric, 0, _, _, _, live_of (by decide +kernel), by decide +kernel, rfl, rfl, by decide +kernel, by decide +kernel,
    by decide +kernel, by decide +kernel, rfl, by decide +kernel, by decide +kernel⟩,
   ⟨(withPort { st := .up, sess.finishSent := true }), 0, _, _, _, live_of (by decide +kernel), by decide +kernel, rfl,
    rfl, by decide +kernel, by decide +kernel, by decide +kernel, by decide +kernel, rfl, by decide +kernel,
    by decide +kernel, by decide +kernel⟩,
   ⟨{ fabric with ports := [(0, { st := .up, credits := List.replicate 6 2047, sinceAck := 1 })] }, 0, _,
    live_of (by decide +kernel), by decide +kernel, rfl, by decide +kernel, by decide +kernel⟩,
   ⟨(withPort { st := .session, replays := 4
                unacked := [{ e := 0, ctl := true, vc := 0, first := true, last := true, payload := [0] }] }), 0, _,
    live_of (by decide +kernel), by decide +kernel, rfl, by decide +kernel, by decide +kernel, by decide +kernel,
    by decide +kernel⟩,
   ⟨{ fabric with
      ports := [(0,
                 { st := .up, credits := List.replicate 6 2047
                   unacked := [{ e := 0, ctl := false, vc := 0, first := true, last := true, payload := [0] }]
                   replays := 4, ran := true, acked := 1048575 })] }, 0, _, live_of (by decide +kernel),
    by decide +kernel, rfl, by decide +kernel, by decide +kernel, by decide +kernel, by decide +kernel,
    by decide +kernel, by decide +kernel, by decide +kernel⟩,
   ⟨{ fabric with
      ports := [(0,
                 { st := .up, credits := List.replicate 6 2047
                   unacked := [{ e := 0, ctl := false, vc := 0, first := true, last := true, payload := [0] }]
                   replays := 4, ran := true, acked := 1048576 })] }, 0, _, live_of (by decide +kernel),
    by decide +kernel, rfl, by decide +kernel, by decide +kernel, by decide +kernel, by decide +kernel,
    by decide +kernel, by decide +kernel⟩,
   ⟨(withPort { st := .retrain }), 0, _, live_of (by decide +kernel), by decide +kernel, rfl, by decide +kernel⟩,
   ⟨{ fabric with ports := [(0, { st := .up, credits := List.replicate 6 2047, keyFlits := 2 ^ 30 })] }, 0, _,
    live_of (by decide +kernel), by decide +kernel, rfl, by decide +kernel, by decide +kernel, by decide +kernel⟩,
   ⟨{ fabric with ports := [(0, { st := .up, credits := List.replicate 6 2047, sess.rekeyOut := true })] }, 0, _,
    live_of (by decide +kernel), by decide +kernel, rfl, by decide +kernel, by decide +kernel, by decide +kernel,
    by decide +kernel⟩,
   ⟨{ fabric with
      ports := [(0, { st := .up, credits := List.replicate 6 2047, sess.rekeyOut := true, sess.higher := true })] }, 0,
    _, live_of (by decide +kernel), by decide +kernel, rfl, by decide +kernel, by decide +kernel, by decide +kernel,
    by decide +kernel⟩,
   ⟨{ fabric with ports := [(0, { st := .up, credits := List.replicate 6 2047 })] }, 0, _, live_of (by decide +kernel),
    by decide +kernel, rfl, by decide +kernel, by decide +kernel, by decide +kernel, by decide +kernel⟩,
   ⟨(withPort { st := .up, sess.higher := true }), 0, _, live_of (by decide +kernel), by decide +kernel, rfl,
    by decide +kernel, by decide +kernel, by decide +kernel, by decide +kernel⟩,
   ⟨{ fabric with
      ports := [(0, { st := .up, credits := List.replicate 6 2047, sess.rekeyOut := true, sess.rekeyIn := true })] }, 0,
    _, live_of (by decide +kernel), by decide +kernel, rfl, by decide +kernel, by decide +kernel, by decide +kernel,
    by decide +kernel, by decide +kernel⟩⟩

theorem wit_fabric_timers :
    (∃ (s : State), ∃ p q, (Live s) ∧ (p < 64) ∧ (q = s.port p)) ∧
    (∃ (s : State), ∃ id x, (Live s) ∧ (s.fab.transit.find id = some x) ∧
      (16000 ≤ ageAfter x.p.age (s.dev.tick - x.since))) ∧
    (∃ (s : State), ∃ n g h f k u, (Live s) ∧
      (s.fab.held.find? (fun h => h.r.p.src == n && h.r.p.tag == g && decide (16000 ≤ ageAfter h.r.p.age (s.dev.tick - h.since))) = some h) ∧
      (f = s.fab.fences.findD n {}) ∧ (k = (h.r.p.fnum + 16 - f.x) % 16 + 1) ∧
      (u = { s with
         fab.fences := s.fab.fences.put n { x := (f.x + k) % 16
                                            counts := f.counts.drop k ++ List.replicate (min k 8) 0 }
         fab.held := s.fab.held.filter (· != h), fab.aged := s.fab.aged + 1
         fab.tags := s.fab.tags.adjust (tagKey n g) fun t => if t.tgen == h.r.p.tgen then { t with
           st := .free, dups := [] } else t })) ∧
    (∃ (s : State), ∃ id x, (Live s) ∧ (s.fab.transit.find id = some x) ∧ (channelOf x.opcode = 0) ∧ (x.p.escape = false)) ∧
    (∃ (s : State), ∃ n, ∃ (v : NodeRec), ∃ d, (Live s) ∧ (v = s.nodeRec n) ∧ (v.noRoute = some d) ∧
      (d + 64 ≤ s.dev.tick) ∧ (s.hasRoute n = false) ∧ (v.reachable = true)) ∧
    (∃ (s : State), ∃ b v, (Live s) ∧ (b < 2) ∧ (v = s.bank b) ∧ (b ≠ s.fab.epoch) ∧ (v.opened = false) ∧
      (s.drainOf b = 0) ∧ (v.lastUse + 400 ≤ s.dev.tick)) :=
  ⟨⟨fabric, 63, _, live_of (by decide +kernel), by decide +kernel, rfl⟩,
   ⟨{ fabric with
      fab.transit := [(3,
                       { opcode := 0x10, p := { pkt (opnd 0) 0 with port := 0, dst := 7, src := 4, age := 16000 }
                         inPort := some 0, since := 0, sub := (0, 0) })] }, 3,
    { opcode := 0x10, p := { pkt (opnd 0) 0 with port := 0, dst := 7, src := 4, age := 16000 }, inPort := some 0
      since := 0, sub := (0, 0) }, live_of (by decide +kernel), by decide +kernel, by decide +kernel⟩,
   ⟨{ fabric with
      fab.held := [{ r := { opcode := 0x10, p := { pkt [] 0 with src := 7, tag := 5, age := 16000 } }, since := 0 }] },
    7, 5, { r := { opcode := 0x10, p := { pkt [] 0 with src := 7, tag := 5, age := 16000 } }, since := 0 }, _, _, _,
    live_of (by decide +kernel), by decide +kernel, rfl, rfl, rfl⟩,
   ⟨{ fabric with
      fab.transit := [(3,
                       { opcode := 0x10, p := { pkt (opnd 0) 0 with port := 0, dst := 7, src := 4, age := 0 }
                         inPort := some 0, since := 0, sub := (0, 0) })] }, 3,
    { opcode := 0x10, p := { pkt (opnd 0) 0 with port := 0, dst := 7, src := 4, age := 0 }, inPort := some 0
      since := 0, sub := (0, 0) }, live_of (by decide +kernel), by decide +kernel, by decide +kernel, by decide +kernel⟩,
   ⟨{ fabric with
      dev.tick := 64, ports := [], fab.nodes := [(7, { gen := some 0, reachable := true, noRoute := some 0 })] }, 7, _,
    0, live_of (by decide +kernel), rfl, by decide +kernel, by decide +kernel, by decide +kernel, by decide +kernel⟩,
   ⟨{ fabric with dev.tick := 400 }, 1, _, live_of (by decide +kernel), by decide +kernel, rfl, by decide +kernel,
    by decide +kernel, by decide +kernel, by decide +kernel⟩⟩

theorem wit_tile_events :
    (∃ (s : State), ∃ n sid i, (Live s) ∧ (n < 144) ∧ ((s.station n).run = some (sid, i, none))) ∧
    (∃ s n sid i v t, (Live s) ∧ (n < 144) ∧ ((s.station n).run = some (sid, i, none)) ∧ (s.tileOf sid i = some (v, t)) ∧
      (rsKind (v.steps.getD t.step 0) ≠ kLedger) ∧ (t.ended = false)) ∧
    (∃ s n sid i v t, (Live s) ∧ (n < 144) ∧ ((s.station n).run = some (sid, i, none)) ∧ (s.tileOf sid i = some (v, t)) ∧
      (rsKind (v.steps.getD t.step 0) = kLedger ∨ t.ended = true)) ∧
    (∃ s n sid i x slot, (Live s) ∧ (n < 144) ∧ ((s.station n).run = some (sid, i, x)) ∧ (s.onHold sid i = false) ∧
      ((s.station n).st = .bound slot)) ∧
    (∃ s n sid i x, (Live s) ∧ (n < 144) ∧ ((s.station n).run = some (sid, i, x)) ∧ (s.onHold sid i = true)) ∧
    (∃ (s : State), ∃ n slot, ∃ (lost : List (Nat × Nat)), ∃ (u : State), ∃ (v : State), ∃ (w : State), (Live s) ∧
      (n < 144) ∧ ((s.station n).st = .fenced slot) ∧
      (u = (lost.filter (s.station n).resident.contains).foldl (fun u x => match u.seq.windows.find x.1 with | some y => u.modLTile x.1 x.2 fun l => { l with poison := true, marks := List.range (wTileElems y.desc x.2) } | none => u) (s.spillAll n)) ∧
      (v = { u with
         seq.windows := u.seq.windows.each fun _ y => { y with
           tiles := y.tiles.each fun _ l => if l.home == some n then { l with home := none } else l } }) ∧
      (w = { v with pool.l1 := v.pool.l1.del n })) ∧
    (∃ s sid i v t w u, (Live s) ∧ (s.tileOf sid i = some (v, t)) ∧ (t.st = .writing) ∧ (w = v.steps.getLast?.getD 0) ∧
      (s.guardWrites (.tile sid i) t.writes = (.waits, u))) ∧
    (∃ s sid i v t w u a y b c d m, (Live s) ∧ (s.tileOf sid i = some (v, t)) ∧ (t.st = .writing) ∧
      (w = v.steps.getLast?.getD 0) ∧ (s.guardWrites (.tile sid i) t.writes = (.yes, u)) ∧
      (rsKind w ≠ kScatter ∨ rsOp w ≠ 1 → a = (t.writes, u.putWrites t.writes)) ∧
      (rsKind w = kScatter → rsOp w = 1 → ∀ n p q,
       n = sumOf (t.outs.map fun o => (Span.mk o.va o.bytes.length true).pieces.length) →
       p = u.putWrites (t.writes.take n) → q = p.2.scatterAdd w i 0 65536 (t.writes.drop n) →
       a = (t.writes.take n ++ q.1, p.1.worse q.2.1, q.2.2)) ∧ (y = t.meet a.2.1) ∧
      (b = (a.2.2.dropGot (.tile sid i)).modTile sid i (fun _ => y)) ∧
      (c = (if hdSink v.head = 3 then b.multicast v i y y.condSt else b)) ∧ (rsKind w ≠ kCheck → d = c) ∧
      (rsKind w = kCheck → rsOp w = 0 → d = c.modStream sid fun v => { v with check := (v.check + y.diff) % 2 ^ 64 }) ∧
      (rsKind w = kCheck → rsOp w ≠ 0 →
       d = c.modStream sid fun v => { v with checkHeld := v.checkHeld.put i (y.data.take (c.packed (rsIn w) y.count)) }) ∧
      (m = d.mirrorWrites a.1 [] (.tile sid i)) ∧ (m.1 = false)) ∧
    (∃ s sid i v t w u a y b c d m, (Live s) ∧ (s.tileOf sid i = some (v, t)) ∧ (t.st = .writing) ∧
      (w = v.steps.getLast?.getD 0) ∧ (s.guardWrites (.tile sid i) t.writes = (.yes, u)) ∧
      (rsKind w ≠ kScatter ∨ rsOp w ≠ 1 → a = (t.writes, u.putWrites t.writes)) ∧
      (rsKind w = kScatter → rsOp w = 1 → ∀ n p q,
       n = sumOf (t.outs.map fun o => (Span.mk o.va o.bytes.length true).pieces.length) →
       p = u.putWrites (t.writes.take n) → q = p.2.scatterAdd w i 0 65536 (t.writes.drop n) →
       a = (t.writes.take n ++ q.1, p.1.worse q.2.1, q.2.2)) ∧ (y = t.meet a.2.1) ∧
      (b = (a.2.2.dropGot (.tile sid i)).modTile sid i (fun _ => y)) ∧
      (c = (if hdSink v.head = 3 then b.multicast v i y y.condSt else b)) ∧ (rsKind w ≠ kCheck → d = c) ∧
      (rsKind w = kCheck → rsOp w = 0 → d = c.modStream sid fun v => { v with check := (v.check + y.diff) % 2 ^ 64 }) ∧
      (rsKind w = kCheck → rsOp w ≠ 0 →
       d = c.modStream sid fun v => { v with checkHeld := v.checkHeld.put i (y.data.take (c.packed (rsIn w) y.count)) }) ∧
      (m = d.mirrorWrites a.1 [] (.tile sid i)) ∧ (m.1 = true) ∧ (thKind y.hdr ≠ tkAppend)) ∧
    (∃ s sid i v t w u a y b c d m, (Live s) ∧ (s.tileOf sid i = some (v, t)) ∧ (t.st = .writing) ∧
      (w = v.steps.getLast?.getD 0) ∧ (s.guardWrites (.tile sid i) t.writes = (.yes, u)) ∧
      (rsKind w ≠ kScatter ∨ rsOp w ≠ 1 → a = (t.writes, u.putWrites t.writes)) ∧
      (rsKind w = kScatter → rsOp w = 1 → ∀ n p q,
       n = sumOf (t.outs.map fun o => (Span.mk o.va o.bytes.length true).pieces.length) →
       p = u.putWrites (t.writes.take n) → q = p.2.scatterAdd w i 0 65536 (t.writes.drop n) →
       a = (t.writes.take n ++ q.1, p.1.worse q.2.1, q.2.2)) ∧ (y = t.meet a.2.1) ∧
      (b = (a.2.2.dropGot (.tile sid i)).modTile sid i (fun _ => y)) ∧
      (c = (if hdSink v.head = 3 then b.multicast v i y y.condSt else b)) ∧ (rsKind w ≠ kCheck → d = c) ∧
      (rsKind w = kCheck → rsOp w = 0 → d = c.modStream sid fun v => { v with check := (v.check + y.diff) % 2 ^ 64 }) ∧
      (rsKind w = kCheck → rsOp w ≠ 0 →
       d = c.modStream sid fun v => { v with checkHeld := v.checkHeld.put i (y.data.take (c.packed (rsIn w) y.count)) }) ∧
      (m = d.mirrorWrites a.1 [] (.tile sid i)) ∧ (m.1 = true) ∧ (thKind y.hdr = tkAppend)) ∧
    (∃ (s : State), ∃ sid v i first idx, (Live s) ∧ (s.str.streams.find sid = some v) ∧ (hdSrc v.head = 1) ∧
      (v.closed = false) ∧ (v.ended = false) ∧ (v.tiles.length < 64) ∧ (nextIssue v = some i) ∧
      (first = v.steps.headD 0) ∧ (idx = isTable (rsKind first))) ∧
    (∃ (s : State), ∃ sid v, (Live s) ∧ (s.str.streams.find sid = some v) ∧ (v.closed = false) ∧ (hdSrc v.head = 0) ∧
      (v.idleDue ≤ s.dev.tick)) ∧
    (∃ (s : State), ∃ sid v, (Live s) ∧ (s.str.streams.find sid = some v) ∧ (v.closed = true) ∧ (v.tiles = []) ∧
      (v.freeDue ≠ 0) ∧ (v.freeDue ≤ s.dev.tick)) :=
  ⟨⟨{ fabric with
      str.streams := [(3,
                       { strm1 with
                         steps := [16]
                         tiles := [(0,
                                    { req := none, hdr := 0x13, data := leBytes 0 32, count := 8
                                      st := .running 143 })] })]
      stn.stations := [(143, { st := .bound 9, run := some (3, 0, none) })] }, 143, 3, 0, live_of (by decide +kernel),
    by decide +kernel, by decide +kernel⟩,
   ⟨{ fabric with
      str.streams := [(3,
                       { strm1 with
                         steps := [16]
                         tiles := [(0,
                                    { req := none, hdr := 0x13, data := leBytes 0 32, count := 8
                                      st := .running 143 })] })]
      stn.stations := [(143, { st := .bound 9, run := some (3, 0, none) })] }, 143, 3, 0,
    { strm1 with
      steps := [16], tiles := [(0, { req := none, hdr := 0x13, data := leBytes 0 32, count := 8, st := .running 143 })] },
    { req := none, hdr := 0x13, data := leBytes 0 32, count := 8, st := .running 143 }, live_of (by decide +kernel),
    by decide +kernel, by decide +kernel, by decide +kernel, by decide +kernel, by decide +kernel⟩,
   ⟨{ fabric with
      str.streams := [(3,
                       { strm1 with
                         steps := [3]
                         tiles := [(0,
                                    { req := none, hdr := 0x13, data := leBytes 0 32, count := 8
                                      st := .running 143 })] })]
      stn.stations := [(143, { st := .bound 9, run := some (3, 0, none) })] }, 143, 3, 0,
    { strm1 with
      steps := [3], tiles := [(0, { req := none, hdr := 0x13, data := leBytes 0 32, count := 8, st := .running 143 })] },
    { req := none, hdr := 0x13, data := leBytes 0 32, count := 8, st := .running 143 }, live_of (by decide +kernel),
    by decide +kernel, by decide +kernel, by decide +kernel, by decide +kernel⟩,
   ⟨{ fabric with
      str.streams := [(3,
                       { strm1 with
                         steps := [16]
                         tiles := [(0,
                                    { req := none, hdr := 0x13, data := leBytes 0 32, count := 8
                                      st := .running 143 })] })]
      stn.stations := [(143, { st := .bound 9, run := some (3, 0, none) })] }, 143, 3, 0, none, 9,
    live_of (by decide +kernel), by decide +kernel, by decide +kernel, by decide +kernel, by decide +kernel⟩,
   ⟨{ fabric with
      str.streams := [(3,
                       { strm1 with
                         steps := [16]
                         tiles := [(0,
                                    { req := none, hdr := 0x13, data := leBytes 0 32, count := 8
                                      st := .running 143, ended := true })] })]
      stn.stations := [(143, { st := .bound 9, run := some (3, 0, none) })], stk.waiting := [(0, [.tile 3 0])] }, 143, 3,
    0, none, live_of (by decide +kernel), by decide +kernel, by decide +kernel, by decide +kernel⟩,
   ⟨{ fabric with stn.stations := [(143, { st := .fenced 9 })] }, 143, 9, [], _, _, _, live_of (by decide +kernel),
    by decide +kernel, by decide +kernel, rfl, rfl, rfl⟩,
   ⟨{ shared with
      str.streams := [(3,
                       { strm1 with
                         steps := [16]
                         tiles := [(0,
                                    { req := none, hdr := 0x13, data := leBytes 0 32, count := 8
                                      st := .writing
                                      writes := [{ dev := 0, ext := some (1, 256), bytes := leBytes 0 32 }] })] })]
      com.dir := [(2 * 2 ^ 28 + 1, { st := .exclusive, owner := 7, tenant := 5, set := 0, way := 0, order := 0 })] }, 3,
    0,
    { strm1 with
      steps := [16]
      tiles := [(0,
                 { req := none, hdr := 0x13, data := leBytes 0 32, count := 8, st := .writing
                   writes := [{ dev := 0, ext := some (1, 256), bytes := leBytes 0 32 }] })] },
    { req := none, hdr := 0x13, data := leBytes 0 32, count := 8, st := .writing
      writes := [{ dev := 0, ext := some (1, 256), bytes := leBytes 0 32 }] }, _, _, live_of (by decide +kernel),
    by decide +kernel, by decide +kernel, rfl, fst_of (by decide +kernel)⟩,
   ⟨{ fabric with
      str.streams := [(3,
                       { strm1 with
                         steps := [16]
                         tiles := [(0,
                                    { req := none, hdr := 0x13, data := leBytes 0 32, count := 8
                                      st := .writing })] })] }, 3, 0,
    { strm1 with
      steps := [16], tiles := [(0, { req := none, hdr := 0x13, data := leBytes 0 32, count := 8, st := .writing })] },
    { req := none, hdr := 0x13, data := leBytes 0 32, count := 8, st := .writing }, _, _, _, _, _, _, _, _,
    live_of (by decide +kernel), by decide +kernel, by decide +kernel, rfl, fst_of (by decide +kernel), fun _ => rfl,
    fun h => absurd h (by decide +kernel), rfl, rfl, rfl, fun _ => rfl, fun h => absurd h (by decide +kernel),
    fun h => absurd h (by decide +kernel), rfl, by decide +kernel⟩,
   ⟨{ fabric with
      str.streams := [(3,
                       { strm1 with
                         steps := [16]
                         tiles := [(0,
                                    { req := none, hdr := 0x13, data := leBytes 0 32, count := 8
                                      st := .writing
                                      writes := [{ dev := 0, ext := some (1, 0), bytes := leBytes 0 32 }] })] })]
      pair.block := 0x1000700000000000000000000000000000000000000000000, pair.enabled := true, pair.role := .active
      pair.peerIn := true, pair.peerTen := [5], pool.extents := [(1, { ext1 with desc := ext1.desc + 256 })] }, 3, 0,
    { strm1 with
      steps := [16]
      tiles := [(0,
                 { req := none, hdr := 0x13, data := leBytes 0 32, count := 8, st := .writing
                   writes := [{ dev := 0, ext := some (1, 0), bytes := leBytes 0 32 }] })] },
    { req := none, hdr := 0x13, data := leBytes 0 32, count := 8, st := .writing
      writes := [{ dev := 0, ext := some (1, 0), bytes := leBytes 0 32 }] }, _, _, _, _, _, _, _, _,
    live_of (by decide +kernel), by decide +kernel, by decide +kernel, rfl, fst_of (by decide +kernel), fun _ => rfl,
    fun h => absurd h (by decide +kernel), rfl, rfl, rfl, fun _ => rfl, fun h => absurd h (by decide +kernel),
    fun h => absurd h (by decide +kernel), rfl, by decide +kernel, by decide +kernel⟩,
   ⟨{ fabric with
      str.streams := [(3,
                       { strm1 with
                         steps := [16]
                         tiles := [(0,
                                    { req := none, hdr := 0x43, data := leBytes 0 32, count := 8
                                      st := .writing
                                      writes := [{ dev := 0, ext := some (1, 0), bytes := leBytes 0 32 }] })] })]
      pair.block := 0x1000700000000000000000000000000000000000000000000, pair.enabled := true, pair.role := .active
      pair.peerIn := true, pair.peerTen := [5], pool.extents := [(1, { ext1 with desc := ext1.desc + 256 })] }, 3, 0,
    { strm1 with
      steps := [16]
      tiles := [(0,
                 { req := none, hdr := 0x43, data := leBytes 0 32, count := 8, st := .writing
                   writes := [{ dev := 0, ext := some (1, 0), bytes := leBytes 0 32 }] })] },
    { req := none, hdr := 0x43, data := leBytes 0 32, count := 8, st := .writing
      writes := [{ dev := 0, ext := some (1, 0), bytes := leBytes 0 32 }] }, _, _, _, _, _, _, _, _,
    live_of (by decide +kernel), by decide +kernel, by decide +kernel, rfl, fst_of (by decide +kernel), fun _ => rfl,
    fun h => absurd h (by decide +kernel), rfl, rfl, rfl, fun _ => rfl, fun h => absurd h (by decide +kernel),
    fun h => absurd h (by decide +kernel), rfl, by decide +kernel, by decide +kernel⟩,
   ⟨{ fabric with str.streams := [(3, { strm1 with head := head1 + 64, count := some 1 })] }, 3,
    { strm1 with head := head1 + 64, count := some 1 }, 0, _, _, live_of (by decide +kernel), by decide +kernel,
    by decide +kernel, by decide +kernel, by decide +kernel, by decide +kernel, by decide +kernel, rfl, rfl⟩,
   ⟨{ fabric with str.streams := [(3, strm1)] }, 3, strm1, live_of (by decide +kernel), by decide +kernel,
    by decide +kernel, by decide +kernel, by decide +kernel⟩,
   ⟨{ fabric with dev.tick := 1, str.streams := [(3, { strm1 with closed := true, freeDue := 1 })] }, 3,
    { strm1 with closed := true, freeDue := 1 }, live_of (by decide +kernel), by decide +kernel, by decide +kernel,
    by decide +kernel, by decide +kernel, by decide +kernel⟩⟩

theorem wit_ledger_events :
    (∃ s sid i v t n w k writes a r b, (Live s) ∧ (s.tileOf sid i = some (v, t)) ∧ (t.st = .running n) ∧
      (w = v.steps.getD t.step 0) ∧ (rsKind w = kLedger) ∧ (k = { tileReacher sid i v n with held := t.tr }) ∧
      (writes = (t.outs.flatMap fun o => s.placed k o.va o.bytes fun b => o.bad.contains (b / 256))) ∧
      (s.guardWrites (.tile sid i) writes = (.yes, a)) ∧
      (r = a.contribute (rsWindow w) (thLedger t.hdr) (thContrib t.hdr) ((a.fmt (rsIn w)).values t.data t.count) t.marks) ∧
      (b = r.2.dropGot (.tile sid i)) ∧ (r.1 ≠ .ok)) ∧
    (∃ s sid i v t n w k writes a r b, ∃ q y m, (Live s) ∧ (s.tileOf sid i = some (v, t)) ∧ (t.st = .running n) ∧
      (w = v.steps.getD t.step 0) ∧ (rsKind w = kLedger) ∧ (k = { tileReacher sid i v n with held := t.tr }) ∧
      (writes = (t.outs.flatMap fun o => s.placed k o.va o.bytes fun b => o.bad.contains (b / 256))) ∧
      (s.guardWrites (.tile sid i) writes = (.yes, a)) ∧
      (r = a.contribute (rsWindow w) (thLedger t.hdr) (thContrib t.hdr) ((a.fmt (rsIn w)).values t.data t.count) t.marks) ∧
      (b = r.2.dropGot (.tile sid i)) ∧ (r.1 = .ok) ∧ (q = b.putWrites writes) ∧ (y = t.meet q.1) ∧
      (m = (q.2.modTile sid i fun _ => { y with st := .writing, prev := some n, began := true }).mirrorWrites writes [] (.tile sid i)) ∧
      (m.1 = false)) ∧
    (∃ s sid i v t n w k writes a r b, ∃ q y m, (Live s) ∧ (s.tileOf sid i = some (v, t)) ∧ (t.st = .running n) ∧
      (w = v.steps.getD t.step 0) ∧ (rsKind w = kLedger) ∧ (k = { tileReacher sid i v n with held := t.tr }) ∧
      (writes = (t.outs.flatMap fun o => s.placed k o.va o.bytes fun b => o.bad.contains (b / 256))) ∧
      (s.guardWrites (.tile sid i) writes = (.yes, a)) ∧
      (r = a.contribute (rsWindow w) (thLedger t.hdr) (thContrib t.hdr) ((a.fmt (rsIn w)).values t.data t.count) t.marks) ∧
      (b = r.2.dropGot (.tile sid i)) ∧ (r.1 = .ok) ∧ (q = b.putWrites writes) ∧ (y = t.meet q.1) ∧
      (m = (q.2.modTile sid i fun _ => { y with st := .writing, prev := some n, began := true }).mirrorWrites writes [] (.tile sid i)) ∧
      (m.1 = true)) ∧
    (∃ (s : State), ∃ w t v l, (Live s) ∧ (s.seq.windows.find w = some v) ∧ (l = v.tiles.findD t {}) ∧
      (l.phase = .written)) ∧
    (∃ s w t v l, ∃ a k n va len dest, (Live s) ∧ (s.seq.windows.find w = some v) ∧ (l = v.tiles.findD t {}) ∧
      (l.phase = .writing) ∧ (k = s.tileHolder w t v.desc) ∧ (n = wTileElems v.desc t) ∧
      (va = wDestAddr v.desc + t * s.winRes v) ∧ (len = toSectors (s.packed (wFormat v.desc) n)) ∧
      (dest = (if wAccumulate v.desc then [Span.mk va len false] else []) ++ [Span.mk va len true]) ∧
      (s.guardSpans k (imageSpans v.desc t) = (.waits, a))) ∧
    (∃ s w t v l, ∃ a k n va len dest p c, (Live s) ∧ (s.seq.windows.find w = some v) ∧ (l = v.tiles.findD t {}) ∧
      (l.phase = .writing) ∧ (k = s.tileHolder w t v.desc) ∧ (n = wTileElems v.desc t) ∧
      (va = wDestAddr v.desc + t * s.winRes v) ∧ (len = toSectors (s.packed (wFormat v.desc) n)) ∧
      (dest = (if wAccumulate v.desc then [Span.mk va len false] else []) ++ [Span.mk va len true]) ∧
      (s.guardSpans k (imageSpans v.desc t) = (.yes, a)) ∧
      ((if wDest v.desc then a.readySpans k dest else (.yes, a)) = (p, c)) ∧ (p = .waits)) ∧
    (∃ s w t v l, ∃ a k n va len dest p c, ∃ e r u image out, (Live s) ∧ (s.seq.windows.find w = some v) ∧
      (l = v.tiles.findD t {}) ∧ (l.phase = .writing) ∧ (k = s.tileHolder w t v.desc) ∧ (n = wTileElems v.desc t) ∧
      (va = wDestAddr v.desc + t * s.winRes v) ∧ (len = toSectors (s.packed (wFormat v.desc) n)) ∧
      (dest = (if wAccumulate v.desc then [Span.mk va len false] else []) ++ [Span.mk va len true]) ∧
      (s.guardSpans k (imageSpans v.desc t) = (.yes, a)) ∧
      ((if wDest v.desc then a.readySpans k dest else (.yes, a)) = (p, c)) ∧ (r = e.wordsOf w t) ∧
      (u = r.2.2.markTile w t r.2.1) ∧
      (image = u.placed k (wImage v.desc t) (r.1.flatMap fun x => leBytes x 8) (fun b => (u.ltile w t).marks.contains (b / 8))) ∧
      (p = .yes) ∧ (wAccumulate v.desc = false → e = c) ∧
      (wAccumulate v.desc = true → ∀ f g, f = c.fmt (wFormat v.desc) → g = c.fetch k va len →
       e = (g.2.addTo w t 0 false (f.values g.1.bytes n)).markTile w t (f.badElems n g.1.isBad)) ∧
      (out = image ++ (if wDest v.desc then u.placed k va (padTo (u.resultOf v.desc t r.1).1 len) (fun b => (u.ltile w t).poison && (u.fmt (wFormat v.desc)).marked n (u.ltile w t).marks b) else []))) ∧
    (∃ s w t v l, ∃ a k n va len dest p c, ∃ e r u image, ∃ st, (Live s) ∧ (s.seq.windows.find w = some v) ∧
      (l = v.tiles.findD t {}) ∧ (l.phase = .writing) ∧ (k = s.tileHolder w t v.desc) ∧ (n = wTileElems v.desc t) ∧
      (va = wDestAddr v.desc + t * s.winRes v) ∧ (len = toSectors (s.packed (wFormat v.desc) n)) ∧
      (dest = (if wAccumulate v.desc then [Span.mk va len false] else []) ++ [Span.mk va len true]) ∧
      (s.guardSpans k (imageSpans v.desc t) = (.yes, a)) ∧
      ((if wDest v.desc then a.readySpans k dest else (.yes, a)) = (p, c)) ∧ (r = e.wordsOf w t) ∧
      (u = r.2.2.markTile w t r.2.1) ∧
      (image = u.placed k (wImage v.desc t) (r.1.flatMap fun x => leBytes x 8) (fun b => (u.ltile w t).marks.contains (b / 8))) ∧
      (p = .fails st) ∧ (e = c)) ∧
    (∃ (s : State), ∃ w v, (Live s) ∧ (s.seq.windows.find w = some v) ∧ (v.state = .opened) ∧ (wIdle v.desc ≠ 0) ∧
      (v.idleDue ≤ s.dev.tick)) :=
  ⟨⟨{ fabric with
      str.streams := [(3,
                       { strm1 with
                         steps := [3]
                         tiles := [(0,
                                    { req := none, hdr := 0x13, data := leBytes 0 32, count := 8
                                      st := .running 143 })] })] }, 3, 0,
    { strm1 with
      steps := [3], tiles := [(0, { req := none, hdr := 0x13, data := leBytes 0 32, count := 8, st := .running 143 })] },
    { req := none, hdr := 0x13, data := leBytes 0 32, count := 8, st := .running 143 }, 143, _, _, _, _, _, _,
    live_of (by decide +kernel), by decide +kernel, by decide +kernel, rfl, by decide +kernel, rfl, rfl,
    fst_of (by decide +kernel), rfl, rfl, by decide +kernel⟩,
   ⟨{ fabric with
      str.streams := [(3,
                       { strm1 with
                         steps := [3]
                         tiles := [(0,
                                    { req := none, hdr := 0x13, data := leBytes 0 32, count := 8
                                      st := .running 143 })] })]
      seq.windows := [(0, { window1 with state := .opened })] }, 3, 0,
    { strm1 with
      steps := [3], tiles := [(0, { req := none, hdr := 0x13, data := leBytes 0 32, count := 8, st := .running 143 })] },
    { req := none, hdr := 0x13, data := leBytes 0 32, count := 8, st := .running 143 }, 143, _, _, _, _, _, _, _, _, _,
    live_of (by decide +kernel), by decide +kernel, by decide +kernel, rfl, by decide +kernel, rfl, rfl,
    fst_of (by decide +kernel), rfl, rfl, by decide +kernel, rfl, rfl, rfl, by decide +kernel⟩,
   ⟨{ fabric with
      str.streams := [(3,
                       { strm1 with
                         steps := [3]
                         tiles := [(0,
                                    { req := none, hdr := 0x13, data := leBytes 0 32, count := 8
                                      st := .running 143, outs := [⟨0, leBytes 0 32, []⟩] })] })]
      seq.windows := [(0, { window1 with state := .opened })]
      pair.block := 0x1000700000000000000000000000000000000000000000000, pair.enabled := true, pair.role := .active
      pair.peerIn := true, pair.peerTen := [5], pool.extents := [(1, { ext1 with desc := ext1.desc + 256 })] }, 3, 0,
    { strm1 with
      steps := [3]
      tiles := [(0,
                 { req := none, hdr := 0x13, data := leBytes 0 32, count := 8, st := .running 143
                   outs := [⟨0, leBytes 0 32, []⟩] })] },
    { req := none, hdr := 0x13, data := leBytes 0 32, count := 8, st := .running 143, outs := [⟨0, leBytes 0 32, []⟩] },
    143, _, _, _, _, _, _, _, _, _, live_of (by decide +kernel), by decide +kernel, by decide +kernel, rfl,
    by decide +kernel, rfl, rfl, fst_of (by decide +kernel), rfl, rfl, by decide +kernel, rfl, rfl, rfl,
    by decide +kernel⟩,
   ⟨{ fabric with
      seq.windows := [(4,
                       { window1 with
                         desc := win1, state := .opened
                         tiles := [(0, { phase := .written, words := List.replicate 8 0 })] })] }, 4, 0,
    { window1 with desc := win1, state := .opened, tiles := [(0, { phase := .written, words := List.replicate 8 0 })] },
    _, live_of (by decide +kernel), by decide +kernel, rfl, by decide +kernel⟩,
   ⟨{ shared with
      seq.windows := [(4,
                       { window1 with
                         desc := win1, state := .opened
                         tiles := [(0, { phase := .writing, words := List.replicate 8 0 })] })]
      com.dir := [(2 * 2 ^ 28 + 4096, { st := .exclusive, owner := 7, tenant := 5, set := 0, way := 0, order := 0 })] },
    4, 0,
    { window1 with desc := win1, state := .opened, tiles := [(0, { phase := .writing, words := List.replicate 8 0 })] },
    _, _, _, _, _, _, _, live_of (by decide +kernel), by decide +kernel, rfl, by decide +kernel, rfl, rfl, rfl, rfl, rfl,
    fst_of (by decide +kernel)⟩,
   ⟨{ fabric with
      seq.windows := [(4,
                       { window1 with
                         desc := win1, state := .opened
                         tiles := [(0, { phase := .writing, words := List.replicate 8 0 })] })]
      pool.extents := [(1, { ext1 with desc := ext1.desc + 1024 })]
      pool.checkouts := [(2 ^ 25, { node := 7, gen := 0 })] }, 4, 0,
    { window1 with desc := win1, state := .opened, tiles := [(0, { phase := .writing, words := List.replicate 8 0 })] },
    _, _, _, _, _, _, _, .waits, _, live_of (by decide +kernel), by decide +kernel, rfl, by decide +kernel, rfl, rfl,
    rfl, rfl, rfl, fst_of (by decide +kernel), fst_of (by decide +kernel), by decide +kernel⟩,
   ⟨{ fabric with
      seq.windows := [(4,
                       { window1 with
                         desc := win1, state := .opened
                         tiles := [(0, { phase := .writing, words := List.replicate 8 0 })] })] }, 4, 0,
    { window1 with desc := win1, state := .opened, tiles := [(0, { phase := .writing, words := List.replicate 8 0 })] },
    _, _, _, _, _, _, _, .yes, _, _, _, _, _, _, live_of (by decide +kernel), by decide +kernel, rfl, by decide +kernel,
    rfl, rfl, rfl, rfl, rfl, fst_of (by decide +kernel), fst_of (by decide +kernel), rfl, rfl, rfl, by decide +kernel,
    fun _ => rfl, fun h => absurd h (by decide +kernel), rfl⟩,
   ⟨{ fabric with
      seq.windows := [(4,
                       { window1 with
                         desc := win1, state := .opened
                         tiles := [(0, { phase := .writing, words := List.replicate 8 0 })] })], pool.maps := [] }, 4, 0,
    { window1 with desc := win1, state := .opened, tiles := [(0, { phase := .writing, words := List.replicate 8 0 })] },
    _, _, _, _, _, _, _, (.fails .faultUnmapped), _, _, _, _, _, .faultUnmapped, live_of (by decide +kernel),
    by decide +kernel, rfl, by decide +kernel, rfl, rfl, rfl, rfl, rfl, fst_of (by decide +kernel),
    fst_of (by decide +kernel), rfl, rfl, rfl, by decide +kernel, rfl⟩,
   ⟨{ fabric with seq.windows := [(4, { window1 with desc := win1 + 2 ^ 240, state := .opened })] }, 4,
    { window1 with desc := win1 + 2 ^ 240, state := .opened }, live_of (by decide +kernel), by decide +kernel,
    by decide +kernel, by decide +kernel, by decide +kernel⟩⟩

/-- A query of one split, which runs at station 143. -/
def scoreTile : Tile :=
  { req := none, hdr := 0x6000000000000000000000000000000000000000000000053, data := List.replicate 32 0, count := 16
    st := .splitting, splits := [(0, { running := true, station := some 143 })] }
def scoring : Machine.Stream := { strm1 with steps := [4], tiles := [(0, scoreTile)] }
def scorer : Station := { st := .bound 9, run := some (3, 0, some 0) }
def scoreCtx : Context := { tenant := 5, desc := ctx1, enabled := true, frontiers := [1] }
def scored : State :=
  { fabric with str.streams := [(3, scoring)], stn.stations := [(143, scorer)], seq.contexts := [(6, scoreCtx)] }

theorem wit_sequence_events :
    (∃ s sid i v t c js, ∃ st, (Live s) ∧ (s.tileOf sid i = some (v, t)) ∧ (s.seq.contexts.find (thObj t.hdr) = some c) ∧
      (rsKind (v.steps.getD t.step 0) = kScore) ∧ (t.st = .ready) ∧ (v.closed = false ∨ t.began = true) ∧
      (s.appendPending t c.desc = false) ∧
      (js = (List.range (ceilDiv (qB c.desc) (qS c.desc))).filter (fun j => !(splitBlocks t c.desc j).isEmpty)) ∧
      (s.spanFault (tileReacher sid i v 160) (js.flatMap (s.splitSpans t c.desc) ++ s.outSpan v t i) = some st)) ∧
    (∃ s sid i v t c js, (Live s) ∧ (s.tileOf sid i = some (v, t)) ∧ (s.seq.contexts.find (thObj t.hdr) = some c) ∧
      (rsKind (v.steps.getD t.step 0) = kScore) ∧ (t.st = .ready) ∧ (v.closed = false ∨ t.began = true) ∧
      (s.appendPending t c.desc = false) ∧
      (js = (List.range (ceilDiv (qB c.desc) (qS c.desc))).filter (fun j => !(splitBlocks t c.desc j).isEmpty)) ∧
      (s.spanFault (tileReacher sid i v 160) (js.flatMap (s.splitSpans t c.desc) ++ s.outSpan v t i) = none)) ∧
    (∃ s sid i j v t n x c k a, (Live s) ∧ (s.tileOf sid i = some (v, t)) ∧
      (s.stn.stations.find? (fun x => x.2.run == some (sid, i, some j)) = some (n, x)) ∧
      (s.seq.contexts.find (thObj t.hdr) = some c) ∧
      (k = { tileReacher sid i v n with held := ((t.splits.find j).map (·.tr)).getD [] }) ∧
      (s.guardSpans k (s.splitSpans t c.desc j) = (.waits, a))) ∧
    (∃ s sid i j v t n x c k a, ∃ st, (Live s) ∧ (s.tileOf sid i = some (v, t)) ∧
      (s.stn.stations.find? (fun x => x.2.run == some (sid, i, some j)) = some (n, x)) ∧
      (s.seq.contexts.find (thObj t.hdr) = some c) ∧
      (k = { tileReacher sid i v n with held := ((t.splits.find j).map (·.tr)).getD [] }) ∧
      (s.guardSpans k (s.splitSpans t c.desc j) = (.fails st, a))) ∧
    (∃ s sid i j v t n x c k a, ∃ r p u, (Live s) ∧ (s.tileOf sid i = some (v, t)) ∧
      (s.stn.stations.find? (fun x => x.2.run == some (sid, i, some j)) = some (n, x)) ∧
      (s.seq.contexts.find (thObj t.hdr) = some c) ∧
      (k = { tileReacher sid i v n with held := ((t.splits.find j).map (·.tr)).getD [] }) ∧
      (s.guardSpans k (s.splitSpans t c.desc j) = (.yes, a)) ∧ (r = a.readSplit k t c.desc j) ∧
      (p = a.splitPartial c t r.1 r.2.1 j) ∧
      (u = r.2.2.modTile sid i (fun t => { t with
                                  splits := t.splits.adjust j fun x => { x with
                                    running := false, tr := [], ended := false, result := some p } }))) ∧
    (∃ s n v cmd, ∃ len, (Live s) ∧ (s.seq.contexts.find n = some v) ∧ (s.contextTiles n = []) ∧
      (v.holds = [.truncate len cmd])) ∧
    (∃ s n v cmd, (Live s) ∧ (s.seq.contexts.find n = some v) ∧ (s.contextTiles n = []) ∧ (v.holds = [.disable cmd])) ∧
    (∃ s n v, (Live s) ∧ (s.seq.contexts.find n = some v) ∧ (s.contextTiles n = []) ∧ (v.holds ≠ [])) ∧
    (∃ (s : State), ∃ k v b, (Live s) ∧ (s.seq.cadence.find k = some v) ∧ (cdEnabled v.block = true) ∧
      (v.due ≤ s.dev.tick) ∧ (b = v.next.getD v.block)) :=
  ⟨⟨{ fabric with
      pool.maps := []
      str.streams := [(3,
                       { strm1 with
                         steps := [4]
                         tiles := [(0,
                                    { req := none, hdr := 0x6000000000000000000000000000000000000000000000053
                                      data := List.replicate 32 0, count := 16 })] })]
      seq.contexts := [(6, { tenant := 5, desc := ctx1, enabled := true, frontiers := [1] })] }, 3, 0,
    { strm1 with
      steps := [4]
      tiles := [(0,
                 { req := none, hdr := 0x6000000000000000000000000000000000000000000000053
                   data := List.replicate 32 0, count := 16 })] },
    { req := none, hdr := 0x6000000000000000000000000000000000000000000000053, data := List.replicate 32 0, count := 16 },
    { tenant := 5, desc := ctx1, enabled := true, frontiers := [1] }, _, .faultUnmapped, live_of (by decide +kernel),
    by decide +kernel, by decide +kernel, by decide +kernel, by decide +kernel, by decide +kernel, by decide +kernel,
    rfl, by decide +kernel⟩,
   ⟨{ fabric with
      str.streams := [(3,
                       { strm1 with
                         steps := [4]
                         tiles := [(0,
                                    { req := none, hdr := 0x6000000000000000000000000000000000000000000000053
                                      data := List.replicate 32 0, count := 16 })] })]
      seq.contexts := [(6, { tenant := 5, desc := ctx1, enabled := true, frontiers := [1] })] }, 3, 0,
    { strm1 with
      steps := [4]
      tiles := [(0,
                 { req := none, hdr := 0x6000000000000000000000000000000000000000000000053
                   data := List.replicate 32 0, count := 16 })] },
    { req := none, hdr := 0x6000000000000000000000000000000000000000000000053, data := List.replicate 32 0, count := 16 },
    { tenant := 5, desc := ctx1, enabled := true, frontiers := [1] }, _, live_of (by decide +kernel), by decide +kernel,
    by decide +kernel, by decide +kernel, by decide +kernel, by decide +kernel, by decide +kernel, rfl, by decide +kernel⟩,
   ⟨{ scored with
      pool.extents := shared.pool.extents
      com := { commons := [(2, com1)]
               dir := [(2 * 2 ^ 28, { st := .exclusive, owner := 7, tenant := 5, set := 0, way := 0, order := 0 })] } },
    3, 0, 0, scoring, scoreTile, 143, scorer, scoreCtx, _, _, live_of (by decide +kernel), by decide +kernel,
    by decide +kernel, by decide +kernel, rfl, fst_of (by decide +kernel)⟩,
   ⟨{ scored with
      com := { commons := [(2, com1)]
               trans := [(2 * 2 ^ 28, { job := .sweep, waiting := List.replicate 64 .sweep })] } }, 3, 0, 0, scoring,
    scoreTile, 143, scorer, scoreCtx, _, _, .busyRetry, live_of (by decide +kernel), by decide +kernel,
    by decide +kernel, by decide +kernel, rfl, fst_of (by decide +kernel)⟩,
   ⟨scored, 3, 0, 0, scoring, scoreTile, 143, scorer, scoreCtx, _, _, _, _, _, live_of (by decide +kernel),
    by decide +kernel, by decide +kernel, by decide +kernel, rfl, fst_of (by decide +kernel), rfl, rfl, rfl⟩,
   ⟨{ fabric with
      seq.contexts := [(6,
                        { tenant := 5, desc := ctx1, enabled := true
                          holds := [.truncate 1 { session := 2, cmdId := 1 }] })] }, 6,
    { tenant := 5, desc := ctx1, enabled := true, holds := [.truncate 1 { session := 2, cmdId := 1 }] },
    { session := 2, cmdId := 1 }, 1, live_of (by decide +kernel), by decide +kernel, by decide +kernel, by decide +kernel⟩,
   ⟨{ fabric with
      seq.contexts := [(6,
                        { tenant := 5, desc := ctx1, enabled := true
                          holds := [.disable { session := 2, cmdId := 1 }] })] }, 6,
    { tenant := 5, desc := ctx1, enabled := true, holds := [.disable { session := 2, cmdId := 1 }] },
    { session := 2, cmdId := 1 }, live_of (by decide +kernel), by decide +kernel, by decide +kernel, by decide +kernel⟩,
   ⟨{ fabric with
      seq.contexts := [(6,
                        { tenant := 5, desc := ctx1, enabled := true
                          holds := [.truncate 1 { session := 2, cmdId := 1 },
                                    .disable { session := 2, cmdId := 2 }] })] }, 6,
    { tenant := 5, desc := ctx1, enabled := true
      holds := [.truncate 1 { session := 2, cmdId := 1 }, .disable { session := 2, cmdId := 2 }] },
    live_of (by decide +kernel), by decide +kernel, by decide +kernel, by decide +kernel⟩,
   ⟨{ fabric with dev.tick := 7, seq.cadence := [(3, { block := 256, due := 7 })] }, 3, { block := 256, due := 7 }, _,
    live_of (by decide +kernel), by decide +kernel, by decide +kernel, by decide +kernel, rfl⟩⟩

/-- A draft of extent `e` whose commit waits; its handle is known or not, the extent mirrored or not. -/
def commit1 : Req := { opcode := 0x16, p := pkt (leBytes 3 8 ++ leBytes 0 8) 0 }
def draft1 : Draft := { handle := 3, base := 0, number := 1, commit := some commit1 }
def drafted (bit : Nat) : Extent := { ext1 with desc := ext1.desc + bit, versions := [(0, {}), (1, {})], draft := some draft1 }
def withDraft (bit : Nat) : State :=
  { fabric with
    pool.extents := [(1, drafted bit)], pair.block := 0x1000700000000000000000000000000000000000000000000
    pair.enabled := true, pair.role := .active, pair.peerTen := [5] }
def noDraft (s : State) (bit : Nat) : State := s.putExtent 1 { drafted bit with current := 1, draft := none }

theorem new_version {s : State} {bit : Nat} (h : s.pool.handles.find draft1.handle = none) : ∀ v : State,
    v = s.putExtent 1 { drafted bit with current := draft1.number, draft := none } →
      (s.pool.handles.find draft1.handle = none → noDraft s bit = v) ∧
      ∀ x, s.pool.handles.find draft1.handle = some x → noDraft s bit = v.putHandle draft1.handle { x with st := .committed } := by
  rintro v rfl
  exact ⟨fun _ => rfl, fun x hx => by rw [h] at hx; cases hx⟩

theorem wit_pool_events :
    (∃ (s : State), ∃ e page c y u, (Live s) ∧ (s.pool.checkouts.find (e * 2 ^ 25 + page) = some c) ∧
      (c.recalling = true) ∧ (c.due ≤ s.dev.tick) ∧ (page < 2 ^ 25) ∧ (s.pool.extents.find e = some y) ∧
      (u = s.revertPage (s.framePage e page none))) ∧
    (∃ s e y d r, ∃ (u : State), ∃ w body, ∃ (m : PairRec), (Live s) ∧ (s.draftBusy e = false) ∧
      (s.pool.extents.find e = some y) ∧ (y.draft = some d) ∧ (d.commit = some r) ∧
      (∀ v, v = s.putExtent e { y with current := d.number, draft := none } →
       (s.pool.handles.find d.handle = none → u = v) ∧
       (∀ h, s.pool.handles.find d.handle = some h → u = v.putHandle d.handle { h with st := .committed })) ∧
      (w = versionWord d.handle d.number) ∧ (body = cookieOf r.p.payload ++ leBytes w 8) ∧
      (m = .extent e y.tenant y.desc 2 d.number) ∧ (u.isMirrored e = false)) ∧
    (∃ s e y d r, ∃ (u : State), ∃ w body, ∃ (m : PairRec), ∃ x v, (Live s) ∧ (s.draftBusy e = false) ∧
      (s.pool.extents.find e = some y) ∧ (y.draft = some d) ∧ (d.commit = some r) ∧
      (∀ v, v = s.putExtent e { y with current := d.number, draft := none } →
       (s.pool.handles.find d.handle = none → u = v) ∧
       (∀ h, s.pool.handles.find d.handle = some h → u = v.putHandle d.handle { h with st := .committed })) ∧
      (w = versionWord d.handle d.number) ∧ (body = cookieOf r.p.payload ++ leBytes w 8) ∧
      (m = .extent e y.tenant y.desc 2 d.number) ∧ (u.isMirrored e = true) ∧ (u.mirrors = true) ∧
      (x = u.pairSend .metaRec 0x71) ∧ (v = x.2.emit (.metaSent x.1 m))) ∧
    (∃ s e y d r, ∃ (u : State), ∃ w body, ∃ (m : PairRec), (Live s) ∧ (s.draftBusy e = false) ∧
      (s.pool.extents.find e = some y) ∧ (y.draft = some d) ∧ (d.commit = some r) ∧
      (∀ v, v = s.putExtent e { y with current := d.number, draft := none } →
       (s.pool.handles.find d.handle = none → u = v) ∧
       (∀ h, s.pool.handles.find d.handle = some h → u = v.putHandle d.handle { h with st := .committed })) ∧
      (w = versionWord d.handle d.number) ∧ (body = cookieOf r.p.payload ++ leBytes w 8) ∧
      (m = .extent e y.tenant y.desc 2 d.number) ∧ (u.isMirrored e = true) ∧ (u.mirrors = false)) ∧
    (∃ (s : State), ∃ n e c, (Live s) ∧ (s.pool.extents.find n = some e) ∧ (e.state = .revoking) ∧
      (s.invalFor (.revoke n) = false) ∧ (e.cmd = some c)) ∧
    (∃ (s : State), ∃ asid va m c, (Live s) ∧ (s.pool.maps.find? (fun m => m.asid == asid && m.vaBase == va) = some m) ∧
      (m.removing = true) ∧ (m.cmd = some c) ∧ (s.invalFor (.unmap asid va) = false)) ∧
    (∃ (s : State), ∃ t x, (Live s) ∧ (s.tenantOf t = some x) ∧ (x.sess = .ending) ∧ (x.markDone = false)) ∧
    (∃ (s : State), ∃ id n i, (Live s) ∧ (n < 161) ∧ (s.pool.invals.find id = some i) ∧ (s.inProgress id = true) ∧
      (bit i.engines n = true) ∧ (s.engineBusy n i.range = false)) ∧
    (∃ (s : State), ∃ id i, (Live s) ∧ (s.pool.invals.find id = some i) ∧ (i.slowNoted = false) ∧
      (i.issued + 16384 ≤ s.dev.tick)) ∧
    (∃ s g h, ∃ u, (Live s) ∧ (g < 589824) ∧ (h = s.granHome g) ∧
      ((s.gran h).st = .quarantine ∨ (s.gran h).st = .unfilled) ∧ (u = s.zeroGran (s.granCopy h)) ∧ (u.granCopy h = h)) ∧
    (∃ s g h, ∃ u, (Live s) ∧ (g < 589824) ∧ (h = s.granHome g) ∧
      ((s.gran h).st = .quarantine ∨ (s.gran h).st = .unfilled) ∧ (u = s.zeroGran (s.granCopy h)) ∧ (u.granCopy h ≠ h)) ∧
    (∃ (s : State), ∃ h t, (Live s) ∧ (s.com.trans.find h = some t)) ∧
    (∃ (s : State), ∃ h n due, (Live s) ∧ (s.com.wbRecs.find (h * 65536 + n) = some due) ∧ (due ≤ s.dev.tick)) ∧
    (∃ (s : State), ∃ h, (Live s) ∧ (∃ n, (h, n) ∈ s.com.lost) ∧ (s.com.trans.find h = none)) :=
  ⟨⟨{ fabric with dev.tick := 7, pool.checkouts := [(2 ^ 25, { node := 7, gen := 0, recalling := true, due := 7 })] }, 1,
    0, { node := 7, gen := 0, recalling := true, due := 7 }, ext1, _, live_of (by decide +kernel), by decide +kernel,
    by decide +kernel, by decide +kernel, by decide +kernel, by decide +kernel, rfl⟩,
   ⟨(withDraft 0), 1, (drafted 0), draft1, commit1, (noDraft (withDraft 0) 0), _, _, _, live_of (by decide +kernel),
    by decide +kernel, by decide +kernel, by decide +kernel, by decide +kernel, new_version rfl, rfl, rfl, rfl,
    by decide +kernel⟩,
   ⟨{ withDraft 256 with pair.peerIn := true }, 1, (drafted 256), draft1, commit1,
    (noDraft { withDraft 256 with pair.peerIn := true } 256), _, _, _, _, _, live_of (by decide +kernel),
    by decide +kernel, by decide +kernel, by decide +kernel, by decide +kernel, new_version rfl, rfl, rfl, rfl,
    by decide +kernel, by decide +kernel, rfl, rfl⟩,
   ⟨(withDraft 256), 1, (drafted 256), draft1, commit1, (noDraft (withDraft 256) 256), _, _, _,
    live_of (by decide +kernel), by decide +kernel, by decide +kernel, by decide +kernel, by decide +kernel,
    new_version rfl, rfl, rfl, rfl, by decide +kernel, by decide +kernel⟩,
   ⟨{ fabric with pool.extents := [(1, { ext1 with state := .revoking, cmd := some { session := 2, cmdId := 1 } })] }, 1,
    { ext1 with state := .revoking, cmd := some { session := 2, cmdId := 1 } }, { session := 2, cmdId := 1 },
    live_of (by decide +kernel), by decide +kernel, by decide +kernel, by decide +kernel, by decide +kernel⟩,
   ⟨{ fabric with pool.maps := [{ map1 with removing := true, cmd := some { session := 2, cmdId := 1 } }] }, 1, 0,
    { map1 with removing := true, cmd := some { session := 2, cmdId := 1 } }, { session := 2, cmdId := 1 },
    live_of (by decide +kernel), by decide +kernel, by decide +kernel, by decide +kernel, by decide +kernel⟩,
   ⟨{ fabric with ten.tenants := [(5, { ten5 with sess := .ending })] }, 5, { ten5 with sess := .ending },
    live_of (by decide +kernel), by decide +kernel, by decide +kernel, by decide +kernel⟩,
   ⟨{ fabric with
      pool.invals := [(3, { range := .phys [10100], purpose := .revoke 1, engines := 2 ^ 161 - 1, issued := 0 })] }, 3,
    160, { range := .phys [10100], purpose := .revoke 1, engines := 2 ^ 161 - 1, issued := 0 },
    live_of (by decide +kernel), by decide +kernel, by decide +kernel, by decide +kernel, by decide +kernel,
    by decide +kernel⟩,
   ⟨{ fabric with
      dev.tick := 16384
      pool.invals := [(3, { range := .phys [10100], purpose := .revoke 1, engines := 2 ^ 161 - 1, issued := 0 })] }, 3,
    { range := .phys [10100], purpose := .revoke 1, engines := 2 ^ 161 - 1, issued := 0 }, live_of (by decide +kernel),
    by decide +kernel, by decide +kernel, by decide +kernel⟩,
   ⟨{ fabric with pool.grans := [(589823, { st := .quarantine })] }, 589823, _, _, live_of (by decide +kernel),
    by decide +kernel, rfl, by decide +kernel, rfl, rfl⟩,
   ⟨{ fabric with
      pool.grans := [(589823, { st := .quarantine })]
      pool.invals := [(0, { range := .phys [589823], purpose := .migrate 589823 9216, engines := 1, issued := 0 })] },
    589823, _, _, live_of (by decide +kernel), by decide +kernel, rfl, by decide +kernel, rfl, by decide +kernel⟩,
   ⟨{ fabric with com.trans := [(5, { job := .sweep })] }, 5, { job := .sweep }, live_of (by decide +kernel),
    by decide +kernel⟩,
   ⟨{ fabric with com.wbRecs := [(5 * 65536 + 7, 0)] }, 5, 7, 0, live_of (by decide +kernel), by decide +kernel,
    by decide +kernel⟩,
   ⟨{ fabric with com.lost := [(5, 7)] }, 5, live_of (by decide +kernel), ⟨7, by decide⟩, by decide +kernel⟩⟩

theorem wit_space_events :
    (∃ s n asid va k u page a ways same w b c e, (Live s) ∧ (n < 161) ∧
      (s.pool.walks.find? (fun w => w.engine == n && w.asid == asid && w.va == va) = some k) ∧
      (u = { s with pool.walks := s.pool.walks.filter (· != k) }) ∧
      (u.pageAt asid va (fun _ => some k.version) = some page) ∧ (u.pool.spaces.find asid = some a) ∧
      (u.versionLives asid va k.version = true) ∧ (ways = bitsOf (waysOf u.pool.l2part a.tenant) 16) ∧
      (same = (fun c : BufEntry => entrySet c.whole c.va == entrySet (u.wholeEntry asid va) va)) ∧
      (ways.find? (fun w => (u.pool.l2.filter same).all (·.way != w)) = some w ∧ e = u ∨
       ways.find? (fun w => (u.pool.l2.filter same).all (·.way != w)) = none ∧ ways ≠ [] ∧ e = (u.draw 16).2 ∧
       w = ways.getD ((u.draw 16).1 % ways.length) 0) ∧
      (b = (⟨asid, va, u.wholeEntry asid va, k.version, a.tenant, page, 0⟩ : BufEntry)) ∧
      (c = ({ e with pool.l2 := { b with way := w } :: e.pool.l2.filter fun c => !(same c && c.way == w) } : State))) ∧
    (∃ (s : State), ∃ asid a grans u v w, (Live s) ∧ (s.pool.spaces.find asid = some a) ∧ (a.dead = true) ∧
      (a.inForce = false) ∧ (grans = a.pops.map (·.2) ++ a.growing.map (·.2.granule)) ∧
      (u = (s.putSpace asid { a with inForce := true, cmd := none, pops := [], growing := [] }).dropSpaces (· == asid)) ∧
      (v = (u.pool.maps.filter fun m => m.asid == asid && m.cmd.isNone).foldl (fun s m => s.invalidate (.virt asid (m.vaBase / 2097152) m.count) (.spaceMap asid m.vaBase)) u) ∧
      (w = (if grans = [] then v else v.invalidate (.phys grans) (.spaceGrans asid grans)).later ((a.growing.flatMap fun p => p.2.waiting.map (·.1)).map .run))) ∧
    (∃ (s : State), ∃ asid g a p, (Live s) ∧ (s.pool.spaces.find asid = some a) ∧ (a.growing.find g = some p)) ∧
    (∃ s n g asid a v p x d u, ∃ r, (Live s) ∧ (s.popWaiter n g = some (asid, a, v, p, x, d)) ∧
      (u = s.putSpace asid { a with growing := a.growing.put v { p with waiting := p.waiting.filter (· != (x, d)) } }) ∧
      (x = .request r)) ∧
    (∃ s n g asid a v p x d u, ∃ sid i, (Live s) ∧ (s.popWaiter n g = some (asid, a, v, p, x, d)) ∧
      (u = s.putSpace asid { a with growing := a.growing.put v { p with waiting := p.waiting.filter (· != (x, d)) } }) ∧
      (x = .tile sid i)) :=
  ⟨⟨{ fabric with pool.walks := [⟨160, 1, 65536, 0⟩] }, 160, 1, 65536, ⟨160, 1, 65536, 0⟩, _, 323201, space1, _, _, 0, _,
    _, _, live_of (by decide +kernel), by decide +kernel, by decide +kernel, rfl, by decide +kernel, by decide +kernel,
    by decide +kernel, rfl, rfl, .inl ⟨by decide +kernel, rfl⟩, rfl, rfl⟩,
   ⟨{ fabric with pool.spaces := [(1, { space1 with dead := true })] }, 1, { space1 with dead := true }, _, _, _, _,
    live_of (by decide +kernel), by decide +kernel, by decide +kernel, by decide +kernel, rfl, rfl, rfl, rfl⟩,
   ⟨{ fabric with
      pool.spaces := [(1,
                       { space1 with
                         growing := [(3,
                                      { granule := 200
                                        waiting := [(.request { opcode := 0x16
                                                                p := pkt (leBytes 3 8 ++ leBytes 0 8) 0 }, 0)] })] })] },
    1, 3,
    { space1 with
      growing := [(3,
                   { granule := 200
                     waiting := [(.request { opcode := 0x16, p := pkt (leBytes 3 8 ++ leBytes 0 8) 0 }, 0)] })] },
    { granule := 200, waiting := [(.request { opcode := 0x16, p := pkt (leBytes 3 8 ++ leBytes 0 8) 0 }, 0)] },
    live_of (by decide +kernel), by decide +kernel, by decide +kernel⟩,
   ⟨{ fabric with
      dev.tick := 64
      pool.spaces := [(1,
                       { space1 with
                         growing := [(3,
                                      { granule := 200
                                        waiting := [(.request { opcode := 0x16
                                                                p := pkt (leBytes 3 8 ++ leBytes 0 8) 0 }, 0)] })] })] },
    7, 3, 1,
    { space1 with
      growing := [(3,
                   { granule := 200
                     waiting := [(.request { opcode := 0x16, p := pkt (leBytes 3 8 ++ leBytes 0 8) 0 }, 0)] })] }, 3,
    { granule := 200, waiting := [(.request { opcode := 0x16, p := pkt (leBytes 3 8 ++ leBytes 0 8) 0 }, 0)] },
    (.request { opcode := 0x16, p := pkt (leBytes 3 8 ++ leBytes 0 8) 0 }), 0, _,
    { opcode := 0x16, p := pkt (leBytes 3 8 ++ leBytes 0 8) 0 }, live_of (by decide +kernel), by decide +kernel, rfl,
    by decide +kernel⟩,
   ⟨{ fabric with
      dev.tick := 64
      str.streams := [(3,
                       { strm2 with
                         tiles := [(0,
                                    { req := some { opcode := 4, p := pkt [] 0 }, hdr := 0x13
                                      data := leBytes 0 32, count := 8, st := .recall 143 })] })]
      pool.spaces := [(1, { space1 with growing := [(3, { granule := 200, waiting := [(.tile 3 0, 0)] })] })] }, 7, 3, 1,
    { space1 with growing := [(3, { granule := 200, waiting := [(.tile 3 0, 0)] })] }, 3,
    { granule := 200, waiting := [(.tile 3 0, 0)] }, (.tile 3 0), 0, _, 3, 0, live_of (by decide +kernel),
    by decide +kernel, rfl, by decide +kernel⟩⟩

theorem wit_tenant_events :
    (∃ (s : State), ∃ t x u, (Live s) ∧ (s.tenantOf t = some x) ∧ (x.sess = .ending) ∧ (x.markDone = true) ∧
      (s.tenantClear t = true) ∧
      (u = x.endCmds.foldl State.respondOk (s.putTenant t { keyHash := x.keyHash, reserve := x.reserve }))) ∧
    (∃ (s : State), ∃ t x, (Live s) ∧ (s.tenantOf t = some x) ∧ (x.sess = .ending) ∧ (x.markDone = true) ∧
      (s.tenantClear t = false)) ∧
    (∃ (s : State), ∃ t x, (Live s) ∧ (s.tenantOf t = some x) ∧ (x.sess = .ending) ∧ (x.markDone = true) ∧
      (x.slowNoted = false) ∧ (x.endTick + 16384 ≤ s.dev.tick)) ∧
    (∃ s t x, (Live s) ∧ (s.tenantOf t = some x) ∧ (x.sess = .opened) ∧ (x.oldEpoch ≠ none) ∧
      (∀ m ∈ s.pool.sectors, s.granOwner (sectorGran m.1) = some t → s.oldSector m.1 m.2 = false)) ∧
    (∃ (s : State), ∃ e ok, ∃ (m : Import), ∃ k, ∃ (u : State), (Live s) ∧ (s.ten.imports.find e = some m) ∧
      (s.importChannel e m = some k) ∧ (m.failed = false) ∧ (m.taken ≠ m.chunkCount) ∧
      (nextChunk m + 16 ≤ k.buffer.length) ∧
      (u = s.putBulk m.channel { k with buffer := k.buffer.drop (nextChunk m + 16) }) ∧ (ok = false)) ∧
    (∃ s e, ∃ (plain : List Byte), ∃ ok m k u, ∃ (w : TileWrite), ∃ y, (Live s) ∧ (s.ten.imports.find e = some m) ∧
      (s.importChannel e m = some k) ∧ (m.failed = false) ∧ (m.taken ≠ m.chunkCount) ∧
      (nextChunk m + 16 ≤ k.buffer.length) ∧
      (u = s.putBulk m.channel { k with buffer := k.buffer.drop (nextChunk m + 16) }) ∧ (ok = true) ∧
      (w = { dev := u.framePage e m.taken none * 65536, ext := some (e, 65536 * m.taken)
             bytes := padTo plain (nextChunk m) }) ∧ (y = (u.putWrite w).2.mirrorWrites [w] [] (.weights e))) ∧
    (∃ s n due, (Live s) ∧ (s.ten.barred.find n = some due) ∧ (due.1 ≤ s.dev.tick)) :=
  ⟨⟨{ fabric with
      pool.extents := [], pool.spaces := [], pool.maps := []
      ten.tenants := [(5, { ten5 with sess := .ending, markDone := true })] }, 5,
    { ten5 with sess := .ending, markDone := true }, _, live_of (by decide +kernel), by decide +kernel,
    by decide +kernel, by decide +kernel, by decide +kernel, rfl⟩,
   ⟨{ fabric with ten.tenants := [(5, { ten5 with sess := .ending, markDone := true })] }, 5,
    { ten5 with sess := .ending, markDone := true }, live_of (by decide +kernel), by decide +kernel, by decide +kernel,
    by decide +kernel, by decide +kernel⟩,
   ⟨{ fabric with dev.tick := 16384, ten.tenants := [(5, { ten5 with sess := .ending, markDone := true })] }, 5,
    { ten5 with sess := .ending, markDone := true }, live_of (by decide +kernel), by decide +kernel, by decide +kernel,
    by decide +kernel, by decide +kernel, by decide +kernel⟩,
   ⟨{ fabric with ten.tenants := [(5, { ten5 with sess := .opened, oldEpoch := some 1, epoch := 2 })] }, 5,
    { ten5 with sess := .opened, oldEpoch := some 1, epoch := 2 }, live_of (by decide +kernel), by decide +kernel,
    by decide +kernel, by decide +kernel, (by intro m hm; cases hm)⟩,
   ⟨{ fabric with
      ten.imports := [(1, { session := 2, tenant := 5, channel := 4, setId := 1, plainBytes := 16, chunkCount := 1 })]
      ctl.bulk := [(4, { session := 2, bytes := 32, buffer := leBytes 0 32, consumer := some (.weights 1), due := 7 })] },
    1, false, { session := 2, tenant := 5, channel := 4, setId := 1, plainBytes := 16, chunkCount := 1 },
    { session := 2, bytes := 32, buffer := leBytes 0 32, consumer := some (.weights 1), due := 7 }, _,
    live_of (by decide +kernel), by decide +kernel, by decide +kernel, by decide +kernel, by decide +kernel,
    by decide +kernel, rfl, by decide +kernel⟩,
   ⟨{ fabric with
      ten.imports := [(1, { session := 2, tenant := 5, channel := 4, setId := 1, plainBytes := 16, chunkCount := 1 })]
      ctl.bulk := [(4, { session := 2, bytes := 32, buffer := leBytes 0 32, consumer := some (.weights 1), due := 7 })] },
    1, (leBytes 0 16), true, { session := 2, tenant := 5, channel := 4, setId := 1, plainBytes := 16, chunkCount := 1 },
    { session := 2, bytes := 32, buffer := leBytes 0 32, consumer := some (.weights 1), due := 7 }, _, _, _,
    live_of (by decide +kernel), by decide +kernel, by decide +kernel, by decide +kernel, by decide +kernel,
    by decide +kernel, rfl, by decide +kernel, rfl, rfl⟩,
   ⟨{ fabric with dev.tick := 7, ten.barred := [(3, (7, 5))] }, 3, (7, 5), live_of (by decide +kernel),
    by decide +kernel, by decide +kernel⟩⟩

theorem wit_sector_events :
    (∃ s k m, (Live s) ∧ (k < 16) ∧ (bit s.ready.stack k = true) ∧ ((s.stack k).selfRef ≠ .entered) ∧ (m < stackSectors) ∧
      (s.unwritten (sectorPage (deviceSector k m)) = true)) ∧
    (∃ s k m, (Live s) ∧ (k < 16) ∧ (bit s.ready.stack k = true) ∧ ((s.stack k).selfRef ≠ .entered) ∧ (m < stackSectors) ∧
      (s.unwritten (sectorPage (deviceSector k m)) = false)) ∧
    (∃ s k m o, ∃ (b : List Byte), (Live s) ∧ (k < 16) ∧ (bit s.ready.stack k = true) ∧ ((s.stack k).selfRef ≠ .entered) ∧
      (m < stackSectors) ∧ (o + b.length ≤ 256) ∧ (b ≠ [])) ∧
    (∃ s k m op v, ∃ e₁ e₂, (Live s) ∧ (k < 16) ∧ (LoneAccess s k m op v) ∧
      (v.pool.fetches.has (deviceSector k m) = true) ∧ (op = .read e₁ e₂) ∧
      (s.unwritten (sectorPage (deviceSector k m)) = false)) ∧
    (∃ s k m op v, ∃ o b, (Live s) ∧ (k < 16) ∧ (LoneAccess s k m op v) ∧ (v.pool.fetches.has (deviceSector k m) = true) ∧
      (op = .write o b) ∧ (o + b.length ≤ 256) ∧ (b ≠ [])) ∧
    (∃ s k m e₁ e₂ n v u w, (Live s) ∧ (k < 16) ∧ (LoneAccess s k m (.read e₁ e₂) v) ∧ (n = deviceSector k m) ∧
      (s.unwritten (sectorPage n) = false) ∧ (v.pool.fetches.has n = false) ∧
      (u = (v.onDie n e₁.onDie).onDie n e₂.onDie) ∧
      (w = u.putSector n { u.secMeta n with rawErr := xorErr (u.secMeta n).rawErr e₁.sym }) ∧
      (u.secCond n e₁.sym e₂.sym ≠ .unc ∨ w.mirrorWants [n] = [])) ∧
    (∃ s k m e₁ e₂ n v u w, (Live s) ∧ (k < 16) ∧ (LoneAccess s k m (.read e₁ e₂) v) ∧ (n = deviceSector k m) ∧
      (s.unwritten (sectorPage n) = false) ∧ (v.pool.fetches.has n = false) ∧
      (u = (v.onDie n e₁.onDie).onDie n e₂.onDie) ∧
      (w = u.putSector n { u.secMeta n with rawErr := xorErr (u.secMeta n).rawErr e₁.sym }) ∧
      (u.secCond n e₁.sym e₂.sym = .unc) ∧ (w.mirrorWants [n] ≠ [])) ∧
    (∃ s k m o, ∃ (b : List Byte), ∃ n v w, (Live s) ∧ (k < 16) ∧ (LoneAccess s k m (.write o b) v) ∧
      (n = deviceSector k m) ∧ (o + b.length ≤ 256) ∧ (b ≠ []) ∧ (v.pool.fetches.has n = false) ∧
      (w = v.writeSector n o b false) ∧
      ((o = 0 ∧ b.length = 256) ∨ v.secCond n [] [] ≠ .unc ∨ (v.askMirror n []).1 = false) ∧
      (∀ t e i, v.nameSector n = some (t, 1, e, i) → w.1 = .integrity ∨ v.mirrorsTo e = false)) ∧
    (∃ s k m o, ∃ (b : List Byte), ∃ n v w, ∃ t e i, (Live s) ∧ (k < 16) ∧ (LoneAccess s k m (.write o b) v) ∧
      (n = deviceSector k m) ∧ (o + b.length ≤ 256) ∧ (b ≠ []) ∧ (v.pool.fetches.has n = false) ∧
      (w = v.writeSector n o b false) ∧
      ((o = 0 ∧ b.length = 256) ∨ v.secCond n [] [] ≠ .unc ∨ (v.askMirror n []).1 = false) ∧
      (v.nameSector n = some (t, 1, e, i)) ∧ (w.1 ≠ .integrity) ∧ (v.mirrorsTo e = true)) ∧
    (∃ s k m o, ∃ (b : List Byte), ∃ n v w, (Live s) ∧ (k < 16) ∧ (LoneAccess s k m (.write o b) v) ∧
      (n = deviceSector k m) ∧ (o + b.length ≤ 256) ∧ (b ≠ []) ∧ (v.pool.fetches.has n = false) ∧
      (w = v.writeSector n o b false) ∧ (o ≠ 0 ∨ b.length ≠ 256) ∧ (v.secCond n [] [] = .unc) ∧
      ((v.askMirror n []).1 = true)) ∧
    (∃ s k r u, (Live s) ∧ (k < 16) ∧ (r < 4) ∧
      (u = s.rankNow.modStack k (fun x => { x with caErrors := x.caErrors + 1 })) ∧
      ((s.stack k).pchs.flatMap (·.2.flight) = [])) ∧
    (∃ s k r u, ∃ v, (Live s) ∧ (k < 16) ∧ (r < 4) ∧
      (u = s.rankNow.modStack k (fun x => { x with caErrors := x.caErrors + 1 })) ∧
      (v = ((s.stack k).pchs.flatMap (·.2.flight)).foldl (fun y a => match a.op with
        | .read _ _ => y.carryOut k { a with op := .read {} {} }
        | .write _ _ => y.carryOut k a) u)) ∧
    (∃ s k p a rest, (Live s) ∧ (k < 16) ∧ (p < 64) ∧ (s.stackServes k = true) ∧ ((s.stack k).holds p = false) ∧
      ((s.pch k p).queue = a :: rest) ∧ (a.since + 6 ≤ s.dev.tick)) ∧
    (∃ s k, ∃ n u, (Live s) ∧ (k < 16) ∧ (s.stackServes k = true) ∧ ((s.stack k).mowPaused = false) ∧
      (s.nextRewrite k = some n) ∧ (s.mowSlot k n (s.slotClass ((s.granOwner (sectorGran n)).getD 0)) true = some u)) ∧
    (∃ s k, ∃ m u, (Live s) ∧ (k < 16) ∧ (s.stackServes k = true) ∧ ((s.stack k).mowPaused = false) ∧
      (s.nextRewrite k = none) ∧ (s.nextMow k (s.stack k).mowNext = some m) ∧
      (s.mowSlot k (deviceSector k m) 0xFFFF (s.mowLate k) = some u)) ∧
    (∃ s k, ∃ m u, (Live s) ∧ (k < 16) ∧ (s.stackServes k = true) ∧ ((s.stack k).mowPaused = false) ∧
      (s.nextRewrite k = none) ∧ (s.nextMow k (s.stack k).mowNext = none) ∧ (s.nextMow k 0 = some m) ∧
      (s.mowSlot k (deviceSector k m) 0xFFFF (s.mowLate k) = some u)) ∧
    (∃ (s : State), ∃ k m n f u, (Live s) ∧ (k < 16) ∧ (n = 36864 * 8192 * k + m) ∧ (s.pool.fetches.find n = some f) ∧
      (f.due ≤ s.dev.tick) ∧ (u = { s with pool.fetches := s.pool.fetches.del n }) ∧ (u.secCond n [] [] = .unc)) ∧
    (∃ s, (Live s) ∧ (s.pool.rankWin ≠ s.dev.tick / 16777216)) ∧
    (∃ s, (Live s) ∧ (s.pool.rankWin = s.dev.tick / 16777216)) ∧
    (∃ (s : State), ∃ (l : List (Nat × Nat)), ∃ (u : State), ∃ m src d, ∃ (w : State), (Live s) ∧ (u = s.passFree 9217) ∧
      (u.pool.migration = some m) ∧ (m.next ≠ 9216) ∧ (src = m.rank * 9216 + m.next) ∧
      (m.dest = some (d / 9216) ∧ d % 9216 = m.next ∨ m.dest = none ∧
       u.nextFree 0xFFFF ((m.rank / 4 + 1) % 16) (some m.rank) = some d) ∧ (u.copyHeld m d = false) ∧
      (∀ e, (u.gran src).use ≠ .extent e) ∧ (w = (u.moveGranule src d l).invalidate (.phys [src]) (.migrate src d))) :=
  ⟨⟨fabric, 0, 82739200, live_of (by decide +kernel), by decide +kernel, by decide +kernel, by decide +kernel,
    by decide +kernel, by decide +kernel⟩,
   ⟨{ fabric with pool.grans := [(10100, { st := .allocated, owner := 5, use := .extent 1 })], pool.wmap := [323200] },
    0, 82739200, live_of (by decide +kernel), by decide +kernel, by decide +kernel, by decide +kernel, by decide +kernel,
    by decide +kernel⟩,
   ⟨fabric, 15, (stackSectors - 1), 250, (List.replicate 6 0), live_of (by decide +kernel), by decide +kernel,
    by decide +kernel, by decide +kernel, by decide +kernel, by decide +kernel, by decide +kernel⟩,
   ⟨{ fabric with
      pool.grans := [(10100, { st := .allocated, owner := 5, use := .extent 1 })], pool.wmap := [323200]
      pool.fetches := [(82739200, { extent := 1, offset := 0, tag := 3, due := 7 })] }, 0, 82739200, (.read {} {}), _,
    {}, {}, live_of (by decide +kernel), by decide +kernel, lone_of (by decide +kernel), by decide +kernel,
    by decide +kernel, by decide +kernel⟩,
   ⟨{ fabric with
      pool.grans := [(10100, { st := .allocated, owner := 5, use := .extent 1 })], pool.wmap := [323200]
      pool.fetches := [(82739200, { extent := 1, offset := 0, tag := 3, due := 7 })] }, 0, 82739200,
    (.write 250 (List.replicate 6 0)), _, 250, (List.replicate 6 0), live_of (by decide +kernel), by decide +kernel,
    lone_of (by decide +kernel), by decide +kernel, by decide +kernel, by decide +kernel, by decide +kernel⟩,
   ⟨{ fabric with pool.grans := [(10100, { st := .allocated, owner := 5, use := .extent 1 })], pool.wmap := [323200] },
    0, 82739200, ⟨[], 2⟩, ⟨[(0, 0, 1)], 0⟩, _, _, _, _, live_of (by decide +kernel), by decide +kernel,
    lone_of (by decide +kernel), rfl, by decide +kernel, by decide +kernel, rfl, rfl, .inl (by decide +kernel)⟩,
   ⟨{ fabric with
      pool.grans := [(10100, { st := .allocated, owner := 5, use := .extent 1 })], pool.wmap := [323200]
      pair.block := 0x1000700000000000000000000000000000000000000000000, pair.enabled := true, pair.role := .active
      pair.peerIn := true, pair.peerTen := [5], pool.extents := [(1, { ext1 with desc := ext1.desc + 256 })] }, 0,
    82739200, ⟨[(0, 0, 1), (0, 1, 1)], 0⟩, ⟨[(0, 0, 1), (0, 1, 1)], 0⟩, _, _, _, _, live_of (by decide +kernel),
    by decide +kernel, lone_of (by decide +kernel), rfl, by decide +kernel, by decide +kernel, rfl, rfl,
    by decide +kernel, by decide +kernel⟩,
   ⟨fabric, 15, (stackSectors - 1), 250, (List.replicate 6 0), _, _, _, live_of (by decide +kernel), by decide +kernel,
    lone_of (by decide +kernel), rfl, by decide +kernel, by decide +kernel, by decide +kernel, rfl,
    .inr (.inl (by decide +kernel)), (by intro t e i h; exact absurd (Option.isSome_of_mem h) (by decide +kernel))⟩,
   ⟨{ fabric with
      pool.grans := [(10100, { st := .allocated, owner := 5, use := .extent 1 })], pool.wmap := [323200]
      pair.block := 0x1000700000000000000000000000000000000000000000000, pair.enabled := true, pair.role := .active
      pair.peerIn := true, pair.peerTen := [5], pool.extents := [(1, { ext1 with desc := ext1.desc + 256 })] }, 0,
    82739200, 250, (List.replicate 6 0), _, _, _, 5, 1, 0, live_of (by decide +kernel), by decide +kernel,
    lone_of (by decide +kernel), rfl, by decide +kernel, by decide +kernel, by decide +kernel, rfl,
    .inr (.inl (by decide +kernel)), by decide +kernel, by decide +kernel, by decide +kernel⟩,
   ⟨{ fabric with
      pool.grans := [(10100, { st := .allocated, owner := 5, use := .extent 1 })], pool.wmap := [323200]
      pair.block := 0x1000700000000000000000000000000000000000000000000, pair.enabled := true, pair.role := .active
      pair.peerIn := true, pair.peerTen := [5], pool.extents := [(1, { ext1 with desc := ext1.desc + 256 })]
      pool.sectors := [(82739200, { rawErr := [(0, 0, 1), (0, 1, 1)] })] }, 0, 82739200, 250, (List.replicate 6 0), _, _,
    _, live_of (by decide +kernel), by decide +kernel, lone_of (by decide +kernel), rfl, by decide +kernel,
    by decide +kernel, by decide +kernel, rfl, .inl (by decide +kernel), by decide +kernel, by decide +kernel⟩,
   ⟨fabric, 15, 3, _, live_of (by decide +kernel), by decide +kernel, by decide +kernel, rfl, by decide +kernel⟩,
   ⟨{ fabric with
      stk.units := [(15, { pchs := [(63, { flight := [{ sector := 7, sub := 0, since := 0, op := .read {} {} }] })] })] },
    15, 3, _, _, live_of (by decide +kernel), by decide +kernel, by decide +kernel, rfl, rfl⟩,
   ⟨{ fabric with
      dev.tick := 6
      stk.units := [(15, { pchs := [(63, { queue := [{ sector := 7, sub := 0, since := 0, op := .read {} {} }] })] })] },
    15, 63, { sector := 7, sub := 0, since := 0, op := .read {} {} }, [], live_of (by decide +kernel), by decide +kernel,
    by decide +kernel, by decide +kernel, by decide +kernel, by decide +kernel, by decide +kernel⟩,
   ⟨{ fabric with
      pool.grans := [(10100, { st := .allocated, owner := 5, use := .extent 1 })], pool.wmap := [323200]
      ten.tenants := [(5, { ten5 with oldEpoch := some 1, epoch := 2, keyId := 3 })]
      pool.sectors := [(82739200, { epoch := 1, keyId := 3 })] }, 0, 82739200, _, live_of (by decide +kernel),
    by decide +kernel, by decide +kernel, by decide +kernel, by decide +kernel, get_of (by decide +kernel)⟩,
   ⟨{ fabric with pool.grans := [(10100, { st := .allocated, owner := 5, use := .extent 1 })], pool.wmap := [323200] },
    0, 0, _, live_of (by decide +kernel), by decide +kernel, by decide +kernel, by decide +kernel, by decide +kernel,
    by decide +kernel, get_of (by decide +kernel)⟩,
   ⟨{ fabric with
      pool.grans := [(10100, { st := .allocated, owner := 5, use := .extent 1 })], pool.wmap := [323200]
      stk.units := [(0, { mowNext := 82739456 })] }, 0, 0, _, live_of (by decide +kernel), by decide +kernel,
    by decide +kernel, by decide +kernel, by decide +kernel, by decide +kernel, by decide +kernel,
    get_of (by decide +kernel)⟩,
   ⟨{ fabric with
      pool.grans := [(10100, { st := .allocated, owner := 5, use := .extent 1 })], pool.wmap := [323200]
      dev.tick := 7, pool.fetches := [(82739200, { extent := 1, offset := 0, tag := 3, due := 7 })]
      pool.sectors := [(82739200, { rawErr := [(0, 0, 1), (0, 1, 1)] })] }, 0, 82739200, _,
    { extent := 1, offset := 0, tag := 3, due := 7 }, _, live_of (by decide +kernel), by decide +kernel, rfl,
    by decide +kernel, by decide +kernel, rfl, by decide +kernel⟩,
   ⟨{ fabric with dev.tick := 16777216 }, live_of (by decide +kernel), by decide +kernel⟩,
   ⟨{ fabric with dev.tick := 16777215 }, live_of (by decide +kernel), by decide +kernel⟩,
   ⟨{ fabric with
      pool.grans := [(9216, { st := .allocated, owner := 5, use := .version 1 })]
      pool.migration := some { rank := 1, dest := some 2 } }, [], _, { rank := 1, dest := some 2 }, _, 18432, _,
    live_of (by decide +kernel), rfl, by decide +kernel, by decide +kernel, rfl, by decide +kernel, by decide +kernel,
    use_ne (by decide +kernel), rfl⟩⟩

/-- Stack 15 as `x`, and its pseudo-channel `p` as `q`. -/
def withStack (x : Machine.Stack) : State := { fabric with stk.units := [(15, x)] }
def withPch (p : Nat) (q : Pch) : State := withStack { pchs := [(p, q)] }

theorem wit_stack_events :
    (∃ s k p r b x q y, (Live s) ∧ (k < 16) ∧ (p < 64) ∧ (r < 4) ∧ (b < 16) ∧ (x = s.stack k) ∧ (x.selfRef ≠ .entered) ∧
      (q = x.pch p) ∧ (y = q.banks.findD (bankKey r b) {}) ∧ (s.bankWaits k p r b = true) ∧ (x.holds p = false) ∧
      (y.postponed < 8)) ∧
    (∃ s k p r b x q y, (Live s) ∧ (k < 16) ∧ (p < 64) ∧ (r < 4) ∧ (b < 16) ∧ (x = s.stack k) ∧ (x.selfRef ≠ .entered) ∧
      (q = x.pch p) ∧ (y = q.banks.findD (bankKey r b) {}) ∧
      (s.bankWaits k p r b = false ∨ x.holds p = true ∨ 8 ≤ y.postponed)) ∧
    (∃ (s : State), ∃ k c x, (Live s) ∧ (k < 16) ∧ (x = s.stack k) ∧ (c ≤ 83)) ∧
    (∃ (s : State), ∃ k, ∃ (c : Int), ∃ x, (Live s) ∧ (k < 16) ∧ (x = s.stack k) ∧ (83 < c) ∧ (c ≤ 85)) ∧
    (∃ (s : State), ∃ k c x, (Live s) ∧ (k < 16) ∧ (x = s.stack k) ∧ (85 < c) ∧ (c ≤ 90)) ∧
    (∃ (s : State), ∃ k, ∃ (c : Int), ∃ x, (Live s) ∧ (k < 16) ∧ (x = s.stack k) ∧ (90 < c) ∧ (c ≤ 95)) ∧
    (∃ (s : State), ∃ k c x, (Live s) ∧ (k < 16) ∧ (x = s.stack k) ∧ (95 < c) ∧ (c ≤ 105)) ∧
    (∃ (s : State), ∃ k c x, (Live s) ∧ (k < 16) ∧ (x = s.stack k) ∧ (105 < c)) ∧
    (∃ s k u, (Live s) ∧ (k < 16) ∧ ((s.stack k).selfRef = .entering) ∧ ((s.stack k).held = false) ∧
      (s.pwr.sleep ≠ .waking ∨ s.dev.halt ≠ none) ∧ (u = (s.modStack k fun x => { x with selfRef := .none }).runStack k) ∧
      (∀ q ∈ (u.stack k).pchs, q.2.queue = [])) ∧
    (∃ s k u, (Live s) ∧ (k < 16) ∧ ((s.stack k).selfRef = .entering) ∧ ((s.stack k).held = false) ∧
      (s.pwr.sleep ≠ .waking ∨ s.dev.halt ≠ none) ∧ (u = (s.modStack k fun x => { x with selfRef := .none }).runStack k) ∧
      (∃ q ∈ (u.stack k).pchs, q.2.queue ≠ [])) ∧
    (∃ (s : State), ∃ k, ∃ (c : Int), ∃ x far, (Live s) ∧ (k < 16) ∧ (x = s.stack k) ∧ (x.selfRef = .entered) ∧
      (s.pwr.sleep = .waking) ∧ (s.dev.halt = none) ∧ (far = decide (c - x.entryTemp > 10 ∨ x.entryTemp - c > 10))) ∧
    (∃ s k ok m x d, (Live s) ∧ (k < 16) ∧ (x = s.stack k) ∧ (s.dev.phase = .running) ∧ (x.failed = false) ∧
      (x.step < 9) ∧ (m < 2 ^ 2304) ∧ (d = s.draw 64) ∧ (ok = true) ∧ (x.step < 5)) ∧
    (∃ s k ok m x d, (Live s) ∧ (k < 16) ∧ (x = s.stack k) ∧ (s.dev.phase = .running) ∧ (x.failed = false) ∧
      (x.step < 9) ∧ (m < 2 ^ 2304) ∧ (d = s.draw 64) ∧ (ok = true) ∧ (x.step = 5)) ∧
    (∃ s k ok m x d, (Live s) ∧ (k < 16) ∧ (x = s.stack k) ∧ (s.dev.phase = .running) ∧ (x.failed = false) ∧
      (x.step < 9) ∧ (m < 2 ^ 2304) ∧ (d = s.draw 64) ∧ (ok = true) ∧ (x.step = 6)) ∧
    (∃ s k ok m x d, (Live s) ∧ (k < 16) ∧ (x = s.stack k) ∧ (s.dev.phase = .running) ∧ (x.failed = false) ∧
      (x.step < 9) ∧ (m < 2 ^ 2304) ∧ (d = s.draw 64) ∧ (ok = true) ∧ (x.step = 7) ∧ (s.repairs k x.badPins = true) ∧
      (x.badPins = 0)) ∧
    (∃ s k ok m x d, (Live s) ∧ (k < 16) ∧ (x = s.stack k) ∧ (s.dev.phase = .running) ∧ (x.failed = false) ∧
      (x.step < 9) ∧ (m < 2 ^ 2304) ∧ (d = s.draw 64) ∧ (ok = true) ∧ (x.step = 7) ∧ (s.repairs k x.badPins = true) ∧
      (x.badPins ≠ 0)) ∧
    (∃ s k ok m x d, (Live s) ∧ (k < 16) ∧ (x = s.stack k) ∧ (s.dev.phase = .running) ∧ (x.failed = false) ∧
      (x.step < 9) ∧ (m < 2 ^ 2304) ∧ (d = s.draw 64) ∧ (ok = true) ∧ (x.step = 8)) ∧
    (∃ s k ok m x d, (Live s) ∧ (k < 16) ∧ (x = s.stack k) ∧ (s.dev.phase = .running) ∧ (x.failed = false) ∧
      (x.step < 9) ∧ (m < 2 ^ 2304) ∧ (d = s.draw 64) ∧ (ok = false ∨ x.step = 7 ∧ s.repairs k x.badPins = false) ∧
      (x.attempt < 3)) ∧
    (∃ s k ok m x d, (Live s) ∧ (k < 16) ∧ (x = s.stack k) ∧ (s.dev.phase = .running) ∧ (x.failed = false) ∧
      (x.step < 9) ∧ (m < 2 ^ 2304) ∧ (d = s.draw 64) ∧ (ok = false ∨ x.step = 7 ∧ s.repairs k x.badPins = false) ∧
      (3 ≤ x.attempt)) ∧
    (∃ (s : State), ∃ k u, (Live s) ∧ (k < 16) ∧ (s.dev.phase = .running) ∧ ((s.stack k).failed = false) ∧
      ((s.stack k).step = 9) ∧ (u = s.putStack k { s.stack k with step := 10 })) ∧
    (∃ s k p, ∃ (l : List Nat), ∃ q u v, (Live s) ∧ (k < 16) ∧ (p < 64) ∧ (q = s.pch k p) ∧ (bit q.ctl 0 = true) ∧
      (u = (if bits q.ctl 7 6 = 2 then s else (l.take 36).zipIdx.foldl (fun y m => if m.1 = 0 then y else y.putPin k p m.2 { y.pinOf k p m.2 with
                                                                          cmp := min 65535 ((y.pinOf k p m.2).cmp + m.1) }) s)) ∧
      (v = (u.modPch k p fun y => { y with
              ctl := setBit y.ctl 0 false, running := none
              beats := if bits q.ctl 7 6 = 2 then y.beats else (y.beats + bits y.ctl 63 48 * 1024 * 8) % 2 ^ 48
              training := if bits q.ctl 7 6 = 1 then y.training else some (y.ctl, y.user) })) ∧ (q.running = none)) ∧
    (∃ s k p, ∃ (l : List Nat), ∃ q u v, ∃ c, (Live s) ∧ (k < 16) ∧ (p < 64) ∧ (q = s.pch k p) ∧ (bit q.ctl 0 = true) ∧
      (u = (if bits q.ctl 7 6 = 2 then s else (l.take 36).zipIdx.foldl (fun y m => if m.1 = 0 then y else y.putPin k p m.2 { y.pinOf k p m.2 with
                                                                          cmp := min 65535 ((y.pinOf k p m.2).cmp + m.1) }) s)) ∧
      (v = (u.modPch k p fun y => { y with
              ctl := setBit y.ctl 0 false, running := none
              beats := if bits q.ctl 7 6 = 2 then y.beats else (y.beats + bits y.ctl 63 48 * 1024 * 8) % 2 ^ 48
              training := if bits q.ctl 7 6 = 1 then y.training else some (y.ctl, y.user) })) ∧ (q.running = some c)) ∧
    (∃ s k p, ∃ (l : List PinEye), ∃ (es : List PinEye), ∃ u, (Live s) ∧ (k < 16) ∧ (p < 64) ∧ (s.stackServes k = true) ∧
      (s.trackDue k p = true) ∧ (es = l.filter (·.pin < 36)) ∧ (u = es.foldl (fun u e => u.trackPin k p e) s) ∧
      (es.any (·.read < 16) = false ∨ (u.pch k p).retrain.isSome = true ∨
       ((u.stack k).pchs.any fun q => q.2.retrain.isSome) = false ∧ (u.pch k p).fullDue = true)) ∧
    (∃ s k p, ∃ (l : List PinEye), ∃ (es : List PinEye), ∃ u, (Live s) ∧ (k < 16) ∧ (p < 64) ∧ (s.stackServes k = true) ∧
      (s.trackDue k p = true) ∧ (es = l.filter (·.pin < 36)) ∧ (u = es.foldl (fun u e => u.trackPin k p e) s) ∧
      (es.any (·.read < 16) = true) ∧ (((u.stack k).pchs.any fun q => q.2.retrain.isSome) = false) ∧
      ((u.pch k p).retrain = none) ∧ ((u.pch k p).fullDue = false)) ∧
    (∃ s k p, ∃ (l : List PinEye), ∃ (es : List PinEye), ∃ u, (Live s) ∧ (k < 16) ∧ (p < 64) ∧ (s.stackServes k = true) ∧
      (s.trackDue k p = true) ∧ (es = l.filter (·.pin < 36)) ∧ (u = es.foldl (fun u e => u.trackPin k p e) s) ∧
      (es.any (·.read < 16) = true) ∧ (((u.stack k).pchs.any fun q => q.2.retrain.isSome) = true) ∧
      ((u.pch k p).retrain = none)) ∧
    (∃ s k p, ∃ (l : List PinEye), ∃ (es : List PinEye), ∃ v, ∃ r, (Live s) ∧ (k < 16) ∧ (p < 64) ∧
      (es = l.filter (·.pin < 36)) ∧
      (v = es.foldl (fun u e => u.putPin k p e.pin { u.pinOf k p e.pin with
                       eyeR := e.read, eyeW := e.write, eyeV := e.vref }) (s.modPch k p fun q => { q with
                                                                             retrain := none, fullDue := false
                                                                             training := none })) ∧
      ((s.pch k p).retrain = some r) ∧ (r.inSlice = false) ∧ (s.stackServes k = true) ∧
      (r.first = none ∨ r.since + 313 ≤ s.dev.tick)) ∧
    (∃ s k p ok, ∃ (l : List PinEye), ∃ (es : List PinEye), ∃ v, (Live s) ∧ (k < 16) ∧ (p < 64) ∧
      (es = l.filter (·.pin < 36)) ∧
      (v = es.foldl (fun u e => u.putPin k p e.pin { u.pinOf k p e.pin with
                       eyeR := e.read, eyeW := e.write, eyeV := e.vref }) (s.modPch k p fun q => { q with
                                                                             retrain := none, fullDue := false
                                                                             training := none })) ∧
      ((∃ r, (s.pch k p).retrain = some r ∧ r.inSlice = true ∧ (ok = true ∨ es ≠ [])) ∨ (s.pch k p).retrain = none ∧
       (s.pch k p).fullDue = true ∧ s.stackServes k = true) ∧ (ok = true) ∧ (es.any PinEye.small = false)) ∧
    (∃ s k p ok, ∃ (l : List PinEye), ∃ (es : List PinEye), ∃ v, (Live s) ∧ (k < 16) ∧ (p < 64) ∧
      (es = l.filter (·.pin < 36)) ∧
      (v = es.foldl (fun u e => u.putPin k p e.pin { u.pinOf k p e.pin with
                       eyeR := e.read, eyeW := e.write, eyeV := e.vref }) (s.modPch k p fun q => { q with
                                                                             retrain := none, fullDue := false
                                                                             training := none })) ∧
      ((∃ r, (s.pch k p).retrain = some r ∧ r.inSlice = true ∧ (ok = true ∨ es ≠ [])) ∨ (s.pch k p).retrain = none ∧
       (s.pch k p).fullDue = true ∧ s.stackServes k = true) ∧ (ok = false ∨ es.any PinEye.small = true)) ∧
    (∃ s k p ok, ∃ (l : List PinEye), ∃ (es : List PinEye), ∃ v, ∃ r, (Live s) ∧ (k < 16) ∧ (p < 64) ∧
      (es = l.filter (·.pin < 36)) ∧
      (v = es.foldl (fun u e => u.putPin k p e.pin { u.pinOf k p e.pin with
                       eyeR := e.read, eyeW := e.write, eyeV := e.vref }) (s.modPch k p fun q => { q with
                                                                             retrain := none, fullDue := false
                                                                             training := none })) ∧
      ((s.pch k p).retrain = some r) ∧ (r.inSlice = true) ∧ (ok = false) ∧ (es = [])) :=
  ⟨⟨(withPch 0 { queue := [{ sector := 301989887, sub := 0, since := 0, op := .read {} {} }]
                 banks := [(bankKey 3 0, { postponed := 7 })] }), 15, 0, 3, 0, _, _, _, live_of (by decide +kernel),
    by decide +kernel, by decide +kernel, by decide +kernel, by decide +kernel, rfl, by decide +kernel, rfl, rfl,
    by decide +kernel, by decide +kernel, by decide +kernel⟩,
   ⟨(withPch 0 { queue := [{ sector := 301989887, sub := 0, since := 0, op := .read {} {} }]
                 banks := [(bankKey 3 0, { postponed := 8 })] }), 15, 0, 3, 0, _, _, _, live_of (by decide +kernel),
    by decide +kernel, by decide +kernel, by decide +kernel, by decide +kernel, rfl, by decide +kernel, rfl, rfl,
    by decide +kernel⟩,
   ⟨fabric, 15, 83, _, live_of (by decide +kernel), by decide +kernel, rfl, by decide +kernel⟩,
   ⟨fabric, 15, 85, _, live_of (by decide +kernel), by decide +kernel, rfl, by decide +kernel, by decide +kernel⟩,
   ⟨fabric, 15, 90, _, live_of (by decide +kernel), by decide +kernel, rfl, by decide +kernel, by decide +kernel⟩,
   ⟨fabric, 15, 95, _, live_of (by decide +kernel), by decide +kernel, rfl, by decide +kernel, by decide +kernel⟩,
   ⟨fabric, 15, 105, _, live_of (by decide +kernel), by decide +kernel, rfl, by decide +kernel, by decide +kernel⟩,
   ⟨fabric, 15, 106, _, live_of (by decide +kernel), by decide +kernel, rfl, by decide +kernel⟩,
   ⟨(withStack { selfRef := .entering }), 15, _, live_of (by decide +kernel), by decide +kernel, by decide +kernel,
    by decide +kernel, by decide +kernel, rfl, (by intro q h; exact absurd (List.ne_nil_of_mem h) (by decide +kernel))⟩,
   ⟨(withStack { selfRef := .entering
                 pchs := [(63,
                           { queue := List.replicate 300 { sector := 301989887, sub := 0, since := 0
                                                           op := .read {} {} } })] }), 15, _,
    live_of (by decide +kernel), by decide +kernel, by decide +kernel, by decide +kernel, by decide +kernel, rfl,
    by decide +kernel⟩,
   ⟨{ withStack { selfRef := .entered } with pwr.sleep := .waking }, 15, 11, _, _, live_of (by decide +kernel),
    by decide +kernel, rfl, by decide +kernel, by decide +kernel, by decide +kernel, rfl⟩,
   ⟨(withStack { step := 4 }), 15, true, (2 ^ 2304 - 1), _, _, live_of (by decide +kernel), by decide +kernel, rfl,
    by decide +kernel, by decide +kernel, by decide +kernel, by decide +kernel, rfl, by decide +kernel, by decide +kernel⟩,
   ⟨(withStack { step := 5 }), 15, true, (2 ^ 2304 - 1), _, _, live_of (by decide +kernel), by decide +kernel, rfl,
    by decide +kernel, by decide +kernel, by decide +kernel, by decide +kernel, rfl, by decide +kernel, by decide +kernel⟩,
   ⟨(withStack { step := 6 }), 15, true, (2 ^ 2304 - 1), _, _, live_of (by decide +kernel), by decide +kernel, rfl,
    by decide +kernel, by decide +kernel, by decide +kernel, by decide +kernel, rfl, by decide +kernel, by decide +kernel⟩,
   ⟨(withStack { step := 7 }), 15, true, (2 ^ 2304 - 1), _, _, live_of (by decide +kernel), by decide +kernel, rfl,
    by decide +kernel, by decide +kernel, by decide +kernel, by decide +kernel, rfl, by decide +kernel,
    by decide +kernel, by decide +kernel, by decide +kernel⟩,
   ⟨(withStack { step := 7, badPins := 1 }), 15, true, (2 ^ 2304 - 1), _, _, live_of (by decide +kernel),
    by decide +kernel, rfl, by decide +kernel, by decide +kernel, by decide +kernel, by decide +kernel, rfl,
    by decide +kernel, by decide +kernel, by decide +kernel, by decide +kernel⟩,
   ⟨(withStack { step := 8 }), 15, true, (2 ^ 2304 - 1), _, _, live_of (by decide +kernel), by decide +kernel, rfl,
    by decide +kernel, by decide +kernel, by decide +kernel, by decide +kernel, rfl, by decide +kernel, by decide +kernel⟩,
   ⟨(withStack { step := 8, attempt := 2 }), 15, false, 0, _, _, live_of (by decide +kernel), by decide +kernel, rfl,
    by decide +kernel, by decide +kernel, by decide +kernel, by decide +kernel, rfl, by decide +kernel, by decide +kernel⟩,
   ⟨(withStack { step := 7, attempt := 3, badPins := 2 ^ 36 - 1 }), 15, true, 0, _, _, live_of (by decide +kernel),
    by decide +kernel, rfl, by decide +kernel, by decide +kernel, by decide +kernel, by decide +kernel, rfl,
    .inr (by decide +kernel), by decide +kernel⟩,
   ⟨{ fabric with stk.units := [(15, { step := 9 })] }, 15, _, live_of (by decide +kernel), by decide +kernel,
    by decide +kernel, by decide +kernel, by decide +kernel, rfl⟩,
   ⟨(withPch 63 { ctl := 0x81 }), 15, 63, [1], _, _, _, live_of (by decide +kernel), by decide +kernel,
    by decide +kernel, rfl, by decide +kernel, rfl, rfl, by decide +kernel⟩,
   ⟨(withPch 63 { ctl := 0x41, running := some { session := 2, cmdId := 1 } }), 15, 63, [1], _, _, _,
    { session := 2, cmdId := 1 }, live_of (by decide +kernel), by decide +kernel, by decide +kernel, rfl,
    by decide +kernel, rfl, rfl, by decide +kernel⟩,
   ⟨{ fabric with dev.tick := 524288 }, 15, 63, [{ pin := 35, read := 16, write := 24, vref := 8 }], _, _,
    live_of (by decide +kernel), by decide +kernel, by decide +kernel, by decide +kernel, by decide +kernel, rfl, rfl,
    .inl (by decide +kernel)⟩,
   ⟨{ fabric with dev.tick := 524288 }, 15, 63, [{ pin := 35, read := 15, write := 24, vref := 8 }], _, _,
    live_of (by decide +kernel), by decide +kernel, by decide +kernel, by decide +kernel, by decide +kernel, rfl, rfl,
    by decide +kernel, by decide +kernel, by decide +kernel, by decide +kernel⟩,
   ⟨{ withPch 62 { retrain := some { since := 0, inSlice := false } } with dev.tick := 524288 }, 15, 63,
    [{ pin := 35, read := 15, write := 24, vref := 8 }], _, _, live_of (by decide +kernel), by decide +kernel,
    by decide +kernel, by decide +kernel, by decide +kernel, rfl, rfl, by decide +kernel, by decide +kernel,
    by decide +kernel⟩,
   ⟨{ withPch 63 { retrain := some { since := 0, inSlice := false, first := some 0 } } with dev.tick := 313 }, 15, 63,
    [], _, _, { since := 0, inSlice := false, first := some 0 }, live_of (by decide +kernel), by decide +kernel,
    by decide +kernel, rfl, rfl, by decide +kernel, by decide +kernel, by decide +kernel, by decide +kernel⟩,
   ⟨(withPch 63 { retrain := some { since := 0, inSlice := true } }), 15, 63, true,
    [{ pin := 35, read := 24, write := 24, vref := 8 }], _, _, live_of (by decide +kernel), by decide +kernel,
    by decide +kernel, rfl, rfl, .inl ⟨{ since := 0, inSlice := true }, by decide +kernel, rfl, .inl rfl⟩,
    by decide +kernel, by decide +kernel⟩,
   ⟨(withPch 63 { retrain := some { since := 0, inSlice := true } }), 15, 63, true,
    [{ pin := 35, read := 23, write := 24, vref := 8 }], _, _, live_of (by decide +kernel), by decide +kernel,
    by decide +kernel, rfl, rfl, .inl ⟨{ since := 0, inSlice := true }, by decide +kernel, rfl, .inl rfl⟩,
    .inr (by decide +kernel)⟩,
   ⟨(withPch 63 { retrain := some { since := 0, inSlice := true } }), 15, 63, false, [], _, _,
    { since := 0, inSlice := true }, live_of (by decide +kernel), by decide +kernel, by decide +kernel, rfl, rfl,
    by decide +kernel, by decide +kernel, by decide +kernel, rfl⟩⟩

theorem wit_power_events :
    (∃ (s : State), (Live s)) ∧
    (∃ (s : State), ∃ (one : Tbl Hist → Nat → Nat → Nat → Tbl Hist), (Live s) ∧
      (one = (fun (h : Tbl Hist) (kind i t : Nat) => h.put (histKey kind i t) { h.findD (histKey kind i t) {} with
                tick := s.dev.tick
                depth := listMod (h.findD (histKey kind i t) {}).depth (depthBin (s.queueDepth kind i t)) (sat32 · 1) }))) ∧
    (∃ (s : State), ∃ m b cap fl rails fixed bud₀ ex d bud issue compute mean fl₂, (Live s) ∧
      (b = s.pwr.next.getD s.pwr.block) ∧ (cap = 1000 * pbCap b) ∧ (fl = pbFloors b) ∧
      (rails = s.pwr.rails.zipIdx.map (fun x => (x.1.1,
                                                 { x.1.2 with ests := (m.rails.getD x.2 0 :: x.1.2.ests).take 100 }))) ∧
      (fixed = m.fixed + sumOf (rails.zipIdx.map fun x => railExtra cap x.1.2 (m.rails.getD x.2 0))) ∧ (s.sch.iso = []) ∧
      (fixed + sumOf fl ≤ cap) ∧ (bud₀ = divide (pbOrder b) fl m.demand (cap - fixed - sumOf fl)) ∧
      (ex = m.estimate.getD 0 0 - bud₀.getD 0 0) ∧
      ((pbOrder b).reverse.find? (fun d => d != 0 && decide (fl.getD d 0 < bud₀.getD d 0)) = some d) ∧
      (bud = listSet bud₀ d (max (fl.getD d 0) (bud₀.getD d 0 - ex))) ∧
      (issue = largestFit (fun n => computeAt m n ≤ bud.getD 2 0) 64) ∧
      (compute = (m.estimate.getD 2 0 :: s.pwr.compute).take 10) ∧ (mean = sumOf compute / compute.length) ∧
      (fl₂ = (if pbGrazeOff b then 0 else min (bud.getD 2 0) (max (pbPct b * mean / 100) (m.estimate.getD 2 0 - 1000 * pbSlope b))))) ∧
    (∃ (s : State), ∃ (est : Nat), ∃ l tot bud, ∃ (u : State), (Live s) ∧ (s.sch.iso = []) ∧ (est ≠ 0) ∧ (l = s.byFlits) ∧
      (tot = sumOf (l.map fun p => (s.port p).w)) ∧ (bud = s.pwr.budgets.getD 0 0) ∧
      (u = { s with ports := s.ports.each fun _ q => { q with flitsMs := 0 } }) ∧ (bud < est)) ∧
    (∃ (s : State), ∃ (est : Nat), ∃ l tot bud, ∃ (u : State), (Live s) ∧ (s.sch.iso = []) ∧ (est ≠ 0) ∧ (l = s.byFlits) ∧
      (tot = sumOf (l.map fun p => (s.port p).w)) ∧ (bud = s.pwr.budgets.getD 0 0) ∧
      (u = { s with ports := s.ports.each fun _ q => { q with flitsMs := 0 } }) ∧ (est ≤ bud)) ∧
    (∃ (s : State), (Live s)) ∧
    (∃ (s : State), ∃ i r, (Live s) ∧ (i < 8) ∧ (s.pwr.rails.find i = some r) ∧ (r.frozen = false) ∧
      (r.disagree + 1 < 100)) ∧
    (∃ (s : State), ∃ i r, (Live s) ∧ (i < 8) ∧ (s.pwr.rails.find i = some r) ∧ (r.frozen = false) ∧
      (100 ≤ r.disagree + 1)) ∧
    (∃ (s : State), ∃ n k c, (Live s) ∧ (n < 144) ∧ (c = min (s.capRate n) (min 64 (ceilDiv k 8 * 8 + 8)))) ∧
    (∃ (s : State), ∃ f, (Live s) ∧ (f < 16)) ∧
    (∃ (s : State), (Live s)) ∧
    (∃ (s : State), (Live s) ∧ (s.pwr.window ≤ 8)) ∧
    (∃ (s : State), ∃ u, (Live s) ∧ (8 < s.pwr.window) ∧
      (u = { s with pwr.window := 0, pwr.droopLvl := min 4 (s.pwr.level + 1), pwr.persisted := true })) ∧
    (∃ (s : State), ∃ (c : Int), (Live s) ∧ (((bits s.fw.thermal 63 56 : Nat) : Int) < c)) ∧
    (∃ (s : State), ∃ (c : Int), (Live s) ∧ (c ≤ ((bits s.fw.thermal 63 56 : Nat) : Int)) ∧ ∃ (n : Nat → Nat) (u : State),
      (n = fun p => if p < 4 ∧ c ≤ s.levelLimit p - 3 then min 10 (s.pwr.coolReads.getD p 0 + 1) else 0) ∧
      (u = { s with pwr.coolReads := [n 0, n 1, n 2, n 3] }) ∧ (s.pwr.thermal < s.allowed c)) ∧
    (∃ (s : State), ∃ (c : Int), (Live s) ∧ (c ≤ ((bits s.fw.thermal 63 56 : Nat) : Int)) ∧ ∃ (n : Nat → Nat) (u : State),
      (n = fun p => if p < 4 ∧ c ≤ s.levelLimit p - 3 then min 10 (s.pwr.coolReads.getD p 0 + 1) else 0) ∧
      (u = { s with pwr.coolReads := [n 0, n 1, n 2, n 3] }) ∧ (s.allowed c ≤ s.pwr.thermal) ∧
      ∃ l, (l < s.pwr.thermal) ∧ (∀ j, l ≤ j → j < s.pwr.thermal → 10 ≤ n j) ∧ (0 < l → n (l - 1) < 10)) ∧
    (∃ (s : State), ∃ (c : Int), (Live s) ∧ (c ≤ ((bits s.fw.thermal 63 56 : Nat) : Int)) ∧ ∃ (n : Nat → Nat) (u : State),
      (n = fun p => if p < 4 ∧ c ≤ s.levelLimit p - 3 then min 10 (s.pwr.coolReads.getD p 0 + 1) else 0) ∧
      (u = { s with pwr.coolReads := [n 0, n 1, n 2, n 3] }) ∧ (s.allowed c ≤ s.pwr.thermal) ∧
      (s.pwr.thermal = 0 ∨ n (s.pwr.thermal - 1) < 10)) ∧
    (∃ (s : State), (Live s)) :=
  ⟨⟨fabric, live_of (by decide +kernel)⟩,
   ⟨fabric, _, live_of (by decide +kernel), rfl⟩,
   ⟨fabric,
    { demand := [700000, 700000, 700000], estimate := [800000, 0, 0], fixed := 0, idle := 0, iso := 0, rails := [] }, _,
    _, _, _, _, _, _, 1, _, _, _, _, _, live_of (by decide +kernel), rfl, rfl, rfl, rfl, rfl, by decide +kernel,
    by decide +kernel, rfl, rfl, by decide +kernel, rfl, rfl, rfl, rfl, rfl⟩,
   ⟨{ fabric with pwr.budgets := [7, 0, 0] }, 8, _, _, _, _, live_of (by decide +kernel), by decide +kernel,
    by decide +kernel, rfl, rfl, rfl, rfl, by decide +kernel⟩,
   ⟨{ fabric with pwr.budgets := [7, 0, 0] }, 7, _, _, _, _, live_of (by decide +kernel), by decide +kernel,
    by decide +kernel, rfl, rfl, rfl, rfl, by decide +kernel⟩,
   ⟨fabric, live_of (by decide +kernel)⟩,
   ⟨{ fabric with pwr.rails := [(7, { disagree := 98 })] }, 7, { disagree := 98 }, live_of (by decide +kernel),
    by decide +kernel, by decide +kernel, by decide +kernel, by decide +kernel⟩,
   ⟨{ fabric with pwr.rails := [(7, { disagree := 99 })] }, 7, { disagree := 99 }, live_of (by decide +kernel),
    by decide +kernel, by decide +kernel, by decide +kernel, by decide +kernel⟩,
   ⟨fabric, 143, 0, _, live_of (by decide +kernel), by decide +kernel, rfl⟩,
   ⟨fabric, 15, live_of (by decide +kernel), by decide +kernel⟩,
   ⟨fabric, live_of (by decide +kernel)⟩,
   ⟨{ fabric with pwr.window := 8 }, live_of (by decide +kernel), by decide +kernel⟩,
   ⟨{ fabric with pwr.window := 9 }, _, live_of (by decide +kernel), by decide +kernel, rfl⟩,
   ⟨fabric, 116, live_of (by decide +kernel), by decide +kernel⟩,
   ⟨fabric, 115, live_of (by decide +kernel), by decide +kernel, _, _, rfl, rfl, by decide +kernel⟩,
   ⟨{ fabric with pwr.thermal := 1, pwr.coolReads := [9, 0, 0, 0] }, 97, live_of (by decide +kernel), by decide +kernel,
    _, _, rfl, rfl, by decide +kernel, 0, by decide +kernel,
    (fun j _ h => by cases (Nat.lt_one_iff.mp h : j = 0); decide +kernel), by decide +kernel⟩,
   ⟨{ fabric with pwr.thermal := 1, pwr.coolReads := [8, 0, 0, 0] }, 97, live_of (by decide +kernel), by decide +kernel,
    _, _, rfl, rfl, by decide +kernel, .inr (by decide +kernel)⟩,
   ⟨fabric, live_of (by decide +kernel)⟩⟩

theorem wit_level_events :
    (∃ (s : State), ∃ c, (Live s) ∧ (s.pwr.change = some c) ∧ (c.locked = false) ∧ (s.pwr.level < c.target) ∧
      (s.pwr.fault = false)) ∧
    (∃ (s : State), ∃ c, (Live s) ∧ (s.pwr.change = some c) ∧ (c.locked = false) ∧ (s.pwr.level < c.target) ∧
      (s.pwr.fault = true)) ∧
    (∃ (s : State), ∃ c, (Live s) ∧ (s.pwr.change = some c) ∧ (c.locked = false) ∧ (c.target ≤ s.pwr.level)) ∧
    (∃ (s : State), ∃ c, ∃ (u : State), (Live s) ∧ (s.pwr.change = some c) ∧ (c.written = true) ∧
      (u = { s with pwr.held := voltOf c.target }) ∧ (s.pwr.level = c.target)) ∧
    (∃ (s : State), ∃ c, ∃ (u : State), (Live s) ∧ (s.pwr.change = some c) ∧ (c.written = true) ∧
      (u = { s with pwr.held := voltOf c.target }) ∧ (s.pwr.level ≠ c.target)) ∧
    (∃ (s : State), ∃ c u, (Live s) ∧ (s.pwr.change = some c) ∧ (c.written = true) ∧
      (u = { s with pwr.held := voltOf c.target }) ∧ (c.tries < 3)) ∧
    (∃ (s : State), ∃ c u, (Live s) ∧ (s.pwr.change = some c) ∧ (c.written = true) ∧
      (u = { s with pwr.held := voltOf c.target }) ∧ (3 ≤ c.tries)) ∧
    (∃ (s : State), ∃ n x u, (Live s) ∧ (n < 144) ∧ (x = s.station n) ∧ (bit s.pwr.sleepSet 0 = false) ∧
      (s.inService n = true) ∧ (x.granted = none) ∧ (x.run = none) ∧ (x.sl1 = false) ∧
      (u = s.putStation n { x with sl1 := true, waking := !x.work.isEmpty })) ∧
    (∃ (s : State), ∃ f d, (Live s) ∧ (f < 16) ∧ (bit s.pwr.sleepSet 1 = false) ∧ (s.pwr.clamp = 0) ∧
      (bit s.stn.sl2 f = false) ∧
      (∀ i < 9, s.inService (9 * f + i) = true → (s.station (9 * f + i)).sl1 = true ∧
       (s.station (9 * f + i)).waking = false) ∧ (s.stn.fieldIdle.find f = some d) ∧
      (2 * d + 3125 * orDefault (bits s.pwr.sleepSet 31 24) 1 ≤ 2 * s.dev.tick)) ∧
    (∃ (s : State), ∃ n, (Live s) ∧ (n < 144) ∧ ((s.station n).sl1 = true) ∧ ((s.station n).waking = true) ∧
      (bit s.stn.sl2 (n / 9) = false)) ∧
    (∃ (s : State), ∃ f, (Live s) ∧ (f < 16) ∧ (bit s.stn.sl2 f = true) ∧ (bit s.stn.waking f = true)) ∧
    (∃ s, (Live s) ∧ (s.pwr.sleep = .waking) ∧ (s.dev.halt = none) ∧
      (∀ x ∈ s.stk.units, x.2.selfRef = .none ∧ ∀ q ∈ x.2.pchs, q.2.fullDue = false) ∧ (s.ready.mgmt = true)) ∧
    (∃ s, (Live s) ∧ (s.pwr.sleep = .waking) ∧ (s.dev.halt = none) ∧
      (∀ x ∈ s.stk.units, x.2.selfRef = .none ∧ ∀ q ∈ x.2.pchs, q.2.fullDue = false) ∧ (s.ready.mgmt = false) ∧
      (s.dev.mgmtReset = none)) ∧
    (∃ s p, (Live s) ∧ (s.dev.halt ≠ none) ∧ (p < 64)) ∧
    (∃ s p, (Live s) ∧ (s.dev.halt ≠ none) ∧ (p < 2)) ∧
    (∃ s p u, (Live s) ∧ (s.pwr.sleep = .sl3 ∨ s.pwr.sleep = .sl4) ∧ (s.dev.halt = none) ∧
      (u = { s with
         pwr.sleep := .waking, pwr.wakeTick := s.dev.tick
         stk.units := s.stk.units.each fun _ (x : Stack) => if x.selfRef == SelfRefresh.entering then { x with
           selfRef := .none } else x }) ∧ (p < 64) ∧ (s.lightWakes p = true)) ∧
    (∃ s p u, (Live s) ∧ (s.pwr.sleep = .sl3 ∨ s.pwr.sleep = .sl4) ∧ (s.dev.halt = none) ∧
      (u = { s with
         pwr.sleep := .waking, pwr.wakeTick := s.dev.tick
         stk.units := s.stk.units.each fun _ (x : Stack) => if x.selfRef == SelfRefresh.entering then { x with
           selfRef := .none } else x }) ∧ (p < 64)) ∧
    (∃ s p u, (Live s) ∧ (s.pwr.sleep = .sl3 ∨ s.pwr.sleep = .sl4) ∧ (s.dev.halt = none) ∧
      (u = { s with
         pwr.sleep := .waking, pwr.wakeTick := s.dev.tick
         stk.units := s.stk.units.each fun _ (x : Stack) => if x.selfRef == SelfRefresh.entering then { x with
           selfRef := .none } else x }) ∧ (p < 2) ∧ ((s.eth p).up = true)) :=
  ⟨⟨{ fabric with pwr.level := 3, pwr.change := some { target := 4 } }, { target := 4 }, live_of (by decide +kernel),
    by decide +kernel, by decide +kernel, by decide +kernel, by decide +kernel⟩,
   ⟨{ fabric with pwr.level := 3, pwr.change := some { target := 4 }, pwr.fault := true }, { target := 4 },
    live_of (by decide +kernel), by decide +kernel, by decide +kernel, by decide +kernel, by decide +kernel⟩,
   ⟨{ fabric with pwr.level := 3, pwr.change := some { target := 3 } }, { target := 3 }, live_of (by decide +kernel),
    by decide +kernel, by decide +kernel, by decide +kernel⟩,
   ⟨{ fabric with pwr.level := 3, pwr.change := some { target := 3, written := true } },
    { target := 3, written := true }, _, live_of (by decide +kernel), by decide +kernel, by decide +kernel, rfl,
    by decide +kernel⟩,
   ⟨{ fabric with pwr.level := 4, pwr.change := some { target := 3, written := true } },
    { target := 3, written := true }, _, live_of (by decide +kernel), by decide +kernel, by decide +kernel, rfl,
    by decide +kernel⟩,
   ⟨{ fabric with pwr.level := 4, pwr.change := some { target := 3, written := true, tries := 2 } },
    { target := 3, written := true, tries := 2 }, _, live_of (by decide +kernel), by decide +kernel, by decide +kernel,
    rfl, by decide +kernel⟩,
   ⟨{ fabric with pwr.level := 4, pwr.change := some { target := 3, written := true, tries := 3 } },
    { target := 3, written := true, tries := 3 }, _, live_of (by decide +kernel), by decide +kernel, by decide +kernel,
    rfl, by decide +kernel⟩,
   ⟨{ fabric with pwr.sleepSet := 2, stn.stations := [(143, { st := .bound 9 })] }, 143, _, _,
    live_of (by decide +kernel), by decide +kernel, rfl, by decide +kernel, by decide +kernel, by decide +kernel,
    by decide +kernel, by decide +kernel, rfl⟩,
   ⟨{ fabric with
      dev.tick := 1563, stn.fieldIdle := [(15, 0)], stn.stations := [(143, { st := .bound 9, sl1 := true })] }, 15, 0,
    live_of (by decide +kernel), by decide +kernel, by decide +kernel, by decide +kernel, by decide +kernel,
    by decide +kernel, by decide +kernel, by decide +kernel⟩,
   ⟨{ fabric with stn.stations := [(143, { st := .bound 9, sl1 := true, waking := true })] }, 143,
    live_of (by decide +kernel), by decide +kernel, by decide +kernel, by decide +kernel, by decide +kernel⟩,
   ⟨{ fabric with stn.sl2 := 2 ^ 15, stn.waking := 2 ^ 15 }, 15, live_of (by decide +kernel), by decide +kernel,
    by decide +kernel, by decide +kernel⟩,
   ⟨{ fabric with pwr.sleep := .waking }, live_of (by decide +kernel), by decide +kernel, by decide +kernel,
    (by intro x hx; cases hx), by decide +kernel⟩,
   ⟨{ fabric with pwr.sleep := .waking, ready.mgmt := false }, live_of (by decide +kernel), by decide +kernel,
    by decide +kernel, (by intro x hx; cases hx), by decide +kernel, by decide +kernel⟩,
   ⟨{ fabric with dev.halt := some 1 }, 63, live_of (by decide +kernel), by decide +kernel, by decide +kernel⟩,
   ⟨{ fabric with dev.halt := some 1 }, 1, live_of (by decide +kernel), by decide +kernel, by decide +kernel⟩,
   ⟨{ fabric with dev.tick := 1563, pwr.sleep := .sl3 }, 63, _, live_of (by decide +kernel), by decide +kernel,
    by decide +kernel, rfl, by decide +kernel, by decide +kernel⟩,
   ⟨{ fabric with pwr.sleep := .sl3 }, 63, _, live_of (by decide +kernel), by decide +kernel, by decide +kernel, rfl,
    by decide +kernel⟩,
   ⟨{ fabric with pwr.sleep := .sl4 }, 0, _, live_of (by decide +kernel), by decide +kernel, by decide +kernel, rfl,
    by decide +kernel, by decide +kernel⟩⟩

/-- A frame of session 1 with a command of one fragment, the Ethernet frame that brings it, and a bulk frame of channel 4. -/
def ccp1 : CcpFrame :=
  { port := 0, cls := 0, ccpVer := 3, ftype := 2, first := true, last := true, rsvd := 0, session := 1, seq := 0, cmdId := 1, frag := 0
    opcode := 2, mailbox := 0, status := 0, reason := 0, length := 8, total := 8, bulkOff := 0, body := leBytes 0 8, tagOk := true }
def eth1 : EthFrame :=
  { fcsOk := true, kind := 0, dstMac := 2, vlan := 3, pcp := 0, dstIp := 1, udpPort := 48620, udpLen := 56, ccp := ccp1 }
def bulk0 : Bulk := { session := 1, bytes := 1, due := 7 }
def bulk1 : CcpFrame := { ccp1 with ftype := 4, cmdId := 4, length := 1, total := 0, body := [0] }
def bulked : State := { fabric with ctl.bulk := [(4, bulk0)] }

theorem wit_frame_events :
    (∃ s p, ∃ (f : EthFrame), ∃ e, ∃ u busy, (Live s) ∧ (p < 2) ∧ (e = s.eth p) ∧ (e.up = true) ∧ (f.kind = 0) ∧
      (f.fcsOk = true) ∧ (f.vlan = e.vlan) ∧ (f.dstIp ∈ e.ips) ∧ (f.dstMac = e.mac) ∧ (f.udpPort = e.udpPort) ∧
      (32 ≤ f.udpLen) ∧ (u = s.wakeByFrame) ∧
      (busy = (u.attestBusy f.ccp.opcode && (f.ccp.ftype == 0 || (f.ccp.ftype == 2 && f.ccp.tagOk && (u.ctl.sessions.find f.ccp.session).any (·.ver == f.ccp.ccpVer))))) ∧
      (busy = false) ∧ (e.fifo.length < 32)) ∧
    (∃ s p, ∃ (f : EthFrame), ∃ e, ∃ u busy, (Live s) ∧ (p < 2) ∧ (e = s.eth p) ∧ (e.up = true) ∧ (f.kind = 0) ∧
      (f.fcsOk = true) ∧ (f.vlan = e.vlan) ∧ (f.dstIp ∈ e.ips) ∧ (f.dstMac = e.mac) ∧ (f.udpPort = e.udpPort) ∧
      (32 ≤ f.udpLen) ∧ (u = s.wakeByFrame) ∧
      (busy = (u.attestBusy f.ccp.opcode && (f.ccp.ftype == 0 || (f.ccp.ftype == 2 && f.ccp.tagOk && (u.ctl.sessions.find f.ccp.session).any (·.ver == f.ccp.ccpVer))))) ∧
      (busy = false) ∧ (32 ≤ e.fifo.length)) ∧
    (∃ s p, ∃ (f : EthFrame), ∃ e, ∃ u busy, (Live s) ∧ (p < 2) ∧ (e = s.eth p) ∧ (e.up = true) ∧ (f.kind = 0) ∧
      (f.fcsOk = true) ∧ (f.vlan = e.vlan) ∧ (f.dstIp ∈ e.ips) ∧ (f.dstMac = e.mac) ∧ (f.udpPort = e.udpPort) ∧
      (32 ≤ f.udpLen) ∧ (u = s.wakeByFrame) ∧
      (busy = (u.attestBusy f.ccp.opcode && (f.ccp.ftype == 0 || (f.ccp.ftype == 2 && f.ccp.tagOk && (u.ctl.sessions.find f.ccp.session).any (·.ver == f.ccp.ccpVer))))) ∧
      (busy = true)) ∧
    (∃ s p, ∃ (f : EthFrame), (Live s) ∧ (p < 2) ∧ ((s.eth p).up = true) ∧ (f.kind = 0) ∧
      (f.fcsOk = false ∨ f.vlan ≠ (s.eth p).vlan ∨ f.dstIp ∉ (s.eth p).ips ∨ f.dstMac ≠ (s.eth p).mac ∨
       f.udpPort ≠ (s.eth p).udpPort ∨ f.udpLen < 32)) ∧
    (∃ (s : State), ∃ p, ∃ (f : EthFrame), (Live s) ∧ (p < 2) ∧ ((s.eth p).up = true) ∧ (f.kind = 1 ∨ f.kind = 2) ∧
      (f.fcsOk = true) ∧ (f.vlan = (s.eth p).vlan) ∧ (f.dstIp ∈ (s.eth p).ips)) ∧
    (∃ (s : State), ∃ p f, (Live s) ∧ (p < 2) ∧ (s.intakeHolds = false) ∧ (nextFrame (s.eth p).fifo = some f)) ∧
    (∃ s, ∃ (f : CcpFrame), ∃ v w x, ∃ mb m y u, (Live s) ∧ (f.port < 2) ∧ (s.ccpAnswers f.port = true) ∧
      (s.ready.mgmt = true) ∧ (frameBad f = false) ∧ (s.ctl.sessions.find f.session = some v) ∧ (f.ccpVer = v.ver) ∧
      (f.tagOk = true) ∧ (seqIn v f.seq = some w) ∧ (f.seq ≠ 2 ^ 32 - 1) ∧
      (x = { w with port := f.port, idleDue := s.dev.tick + (s.eth f.port).idleUnits * 2 ^ 20 }) ∧ (f.ftype = 2) ∧
      (s.intakeBars = none) ∧ (s.mailboxOf f.session f.cmdId = none) ∧
      (isNewCmd x f.cmdId = true ∨ x.cmds.find f.cmdId = some .again) ∧ (s.freeMailbox f.session = some mb) ∧
      (fragFits f = true) ∧
      (m = { session := f.session, cmdId := f.cmdId, opcode := f.opcode, port := f.port, cls := f.cls
             total := f.total, frags := [(f.frag, f.body)], due := s.dev.tick + 1048576 }) ∧
      (y = { acceptCmd x f.cmdId with cmds := x.cmds.put f.cmdId .mailbox }) ∧
      (u = (s.putSession f.session y).putMailbox mb m) ∧ (8192 < f.total)) ∧
    (∃ s, ∃ (f : CcpFrame), ∃ v w x, ∃ mb m y u, (Live s) ∧ (f.port < 2) ∧ (s.ccpAnswers f.port = true) ∧
      (s.ready.mgmt = true) ∧ (frameBad f = false) ∧ (s.ctl.sessions.find f.session = some v) ∧ (f.ccpVer = v.ver) ∧
      (f.tagOk = true) ∧ (seqIn v f.seq = some w) ∧ (f.seq ≠ 2 ^ 32 - 1) ∧
      (x = { w with port := f.port, idleDue := s.dev.tick + (s.eth f.port).idleUnits * 2 ^ 20 }) ∧ (f.ftype = 2) ∧
      (s.intakeBars = none) ∧ (s.mailboxOf f.session f.cmdId = none) ∧
      (isNewCmd x f.cmdId = true ∨ x.cmds.find f.cmdId = some .again) ∧ (s.freeMailbox f.session = some mb) ∧
      (fragFits f = true) ∧
      (m = { session := f.session, cmdId := f.cmdId, opcode := f.opcode, port := f.port, cls := f.cls
             total := f.total, frags := [(f.frag, f.body)], due := s.dev.tick + 1048576 }) ∧
      (y = { acceptCmd x f.cmdId with cmds := x.cmds.put f.cmdId .mailbox }) ∧
      (u = (s.putSession f.session y).putMailbox mb m) ∧ (f.total ≤ 8192)) ∧
    (∃ (s : State), ∃ (f : CcpFrame), ∃ v w x, (Live s) ∧ (f.port < 2) ∧ (s.ccpAnswers f.port = true) ∧
      (s.ready.mgmt = true) ∧ (frameBad f = false) ∧ (s.ctl.sessions.find f.session = some v) ∧ (f.ccpVer = v.ver) ∧
      (f.tagOk = true) ∧ (seqIn v f.seq = some w) ∧ (f.seq ≠ 2 ^ 32 - 1) ∧
      (x = { w with port := f.port, idleDue := s.dev.tick + (s.eth f.port).idleUnits * 2 ^ 20 }) ∧ ∃ mb m,
      ∃ (n : Mailbox), (f.ftype = 2) ∧ (s.intakeBars = none) ∧ (s.mailboxOf f.session f.cmdId = some (mb, m)) ∧
      (m.running = false) ∧ (fragFits f = true) ∧ (f.opcode = m.opcode) ∧ (f.total = m.total) ∧
      (m.frags.has f.frag = false) ∧
      (n = { m with frags := m.frags.put f.frag f.body, port := f.port, cls := f.cls, due := s.dev.tick + 1048576 }) ∧
      (n.frags.length = max 1 (ceilDiv m.total 8192))) ∧
    (∃ s, ∃ (f : CcpFrame), ∃ v w x, ∃ (k : Bulk), ∃ y, ∃ (u : State), (Live s) ∧ (f.port < 2) ∧
      (s.ccpAnswers f.port = true) ∧ (s.ready.mgmt = true) ∧ (frameBad f = false) ∧
      (s.ctl.sessions.find f.session = some v) ∧ (f.ccpVer = v.ver) ∧ (f.tagOk = true) ∧ (seqIn v f.seq = some w) ∧
      (f.seq ≠ 2 ^ 32 - 1) ∧ (x = { w with port := f.port, idleDue := s.dev.tick + (s.eth f.port).idleUnits * 2 ^ 20 }) ∧
      (f.ftype = 4) ∧ (s.dev.mgmtReset = none) ∧ (s.ctl.bulk.find f.cmdId = some k) ∧ (k.session = f.session) ∧
      (f.first = true) ∧ (f.last = true) ∧ (f.frag = 0) ∧ (1 ≤ f.length) ∧ (f.bulkOff = k.offset) ∧
      (k.offset + f.length ≤ k.bytes) ∧ (k.buffer.length + f.length ≤ 262144) ∧ (y = k.offset + f.length) ∧
      (u = { (s.putSession f.session x).putBulk f.cmdId { k with offset := y, buffer := if k.consumer = some .stage then [] else k.buffer ++ f.body, sinceAck := (k.sinceAck + f.length) % 65536, due := s.dev.tick + 16777216 } with
         fw.staging := if k.consumer = some .stage then s.fw.staging.map (·.take f.body) else s.fw.staging })) ∧
    (∃ s, ∃ (f : CcpFrame), ∃ v w x, ∃ k u, (Live s) ∧ (f.port < 2) ∧ (s.ccpAnswers f.port = true) ∧
      (s.ready.mgmt = true) ∧ (frameBad f = false) ∧ (s.ctl.sessions.find f.session = some v) ∧ (f.ccpVer = v.ver) ∧
      (f.tagOk = true) ∧ (seqIn v f.seq = some w) ∧ (f.seq ≠ 2 ^ 32 - 1) ∧
      (x = { w with port := f.port, idleDue := s.dev.tick + (s.eth f.port).idleUnits * 2 ^ 20 }) ∧ (f.ftype = 4) ∧
      (s.dev.mgmtReset = none) ∧ (s.ctl.bulk.find f.cmdId = some k) ∧ (k.session = f.session) ∧
      (f.first = false ∨ f.last = false ∨ f.frag ≠ 0 ∨ f.length = 0 ∨ f.bulkOff ≠ k.offset ∨
       k.bytes < k.offset + f.length ∨ 262144 < k.buffer.length + f.length) ∧
      (u = (s.putSession f.session x).countDev (2 + f.port)) ∧ (∀ t, k.nakTick = some t → t + 64 ≤ s.dev.tick)) ∧
    (∃ s, ∃ (f : CcpFrame), ∃ v w x, ∃ k u, ∃ t, (Live s) ∧ (f.port < 2) ∧ (s.ccpAnswers f.port = true) ∧
      (s.ready.mgmt = true) ∧ (frameBad f = false) ∧ (s.ctl.sessions.find f.session = some v) ∧ (f.ccpVer = v.ver) ∧
      (f.tagOk = true) ∧ (seqIn v f.seq = some w) ∧ (f.seq ≠ 2 ^ 32 - 1) ∧
      (x = { w with port := f.port, idleDue := s.dev.tick + (s.eth f.port).idleUnits * 2 ^ 20 }) ∧ (f.ftype = 4) ∧
      (s.dev.mgmtReset = none) ∧ (s.ctl.bulk.find f.cmdId = some k) ∧ (k.session = f.session) ∧
      (f.first = false ∨ f.last = false ∨ f.frag ≠ 0 ∨ f.length = 0 ∨ f.bulkOff ≠ k.offset ∨
       k.bytes < k.offset + f.length ∨ 262144 < k.buffer.length + f.length) ∧
      (u = (s.putSession f.session x).countDev (2 + f.port)) ∧ (k.nakTick = some t) ∧ (s.dev.tick < t + 64)) ∧
    (∃ (s : State), ∃ p, (Live s) ∧ (p < 2) ∧ (s.dev.phase = .running) ∧ (s.fw.live.has (0x10 + p) = true)) ∧
    (∃ (s : State), ∃ p, (Live s) ∧ (p < 2)) :=
  ⟨⟨fabric, 0,
    { fcsOk := true, kind := 0, dstMac := 2, vlan := 3, pcp := 0, dstIp := 1, udpPort := 48620, udpLen := 56
      ccp := ccp1 }, _, _, _, live_of (by decide +kernel), by decide +kernel, rfl, by decide +kernel, by decide +kernel,
    by decide +kernel, by decide +kernel, by decide +kernel, by decide +kernel, by decide +kernel, by decide +kernel,
    rfl, rfl, rfl, by decide +kernel⟩,
   ⟨{ fabric with ctl.ethA := { up := true, ips := [1], mac := 2, vlan := 3, fifo := List.replicate 32 ccp1 } }, 0, eth1,
    _, _, _, live_of (by decide +kernel), by decide +kernel, rfl, by decide +kernel, by decide +kernel,
    by decide +kernel, by decide +kernel, by decide +kernel, by decide +kernel, by decide +kernel, by decide +kernel,
    rfl, rfl, rfl, by decide +kernel⟩,
   ⟨{ fabric with ready.mgmt := false, pwr.sleep := .sl4 }, 0, { eth1 with ccp := { ccp1 with opcode := 0x0100 } }, _, _,
    _, live_of (by decide +kernel), by decide +kernel, rfl, by decide +kernel, by decide +kernel, by decide +kernel,
    by decide +kernel, by decide +kernel, by decide +kernel, by decide +kernel, by decide +kernel, rfl, rfl, rfl⟩,
   ⟨fabric, 0, { eth1 with udpLen := 31 }, live_of (by decide +kernel), by decide +kernel, by decide +kernel,
    by decide +kernel, by decide +kernel⟩,
   ⟨fabric, 0,
    { fcsOk := true, kind := 2, dstMac := 2, vlan := 3, pcp := 0, dstIp := 1, udpPort := 48620, udpLen := 56
      ccp := { port := 0, cls := 0, ccpVer := 3, ftype := 2, first := true, last := true, rsvd := 0, session := 1
               seq := 0, cmdId := 1, frag := 0, opcode := 2, mailbox := 0, status := 0, reason := 0, length := 8
               total := 8, bulkOff := 0, body := leBytes 0 8, tagOk := true } }, live_of (by decide +kernel),
    by decide +kernel, by decide +kernel, by decide +kernel, by decide +kernel, by decide +kernel, by decide +kernel⟩,
   ⟨{ fabric with
      ctl.ethA := { fifo := [{ port := 0, cls := 0, ccpVer := 3, ftype := 2, first := true, last := true
                               rsvd := 0, session := 1, seq := 0, cmdId := 1, frag := 0, opcode := 2
                               mailbox := 0, status := 0, reason := 0, length := 8, total := 8, bulkOff := 0
                               body := leBytes 0 8, tagOk := true }] } }, 0,
    { port := 0, cls := 0, ccpVer := 3, ftype := 2, first := true, last := true, rsvd := 0, session := 1, seq := 0
      cmdId := 1, frag := 0, opcode := 2, mailbox := 0, status := 0, reason := 0, length := 8, total := 8
      bulkOff := 0, body := leBytes 0 8, tagOk := true }, live_of (by decide +kernel), by decide +kernel,
    by decide +kernel, by decide +kernel⟩,
   ⟨fabric, { ccp1 with last := false, length := 8192, total := 8193, body := List.replicate 8192 0 }, opSes,
    { opSes with rxTop := some 0 }, _, 8, _, _, _, live_of (by decide +kernel), by decide +kernel, by decide +kernel,
    by decide +kernel, bad_of List.length_replicate.symm (by decide) (by decide +kernel), by decide +kernel,
    by decide +kernel, by decide +kernel, by decide +kernel, by decide +kernel, rfl, by decide +kernel,
    by decide +kernel, by decide +kernel, by decide +kernel, by decide +kernel, by decide +kernel, rfl, rfl, rfl,
    by decide +kernel⟩,
   ⟨fabric, ccp1, opSes, { opSes with rxTop := some 0 }, _, 8, _, _, _, live_of (by decide +kernel), by decide +kernel,
    by decide +kernel, by decide +kernel, by decide +kernel, by decide +kernel, by decide +kernel, by decide +kernel,
    by decide +kernel, by decide +kernel, rfl, by decide +kernel, by decide +kernel, by decide +kernel,
    by decide +kernel, by decide +kernel, by decide +kernel, rfl, rfl, rfl, by decide +kernel⟩,
   ⟨{ fabric with
      ctl.mailboxes := [(8,
                         { session := 1, cmdId := 1, opcode := 2, port := 0, cls := 0, total := 8193
                           frags := [(0, List.replicate 8192 0)] })] },
    { port := 0, cls := 0, ccpVer := 3, ftype := 2, first := false, last := true, rsvd := 0, session := 1, seq := 0
      cmdId := 1, frag := 1, opcode := 2, mailbox := 0, status := 0, reason := 0, length := 1, total := 8193
      bulkOff := 0, body := [0], tagOk := true }, opSes, { opSes with rxTop := some 0 }, _, live_of (by decide +kernel),
    by decide +kernel, by decide +kernel, by decide +kernel, by decide +kernel, by decide +kernel, by decide +kernel,
    by decide +kernel, by decide +kernel, by decide +kernel, rfl, 8,
    { session := 1, cmdId := 1, opcode := 2, port := 0, cls := 0, total := 8193, frags := [(0, List.replicate 8192 0)] },
    _, by decide +kernel, by decide +kernel, rfl, by decide +kernel, by decide +kernel, by decide +kernel,
    by decide +kernel, by decide +kernel, rfl, by decide +kernel⟩,
   ⟨bulked, bulk1, opSes, { opSes with rxTop := some 0 }, _, bulk0, _, _, live_of (by decide +kernel), by decide +kernel,
    by decide +kernel, by decide +kernel, by decide +kernel, by decide +kernel, by decide +kernel, by decide +kernel,
    by decide +kernel, by decide +kernel, rfl, by decide +kernel, by decide +kernel, by decide +kernel,
    by decide +kernel, by decide +kernel, by decide +kernel, by decide +kernel, by decide +kernel, by decide +kernel,
    by decide +kernel, by decide +kernel, rfl, rfl⟩,
   ⟨bulked, { bulk1 with length := 0, body := [] }, opSes, { opSes with rxTop := some 0 }, _, bulk0, _,
    live_of (by decide +kernel), by decide +kernel, by decide +kernel, by decide +kernel, by decide +kernel,
    by decide +kernel, by decide +kernel, by decide +kernel, by decide +kernel, by decide +kernel, rfl,
    by decide +kernel, by decide +kernel, by decide +kernel, by decide +kernel, by decide +kernel, rfl, by decide +kernel⟩,
   ⟨{ bulked with ctl.bulk := [(4, { bulk0 with nakTick := some 0 })], dev.tick := 63 }, { bulk1 with bulkOff := 1 },
    opSes, { opSes with rxTop := some 0 }, _, { bulk0 with nakTick := some 0 }, _, 0, live_of (by decide +kernel),
    by decide +kernel, by decide +kernel, by decide +kernel, by decide +kernel, by decide +kernel, by decide +kernel,
    by decide +kernel, by decide +kernel, by decide +kernel, rfl, by decide +kernel, by decide +kernel,
    by decide +kernel, by decide +kernel, by decide +kernel, rfl, by decide +kernel, by decide +kernel⟩,
   ⟨{ fabric with fw.live := [(0x11, leBytes 0 48)] }, 1, live_of (by decide +kernel), by decide +kernel,
    by decide +kernel, by decide +kernel⟩,
   ⟨fabric, 1, live_of (by decide +kernel), by decide +kernel⟩⟩

theorem wit_control_timers :
    (∃ (s : State), ∃ p, (Live s) ∧ (p < 2) ∧ ((s.eth p).full = true) ∧ ((s.eth p).pfcOff = false) ∧
      ((s.eth p).pfcDue ≤ s.dev.tick)) ∧
    (∃ (s : State), ∃ (n : Nat), ∃ (c : Nat), ∃ (late : HeldTx → Bool), (Live s) ∧
      (late = (fun h : HeldTx => h.session == n && h.cmdId == c && decide (h.due ≤ s.dev.tick)))) ∧
    (∃ (s : State), ∃ n h, (Live s) ∧ (s.ctl.handshakes.find n = some h) ∧ (h.due ≤ s.dev.tick)) ∧
    (∃ (s : State), ∃ mb m v, (Live s) ∧ (s.ctl.mailboxes.find mb = some m) ∧ (m.running = false) ∧ (m.due ≤ s.dev.tick) ∧
      (s.ctl.sessions.find m.session = some v)) ∧
    (∃ (s : State), ∃ n k, (Live s) ∧ (s.ctl.bulk.find n = some k) ∧ (k.due ≤ s.dev.tick) ∧
      (∀ a b c, k.consumer ≠ some (.setLoad a b c))) ∧
    (∃ s n k, ∃ a b c, (Live s) ∧ (s.ctl.bulk.find n = some k) ∧ (k.due ≤ s.dev.tick) ∧
      (k.consumer = some (.setLoad a b c))) ∧
    (∃ (s : State), ∃ n v, (Live s) ∧ (s.ctl.sessions.find n = some v) ∧ (v.idleDue ≤ s.dev.tick)) ∧
    (∃ (s : State), ∃ n v, (Live s) ∧ (s.ctl.sessions.find n = some v) ∧ (v.noticeDue = true) ∧ (s.mgmtUp = true) ∧
      (∀ d, v.noticeTick = some d → d + 64 ≤ s.dev.tick)) :=
  ⟨⟨{ fabric with ctl.ethB := { full := true } }, 1, live_of (by decide +kernel), by decide +kernel, by decide +kernel,
    by decide +kernel, by decide +kernel⟩,
   ⟨fabric, 1, 1, _, live_of (by decide +kernel), rfl⟩,
   ⟨{ fabric with
      dev.tick := 7, ctl.handshakes := [(3, { ver := 3, role := .operator, tenant := 0, keyHash := 0, due := 7 })] }, 3,
    { ver := 3, role := .operator, tenant := 0, keyHash := 0, due := 7 }, live_of (by decide +kernel), by decide +kernel,
    by decide +kernel⟩,
   ⟨{ fabric with
      dev.tick := 7
      ctl.mailboxes := [(8, { session := 1, cmdId := 1, opcode := 2, port := 0, cls := 0, total := 8193, due := 7 })] },
    8, { session := 1, cmdId := 1, opcode := 2, port := 0, cls := 0, total := 8193, due := 7 }, opSes,
    live_of (by decide +kernel), by decide +kernel, by decide +kernel, by decide +kernel, by decide +kernel⟩,
   ⟨{ fabric with dev.tick := 7, ctl.bulk := [(4, { session := 1, bytes := 1, due := 7 })] }, 4,
    { session := 1, bytes := 1, due := 7 }, live_of (by decide +kernel), by decide +kernel, by decide +kernel,
    (by rintro a b c ⟨⟩)⟩,
   ⟨{ fabric with
      dev.tick := 7, ctl.bulk := [(4, { session := 1, bytes := 1, due := 7, consumer := some (.setLoad 1 1 true) })] },
    4, { session := 1, bytes := 1, due := 7, consumer := some (.setLoad 1 1 true) }, 1, 1, true,
    live_of (by decide +kernel), by decide +kernel, by decide +kernel, by decide +kernel⟩,
   ⟨fabric, 1, opSes, live_of (by decide +kernel), by decide +kernel, by decide +kernel⟩,
   ⟨{ fabric with dev.tick := 71, ctl.sessions := [(1, { opSes with noticeDue := true, noticeTick := some 7 })] }, 1,
    { opSes with noticeDue := true, noticeTick := some 7 }, live_of (by decide +kernel), by decide +kernel,
    by decide +kernel, by decide +kernel, (by intro d hd; cases hd; decide +kernel)⟩⟩

theorem wit_boot_events :
    (∃ (s : State), (s.dev.resetN = true)) ∧
    (∃ (s : State), (s.dev.resetN = false)) ∧
    (∃ (s : State), ∃ (b : Bool), ∃ (u : State), (s.dev.phase = .inReset ∨ s.dev.phase = .off) ∧
      (u = { s.coldReset .keyBoot with
         fw.unlocked := s.fw.token, fw.token := false, dev.resetN := true, dev.initMode := b, dev.strap := b }) ∧
      (s.dev.resetN = false)) ∧
    (∃ (s : State), ∃ (b : Bool), ∃ (u : State), (s.dev.phase = .inReset ∨ s.dev.phase = .off) ∧
      (u = { s.coldReset .keyBoot with
         fw.unlocked := s.fw.token, fw.token := false, dev.resetN := true, dev.initMode := b, dev.strap := b }) ∧
      (s.dev.resetN = true)) ∧
    (∃ (s : State), ∃ (v : BootVerdict), (Live s) ∧ (s.dev.phase = .keyBoot) ∧ (v.testsOk = true) ∧ ∃ u,
      (v.mgmtSlotOk = true) ∧ (v.keSlotOk = true) ∧ (s.fw.fusedSec ≤ (s.fw.slot s.fw.mgmtSlot).secVer) ∧
      (s.fw.fusedSec ≤ (s.fw.slot s.fw.keSlot).secVer) ∧
      (u = { s with
         fw.runMgmt := s.fw.mgmtSlot, fw.runKe := s.fw.keSlot, ready.keyEngine := true, dev.phase := .keyUp
         ctl.expActive := 1, ctl.expStaged := 1 })) ∧
    (∃ s, ∃ (v : BootVerdict), ∃ m k a b c u, (Live s) ∧ (s.dev.phase = .keyBoot) ∧ (v.testsOk = true) ∧
      (s.fw.bootSlot s.fw.mgmtSlot v.mgmtSlotOk v.mgmtOtherOk = some m) ∧
      (s.fw.bootSlot s.fw.keSlot v.keSlotOk v.keOtherOk = some k) ∧ (¬(s.fw.mgmtSlot = m ∧ s.fw.keSlot = k)) ∧
      (a = (if s.fw.mgmtSlot = m then s else s.recOp 0x0002 0 0 0 m)) ∧
      (b = (if s.fw.keSlot = k then a else a.recOp 0x0002 0 0 0 k)) ∧
      (c = ({ b with fw.mgmtSlot := m, fw.keSlot := k } : State).writeSlots) ∧
      (u = { c with
         fw.mgmtSlot := m, fw.keSlot := k, fw.runMgmt := m, fw.runKe := k, ready.keyEngine := true
         dev.phase := .keyUp, ctl.expActive := 1, ctl.expStaged := 1 })) ∧
    (∃ (s : State), ∃ (v : BootVerdict), (Live s) ∧ (s.dev.phase = .keyBoot) ∧ (v.testsOk = true) ∧
      (v.mgmtSlotOk = false) ∧ (v.mgmtOtherOk = false)) ∧
    (∃ (s : State), ∃ g, (Live s) ∧ (s.dev.phase = .keyUp) ∧ (s.dev.halt = none) ∧ (g = (s.fab.ngen + 1) % 16)) ∧
    (∃ (s : State), ∃ f m u, (Live s) ∧ (f < 16) ∧ (s.dev.phase = .running) ∧ (bit s.dev.fieldTested f = false) ∧
      (u = (bindTested m).zipIdx.foldl (fun (u : State) x => u.modStation (9 * f + x.2) fun y => { y with
                                          st := x.1, idleFrom := u.dev.tick }) s)) ∧
    (∃ (s : State), ∃ f, (Live s) ∧ (f < 16) ∧ (bit s.dev.fieldReset f = true) ∧
      (∀ j < 9, (s.station (9 * f + j)).run = none ∧ ∀ k, (s.station (9 * f + j)).st ≠ .fenced k)) ∧
    (∃ (s : State), ∃ c, (Live s) ∧ (c < 4) ∧ (s.mgmtUp = true) ∧ (s.dev.halt = none)) ∧
    (∃ (s : State), ∃ c, (Live s) ∧ (s.dev.mgmtReset = some c)) ∧
    (∃ (s u v w : State), ∃ n, (Live s) ∧ (s.dev.halt = none) ∧
      (u = ({ s with dev.halt := some n } : State).recOp 0x0003 0 0 0 n) ∧
      (v = (u.ports.filter fun p => p.2.st != .dark && p.2.st != .down).foldl (fun v p => v.portDown p.1 0) u) ∧
      (w = { v with
         stk.units := v.stk.units.each fun _ k => if k.selfRef == .none then { k with selfRef := .entering } else k }) ∧
      (n = 2)) ∧
    (∃ (s u v w : State), ∃ n, (Live s) ∧ (s.dev.halt = none) ∧
      (u = ({ s with dev.halt := some n } : State).recOp 0x0003 0 0 0 n) ∧
      (v = (u.ports.filter fun p => p.2.st != .dark && p.2.st != .down).foldl (fun v p => v.portDown p.1 0) u) ∧
      (w = { v with
         stk.units := v.stk.units.each fun _ k => if k.selfRef == .none then { k with selfRef := .entering } else k }) ∧
      (n = 0)) :=
  ⟨⟨{ State.reset with dev.resetN := true }, by decide +kernel⟩,
   ⟨{ State.reset with dev.resetN := false }, by decide +kernel⟩,
   ⟨{ State.reset with dev.resetN := false }, true, _, by decide +kernel, rfl, by decide +kernel⟩,
   ⟨{ State.reset with dev.resetN := true, dev.phase := .off }, false, _, by decide +kernel, rfl, by decide +kernel⟩,
   ⟨{ fabric with dev.phase := .keyBoot },
    { testsOk := true, mgmtSlotOk := true, mgmtOtherOk := false, keSlotOk := true, keOtherOk := true, configOk := true
      hssReadable := true, recoverOk := true, provision := none }, live_of (by decide +kernel), by decide +kernel,
    by decide +kernel, _, by decide +kernel, by decide +kernel, by decide +kernel, by decide +kernel, rfl⟩,
   ⟨{ fabric with dev.phase := .keyBoot, fw.slotB := { state := .bootable } },
    { testsOk := true, mgmtSlotOk := false, mgmtOtherOk := true, keSlotOk := true, keOtherOk := true, configOk := true
      hssReadable := true, recoverOk := true, provision := none }, 1, 0, _, _, _, _, live_of (by decide +kernel),
    by decide +kernel, by decide +kernel, by decide +kernel, by decide +kernel, by decide +kernel, rfl, rfl, rfl, rfl⟩,
   ⟨{ fabric with dev.phase := .keyBoot },
    { testsOk := true, mgmtSlotOk := false, mgmtOtherOk := false, keSlotOk := true, keOtherOk := true
      configOk := true, hssReadable := true, recoverOk := true, provision := none }, live_of (by decide +kernel),
    by decide +kernel, by decide +kernel, by decide +kernel, by decide +kernel⟩,
   ⟨{ fabric with dev.phase := .keyUp }, _, live_of (by decide +kernel), by decide +kernel, by decide +kernel, rfl⟩,
   ⟨fabric, 15, 511, _, live_of (by decide +kernel), by decide +kernel, by decide +kernel, by decide +kernel, rfl⟩,
   ⟨{ fabric with dev.fieldReset := 2 ^ 15 }, 15, live_of (by decide +kernel), by decide +kernel, by decide +kernel,
    (fun j _ => ⟨rfl, fun k hk => by cases hk⟩)⟩,
   ⟨fabric, 3, live_of (by decide +kernel), by decide +kernel, by decide +kernel, by decide +kernel⟩,
   ⟨{ fabric with dev.mgmtReset := some 1 }, 1, live_of (by decide +kernel), by decide +kernel⟩,
   ⟨fabric, _, _, _, 2, live_of (by decide +kernel), by decide +kernel, rfl, rfl, rfl, by decide +kernel⟩,
   ⟨fabric, _, _, _, 0, live_of (by decide +kernel), by decide +kernel, rfl, rfl, rfl, by decide +kernel⟩⟩

/-- The header of a full image of version 5 with one wrap record, for `id`; its chunk carries one byte. -/
def pkgHead (id : Nat) : List Byte := leBytes 0x504 64 ++ (leBytes id 48 ++ List.replicate 1744 0)
/-- A stage through channel 4, with what has come of its package. -/
def staged (head : List Byte) : Stage := { channel := some 4, cmd := none, target := 1, due := 7, head }
/-- The channel, of which `n` of 5,573 bytes have come. -/
def chanOf (n : Nat) : Bulk := { session := 1, bytes := 5573, offset := n, consumer := some .stage, due := 7 }
def staging (head : List Byte) (n : Nat) : State :=
  { fabric with fw.staging := some (staged head), fw.fusedSec := 4, ctl.bulk := [(4, chanOf n)] }
/-- A stage from the card. -/
def cardStage : Stage := { channel := none, cmd := none, target := 1, due := 7 }

theorem leNat_leBytes (n x : Nat) : leNat (leBytes x n) = x % 256 ^ n := by
  induction n generalizing x with
  | zero => simp [leBytes, leNat, Nat.mod_one]
  | succ n ih =>
    have h : x % 256 ^ (n + 1) = x % 256 + 256 * (x / 256 % 256 ^ n) := by rw [Nat.pow_succ', Nat.mod_mul]
    rw [leBytes, leNat, ih, BitVec.toNat_ofNat, h]

theorem leBytes_length (n x : Nat) : (leBytes x n).length = n := by
  induction n generalizing x with
  | zero => rfl
  | succ n ih => rw [leBytes, List.length_cons, ih]

theorem pkgHead_record (id : Nat) (h : id < 2 ^ 384) : hasRecord (pkgHead id) 1 id = true := by
  have e : (recordAt (pkgHead id) 0).identity = leBytes id 48 := by
    simp only [recordAt, WrapRecord.read, pkgHead, slice, leBytes]
    rfl
  have m : id % 256 ^ 48 = id := Nat.mod_eq_of_lt (by omega)
  simp only [hasRecord, List.range_succ, List.range_zero, List.nil_append, List.any_cons, List.any_nil, Bool.or_false, e,
    leNat_leBytes, m, beq_self_eq_true]

theorem pkgHead_fault (id : Nat) (h : id = Config.identityHash.toNat) (n : Nat) :
    (staging (pkgHead id) n).pkgFault (staged (pkgHead id)) 5573 = none := by
  have hr := pkgHead_record id (h ▸ Config.identityHash.isLt)
  have r : PkgHeader.read (pkgHead id) = { nonce := 0, srcDigest := 0, recordsM1 := 0, imgVer := 5, delta := false, secVer := 4 } := by
    have t : (pkgHead id).take 64 = leBytes 0x504 64 := by
      rw [pkgHead, List.take_append_of_le_length (by decide +kernel), List.take_of_length_le (by decide +kernel)]
    rw [PkgHeader.read, t]
    decide +kernel
  have w : (pkgHead id).length = 1856 := by
    rw [pkgHead, List.length_append, List.length_append, leBytes_length, leBytes_length, List.length_replicate]
  have l : (staged (pkgHead id)).hasHead = true := by
    simp only [Stage.hasHead, staged, r, w]
    decide
  unfold State.pkgFault
  rw [l]
  show (if _ then _ else _) = _
  simp only [staged, r, Bool.not_true, Bool.false_eq_true, if_false]
  rw [if_neg (show ¬(4 < (staging (pkgHead id) n).fw.fusedSec) from Nat.lt_irrefl 4), ← h]
  simp only [PkgHeader.records, Nat.zero_add, hr, Bool.not_true, Bool.false_eq_true, if_false, Bool.false_and]
  rw [show PkgHeader.fits _ 5573 = true by decide +kernel]
  rfl

theorem wit_firmware_events :
    (∃ s st n, (Live s) ∧ (s.fw.staging = some st) ∧ (st.channel = none) ∧ (s.fw.fusedSec ≤ n)) ∧
    (∃ s st n, (Live s) ∧ (s.fw.staging = some st) ∧ (st.channel = none) ∧ (n < s.fw.fusedSec)) ∧
    (∃ s st ch k, (Live s) ∧ (s.fw.staging = some st) ∧ (st.channel = some ch) ∧ (s.ctl.bulk.find ch = some k) ∧
      (k.offset = k.bytes) ∧ (s.pkgFault st k.bytes = none)) ∧
    (∃ s st ch k, ∃ i x, (Live s) ∧ (s.fw.staging = some st) ∧ (st.channel = some ch) ∧ (s.ctl.bulk.find ch = some k) ∧
      (k.offset = k.bytes) ∧ (s.pkgFault st k.bytes = some (i, x))) ∧
    (∃ s st i, (Live s) ∧ (s.fw.staging = some st) ∧
      (∀ j x, s.stageSays st = some (some (j, x)) → st.hasHead = true → i ≤ j)) ∧
    (∃ s st ch k i j x, (Live s) ∧ (s.fw.staging = some st) ∧ (st.channel = some ch) ∧ (s.ctl.bulk.find ch = some k) ∧
      (st.hasHead = true) ∧ (s.pkgFault st k.bytes = some (j, x)) ∧ (j < i)) ∧
    (∃ (s : State), ∃ st, (Live s) ∧ (s.fw.staging = some st) ∧ (st.due ≤ s.dev.tick)) ∧
    (∃ (s : State), ∃ n, (Live s) ∧ (s.fw.trial = some n) ∧ (s.dev.phase = .running)) ∧
    (∃ (s : State), ∃ n, (Live s) ∧ (s.fw.trial = some n) ∧ (s.fw.trialDue ≤ s.dev.tick)) ∧
    (∃ (s : State), ∃ u, (Live s) ∧ (s.dev.keRestart = true) ∧
      (u = { s with dev.keRestart := false, ready.keyEngine := true, fw.activate := none }) ∧ ∃ n r,
      (s.fw.activate = some (2, n, r))) ∧
    (∃ (s : State), ∃ u, (Live s) ∧ (s.dev.keRestart = true) ∧
      (u = { s with dev.keRestart := false, ready.keyEngine := true, fw.activate := none }) ∧ ∃ n r,
      (s.fw.activate = some (1, n, r))) ∧
    (∃ (s : State), ∃ u, (u = { s with fw.cardIn := false, fw.cardFile := false }) ∧ (s.fw.staging = none)) ∧
    (∃ (s : State), ∃ u, (u = { s with fw.cardIn := false, fw.cardFile := false }) ∧ ∃ st, (s.fw.staging = some st) ∧
      (st.channel = none)) ∧
    (∃ (s : State), ∃ (u : State), ∃ (st : Stage), ∃ ch, (u = { s with fw.cardIn := false, fw.cardFile := false }) ∧
      (s.fw.staging = some st) ∧ (st.channel = some ch)) :=
  ⟨⟨{ fabric with fw.staging := some cardStage, fw.fusedSec := 4 }, cardStage, 4, live_of (by decide +kernel),
    by decide +kernel, by decide +kernel, by decide +kernel⟩,
   ⟨{ fabric with fw.staging := some cardStage, fw.fusedSec := 4 }, cardStage, 3, live_of (by decide +kernel),
    by decide +kernel, by decide +kernel, by decide +kernel⟩,
   ⟨(staging (pkgHead Config.identityHash.toNat) 5573), (staged (pkgHead Config.identityHash.toNat)), 4, (chanOf 5573),
    live_of (by decide +kernel), rfl, rfl, rfl, rfl, pkgHead_fault _ rfl _⟩,
   ⟨(staging (leBytes 0x503 64 ++ zeros.take 1792) 5573), (staged (leBytes 0x503 64 ++ zeros.take 1792)), 4,
    (chanOf 5573), 1, .denied, live_of (by decide +kernel), by decide +kernel, by decide +kernel, by decide +kernel,
    by decide +kernel, by decide +kernel⟩,
   ⟨(staging (leBytes 0x503 64 ++ zeros.take 1792) 5573), (staged (leBytes 0x503 64 ++ zeros.take 1792)), 1,
    live_of (by decide +kernel), by decide +kernel,
    (by intro j x hs _; have e : (staging (leBytes 0x503 64 ++ zeros.take 1792) 5573).stageSays (staged (leBytes 0x503 64 ++ zeros.take 1792)) = some (some (1, .denied)) := (by decide +kernel); rw [e] at hs; cases hs; decide)⟩,
   ⟨(staging (leBytes 0x503 64 ++ zeros.take 1792) 5573), (staged (leBytes 0x503 64 ++ zeros.take 1792)), 4,
    (chanOf 5573), 4, 1, .denied, live_of (by decide +kernel), by decide +kernel, by decide +kernel, by decide +kernel,
    by decide +kernel, by decide +kernel, by decide +kernel⟩,
   ⟨{ fabric with
      fw.staging := some { channel := none, cmd := none, target := 1, due := 7 }, fw.fusedSec := 4, dev.tick := 7 },
    { channel := none, cmd := none, target := 1, due := 7 }, live_of (by decide +kernel), by decide +kernel,
    by decide +kernel⟩,
   ⟨{ fabric with fw.trial := some 0 }, 0, live_of (by decide +kernel), by decide +kernel, by decide +kernel⟩,
   ⟨{ fabric with fw.trial := some 0 }, 0, live_of (by decide +kernel), by decide +kernel, by decide +kernel⟩,
   ⟨{ fabric with dev.keRestart := true, fw.activate := some (2, 1, { session := 1, cmdId := 1 }) }, _,
    live_of (by decide +kernel), by decide +kernel, rfl, 1, { session := 1, cmdId := 1 }, by decide +kernel⟩,
   ⟨{ fabric with dev.keRestart := true, fw.activate := some (1, 1, { session := 1, cmdId := 1 }) }, _,
    live_of (by decide +kernel), by decide +kernel, rfl, 1, { session := 1, cmdId := 1 }, by decide +kernel⟩,
   ⟨fabric, _, rfl, by decide +kernel⟩,
   ⟨{ fabric with
      fw.staging := some { channel := none, cmd := none, target := 1, due := 7 }, fw.fusedSec := 4, dev.tick := 7 }, _,
    rfl, { channel := none, cmd := none, target := 1, due := 7 }, by decide +kernel, by decide +kernel⟩,
   ⟨(staging [] 0), _, (staged []), 4, rfl, by decide +kernel, by decide +kernel⟩⟩

theorem wit_step_takes_front :
    (∃ s : State, (s.pending = []) ∧ (s.dead = true ∨ s.dev.halt = some 0)) ∧
    (∃ s : State, (s.pending = []) ∧ (s.dead = false) ∧ (s.dev.halt ≠ some 0)) :=
  ⟨⟨State.reset, rfl, .inl rfl⟩,
   ⟨base, rfl, rfl, by decide +kernel⟩⟩

theorem wit_every_command_completes :
    (∃ i : Instr, i.wf = true) ∧
    (∃ (i : Instr) (s : State), (i.wf = true) ∧ (s.dead = true) ∧ (i ≠ .resetNAssert) ∧ (∀ b, i ≠ .coldBoot b) ∧
      (i ≠ .vddAonLoss) ∧ (i ≠ .sdCardRemoval)) :=
  ⟨⟨.portLightDetect 63, by decide +kernel⟩,
   ⟨.portLightDetect 63, State.reset, by decide +kernel, rfl, nofun, nofun, nofun, nofun⟩⟩

theorem wit_step_keeps_sane :
    (∃ s t, (Sane s) ∧ (step s = .next t)) :=
  ⟨{ fabric with pending := [.portLightDetect 63] }, _, sane_of rfl rfl rfl rfl ⟨by decide, by decide, by decide⟩, rfl⟩

theorem wit_step_onward :
    (∃ s t, (Sane s) ∧ (step s = .next t)) :=
  ⟨{ fabric with pending := [.portLightDetect 63] }, _, sane_of rfl rfl rfl rfl ⟨by decide, by decide, by decide⟩, rfl⟩

theorem wit_formats_preloaded :
    (∃ n, (n < 14)) ∧
    (∃ c s x t, (Reaches formatLoadSpec c true true s x t) ∧ (bits c.block 68 64 < 14)) :=
  ⟨⟨13, by decide +kernel⟩,
   ⟨(op 0xd00000000000011c2 16), base, _, _, reaches_of (by decide +kernel), by decide +kernel⟩⟩

theorem wit_sector_reads_back :
    (∃ (s t : State) (n : Nat) (b : List Byte), (b.length = 256) ∧ (t = (s.writeSector n 0 b false).2) ∧
      (t.keyHeld n (t.secMeta n) = true)) :=
  ⟨base, _, 0, List.replicate 256 7, List.length_replicate, rfl, by decide +kernel⟩

theorem wit_versions_hold :
    (∃ i c spec body sigOk auxOk s x t, (∀ u, exec i u = ccpRowOf spec body c sigOk auxOk u) ∧
      (Taken spec c sigOk auxOk s x t) ∧ (x.sess.ver < spec.first)) ∧
    (∃ i c spec body sigOk auxOk s x t, (∀ u, exec i u = ccpRowOf spec body c sigOk auxOk u) ∧
      (Taken spec c sigOk auxOk s x t) ∧ (spec.first ≤ x.sess.ver) ∧ (spec.len c.block c.total = true) ∧
      (∀ r ∈ spec.resv, bits c.block r.1 r.2 = 0) ∧ (spec.also c.block = false) ∧ (spec.old x.sess.ver c.block = true)) :=
  ⟨⟨(.ethSet (op 0 16)), (op 0 16), ethSetSpec, bodyEthSet, true, true,
    { base with ctl.sessions := [(1, { opSes with ver := 0 })] }, _, _, fun _ => rfl, taken_of (by decide +kernel),
    by decide +kernel⟩,
   ⟨(.powerSet (op 0x800000000000000000 16)), (op 0x800000000000000000 16), powerSetSpec, bodyPowerSet, true, true,
    { base with ctl.sessions := [(1, { opSes with ver := 1 }), (2, { tnSes with ver := 2 })] }, _, _, fun _ => rfl,
    taken_of (by decide +kernel), by decide +kernel, by decide +kernel, by decide +kernel, by decide +kernel,
    by decide +kernel⟩⟩

theorem wit_tenant_delete :
    (∃ c s x t, (Taken tenantDeleteSpec c true true s x t) ∧ (1 ≤ x.sess.ver) ∧ (c.total = 8) ∧ (t.passive = false) ∧
      (bits c.block 63 16 ≠ 0)) ∧
    (∃ c s x t, (Taken tenantDeleteSpec c true true s x t) ∧ (1 ≤ x.sess.ver) ∧ (c.total = 8) ∧ (t.passive = false) ∧
      (bits c.block 63 16 = 0) ∧ (x.isOp = false)) ∧
    (∃ c s x t, (Taken tenantDeleteSpec c true true s x t) ∧ (1 ≤ x.sess.ver) ∧ (c.total = 8) ∧ (t.passive = false) ∧
      (bits c.block 63 16 = 0) ∧ (x.isOp = true) ∧ ∃ v, (t.tenantOf (bits c.block 15 0) = some v) ∧
      (v.sess ≠ .closed ∨ t.charge (bits c.block 15 0) ≠ 0 ∨ v.reserve ≠ 0)) ∧
    (∃ c s x t, (Taken tenantDeleteSpec c true true s x t) ∧ (1 ≤ x.sess.ver) ∧ (c.total = 8) ∧ (t.passive = false) ∧
      (bits c.block 63 16 = 0) ∧ (x.isOp = true) ∧ ∃ v, (t.tenantOf (bits c.block 15 0) = some v) ∧ (v.sess = .closed) ∧
      (t.charge (bits c.block 15 0) = 0) ∧ (v.reserve = 0)) :=
  ⟨⟨(op 0x10005 8), base, _, _, taken_of (by decide +kernel), by decide +kernel, by decide +kernel, by decide +kernel,
    by decide +kernel⟩,
   ⟨(tn 5 8), base, _, _, taken_of (by decide +kernel), by decide +kernel, by decide +kernel, by decide +kernel,
    by decide +kernel, by decide +kernel⟩,
   ⟨(op 5 8), base, _, _, taken_of (by decide +kernel), by decide +kernel, by decide +kernel, by decide +kernel,
    by decide +kernel, by decide +kernel, ten5, by decide +kernel, by decide +kernel⟩,
   ⟨(op 6 8), { base with ten.tenants := [(6, { keyHash := 0 })] }, _, _, taken_of (by decide +kernel),
    by decide +kernel, by decide +kernel, by decide +kernel, by decide +kernel, by decide +kernel, { keyHash := 0 },
    by decide +kernel, by decide +kernel, by decide +kernel, by decide +kernel⟩⟩

end Sys2Proof.Tests
end

namespace Sys2Proof.Machine

/-! The checks common to every command (18 R467): one that fails refuses the command, which then does nothing else. -/

@[simp] theorem firstRefuse_cons (failed : Bool) (r : Refuse) (l : List (Bool × Refuse)) :
    firstRefuse ((failed, r) :: l) = if failed then some r else firstRefuse l := by
  cases failed <;> rfl

/-- A command that is taken and fails a common check is refused as that check says. -/
theorem taken_refused {spec c a b s x t r} (body : CcpBody) (h : Taken spec c a b s x t)
    (hr : firstRefuse (commonChecks spec x t) = some r) : ccpRowOf spec body c a b s = .next (refused t x r) := by
  rw [taken_serve body h, ccpBegin, checked, hr]
  rfl

theorem commonChecks_of_older_session {spec : CcpSpec} {x : CcpCtx} (t : State) (hv : x.sess.ver < spec.first) :
    firstRefuse (commonChecks spec x t) = some (rf .version 1) := by
  simp [commonChecks, hv]

theorem commonChecks_of_younger_field {spec : CcpSpec} {x : CcpCtx} (t : State) (hv : spec.first ≤ x.sess.ver)
    (hlen : spec.len x.block x.total = true) (hresv : ∀ r ∈ spec.resv, bits x.block r.1 r.2 = 0)
    (halso : spec.also x.block = false) (hold : spec.old x.sess.ver x.block = true) :
    firstRefuse (commonChecks spec x t) = some (rf .version 2) := by
  have known : ¬ x.sess.ver < spec.first := Nat.not_lt.mpr hv
  have zeros : (spec.resv.any fun r => bits x.block r.1 r.2 != 0) = false := by simpa using hresv
  simp [commonChecks, known, hlen, zeros, halso, hold]

theorem taken_block {spec c a b s x t} (h : Taken spec c a b s x t) : x.block = c.block ∧ x.total = c.total := by
  obtain ⟨-, -, -, -, -, v, mb, -, -, -, rfl, -⟩ := h
  exact ⟨rfl, rfl⟩

/-! The table of commands (18 Table 18-6). -/

/-- What Table 18-6 says of an opcode: its number, its first version, whether an operator and whether a tenant may send it. -/
def rowHeader (r : CcpSpec × CcpBody) : Nat × Nat × Bool × Bool := (r.1.opcode, r.1.first, r.1.op, r.1.tn)

theorem ccpRow_opcode {op : Nat} {r : CcpSpec × CcpBody} (h : ccpRow op = some r) : r.1.opcode = op := by
  simpa using List.find?_some h

/-- To look an opcode up in the table and read its header is to look it up among the headers. -/
theorem ccpRow_header (op : Nat) : (ccpRow op).map (fun r => (op, r.1.first, r.1.op, r.1.tn)) =
    (ccpTable.map rowHeader).find? fun r => r.1 == op := by
  calc (ccpRow op).map (fun r => (op, r.1.first, r.1.op, r.1.tn))
      = (ccpRow op).map rowHeader := Option.map_congr fun r hr => by rw [rowHeader, ccpRow_opcode hr]
    _ = (ccpTable.map rowHeader).find? fun r => r.1 == op := by rw [List.find?_map]; rfl

/-- Settles O59: the version's check is the first of those common to every command, and the check for younger fields comes
right after those of length and reserved fields (18 R467, R470); the list of opcodes is that of the table's headers. -/
theorem versionsHold : Obligations.VersionsHold := by
  refine ⟨fun i c spec body sigOk auxOk s x t hrow htaken => ?_, fun op => ?_⟩
  · obtain ⟨hblock, htotal⟩ := taken_block htaken
    rw [hrow s, ← hblock, ← htotal]
    exact ⟨fun older => taken_refused body htaken (commonChecks_of_older_session t older),
      fun hv hlen hresv halso hold =>
        taken_refused body htaken (commonChecks_of_younger_field t hv hlen hresv halso hold)⟩
  · rw [ccpRow_header]
    rfl

end Sys2Proof.Machine

namespace Sys2Proof.Machine

/-! Rows of a device that acts (21 R517): a row of a unit that the device has leaves what it does and all that follows. -/

theorem effect_of_live {s : State} (ok : Bool) (f : State → State) (live : Live s) (hok : ok = true) :
    effect ok f s = .next (f s).settle := by
  have awake : s.dead = false := live
  simp [effect, State.after, hok, awake]

theorem exec_tileStepEnd {s : State} {n : Nat} (sid i k : Nat) (check : StepCheck) (live : Live s) (hn : n < 144) :
    exec (.tileStepEnd n sid i k check) s = .next (s.stepEnd n sid i k check).settle :=
  effect_of_live _ (fun s => s.stepEnd n sid i k check) live (decide_eq_true hn)

theorem exec_stepWatchdogExpiry {s : State} {n : Nat} (live : Live s) (hn : n < 144) :
    exec (.stepWatchdogExpiry n) s = .next (s.stepWatchdog n).settle :=
  effect_of_live _ (fun s => s.stepWatchdog n) live (decide_eq_true hn)

theorem exec_fenceStateMoved {s : State} {n : Nat} (lost : List (Nat × Nat)) (live : Live s) (hn : n < 144) :
    exec (.fenceStateMoved n lost) s = .next (s.fenceMoved n lost).settle :=
  effect_of_live _ (fun s => s.fenceMoved n lost) live (decide_eq_true hn)

theorem exec_tileFinalWriteDone {s : State} (sid i : Nat) (live : Live s) :
    exec (.tileFinalWriteDone sid i) s = .next (s.tileWritten sid i).settle :=
  effect_of_live true (fun s => s.tileWritten sid i) live rfl

theorem exec_extentTileIssue {s : State} (sid : Nat) (live : Live s) :
    exec (.extentTileIssue sid) s = .next (s.issueTile sid).settle :=
  effect_of_live true (fun s => s.issueTile sid) live rfl

theorem exec_streamIdleTimeout {s : State} (sid : Nat) (live : Live s) :
    exec (.streamIdleTimeout sid) s = .next (s.streamIdle sid).settle :=
  effect_of_live true (fun s => s.streamIdle sid) live rfl

theorem exec_streamReleaseTimeout {s : State} (sid : Nat) (live : Live s) :
    exec (.streamReleaseTimeout sid) s = .next (s.streamRelease sid).settle :=
  effect_of_live true (fun s => s.streamRelease sid) live rfl

/-! A step (log 1, log 4): the front command, or one tick of the slow clock (01 R25, R26). -/

theorem idleTick_of_still {s : State} (still : s.dead = true ∨ s.dev.halt = some 0) : idleTick s = s := by
  obtain off | lost := still
  · simp [idleTick, off]
  · simp [idleTick, lost]

theorem idleTick_of_clocked {s : State} (live : Live s) (clock : s.dev.halt ≠ some 0) :
    idleTick s = (((({ s with dev.tick := s.dev.tick + 1 } : State).stackTick.cadenceTick.populationTick.echoSecond.releaseTx
      0).releaseTx 1).idleRounds.idleHubs).settle := by
  have awake : s.dead = false := live
  rw [idleTick, awake, Bool.false_or, if_neg (by simpa using clock)]

theorem step_of_empty {s : State} (none_waits : s.pending = []) : step s = .next (idleTick s) := by
  rw [step, none_waits]

/-- Settles O52: `step` asks the queue alone; on an empty one it is the idle tick, which a device
without power, in reset or without reference does not take. -/
theorem stepTakesFront : Obligations.StepTakesFront := by
  refine ⟨fun c rest s => rfl, fun s empty still => ?_, fun s empty live clock => ?_⟩
  · rw [step_of_empty empty, idleTick_of_still still]
  · rw [step_of_empty empty, idleTick_of_clocked live clock]

/-! The end of a step at a station (01 R17, R18): what the checks found decides. -/

section StepEnd

variable {s : State} {n sid i : Nat}

theorem stepEnd_store {x : Option Nat} (k : Nat) (hrun : (s.station n).run = some (sid, i, x)) :
    s.stepEnd n sid i k .store = s.fenceStation n 0 := by
  simp [State.stepEnd, hrun]

theorem stepEnd_residue {x : Option Nat} (k : Nat) (hrun : (s.station n).run = some (sid, i, x)) :
    s.stepEnd n sid i k .residue = s.fenceStation n 1 := by
  simp [State.stepEnd, hrun]

/-- A tile's step that passes its checks is charged, and done unless the ledger or its split ends it (R53). -/
theorem stepEnd_ok {v : Stream} {t : Tile} (k : Nat) (hrun : (s.station n).run = some (sid, i, none))
    (htile : s.tileOf sid i = some (v, t)) :
    s.stepEnd n sid i k .ok = if rsKind (v.steps.getD t.step 0) = kLedger ∨ t.ended = true then s.chargeCycles n sid k none
      else (s.chargeCycles n sid k none).stepDone n sid i v t := by
  simp [State.stepEnd, hrun, htile]

theorem fenceStation_of_bound {slot : Nat} (cause : Nat) (hst : (s.station n).st = .bound slot) :
    s.fenceStation n cause = (((s.putStation n { s.station n with st := .fenced slot }).recOp 0x0401 9 n 0
      cause).evacuate n).assignStations := by
  rw [State.fenceStation, hst]
  rfl

/-- The watchdog fences the station of the item it ran out on, unless that item waits on a held pseudo-channel (10 R293). -/
theorem stepWatchdog_of_run {x : Option Nat} (hrun : (s.station n).run = some (sid, i, x)) :
    s.stepWatchdog n = if s.onHold sid i then s else s.fenceStation n 2 := by
  rw [State.stepWatchdog, hrun]

end StepEnd

/-! What a fenced station leaves (01 R19). -/

/-- The ledger tiles of a fenced station whose words could not all be read are poisoned. -/
def State.poisonLTiles (s : State) (l : List (Nat × Nat)) : State :=
  l.foldl (fun u x => match u.seq.windows.find x.1 with
    | some y => u.modLTile x.1 x.2 fun l => { l with poison := true, marks := List.range (wTileElems y.desc x.2) }
    | none => u) s

/-- No ledger tile is resident at the station any more. -/
def State.unhome (s : State) (n : Nat) : State :=
  { s with seq.windows := s.seq.windows.each fun _ y => { y with
      tiles := y.tiles.each fun _ l => if l.home == some n then { l with home := none } else l } }

theorem fenceMoved_of_fenced {s : State} {n slot : Nat} (lost : List (Nat × Nat)) (hst : (s.station n).st = .fenced slot) :
    s.fenceMoved n lost =
      let v := ((s.spillAll n).poisonLTiles (lost.filter (s.station n).resident.contains)).unhome n
      ((({ v with pool.l1 := v.pool.l1.del n } : State).ackStopped n).bindAll) := by
  rw [State.fenceMoved, hst]
  rfl

/-! A tile's final write (02 R53). -/

/-- What the final write of a tile puts, the worst condition met, and the state then: the tile's writes, or, where its last step
is a SCATTER that adds, its write-backs and then the sums of its rows. -/
def State.landWrites (u : State) (w i : Nat) (t : Tile) : List TileWrite × Status × State :=
  if rsKind w == kScatter && rsOp w == 1 then
    let backs := sumOf (t.outs.map fun o => (Span.mk o.va o.bytes.length true).pieces.length)
    let b := u.putWrites (t.writes.take backs)
    let a := b.2.scatterAdd w i 0 65536 (t.writes.drop backs)
    (t.writes.take backs ++ a.1, b.1.worse a.2.1, a.2.2)
  else (t.writes, u.putWrites t.writes)

/-- The copies of a tile whose stream's sink is a multicast group leave (13 R373). -/
def State.copyOut (b : State) (v : Stream) (i : Nat) (y : Tile) : State :=
  if hdSink v.head == 3 then b.multicast v i y y.condSt else b

/-- What the final write of a CHECK tile adds to its stream, whose last step is `w`. -/
def State.noteCheck (c : State) (sid i w : Nat) (y : Tile) : State :=
  if rsKind w == kCheck then
    c.modStream sid fun v => if rsOp w == 0 then { v with check := (v.check + y.diff) % 2 ^ 64 }
      else { v with checkHeld := v.checkHeld.put i (y.data.take (c.packed (rsIn w) y.count)) }
  else c

/-- The tile ends, at once or when the standby has its writes (16 R434). -/
def State.endWritten (d : State) (sid i : Nat) (v : Stream) (y : Tile) (writes : List TileWrite) : State :=
  let m := d.mirrorWrites writes [] (.tile sid i)
  if m.1 then
    (if thKind y.hdr == tkAppend then m.2.mirrorFrontier y (.tile sid i) else m.2).modTile sid i fun t => { t with st := .mirror }
  else m.2.endTile sid i y.condSt (resultPayload v i y y.condSt)

section FinalWrite

variable {s u : State} {sid i w : Nat} {v : Stream} {t y : Tile}

theorem landWrites_of_plain (h : ¬ (rsKind w = kScatter ∧ rsOp w = 1)) :
    u.landWrites w i t = (t.writes, u.putWrites t.writes) := by
  simp only [State.landWrites, Bool.and_eq_true, beq_iff_eq, if_neg h]

theorem landWrites_of_adding (h : rsKind w = kScatter) (hop : rsOp w = 1) :
    u.landWrites w i t =
      let n := sumOf (t.outs.map fun o => (Span.mk o.va o.bytes.length true).pieces.length)
      let p := u.putWrites (t.writes.take n)
      let q := p.2.scatterAdd w i 0 65536 (t.writes.drop n)
      (t.writes.take n ++ q.1, p.1.worse q.2.1, q.2.2) := by
  simp [State.landWrites, h, hop]

theorem copyOut_eq (b : State) : b.copyOut v i y = if hdSink v.head = 3 then b.multicast v i y y.condSt else b := by
  simp [State.copyOut]

theorem noteCheck_of_other {c : State} (h : rsKind w ≠ kCheck) : c.noteCheck sid i w y = c := by
  simp [State.noteCheck, h]

theorem noteCheck_of_sum {c : State} (h : rsKind w = kCheck) (hop : rsOp w = 0) :
    c.noteCheck sid i w y = c.modStream sid fun v => { v with check := (v.check + y.diff) % 2 ^ 64 } := by
  simp [State.noteCheck, h, hop]

theorem noteCheck_of_held {c : State} (h : rsKind w = kCheck) (hop : rsOp w ≠ 0) :
    c.noteCheck sid i w y = c.modStream sid fun v =>
      { v with checkHeld := v.checkHeld.put i (y.data.take (c.packed (rsIn w) y.count)) } := by
  simp [State.noteCheck, h, hop]

theorem endWritten_now {d : State} {l : List TileWrite} (h : (d.mirrorWrites l [] (.tile sid i)).1 = false) :
    d.endWritten sid i v y l =
      (d.mirrorWrites l [] (.tile sid i)).2.endTile sid i y.condSt (resultPayload v i y y.condSt) := by
  simp [State.endWritten, h]

theorem endWritten_mirrored {d : State} {l : List TileWrite} (h : (d.mirrorWrites l [] (.tile sid i)).1 = true)
    (hkind : thKind y.hdr ≠ tkAppend) :
    d.endWritten sid i v y l =
      (d.mirrorWrites l [] (.tile sid i)).2.modTile sid i fun t => { t with st := .mirror } := by
  simp [State.endWritten, h, hkind]

theorem endWritten_append {d : State} {l : List TileWrite} (h : (d.mirrorWrites l [] (.tile sid i)).1 = true)
    (hkind : thKind y.hdr = tkAppend) :
    d.endWritten sid i v y l = ((d.mirrorWrites l [] (.tile sid i)).2.mirrorFrontier y (.tile sid i)).modTile sid i
      fun t => { t with st := .mirror } := by
  simp [State.endWritten, h, hkind]

/-- A final write whose lines are not there yet waits for them. -/
theorem tileWritten_waits (htile : s.tileOf sid i = some (v, t)) (hst : t.st = .writing)
    (hguard : s.guardWrites (.tile sid i) t.writes = (.waits, u)) :
    s.tileWritten sid i = u.modTile sid i fun t => { t with ended := true } := by
  simp [State.tileWritten, htile, hst, hguard]

/-- A final write that may run lands, is copied, counts for its CHECK and ends its tile. -/
theorem tileWritten_lands (htile : s.tileOf sid i = some (v, t)) (hst : t.st = .writing)
    (hguard : s.guardWrites (.tile sid i) t.writes = (.yes, u)) (hw : w = v.steps.getLast?.getD 0) :
    s.tileWritten sid i =
      let a := u.landWrites w i t
      let y := t.meet a.2.1
      let b := (a.2.2.dropGot (.tile sid i)).modTile sid i fun _ => y
      ((b.copyOut v i y).noteCheck sid i w y).endWritten sid i v y a.1 := by
  have writing : (t.st != .writing) = false := by rw [hst]; rfl
  rw [State.tileWritten, htile]
  dsimp only
  rw [writing, if_neg Bool.false_ne_true, hguard, hw]
  rfl

end FinalWrite

/-! Streams: the next tile of an extent, and their timers (02 R47, R59). -/

theorem issueTile_of_next {s : State} {sid i : Nat} {v : Stream} (hv : s.str.streams.find sid = some v)
    (hsrc : hdSrc v.head = 1) (hopen : v.closed = false) (hstays : v.ended = false) (hroom : v.tiles.length < 64)
    (hnext : nextIssue v = some i) :
    s.issueTile sid = s.enterTile v i
      (outHeader (if isTable (rsKind (v.steps.headD 0)) then tkIndex else tkData) 0
        (if isTable (rsKind (v.steps.headD 0)) then 13 else rsIn (v.steps.headD 0)) (hdElems v.head)
        (s.inBytes v.head v.steps) sid i (s.str.epochs.findD sid 0) 0 (hdCookie v.head)) none := by
  have room : ¬ 64 ≤ v.tiles.length := Nat.not_le.mpr hroom
  simp [State.issueTile, hv, hsrc, hopen, hstays, room, hnext]

theorem streamIdle_of_due {s : State} {sid : Nat} {v : Stream} (hv : s.str.streams.find sid = some v)
    (hopen : v.closed = false) (hsrc : hdSrc v.head = 0) (hdue : v.idleDue ≤ s.dev.tick) :
    s.streamIdle sid = s.cutStream sid .timeout := by
  simp [State.streamIdle, hv, hopen, hsrc, hdue]

theorem streamRelease_of_due {s : State} {sid : Nat} {v : Stream} (hv : s.str.streams.find sid = some v)
    (hclosed : v.closed = true) (hempty : v.tiles = []) (hset : v.freeDue ≠ 0) (hdue : v.freeDue ≤ s.dev.tick) :
    s.streamRelease sid = (s.freeStream sid).countTen v.tenant 0 := by
  simp [State.streamRelease, hv, hclosed, hempty, hset, hdue]

/-- Settles O38: each row is what its event does and what follows; the lemmas above say, event by event, which branch the state
takes. A final write is the composition of what lands, what a CHECK notes, and how the tile ends. -/
theorem tileEvents : Obligations.TileEvents := by
  refine ⟨?stepEnd, ?watchdog, ?fenceMoved, ?finalWrite, ?issue, ?timers⟩
  case stepEnd =>
    intro s n sid i k v t live hn hrun
    simp only [exec_tileStepEnd _ _ _ _ live hn]
    refine ⟨by rw [stepEnd_store k hrun], by rw [stepEnd_residue k hrun], fun htile hkind hended => ?_, fun htile hends => ?_⟩
    · have goes_on : ¬ (rsKind (v.steps.getD t.step 0) = kLedger ∨ t.ended = true) :=
        not_or.mpr ⟨hkind, ne_true_of_eq_false hended⟩
      rw [stepEnd_ok k hrun htile, if_neg goes_on]
    · rw [stepEnd_ok k hrun htile, if_pos hends]
  case watchdog =>
    intro s n sid i x slot live hn hrun
    rw [exec_stepWatchdogExpiry live hn, stepWatchdog_of_run hrun]
    refine ⟨fun free hst => ?_, fun held => ?_⟩
    · rw [free, if_neg Bool.false_ne_true, fenceStation_of_bound 2 hst]
    · rw [held, if_pos rfl]
  case fenceMoved =>
    intro s n slot lost u v w live hn hst hu hv hw
    rw [exec_fenceStateMoved lost live hn, fenceMoved_of_fenced lost hst, hw, hv, hu]
    rfl
  case finalWrite =>
    intro s sid i v t w u a y b c d m live htile hst hw
    rw [exec_tileFinalWriteDone sid i live]
    refine ⟨fun hguard => by rw [tileWritten_waits htile hst hguard], ?_⟩
    intro hguard hplain hadding hy hb hc hother hsum hheld hm
    have landed : u.landWrites w i t = a := by
      by_cases adds : rsKind w = kScatter ∧ rsOp w = 1
      · obtain ⟨hkind, hop⟩ := adds
        rw [hadding hkind hop _ _ _ rfl rfl rfl, landWrites_of_adding hkind hop]
      · rw [hplain (Decidable.not_and_iff_or_not.mp adds), landWrites_of_plain adds]
    have copied : b.copyOut v i y = c := by rw [copyOut_eq, hc]
    have noted : c.noteCheck sid i w y = d := by
      by_cases check : rsKind w = kCheck
      · by_cases sum : rsOp w = 0
        · rw [noteCheck_of_sum check sum, hsum check sum]
        · rw [noteCheck_of_held check sum, hheld check sum]
      · rw [noteCheck_of_other check, hother check]
    have written : s.tileWritten sid i = d.endWritten sid i v y a.1 := by
      rw [← noted, ← copied, hb, hy, tileWritten_lands htile hst hguard hw, landed]
    rw [written]
    subst hm
    refine ⟨fun now => ?_, fun waits hkind => ?_, fun waits hkind => ?_⟩
    · rw [endWritten_now now]
    · rw [endWritten_mirrored waits hkind]
    · rw [endWritten_append waits hkind]
  case issue =>
    intro s sid v i first idx live hv hsrc hopen hstays hroom hnext hfirst hidx
    rw [exec_extentTileIssue sid live, issueTile_of_next hv hsrc hopen hstays hroom hnext, hidx, hfirst]
  case timers =>
    intro s sid v live hv
    refine ⟨fun hopen hsrc hdue => ?_, fun hclosed hempty hset hdue => ?_⟩
    · rw [exec_streamIdleTimeout sid live, streamIdle_of_due hv hopen hsrc hdue]
    · rw [exec_streamReleaseTimeout sid live, streamRelease_of_due hv hclosed hempty hset hdue]

end Sys2Proof.Machine

namespace Sys2Proof.Machine

/-! Streams that open (02 R33, R44, R47). -/

/-- A stream enters its context under its number, with its opener's tenant and session, its node and its head; nothing of it is
issued, settled or done. -/
theorem enterStream_stream (s : State) (o : Opener) (node : Nat) (ccp : Option Nat) (head : Nat) (steps : List Nat)
    (tables : List (List Operand)) (areas : List Area) (sid : Nat) :
    ∃ bindings progs, (s.enterStream o node ccp head steps tables areas sid).str.streams.find sid = some
      { tenant := o.tenant, session := o.session, ccp, node, head, steps, operands := tables, progs, bindings
        priority := hdPriority head, count := if hdCount head == 0 then none else some (hdCount head)
        idleDue := s.dev.tick + hdIdle head } :=
  ⟨_, _, Tbl.find_put_same _ _ _⟩

theorem enterStream_lastStream (s : State) (o : Opener) (node : Nat) (ccp : Option Nat) (head : Nat) (steps : List Nat)
    (tables : List (List Operand)) (areas : List Area) (sid : Nat) :
    (s.enterStream o node ccp head steps tables areas sid).ctl.lastStream = some sid := rfl

/-- Of the tests of a descriptor (02 R528) only the branch that passes them all answers a number, and it ends with the stream
entering its context under that number. -/
theorem openStream_enters {s u : State} {o : Opener} {node sid : Nat} {ccp : Option Nat} {who : Access} {desc : List Byte}
    (h : s.openStream o node ccp who desc = (.yes sid, u)) :
    ∃ t steps tables areas, u = State.enterStream t o node ccp (leNat (desc.take 64)) steps tables areas sid := by
  simp only [State.openStream] at h
  repeat' split at h
  all_goals cases h
  exact ⟨_, _, _, _, rfl⟩

/-- Settles O11: an opening that answers a number has entered its stream under it. -/
theorem streamOpened : Obligations.StreamOpened := by
  intro s u o node sid ccp who desc h
  obtain ⟨t, steps, tables, areas, rfl⟩ := openStream_enters h
  obtain ⟨bindings, progs, found⟩ := enterStream_stream t o node ccp (leNat (desc.take 64)) steps tables areas sid
  exact ⟨_, found, rfl, rfl, rfl, rfl, rfl, rfl, rfl, rfl, rfl, rfl, enterStream_lastStream ..⟩

end Sys2Proof.Machine

namespace Sys2Proof.Machine

/-! CCP commands that reach their chapter (17 R451): what the chapter's body answers is what the command does. -/

theorem taken_sid {spec c a b s x t} (h : Taken spec c a b s x t) : x.sid = c.session := by
  obtain ⟨-, -, -, -, -, v, mb, -, -, -, rfl, -⟩ := h
  rfl

section Reached

variable {spec : CcpSpec} {c : CcpCmd} {a b : Bool} {s t u : State} {x : CcpCtx} {body : CcpBody}

theorem reaches_answers {bytes : List Byte} (h : Reaches spec c a b s x t) (hbody : body x t = okBytes u bytes) :
    ccpRowOf spec body c a b s = .next (answer u x bytes) := by
  rw [reaches_serve body h, hbody]
  rfl

theorem reaches_holds (h : Reaches spec c a b s x t) (hbody : body x t = heldCmd u) :
    ccpRowOf spec body c a b s = .next u.settle := by
  rw [reaches_serve body h, hbody]
  rfl

end Reached

/-! The bodies of the stream commands (02 R33, R47 to R50; 14 R394), where nothing refuses them. -/

section StreamBodies

variable {x : CcpCtx} {t u : State} {sid : Nat} {v : Stream}

theorem bodyStreamCreate_opens
    (h : t.openStream { tenant := x.tenant, session := none } 0 (some x.sid) (.command 0x0401 x.ref x.tenant x.block x.total)
      (leBytes x.block x.total) = (.yes sid, u)) :
    bodyStreamCreate x t = okBytes u (leBytes (streamOperand sid (u.str.epochs.findD sid 0)) 8) := by
  simp only [bodyStreamCreate, commandReacher, h, okNum, State.openWord]

theorem ccpStream_of_named (hsid : sid = bits x.block 13 0) (hv : t.namedStream sid (bits x.block 23 16) = some v) :
    t.ccpStream x = (sid, some v) := by
  subst hsid
  rw [State.ccpStream, hv]

theorem bodyStreamClose_of_complete (hs : t.ccpStream x = (sid, some v)) (hown : v.ccp = some x.sid) (hclosed : v.closed = true)
    (hempty : v.tiles = []) : bodyStreamClose x t = okBytes (t.freeStream sid) (recordBytes sid v) := by
  simp [bodyStreamClose, hs, hown, hclosed, hempty]

theorem bodyStreamClose_of_open (hs : t.ccpStream x = (sid, some v)) (hown : v.ccp = some x.sid) (hopen : v.closed = false) :
    bodyStreamClose x t = heldCmd (t.putStream sid { v with closeCmd := v.closeCmd ++ [x.ref] }) := by
  simp [bodyStreamClose, hs, hown, hopen]

theorem bodyStreamAbort_of_open (hs : t.ccpStream x = (sid, some v)) (hown : v.ccp = some x.sid) (hopen : v.closed = false) :
    bodyStreamAbort x t = okBytes (t.cutStream sid .aborted) [] := by
  simp [bodyStreamAbort, hs, hown, hopen, okEmpty]

theorem bodyStreamPriority_of_tenant (hs : t.ccpStream x = (sid, some v)) (hown : v.tenant = x.tenant) :
    bodyStreamPriority x t = okBytes (t.putStream sid { v with priority := bits x.block 26 24 }) [] := by
  simp [bodyStreamPriority, hs, hown, okEmpty]

end StreamBodies

/-- Settles O12: each command reaches its body, and the lemmas above say what the body answers or holds. -/
theorem streamCommands : Obligations.StreamCommands := by
  refine ⟨?create, ?close, ?abort, ?priority⟩
  case create =>
    intro c s x t sid u reached opened
    obtain ⟨hblock, htotal⟩ := taken_block reached.1
    rw [← hblock, ← htotal, ← taken_sid reached.1] at opened
    exact reaches_answers reached (bodyStreamCreate_opens opened)
  case close =>
    intro c s x t sid v reached hsid named own
    rw [← (taken_block reached.1).1] at hsid named
    rw [← taken_sid reached.1] at own
    have found := ccpStream_of_named hsid named
    exact ⟨fun hclosed hempty => reaches_answers reached (bodyStreamClose_of_complete found own hclosed hempty),
      fun hopen => reaches_holds reached (bodyStreamClose_of_open found own hopen)⟩
  case abort =>
    intro c s x t sid v reached hsid named own hopen
    rw [← (taken_block reached.1).1] at hsid named
    rw [← taken_sid reached.1] at own
    exact reaches_answers reached (bodyStreamAbort_of_open (ccpStream_of_named hsid named) own hopen)
  case priority =>
    intro c s x t sid v reached hsid named own
    rw [← (taken_block reached.1).1] at hsid named ⊢
    exact reaches_answers reached (bodyStreamPriority_of_tenant (ccpStream_of_named hsid named) own)

end Sys2Proof.Machine

namespace Sys2Proof.Machine

/-! The agenda (log 23): a request that runs and then comes to rest is all that its packet does. -/

theorem drain_of_empty {s : State} (h : s.todo = []) (n : Nat) : s.drain n = s := by
  cases n with
  | zero => rfl
  | succ n => rw [State.drain, h]

theorem drain_of_next {s : State} {a : Todo} {rest : List Todo} (h : s.todo = a :: rest) (n : Nat) :
    s.drain (n + 1) = (({ s with todo := rest } : State).follow a).drain n := by
  rw [State.drain, h]

theorem drain_add (s : State) (m n : Nat) : s.drain (m + n) = (s.drain m).drain n := by
  induction m generalizing s with
  | zero => rw [Nat.zero_add, State.drain]
  | succ m ih =>
    cases h : s.todo with
    | nil => simp only [drain_of_empty h]
    | cons a rest => rw [Nat.succ_add, drain_of_next h, drain_of_next h, ih]

/-- An agenda that comes to its end within what a turn works off leaves the state that the whole command leaves. -/
theorem settle_of_drain {s v : State} {n : Nat} (hn : n ≤ 1048576) (hv : s.drain n = v) (quiet : Quiet v) : s.settle = v := by
  obtain ⟨idle, still⟩ := quiet
  have turn : s.drain 1048576 = v := by
    rw [← Nat.add_sub_of_le hn, drain_add, hv, drain_of_empty idle]
  have rounds : (4096 : Nat) = 4095 + 1 := rfl
  rw [State.settle, rounds, State.settleFor, turn, still, idle]
  rfl

/-- A packet whose request runs leaves what is at rest after the request (13 R356). -/
theorem kfpRow_of_runs {op : Nat} {p : Packet} {x : Inner} {s u v : State} {r : Req} (runs : Runs op p x s r u)
    (rests : Rests (u.runRequest r) v) : kfpRow op p x s = .next v := by
  obtain ⟨port, live, -, n, hn, a, next, follows, -⟩ := runs
  obtain ⟨m, hm, hv, quiet⟩ := rests
  have worked : (s.packetOn op p x).drain (n + (m + 1)) = v := by
    rw [drain_add, drain_of_next next, follows, hv]
  have bound : n + (m + 1) ≤ 1048576 := by omega
  rw [kfpRow, effect_of_live _ _ live (decide_eq_true port), settle_of_drain bound worked quiet]

/-- A request that no hub serves and that waits for no station runs as soon as it is accepted (14 Table 14-2). -/
theorem acceptRequest_tile (s : State) {r : Req} (h : r.opcode = 0x04) : s.acceptRequest r = s.runRequest r := by
  simp [State.acceptRequest, State.hubPage, State.hubSpan, State.beginRequest, h]

theorem runs_of_accepted_tile {p : Packet} {x : Inner} {s : State} {r : Req} (port : p.port < 64) (live : Live s)
    (h : r.opcode = 0x04) (accepted : (s.packetOn 0x04 p x).todo = [.accept r]) :
    Runs 0x04 p x s r { s.packetOn 0x04 p x with todo := [] } :=
  ⟨port, live, h, 0, Nat.zero_le _, .accept r, accepted, acceptRequest_tile _ h, rfl⟩

/-! A TILE over KFP-2 (00 R3, log 187). -/

/-- A tile that a KFP-2 requester sends to a stream of shared memory completes UNSUPPORTED and enters nothing. -/
theorem runTile_of_shared {s : State} {r : Req} {h : Nat} {v : Stream} (hh : h = leNat (padTo (r.p.payload.take 64) 64))
    (named : s.namedStream (thStream h) (thEpoch h) = some v) (may : s.maySend v r = true) (old : s.kfp2 r.p = true)
    (reaches : s.tileShared v h = true) : s.runTile r = s.complete r .unsupported none (some []) := by
  subst hh
  simp [State.runTile, named, may, old, reaches]

theorem runRequest_tile (s : State) {r : Req} (h : r.opcode = 0x04) : s.runRequest r = s.runTile r := by
  simp [State.runRequest, h]

/-- A tile that is neither an append nor a query meets nothing of Table 5-6 (05 R135). -/
theorem acceptSequence_of_other (s : State) (v : Stream) {h : Nat} (append : thKind h ≠ tkAppend) (query : thKind h ≠ tkQuery) :
    s.acceptSequence v h = (.ok (), s) := by
  have other : (thKind h != tkAppend && thKind h != tkQuery) = true := by rw [bne_iff_ne.mpr append, bne_iff_ne.mpr query]; rfl
  rw [State.acceptSequence, if_pos other]

/-- An answer is `ok` with a value when its option is that value. -/
theorem eq_ok_of_toOption {ε α β : Type} {x : Except ε α × β} {a : α} {b : β} (value : x.1.toOption = some a) (state : x.2 = b) :
    x = (.ok a, b) := by
  obtain ⟨answer, u⟩ := x
  cases answer with
  | error e => cases value
  | ok c => cases value; cases state; rfl

theorem exec_tile (p : Packet) (s : State) : exec (.tile p) s = kfpRow 0x04 p (innerOf 0x04 p) s := rfl

namespace Kfp2Tile

/-! The counterexample: node 7, whose tenant 5 has a stream open whose sink lies in an extent that is an enabled common, sends
a tile of it in a KFP-2 packet. -/

/-- A stream of one MOVE step that writes tiles of eight binary32 elements to address 0 of space 1. -/
def stream : Stream := { tenant := 5, session := some 9, node := 7, head := 0x8000001000003, steps := [16] }

/-- A device with tenant 5: space 1, whose first 8 MiB are extent 1; a common on that extent; node 7 behind port 0 with a link
session; and its stream 3. -/
def device : State := { State.reset with
  dev.phase := .running, ready.mgmt := true, ready.stack := 0xFFFF, ready.field := 0xFFFF
  ten.tenants := [(5, { keyHash := 0, sess := .opened })]
  ten.links := [(9, { node := 7, gen := 0, tenant := 5, identity := 0 })]
  pool.spaces := [(1, { tenant := 5, desc := 3 })]
  pool.extents := [(1, { tenant := 5, desc := 0x40000000000000003, state := .enabled, grans := [10100, 10101, 10102, 10103] })]
  pool.maps := [{ asid := 1, vaBase := 0, first := 0, count := 4, pageSize := 0, extent := 1 }]
  com.commons := [(2, { tenant := 5, desc := 0x10003, state := .enabled })]
  fab.nodeId := some 1, fab.nodes := [(7, { gen := some 0, reachable := true })], fab.bank0.entries := [(7, 0x10000040)]
  ports := [(0, { st := .up, credits := List.replicate 6 2047 })], str.streams := [(3, stream)] }

/-- Tile 0 of stream 3, of kind DATA: its header, and one sector of zeros. -/
def payload : List Byte := leBytes 0x80000003013 320

def packet : Packet :=
  { port := 0, hdrVer := 2, dst := 1, src := 7, tag := 3, tgen := 0, ngen := 0, fnum := 0, prior := 0, session := 9, age := 0,
    status := 0, fence := false, mcast := false, epoch := 0, escape := false, synthetic := false, wbPending := false,
    length := 320, address := 0, rsvd := 0, payload }

def request : Req := { opcode := 0x04, p := packet }

def header : Nat := leNat (padTo (request.p.payload.take 64) 64)

/-- The state in which the request runs. -/
def running : State := { device.packetOn 0x04 packet (innerOf 0x04 packet) with todo := [] }

/-- What is at rest after a tile that has entered its stream. -/
def entered : State := (running.enterTile stream (thIndex header) header (some request)).drain 100

/-- What is at rest after a tile that has been refused. -/
def unsupported : State := (running.complete request .unsupported none (some [])).drain 100

theorem runs : Runs 0x04 packet (innerOf 0x04 packet) device request running :=
  runs_of_accepted_tile (by decide) (by decide +kernel : device.dead = false) rfl (by decide +kernel)

theorem named : running.namedStream (thStream header) (thEpoch header) = some stream := by decide +kernel

theorem may_send : running.maySend stream request = true := by decide +kernel

theorem stream_accepts : running.acceptTile stream header request.p.payload.length = (.ok stream, running) :=
  eq_ok_of_toOption (by decide +kernel) (by decide +kernel)

theorem no_sequence : running.acceptSequence stream header = (.ok (), running) :=
  acceptSequence_of_other running stream (by decide +kernel) (by decide +kernel)

theorem entered_rests : Rests (running.enterTile stream (thIndex header) header (some request)) entered :=
  ⟨100, by decide, rfl, by decide +kernel, by decide +kernel⟩

theorem unsupported_rests : Rests (running.runRequest request) unsupported := by
  rw [runRequest_tile _ rfl, runTile_of_shared rfl named may_send (by decide +kernel) (by decide +kernel)]
  exact ⟨100, by decide, rfl, by decide +kernel, by decide +kernel⟩

theorem unsupported_enters_nothing : unsupported.str.streams = [(3, stream)] := by decide +kernel

theorem entered_ne_unsupported : entered ≠ unsupported := by
  intro same
  have entry : entered.str.streams ≠ [(3, stream)] := by decide +kernel
  rw [same] at entry
  exact entry unsupported_enters_nothing

end Kfp2Tile

/-- Refutes O24: its clause of an accepted tile says nothing of who sends it. A KFP-2 requester reaches no common and no versioned
extent (00 R3, log 187), so a tile that it sends to a stream whose sink is a common completes UNSUPPORTED, although the
stream would accept it. -/
theorem not_streamPackets : ¬ Obligations.StreamPackets := by
  rintro ⟨-, -, -, tile, -⟩
  have enters : exec (.tile Kfp2Tile.packet) Kfp2Tile.device = .next Kfp2Tile.entered :=
    tile _ _ _ _ _ _ _ _ _ _ Kfp2Tile.runs rfl Kfp2Tile.named Kfp2Tile.may_send Kfp2Tile.stream_accepts Kfp2Tile.no_sequence
      Kfp2Tile.entered_rests
  rw [exec_tile, kfpRow_of_runs Kfp2Tile.runs Kfp2Tile.unsupported_rests] at enters
  exact Kfp2Tile.entered_ne_unsupported (Host.Outcome.next.inj enters).symm

end Sys2Proof.Machine

namespace Sys2Proof.Machine

/-! The commands that load formats and VECTOR programs (03 R62, R65, R66, R79, R80). -/

/-- A command that reaches its chapter and is refused there does nothing else. -/
theorem reaches_refused {spec : CcpSpec} {c : CcpCmd} {a b : Bool} {s t u : State} {x : CcpCtx} {body : CcpBody} {r : Refuse}
    (h : Reaches spec c a b s x t) (hbody : body x t = refuse u r) :
    ccpRowOf spec body c a b s = .next (refused u x r) := by
  rw [reaches_serve body h, hbody]
  rfl

theorem preloaded_eq : preloaded =
    [0x7F8BA7C1, 0x0F5523C1, 0x7F83A3C1, 0x0741D1C1, 0x0F5131C1, 0x0BFC20000741D1C4, 0x0BFC20000F5131C4,
     0x0BFC200001219144, 0x0BFC200003311144, 0x0BFC2000012090C4, 0x0BFC20FA000011C5, 0x11C2, 0x10C2, 0x11C3] := by
  decide

/-- A slot below 14 holds its descriptor of Table 3-3, whatever is loaded. -/
theorem fmt_of_preloaded (s : State) {n : Nat} (h : n < 14) : s.fmt n = ⟨n, preloaded.getD n 0⟩ := by
  simp only [State.fmt, h, if_true]

section LoadBodies

variable {x : CcpCtx} {t : State}

theorem bodyFormatLoad_of_preloaded (h : bits x.block 68 64 < 14) : bodyFormatLoad x t = refuse t rRange := by
  simp [bodyFormatLoad, checked, h]

theorem bodyFormatLoad_of_free (high : 14 ≤ bits x.block 68 64) (legal : descBad (bits x.block 63 0) = false)
    (free : t.slotUsed (bits x.block 68 64) = false) : bodyFormatLoad x t = okBytes
      { t with str.formats := if bits x.block 63 0 = 0 then t.str.formats.del (bits x.block 68 64)
          else t.str.formats.put (bits x.block 68 64) (bits x.block 63 0) } [] := by
  simp [bodyFormatLoad, checked, okEmpty, Nat.not_lt.mpr high, legal, free, firstRefuse]

theorem bodyVectorProgLoad_of_legal {ops : List Nat} (hops : ops = (List.range (progLen x.block)).map (progOp x.block))
    (unreserved : ops.any opReserved = false) (ends : x.block / 2 ^ (384 + 32 * progLen x.block) = 0)
    (listed : ops.any opRange = false)
    (own : ∀ p, t.str.progs.find (bits x.block 15 8) = some p → p.tenant = x.tenant) :
    bodyVectorProgLoad x t = okBytes { t with str.progs := t.str.progs.put (bits x.block 15 8) ⟨x.tenant, x.block⟩ } [] := by
  subst hops
  cases found : t.str.progs.find (bits x.block 15 8) with
  | none => simp [bodyVectorProgLoad, checked, found, unreserved, ends, listed, okEmpty, firstRefuse]
  | some p => simp [bodyVectorProgLoad, checked, found, own p found, unreserved, ends, listed, okEmpty, firstRefuse]

end LoadBodies

/-- Settles O13: each command reaches its body, and the lemmas above say what the body loads where nothing refuses it. -/
theorem loadCommands : Obligations.LoadCommands := by
  refine ⟨?format, ?program⟩
  case format =>
    rintro c s x t d n reached rfl rfl high legal free
    rw [← (taken_block reached.1).1] at high legal free ⊢
    exact reaches_answers reached (bodyFormatLoad_of_free high legal free)
  case program =>
    rintro c s x t n ops reached rfl hops unreserved ends listed own
    rw [← (taken_block reached.1).1] at hops ends own ⊢
    exact reaches_answers reached (bodyVectorProgLoad_of_legal hops unreserved ends listed own)

/-- Settles O57: the slots below 14 are read from the table, not from what was loaded, and FORMAT_LOAD tests its slot first. -/
theorem formatsPreloaded : Obligations.FormatsPreloaded := by
  refine ⟨fun s n low => ?_, fun c s x t reached low => ?_⟩
  · rw [fmt_of_preloaded s low, preloaded_eq]
  · rw [← (taken_block reached.1).1] at low
    exact reaches_refused reached (bodyFormatLoad_of_preloaded low)

end Sys2Proof.Machine

namespace Sys2Proof.Machine

/-! The invariant (03 R65, 06, 20 R501, 09 R271): a row keeps what its body, its effect or its packet's way keeps. -/

/-- A command of the table of commands keeps what every body of that table keeps. -/
theorem tableRow_kept {r s t : State} {spec : CcpSpec} {body : CcpBody} {c : CcpCmd} {a b : Bool} (hs : Kept r s)
    (h : ccpRowOf spec body c a b s = .next t) (row : ccpRow spec.opcode = some (spec, body)) : Kept r t :=
  ccpRowOf_kept hs (ccpRow_kept row) h

/-- An event that names no unit keeps what its effect keeps. -/
theorem eventRow_kept {r s t : State} {f : State → State} (hs : Kept r s) (hf : ∀ {x}, Kept r x → Kept r (f x))
    (h : effect true f s = .next t) : Kept r t := effect_kept hs (fun _ => hf) h

/-- Every command keeps the state sane and its queue, and turns nothing back: those of the table of commands, the packets, the
four that act on a dead device too, and what each unit does. -/
theorem exec_kept {r s t : State} {i : Instr} (hs : Kept r s) (e : exec i s = .next t) : Kept r t := by
  cases i with
  -- The table of commands (18 Table 18-6).
  | ccpClose | mbxDrop | ethSet | capabilityQuery | readyQuery | expTableQuery | deviceResetCold | deviceResetMgmt |
    deviceResetField | deviceResetPort | tenantCreate | tenantDelete | tenantSessionEnd | tenantEvict | keyRotate |
    admitIdentity | admitWithdraw | setLoad | setDelete | weightImportBegin | weightImportEnd | weightImportBind |
    reserveSet | capacityQuery | spaceCreate | spaceDelete | extentCreate | extentEnable | extentDelete | extentQuery |
    extentReclaim | extentMap | extentUnmap | l2Partition | commonCreate | commonEnable | commonDelete | dirPartition |
    streamCreate | streamCloseCcp | streamAbortCcp | streamPriority | formatLoad | vectorProgLoad | windowCreate |
    windowEnable | windowAbort | windowRetire | windowDelete | windowQuery | seqCreate | seqEnable | seqTruncate |
    seqDisable | seqDelete | seqQuery | portSet | portQuery | routeSet | routeEpoch | routeQuery | mcastSet |
    policeSetMeter | policeSetProfile | schedSet | arbSet | isolateSetEnable | isolateSetDisable | cadenceSet |
    histQuery | powerSet | powerQuery | sleepSet | sleepEnterSl3 | sleepEnterSl4 | sleepEnterWake | pairSetEnable |
    pairSetDisable | pairQuery | fwStage | fwActivateMgmt | fwActivateKe | fwActivateBoth | fwActivateCommitSec |
    fwQuery | configSet | configQuery | debugUnlock | eventRead | statsQuery | memErrLog | mowSet | checkerTestArm |
    checkerTestWrite | checkerTestRead | checkerTestRelease | rankRetireNow | rankRetireClear | stackDiagRead |
    stackDiagRun | stackDiagReadClear | bulkOpen | bulkClose | bulkStatus =>
    exact tableRow_kept hs e rfl
  -- Packets (13 Table 13-1).
  | streamOpen | streamClose | streamAbort | tile | resultRead | pageFetch | pageStore | pageCheckout | pageCheckin |
    versionOpen | versionDraft | versionClose | versionCommit | versionDiscard | lineReadS | lineReadX | lineUpgrade |
    lineWriteback | fetchAdd | fetchFaddx | cas | swap | fetchMin | fetchMax | fetchUmin | fetchUmax | barrierArrive |
    lockAcquire | lockRelease | snpData | snpClean | snpNotPresent | completion | linkSessionOpen | linkSessionClose |
    mcastWrite | packetForward | pairMirror | pairMeta | pairBeat | pairFetch | pairCopy | pairFence | leaseCompletion =>
    exact kfpRow_kept hs e
  -- What also acts on a dead device (log 19).
  | resetNAssert => exact settled_kept (State.resetAssert_kept hs) e
  | coldBoot => exact settled_kept (State.coldBoot_kept hs) e
  | vddAonLoss => exact settled_kept (State.aonLoss_kept hs) e
  | sdCardRemoval => exact settled_kept (State.cardOut_kept hs) e
  -- Handshakes and attestation (17 R447, 09 R268).
  | ccpHello => exact effect_kept hs (fun _ => State.helloWhole_kept) e
  | ccpFinish => exact effect_kept hs (fun _ => State.finishWhole_kept) e
  | spdmGetVersion | spdmGetCapabilities | spdmNegotiateAlgorithms | spdmGetDigests | spdmGetCertificate | spdmChallenge |
    spdmGetMeasurements =>
    exact effect_kept hs (fun _ => State.spdmServe_kept) e
  -- The pair, ports, flits and routes (12, 13, 16).
  | leaseRenewTimer => exact eventRow_kept hs State.renewTimer_kept e
  | leaseLapse => exact eventRow_kept hs State.leaseLapse_kept e
  | pairSilence => exact eventRow_kept hs State.pairSilence_kept e
  | pairBeatSend => exact eventRow_kept hs State.beatSend_kept e
  | mirrorTimeout => exact eventRow_kept hs State.mirrorTimeout_kept e
  | pairPeerWaitExpiry => exact eventRow_kept hs State.peerWait_kept e
  | resyncCopyDone => exact eventRow_kept hs State.copyDone_kept e
  | portLightDetect => exact effect_kept hs (fun _ => State.portLight_kept) e
  | portTrainingDone => exact effect_kept hs (fun _ => State.trained_kept) e
  | portTrainingTimeout => exact effect_kept hs (fun _ => State.trainTimeout_kept) e
  | psHello => exact effect_kept hs (fun _ => State.hello_kept) e
  | psKem => exact effect_kept hs (fun _ => State.kem_kept) e
  | psFinish => exact effect_kept hs (fun _ => State.finish_kept) e
  | linkParams => exact effect_kept hs (fun _ => State.params_kept) e
  | portSessionTimeout => exact effect_kept hs (fun _ => State.sessTimeout_kept) e
  | dataFlitRx => exact effect_kept hs (fun _ => State.dataFlit_kept) e
  | idleFlitRx => exact effect_kept hs (fun _ => State.idleFlit_kept) e
  | flitSend => exact effect_kept hs (fun _ => State.flitSend_kept) e
  | ackTimerExpiry => exact effect_kept hs (fun _ => State.ackTimer_kept) e
  | replayTimeout => exact effect_kept hs (fun _ => State.replayTimeout_kept) e
  | retrainDone => exact effect_kept hs (fun _ => State.retrainDone_kept) e
  | retrainTimeout => exact effect_kept hs (fun _ => State.retrainTimeout_kept) e
  | rekeyStart => exact effect_kept hs (fun _ => State.rekeyStart_kept) e
  | keyNext => exact effect_kept hs (fun _ => State.keyNext_kept) e
  | keyNextKem => exact effect_kept hs (fun _ => State.keyNextKem_kept) e
  | downNotice | downPatternRx => exact effect_kept hs (fun _ => State.peerDown_kept) e
  | alignmentLoss => exact effect_kept hs (fun _ => State.alignLoss_kept) e
  | laserFaultAlarm => exact effect_kept hs (fun _ => State.laserFault_kept) e
  | laserLightLoss => exact effect_kept hs (fun _ => State.portDown_kept) e
  | portDownHoldExpiry => exact effect_kept hs (fun _ => State.holdOver_kept) e
  | outstandingEntryExpiry => exact effect_kept hs (fun _ => State.outstExpiry_kept) e
  | packetAgeOut => exact eventRow_kept hs State.ageOut_kept e
  | fenceHoldAgeOut => exact eventRow_kept hs State.fenceAgeOut_kept e
  | escapeWaitExpiry => exact eventRow_kept hs State.escapeWait_kept e
  | reachabilityTimeout => exact eventRow_kept hs State.reachTimeout_kept e
  | bankQuiet => exact effect_kept hs (fun _ => State.bankQuiet_kept) e
  -- Tiles, ledgers, sequences, extents, lines, translation and keys (01 to 09).
  | tileStepEnd => exact effect_kept hs (fun _ => State.stepEnd_kept) e
  | stepWatchdogExpiry => exact effect_kept hs (fun _ => State.stepWatchdog_kept) e
  | fenceStateMoved => exact effect_kept hs (fun _ => State.fenceMoved_kept) e
  | tileFinalWriteDone => exact eventRow_kept hs State.tileWritten_kept e
  | extentTileIssue => exact eventRow_kept hs State.issueTile_kept e
  | streamIdleTimeout => exact eventRow_kept hs State.streamIdle_kept e
  | streamReleaseTimeout => exact eventRow_kept hs State.streamRelease_kept e
  | ledgerContribution => exact eventRow_kept hs State.contributeTile_kept e
  | ledgerFinalWriteDone => exact eventRow_kept hs State.ledgerWrite_kept e
  | windowIdleTimeout => exact eventRow_kept hs State.windowIdle_kept e
  | queryScoreRelease => exact eventRow_kept hs State.scoreRelease_kept e
  | splitFinish => exact eventRow_kept hs State.splitFinish_kept e
  | seqHoldRelease => exact eventRow_kept hs State.endHold_kept e
  | cadencePeriodEnd => exact eventRow_kept hs State.cadenceEnd_kept e
  | recallTimeout => exact eventRow_kept hs State.recallTimeout_kept e
  | draftWritesDrained => exact eventRow_kept hs State.draftDrained_kept e
  | refusalMarkInForce => exact eventRow_kept hs State.markInForce_kept e
  | rangeInvalidationAck => exact effect_kept hs (fun _ => State.invalAck_kept) e
  | revocationSlowExpiry => exact eventRow_kept hs State.invalSlow_kept e
  | granuleZeroed => exact effect_kept hs (fun _ => State.granuleZeroed_kept) e
  | snoopTimeout => exact eventRow_kept hs State.snoopTimeout_kept e
  | writebackRecordExpiry => exact eventRow_kept hs State.wbExpiry_kept e
  | lostHolderSweep => exact eventRow_kept hs State.lostSweep_kept e
  | identInvalidationInForce => exact eventRow_kept hs State.identInForce_kept e
  | translationWalkDone => exact effect_kept hs (fun _ => State.walkDone_kept) e
  | populationDone => exact eventRow_kept hs State.populationDone_kept e
  | populationWaitExpiry => exact eventRow_kept hs State.populationWait_kept e
  | keySlotErase => exact eventRow_kept hs State.keySlotErase_kept e
  | sessionEndSlowExpiry => exact eventRow_kept hs State.endSlow_kept e
  | rotationRewriteDone => exact eventRow_kept hs State.rotationDone_kept e
  | weightChunk => exact eventRow_kept hs State.weightChunk_kept e
  | sessionIdBarExpiry => exact eventRow_kept hs State.barExpiry_kept e
  -- Sectors, stacks and ranks (10, 11).
  | sectorReadDone => exact effect_kept hs (fun _ => State.sectorRead_kept) e
  | sectorWriteDone => exact effect_kept hs (fun _ => State.sectorWrite_kept) e
  | caParityError => exact effect_kept hs (fun _ => State.parityError_kept) e
  | accessAgeLimit => exact effect_kept hs (fun _ => State.ageLimit_kept) e
  | refreshDue => exact effect_kept hs (fun _ => State.refreshBank_kept) e
  | stackTemperatureRead => exact effect_kept hs (fun _ => State.stackTemp_kept) e
  | stackSelfRefreshEntry => exact effect_kept hs (fun _ => State.selfEntry_kept) e
  | stackSelfRefreshExit => exact effect_kept hs (fun _ => State.selfExit_kept) e
  | trainingStepDone => exact effect_kept hs (fun _ => State.trainStep_kept) e
  | stackInitDone => exact effect_kept hs (fun _ => State.stackInit_kept) e
  | pgenRunDone => exact effect_kept hs (fun _ => State.pgenDone_kept) e
  | readTracking => exact effect_kept hs (fun _ => State.track_kept) e
  | retrainSliceTimer => exact effect_kept hs (fun _ => State.retrainSlice_kept) e
  | mowRead => exact effect_kept hs (fun _ => State.mowRead_kept) e
  | mirrorFetchTimeout => exact effect_kept hs (fun _ => State.fetchTimeout_kept) e
  | rankErrorWindowEnd => exact eventRow_kept hs State.rankWindow_kept e
  | migrationGranuleCopied => exact eventRow_kept hs State.granuleCopied_kept e
  -- Policing, power, Ethernet and CCP frames (14, 15, 17).
  | policeRefill => exact eventRow_kept hs State.policeRefill_kept e
  | histDepthSample => exact eventRow_kept hs State.depthSample_kept e
  | powerPeriod => exact eventRow_kept hs State.powerPeriod_kept e
  | linkPowerDecision => exact eventRow_kept hs State.linkDecision_kept e
  | pmbusTelemetry => exact eventRow_kept hs State.telemetry_kept e
  | stationCeilingUpdate => exact effect_kept hs (fun _ => State.ceilingUpdate_kept) e
  | droopTrip => exact effect_kept hs (fun _ => State.droopTrip_kept) e
  | droopClampLift => exact eventRow_kept hs State.clampLift_kept e
  | droopWindowEnd => exact eventRow_kept hs State.droopWindow_kept e
  | thermalReading => exact eventRow_kept hs State.thermalReading_kept e
  | pllLock => exact eventRow_kept hs State.pllLock_kept e
  | regulatorVdone => exact eventRow_kept hs State.vdone_kept e
  | regulatorAckTimeout => exact eventRow_kept hs State.ackTimeout_kept e
  | stationSl1Idle => exact effect_kept hs (fun _ => State.sl1Idle_kept) e
  | fieldSl2Idle => exact effect_kept hs (fun _ => State.sl2Idle_kept) e
  | domainWakeReady => exact effect_kept hs (fun _ => State.wakeReady_kept) e
  | wakeEvent => exact effect_kept hs (fun _ => State.wakeOn_kept) e
  | ethFrameRx => exact effect_kept hs (fun _ => State.ethFrame_kept) e
  | intakeFifoRead => exact effect_kept hs (fun _ => State.fifoRead_kept) e
  | ccpFragment | bulkFrame => exact effect_kept hs (fun _ => State.takeCcp_kept) e
  | pfcRepeatTimer => exact effect_kept hs (fun _ => State.pfcRepeat_kept) e
  | pfcPauseExpiry => exact eventRow_kept hs State.pauseExpiry_kept e
  | handshakeTimeout => exact eventRow_kept hs State.handshakeTimeout_kept e
  | fragmentTimeout => exact eventRow_kept hs State.fragmentTimeout_kept e
  | bulkChannelIdle => exact eventRow_kept hs State.channelIdle_kept e
  | ccpSessionIdle => exact eventRow_kept hs State.sessionIdle_kept e
  | eventNoticeSend => exact eventRow_kept hs State.noticeSend_kept e
  -- Boot, resets and updates (19, 21).
  | keyEngineBootDone => exact eventRow_kept hs State.keBoot_kept e
  | mgmtStart => exact eventRow_kept hs State.mgmtStart_kept e
  | stationTestDone => exact effect_kept hs (fun _ => State.stationTested_kept) e
  | fieldResetDone => exact effect_kept hs (fun _ => State.fieldResetDone_kept) e
  | ethLinkUp => exact effect_kept hs (fun _ => State.ethUp_kept) e
  | mgmtWatchdogExpiry => exact effect_kept hs (fun _ => State.mgmtWatchdog_kept) e
  | mgmtRestartDone => exact eventRow_kept hs State.mgmtRestarted_kept e
  | keyEngineWatchdog | refclkLoss => exact eventRow_kept hs State.halt_kept e
  | fwStageDone => exact eventRow_kept hs State.stageDone_kept e
  | fwStageTimeout => exact eventRow_kept hs State.stageTimeout_kept e
  | mgmtRunningReport => exact eventRow_kept hs State.runningReport_kept e
  | fwTrialTimeout => exact eventRow_kept hs State.trialTimeout_kept e
  | keActivationDone => exact eventRow_kept hs State.keDone_kept e
  | pmbAlertEdge => exact eventRow_kept hs State.pmbAlert_kept e
  | pmbusClockTimeout => exact effect_kept hs (fun _ => State.railRead_kept) e
  | leaseClaimRetry => exact eventRow_kept hs State.claimRetry_kept e
  | ethLinkDown => exact effect_kept hs (fun _ => State.ethDown_kept) e

/-- A step takes the front of the queue, keeps what is left of it, and otherwise keeps what its command or its tick keeps. -/
theorem step_kept {s t : State} (sane : Sane s) (e : step s = .next t) : Kept { s with pending := s.pending.tail } t := by
  cases waiting : s.pending with
  | nil =>
    rw [step_of_empty waiting] at e
    cases e
    exact idleTick_kept ⟨waiting, Onward.refl s, sane⟩
  | cons c rest =>
    simp only [step, waiting] at e
    exact exec_kept (Kept.refl sane) e

/-- Settles O54: what a step keeps includes that the state is sane. -/
theorem stepKeepsSane : Obligations.StepKeepsSane := fun _ _ sane e => (step_kept sane e).sane

end Sys2Proof.Machine

namespace Sys2Proof.Machine

/-! The bodies of the window commands (04 R99, R103, R118, R119, R121, R123), where nothing refuses them. -/

section WindowBodies

variable {x : CcpCtx} {t : State} {w : Nat} {v : Window}

/-- A window that a command's object block names, for its tenant (18 R468). -/
theorem reaches_ownWindow {spec : CcpSpec} {c : CcpCmd} {a b : Bool} {s : State} (h : Reaches spec c a b s x t)
    (named : w = bits c.block 15 0) (found : t.seq.windows.find w = some v) (own : v.tenant = x.tenant) :
    x.object = w ∧ t.ownWindow x = some v := by
  have object : x.object = w := by rw [named, CcpCtx.object, (taken_block h.1).1]
  exact ⟨object, by simp [State.ownWindow, object, found, own]⟩

theorem bodyWindowCreate_of_free {n : Nat}
    (free : cyclicFree (fun n => t.seq.windows.has n) t.ctl.lastWindow 0 4095 = some n) :
    bodyWindowCreate x t = okBytes
      (({ t with ctl.lastWindow := some n }.putWindow n
        { tenant := x.tenant, desc := x.block, resBytes := t.resBytes x.block }).sendMeta
          (.window n x.tenant x.block 1 0)) (leBytes n 8) := by
  rw [bodyWindowCreate, free]
  rfl

section Owned

variable (object : x.object = w) (low : w < 4096) (own : t.ownWindow x = some v)

include object low own

theorem bodyWindowEnable_of_rows (rows : checkTable (windowRows x t w v) 9 = none) : bodyWindowEnable x t = okBytes
    ((t.putWindow w { v with state := .opened, resBytes := t.winRes v, idleDue := t.dev.tick + wIdle v.desc }).sendMeta
      (.window w v.tenant v.desc 2 0)) [] := by
  simp [bodyWindowEnable, okEmpty, object, Nat.not_le.mpr low, own, rows]

theorem bodyWindowAbort_of_open (opened : v.state = .opened) :
    bodyWindowAbort x t = okBytes (t.cutWindow w .aborted) [] := by
  simp [bodyWindowAbort, okEmpty, object, Nat.not_le.mpr low, own, opened]

theorem bodyWindowRetire_of_settled (closed : v.state = .closed) (unasked : v.retireCmd = none)
    (settled : (v.tiles.any fun y => y.2.phase != .opened && y.2.phase != .closed) = false) :
    bodyWindowRetire x t = okBytes (t.retireWindow w v) [] := by
  simp [bodyWindowRetire, okEmpty, object, Nat.not_le.mpr low, own, closed, unasked, settled]

theorem bodyWindowRetire_of_writing (closed : v.state = .closed) (unasked : v.retireCmd = none)
    (writing : (v.tiles.any fun y => y.2.phase != .opened && y.2.phase != .closed) = true) :
    bodyWindowRetire x t = heldCmd (t.putWindow w { v with retireCmd := some x.ref }) := by
  simp [bodyWindowRetire, object, Nat.not_le.mpr low, own, closed, unasked, writing]

theorem bodyWindowDelete_of_idle (idle : v.state = .disabled ∨ v.state = .retired) :
    bodyWindowDelete x t = okBytes ((t.delWindow w).sendMeta (.noWindow w)) [] := by
  obtain disabled | retired := idle
  · simp [bodyWindowDelete, okEmpty, object, Nat.not_le.mpr low, own, disabled]
  · simp [bodyWindowDelete, okEmpty, object, Nat.not_le.mpr low, own, retired]

end Owned

theorem bodyWindowQuery_of_seen (object : x.object = w) (low : w < 4096) (found : t.seq.windows.find w = some v)
    (seen : x.isOp = true ∨ v.tenant = x.tenant) :
    bodyWindowQuery x t = okBytes t (leBytes (wCookie v.desc) 8 ++ leBytes (windowRecord w v) 32) := by
  have shown : (!x.isOp && v.tenant != x.tenant) = false := by
    obtain operator | own := seen
    · simp [operator]
    · simp [own]
  simp [bodyWindowQuery, object, Nat.not_le.mpr low, found, shown]

/-- With no request that waits there is no answer to keep: retiring drops the tiles alone (log 171). -/
theorem retireWindow_of_none_waiting (held : t.fab.held = []) (hubs : (t.sch.hubs.flatMap fun q => q.2) = []) :
    t.retireWindow w v = (t.putWindow w { v with retireCmd := none, state := .retired, tiles := [] }).sendMeta
      (.window w v.tenant v.desc 4 v.outcome) := by
  have queued : (t.sch.hubs.flatMap fun q => q.2.map (·.r)) = [] := by
    rw [← List.map_flatMap, hubs, List.map_nil]
  rw [State.retireWindow, held, queued]
  rfl

end WindowBodies

/-- Settles O14: each command reaches its body, and the lemmas above say what the body answers or holds. -/
theorem windowCommands : Obligations.WindowCommands := by
  refine ⟨?create, ?enable, ?abort, ?retire, ?delete, ?query, fun t w v => retireWindow_of_none_waiting⟩
  case create =>
    intro c s x t n reached free
    rw [← (taken_block reached.1).1]
    exact reaches_answers reached (bodyWindowCreate_of_free free)
  case enable =>
    intro c s x t w v reached named low found own rows
    obtain ⟨object, owned⟩ := reaches_ownWindow reached named found own
    rw [← own]
    exact reaches_answers reached (bodyWindowEnable_of_rows object low owned rows)
  case abort =>
    intro c s x t w v reached named low found own opened
    obtain ⟨object, owned⟩ := reaches_ownWindow reached named found own
    exact reaches_answers reached (bodyWindowAbort_of_open object low owned opened)
  case retire =>
    intro c s x t w v reached named low found own closed unasked
    obtain ⟨object, owned⟩ := reaches_ownWindow reached named found own
    exact ⟨fun settled => reaches_answers reached (bodyWindowRetire_of_settled object low owned closed unasked settled),
      fun writing => reaches_holds reached (bodyWindowRetire_of_writing object low owned closed unasked writing)⟩
  case delete =>
    intro c s x t w v reached named low found own idle
    obtain ⟨object, owned⟩ := reaches_ownWindow reached named found own
    exact reaches_answers reached (bodyWindowDelete_of_idle object low owned idle)
  case query =>
    intro c s x t w v reached named low found seen
    have object : x.object = w := by rw [named, CcpCtx.object, (taken_block reached.1).1]
    exact reaches_answers reached (bodyWindowQuery_of_seen object low found seen)

end Sys2Proof.Machine

namespace Sys2Proof.Machine

/-! Ledgers (04 R107, R110, R118, R119; 03 R78): a contribution, the final write of a ledger tile, a window that idles. -/

theorem exec_ledgerContribution {s : State} (sid i : Nat) (live : Live s) :
    exec (.ledgerContribution sid i) s = .next (s.contributeTile sid i).settle :=
  effect_of_live true (fun s => s.contributeTile sid i) live rfl

theorem exec_ledgerFinalWriteDone {s : State} (w t : Nat) (live : Live s) :
    exec (.ledgerFinalWriteDone w t) s = .next (s.ledgerWrite w t).settle :=
  effect_of_live true (fun s => s.ledgerWrite w t) live rfl

theorem exec_windowIdleTimeout {s : State} (w : Nat) (live : Live s) :
    exec (.windowIdleTimeout w) s = .next (s.windowIdle w).settle :=
  effect_of_live true (fun s => s.windowIdle w) live rfl

theorem windowIdle_of_due {s : State} {w : Nat} {v : Window} (found : s.seq.windows.find w = some v)
    (opened : v.state = .opened) (timed : wIdle v.desc ≠ 0) (due : v.idleDue ≤ s.dev.tick) :
    s.windowIdle w = s.cutWindow w .timeout := by
  simp [State.windowIdle, found, opened, timed, due]

/-! A tile's contribution (04 R107, 03 R78). -/

/-- The tile of a contribution that is taken has its write-backs put in place and leaves its station; it ends at once, or when the
standby has them (16 R434). -/
def State.landContribution (b : State) (sid i n : Nat) (t : Tile) (writes : List TileWrite) : State :=
  let q := b.putWrites writes
  let y := t.meet q.1
  let m := (q.2.modTile sid i fun _ => { y with st := .writing, prev := some n, began := true }).mirrorWrites writes []
    (.tile sid i)
  if m.1 then ((m.2.modTile sid i fun t => { t with st := .mirror }).commitStream sid).boundary n
  else (m.2.boundary n).endTile sid i y.condSt

section Contribution

variable {s a b : State} {sid i n : Nat} {v : Stream} {t : Tile} {writes : List TileWrite}

/-- A LEDGER step whose write-backs may be written contributes its values, and what the ledger answers ends the tile. -/
theorem contributeTile_of_running (htile : s.tileOf sid i = some (v, t)) (hst : t.st = .running n)
    (hkind : rsKind (v.steps.getD t.step 0) = kLedger)
    (hwrites : writes = t.outs.flatMap fun o =>
      s.placed { tileReacher sid i v n with held := t.tr } o.va o.bytes fun b => o.bad.contains (b / 256))
    (hguard : s.guardWrites (.tile sid i) writes = (.yes, a)) :
    s.contributeTile sid i =
      let w := v.steps.getD t.step 0
      let r := a.contribute (rsWindow w) (thLedger t.hdr) (thContrib t.hdr) ((a.fmt (rsIn w)).values t.data t.count) t.marks
      let b := r.2.dropGot (.tile sid i)
      if r.1 = .ok then b.landContribution sid i n t writes else (b.boundary n).endTile sid i r.1 := by
  subst hwrites
  simp only [State.contributeTile, htile, hst, hkind, bne_self_eq_false, Bool.false_eq_true, if_false, hguard, bne_iff_ne,
    ne_eq, ite_not]
  rfl

section Landing

variable {m : Bool × State} (hm : m = ((b.putWrites writes).2.modTile sid i fun _ =>
  { t.meet (b.putWrites writes).1 with st := .writing, prev := some n, began := true }).mirrorWrites writes [] (.tile sid i))

include hm

theorem landContribution_now (ends : m.1 = false) :
    b.landContribution sid i n t writes = (m.2.boundary n).endTile sid i (t.meet (b.putWrites writes).1).condSt := by
  subst hm
  simp [State.landContribution, ends]

theorem landContribution_mirrored (waits : m.1 = true) :
    b.landContribution sid i n t writes =
      ((m.2.modTile sid i fun t => { t with st := .mirror }).commitStream sid).boundary n := by
  subst hm
  simp [State.landContribution, waits]

end Landing

end Contribution

/-! The final write of a ledger tile (04 R110). -/

/-- The bytes that a ledger tile's result takes at its destination. -/
def State.resultLen (s : State) (d t : Nat) : Nat := toSectors (s.packed (wFormat d) (wTileElems d t))

/-- Where a ledger tile's result goes. -/
def State.resultAddr (s : State) (v : Window) (t : Nat) : Nat := wDestAddr v.desc + t * s.winRes v

/-- What a final write reaches of the destination: an accumulating one reads it first (R85). -/
def State.resultSpans (s : State) (v : Window) (t : Nat) : List Span :=
  let va := s.resultAddr v t
  let len := s.resultLen v.desc t
  (if wAccumulate v.desc then [Span.mk va len false] else []) ++ [Span.mk va len true]

/-- The destination is made ready, where the window has one. -/
def State.readyResult (a : State) (k : Reacher) (d : Nat) (dest : List Span) : Prep × State :=
  if wDest d then a.readySpans k dest else (.yes, a)

/-- The elements at the destination of an accumulating window are added to the words of the tile (R85, log 73). -/
def State.addResult (c : State) (w t : Nat) (k : Reacher) (d va len : Nat) : State :=
  if wAccumulate d then
    let f := c.fmt (wFormat d)
    let g := c.fetch k va len
    let n := wTileElems d t
    (g.2.addTo w t 0 false (f.values g.1.bytes n)).markTile w t (f.badElems n g.1.isBad)
  else c

/-- What puts the words of a tile in its image. -/
def State.imageWrites (u : State) (w t : Nat) (k : Reacher) (d : Nat) (words : List Nat) : List TileWrite :=
  u.placed k (wImage d t) (words.flatMap fun x => leBytes x 8) fun b => (u.ltile w t).marks.contains (b / 8)

/-- What puts the result of a tile at its destination, where the window has one. -/
def State.resultWrites (u : State) (w t : Nat) (k : Reacher) (d va len : Nat) (words : List Nat) : List TileWrite :=
  if wDest d then u.placed k va (padTo (u.resultOf d t words).1 len)
    fun b => (u.ltile w t).poison && (u.fmt (wFormat d)).marked (wTileElems d t) (u.ltile w t).marks b
  else []

/-- The writes of a final write take effect, and it goes on with the delivery. -/
def State.landResult (b : State) (w t : Nat) (words : List Nat) (writes : List TileWrite) : State :=
  (b.modLTile w t fun l => { l with words, writes }).ledgerRest w t

section FinalLedgerWrite

variable {s a c e : State} {w t : Nat} {v : Window}

theorem addResult_of_plain {k : Reacher} {d va len : Nat} (plain : wAccumulate d = false) : c.addResult w t k d va len = c := by
  rw [State.addResult, plain, if_neg Bool.false_ne_true]

theorem addResult_of_accumulating {k : Reacher} {d va len : Nat} (accumulates : wAccumulate d = true) :
    c.addResult w t k d va len =
      let f := c.fmt (wFormat d)
      let g := c.fetch k va len
      let n := wTileElems d t
      (g.2.addTo w t 0 false (f.values g.1.bytes n)).markTile w t (f.badElems n g.1.isBad) := by
  rw [State.addResult, accumulates, if_pos rfl]

theorem ledgerWrite_of_written (found : s.seq.windows.find w = some v) (hphase : (v.tiles.findD t {}).phase = .written) :
    s.ledgerWrite w t = s.ledgerRest w t := by
  simp [State.ledgerWrite, found, hphase]

section Writing

variable (found : s.seq.windows.find w = some v) (hphase : (v.tiles.findD t {}).phase = .writing)

include found hphase

/-- A final write whose image is not at hand yet waits for it. -/
theorem ledgerWrite_image_waits (himage : s.guardSpans (s.tileHolder w t v.desc) (imageSpans v.desc t) = (.waits, a)) :
    s.ledgerWrite w t = a := by
  simp [State.ledgerWrite, found, hphase, himage]

variable (himage : s.guardSpans (s.tileHolder w t v.desc) (imageSpans v.desc t) = (.yes, a))

include himage

/-- A final write whose destination is not at hand yet waits for it. -/
theorem ledgerWrite_dest_waits
    (hdest : a.readyResult (s.tileHolder w t v.desc) v.desc (s.resultSpans v t) = (.waits, c)) :
    s.ledgerWrite w t = c := by
  simp only [State.readyResult, State.resultSpans, State.resultAddr, State.resultLen] at hdest
  simp [State.ledgerWrite, found, hphase, himage, hdest]

/-- A final write that may run puts the words, with what an accumulating window adds, in the image, and the result at the
destination. -/
theorem ledgerWrite_lands (hdest : a.readyResult (s.tileHolder w t v.desc) v.desc (s.resultSpans v t) = (.yes, c))
    (hadd : c.addResult w t (s.tileHolder w t v.desc) v.desc (s.resultAddr v t) (s.resultLen v.desc t) = e) :
    s.ledgerWrite w t =
      let k := s.tileHolder w t v.desc
      let r := e.wordsOf w t
      let u := r.2.2.markTile w t r.2.1
      let out := u.imageWrites w t k v.desc r.1 ++ u.resultWrites w t k v.desc (s.resultAddr v t) (s.resultLen v.desc t) r.1
      ((u.putWrites out).2.dropGot (.ledger w t)).landResult w t r.1 out := by
  subst hadd
  simp only [State.readyResult, State.resultSpans, State.resultAddr, State.resultLen] at hdest
  simp only [State.ledgerWrite, found, hphase, himage, hdest]
  simp [State.addResult, State.landResult, State.imageWrites, State.resultWrites, State.resultAddr, State.resultLen]

/-- A final write whose destination cannot be reached puts the words in the image alone and flags the tile. -/
theorem ledgerWrite_dest_fails {st : Status}
    (hdest : a.readyResult (s.tileHolder w t v.desc) v.desc (s.resultSpans v t) = (.fails st, c)) :
    s.ledgerWrite w t =
      let r := c.wordsOf w t
      let u := r.2.2.markTile w t r.2.1
      let image := u.imageWrites w t (s.tileHolder w t v.desc) v.desc r.1
      (((u.putWrites image).2.dropGot (.ledger w t)).modLTile w t fun l => { l with flag := st.code }).landResult w t r.1
        image := by
  simp only [State.readyResult, State.resultSpans, State.resultAddr, State.resultLen] at hdest
  simp only [State.ledgerWrite, found, hphase, himage, hdest]
  simp [State.landResult, State.imageWrites]

end Writing

end FinalLedgerWrite

/-- Settles O39: each row is what its event does and what follows; the lemmas above say which branch a contribution, a final
write and an idle window take. -/
theorem ledgerEvents : Obligations.LedgerEvents := by
  refine ⟨?contribution, ?finalWrite, ?idle⟩
  case contribution =>
    rintro s sid i v t n w k writes a r b live htile hst rfl hkind rfl hwrites hguard rfl rfl
    rw [exec_ledgerContribution sid i live, contributeTile_of_running htile hst hkind hwrites hguard]
    refine ⟨fun refused => by rw [if_neg refused], ?_⟩
    rintro q y m taken rfl rfl hm
    rw [if_pos taken]
    exact ⟨fun ends => by rw [landContribution_now hm ends], fun waits => by rw [landContribution_mirrored hm waits]⟩
  case finalWrite =>
    rintro s w t v l live found rfl
    rw [exec_ledgerFinalWriteDone w t live]
    refine ⟨fun written => by rw [ledgerWrite_of_written found written], ?_⟩
    rintro a k n va len dest p c writing rfl rfl rfl rfl rfl
    refine ⟨fun himage => by rw [ledgerWrite_image_waits found writing himage], fun himage hdest => ⟨?waits, ?lands⟩⟩
    case waits =>
      rintro rfl
      rw [ledgerWrite_dest_waits found writing himage hdest]
    case lands =>
      rintro e r u image out rfl rfl rfl
      refine ⟨?yes, ?fails⟩
      case yes =>
        rintro rfl plain adding rfl
        have added : c.addResult w t (s.tileHolder w t v.desc) v.desc (s.resultAddr v t) (s.resultLen v.desc t) = e := by
          cases accumulates : wAccumulate v.desc with
          | false => rw [plain accumulates, addResult_of_plain accumulates]
          | true =>
            rw [adding accumulates _ _ rfl rfl, addResult_of_accumulating accumulates]
            rfl
        rw [ledgerWrite_lands found writing himage hdest added]
        rfl
      case fails =>
        rintro st rfl rfl
        rw [ledgerWrite_dest_fails found writing himage hdest]
        rfl
  case idle =>
    intro s w v live found opened timed due
    rw [exec_windowIdleTimeout w live, windowIdle_of_due found opened timed due]

end Sys2Proof.Machine

namespace Sys2Proof.Machine

/-! The bodies of the sequence commands (05 R124, R127 to R130), where nothing refuses them. -/

/-- A consistency check that refuses nothing has no failing row (17 R460). -/
theorem checkTable_none {rows : List (Bool × RClass)} {n : Nat} (h : checkTable rows n = none) : ∀ x ∈ rows, x.1 = false := by
  intro x hx
  obtain ⟨i, low, rfl⟩ := List.mem_iff_getElem.mp hx
  simp only [checkTable] at h
  split at h
  · cases h
  · exact firstRefuse_none h _ (List.mem_map_of_mem (List.mk_mem_zipIdx_iff_getElem?.mpr (List.getElem?_eq_getElem low)))

/-- What reads and writes nothing waits for no line, no pseudo-channel and no copy. -/
theorem guardPieces_nil (s : State) (who : Access) : s.guardPieces who [] = (.yes, s) := by
  have unheld : s.heldFor [] = none := by simp [State.heldFor]
  have copied : s.mirrorWants [] = [] := by simp [State.mirrorWants]
  simp [State.guardPieces, State.comGuard, State.linesOf, State.awaitMirror, State.awaitStack, unheld, copied]

/-- What reads and writes nothing is ready in a space that serves requests. -/
theorem readySpans_nil {s : State} {r : Reacher} (serves : (s.spaceLive r.asid).isSome) : s.readySpans r [] = (.yes, s) := by
  have faultless : s.spanFault r [] = none := by simp [State.spanFault, Option.isNone_eq_false_iff.mpr serves]
  simp [State.readySpans, State.reachSpans, faultless, pagesOf, State.eachPage, State.guardSpans, guardPieces_nil]

section ContextBodies

variable {x : CcpCtx} {t : State} {n : Nat} {v : Context}

/-- A context that a command's object block names, for its tenant (18 R468). -/
theorem reaches_ownContext {spec : CcpSpec} {c : CcpCmd} {a b : Bool} {s : State} (h : Reaches spec c a b s x t)
    (named : n = bits c.block 15 0) (found : t.seq.contexts.find n = some v) (own : v.tenant = x.tenant) :
    x.object = n ∧ t.ownContext x = some v := by
  have object : x.object = n := by rw [named, CcpCtx.object, (taken_block h.1).1]
  exact ⟨object, by simp [State.ownContext, object, found, own]⟩

/-- Row 2 of Table 5-4: the space of a context that may be enabled serves requests. -/
theorem spaceLive_of_contextRows (rows : checkTable (contextRows x t v) 6 = none) :
    (t.spaceLive (qAsid v.desc)).isSome := by
  have policy := checkTable_none rows
    (!((t.spaceLive (qAsid v.desc)).any fun a => a.tenant == x.tenant), .policy) (by simp [contextRows])
  rw [Bool.not_eq_false', Option.any_eq_true] at policy
  obtain ⟨a, found, -⟩ := policy
  rw [found, Option.isSome_some]

theorem bodySeqCreate_of_free (free : cyclicFree (fun n => t.seq.contexts.has n) t.ctl.lastContext 0 4095 = some n) :
    bodySeqCreate x t = okBytes
      (({ t with ctl.lastContext := some n }.putContext n { tenant := x.tenant, desc := x.block }).sendMeta
        (.context n x.tenant x.block 1 [] [])) (leBytes n 8) := by
  rw [bodySeqCreate, free]
  rfl

section Owned

variable (object : x.object = n) (low : n < 4096) (own : t.ownContext x = some v)

include object low own

/-- A context of one scale for all heads reads nothing when it is enabled. -/
theorem bodySeqEnable_of_rows (tenant : v.tenant = x.tenant) (rows : checkTable (contextRows x t v) 6 = none)
    (plain : qScaleMode v.desc = false) : bodySeqEnable x t = okBytes
      (((t.dropGot (.command 0x0431 x.ref x.tenant x.block x.total)).putContext n
        { v with enabled := true, frontiers := List.replicate (qH v.desc) 0, scales := [], queries := 0, rows := 0 }).sendMeta
          (.context n x.tenant v.desc 2 (List.replicate (qH v.desc) 0) [])) [] := by
  have ready : t.readySpans (commandReacher 0x0431 x (qAsid v.desc)) [] = (.yes, t) :=
    readySpans_nil (spaceLive_of_contextRows rows)
  have reader : (commandReacher 0x0431 x (qAsid v.desc)).who = .command 0x0431 x.ref x.tenant x.block x.total := rfl
  simp [bodySeqEnable, okEmpty, object, Nat.not_le.mpr low, own, rows, plain, ready, reader, tenant]

/-- SEQ_TRUNCATE and SEQ_DISABLE are held, and take effect at once where no tile names the context. -/
theorem seqHold_of_enabled (h : CcpCtx → SeqHold) (enabled : v.enabled = true) :
    seqHold h x t = heldCmd ((t.putContext n { v with holds := v.holds ++ [h x] }).endHold n) := by
  simp [seqHold, object, Nat.not_le.mpr low, own, enabled]

theorem bodySeqDelete_of_disabled (disabled : v.enabled = false) :
    bodySeqDelete x t = okBytes ((t.delContext n).sendMeta (.noContext n)) [] := by
  simp [bodySeqDelete, okEmpty, object, Nat.not_le.mpr low, own, disabled]

end Owned

/-- The frontiers of a context's heads follow its record; one that was never enabled has frontiers of 0 (R130). -/
theorem bodySeqQuery_of_own (object : x.object = n) (low : n < 4096) (found : t.seq.contexts.find n = some v)
    (own : v.tenant = x.tenant) :
    bodySeqQuery x t = okBytes t (leBytes (qCookie v.desc) 8 ++ leBytes (contextRecord n v) 32 ++
      ((List.range (qH v.desc)).map fun h => v.frontiers.getD h 0).flatMap fun y => leBytes y 4) := by
  simp [bodySeqQuery, object, Nat.not_le.mpr low, found, own]

end ContextBodies

/-- Settles O15: each command reaches its body, and the lemmas above say what the body answers or holds. -/
theorem contextCommands : Obligations.ContextCommands := by
  refine ⟨?create, ?enable, ?truncate, ?disable, ?delete, ?query⟩
  case create =>
    intro c s x t n reached free
    rw [← (taken_block reached.1).1]
    exact reaches_answers reached (bodySeqCreate_of_free free)
  case enable =>
    intro c s x t n v reached named low found own rows plain
    obtain ⟨object, owned⟩ := reaches_ownContext reached named found own
    exact reaches_answers reached (bodySeqEnable_of_rows object low owned own rows plain)
  case truncate =>
    intro c s x t n v reached named low found own enabled
    obtain ⟨object, owned⟩ := reaches_ownContext reached named found own
    rw [← (taken_block reached.1).1]
    exact reaches_holds reached (seqHold_of_enabled object low owned _ enabled)
  case disable =>
    intro c s x t n v reached named low found own enabled
    obtain ⟨object, owned⟩ := reaches_ownContext reached named found own
    exact reaches_holds reached (seqHold_of_enabled object low owned _ enabled)
  case delete =>
    intro c s x t n v reached named low found own disabled
    obtain ⟨object, owned⟩ := reaches_ownContext reached named found own
    exact reaches_answers reached (bodySeqDelete_of_disabled object low owned disabled)
  case query =>
    intro c s x t n v reached named low found own
    obtain ⟨object, -⟩ := reaches_ownContext reached named found own
    exact ⟨_, reaches_answers reached (bodySeqQuery_of_own object low found own)⟩

end Sys2Proof.Machine

namespace Sys2Proof.Machine

/-! Sequences and cadence (05 R127, R138, R144, R148): a query's release, the end of a split, of a hold and of a period. -/

theorem exec_queryScoreRelease {s : State} (sid i : Nat) (live : Live s) :
    exec (.queryScoreRelease sid i) s = .next (s.scoreRelease sid i).settle :=
  effect_of_live true (fun s => s.scoreRelease sid i) live rfl

theorem exec_splitFinish {s : State} (sid i j : Nat) (live : Live s) :
    exec (.splitFinish sid i j) s = .next (s.splitFinish sid i j).settle :=
  effect_of_live true (fun s => s.splitFinish sid i j) live rfl

theorem exec_seqHoldRelease {s : State} (n : Nat) (live : Live s) :
    exec (.seqHoldRelease n) s = .next (s.endHold n).settle :=
  effect_of_live true (fun s => s.endHold n) live rfl

theorem exec_cadencePeriodEnd {s : State} (k : Nat) (live : Live s) :
    exec (.cadencePeriodEnd k) s = .next (s.cadenceEnd k).settle :=
  effect_of_live true (fun s => s.cadenceEnd k) live rfl

/-! A query's splits (05 R138, R141, R144). -/

/-- The splits of a query that hold a block with a visible position (R141). -/
def querySplits (t : Tile) (d : Nat) : List Nat :=
  (List.range (ceilDiv (qB d) (qS d))).filter fun j => !(splitBlocks t d j).isEmpty

/-- What a query reaches: the rows of its splits, and its sink (08 R222). -/
def State.querySpans (s : State) (i : Nat) (v : Stream) (t : Tile) (d : Nat) : List Span :=
  (querySplits t d).flatMap (s.splitSpans t d) ++ s.outSpan v t i

/-- A query is cut into its splits, or ends where an address that it reaches faults (R138). -/
def State.cutQuery (s : State) (sid i : Nat) (v : Stream) (t : Tile) (d : Nat) : State :=
  match s.spanFault (tileReacher sid i v 160) (s.querySpans i v t d) with
  | some st => s.endTile sid i st
  | none => (s.modTile sid i fun _ =>
      { t with st := .splitting, splits := (querySplits t d).map fun j => (j, {}) }).later [.bind sid]

/-- Who reaches memory for a split that runs: its tile's reacher, with the translations that the split holds (08 R223). -/
def splitReacher (sid i j n : Nat) (v : Stream) (t : Tile) : Reacher :=
  { tileReacher sid i v n with held := ((t.splits.find j).map (·.tr)).getD [] }

/-- The partial result of a split joins the others; its station goes on, and a query whose splits are all done is merged. -/
def State.joinSplit (b : State) (sid i j n : Nat) (t : Tile) (p : Partial) : State :=
  let u := b.modSplit sid i j fun x => { x with running := false, tr := [], ended := false, result := some p }
  ((u.boundary n).mergeQuery sid i).later ((t.splits.filterMap fun x => x.2.station).map .arbitrate)

section Query

variable {s a : State} {sid i j : Nat} {v : Stream} {t : Tile} {c : Context}

/-- A query that is ready is cut into its splits once the appends that it waits for are written. -/
theorem scoreRelease_of_ready (htile : s.tileOf sid i = some (v, t)) (hctx : s.seq.contexts.find (thObj t.hdr) = some c)
    (hkind : rsKind (v.steps.getD t.step 0) = kScore) (hst : t.st = .ready) (hruns : v.closed = false ∨ t.began = true)
    (hwritten : s.appendPending t c.desc = false) : s.scoreRelease sid i = s.cutQuery sid i v t c.desc := by
  have stays : (v.closed && !t.began) = false := by
    obtain opened | began := hruns
    · rw [opened, Bool.false_and]
    · rw [began, Bool.not_true, Bool.and_false]
  simp only [State.scoreRelease, htile, hctx, hkind, hst, stays, hwritten, bne_self_eq_false, Bool.or_self,
    Bool.false_eq_true, if_false]
  rfl

theorem cutQuery_faults {st : Status} {d : Nat}
    (fault : s.spanFault (tileReacher sid i v 160) (s.querySpans i v t d) = some st) :
    s.cutQuery sid i v t d = s.endTile sid i st := by
  rw [State.cutQuery, fault]

theorem cutQuery_splits {d : Nat} (faultless : s.spanFault (tileReacher sid i v 160) (s.querySpans i v t d) = none) :
    s.cutQuery sid i v t d = (s.modTile sid i fun _ =>
      { t with st := .splitting, splits := (querySplits t d).map fun j => (j, {}) }).later [.bind sid] := by
  rw [State.cutQuery, faultless]

section Split

variable {n : Nat} {x : Station} (htile : s.tileOf sid i = some (v, t))
  (hrun : (s.stn.stations.find? fun x => x.2.run == some (sid, i, some j)) = some (n, x))
  (hctx : s.seq.contexts.find (thObj t.hdr) = some c)

include htile hrun hctx

/-- A split whose bytes are not at hand yet waits for them at its station. -/
theorem splitFinish_waits (hguard : s.guardSpans (splitReacher sid i j n v t) (s.splitSpans t c.desc j) = (.waits, a)) :
    s.splitFinish sid i j = a.modSplit sid i j fun x => { x with ended := true } := by
  simp only [splitReacher] at hguard
  simp [State.splitFinish, htile, hrun, hctx, hguard]

/-- A split whose bytes cannot be had ends its query. -/
theorem splitFinish_fails {st : Status}
    (hguard : s.guardSpans (splitReacher sid i j n v t) (s.splitSpans t c.desc j) = (.fails st, a)) :
    s.splitFinish sid i j = ((a.boundary n).dropSplits sid i (t.splits.map (·.1))).endTile sid i st := by
  simp only [splitReacher] at hguard
  simp [State.splitFinish, htile, hrun, hctx, hguard]

/-- A split whose bytes are at hand reads its rows, and its partial result joins the others. -/
theorem splitFinish_joins (hguard : s.guardSpans (splitReacher sid i j n v t) (s.splitSpans t c.desc j) = (.yes, a)) :
    s.splitFinish sid i j =
      let r := a.readSplit (splitReacher sid i j n v t) t c.desc j
      r.2.2.joinSplit sid i j n t (a.splitPartial c t r.1 r.2.1 j) := by
  simp only [splitReacher] at hguard ⊢
  simp only [State.splitFinish, htile, hrun, hctx, hguard]
  rfl

end Split

end Query

/-! Holds of a context (05 R127, Table 5-3). -/

section Hold

variable {s : State} {n : Nat} {v : Context} {cmd : CmdRef}

/-- The later of two contexts put at a number stays. -/
@[simp] theorem State.putContext_putContext (w : Context) : (s.putContext n w).putContext n v = s.putContext n v := by
  simp only [State.putContext, Tbl.put_put]

/-- A held SEQ_TRUNCATE cuts every frontier at its length. -/
theorem oneHold_truncate (len : Nat) : (s.putContext n v).oneHold n (.truncate len cmd) =
    ((s.putContext n { v with frontiers := v.frontiers.map (min · len) }).sendMeta (.context n v.tenant v.desc
      (if v.enabled then 2 else 1) (v.frontiers.map (min · len)) v.scales)).respondOk cmd := by
  simp [State.oneHold]

/-- A held SEQ_DISABLE disables the context. -/
theorem oneHold_disable : (s.putContext n v).oneHold n (.disable cmd) =
    ((s.putContext n { v with enabled := false }).sendMeta (.context n v.tenant v.desc 1 v.frontiers
      v.scales)).respondOk cmd := by
  simp [State.oneHold]

/-- Once no tile names the context, what it holds takes effect in the order it came. -/
theorem endHold_of_idle (found : s.seq.contexts.find n = some v) (idle : s.contextTiles n = []) (some_held : v.holds ≠ []) :
    s.endHold n = v.holds.foldl (fun u h => u.oneHold n h) (s.putContext n { v with holds := [] }) := by
  simp [State.endHold, found, idle, some_held]

theorem endHold_of_one {h : SeqHold} (found : s.seq.contexts.find n = some v) (idle : s.contextTiles n = [])
    (one : v.holds = [h]) : s.endHold n = (s.putContext n { v with holds := [] }).oneHold n h := by
  rw [endHold_of_idle found idle (by simp [one]), one]
  rfl

end Hold

/-! A period of a cadence class (05 R148). -/

/-- The next period begins with the block that waits, where one does; a period is short where splits waited below the share. -/
theorem cadenceEnd_of_due {s : State} {k : Nat} {v : Cadence} (found : s.seq.cadence.find k = some v)
    (enabled : cdEnabled v.block = true) (due : v.due ≤ s.dev.tick) :
    s.cadenceEnd k =
      let b := v.next.getD v.block
      s.putCadence k
        { block := b, next := none, cycles := 0, used := 0, last := v.used, due := v.due + cdPeriod b
          short := if s.cadenceWaits k = true ∧ v.used < s.cadenceCap v then sat64 v.short 1 else v.short } := by
  simp [State.cadenceEnd, found, enabled, Nat.not_lt.mpr due]

/-- Settles O40: each row is what its event does and what follows; the lemmas above say which branch a released query, a split's
end, a held context and a period's end take. -/
theorem sequenceEvents : Obligations.SequenceEvents := by
  refine ⟨?release, ?split, ?hold, ?period⟩
  case release =>
    rintro s sid i v t c js live htile hctx hkind hst hruns hwritten rfl
    rw [exec_queryScoreRelease sid i live, scoreRelease_of_ready htile hctx hkind hst hruns hwritten]
    exact ⟨fun st fault => by rw [cutQuery_faults fault], fun faultless => by rw [cutQuery_splits faultless]; rfl⟩
  case split =>
    rintro s sid i j v t n x c k a live htile hrun hctx rfl
    rw [exec_splitFinish sid i j live]
    refine ⟨fun hguard => ?_, fun st hguard => ?_, ?_⟩
    · rw [splitFinish_waits htile hrun hctx hguard]
      rfl
    · rw [splitFinish_fails htile hrun hctx hguard]
    · rintro r p u hguard rfl rfl rfl
      rw [splitFinish_joins htile hrun hctx hguard]
      rfl
  case hold =>
    intro s n v cmd live found idle
    rw [exec_seqHoldRelease n live]
    refine ⟨fun len one => ?_, fun one => ?_, fun some_held => ?_⟩
    · rw [endHold_of_one found idle one, oneHold_truncate]
    · rw [endHold_of_one found idle one, oneHold_disable]
    · rw [endHold_of_idle found idle some_held]
  case period =>
    rintro s k v b live found enabled due rfl
    rw [exec_cadencePeriodEnd k live, cadenceEnd_of_due found enabled due]

end Sys2Proof.Machine

namespace Sys2Proof.Machine

/-! The bodies of the pool commands (06 R153, R155; 08 R211, R213), where nothing refuses them. -/

/-- An object that a command's object block names (18 R468). -/
theorem reaches_object {spec : CcpSpec} {c : CcpCmd} {a b : Bool} {s t : State} {x : CcpCtx} (h : Reaches spec c a b s x t) :
    x.object = bits c.block 15 0 := by
  rw [CcpCtx.object, (taken_block h.1).1]

/-- Checks of which none fails let the command go on. -/
theorem checked_of_passed (s : State) {l : List (Bool × Refuse)} (k : CcpOut) (passed : firstRefuse l = none) :
    checked s l k = k := by
  rw [checked, passed]

section PoolBodies

variable {x : CcpCtx} {t : State}

theorem bodyReserveSet_of_room {n k : Nat} {v : Tenant} (hn : n = bits x.block 15 0) (hk : k = bits x.block 83 64)
    (found : t.tenantOf n = some v) (bounded : k ≤ 587776)
    (fits : sumOf (t.ten.tenants.map fun y => if y.1 == n then 0 else y.2.reserve) + k ≤ t.capacity) (used : t.charge n ≤ k) :
    bodyReserveSet x t = okBytes ((t.putTenant n { v with reserve := k }).sendMeta (.reserve n k)) [] := by
  subst hn hk
  simp only [bodyReserveSet, found]
  refine checked_of_passed _ _ ?_
  simpa [firstRefuse, Nat.not_lt.mpr bounded, Nat.not_lt.mpr used] using fits

theorem bodyCapacityQuery_of_operator (operator : x.isOp = true) :
    bodyCapacityQuery x t = okBytes t
      (leBytes (t.granCount .metadata) 8 ++ leBytes (t.granCount .fallow) 8 ++
        leBytes (t.granCount .free) 8 ++ leBytes (t.granCount .allocated) 8 ++
        leBytes (t.granCount .quarantine + t.granCount .unfilled) 8 ++ leBytes (t.granCount .retired) 8 ++
        leBytes t.pool.fallowF 8) := by
  simp [bodyCapacityQuery, operator]

/-- A tenant is told its reservation, its charge and its granules in QUARANTINE. -/
theorem bodyCapacityQuery_of_tenant (tenant : x.isOp = false) :
    bodyCapacityQuery x t = okBytes t (leBytes (t.reserveOf x.tenant) 8 ++ leBytes (t.charge x.tenant) 8 ++
      leBytes (t.pool.grans.count fun g => g.owner == x.tenant && g.st == .quarantine && g.use != .test) 8) := by
  simp [bodyCapacityQuery, tenant]

/-- The demand-zero region that a block of SPACE_CREATE asks for is none, or one that a space may have (R211). -/
def DemandZeroLegal (b : Nat) : Prop :=
  bits b 147 128 = 0 ∧ bits b 111 64 = 0 ∧ bits b 175 160 = 0 ∨
    bits b 147 128 ≠ 0 ∧ bits b 147 128 ≤ 587776 ∧ bits b 111 64 % 2097152 = 0 ∧
      bits b 111 64 + 2097152 * bits b 147 128 ≤ 2 ^ 48 ∧ bits b 175 160 ≠ 0

theorem bodySpaceCreate_of_free {asid : Nat} (rights : bits x.block 3 0 = 3) (region : DemandZeroLegal x.block)
    (free : firstFree (fun a => !t.spaceFree a) 0 4096 = some asid) :
    bodySpaceCreate x t = okBytes
      ((t.putSpace asid { tenant := x.tenant, desc := x.block }).sendMeta (.space asid x.tenant x.block))
      (leBytes (bits x.block 255 192) 8 ++ leBytes asid 8) := by
  simp only [bodySpaceCreate, free]
  refine checked_of_passed _ _ ?_
  obtain ⟨none_asked, base, mask⟩ | ⟨asked, count, aligned, below, mask⟩ := region
  · simp [firstRefuse, rights, none_asked, base, mask]
  · simpa [firstRefuse, rights, asked, Nat.not_lt.mpr count, aligned, mask] using below

theorem bodySpaceDelete_of_own {asid : Nat} {a : Space} (object : x.object = asid) (low : asid < 4096)
    (found : t.pool.spaces.find asid = some a) (alive : a.dead = false) (own : a.tenant = x.tenant) :
    bodySpaceDelete x t = heldCmd (t.deleteSpace asid (some x.ref)) := by
  simp only [bodySpaceDelete, object, found]
  refine checked_of_passed _ _ ?_
  simp [firstRefuse, Nat.not_le.mpr low, alive, own]

end PoolBodies

/-- Settles O7: each command reaches its body, and the lemmas above say what the body answers or holds. -/
theorem poolCommands : Obligations.PoolCommands := by
  refine ⟨?reserve, ?capacity, ?create, ?delete⟩
  case reserve =>
    intro c s x t n k v reached hn hk found bounded fits used
    rw [← (taken_block reached.1).1] at hn hk
    exact reaches_answers reached (bodyReserveSet_of_room hn hk found bounded fits used)
  case capacity =>
    intro c s x t reached
    exact ⟨fun operator => reaches_answers reached (bodyCapacityQuery_of_operator operator),
      fun tenant => ⟨_, reaches_answers reached (bodyCapacityQuery_of_tenant tenant)⟩⟩
  case create =>
    intro c s x t asid reached rights region free
    rw [← (taken_block reached.1).1] at rights region ⊢
    exact reaches_answers reached (bodySpaceCreate_of_free rights region free)
  case delete =>
    intro c s x t a reached low found alive own
    exact reaches_holds reached (bodySpaceDelete_of_own (reaches_object reached) low found alive own)

end Sys2Proof.Machine

namespace Sys2Proof.Machine

/-! The bodies of the extent commands (06 R156 to R161, R181, R182; 16 R435), where nothing refuses them. -/

section ExtentBodies

variable {x : CcpCtx} {t : State} {n : Nat} {e : Extent}

theorem bodyExtentCreate_of_free (free : cyclicFree (fun n => t.pool.extents.has n) t.ctl.lastExtent 0 65535 = some n) :
    bodyExtentCreate x t = okBytes
      (({ t with ctl.lastExtent := some n }.putExtent n { tenant := x.tenant, desc := x.block }).sendMeta
        (.extent n x.tenant x.block 1 0)) (leBytes n 8) := by
  rw [bodyExtentCreate, free]
  rfl

section Named

variable (object : x.object = n)

include object

theorem bodyExtentEnable_of_local (enables : t.enableRefusal n x.tenant = .ok e) (unmirrored : bit e.desc 8 = false) :
    bodyExtentEnable x t = okBytes ((t.enableExtent n e 0).sendMeta (.extent n x.tenant e.desc 2 0)) [] := by
  simp [bodyExtentEnable, okEmpty, object, enables, unmirrored]

/-- A mirrored extent is held until the standby has placed it. -/
theorem bodyExtentEnable_of_mirrored (enables : t.enableRefusal n x.tenant = .ok e) (mirrored : bit e.desc 8 = true) :
    bodyExtentEnable x t = heldCmd ((t.pairSend (.place n x.ref) 0x71).2.emit
      (.metaSent (t.pairSend (.place n x.ref) 0x71).1 (.extent n x.tenant e.desc 2 0))) := by
  simp [bodyExtentEnable, object, enables, mirrored]

variable (found : t.pool.extents.find n = some e)

include found

theorem bodyExtentDelete_of_disabled (own : e.tenant = x.tenant) (disabled : e.state = .disabled) :
    bodyExtentDelete x t = okBytes ((t.delExtent n).sendMeta (.noExtent n)) [] := by
  simp [bodyExtentDelete, okEmpty, object, found, own, disabled]

theorem bodyExtentDelete_of_enabled (own : e.tenant = x.tenant) (enabled : e.state = .enabled) :
    bodyExtentDelete x t = heldCmd (t.beginRevoke n (some x.ref)) := by
  simp [bodyExtentDelete, object, found, own, enabled]

theorem bodyExtentReclaim_of_enabled (enabled : e.state = .enabled) :
    bodyExtentReclaim x t = heldCmd ((t.beginRevoke n (some x.ref)).recTen e.tenant 0x0203 1 n 0 0) := by
  simp [bodyExtentReclaim, object, found, enabled]

/-- The record of an extent is followed by the count of its granules in each stack (R161). -/
theorem bodyExtentQuery_of_seen (seen : x.isOp = true ∨ e.tenant = x.tenant) :
    bodyExtentQuery x t = okBytes t (extCookie e ++ leBytes (t.extRecord n e) 32 ++
      (List.range 16).flatMap fun k => leBytes (e.grans.filter fun g => granStack g == k).length 4) := by
  have shown : (!x.isOp && e.tenant != x.tenant) = false := by
    obtain operator | own := seen
    · simp [operator]
    · simp [own]
  simp [bodyExtentQuery, object, found, shown]

end Named

/-- Sixteen numbers of four bytes take 64 bytes. -/
theorem length_sixteen_words (f : Nat → Nat) : ((List.range 16).flatMap fun k => leBytes (f k) 4).length = 64 := by
  have four_bytes (k : Nat) : (leBytes (f k) 4).length = 4 := rfl
  simp only [List.length_flatMap, four_bytes]
  rfl

end ExtentBodies

/-- Settles O8: each command reaches its body, and the lemmas above say what the body answers or holds. -/
theorem extentCommands : Obligations.ExtentCommands := by
  refine ⟨?create, ?enable, ?place, ?delete, ?query, ?reclaim⟩
  case create =>
    intro c s x t n reached free
    rw [← (taken_block reached.1).1]
    exact reaches_answers reached (bodyExtentCreate_of_free free)
  case enable =>
    intro c s x t e reached enables unmirrored
    exact reaches_answers reached (bodyExtentEnable_of_local (reaches_object reached) enables unmirrored)
  case place =>
    intro c s x t e reached enables mirrored
    exact reaches_holds reached (bodyExtentEnable_of_mirrored (reaches_object reached) enables mirrored)
  case delete =>
    intro c s x t e reached found own
    have object := reaches_object reached
    exact ⟨fun disabled => reaches_answers reached (bodyExtentDelete_of_disabled object found own disabled),
      fun enabled => reaches_holds reached (bodyExtentDelete_of_enabled object found own enabled)⟩
  case query =>
    intro c s x t e reached found seen
    exact ⟨_, length_sixteen_words _, reaches_answers reached (bodyExtentQuery_of_seen (reaches_object reached) found seen)⟩
  case reclaim =>
    intro c s x t e reached found enabled
    exact reaches_holds reached (bodyExtentReclaim_of_enabled (reaches_object reached) found enabled)

end Sys2Proof.Machine

namespace Sys2Proof.Machine

/-! Page requests (06 R162 to R168): the rows of Table 6-9 that a request passes, and what it does then. -/

theorem exec_pageFetch (p : Packet) (s : State) : exec (.pageFetch p) s = kfpRow 0x10 p (innerOf 0x10 p) s := rfl

theorem exec_pageStore (p : Packet) (s : State) : exec (.pageStore p) s = kfpRow 0x11 p (innerOf 0x11 p) s := rfl

theorem exec_pageCheckout (p : Packet) (s : State) : exec (.pageCheckout p) s = kfpRow 0x12 p (innerOf 0x12 p) s := rfl

theorem exec_pageCheckin (p : Packet) (s : State) : exec (.pageCheckin p) s = kfpRow 0x13 p (innerOf 0x13 p) s := rfl

theorem Runs.opcode {op : Nat} {p : Packet} {x : Inner} {s t : State} {r : Req} (runs : Runs op p x s r t) : r.opcode = op := by
  obtain ⟨-, -, opcode, -⟩ := runs
  exact opcode

theorem runRequest_page (s : State) {r : Req} (low : 0x10 ≤ r.opcode) (high : r.opcode ≤ 0x13) :
    s.runRequest r = s.runPage r := by
  have not_tile : r.opcode ≠ 1 ∧ r.opcode ≠ 2 ∧ r.opcode ≠ 3 ∧ r.opcode ≠ 4 ∧ r.opcode ≠ 5 := by omega
  simp [State.runRequest, not_tile, high]

/-- A page request that runs and comes to rest is all that its packet does. -/
theorem kfpRow_page {op : Nat} {p : Packet} {x : Inner} {s u g v : State} {r : Req} (runs : Runs op p x s r g) (low : 0x10 ≤ op)
    (high : op ≤ 0x13) (served : g.runPage r = u) (rests : Rests u v) : kfpRow op p x s = .next v := by
  refine kfpRow_of_runs runs ?_
  rwa [runRequest_page g (runs.opcode.symm ▸ low) (runs.opcode.symm ▸ high), served]

/-- Without a handle a reader sees the current version (R172). -/
theorem readVersion_of_no_handle (s : State) (ext : Nat) (e : Extent) (node : Nat) : s.readVersion ext e 0 node = some none := by
  simp [State.readVersion]

/-- The address of a request has been looked up for the port it came on (08 R219). -/
def State.lookedUp (s : State) (r : Req) : State :=
  s.lookup (144 + r.p.port / 4) (bits (operandOf r.p) 35 24) r.p.address fun _ => none

/-- Without a handle the lookup of a page of an extent is that of its current version. -/
theorem lookup_of_no_handle (s : State) (r : Req) (e : Nat) (y : Extent) :
    s.lookup (144 + r.p.port / 4) (bits (operandOf r.p) 35 24) r.p.address
      (fun x => if x = e then (s.readVersion e y 0 r.p.src).getD none else none) = s.lookedUp r := by
  simp [State.lookedUp, readVersion_of_no_handle]

/-- A page request that names a space of its session, a page and no handle, in a payload of the length that its opcode has
(Table 6-9 rows 1 and 2). -/
structure PageFormed (s : State) (r : Req) (len : Nat) : Prop where
  length : r.p.payload.length = len
  aligned : r.p.address % 65536 = 0
  zeros : bits (operandOf r.p) 47 36 = 0
  flags : bits (operandOf r.p) 23 1 = 0
  unhandled : vhandleOf (operandOf r.p) = 0
  own : s.asidOk (bits (operandOf r.p) 35 24) r.p.session = true

section PageRows

variable {s : State} {r : Req} {e page : Nat} {y : Extent}

/-- A fetch of a page of a populated granule reads it. -/
theorem runPage_fetch_of_pop {dp : Nat} (formed : PageFormed s r 16) (opcode : r.opcode = 0x10)
    (unclean : bit (operandOf r.p) 0 = false) (populated : s.locate (bits (operandOf r.p) 35 24) r.p.address = .pop dp)
    (free : ((s.lookedUp r).awaitStack (.request r) (pageSectors dp)).1 = false) :
    s.runPage r = (s.lookedUp r).fetchPage r 65536 0 dp none := by
  obtain ⟨length, aligned, zeros, flags, unhandled, own⟩ := formed
  simp only [State.lookedUp] at free ⊢
  simp [State.runPage, opcode, own, length, aligned, zeros, flags, unhandled, unclean, populated, free]

/-- A store of a page of a populated granule writes it. -/
theorem runPage_store_of_pop {dp : Nat} (formed : PageFormed s r 65552) (opcode : r.opcode = 0x11)
    (unclean : bit (operandOf r.p) 0 = false) (populated : s.locate (bits (operandOf r.p) 35 24) r.p.address = .pop dp)
    (free : ((s.lookedUp r).awaitStack (.request r) (pageSectors dp)).1 = false) :
    s.runPage r = (s.lookedUp r).storePage r 65536 0 dp := by
  obtain ⟨length, aligned, zeros, flags, unhandled, own⟩ := formed
  simp only [State.lookedUp] at free ⊢
  simp [State.runPage, opcode, own, length, aligned, zeros, flags, unhandled, unclean, populated, free]

/-- A checkout, or a clean checkin, of a page of an extent that allows checkouts meets the checkout state of the page. -/
theorem runPage_of_checkoutExtent (formed : PageFormed s r 16)
    (kind : r.opcode = 0x12 ∧ bit (operandOf r.p) 0 = false ∧ extSealed y = false ∨
      r.opcode = 0x13 ∧ bit (operandOf r.p) 0 = true)
    (mapped : s.locate (bits (operandOf r.p) 35 24) r.p.address = .ext e page) (found : s.pool.extents.find e = some y)
    (speaks : ((s.lookedUp r).kfp2 r.p && (s.lookedUp r).sharedExt e) = false) (plain : extVersioned y = false)
    (allows : extCheckout y = true) : s.runPage r = (s.lookedUp r).checkoutStep r e page y none := by
  obtain ⟨length, aligned, zeros, flags, unhandled, own⟩ := formed
  simp only [State.lookedUp] at speaks ⊢
  obtain ⟨opcode, unclean, unsealed⟩ | ⟨opcode, clean⟩ := kind
  · simp [State.runPage, opcode, own, length, aligned, zeros, flags, unhandled, unclean, mapped, found, speaks, plain, allows,
      unsealed, readVersion_of_no_handle]
  · simp [State.runPage, opcode, own, length, aligned, zeros, flags, unhandled, clean, mapped, found, speaks, plain, allows,
      readVersion_of_no_handle]

variable (free : (s.awaitStack (.request r) (pageSectors (s.framePage e page none))).1 = false)

include free

/-- A page that no node holds is checked out once no engine holds a translation of it (R168, 08 R221). -/
theorem checkoutStep_of_unheld (opcode : r.opcode = 0x12) (unheld : s.pool.checkouts.find (e * 2 ^ 25 + page) = none)
    (room : s.pool.checkouts.length < 262144) :
    s.checkoutStep r e page y none =
      let k := s.putCheckout (e * 2 ^ 25 + page) { node := r.p.src, gen := r.p.ngen, opening := some r.p.tag }
      (({ k with pool.past := k.pool.past.del (e * 2 ^ 25 + page) } : State).sendMeta
        (.checkout e page r.p.src r.p.ngen false)).invalidate (.page e page) (.checkout e page r) := by
  simp only [State.checkoutStep, opcode, free, unheld]
  simp [Nat.not_le.mpr room]

/-- The holder of a page gives it back clean (R168). -/
theorem checkoutStep_of_clean_return {k : Checkout} (opcode : r.opcode = 0x13) (clean : bit (operandOf r.p) 0 = true)
    (held : s.pool.checkouts.find (e * 2 ^ 25 + page) = some k) (holder : k.node = r.p.src) (same : k.gen = r.p.ngen) :
    s.checkoutStep r e page y none =
      (s.endCheckout (e * 2 ^ 25 + page) false).complete r .ok none (some (cookieOf r.p.payload)) := by
  simp only [State.checkoutStep, opcode, free, held]
  simp [holder, same, clean]

end PageRows

/-- Settles O25: each request passes the rows of its table and then does what the lemmas above say. -/
theorem pagePackets : Obligations.PagePackets := by
  refine ⟨?fetch, ?store, ?checkout, ?checkin⟩
  case fetch =>
    rintro p s r g h op a dp v runs rfl rfl length aligned zeros flags unclean unhandled own populated rfl free rests
    have formed : PageFormed g r 16 := ⟨length, aligned, zeros, flags, unhandled, own⟩
    rw [exec_pageFetch]
    exact kfpRow_page runs (by decide) (by decide) (runPage_fetch_of_pop formed runs.opcode unclean populated free) rests
  case store =>
    rintro p s r g h op a dp v runs rfl rfl length aligned zeros flags unclean unhandled own populated rfl free rests
    have formed : PageFormed g r 65552 := ⟨length, aligned, zeros, flags, unhandled, own⟩
    rw [exec_pageStore]
    exact kfpRow_page runs (by decide) (by decide) (runPage_store_of_pop formed runs.opcode unclean populated free) rests
  case checkout =>
    rintro p s r g h op a e page y v runs rfl rfl length aligned zeros flags unclean unhandled own mapped found looked speaks
      plain unsealed allows free unheld room k rfl rests
    rw [lookup_of_no_handle] at looked
    subst looked
    have formed : PageFormed g r 16 := ⟨length, aligned, zeros, flags, unhandled, own⟩
    have meets := runPage_of_checkoutExtent formed (.inl ⟨runs.opcode, unclean, unsealed⟩) mapped found speaks plain allows
    rw [exec_pageCheckout]
    exact kfpRow_page runs (by decide) (by decide) (meets.trans (checkoutStep_of_unheld free runs.opcode unheld room)) rests
  case checkin =>
    rintro p s r g h op a e page y k v runs rfl rfl length aligned zeros flags clean unhandled own mapped found looked speaks
      plain allows free held holder same rests
    rw [lookup_of_no_handle] at looked
    subst looked
    have formed : PageFormed g r 16 := ⟨length, aligned, zeros, flags, unhandled, own⟩
    have meets := runPage_of_checkoutExtent formed (.inr ⟨runs.opcode, clean⟩) mapped found speaks plain allows
    rw [exec_pageCheckin]
    exact kfpRow_page runs (by decide) (by decide)
      (meets.trans (checkoutStep_of_clean_return free runs.opcode clean held holder same)) rests

end Sys2Proof.Machine

namespace Sys2Proof.Machine

/-! Version requests (06 R172, R173, R176, R177): the rows of Table 6-11 that a request passes, and what it does then. -/

theorem exec_versionOpen (p : Packet) (s : State) : exec (.versionOpen p) s = kfpRow 0x18 p (innerOf 0x18 p) s := rfl

theorem exec_versionDraft (p : Packet) (s : State) : exec (.versionDraft p) s = kfpRow 0x19 p (innerOf 0x19 p) s := rfl

theorem exec_versionClose (p : Packet) (s : State) : exec (.versionClose p) s = kfpRow 0x1A p (innerOf 0x1A p) s := rfl

theorem exec_versionCommit (p : Packet) (s : State) : exec (.versionCommit p) s = kfpRow 0x1B p (innerOf 0x1B p) s := rfl

theorem exec_versionDiscard (p : Packet) (s : State) : exec (.versionDiscard p) s = kfpRow 0x1C p (innerOf 0x1C p) s := rfl

theorem runRequest_version (s : State) {r : Req} (low : 0x18 ≤ r.opcode) (high : r.opcode ≤ 0x1C) :
    s.runRequest r = s.runVersion r := by
  have not_tile : r.opcode ≠ 1 ∧ r.opcode ≠ 2 ∧ r.opcode ≠ 3 ∧ r.opcode ≠ 4 ∧ r.opcode ≠ 5 ∧ ¬ r.opcode ≤ 0x13 := by omega
  simp [State.runRequest, not_tile, high]

/-- A version request that runs and comes to rest is all that its packet does. -/
theorem kfpRow_version {op : Nat} {p : Packet} {x : Inner} {s u g v : State} {r : Req} (runs : Runs op p x s r g)
    (low : 0x18 ≤ op) (high : op ≤ 0x1C) (served : g.runVersion r = u) (rests : Rests u v) : kfpRow op p x s = .next v := by
  refine kfpRow_of_runs runs ?_
  rwa [runRequest_version g (runs.opcode.symm ▸ low) (runs.opcode.symm ▸ high), served]

/-- A version request that names a space of its session, in a payload of 16 bytes whose reserved bits are zero. -/
structure VersionFormed (s : State) (r : Req) : Prop where
  length : r.p.payload.length = 16
  zeros : bits (operandOf r.p) 47 36 = 0
  flags : bits (operandOf r.p) 23 0 = 0
  own : s.asidOk (bits (operandOf r.p) 35 24) r.p.session = true

/-- The completion of a version request that answers a handle and its version. -/
def State.answerVersion (s : State) (r : Req) (n version : Nat) : State :=
  let w := versionWord n version
  s.complete r .ok (some w) (some (cookieOf r.p.payload ++ leBytes w 8))

/-- A draft of an extent's next version begins with the frames of the current one (R175). -/
def State.beginDraft (s : State) (e : Nat) (y : Extent) (n : Nat) : State :=
  let k := (y.current + 1) % 2 ^ 32
  s.putExtent e { y with
    versions := y.versions.put k { frames := ((y.versions.find y.current).map (·.frames)).getD [] }
    draft := some ⟨n, y.current, k, none, []⟩ }

/-- A draft takes its commit request, and the page stores that its commit waits for (R176). -/
def State.askCommit (s : State) (r : Req) (vh e : Nat) (y : Extent) (d : Draft) : State :=
  s.putExtent e { y with draft := some { d with commit := some r, owed := s.storesOpen vh } }

/-- A draft ends without becoming current (R173). -/
def State.discardDraft (s : State) (vh : Nat) (k : Handle) (y : Extent) : State :=
  (((s.putHandle vh { k with st := .discarded }).putExtent k.extent { y with draft := none }).sendMeta
    (.extent k.extent y.tenant y.desc 2 y.current)).retireVersions k.extent

section VersionOpens

variable {s w : State} {r : Req} {e page n : Nat} {y : Extent} (formed : VersionFormed s r)
  (aligned : r.p.address % 65536 = 0) (unhandled : vhandleOf (operandOf r.p) = 0)
  (mapped : s.locate (bits (operandOf r.p) 35 24) r.p.address = .ext e page)
  (found : (s.lookedUp r).pool.extents.find e = some y)
  (speaks : ((s.lookedUp r).kfp2 r.p && (s.lookedUp r).sharedExt e) = false) (versioned : extVersioned y = true)

include formed aligned unhandled mapped found speaks versioned

/-- An open of a versioned extent answers a new reader handle on its current version (R172). -/
theorem runVersion_open (opcode : r.opcode = 0x18) (handle : (s.lookedUp r).newHandle
      { extent := e, node := r.p.src, version := y.current, st := .reader } = some (n, w)) :
    s.runVersion r = w.answerVersion r n y.current := by
  obtain ⟨length, zeros, flags, own⟩ := formed
  simp only [State.lookedUp] at found speaks handle
  simp [State.runVersion, State.answerVersion, opcode, own, length, aligned, zeros, flags, unhandled, mapped, found, speaks,
    versioned, handle]

/-- A draft of a versioned extent without one takes a new handle and a new number (R173). -/
theorem runVersion_draft (opcode : r.opcode = 0x19) (undrafted : y.draft = none)
    (room : ((s.lookedUp r).liveVersions e).length < 8) (handle : (s.lookedUp r).newHandle
      { extent := e, node := r.p.src, version := (y.current + 1) % 2 ^ 32, st := .draft } = some (n, w)) :
    s.runVersion r = (w.beginDraft e y n).answerVersion r n ((y.current + 1) % 2 ^ 32) := by
  obtain ⟨length, zeros, flags, own⟩ := formed
  simp only [State.lookedUp] at found speaks room handle
  simp only [State.runVersion, State.answerVersion, State.beginDraft, opcode, mapped, found, undrafted, handle]
  simp [own, length, aligned, zeros, flags, unhandled, speaks, versioned, Nat.not_le.mpr room]

end VersionOpens

section VersionHandles

variable {s : State} {r : Req} {k : Handle} {y : Extent} {d : Draft} (formed : VersionFormed s r)
  (unaddressed : r.p.address = 0) (handle : s.pool.handles.find (vhandleOf (operandOf r.p)) = some k)
  (found : s.pool.extents.find k.extent = some y) (stays : y.state ≠ .revoking)
  (mapped : (s.pool.maps.any fun m => m.asid == bits (operandOf r.p) 35 24 && m.extent == k.extent && !m.removing) = true)

include formed unaddressed handle found stays mapped

/-- The node that holds a reader handle closes it (R177). -/
theorem runVersion_close (opcode : r.opcode = 0x1A) (reader : k.st = .reader) (holder : k.node = r.p.src) :
    s.runVersion r = ((s.delHandle (vhandleOf (operandOf r.p))).retireVersions k.extent).complete r .ok none
      (some (cookieOf r.p.payload)) := by
  obtain ⟨length, zeros, flags, own⟩ := formed
  simp only [State.runVersion, opcode, handle, found, mapped]
  simp [own, length, zeros, flags, unaddressed, stays, reader, holder]

variable (draft : k.st = .draft) (opened : y.draft = some d) (uncommitted : d.commit = none)

include draft opened uncommitted

/-- A commit takes effect once the writes to the draft from before it are done (R176). -/
theorem runVersion_commit (opcode : r.opcode = 0x1B) :
    s.runVersion r =
      let w := s.askCommit r (vhandleOf (operandOf r.p)) k.extent y d
      if w.draftBusy k.extent then w else w.commitDraft k.extent := by
  obtain ⟨length, zeros, flags, own⟩ := formed
  simp only [State.runVersion, State.askCommit, opcode, handle, found, mapped, draft, opened]
  simp [own, length, zeros, flags, unaddressed, stays, uncommitted] <;> rfl

/-- A discard ends the draft. -/
theorem runVersion_discard (opcode : r.opcode = 0x1C) :
    s.runVersion r = (s.discardDraft (vhandleOf (operandOf r.p)) k y).complete r .ok none (some (cookieOf r.p.payload)) := by
  obtain ⟨length, zeros, flags, own⟩ := formed
  simp only [State.runVersion, State.discardDraft, opcode, handle, found, mapped, draft, opened]
  simp [own, length, zeros, flags, unaddressed, stays, uncommitted]

end VersionHandles

/-- Settles O26: each request passes the rows of its table and then does what the lemmas above say. -/
theorem versionPackets : Obligations.VersionPackets := by
  refine ⟨?opens, ?draft, ?close, ?commit, ?discard⟩
  case opens =>
    rintro p s r g h op a e page y n w v runs rfl rfl length aligned zeros flags unhandled own mapped rfl found speaks versioned
      handle rests
    have formed : VersionFormed g r := ⟨length, zeros, flags, own⟩
    rw [exec_versionOpen]
    exact kfpRow_version runs (by decide) (by decide)
      (runVersion_open formed aligned unhandled mapped found speaks versioned runs.opcode handle) rests
  case draft =>
    rintro p s r g h op a e page y n k w v runs rfl rfl length aligned zeros flags unhandled own mapped rfl found speaks
      versioned undrafted room rfl handle rests
    have formed : VersionFormed g r := ⟨length, zeros, flags, own⟩
    rw [exec_versionDraft]
    exact kfpRow_version runs (by decide) (by decide)
      (runVersion_draft formed aligned unhandled mapped found speaks versioned runs.opcode undrafted room handle) rests
  case close =>
    rintro p s r h op a vh k y v runs rfl rfl length unaddressed zeros flags rfl own handle reader holder found stays mapped rests
    have formed : VersionFormed h r := ⟨length, zeros, flags, own⟩
    rw [exec_versionClose]
    exact kfpRow_version runs (by decide) (by decide)
      (runVersion_close formed unaddressed handle found stays mapped runs.opcode reader holder) rests
  case commit =>
    rintro p s r h op a vh k y d v runs rfl rfl length unaddressed zeros flags rfl own handle draft found stays mapped opened
      uncommitted w rfl rests
    have formed : VersionFormed h r := ⟨length, zeros, flags, own⟩
    rw [exec_versionCommit]
    exact kfpRow_version runs (by decide) (by decide)
      (runVersion_commit formed unaddressed handle found stays mapped draft opened uncommitted runs.opcode) rests
  case discard =>
    rintro p s r h op a vh k y d v runs rfl rfl length unaddressed zeros flags rfl own handle draft found stays mapped opened
      uncommitted rests
    have formed : VersionFormed h r := ⟨length, zeros, flags, own⟩
    rw [exec_versionDiscard]
    exact kfpRow_version runs (by decide) (by decide)
      (runVersion_discard formed unaddressed handle found stays mapped draft opened uncommitted runs.opcode) rests

end Sys2Proof.Machine

namespace Sys2Proof.Machine

/-! Extents and lines by the clock (06 R170, R176, R182 to R184, R230; 07 R191, R207). -/

theorem exec_recallTimeout {s : State} (e page : Nat) (live : Live s) :
    exec (.recallTimeout e page) s = .next (s.recallTimeout e page).settle :=
  effect_of_live true (fun s => s.recallTimeout e page) live rfl

theorem exec_draftWritesDrained {s : State} (e : Nat) (live : Live s) :
    exec (.draftWritesDrained e) s = .next (s.draftDrained e).settle :=
  effect_of_live true (fun s => s.draftDrained e) live rfl

theorem exec_refusalMarkInForce {s : State} (m : MarkOf) (live : Live s) :
    exec (.refusalMarkInForce m) s = .next (s.markInForce m).settle :=
  effect_of_live true (fun s => s.markInForce m) live rfl

theorem exec_rangeInvalidationAck {s : State} {n : Nat} (id : Nat) (live : Live s) (hn : n < 161) :
    exec (.rangeInvalidationAck id n) s = .next (s.invalAck id n).settle :=
  effect_of_live _ (fun s => s.invalAck id n) live (decide_eq_true hn)

theorem exec_revocationSlowExpiry {s : State} (id : Nat) (live : Live s) :
    exec (.revocationSlowExpiry id) s = .next (s.invalSlow id).settle :=
  effect_of_live true (fun s => s.invalSlow id) live rfl

theorem exec_granuleZeroed {s : State} {g : Nat} (live : Live s) (hg : g < 589824) :
    exec (.granuleZeroed g) s = .next (s.granuleZeroed g).settle :=
  effect_of_live _ (fun s => s.granuleZeroed g) live (decide_eq_true hg)

theorem exec_snoopTimeout {s : State} (h n : Nat) (live : Live s) :
    exec (.snoopTimeout h n) s = .next (s.snoopTimeout h n).settle :=
  effect_of_live true (fun s => s.snoopTimeout h n) live rfl

theorem exec_writebackRecordExpiry {s : State} (h n : Nat) (live : Live s) :
    exec (.writebackRecordExpiry h n) s = .next (s.wbExpiry h n).settle :=
  effect_of_live true (fun s => s.wbExpiry h n) live rfl

theorem exec_lostHolderSweep {s : State} (h : Nat) (live : Live s) :
    exec (.lostHolderSweep h) s = .next (s.lostSweep h).settle :=
  effect_of_live true (fun s => s.lostSweep h) live rfl

/-! A recall that is not answered (R170). -/

/-- A checkout's key tells its extent and its page. -/
theorem pageKey_parts {e page : Nat} (low : page < 2 ^ 25) :
    (e * 2 ^ 25 + page) / 2 ^ 25 = e ∧ (e * 2 ^ 25 + page) % 2 ^ 25 = page := by
  omega

/-- The page of a checkout that reverts takes the lost-update mark, and its extent and tenant count it. -/
theorem revert_of_held {s : State} {e page : Nat} {c : Checkout} {y : Extent} (low : page < 2 ^ 25)
    (held : s.pool.checkouts.find (e * 2 ^ 25 + page) = some c) (found : s.pool.extents.find e = some y) :
    s.revert (e * 2 ^ 25 + page) =
      ((((s.revertPage (s.framePage e page none)).putExtent e { y with lostPages := sat32 y.lostPages 1 }).countTen
        y.tenant 5).endCheckout (e * 2 ^ 25 + page) true) := by
  obtain ⟨extent, offset⟩ := pageKey_parts (e := e) low
  have has : s.pool.checkouts.has (e * 2 ^ 25 + page) = true := by rw [Tbl.has, held, Option.isSome_some]
  rw [State.revert, extent, offset, found, has]

theorem recallTimeout_of_due {s : State} {e page : Nat} {c : Checkout}
    (held : s.pool.checkouts.find (e * 2 ^ 25 + page) = some c) (recalling : c.recalling = true) (due : c.due ≤ s.dev.tick) :
    s.recallTimeout e page = s.revert (e * 2 ^ 25 + page) := by
  rw [State.recallTimeout, held]
  simp only [recalling, due, decide_true, Bool.and_self, if_true]

/-! A draft whose writes are done (R176, R180). -/

/-- A draft has become the current version of its extent, and its handle keeps the outcome (R173). -/
def State.makeCurrent (s : State) (e : Nat) (y : Extent) (d : Draft) : State :=
  let v := s.putExtent e { y with current := d.number, draft := none }
  match s.pool.handles.find d.handle with
  | some h => v.putHandle d.handle { h with st := .committed }
  | none => v

/-- The record of an extent's new current version. -/
def currentRec (e : Nat) (y : Extent) (d : Draft) : PairRec := .extent e y.tenant y.desc 2 d.number

/-- What a commit request answers: the handle with the number of the new current version. -/
def commitBody (r : Req) (d : Draft) : List Byte := cookieOf r.p.payload ++ leBytes (versionWord d.handle d.number) 8

section Commit

variable {s : State} {e : Nat} {y : Extent} {d : Draft} {r : Req}

theorem draftDrained_of_idle (idle : s.draftBusy e = false) : s.draftDrained e = s.commitDraft e := by
  rw [State.draftDrained, idle, if_neg Bool.false_ne_true]

theorem makeCurrent_of_handle {h : Handle} (handle : s.pool.handles.find d.handle = some h) :
    s.makeCurrent e y d = (s.putExtent e { y with current := d.number, draft := none }).putHandle d.handle
      { h with st := .committed } := by
  rw [State.makeCurrent, handle]

theorem makeCurrent_of_no_handle (handle : s.pool.handles.find d.handle = none) :
    s.makeCurrent e y d = s.putExtent e { y with current := d.number, draft := none } := by
  rw [State.makeCurrent, handle]

/-- Without a standby a metadata record is sent to none that waits for it. -/
theorem sendMetaFor_of_alone (m : PairRec) (w : MirrorWait) (alone : s.mirrors = false) :
    s.sendMetaFor m w = (false, s.sendMeta m) := by
  rw [State.sendMetaFor, alone, if_neg Bool.false_ne_true]

theorem sendMetaFor_of_mirrors (m : PairRec) (w : MirrorWait) (mirrors : s.mirrors = true) :
    s.sendMetaFor m w =
      let x := s.pairSend .metaRec 0x71
      let v := x.2.emit (.metaSent x.1 m)
      (true, { v with pair.mirror := v.pair.mirror.put x.1 (v.dev.tick + v.mirrorTicks, w) }) := by
  rw [State.sendMetaFor, mirrors, if_pos rfl]

variable (found : s.pool.extents.find e = some y) (opened : y.draft = some d) (asked : d.commit = some r)

include found opened asked

/-- A commit makes the draft current, tells the standby of it where the extent is mirrored, and is answered unless it waits for
the standby. -/
theorem commitDraft_of_asked :
    s.commitDraft e =
      let u := s.makeCurrent e y d
      let w := versionWord d.handle d.number
      let m := currentRec e y d
      if u.isMirrored e then
        let x := u.sendMetaFor m (.request r 0 (some w) (commitBody r d) 0)
        if x.1 then x.2.retireVersions e
        else (x.2.retireVersions e).complete r .ok (some w) (some (commitBody r d))
      else ((u.sendMeta m).retireVersions e).complete r .ok (some w) (some (commitBody r d)) := by
  rw [State.commitDraft, found]
  simp only [opened, asked] <;> rfl

/-- The commit of a draft is answered at once where nothing waits for the standby. -/
theorem commitDraft_answers (alone : (s.makeCurrent e y d).isMirrored e = false ∨ (s.makeCurrent e y d).mirrors = false) :
    s.commitDraft e = (((s.makeCurrent e y d).sendMeta (currentRec e y d)).retireVersions e).complete r .ok
      (some (versionWord d.handle d.number)) (some (commitBody r d)) := by
  rw [commitDraft_of_asked found opened asked]
  obtain unmirrored | without := alone
  · simp [unmirrored]
  · simp [sendMetaFor_of_alone _ _ without]

/-- The commit of a draft of a mirrored extent is answered once the standby has its record (R180, 16 R434). -/
theorem commitDraft_waits (mirrored : (s.makeCurrent e y d).isMirrored e = true)
    (mirrors : (s.makeCurrent e y d).mirrors = true) :
    s.commitDraft e =
      let x := (s.makeCurrent e y d).pairSend .metaRec 0x71
      let v := x.2.emit (.metaSent x.1 (currentRec e y d))
      ({ v with pair.mirror := v.pair.mirror.put x.1 (v.dev.tick + v.mirrorTicks,
          .request r 0 (some (versionWord d.handle d.number)) (commitBody r d) 0) } : State).retireVersions e := by
  rw [commitDraft_of_asked found opened asked]
  simp only [mirrored, if_true, sendMetaFor_of_mirrors _ _ mirrors]

end Commit

/-! Refusal marks (R182; 08 R218; 09 R241). -/

section Marks

variable {s : State}

theorem markInForce_extent {n : Nat} {e : Extent} {c : CmdRef} (found : s.pool.extents.find n = some e)
    (revoking : e.state = .revoking) (first : s.invalFor (.revoke n) = false) (asked : e.cmd = some c) :
    s.markInForce (.extent n) = ((s.putExtent n { e with cmd := none }).drainExtent n).respondOk c := by
  simp [State.markInForce, State.extentMark, found, revoking, first, asked]

theorem markInForce_mapping {asid va : Nat} {m : Mapping} {c : CmdRef}
    (found : s.pool.maps.find? (fun m => m.asid == asid && m.vaBase == va) = some m) (removing : m.removing = true)
    (asked : m.cmd = some c) (first : s.invalFor (.unmap asid va) = false) :
    s.markInForce (.mapping asid va) = s.invalidate (.virt asid (va / 2097152) m.count) (.unmap asid va) := by
  simp only [State.markInForce, State.mappingMark, found]
  simp [removing, asked, first]

theorem markInForce_tenant {t : Nat} {x : Tenant} (found : s.tenantOf t = some x) (ending : x.sess = .ending)
    (first : x.markDone = false) :
    s.markInForce (.tenant t) = (s.putTenant t { x with markDone := true, endTick := s.dev.tick }).endObjects t := by
  simp [State.markInForce, State.tenantMark, found, ending, first]

end Marks

/-! Range invalidations (R183; 08 R223, R230). -/

section Invalidations

variable {s : State} {id : Nat} {i : Inval}

theorem invalAck_of_idle_engine {n : Nat} (found : s.pool.invals.find id = some i) (goes : s.inProgress id = true)
    (owes : bit i.engines n = true) (idle : s.engineBusy n i.range = false) :
    s.invalAck id n = (s.putInval id { i with engines := setBit i.engines n false }).dropEntries n i.range := by
  simp [State.invalAck, found, goes, owes, idle]

theorem invalSlow_of_due (found : s.pool.invals.find id = some i) (unnoted : i.slowNoted = false)
    (due : i.issued + 16384 ≤ s.dev.tick) :
    s.invalSlow id = (s.putInval id { i with slowNoted := true }).recOp 0x0204 1 (s.inFor i.purpose) 0
      (popcount i.engines 161) := by
  simp [State.invalSlow, found, unnoted, Nat.not_lt.mpr due]

end Invalidations

/-- A granule that waits to be zeroed is zeroed where accesses to it reach it, and FREE (R184, 10 R296, 11 R318). -/
theorem granuleZeroed_of_waiting {s : State} {g h : Nat} (home : h = s.granHome g)
    (waits : (s.gran h).st = .quarantine ∨ (s.gran h).st = .unfilled) :
    s.granuleZeroed g =
      let u := s.zeroGran (s.granCopy h)
      (if u.granCopy h = h then u.setGran h { st := .free } else u.putGran h { st := .free }).later [.migrate] := by
  subst home
  have waiting : ((s.gran (s.granHome g)).st == .quarantine || (s.gran (s.granHome g)).st == .unfilled) = true := by
    simpa using waits
  simp [State.granuleZeroed, waiting]

/-! Lines (07 R191, R207). -/

section Lines

variable {s : State} {h : Nat}

theorem snoopTimeout_of_busy {t : Trans} (n : Nat) (busy : s.com.trans.find h = some t) :
    s.snoopTimeout h n = (t.snoops.filter fun x => x.node == n && decide (x.due ≤ s.dev.tick)).foldl
      (fun u x => u.snoopAnswer h x .lost false) s := by
  rw [State.snoopTimeout, busy]

theorem wbExpiry_of_due {n due : Nat} (found : s.com.wbRecs.find (h * 65536 + n) = some due) (past : due ≤ s.dev.tick) :
    s.wbExpiry h n = { s with com.wbRecs := s.com.wbRecs.del (h * 65536 + n) } := by
  simp [State.wbExpiry, found, past]

/-- A line with a lost holder, at which nothing goes on, gets a transaction of its own. -/
theorem lostSweep_of_free (lost : ∃ n, (h, n) ∈ s.com.lost) (free : s.com.trans.find h = none) :
    s.lostSweep h = (s.putTrans h { job := .sweep }).lineGo h := by
  obtain ⟨n, mem⟩ := lost
  have any_lost : (s.com.lost.any fun x => x.1 == h) = true := List.any_eq_true.mpr ⟨_, mem, beq_self_eq_true h⟩
  simp [State.lostSweep, State.lineArrive, Tbl.has, any_lost, free]

end Lines

/-- Settles O41: each row is what its event does and what follows; the lemmas above say, event by event, which branch the state
takes. -/
theorem poolEvents : Obligations.PoolEvents := by
  refine ⟨?reverted, ?drained, ?extentMark, ?mappingMark, ?tenantMark, ?ack, ?slow, ?zeroed, ?snoop, ?record, ?sweep⟩
  case reverted =>
    rintro s e page c y u live held recalling due low found rfl
    rw [exec_recallTimeout e page live, recallTimeout_of_due held recalling due, revert_of_held low held found]
  case drained =>
    rintro s e y d r u w body m live idle found opened asked current rfl rfl rfl
    have made : u = s.makeCurrent e y d := by
      obtain ⟨without, handled⟩ := current _ rfl
      cases handle : s.pool.handles.find d.handle with
      | none => rw [makeCurrent_of_no_handle handle, without handle]
      | some h => rw [makeCurrent_of_handle handle, handled h handle]
    subst made
    rw [exec_draftWritesDrained e live, draftDrained_of_idle idle]
    refine ⟨fun unmirrored => ?_, fun mirrored mirrors x v hx hv => ?_, fun mirrored alone => ?_⟩
    · rw [commitDraft_answers found opened asked (.inl unmirrored)]
      rfl
    · rw [commitDraft_waits found opened asked mirrored mirrors, hv, hx]
      rfl
    · rw [commitDraft_answers found opened asked (.inr alone)]
      rfl
  case extentMark =>
    intro s n e c live found revoking first asked
    rw [exec_refusalMarkInForce _ live, markInForce_extent found revoking first asked]
  case mappingMark =>
    intro s asid va m c live found removing asked first
    rw [exec_refusalMarkInForce _ live, markInForce_mapping found removing asked first]
  case tenantMark =>
    intro s t x live found ending first
    rw [exec_refusalMarkInForce _ live, markInForce_tenant found ending first]
  case ack =>
    intro s id n i live hn found goes owes idle
    rw [exec_rangeInvalidationAck id live hn, invalAck_of_idle_engine found goes owes idle]
  case slow =>
    intro s id i live found unnoted due
    rw [exec_revocationSlowExpiry id live, invalSlow_of_due found unnoted due]
  case zeroed =>
    rintro s g h live hg home waits u rfl
    rw [exec_granuleZeroed live hg, granuleZeroed_of_waiting home waits]
    exact ⟨fun here => by simp only [if_pos here], fun moved => by simp only [if_neg moved]⟩
  case snoop =>
    intro s h n t live busy
    rw [exec_snoopTimeout h n live, snoopTimeout_of_busy n busy]
  case record =>
    intro s h n due live found past
    rw [exec_writebackRecordExpiry h n live, wbExpiry_of_due found past]
  case sweep =>
    intro s h live lost free
    rw [exec_lostHolderSweep h live, lostSweep_of_free lost free]

end Sys2Proof.Machine

namespace Sys2Proof.Machine

/-! Line requests and atomics (07 R197, R198): the rows of Table 7-7 that a request passes, and its transaction at a line where
nothing goes on. -/

theorem runRequest_line (s : State) {r : Req} (low : 0x20 ≤ r.opcode) (high : r.opcode ≤ 0x28) :
    s.runRequest r = s.runLine r := by
  have not_other : r.opcode ≠ 1 ∧ r.opcode ≠ 2 ∧ r.opcode ≠ 3 ∧ r.opcode ≠ 4 ∧ r.opcode ≠ 5 ∧ ¬ r.opcode ≤ 0x13 ∧
      ¬ r.opcode ≤ 0x1C := by omega
  simp [State.runRequest, not_other, high]

/-- The operand of a line request or of an atomic obeys its table (Tables 7-7 and 7-9). -/
def LineFormed (r : Req) (op : Nat) : Prop :=
  r.opcode = 0x28 ∧ op = leNat (r.p.payload.take 32) ∧ atomicBad op r.p.address = false ∨
  r.opcode ≠ 0x28 ∧ op = operandOf r.p ∧ r.p.address % 256 = 0 ∧ bits op 63 48 = 0 ∧ bits op 47 36 = 0 ∧ bits op 23 0 = 0

/-- No row of Table 7-7 stops a request with operand `op`: it names a page of extent `e`, which is common `c` and enabled, and `u`
is the state once its address has been looked up. -/
structure LinePasses (g : State) (r : Req) (op : Nat) (u : State) (e page : Nat) (v : Extent) (c : Nat) (m : Common) : Prop where
  formed : LineFormed r op
  own : g.asidOk (bits op 35 24) r.p.session = true
  format : g.faddFormat op = .ok
  mapped : g.locate (bits op 35 24) r.p.address = .ext e page
  looked : u = g.lookup (144 + r.p.port / 4) (bits op 35 24) r.p.address fun _ => none
  speaks : (u.kfp2 r.p && u.sharedExt e) = false
  found : u.pool.extents.find e = some v
  common : u.commonOf e = some (c, m)
  enabled : m.state = .enabled
  unsealed : extSealed v = false
  formatThen : u.faddFormat op = .ok

/-- A request that passes the table reaches its line, where it is the only one. -/
theorem runLine_of_passes {g u : State} {r : Req} {op e page c h : Nat} {v : Extent} {m : Common}
    (passes : LinePasses g r op u e page v c m) (line : h = c * 2 ^ 28 + page * 256 + r.p.address % 65536 / 256)
    (free : u.com.trans.find h = none) : g.runLine r = u.lineArrive h (.request r) := by
  subst line
  obtain ⟨formed, own, format, mapped, rfl, speaks, found, common, enabled, unsealed, formatThen⟩ := passes
  obtain ⟨atomic, rfl, good⟩ | ⟨plain, rfl, aligned, high, middle, low⟩ := formed
  · simp only [State.runLine, atomic]
    simp [-Nat.reducePow, own, good, format, mapped, speaks, found, common, enabled, unsealed, formatThen, free]
  · simp only [State.runLine]
    simp [-Nat.reducePow, plain, own, aligned, high, middle, low, format, mapped, speaks, found, common, enabled, unsealed,
      formatThen, free]

@[simp] theorem State.putTrans_putTrans (s : State) (h : Nat) (t u : Trans) : (s.putTrans h t).putTrans h u = s.putTrans h u := by
  simp [State.putTrans]

section Transaction

variable {s : State} {h : Nat} {job : LineJob}

theorem lineArrive_of_free (free : s.com.trans.find h = none) : s.lineArrive h job = (s.putTrans h { job }).lineGo h := by
  rw [State.lineArrive, free]

/-- At a line that no node holds a job asks none. -/
theorem lineGo_of_unheld (unheld : s.com.dir.find h = none) :
    (s.putTrans h { job }).lineGo h = (s.putTrans h { job }).lineFinish h := by
  simp [State.lineGo, unheld]

theorem clearLost_of_none (h : Nat) (kept : s.com.lost = []) : s.clearLost h = s := by
  rw [State.clearLost, kept, List.filter_nil, ← kept]

/-- A writeback to a line that one node holds exclusively, and that has lost no holder, asks none. -/
theorem lineGo_writeback {r : Req} {d : DirEntry} (opcode : r.opcode = 0x23) (held : s.com.dir.find h = some d)
    (exclusive : d.st = .exclusive) (alone : d.sharers = .precise []) (kept : s.com.lost = []) :
    (s.putTrans h { job := .request r }).lineGo h = ((s.putTrans h { job := .request r }).putDir h d).lineFinish h := by
  have cleared : ((s.putTrans h { job := .request r }).putDir h d).clearLost h =
      (s.putTrans h { job := .request r }).putDir h d := clearLost_of_none h kept
  obtain ⟨st, owner, gen, sharers, tenant, set, way, order⟩ := d
  subst exclusive alone
  simp [State.lineGo, held, State.isLost, kept, owned, State.setEntry, cleared, State.jobSnoops, opcode]

variable {r : Req}

/-- A request whose line is at hand takes effect: an entry that it needs has a way, and no stack, mirror or revocation is in its
way (R195, R199; 10 R293, 11 R302). -/
theorem lineFinish_request (goes : s.com.trans.find h = some { job := .request r }) (stack : s.heldFor [s.lineSector h] = none)
    (mirror : s.mirrorWants [s.lineSector h] = []) (stays : s.lineRevoked h = false)
    (room : (s.com.dir.find h).isSome = true ∨ r.opcode = 0x28 ∨ (s.newEntry h).isSome = true) :
    s.lineFinish h = (s.serveLine h r none).lineNext h := by
  have unheld : s.lineHeld h { job := .request r } = false := by simp [State.lineHeld, stack]
  have unmirrored : s.lineWaits h { job := .request r } = false := by simp [State.lineWaits, mirror]
  have fits : ((s.com.dir.find h).isNone && r.opcode != 0x23 && r.opcode != 0x28 && (s.newEntry h).isNone) = false := by
    obtain held | atomic | way := room
    · simp [Option.isNone_eq_false_iff.mpr held]
    · simp [atomic]
    · simp [Option.isNone_eq_false_iff.mpr way]
  rw [State.lineFinish, goes]
  simp [unheld, unmirrored, stays, fits]

end Transaction

/-! What a request does to a line (07 R199, Table 7-8). -/

/-- A request has taken a way for its entry: the next entry is later (R195). -/
def State.nextOrder (s : State) : State := { s with com.order := s.com.order + 1 }

/-- The entry of a line that the sender of a request now holds exclusively. -/
def State.exclusiveEntry (s : State) (e : DirEntry) (r : Req) : DirEntry :=
  { e with st := .exclusive, owner := r.p.src, gen := (s.nodeRec r.p.src).gen.getD r.p.ngen, sharers := .precise [] }

section Serve

variable {s : State} {h : Nat} {r : Req}

/-- The exclusive owner's writeback writes its data and drops the entry. -/
theorem serveLine_writeback {d : DirEntry} (opcode : r.opcode = 0x23) (held : s.com.dir.find h = some d)
    (exclusive : d.st = .exclusive) (owner : d.owner = r.p.src) (gen : d.gen = r.p.ngen) :
    s.serveLine h r none =
      let b := padTo (slice r.p.payload 16 256) 256
      ((((s.writeSector (s.lineSector h) 0 b false).2.delDir h).lineCleaned h).afterWrite h 0 b r .ok none
        (cookieOf r.p.payload)) := by
  simp only [State.serveLine, opcode, held]
  simp [owned, exclusive, owner, gen]

variable (unheld : s.com.dir.find h = none)

include unheld

theorem serveLine_atomic (opcode : r.opcode = 0x28) : s.serveLine h r none = s.runAtomic h r := by
  simp [State.serveLine, opcode, unheld]

variable {e : DirEntry} {m : Common} {st : Status} {d : List Byte} {t : State} (way : s.newEntry h = some e)
  (common : s.com.commons.find (lineCommon h) = some m)

include way common

/-- A read of a common that grants no exclusive copies makes its node a sharer. -/
theorem serveLine_shares (opcode : r.opcode = 0x20) (plain : bit m.desc 32 = true)
    (read : (s.nextOrder.putDir h { e with sharers := .precise [r.p.src] }).readSector
      ((s.nextOrder.putDir h { e with sharers := .precise [r.p.src] }).lineSector h) = (st, d, t)) :
    s.serveLine h r none = t.complete r st none (some (cookieOf r.p.payload ++ d)) h := by
  simp only [State.nextOrder] at read
  simp only [State.serveLine, opcode, unheld, way, common]
  simp [plain, State.lineData, read]

/-- Any other request for a line that no node holds makes its node the owner. -/
theorem serveLine_owns (kind : r.opcode = 0x20 ∧ bit m.desc 32 = false ∨ r.opcode = 0x21 ∨ r.opcode = 0x22)
    (read : (s.nextOrder.putDir h (s.exclusiveEntry e r)).readSector
      ((s.nextOrder.putDir h (s.exclusiveEntry e r)).lineSector h) = (st, d, t)) :
    s.serveLine h r none = t.grant h r st (cookieOf r.p.payload ++ d) := by
  have reads : r.opcode ≠ 0x23 ∧ r.opcode ≠ 0x28 := by omega
  have owns : r.opcode = 0x20 → bit m.desc 32 = false := by
    intro opcode
    obtain ⟨-, grants⟩ | other | other := kind
    · exact grants
    all_goals omega
  simp only [State.nextOrder, State.exclusiveEntry] at read
  simp only [State.serveLine, unheld, way, common]
  simp +contextual [reads, owns, State.lineData, read]

end Serve

/-- A grant of a line of an extent without a mirror is a completion (R209). -/
theorem grant_of_unmirrored {s : State} {h : Nat} (r : Req) (st : Status) (b : List Byte)
    (alone : s.mirrorsTo (s.lineExt h) = false) (unmirrored : s.isMirrored (s.lineExt h) = false) :
    s.grant h r st b = s.complete r st none (some b) h := by
  simp [State.grant, alone, unmirrored]

/-! From the packet to the line. -/

section Runs

variable {op : Nat} {p : Packet} {s u v : State} {r : Req} {h : Nat} {i : Instr}

/-- A row whose packet is a line request or an atomic leaves what is at rest after its transaction. -/
theorem exec_of_runLine {g w : State} (row : exec i s = kfpRow op p (innerOf op p) s) (low : 0x20 ≤ op) (high : op ≤ 0x28)
    (runs : Runs op p (innerOf op p) s r g) (served : g.runLine r = w) (rests : Rests w v) : exec i s = .next v := by
  rw [row]
  refine kfpRow_of_runs runs ?_
  rwa [runRequest_line g (runs.opcode.symm ▸ low) (runs.opcode.symm ▸ high), served]

/-- A line request that runs on a free line begins its transaction there, and neither a stack nor a revocation stops it. -/
theorem LineRuns.begins (runs : LineRuns op p s r u h) (high : op < 0x28) : ∃ g, Runs op p (innerOf op p) s r g ∧
    g.runLine r = (u.putTrans h { job := .request r }).lineGo h ∧ u.heldFor [u.lineSector h] = none ∧ u.lineRevoked h = false := by
  obtain ⟨g, o, e, page, x, c, m, arrives, operand, own, aligned, zeros, middle, flags, format, mapped, looked, speaks, found,
    common, enabled, unsealed, formatThen, line, free, stack, stays⟩ := runs
  have plain : r.opcode ≠ 0x28 := by rw [arrives.opcode]; exact Nat.ne_of_lt high
  have passes : LinePasses g r o u e page x c m := ⟨.inr ⟨plain, operand, aligned, zeros, middle, flags⟩, own, format, mapped,
    looked, speaks, found, common, enabled, unsealed, formatThen⟩
  exact ⟨g, arrives, (runLine_of_passes passes line free).trans (lineArrive_of_free free), stack, stays⟩

/-- A read or an upgrade of a line that no node holds is served at once. -/
theorem exec_of_unheld_line {d : DirEntry} (row : exec i s = kfpRow op p (innerOf op p) s) (low : 0x20 ≤ op) (high : op < 0x28)
    (runs : LineRuns op p s r u h) (unheld : u.com.dir.find h = none) (mirror : u.mirrorWants [u.lineSector h] = [])
    (way : (u.putTrans h { job := .request r }).newEntry h = some d)
    (rests : Rests (((u.putTrans h { job := .request r }).serveLine h r none).lineNext h) v) : exec i s = .next v := by
  obtain ⟨g, arrives, begun, stack, stays⟩ := runs.begins high
  refine exec_of_runLine row low (Nat.le_of_lt high) arrives ?_ rests
  rw [begun, lineGo_of_unheld unheld]
  exact lineFinish_request (by simp) stack mirror stays (.inr (.inr (by simp [way])))

end Runs

/-- Settles O27: each request reaches its line, which no snoop is needed for, and is served there. -/
theorem linePackets : Obligations.LinePackets := by
  refine ⟨?readS, ?readX, ?upgrade, ?writeback, ?grants⟩
  case readS =>
    rintro p s r u h d runs unheld mirror way w rfl v rests
    exact exec_of_unheld_line rfl (by decide) (by decide) runs unheld mirror way rests
  case readX =>
    rintro p s r u h d runs unheld mirror way w rfl v rests
    exact exec_of_unheld_line rfl (by decide) (by decide) runs unheld mirror way rests
  case upgrade =>
    rintro p s r u h d runs unheld mirror way w rfl v rests
    exact exec_of_unheld_line rfl (by decide) (by decide) runs unheld mirror way rests
  case writeback =>
    rintro p s r u h d runs held exclusive alone owner gen kept mirror w rfl x rfl v rests
    obtain ⟨g, arrives, begun, stack, stays⟩ := runs.begins (by decide)
    refine exec_of_runLine rfl (by decide) (by decide) arrives ?_ rests
    calc g.runLine r
      _ = (u.putTrans h { job := .request r }).lineGo h := begun
      _ = ((u.putTrans h { job := .request r }).putDir h d).lineFinish h :=
        lineGo_writeback arrives.opcode held exclusive alone kept
      _ = (((u.putTrans h { job := .request r }).putDir h d).serveLine h r none).lineNext h :=
        lineFinish_request (by simp) stack mirror stays (.inl (by simp))
      _ = _ := congrArg (State.lineNext · h) (serveLine_writeback arrives.opcode (by simp) exclusive owner gen)
  case grants =>
    rintro s a h r e m st d t unheld way common rfl
    refine ⟨fun ⟨opcode, plain⟩ read => serveLine_shares unheld way common opcode plain read, ?_⟩
    rintro kind x rfl read alone unmirrored
    rw [serveLine_owns unheld way common kind read, grant_of_unmirrored r st _ alone unmirrored]

/-! Atomics (07 R202 to R206, Table 7-9). -/

section Atomics

variable {s t : State} {r : Req} {op h n old : Nat}

/-- An atomic that finds a good word ends with what Table 7-9 makes of it. -/
theorem runAtomic_of_read {y : List Byte} {st : Status} {new : Option Nat} {ans : Nat} (operand : op = leNat (r.p.payload.take 32))
    (read : s.readSector (s.lineSector h) = (.ok, y, t)) (sector : n = s.lineSector h)
    (word : old = leNat (slice y (r.p.address % 256) (if bit op 8 then 8 else 4)))
    (value : t.atomicOf op r.p.src r.p.ngen old = (st, new, ans)) :
    (s.runAtomic h r).lineNext h = atomicEnd t r op h n new st ans := by
  subst operand sector word
  cases new with
  | none => simp [State.runAtomic, atomicEnd, read, value]
  | some w => simp [State.runAtomic, atomicEnd, read, value]

/-- An atomic on a free line ends with what Table 7-9 makes of the word that it finds. -/
theorem exec_of_atomicRuns {p : Packet} {v : State} {i : Instr} {st : Status} {new : Option Nat} {ans : Nat}
    (row : exec i s = kfpRow 0x28 p (innerOf 0x28 p) s) (runs : AtomicRuns p s r op h n old t)
    (value : t.atomicOf op r.p.src r.p.ngen old = (st, new, ans)) (rests : Rests (atomicEnd t r op h n new st ans) v) :
    exec i s = .next v := by
  obtain ⟨g, u, e, page, x, c, m, y, arrives, operand, own, good, format, mapped, looked, speaks, found, common, enabled,
    unsealed, formatThen, line, free, unheld, stack, stays, mirror, sector, read, word⟩ := runs
  have passes : LinePasses g r op u e page x c m := ⟨.inl ⟨arrives.opcode, operand, good⟩, own, format, mapped, looked, speaks,
    found, common, enabled, unsealed, formatThen⟩
  refine exec_of_runLine row (by decide) (by decide) arrives ?_ rests
  calc g.runLine r
      _ = u.lineArrive h (.request r) := runLine_of_passes passes line free
      _ = (u.putTrans h { job := .request r }).lineGo h := lineArrive_of_free free
      _ = (u.putTrans h { job := .request r }).lineFinish h := lineGo_of_unheld unheld
      _ = ((u.putTrans h { job := .request r }).serveLine h r none).lineNext h :=
        lineFinish_request (by simp) stack mirror stays (.inr (.inl arrives.opcode))
      _ = ((u.putTrans h { job := .request r }).runAtomic h r).lineNext h :=
        congrArg (State.lineNext · h) (serveLine_atomic unheld arrives.opcode)
      _ = atomicEnd t r op h n new st ans := runAtomic_of_read operand (sector ▸ read) sector word value

variable (s) (src ngen : Nat)

/-! What each operation of Table 7-9 makes of a word. -/

theorem atomicOf_add (kind : op % 256 = 1) : s.atomicOf op src ngen old =
    (.ok, some ((old + bits op 191 128) % 2 ^ (if bit op 8 then 64 else 32)), old) := by
  simp only [State.atomicOf, kind]

theorem atomicOf_cas (kind : op % 256 = 3) : s.atomicOf op src ngen old =
    (.ok, some (if old = bits op 255 192 then bits op 191 128 else old), old) := by
  simp only [State.atomicOf, kind, beq_iff_eq]

theorem atomicOf_swap (kind : op % 256 = 4) : s.atomicOf op src ngen old = (.ok, some (bits op 191 128), old) := by
  simp only [State.atomicOf, kind]

theorem atomicOf_min (kind : op % 256 = 5) {w : Nat} (width : w = if bit op 8 then 64 else 32) : s.atomicOf op src ngen old =
    (.ok, some (if signed (bits op 191 128) w < signed old w then bits op 191 128 else old), old) := by
  simp only [State.atomicOf, kind, width]

theorem atomicOf_max (kind : op % 256 = 6) {w : Nat} (width : w = if bit op 8 then 64 else 32) : s.atomicOf op src ngen old =
    (.ok, some (if signed old w < signed (bits op 191 128) w then bits op 191 128 else old), old) := by
  simp only [State.atomicOf, kind, width]

theorem atomicOf_umin (kind : op % 256 = 7) : s.atomicOf op src ngen old = (.ok, some (min old (bits op 191 128)), old) := by
  simp only [State.atomicOf, kind]

theorem atomicOf_umax (kind : op % 256 = 8) : s.atomicOf op src ngen old = (.ok, some (max old (bits op 191 128)), old) := by
  simp only [State.atomicOf, kind]

/-- A sum in a ledger word that stays in the word's range is exact (R203). -/
theorem atomicOf_faddx {f : Fmt} {q : Int × Bool} {sum : Int} (kind : op % 256 = 2) (format : f = s.fmt (bits op 52 48))
    (quantum : q = ledgerQ (f.value (bits op 191 128 % 2 ^ f.width)) (signed (bits op 63 56) 8)) (unclamped : q.2 = false)
    (total : sum = signed old 64 + q.1) (low : -(2 ^ 63) ≤ sum) (high : sum < 2 ^ 63) :
    s.atomicOf op src ngen old = (.ok, some (unsigned sum 64), old) := by
  have below : ¬ (2 ^ 63 - 1 : Int) < sum := by omega
  have above : ¬ sum < -(2 ^ 63 - 1 : Int) - 1 := by omega
  subst format quantum total
  simp only [State.atomicOf, kind, unclamped, if_neg below, if_neg above, Bool.false_or, bne_self_eq_false,
    if_neg Bool.false_ne_true]

/-- An arrival at a barrier that still waits for one counts, and the last of them opens the next round (R205). -/
theorem atomicOf_arrive (kind : op % 256 = 16) (waits : bits old 15 0 < bits old 31 16) {w : Nat}
    (next : w = (if bits old 15 0 + 1 = bits old 31 16 then (bits old 63 32 + 1) % 2 ^ 32 * 2 ^ 32 + bits old 31 16 * 2 ^ 16
      else old + 1)) :
    s.atomicOf op src ngen old = (.ok, some w, w) := by
  have expects : ¬ (bits old 31 16 == 0 || decide (bits old 31 16 ≤ bits old 15 0)) = true := by
    simp only [Bool.or_eq_true, beq_iff_eq, decide_eq_true_eq]
    omega
  subst next
  simp only [State.atomicOf, kind, if_neg expects, beq_iff_eq]

/-- A free lock goes to the node that asks (R206). -/
theorem atomicOf_acquire (kind : op % 256 = 32) (free : bit old 0 = false) {w : Nat}
    (granted : w = src * 2 ^ 48 + ngen * 2 ^ 44 + (s.nodeRec src).loss % 256 * 2 ^ 36 + (bits old 31 1 + 1) % 2 ^ 31 * 2 + 1) :
    s.atomicOf op src ngen old = (.ok, some w, w) := by
  subst granted
  simp only [State.atomicOf, kind, free, Bool.not_false, if_true]

/-- A lock is freed by its holder, whose lease is the one in the word (R206). -/
theorem atomicOf_release (kind : op % 256 = 33) (locked : bit old 0 = true) (holder : bits old 63 48 = src)
    (gen : (s.nodeRec src).gen = some (bits old 47 44)) (loss : (s.nodeRec src).loss % 256 = bits old 43 36) :
    s.atomicOf op src ngen old = (.ok, some (bits old 31 1 * 2), bits old 31 1 * 2) := by
  simp [State.atomicOf, kind, locked, holder, gen, loss]

end Atomics

/-- Settles O28: on a free line each atomic ends with the word that the model's table of atomics makes of the one it finds. -/
theorem atomicPackets : Obligations.AtomicPackets := by
  refine ⟨?words, ?ledger⟩
  case words =>
    rintro p s r op h n old t w x v runs rfl rfl
    refine ⟨?add, ?cas, ?swap, ?min, ?max, ?umin, ?umax⟩
    case add => exact fun kind => exec_of_atomicRuns rfl runs (atomicOf_add t _ _ kind)
    case cas => exact fun kind => exec_of_atomicRuns rfl runs (atomicOf_cas t _ _ kind)
    case swap => exact fun kind => exec_of_atomicRuns rfl runs (atomicOf_swap t _ _ kind)
    case min => exact fun kind => exec_of_atomicRuns rfl runs (atomicOf_min t _ _ kind rfl)
    case max => exact fun kind => exec_of_atomicRuns rfl runs (atomicOf_max t _ _ kind rfl)
    case umin => exact fun kind => exec_of_atomicRuns rfl runs (atomicOf_umin t _ _ kind)
    case umax => exact fun kind => exec_of_atomicRuns rfl runs (atomicOf_umax t _ _ kind)
  case ledger =>
    intro p s r op h n old t f q sum v runs kind format quantum unclamped total low high rests
    exact exec_of_atomicRuns rfl runs (atomicOf_faddx t _ _ kind format quantum unclamped total low high) rests

/-- Settles O29: on a free line each row ends with the word that the lemmas above give. -/
theorem barrierPackets : Obligations.BarrierPackets := by
  refine ⟨?arrive, ?acquire, ?release⟩
  case arrive =>
    intro p s r op h n old t v runs kind waits w next rests
    exact exec_of_atomicRuns rfl runs (atomicOf_arrive t _ _ kind waits next) rests
  case acquire =>
    intro p s r op h n old t v runs kind free w granted rests
    exact exec_of_atomicRuns rfl runs (atomicOf_acquire t _ _ kind free granted) rests
  case release =>
    intro p s r op h n old t v runs kind locked holder gen loss rests
    exact exec_of_atomicRuns rfl runs (atomicOf_release t _ _ kind locked holder gen loss) rests

end Sys2Proof.Machine

namespace Sys2Proof.Machine

/-! The bodies of the mapping commands (08 R215 to R218; 09 R265), where their tables' rows pass. -/

/-- A command that its chapter refuses does nothing else (17 R451). -/
theorem reaches_refuses {spec : CcpSpec} {c : CcpCmd} {a b : Bool} {s t u : State} {x : CcpCtx} {body : CcpBody} {r : Refuse}
    (h : Reaches spec c a b s x t) (hbody : body x t = refuse u r) : ccpRowOf spec body c a b s = .next (refused u x r) := by
  rw [reaches_serve body h, hbody]
  rfl

section MappingBodies

variable {x : CcpCtx} {t : State}

/-- A weight import into its extent refuses a map that Table 8-3 lets pass (09 R265, log 185). -/
theorem bodyExtentMap_of_importing (rows : checkTable (mapRows x t) 0 = none)
    (importing : t.importing (bits x.block 15 0) = true) : bodyExtentMap x t = refuse t rBusy := by
  simp [bodyExtentMap, rows, importing]

/-- A map that Table 8-3 lets pass is the last of the mappings. -/
theorem bodyExtentMap_of_rows (rows : checkTable (mapRows x t) 0 = none) (idle : t.importing (bits x.block 15 0) = false) :
    bodyExtentMap x t = okBytes (({ t with pool.maps := t.pool.maps ++ [mapOf x.block] } : State).sendMeta
      (.mapping x.tenant x.block)) [] := by
  simp [bodyExtentMap, okEmpty, rows, idle]

/-- A mapping of the tenant's own space that stays is marked, and its command held (08 R218). -/
theorem bodyExtentUnmap_of_own {a : Space} {m : Mapping} (serves : t.spaceLive (bits x.block 35 24) = some a)
    (own : a.tenant = x.tenant)
    (found : (t.pool.maps.find? fun m => m.asid == bits x.block 35 24 && m.vaBase == bits x.block 127 80 &&
      m.extent == bits x.block 15 0) = some m) (stays : m.removing = false) :
    bodyExtentUnmap x t = heldCmd (((t.eachMap fun y =>
        if y.asid == bits x.block 35 24 && y.vaBase == bits x.block 127 80 then { y with removing := true, cmd := some x.ref }
        else y).sendMeta (.unmap x.block)).later [.scratch]) := by
  simp only [bodyExtentUnmap, found]
  refine checked_of_passed _ _ ?_
  simp [firstRefuse, serves, own, stays]

end MappingBodies

/-- Settles O9: each command reaches its body, and the lemmas above say what the body answers, refuses or holds. -/
theorem mappingCommands : Obligations.MappingCommands := by
  refine ⟨?map, ?unmap⟩
  case map =>
    intro c s x t reached rows
    rw [← (taken_block reached.1).1]
    exact ⟨fun importing => reaches_refuses reached (bodyExtentMap_of_importing rows importing),
      fun idle => reaches_answers reached (bodyExtentMap_of_rows rows idle)⟩
  case unmap =>
    intro c s x t a m reached serves own found stays
    rw [← (taken_block reached.1).1] at serves found ⊢
    exact reaches_holds reached (bodyExtentUnmap_of_own serves own found stays)

end Sys2Proof.Machine

namespace Sys2Proof.Machine

/-! The bodies of the partition and common commands (07 R185 to R187, R196; 08 R232), where nothing refuses them. -/

theorem firstRefuse_of_passed {l : List (Bool × Refuse)} (passed : ∀ x ∈ l, x.1 = false) : firstRefuse l = none := by
  induction l with
  | nil => rfl
  | cons y l ih =>
    obtain ⟨first, others⟩ := List.forall_mem_cons.mp passed
    rw [firstRefuse_cons, first, if_neg Bool.false_ne_true, ih others]

/-- A table of which no row fails refuses nothing (17 R460). -/
theorem checkTable_of_passed {rows : List (Bool × RClass)} (n : Nat) (passed : ∀ x ∈ rows, x.1 = false) :
    checkTable rows n = none := by
  have holds : ∀ x ∈ rows.zipIdx, x.1.1 = false := fun x hx => passed _ (List.fst_mem_of_mem_zipIdx hx)
  have stateRow : (rows.zipIdx.find? fun x => x.2 + 1 == n && x.1.1) = none :=
    List.find?_eq_none.mpr fun x hx => by simp [holds x hx]
  simp only [checkTable, stateRow]
  exact firstRefuse_of_passed (List.forall_mem_map.mpr holds)

section PartitionBodies

variable {x : CcpCtx} {t : State} {n : Nat}

section Partition

variable {w : Nat} {v : Tenant} (tenant : n = bits x.block 15 0) (ways : w = bits x.block 31 16) (found : t.tenantOf n = some v)

include tenant ways found

theorem bodyL2Partition_of_disjoint (disjoint : (t.pool.l2part.any fun y => y.1 != n && Nat.land y.2 w != 0) = false) :
    bodyL2Partition x t =
      okBytes { t with pool.l2part := if w = 0 then t.pool.l2part.del n else t.pool.l2part.put n w } [] := by
  subst tenant ways
  simp only [bodyL2Partition, beq_iff_eq]
  refine checked_of_passed _ _ (firstRefuse_of_passed ?_)
  simp only [List.forall_mem_cons, found, disjoint, Option.isNone_some, List.not_mem_nil, false_imp_iff, implies_true, and_self]

theorem bodyDirPartition_of_disjoint (disjoint : (t.com.part.any fun y => y.1 != n && Nat.land y.2 w != 0) = false)
    (without : (t.com.commons.any fun y => y.2.tenant == n && y.2.state == .enabled) = false) :
    bodyDirPartition x t = okBytes { t with com.part := if w = 0 then t.com.part.del n else t.com.part.put n w } [] := by
  subst tenant ways
  simp only [bodyDirPartition, beq_iff_eq]
  refine checked_of_passed _ _ (firstRefuse_of_passed ?_)
  simp only [List.forall_mem_cons, found, disjoint, without, Option.isNone_some, List.not_mem_nil, false_imp_iff, implies_true,
    and_self]

end Partition

theorem bodyCommonCreate_of_free (free : cyclicFree (fun n => t.com.commons.has n) t.ctl.lastCommon 0 255 = some n) :
    bodyCommonCreate x t = okBytes
      (({ t with ctl.lastCommon := some n }.putCommon n { tenant := x.tenant, desc := x.block }).sendMeta
        (.common n x.tenant x.block 1)) (leBytes (bits x.block 127 64) 8 ++ leBytes n 8) := by
  rw [bodyCommonCreate, free]

/-- The granules of the extents of all enabled commons, which Table 7-2 bounds. -/
def State.commonGranules (s : State) : Nat :=
  sumOf (s.com.commons.map fun y =>
    if y.2.state == .enabled then ((s.pool.extents.find (comExtent y.2)).map extCount).getD 0 else 0)

/-- A DISABLED common `m` of a tenant whose extent `e` passes the rows of Table 7-2 (R186). -/
structure CommonEnables (t : State) (tenant : Nat) (m : Common) (e : Extent) : Prop where
  owner : m.tenant = tenant
  disabled : m.state = .disabled
  rights : bits m.desc 3 0 = 3
  extent : t.pool.extents.find (comExtent m) = some e
  extentOwner : e.tenant = tenant
  extentEnabled : e.state = .enabled
  unversioned : extVersioned e = false
  noCheckout : extCheckout e = false
  single : t.commonOf (comExtent m) = none
  bounded : t.commonGranules + extCount e ≤ 32768
  isolation : t.isolated tenant = true → t.com.part.has tenant = true

section Named

variable {m : Common} (object : x.object = n) (found : t.com.commons.find n = some m)

include object found

theorem bodyCommonEnable_of_rows {e : Extent} (enables : CommonEnables t x.tenant m e) :
    bodyCommonEnable x t =
      okBytes ((t.putCommon n { m with state := .enabled }).sendMeta (.common n x.tenant m.desc 2)) [] := by
  obtain ⟨owner, disabled, rights, extent, extentOwner, extentEnabled, unversioned, noCheckout, single, bounded, isolation⟩ :=
    enables
  simp only [bodyCommonEnable, object, found, owner, bne_self_eq_false, Bool.false_eq_true, if_false]
  rw [checkTable_of_passed]
  · rfl
  · simpa [rights, extent, extentOwner, extentEnabled, unversioned, noCheckout, single, disabled, State.commonGranules] using
      And.intro bounded isolation

variable (own : m.tenant = x.tenant)

include own

theorem bodyCommonDelete_of_disabled (disabled : m.state = .disabled) :
    bodyCommonDelete x t = okBytes ((t.delCommon n).sendMeta (.noCommon n)) [] := by
  simp [bodyCommonDelete, okEmpty, object, found, own, disabled]

/-- The delete of an enabled common is held until its last entry is taken back (R187). -/
theorem bodyCommonDelete_of_enabled (enabled : m.state = .enabled) :
    bodyCommonDelete x t =
      heldCmd ((t.putCommon n { m with state := .ending, cmd := some x.ref }).sweepCommon n .delete) := by
  simp [bodyCommonDelete, object, found, own, enabled]

end Named

end PartitionBodies

/-- Settles O10: each command reaches its body, and the lemmas above say what the body answers or holds. -/
theorem partitionCommands : Obligations.PartitionCommands := by
  refine ⟨?l2, ?directory, ?create, ?enable, ?delete⟩
  case l2 =>
    intro c s x t n w v reached tenant ways found disjoint
    rw [← (taken_block reached.1).1] at tenant ways
    exact reaches_answers reached (bodyL2Partition_of_disjoint tenant ways found disjoint)
  case directory =>
    intro c s x t n w v reached tenant ways found disjoint without
    rw [← (taken_block reached.1).1] at tenant ways
    exact reaches_answers reached (bodyDirPartition_of_disjoint tenant ways found disjoint without)
  case create =>
    intro c s x t n reached free
    rw [← (taken_block reached.1).1]
    exact reaches_answers reached (bodyCommonCreate_of_free free)
  case enable =>
    rintro c s x t n m e reached rfl found owner disabled rights extent extentOwner extentEnabled unversioned noCheckout single
      bounded isolation
    exact reaches_answers reached (bodyCommonEnable_of_rows (reaches_object reached) found ⟨owner, disabled, rights, extent,
      extentOwner, extentEnabled, unversioned, noCheckout, single, bounded, isolation⟩)
  case delete =>
    rintro c s x t n m reached rfl found own
    have object := reaches_object reached
    exact ⟨fun disabled => reaches_answers reached (bodyCommonDelete_of_disabled object found own disabled),
      fun enabled => reaches_holds reached (bodyCommonDelete_of_enabled object found own enabled)⟩

end Sys2Proof.Machine

namespace Sys2Proof.Machine

/-! Walks, invalidations by identifier and populations (08 R219, R225 to R229). -/

theorem exec_translationWalkDone {s : State} {n : Nat} (asid va : Nat) (live : Live s) (hn : n < 161) :
    exec (.translationWalkDone n asid va) s = .next (s.walkDone n asid va).settle :=
  effect_of_live _ (fun s => s.walkDone n asid va) live (decide_eq_true hn)

theorem exec_identInvalidationInForce {s : State} (asid : Nat) (live : Live s) :
    exec (.identInvalidationInForce asid) s = .next (s.identInForce asid).settle :=
  effect_of_live true (fun s => s.identInForce asid) live rfl

theorem exec_populationDone {s : State} (asid g : Nat) (live : Live s) :
    exec (.populationDone asid g) s = .next (s.populationDone asid g).settle :=
  effect_of_live true (fun s => s.populationDone asid g) live rfl

theorem exec_populationWaitExpiry {s : State} (n g : Nat) (live : Live s) :
    exec (.populationWaitExpiry n g) s = .next (s.populationWait n g).settle :=
  effect_of_live true (fun s => s.populationWait n g) live rfl

/-! The level-two buffer (R219, R232). -/

/-- The entries of the level-two set of an entry. -/
def BufEntry.sameSet (b : BufEntry) : BufEntry → Bool := fun c => entrySet c.whole c.va == entrySet b.whole b.va

/-- The ways of the level two that new entries of an entry's tenant may use. -/
def State.waysFor (s : State) (b : BufEntry) : List Nat := bitsOf (waysOf s.pool.l2part b.tenant) 16

/-- A way that a tenant may use and that no entry of the set holds. -/
def State.freeWay (s : State) (b : BufEntry) : Option Nat :=
  (s.waysFor b).find? fun w => (s.pool.l2.filter b.sameSet).all (·.way != w)

/-- An entry stands in a way of its set, in place of what stood there. -/
def State.placeL2 (s : State) (b : BufEntry) (w : Nat) : State :=
  { s with pool.l2 := { b with way := w } :: s.pool.l2.filter fun c => !(b.sameSet c && c.way == w) }

section Buffers

variable {s : State} {b : BufEntry} {w : Nat}

theorem fillL2_of_freeWay (free : s.freeWay b = some w) : s.fillL2 b = s.placeL2 b w := by
  unfold State.freeWay State.waysFor BufEntry.sameSet at free
  rw [State.fillL2]
  simp only [free]
  rfl

/-- In a full set a free value chooses the way that the entry takes. -/
theorem fillL2_of_full (full : s.freeWay b = none) (some_way : s.waysFor b ≠ []) :
    s.fillL2 b = (s.draw 16).2.placeL2 b ((s.waysFor b).getD ((s.draw 16).1 % (s.waysFor b).length) 0) := by
  have ways : (s.waysFor b).isEmpty = false := List.isEmpty_eq_false_iff.mpr some_way
  unfold State.freeWay State.waysFor BufEntry.sameSet at full
  rw [State.waysFor] at ways
  rw [State.fillL2]
  simp only [full, ways]
  rfl

end Buffers

/-- A walk that finds its translation fills the level two, and but for a draft's the engine's level one. -/
theorem walkDone_of_found {s u : State} {n asid va page : Nat} {k : Walk} {a : Space} {b : BufEntry}
    (walk : s.pool.walks.find? (fun w => w.engine == n && w.asid == asid && w.va == va) = some k)
    (ended : u = { s with pool.walks := s.pool.walks.filter (· != k) })
    (found : u.pageAt asid va (fun _ => some k.version) = some page) (space : u.pool.spaces.find asid = some a)
    (lives : u.versionLives asid va k.version = true)
    (entry : b = ⟨asid, va, u.wholeEntry asid va, k.version, a.tenant, page, 0⟩) :
    s.walkDone n asid va = if ((u.fillL2 b).versionAt asid va fun _ => some k.version).2 then u.fillL2 b
      else (u.fillL2 b).fillL1 n b := by
  subst ended entry
  rw [State.walkDone]
  simp only [walk, found, space, lives]
  rfl

/-- The invalidation of a deleted space comes into force once (R228, R229). -/
theorem identInForce_of_dead {s : State} {asid : Nat} {a : Space} (found : s.pool.spaces.find asid = some a)
    (dead : a.dead = true) (first : a.inForce = false) :
    s.identInForce asid =
      let grans := a.pops.map (·.2) ++ a.growing.map (·.2.granule)
      let u := (s.putSpace asid { a with inForce := true, cmd := none, pops := [], growing := [] }).dropSpaces (· == asid)
      let v := (u.pool.maps.filter fun m => m.asid == asid && m.cmd.isNone).foldl
        (fun s m => s.invalidate (.virt asid (m.vaBase / 2097152) m.count) (.spaceMap asid m.vaBase)) u
      let w := (if grans = [] then v else v.invalidate (.phys grans) (.spaceGrans asid grans)).later
        ((a.growing.flatMap fun p => p.2.waiting.map (·.1)).map .run)
      a.cmd.elim w w.respondOk := by
  have goes : (!a.dead || a.inForce) = false := by rw [dead, first]; rfl
  rw [State.identInForce]
  simp only [found, goes, List.isEmpty_iff]
  cases a.cmd with
  | none => rfl
  | some c => rfl

theorem populationDone_of_growing {s : State} {asid g : Nat} {a : Space} {p : Population}
    (found : s.pool.spaces.find asid = some a) (grows : a.growing.find g = some p) :
    s.populationDone asid g =
      (s.putSpace asid { a with growing := a.growing.del g, pops := a.pops.put g p.granule }).later
        (p.waiting.map fun w => .run w.1) := by
  simp only [State.populationDone, found, grows]

/-- An access no longer waits for a population. -/
def State.leavePopulation (s : State) (asid : Nat) (a : Space) (v : Nat) (p : Population) (w : Access × Nat) : State :=
  s.putSpace asid { a with growing := a.growing.put v { p with waiting := p.waiting.filter (· != w) } }

section Waiting

variable {s : State} {n g asid v d : Nat} {a : Space} {p : Population}

/-- A request that has waited its bound leaves the population's list and completes BUSY_RETRY (R226, R227). -/
theorem populationWait_of_request {r : Req} (late : s.popWaiter n g = some (asid, a, v, p, .request r, d)) :
    s.populationWait n g = (s.leavePopulation asid a v p (.request r, d)).complete r .busyRetry := by
  simp only [State.populationWait, late, State.leavePopulation]

/-- A tile that has waited its bound leaves the population's list and ends late (R226, R227). -/
theorem populationWait_of_tile {sid i : Nat} (late : s.popWaiter n g = some (asid, a, v, p, .tile sid i, d)) :
    s.populationWait n g = (s.leavePopulation asid a v p (.tile sid i, d)).later [.late sid i] := by
  simp only [State.populationWait, late, State.leavePopulation]

end Waiting

/-- Settles O42: each row is what its event does and what follows; the lemmas above say, event by event, which branch the state
takes. A walk's way is a free one, or a free value's where the set is full. -/
theorem spaceEvents : Obligations.SpaceEvents := by
  refine ⟨?walk, ?invalidation, ?population, ?expiry⟩
  case walk =>
    rintro s n asid va k u page a ways same w b c e live hn walk ended found space lives hways hsame way hb hc
    have filled : u.fillL2 b = c := by
      subst hways hsame hb hc
      obtain ⟨free, rfl⟩ | ⟨full, some_way, rfl, rfl⟩ := way
      · exact fillL2_of_freeWay free
      · exact fillL2_of_full full some_way
    rw [exec_translationWalkDone asid va live hn, walkDone_of_found walk ended found space lives hb, filled, hb]
    rfl
  case invalidation =>
    rintro s asid a grans u v w live found dead first rfl rfl rfl rfl
    rw [exec_identInvalidationInForce asid live, identInForce_of_dead found dead first]
  case population =>
    intro s asid g a p live found grows
    rw [exec_populationDone asid g live, populationDone_of_growing found grows]
  case expiry =>
    rintro s n g asid a v p x d u live late rfl
    rw [exec_populationWaitExpiry n g live]
    refine ⟨?_, ?_⟩
    · rintro r rfl
      rw [populationWait_of_request late, State.leavePopulation]
    · rintro sid i rfl
      rw [populationWait_of_tile late, State.leavePopulation]

end Sys2Proof.Machine

namespace Sys2Proof.Machine

/-! What no step takes back (09 R271, 19 R490; log 1 to 3). -/

/-- Settles O55: what a step keeps of the state behind the queue's front (`step_kept`) includes all of it. -/
theorem stepOnward : Obligations.StepOnward := by
  intro s t sane e
  obtain ⟨queue, ⟨version, leaves, sent, drawn⟩, -⟩ := step_kept sane e
  exact ⟨queue, version, leaves, sent, drawn⟩

end Sys2Proof.Machine

namespace Sys2Proof.Machine

/-! The bodies of the tenant commands (09 R237 to R241, R250, R255), where nothing refuses them. -/

section TenantBodies

variable {x : CcpCtx} {t : State} {n : Nat} {v : Tenant}

theorem bodyTenantCreate_of_new (number : n = bits x.block 15 0) (low : n ≠ 0) (high : n ≠ 0xFFFF)
    (new : t.ten.tenants.has n = false) (room : t.ten.tenants.length < 1024) :
    bodyTenantCreate x t = okBytes
      ((t.putTenant n { keyHash := bits x.block 511 128 }).sendMeta (.tenant n (bits x.block 511 128)))
      (leBytes (bits x.block 127 64) 8) := by
  subst number
  exact checked_of_passed _ _ (firstRefuse_of_passed (by simpa [low, high, new] using room))

/-- A tenant keeps its registration while it has a session, a charge or a reservation (R238). -/
theorem bodyTenantDelete_of_used (object : x.object = n) (found : t.tenantOf n = some v)
    (used : v.sess ≠ .closed ∨ t.charge n ≠ 0 ∨ v.reserve ≠ 0) : bodyTenantDelete x t = refuse t rState := by
  have bars : (v.sess != .closed || t.charge n != 0 || v.reserve != 0) = true := by simpa [or_assoc] using used
  simp only [bodyTenantDelete, object, found, bars, if_true]

theorem bodyTenantDelete_of_unused (object : x.object = n) (found : t.tenantOf n = some v) (closed : v.sess = .closed)
    (uncharged : t.charge n = 0) (unreserved : v.reserve = 0) :
    bodyTenantDelete x t = okBytes (t.forgetTenant n) [] := by
  simp [bodyTenantDelete, okEmpty, object, found, closed, uncharged, unreserved]

/-- The end of a session is held until its keys are overwritten (R241). -/
theorem bodySessionEnd_of_open (found : t.tenantOf x.tenant = some v) (opened : v.sess = .opened) :
    bodySessionEnd x t = heldCmd (t.beginEnd x.tenant v [x.ref]) := by
  simp only [bodySessionEnd, found, opened]

theorem bodyTenantEvict_of_open (object : x.object = n) (found : t.tenantOf n = some v) (opened : v.sess = .opened) :
    bodyTenantEvict x t = heldCmd (t.beginEnd n v [x.ref]) := by
  simp only [bodyTenantEvict, object, found, opened]

/-- The epoch after 31 is 1 (R248). -/
theorem bodyKeyRotate_of_steady (found : t.tenantOf x.tenant = some v) (opened : v.sess = .opened)
    (steady : v.oldEpoch = none) :
    bodyKeyRotate x t =
      okBytes (t.putTenant x.tenant { v with epoch := v.epoch % 31 + 1, oldEpoch := some v.epoch }) [] := by
  simp [bodyKeyRotate, okEmpty, found, opened, steady]

section Admissions

variable {identity : Nat × Nat} (named : identity = (x.tenant, bits x.block 511 128))

include named

theorem bodyAdmit_of_new (admits : bit x.block 0 = true) (new : t.ten.admissions.contains identity = false)
    (room : t.ten.admissions.length < 65536) :
    bodyAdmit x t = okBytes { t with ten.admissions := identity :: t.ten.admissions } (leBytes (bits x.block 127 64) 8) := by
  subst named
  simp only [bodyAdmit, admits, new, Nat.not_le.mpr room, if_true, if_false, Bool.false_eq_true]

/-- The link sessions of an identity end with its admission (R255, R257). -/
theorem bodyAdmit_of_held (withdraws : bit x.block 0 = false) (held : t.ten.admissions.contains identity = true) :
    bodyAdmit x t = okBytes
      ((t.ten.links.keysWhere fun l => l.tenant == identity.1 && l.identity == identity.2).foldl State.endLink
        { t with ten.admissions := t.ten.admissions.filter (· != identity) }) (leBytes (bits x.block 127 64) 8) := by
  subst named
  simp only [bodyAdmit, withdraws, held, Bool.not_true, if_false, Bool.false_eq_true]

end Admissions

end TenantBodies

/-- Settles O5: each command reaches its body, and the lemmas above say what the body answers or holds. -/
theorem tenantCommands : Obligations.TenantCommands := by
  refine ⟨?create, ?delete, ?sessionEnd, ?evict, ?rotate, ?admission, ?withdraw⟩
  case create =>
    intro c s x t reached low high new room
    rw [← (taken_block reached.1).1] at low high new ⊢
    exact reaches_answers reached (bodyTenantCreate_of_new rfl low high new room)
  case delete =>
    intro c s x t v reached found closed uncharged unreserved
    exact reaches_answers reached (bodyTenantDelete_of_unused (reaches_object reached) found closed uncharged unreserved)
  case sessionEnd =>
    intro c s x t v reached found opened
    exact reaches_holds reached (bodySessionEnd_of_open found opened)
  case evict =>
    intro c s x t v reached found opened
    exact reaches_holds reached (bodyTenantEvict_of_open (reaches_object reached) found opened)
  case rotate =>
    intro c s x t v reached found opened steady
    exact reaches_answers reached (bodyKeyRotate_of_steady found opened steady)
  case admission =>
    intro c s x t reached admits new room
    rw [← (taken_block reached.1).1] at admits new ⊢
    exact reaches_answers reached (bodyAdmit_of_new rfl admits new room)
  case withdraw =>
    intro c s x t reached withdraws held
    rw [← (taken_block reached.1).1] at withdraws held ⊢
    exact reaches_answers reached (bodyAdmit_of_held rfl withdraws held)

/-! TENANT_DELETE from its frame on (09 R238): the checks common to every command (18 R467), then its body. -/

/-- A field is zero exactly when both parts of it are. -/
theorem bits_eq_zero_iff_parts (b : Nat) {hi mid lo : Nat} (low : lo ≤ mid) (high : mid < hi) :
    bits b hi lo = 0 ↔ bits b hi (mid + 1) = 0 ∧ bits b mid lo = 0 := by
  have width : 2 ^ (hi + 1 - lo) = 2 ^ (mid + 1 - lo) * 2 ^ (hi + 1 - (mid + 1)) := by
    rw [← Nat.pow_add]
    congr 1
    omega
  have upper : b / 2 ^ lo / 2 ^ (mid + 1 - lo) = b / 2 ^ (mid + 1) := by
    rw [Nat.div_div_eq_div_mul, ← Nat.pow_add]
    congr 2
    omega
  have place : 2 ^ (mid + 1 - lo) ≠ 0 := Nat.pos_iff_ne_zero.mp (Nat.two_pow_pos _)
  rw [bits, width, Nat.mod_mul, upper]
  simp only [bits, Nat.add_eq_zero_iff, Nat.mul_eq_zero, place, false_or]
  exact And.comm

section CommonChecks

variable {spec : CcpSpec} {x : CcpCtx} (t : State) (known : spec.first ≤ x.sess.ver)
  (sized : spec.len x.block x.total = true)

include known sized

theorem commonChecks_of_reserved_field (nonzero : ¬∀ r ∈ spec.resv, bits x.block r.1 r.2 = 0) :
    firstRefuse (commonChecks spec x t) = some rMalformed := by
  have marked : (spec.resv.any fun r => bits x.block r.1 r.2 != 0) = true := by simpa using nonzero
  simp [commonChecks, Nat.not_lt.mpr known, sized, marked]

variable (zeros : ∀ r ∈ spec.resv, bits x.block r.1 r.2 = 0) (nested : spec.also x.block = false)
  (current : spec.old x.sess.ver x.block = false)

include zeros nested current

theorem commonChecks_of_other_sender (other : (if x.isOp then spec.op else spec.tn) = false) :
    firstRefuse (commonChecks spec x t) = some rPolicy := by
  have clear : (spec.resv.any fun r => bits x.block r.1 r.2 != 0) = false := by simpa using zeros
  simp [commonChecks, Nat.not_lt.mpr known, sized, clear, nested, current, other]

/-- An awake unit that serves lets a command through that has the right form and sender. -/
theorem commonChecks_of_sender (sender : (if x.isOp then spec.op else spec.tn) = true) (serves : t.passive = false)
    (awake : [0x0301, 0x0401, 0x0420].contains spec.opcode = false) : firstRefuse (commonChecks spec x t) = none := by
  have clear : (spec.resv.any fun r => bits x.block r.1 r.2 != 0) = false := by simpa using zeros
  refine firstRefuse_of_passed ?_
  simp only [commonChecks, List.forall_mem_cons, decide_eq_false (Nat.not_lt.mpr known), sized, clear, nested, current,
    sender, serves, awake, Bool.not_true, Bool.or_false, Bool.and_false, List.not_mem_nil, false_imp_iff, implies_true,
    and_self]

end CommonChecks

/-- Settles O60: the block's zeros and the sender are common checks, in this order; a command that passes them reaches the body,
which looks at the tenant. -/
theorem tenantDelete : Obligations.TenantDelete := by
  intro c s x t taken known eight serves
  obtain ⟨block, total⟩ := taken_block taken
  have sized : tenantDeleteSpec.len x.block x.total = true := by rw [total, eight]; rfl
  have zeros : (∀ r ∈ tenantDeleteSpec.resv, bits x.block r.1 r.2 = 0) ↔ bits c.block 63 16 = 0 := by
    rw [← block, bits_eq_zero_iff_parts x.block (mid := 31) (by decide) (by decide)]
    simp [tenantDeleteSpec, objSpec]
  refine ⟨fun nonzero => ?_, fun zero tenant => ?_, fun zero operator v found => ?_⟩
  · exact taken_refused bodyTenantDelete taken (commonChecks_of_reserved_field t known sized (mt zeros.mp nonzero))
  · exact taken_refused bodyTenantDelete taken
      (commonChecks_of_other_sender t known sized (zeros.mpr zero) rfl rfl (by rw [tenant]; rfl))
  · have reached : Reaches tenantDeleteSpec c true true s x t := ⟨taken,
      commonChecks_of_sender t known sized (zeros.mpr zero) rfl rfl (by rw [operator]; rfl) serves (by decide)⟩
    exact ⟨fun used => reaches_refuses reached (bodyTenantDelete_of_used (reaches_object reached) found used),
      fun closed uncharged unreserved => reaches_answers reached
        (bodyTenantDelete_of_unused (reaches_object reached) found closed uncharged unreserved)⟩

end Sys2Proof.Machine

namespace Sys2Proof.Machine

/-! Tenants by the clock (09 R241, R250, R257, R263, R264). -/

theorem exec_keySlotErase {s : State} (t : Nat) (live : Live s) :
    exec (.keySlotErase t) s = .next (s.keySlotErase t).settle :=
  effect_of_live true (fun s => s.keySlotErase t) live rfl

theorem exec_sessionEndSlowExpiry {s : State} (t : Nat) (live : Live s) :
    exec (.sessionEndSlowExpiry t) s = .next (s.endSlow t).settle :=
  effect_of_live true (fun s => s.endSlow t) live rfl

theorem exec_rotationRewriteDone {s : State} (t : Nat) (live : Live s) :
    exec (.rotationRewriteDone t) s = .next (s.rotationDone t).settle :=
  effect_of_live true (fun s => s.rotationDone t) live rfl

theorem exec_weightChunk {s : State} (e : Nat) (plain : List Byte) (ok : Bool) (live : Live s) :
    exec (.weightChunk e plain ok) s = .next (s.weightChunk e plain ok).settle :=
  effect_of_live true (fun s => s.weightChunk e plain ok) live rfl

theorem exec_sessionIdBarExpiry {s : State} (n : Nat) (live : Live s) :
    exec (.sessionIdBarExpiry n) s = .next (s.barExpiry n).settle :=
  effect_of_live true (fun s => s.barExpiry n) live rfl

section Sessions

variable {s : State} {t : Nat} {x : Tenant} (found : s.tenantOf t = some x)

include found

/-- Step 3 of R241 waits until nothing of the tenant is left; what the tenant made meanwhile ends first. -/
theorem keySlotErase_of_ending (ending : x.sess = .ending) (marked : x.markDone = true) :
    s.keySlotErase t = if s.tenantClear t then s.eraseKeys t x else s.endObjects t := by
  simp [State.keySlotErase, found, ending, marked]

theorem endSlow_of_due (ending : x.sess = .ending) (marked : x.markDone = true) (unnoted : x.slowNoted = false)
    (due : x.endTick + 16384 ≤ s.dev.tick) :
    s.endSlow t = (s.putTenant t { x with slowNoted := true }).recOp 0x0103 11 t 0 0 := by
  simp [State.endSlow, found, ending, marked, unnoted, due]

/-- A rotation ends when no sector of the tenant carries the old epoch (R250). -/
theorem rotationDone_of_rewritten (opened : x.sess = .opened) (rotating : x.oldEpoch ≠ none)
    (rewritten : ∀ m ∈ s.pool.sectors, s.granOwner (sectorGran m.1) = some t → s.oldSector m.1 m.2 = false) :
    s.rotationDone t = (s.putTenant t { x with oldEpoch := none }).recTen t 0x0102 11 t 0 x.epoch := by
  have left : (s.pool.sectors.any fun m => s.granOwner (sectorGran m.1) == some t && s.oldSector m.1 m.2) = false := by
    simpa using rewritten
  have goes : (x.sess != .opened || x.oldEpoch.isNone || false) = false := by
    simpa [opened, Option.isSome_iff_ne_none] using rotating
  simp only [State.rotationDone, found, left, goes, Bool.false_eq_true, if_false]

end Sessions

section Chunks

variable {s : State} {e : Nat} {m : Import} {k : Bulk} (found : s.ten.imports.find e = some m)
  (fed : s.importChannel e m = some k) (sound : m.failed = false) (more : m.taken ≠ m.chunkCount)
  (whole : nextChunk m + 16 ≤ k.buffer.length)

/-- An import's next chunk and its tag have left their channel. -/
def State.dropChunk (s : State) (m : Import) (k : Bulk) : State :=
  s.putBulk m.channel { k with buffer := k.buffer.drop (nextChunk m + 16) }

/-- The plaintext of an import's next chunk, as it goes to its place in the extent. -/
def State.chunkWrite (s : State) (e : Nat) (m : Import) (plain : List Byte) : TileWrite :=
  { dev := s.framePage e m.taken none * 65536, ext := some (e, 65536 * m.taken), bytes := padTo plain (nextChunk m) }

include found fed sound more whole

/-- A chunk that fails its tag fails its import (R264). -/
theorem weightChunk_of_bad_tag (plain : List Byte) : s.weightChunk e plain false = (s.dropChunk m k).importFails e m := by
  simp [State.weightChunk, State.dropChunk, found, fed, sound, more, Nat.not_lt.mpr whole]

/-- A good chunk is written and mirrored, and counts as taken (R263, 16 R434). -/
theorem weightChunk_of_good_tag {plain : List Byte} {u : State} {w : TileWrite} {y : Bool × State}
    (rest : u = s.dropChunk m k) (write : w = u.chunkWrite e m plain)
    (mirrored : y = (u.putWrite w).2.mirrorWrites [w] [] (.weights e)) :
    s.weightChunk e plain true =
      (y.2.putImport e { m with taken := m.taken + 1, held := m.held || y.1 }).importCheck e := by
  subst rest write mirrored
  have goes : (m.failed || m.taken == m.chunkCount || decide (k.buffer.length < nextChunk m + 16)) = false := by
    simpa [sound, more] using whole
  simp only [State.weightChunk, found, fed, goes, Bool.not_true, Bool.false_eq_true, if_false]
  rfl

end Chunks

/-- A barred identifier is free again once its bar is past (R257). -/
theorem barExpiry_of_past {s : State} {n : Nat} {due : Nat × Nat} (found : s.ten.barred.find n = some due)
    (past : due.1 ≤ s.dev.tick) : s.barExpiry n = { s with ten.barred := s.ten.barred.del n } := by
  simp [State.barExpiry, found, past]

/-- Settles O43: each row is what its event does and what follows; the lemmas above say, event by event, which branch the state
takes. -/
theorem tenantEvents : Obligations.TenantEvents := by
  refine ⟨?erase, ?slow, ?rotation, ?chunk, ?bar⟩
  case erase =>
    intro s t x u live found ending marked
    rw [exec_keySlotErase t live, keySlotErase_of_ending found ending marked]
    refine ⟨fun clear erased => ?_, fun unclear => ?_⟩
    · rw [if_pos clear, State.eraseKeys, ← erased]
    · rw [unclear, if_neg Bool.false_ne_true]
  case slow =>
    intro s t x live found ending marked unnoted due
    rw [exec_sessionEndSlowExpiry t live, endSlow_of_due found ending marked unnoted due]
  case rotation =>
    intro s t x live found opened rotating rewritten
    rw [exec_rotationRewriteDone t live, rotationDone_of_rewritten found opened rotating rewritten]
  case chunk =>
    intro s e plain ok m k u live found fed sound more whole rest
    rw [exec_weightChunk e plain ok live]
    refine ⟨?_, fun w y => ?_⟩
    · rintro rfl
      rw [rest, weightChunk_of_bad_tag found fed sound more whole]
      rfl
    · rintro rfl write mirrored
      rw [weightChunk_of_good_tag found fed sound more whole rest write mirrored]
  case bar =>
    intro s n due live found past
    rw [exec_sessionIdBarExpiry n live, barExpiry_of_past found past]

end Sys2Proof.Machine

namespace Sys2Proof.Machine

/-! The bodies of the device-set, import and channel commands (09 R260 to R264; 17 R457, R459; 18 R472), where nothing refuses
them. -/

theorem taken_cmdId {spec c a b s x t} (h : Taken spec c a b s x t) : x.cmdId = c.cmdId ∧ x.sigOk = a := by
  obtain ⟨-, -, -, -, -, v, mb, -, -, -, rfl, -⟩ := h
  exact ⟨rfl, rfl⟩

/-- A command that is held, and after which something goes on at once. -/
theorem reaches_goes_on {spec : CcpSpec} {c : CcpCmd} {a b : Bool} {s t u : State} {x : CcpCtx} {body : CcpBody}
    {f : State → State} (h : Reaches spec c a b s x t) (hbody : body x t = { s := u, reply := none, after := f }) :
    ccpRowOf spec body c a b s = .next (f u).settle := by
  rw [reaches_serve body h, hbody]

section WeightBodies

variable {x : CcpCtx} {t : State} {n : Nat}

theorem bodySetLoad_of_idle_channel {k : Bulk} (object : x.object = n) (found : t.ctl.bulk.find n = some k)
    (own : k.session = x.sid) (idle : k.consumer = none) :
    bodySetLoad x t = {
      s := t.putBulk n { k with consumer := some (.setLoad x.sid x.cmdId x.sigOk) }
      reply := none
      after := fun s => s.setLoadGo n } := by
  simp [bodySetLoad, object, found, own, idle]

theorem bodySetDelete_of_unused (object : x.object = n) (some_set : n ≠ 0) (loaded : t.ten.sets.has (x.tenant * 65536 + n) = true)
    (unused : (t.pool.extents.any fun e => e.2.tenant == x.tenant && extSealed e.2 && extSet e.2 == n) = false) :
    bodySetDelete x t = okBytes
      ({ t with ten.sets := t.ten.sets.del (x.tenant * 65536 + n) }.sendMeta (.devSet x.tenant n [])) [] := by
  simp only [bodySetDelete, okEmpty, object, loaded, unused, beq_eq_false_iff_ne.mpr some_set, Bool.not_true,
    Bool.false_eq_true, if_false]

theorem bodyImportBind_of_own_channel {k : Bulk} (found : t.ctl.bulk.find (bits x.block 20 16) = some k)
    (own : k.session = x.sid) :
    bodyImportBind x t = okBytes
      (t.putSession x.sid { x.sess with binding := some (bits x.block 15 0, bits x.block 20 16) }) [] := by
  simp [bodyImportBind, okEmpty, found, own]

/-- A blob's header and records that pass every row of Table 9-12 for an extent `e`, whose number is `ext`. -/
structure ImportPasses (t : State) (x : CcpCtx) (ext : Nat) (e : Extent) : Prop where
  nonempty : bits x.block 255 192 ≠ 0
  chunks : bits x.block 191 160 = chunkCount (bits x.block 255 192)
  records : bits x.block 143 128 + 1 ≤ 256
  version : bits x.block 3 0 = 3
  fills : recordFills (leBytes x.block x.total) (bits x.block 143 128 + 1) = false
  extent : t.pool.extents.find ext = some e
  owner : e.tenant = x.tenant
  enabled : e.state = .enabled
  isSealed : extSealed e = true
  bound : extSet e = bits x.block 63 48
  wrapped : hasRecord (leBytes x.block x.total) (bits x.block 143 128 + 1) Config.identityHash.toNat = true
  member : (t.ten.sets.findD (x.tenant * 65536 + bits x.block 63 48) []).contains Config.identityHash.toNat = true
  standby : bit e.desc 8 = true →
    (t.ten.sets.findD (x.tenant * 65536 + bits x.block 63 48) []).contains (bits t.pair.block 1023 640) = true
  fits : bits x.block 255 192 ≤ extCount e * 2097152
  unmapped : (t.pool.maps.any fun m => m.extent == ext) = false
  single : t.importing ext = false
  room : (t.ten.imports.count fun m => !m.failed) < 16
  unwraps : x.sigOk = true

/-- An import that Table 9-12 lets begin takes its channel for its chunks (R263). -/
theorem bodyImportBegin_of_passed {ext ch : Nat} {e : Extent} (bound : x.sess.binding = some (ext, ch))
    (passes : ImportPasses t x ext e) :
    bodyImportBegin x t =
      let u := (t.putSession x.sid { x.sess with binding := none }).putImport ext
        { session := x.sid, tenant := x.tenant, channel := ch, setId := bits x.block 63 48
          plainBytes := bits x.block 255 192, chunkCount := chunkCount (bits x.block 255 192) }
      okBytes { u with ctl.bulk := u.ctl.bulk.adjust ch fun k => { k with consumer := some (.weights ext) } } [] := by
  obtain ⟨nonempty, chunks, records, version, fills, extent, owner, enabled, isSealed, extSetId, wrapped, member, standby, fits,
    unmapped, single, room, unwraps⟩ := passes
  have holds : (t.pool.extents.find ext).filter (fun e => e.tenant == x.tenant && e.state == .enabled) = some e := by
    simp [extent, owner, enabled]
  have importing (v : Session) : (t.putSession x.sid v).importing ext = false := single
  have mirrored : (bit e.desc 8 &&
      !(t.ten.sets.findD (x.tenant * 65536 + bits x.block 63 48) []).contains (bits t.pair.block 1023 640)) = false := by
    simpa using standby
  simp only [bodyImportBegin, bound, State.putSession_pool, State.putSession_ten, State.putSession_pair, holds, importing]
  rw [firstRefuse_of_passed]
  · rfl
  · simp only [List.forall_mem_cons, Option.any_some, Option.map_some, Option.getD_some, beq_eq_false_iff_ne.mpr nonempty,
      chunks, version, fills, isSealed, extSetId, wrapped, member, mirrored, unmapped, unwraps,
      Nat.not_lt.mpr records, Nat.not_lt.mpr fits, Nat.not_le.mpr room, decide_false,
      bne_self_eq_false, beq_self_eq_true, Bool.not_true, Bool.and_self, Bool.or_self, List.not_mem_nil, false_imp_iff,
      implies_true, and_self]

/-- The end of an import waits until the import's outcome is there (R264). -/
theorem bodyImportEnd_of_own {m : Import} (object : x.object = n) (found : t.ten.imports.find n = some m)
    (own : m.tenant = x.tenant) (first : m.endCmd = none) :
    bodyImportEnd x t = {
      s := t.putImport n { m with endCmd := some x.ref }
      reply := none
      after := fun s => s.importCheck n } := by
  simp [bodyImportEnd, object, found, own, first]

theorem bodyBulkOpen_of_free (bytes : bits x.block 47 0 ≠ 0) (room : t.ctl.bulk.length < 32)
    (few : (t.ctl.bulk.count fun b => b.session == x.sid) < 16)
    (free : cyclicFree (fun i => t.ctl.bulk.has i) t.ctl.lastChannel 0 31 = some n) :
    bodyBulkOpen x t = okBytes
      { t.putBulk n { session := x.sid, bytes := bits x.block 47 0, due := t.dev.tick + 16777216 } with
          ctl.lastChannel := some n } (leBytes n 8) := by
  have fits : (decide (32 ≤ t.ctl.bulk.length) || decide (16 ≤ t.ctl.bulk.count fun b => b.session == x.sid)) = false := by
    simpa using And.intro room few
  simp only [bodyBulkOpen, okNum, free, fits, beq_eq_false_iff_ne.mpr bytes, Bool.false_eq_true, if_false]

section Channels

variable {b : Bulk} (object : x.object = n) (found : t.ctl.bulk.find n = some b) (own : b.session = x.sid)

include object found own

theorem ownChannel_of_own (k : Nat → Bulk → CcpOut) : ownChannel x t k = k n b := by
  simp [ownChannel, object, found, own]

theorem bodyBulkClose_of_own : bodyBulkClose x t = okBytes (t.closeChannel n) [] :=
  ownChannel_of_own object found own _

theorem bodyBulkStatus_of_own :
    bodyBulkStatus x t = okBytes t (leBytes b.offset 8 ++ leBytes (262144 - b.buffer.length) 8) :=
  ownChannel_of_own object found own _

end Channels

end WeightBodies

/-- Settles O6: each command reaches its body, and the lemmas above say what the body answers, holds or lets go on. -/
theorem weightCommands : Obligations.WeightCommands := by
  refine ⟨?load, ?delete, ?bind, ?begin, ?finish, ?opens, ?close, ?status⟩
  case load =>
    intro c s x t k sigOk reached found own idle
    obtain ⟨cmdId, rfl⟩ := taken_cmdId reached.1
    rw [← taken_sid reached.1] at own ⊢
    rw [← cmdId]
    exact (reaches_goes_on reached (bodySetLoad_of_idle_channel (reaches_object reached) found own idle) :)
  case delete =>
    intro c s x t reached some_set loaded unused
    exact reaches_answers reached (bodySetDelete_of_unused (reaches_object reached) some_set loaded unused)
  case bind =>
    intro c s x t k reached found own
    rw [← (taken_block reached.1).1] at found ⊢
    rw [← taken_sid reached.1] at own ⊢
    exact reaches_answers reached (bodyImportBind_of_own_channel found own)
  case begin =>
    rintro c s x t ext ch e plain n set body reached binding bytes count number whole nonempty chunks records version fills
      extent owner enabled isSealed extSetId wrapped member standby fits unmapped single room u rfl
    obtain ⟨block, total⟩ := taken_block reached.1
    rw [← block] at bytes count number chunks version
    rw [← block, ← total] at whole
    rw [← taken_sid reached.1]
    subst bytes count number whole
    exact reaches_answers reached (bodyImportBegin_of_passed binding ⟨nonempty, chunks, records, version, fills, extent, owner,
      enabled, isSealed, extSetId, wrapped, member, standby, fits, unmapped, single, room, (taken_cmdId reached.1).2⟩)
  case finish =>
    intro c s x t m reached found own first
    exact (reaches_goes_on reached (bodyImportEnd_of_own (reaches_object reached) found own first) :)
  case opens =>
    intro c s x t ch reached bytes room few free
    rw [← (taken_block reached.1).1] at bytes ⊢
    rw [← taken_sid reached.1] at few ⊢
    exact reaches_answers reached (bodyBulkOpen_of_free bytes room few free)
  case close =>
    intro c s x t b reached found own
    rw [← taken_sid reached.1] at own
    exact reaches_answers reached (bodyBulkClose_of_own (reaches_object reached) found own)
  case status =>
    intro c s x t b reached found own
    rw [← taken_sid reached.1] at own
    exact reaches_answers reached (bodyBulkStatus_of_own (reaches_object reached) found own)

end Sys2Proof.Machine

namespace Sys2Proof.Machine

/-! SPDM requests (09 R267 to R271). -/

section SpdmContents

variable {s : State} {msg : List Byte} {code : Nat}

/-- GET_VERSION is of version 1.0 (R268). -/
theorem spdmOffered_getVersion (version : (msg.getD 0 0#8).toNat = 0x10) : spdmOffered 0x84 msg = true := by
  simp [spdmOffered, version, -List.getD_eq_getElem?_getD]

/-- The certificate slot that a request names: in GET_MEASUREMENTS behind the nonce, in others its third byte (log 39). -/
def spdmSlot (code : Nat) (msg : List Byte) : Nat :=
  if code == 0xE0 then (msg.getD 36 0#8).toNat % 16 else (msg.getD 2 0#8).toNat % 16

/-- Other requests are of version 1.2 or 1.3, and those that name a certificate slot name slot 0 (R268). -/
theorem spdmOffered_of_version (version : (msg.getD 0 0#8).toNat = 0x12 ∨ (msg.getD 0 0#8).toNat = 0x13)
    (other : code ≠ 0x84) (slot : code = 0x82 ∨ code = 0x83 ∨ code = 0xE0 → spdmSlot code msg = 0) :
    spdmOffered code msg = true := by
  have offers : ((msg.getD 0 0#8).toNat == 0x12 || (msg.getD 0 0#8).toNat == 0x13) = true := by simpa using version
  have names : ((code != 0x82 && code != 0x83 && code != 0xE0) || spdmSlot code msg == 0) = true := by
    by_cases slotted : code = 0x82 ∨ code = 0x83 ∨ code = 0xE0
    · simp [slot slotted]
    · simpa [not_or, and_assoc] using Or.inl slotted
  rw [spdmSlot] at names
  simp only [spdmOffered, beq_eq_false_iff_ne.mpr other, offers, names, Bool.false_eq_true, if_false, Bool.and_self]

/-! What the response to each request holds (R267 to R269). -/

theorem spdmContents_getVersion (offered : spdmOffered 0x84 msg = true) :
    s.spdmContents 0x84 msg = some [0x12#8, 0x13#8] := by
  simp [State.spdmContents, offered]

theorem spdmContents_getCapabilities (offered : spdmOffered 0xE1 msg = true) :
    s.spdmContents 0xE1 msg = some [1#8, 1#8, 2#8] := by
  simp [State.spdmContents, offered]

theorem spdmContents_negotiateAlgorithms (offered : spdmOffered 0xE3 msg = true) :
    s.spdmContents 0xE3 msg = some [0x80#8, 0#8, 0#8, 0#8, 2#8, 0#8, 0#8, 0#8] := by
  simp [State.spdmContents, offered]

theorem spdmContents_getDigests (offered : spdmOffered 0x81 msg = true) :
    s.spdmContents 0x81 msg = some (leBytes (sha384 Config.certChain).toNat 48) := by
  simp [State.spdmContents, offered]

theorem spdmContents_getCertificate (offered : spdmOffered 0x82 msg = true) :
    s.spdmContents 0x82 msg = some Config.certChain := by
  simp [State.spdmContents, offered]

theorem spdmContents_challenge (offered : spdmOffered 0x83 msg = true) :
    s.spdmContents 0x83 msg = some (leBytes (sha384 Config.certChain).toNat 48 ++ s.measurements.flatten) := by
  simp [State.spdmContents, offered]

theorem spdmContents_getMeasurements (offered : spdmOffered 0xE0 msg = true) :
    s.spdmContents 0xE0 msg = s.measured (msg.getD 3 0#8).toNat := by
  simp [State.spdmContents, offered]

end SpdmContents

section SpdmReplies

variable {s : State} {msg b : List Byte} {code : Nat} (awake : s.dev.keRestart = false)
  (requested : (msg.getD 1 0#8).toNat = code) (contents : s.spdmContents code msg = some b)

/-- What two signatures with leaf `q` make of a response to a message (R270). -/
def spdmSignedWith (q : Nat) (msg m : List Byte) : List Byte :=
  m ++ ecdsaOf (msg ++ m) ++ hssOf q (leBytes (sha384 (msg ++ m)).toNat 48)

/-- The next one-time leaf is used up, with its checkpoint and the fuse mark (R271, log 42). -/
def State.usesLeaf (s : State) : State :=
  { s with
    ten.hssNext := s.ten.hssNext + 1
    ten.hssLimit := if s.ten.hssLimit ≤ s.ten.hssNext then min (s.ten.hssNext + 1024) (2 ^ 40) else s.ten.hssLimit
    ten.hssMark := max s.ten.hssMark ((s.ten.hssNext + 1) / 2 ^ 28) }

theorem takeLeaf_of_left (left : s.ten.hssNext < 2 ^ 40) : s.takeLeaf = some (s.ten.hssNext, s.usesLeaf) := by
  rw [State.takeLeaf, if_neg (Nat.not_le.mpr left)]
  rfl

include awake requested contents

/-- A response without signatures leaves the state as it is. -/
theorem spdmReply_unsigned (unsigned : spdmSigned code = false) :
    s.spdmReply msg = (⟨0, 0, Config.spdmFrame msg b⟩, s) := by
  subst requested
  simp only [State.spdmReply, awake, contents, unsigned, Bool.not_false, Bool.false_eq_true, if_true, if_false]

theorem spdmReply_signed (signed : spdmSigned code = true) (left : s.ten.hssNext < 2 ^ 40) :
    s.spdmReply msg = (⟨0, 0, spdmSignedWith s.ten.hssNext msg (Config.spdmFrame msg b)⟩, s.usesLeaf) := by
  subst requested
  simp only [State.spdmReply, awake, contents, signed, takeLeaf_of_left left, Bool.not_true, Bool.false_eq_true, if_false]
  rfl

end SpdmReplies

/-! From the row to the reply: in a session (R268), and before one (17 R449). -/

/-- Every SPDM row of a session is the command SPDM_MESSAGE with its message. -/
theorem reaches_spdm {c : CcpCmd} {s t u : State} {x : CcpCtx} {bytes : List Byte} (reached : Reaches spdmSpec c true true s x t)
    (session : c.session ≠ 0) (reply : t.spdmReply (leBytes c.block c.total) = (⟨0, 0, bytes⟩, u)) :
    effect (c.port < 2) (fun s => s.spdmServe c) s = .next (answer u x bytes) := by
  have serves : (fun s : State => s.spdmServe c) = ccpServe spdmSpec bodySpdm c true true := by
    funext s
    simp only [State.spdmServe, bne_iff_ne.mpr session, if_true]
  have body : bodySpdm x t = okBytes u bytes := by
    rw [bodySpdm, (taken_block reached.1).1, (taken_block reached.1).2, reply]
    rfl
  rw [serves]
  exact reaches_answers reached body

section PreSession

variable {s : State}

@[simp] theorem wakeByFrame_dev : s.wakeByFrame.dev = s.dev := by unfold State.wakeByFrame; split <;> rfl
@[simp] theorem wakeByFrame_ready : s.wakeByFrame.ready = s.ready := by unfold State.wakeByFrame; split <;> rfl
@[simp] theorem wakeByFrame_ctl : s.wakeByFrame.ctl = s.ctl := by unfold State.wakeByFrame; split <;> rfl

theorem live_of_ccpAnswers {p : Nat} (answers : s.ccpAnswers p = true) : Live s := by
  rw [State.ccpAnswers, Bool.and_eq_true, beq_iff_eq] at answers
  rw [Live, State.dead, answers.1]
  rfl

/-- With management up, the pre-session exchange is served at once (17 R449, 19 Table 19-3). -/
theorem spdmServe_preSession {c : CcpCmd} (outside : c.session = 0) (answers : s.ccpAnswers c.port = true)
    (managed : s.ready.mgmt = true) :
    s.spdmServe c =
      s.wakeByFrame.preServe c.port c.cls c.cmdId 0x0100 c.total (c.total ≤ 8192) (leBytes c.block c.total) := by
  have takes : s.intakeHolds = false := by simp [State.intakeHolds, managed]
  have free : s.wakeByFrame.attestBusy 0x0100 = false := by simp [State.attestBusy, State.intakeHolds, managed]
  simp [State.spdmServe, State.whole, outside, answers, takes, free]

theorem preServe_of_free {port cls cmdId total mb : Nat} {msg : List Byte} {r : Reply} {u : State} (running : s.dev.halt = none)
    (managed : s.dev.mgmtReset = none) (free : firstFree (fun n => s.ctl.mailboxes.has n) 0 8 = some mb) (long : 4 ≤ total)
    (reply : s.spdmReply msg = (r, u)) :
    s.preServe port cls cmdId 0x0100 total true msg = u.sendResponse port cls 0 0x0100 cmdId mb r := by
  have open_intake : s.intakeBars = none := by simp [State.intakeBars, running, managed]
  simp [State.preServe, open_intake, free, Nat.not_lt.mpr long, reply]

end PreSession

/-- Settles O4: a request that the device offers is answered with its contents, and signed with the next leaf where it asks for a
signature; the row brings it to the reply in a session and before one. -/
theorem spdmRequests : Obligations.SpdmRequests := by
  refine ⟨fun c s x t reached session awake m ver code hash whole version requested digest => ?session, ?preSession⟩
  case session =>
    subst whole version digest
    have answers {k : Nat} {b : List Byte} (get : code = k) (contents : t.spdmContents k (leBytes c.block c.total) = some b)
        (unsigned : spdmSigned k = false) := reaches_spdm reached session
      (spdmReply_unsigned awake (requested.symm.trans get) contents unsigned)
    refine ⟨fun v1 get => ?version, fun v => ⟨fun get => ?capabilities, fun get => ?algorithms, fun get => ?digests,
      fun get slot => ?certificate, ?signed⟩⟩
    case version =>
      exact answers get (spdmContents_getVersion (spdmOffered_getVersion v1)) rfl
    case capabilities =>
      exact answers get (spdmContents_getCapabilities (spdmOffered_of_version v (by decide) (absurd · (by decide)))) rfl
    case algorithms =>
      exact answers get (spdmContents_negotiateAlgorithms (spdmOffered_of_version v (by decide) (absurd · (by decide)))) rfl
    case digests =>
      exact answers get (spdmContents_getDigests (spdmOffered_of_version v (by decide) (absurd · (by decide)))) rfl
    case certificate =>
      exact answers get (spdmContents_getCertificate (spdmOffered_of_version v (by decide) fun _ => slot)) rfl
    case signed =>
      rintro left u signed rfl rfl
      refine ⟨fun get slot => ?_, fun b get slot blocks => ?_⟩
      · exact reaches_spdm reached session (spdmReply_signed awake (requested.symm.trans get)
          (spdmContents_challenge (spdmOffered_of_version v (by decide) fun _ => slot)) rfl left)
      · exact reaches_spdm reached session (spdmReply_signed awake (requested.symm.trans get)
          ((spdmContents_getMeasurements (spdmOffered_of_version v (by decide) fun _ => slot)).trans blocks) rfl left)
  case preSession =>
    rintro c s mb m hport answers managed running steady outside free long short awake rfl version requested
    have reply := spdmReply_unsigned (s := s.wakeByFrame) (by rw [wakeByFrame_dev, awake]) requested
      (spdmContents_getVersion (spdmOffered_getVersion version)) rfl
    have served := preServe_of_free (s := s.wakeByFrame) (port := c.port) (cls := c.cls) (cmdId := c.cmdId)
      (by rw [wakeByFrame_dev, running]) (by rw [wakeByFrame_dev, steady]) (by rw [wakeByFrame_ctl, free]) long reply
    have row := effect_of_live (decide (c.port < 2)) (fun s => s.spdmServe c) (live_of_ccpAnswers answers) (decide_eq_true hport)
    rw [spdmServe_preSession outside answers managed, decide_eq_true short, served] at row
    exact row

end Sys2Proof.Machine

namespace Sys2Proof.Machine

/-! Sectors, ranks and migration by the clock (10 R277 to R279; 11 R299 to R302, R310, R315 to R319). -/

theorem exec_sectorReadDone {s : State} {k : Nat} (m : Nat) (e₁ e₂ : ReadErr) (live : Live s) (hk : k < 16) :
    exec (.sectorReadDone k m e₁ e₂) s = .next (s.sectorRead k m e₁ e₂).settle :=
  effect_of_live _ (fun s => s.sectorRead k m e₁ e₂) live (decide_eq_true hk)

theorem exec_sectorWriteDone {s : State} {k : Nat} (m o : Nat) (b : List Byte) (live : Live s) (hk : k < 16) :
    exec (.sectorWriteDone k m o b) s = .next (s.sectorWrite k m o b).settle :=
  effect_of_live _ (fun s => s.sectorWrite k m o b) live (decide_eq_true hk)

theorem exec_caParityError {s : State} {k r : Nat} (live : Live s) (hk : k < 16) (hr : r < 4) :
    exec (.caParityError k r) s = .next (s.parityError k r).settle :=
  effect_of_live _ (fun s => s.parityError k r) live (by simp [hk, hr])

theorem exec_accessAgeLimit {s : State} {k p : Nat} (live : Live s) (hk : k < 16) (hp : p < 64) :
    exec (.accessAgeLimit k p) s = .next (s.ageLimit k p).settle :=
  effect_of_live _ (fun s => s.ageLimit k p) live (by simp [hk, hp])

theorem exec_mowRead {s : State} {k : Nat} (e₁ e₂ : ReadErr) (live : Live s) (hk : k < 16) :
    exec (.mowRead k e₁ e₂) s = .next (s.mowRead k e₁ e₂).settle :=
  effect_of_live _ (fun s => s.mowRead k e₁ e₂) live (decide_eq_true hk)

theorem exec_mirrorFetchTimeout {s : State} {k : Nat} (m : Nat) (live : Live s) (hk : k < 16) :
    exec (.mirrorFetchTimeout k m) s = .next (s.fetchTimeout (36864 * 8192 * k + m)).settle :=
  effect_of_live _ (fun s => s.fetchTimeout (36864 * 8192 * k + m)) live (decide_eq_true hk)

theorem exec_rankErrorWindowEnd {s : State} (live : Live s) :
    exec .rankErrorWindowEnd s = .next s.rankNow.settle :=
  effect_of_live true (fun s => s.rankWindow) live rfl

theorem exec_migrationGranuleCopied {s : State} (l : List (Nat × Nat)) (live : Live s) :
    exec (.migrationGranuleCopied l) s = .next (s.granuleCopied l).settle :=
  effect_of_live true (fun s => s.granuleCopied l) live rfl

/-! Stacks and pseudo-channels after an update. -/

@[simp] theorem stack_putStack (s : State) (k : Nat) (x : Stack) : (s.putStack k x).stack k = x := by
  simp [State.stack, Tbl.findD]

@[simp] theorem stack_modStack (s : State) (k : Nat) (f : Stack → Stack) : (s.modStack k f).stack k = f (s.stack k) :=
  stack_putStack s k _

@[simp] theorem pch_modPch (s : State) (k p : Nat) (f : Pch → Pch) : (s.modPch k p f).pch k p = f (s.pch k p) := by
  simp [State.pch, State.modPch, Stack.pch, Tbl.findD]

/-- A change of a pseudo-channel counts by what it makes of that pseudo-channel. -/
theorem modPch_congr {s : State} {k p : Nat} {f g : Pch → Pch} (same : f (s.pch k p) = g (s.pch k p)) :
    s.modPch k p f = s.modPch k p g := by
  rw [State.pch] at same
  rw [State.modPch, State.modPch, State.modStack, State.modStack, same]

/-- Whether a pseudo-channel is held does not depend on its queue. -/
theorem holds_of_queue (s : State) (k p : Nat) (l : List SecAccess) :
    ((s.modPch k p fun q => { q with queue := l }).stack k).holds p = (s.stack k).holds p := by
  simp [Stack.holds, State.modPch, Stack.pch, Tbl.findD]

/-- Whether a stack serves does not depend on its pseudo-channels. -/
theorem stackServes_modPch (s : State) (k p : Nat) (f : Pch → Pch) : (s.modPch k p f).stackServes k = s.stackServes k := by
  simp [State.stackServes, State.modPch]

theorem ready_of_serves {s : State} {k : Nat} (serves : s.stackServes k = true) : bit s.ready.stack k = true := by
  rw [State.stackServes, Bool.and_eq_true] at serves
  exact serves.1

theorem selfRef_of_serves {s : State} {k : Nat} (serves : s.stackServes k = true) : (s.stack k).selfRef = .none := by
  rw [State.stackServes, Bool.and_eq_true, beq_iff_eq] at serves
  exact serves.2

theorem unentered_of_serves {s : State} {k : Nat} (serves : s.stackServes k = true) : (s.stack k).selfRef ≠ .entered := by
  simp [selfRef_of_serves serves]

section Arrivals

variable {s : State} {k m : Nat} (ready : bit s.ready.stack k = true) (unentered : (s.stack k).selfRef ≠ .entered)
  (inside : m < stackSectors)

include ready unentered inside

/-- A page whose map bit is clear answers zeros without the DRAM (11 R306). -/
theorem sectorRead_of_unwritten (e₁ e₂ : ReadErr) (blank : s.unwritten (sectorPage (deviceSector k m)) = true) :
    s.sectorRead k m e₁ e₂ = s.emit (.sector (deviceSector k m) 0 (List.replicate 256 0)) := by
  rw [State.sectorRead, if_neg (by simp [ready, unentered, Nat.not_le.mpr inside]), if_pos blank]
  rfl

theorem sectorRead_of_written (e₁ e₂ : ReadErr) (written : s.unwritten (sectorPage (deviceSector k m)) = false) :
    s.sectorRead k m e₁ e₂ = s.toQueue k m (.read e₁ e₂) := by
  rw [State.sectorRead, if_neg (by simp [ready, unentered, Nat.not_le.mpr inside]), if_neg (by simp [written])]

theorem sectorWrite_of_fits {o : Nat} {b : List Byte} (fits : o + b.length ≤ 256) (nonempty : b ≠ []) :
    s.sectorWrite k m o b = s.toQueue k m (.write o b) := by
  rw [State.sectorWrite, if_neg]
  simp [ready, unentered, Nat.not_le.mpr inside, Nat.not_lt.mpr fits, nonempty]

end Arrivals

section Single

variable {s w : State} {k p : Nat} {a : SecAccess} (alone : (s.pch k p).queue = [a])
  (slot : s.takeSlot k p (s.slotClass a.sub) = some w)

include alone slot

/-- An access that stands alone and has a slot is the next one, aged or not, in either direction (R278). -/
theorem nextAccess_of_single : s.nextAccess k p = some 0 := by
  have goes : s.mayIssue k p [] a = true := by simp [State.mayIssue, slot]
  have places : s.issuable k p = [0] := by simp [State.issuable, alone, goes]
  simp only [State.nextAccess, places, List.find?_cons, List.find?_nil]
  split <;> rfl

/-- It leaves its queue with its slot and is carried out (R278, R280). -/
theorem runPch_of_single (serves : s.stackServes k = true) (free : (s.stack k).holds p = false) :
    s.runPch k p = (w.modPch k p fun q => { q with
      queue := q.queue.eraseIdx 0, aged := false, writing := a.writes
      group := if a.writes = q.writing ∧ q.group < 16 then q.group + 1 else 1, flight := q.flight ++ [a] }).carryOut k a := by
  simp [State.runPch, State.pchRun, alone, serves, free, nextAccess_of_single alone slot, slot]

end Single

/-- A queue that was empty holds the new access alone, and its pseudo-channel goes on (R277). -/
theorem toQueue_of_empty {s : State} {k m : Nat} (op : SecOp) (serves : s.stackServes k = true)
    (empty : (s.pch k (s.pchOf m)).queue = []) :
    s.toQueue k m op = (s.modPch k (s.pchOf m) fun q => { q with
      queue := [⟨m, (s.granOwner (sectorGran (deviceSector k m))).getD 0, s.dev.tick, op⟩] }).runPch k (s.pchOf m) := by
  have still := selfRef_of_serves serves
  rw [State.pch] at empty
  simp only [State.toQueue, State.modPch, State.modStack, still, empty, List.nil_append]
  congr

/-- The queue of a pseudo-channel after one of its slots is used. -/
theorem queue_of_takeSlot {s w : State} {k p cls : Nat} (slot : s.takeSlot k p cls = some w) :
    (w.pch k p).queue = (s.pch k p).queue := by
  rw [State.takeSlot, Option.ite_none_left_eq_some] at slot
  obtain ⟨-, taken⟩ := slot
  rw [← Option.some.inj taken]
  simp [State.pch, Stack.pch, Tbl.findD]

/-- An access that finds its queue empty is carried out at once (R277, R278). -/
theorem toQueue_of_lone {s v : State} {k m : Nat} {op : SecOp} (lone : LoneAccess s k m op v) :
    s.toQueue k m op = v.carryOut k ⟨m, (s.granOwner (sectorGran (deviceSector k m))).getD 0, s.dev.tick, op⟩ := by
  obtain ⟨p, a, u, w, rfl, serves, free, inside, empty, rfl, rfl, slot, rfl⟩ := lone
  rw [toQueue_of_empty op serves empty, runPch_of_single (by rw [pch_modPch]) slot
    (by rw [stackServes_modPch, serves]) (by rw [holds_of_queue, free])]
  have left : (w.pch k (s.pchOf m)).queue.eraseIdx 0 = [] := by rw [queue_of_takeSlot slot, pch_modPch]; rfl
  rw [modPch_congr]
  rw [left]

theorem stack_of_lone {s v : State} {k m : Nat} {op : SecOp} (lone : LoneAccess s k m op v) :
    s.stackServes k = true ∧ m < stackSectors := by
  obtain ⟨p, a, u, w, -, serves, -, inside, -⟩ := lone
  exact ⟨serves, inside⟩

theorem sectorRead_of_lone {s v : State} {k m : Nat} {e₁ e₂ : ReadErr} (lone : LoneAccess s k m (.read e₁ e₂) v)
    (written : s.unwritten (sectorPage (deviceSector k m)) = false) :
    s.sectorRead k m e₁ e₂ =
      v.carryOut k ⟨m, (s.granOwner (sectorGran (deviceSector k m))).getD 0, s.dev.tick, .read e₁ e₂⟩ := by
  obtain ⟨serves, inside⟩ := stack_of_lone lone
  rw [sectorRead_of_written (ready_of_serves serves) (unentered_of_serves serves) inside e₁ e₂ written, toQueue_of_lone lone]

theorem sectorWrite_of_lone {s v : State} {k m o : Nat} {b : List Byte} (lone : LoneAccess s k m (.write o b) v)
    (fits : o + b.length ≤ 256) (nonempty : b ≠ []) :
    s.sectorWrite k m o b =
      v.carryOut k ⟨m, (s.granOwner (sectorGran (deviceSector k m))).getD 0, s.dev.tick, .write o b⟩ := by
  obtain ⟨serves, inside⟩ := stack_of_lone lone
  rw [sectorWrite_of_fits (ready_of_serves serves) (unentered_of_serves serves) inside fits nonempty, toQueue_of_lone lone]

section CarriedOut

variable {s : State} {k m sub since : Nat}

/-- Behind an access that waits for the mirror the next one to its sector waits too (10 R277). -/
theorem carryOut_read_of_fetching (e₁ e₂ : ReadErr) (fetching : s.pool.fetches.has (deviceSector k m) = true) :
    s.carryOut k ⟨m, sub, since, .read e₁ e₂⟩ =
      s.joinFetch (deviceSector k m) (.sector (deviceSector k m) none) := by
  simp [State.carryOut, fetching]

theorem carryOut_write_of_fetching (o : Nat) (b : List Byte) (fetching : s.pool.fetches.has (deviceSector k m) = true) :
    s.carryOut k ⟨m, sub, since, .write o b⟩ =
      s.joinFetch (deviceSector k m) (.sector (deviceSector k m) (some (o, b))) := by
  simp [State.carryOut, fetching]

theorem carryOut_read_of_clear (e₁ e₂ : ReadErr) (clear : s.pool.fetches.has (deviceSector k m) = false) :
    s.carryOut k ⟨m, sub, since, .read e₁ e₂⟩ =
      ((s.onDie (deviceSector k m) e₁.onDie).onDie (deviceSector k m) e₂.onDie).readNow (deviceSector k m) e₁.sym e₂.sym := by
  simp [State.carryOut, clear]

theorem carryOut_write_of_clear (o : Nat) (b : List Byte) (clear : s.pool.fetches.has (deviceSector k m) = false) :
    s.carryOut k ⟨m, sub, since, .write o b⟩ = s.writeNow (deviceSector k m) o b := by
  simp [State.carryOut, clear]

end CarriedOut

/-! The mirror of an uncorrectable sector (11 R302). -/

section Mirror

variable {s w : State} {n : Nat} {e : RawErr}
  (marked : w = s.putSector n { s.secMeta n with rawErr := xorErr (s.secMeta n).rawErr e })

include marked

theorem askMirror_of_unwanted (unwanted : w.mirrorWants [n] = []) : s.askMirror n e = (false, s) := by
  subst marked
  simp only [State.askMirror, unwanted]

theorem askMirror_of_wanted (wanted : w.mirrorWants [n] ≠ []) :
    s.askMirror n e = (true, (w.mirrorWants [n]).foldl (fun y x => y.fetchMirror x.1 x.2.1 x.2.2) w) := by
  subst marked
  rw [State.askMirror]
  split
  case h_1 unwanted => exact absurd unwanted wanted
  case h_2 => rfl

end Mirror

section Accesses

variable {s : State} {n : Nat}

/-- A read that asks no mirror ends in its row of Table 11-3 (11 R300). -/
theorem readNow_of_unasked {e₁ e₂ : RawErr} (unasked : s.secCond n e₁ e₂ ≠ .unc ∨ (s.askMirror n e₁).1 = false) :
    s.readNow n e₁ e₂ = (s.readSector n e₁ e₂).2.2.emit
      (.sector n (s.secCond n e₁ e₂).status.code (s.secData n (s.secCond n e₁ e₂))) := by
  have goes : ¬ (if s.secCond n e₁ e₂ == .unc then s.askMirror n e₁ else (false, s)).1 = true := by
    obtain sound | silent := unasked
    · simp [sound]
    · split
      · simp [silent]
      · simp
  rw [State.readNow, if_neg goes]
  rfl

theorem readNow_of_asked {e₁ e₂ : RawErr} (unc : s.secCond n e₁ e₂ = .unc) (asked : (s.askMirror n e₁).1 = true) :
    s.readNow n e₁ e₂ = (s.askMirror n e₁).2.joinFetch n (.sector n none) := by
  simp [State.readNow, unc, asked]

variable {o : Nat} {b : List Byte}

theorem writeNow_of_asked (part : o ≠ 0 ∨ b.length ≠ 256) (unc : s.secCond n [] [] = .unc)
    (asked : (s.askMirror n []).1 = true) :
    s.writeNow n o b = (s.askMirror n []).2.joinFetch n (.sector n (some (o, b))) := by
  simp [State.writeNow, unc, asked, part]

section Unasked

variable (unasked : (o = 0 ∧ b.length = 256) ∨ s.secCond n [] [] ≠ .unc ∨ (s.askMirror n []).1 = false)

include unasked

/-- A write that covers its sector, or finds it readable, or has no mirror to ask, does not wait for a copy. -/
theorem write_asks_none : ¬ (if (o != 0 || b.length != 256) && s.secCond n [] [] == .unc then s.askMirror n []
    else (false, s)).1 = true := by
  obtain ⟨rfl, whole⟩ | sound | silent := unasked
  · simp [whole]
  · simp [sound]
  · split
    · simp [silent]
    · simp

theorem writeNow_of_unmirrored (unmirrored : ∀ t e i, s.nameSector n = some (t, 1, e, i) →
      (s.writeSector n o b false).1 = .integrity ∨ s.mirrorsTo e = false) :
    s.writeNow n o b = (s.writeSector n o b false).2 := by
  rw [State.writeNow, if_neg (write_asks_none unasked)]
  dsimp only
  split
  case h_1 t kind e i named =>
    refine if_neg fun mirrored => ?_
    simp only [Bool.and_eq_true, beq_iff_eq, bne_iff_ne] at mirrored
    obtain ⟨⟨rfl, sound⟩, standby⟩ := mirrored
    have none_out := unmirrored t e i named
    simp [sound, standby] at none_out
  case h_2 => rfl

/-- What is written of a mirrored extent goes to the standby (16 R433). -/
theorem writeNow_of_mirrored {t e i : Nat} (named : s.nameSector n = some (t, 1, e, i))
    (sound : (s.writeSector n o b false).1 ≠ .integrity) (mirrored : s.mirrorsTo e = true) :
    s.writeNow n o b = (s.writeSector n o b false).2.mirrorOut e [(i + o, b)]
      (if (s.writeSector n o b false).1 = .poisoned then [i] else []) [] .none := by
  rw [State.writeNow, if_neg (write_asks_none unasked)]
  simp [named, sound, mirrored]

end Unasked

end Accesses

/-! Parity errors, bounds, the sweep and rank errors (10 R278, R279; 11 R310, R315). -/

/-- The access that is issued again after a parity error: a read meets no further error (R279). -/
def SecAccess.again (a : SecAccess) : SecAccess :=
  match a.op with
  | .read _ _ => { a with op := .read {} {} }
  | .write _ _ => a

/-- What is not confirmed is issued again, and the error counts for its rank (R279, 11 R315). -/
theorem parityError_of_reissue {s v : State} {k r : Nat} {f : State → SecAccess → State}
    (issues : ∀ y a, f y a = y.carryOut k a.again)
    (reissued : v = ((s.stack k).pchs.flatMap (·.2.flight)).foldl f
      (s.rankNow.modStack k fun x => { x with caErrors := x.caErrors + 1 })) :
    s.parityError k r = ({ v with pool.parity := v.pool.parity.put (4 * k + r) (v.pool.parity.findD (4 * k + r) 0 + 1) } :
      State).later [.rank (4 * k + r)] := by
  obtain rfl : f = fun y a => y.carryOut k a.again := funext fun y => funext (issues y)
  subst reissued
  rfl

/-- The oldest access goes first once it has waited its bound (R278). -/
theorem ageLimit_of_late {s : State} {k p : Nat} {a : SecAccess} {rest : List SecAccess} (serves : s.stackServes k = true)
    (free : (s.stack k).holds p = false) (oldest : (s.pch k p).queue = a :: rest) (late : a.since + 6 ≤ s.dev.tick) :
    s.ageLimit k p = s.modPch k p fun q => { q with aged := true } := by
  simp [State.ageLimit, serves, free, oldest, late]

section Sweep

variable {s u : State} {k : Nat} (e₁ e₂ : ReadErr) (serves : s.stackServes k = true)
  (sweeping : (s.stack k).mowPaused = false)

include serves sweeping

/-- A rewrite of a rotation goes ahead of the pass (09 R250, 11 R310). -/
theorem mowRead_of_rewrite {n : Nat} (next : s.nextRewrite k = some n)
    (slot : s.mowSlot k n (s.slotClass ((s.granOwner (sectorGran n)).getD 0)) true = some u) :
    s.mowRead k e₁ e₂ = u.mowSector n e₁ e₂ := by
  simp [State.mowRead, serves, sweeping, next, slot]

theorem mowRead_of_next {m : Nat} (none_old : s.nextRewrite k = none) (next : s.nextMow k (s.stack k).mowNext = some m)
    (slot : s.mowSlot k (deviceSector k m) 0xFFFF (s.mowLate k) = some u) :
    s.mowRead k e₁ e₂ = (u.modStack k fun x => { x with mowNext := m + 1 }).mowSector (deviceSector k m) e₁ e₂ := by
  simp [State.mowRead, serves, sweeping, none_old, next, slot]

/-- A pass that has come to its end begins anew, and its pace with it (11 R310). -/
theorem mowRead_of_wrap {m : Nat} (none_old : s.nextRewrite k = none) (past : s.nextMow k (s.stack k).mowNext = none)
    (first : s.nextMow k 0 = some m) (slot : s.mowSlot k (deviceSector k m) 0xFFFF (s.mowLate k) = some u) :
    s.mowRead k e₁ e₂ = (u.modStack k fun x => { x with mowNext := m + 1, mowFrom := u.dev.tick }).mowSector
      (deviceSector k m) e₁ e₂ := by
  simp [State.mowRead, serves, sweeping, none_old, past, first, slot]

end Sweep

/-- Without a copy in its time the sector is lost, and what waited for it goes on (11 R302). -/
theorem fetchTimeout_of_due {s u : State} {n : Nat} {f : MirrorFetch} (found : s.pool.fetches.find n = some f)
    (due : f.due ≤ s.dev.tick) (dropped : u = { s with pool.fetches := s.pool.fetches.del n })
    (unc : u.secCond n [] [] = .unc) :
    s.fetchTimeout n = (u.loseSector n).later (f.waiting.map Todo.run ++
      ((u.loseSector n).com.trans.keysWhere (·.stalled)).map Todo.line) := by
  subst dropped
  simp [State.fetchTimeout, State.mirrorCopy, found, due, unc]

theorem rankNow_of_past {s : State} (past : s.pool.rankWin ≠ s.dev.tick / 16777216) :
    s.rankNow = { s with pool.rankWin := s.dev.tick / 16777216, pool.badSecs := [], pool.parity := [] } := by
  simp [State.rankNow, past]

theorem rankNow_of_present {s : State} (present : s.pool.rankWin = s.dev.tick / 16777216) : s.rankNow = s := by
  simp [State.rankNow, present]

/-! Migration (11 R316 to R319). -/

/-- The place of a migration's next granule: the like one of the rank it fills, or a FREE one of another rank. -/
def State.migrationPlace (s : State) (m : Migration) : Option Nat :=
  match m.dest with
  | some d => some (d * 9216 + m.next)
  | none => s.nextFree 0xFFFF ((m.rank / 4 + 1) % 16) (some m.rank)

theorem migrationPlace_of_rank {s : State} {m : Migration} {d : Nat} (dest : m.dest = some (d / 9216))
    (like : d % 9216 = m.next) : s.migrationPlace m = some d := by
  rw [State.migrationPlace, dest, ← like]
  exact congrArg some (by omega)

theorem migrationPlace_of_scattered {s : State} {m : Migration} {d : Nat} (scattered : m.dest = none)
    (free : s.nextFree 0xFFFF ((m.rank / 4 + 1) % 16) (some m.rank) = some d) : s.migrationPlace m = some d := by
  rw [State.migrationPlace, scattered, ← free]

/-- The next granule with content is copied and its physical invalidation issued; one that no extent uses has no mirror
(R317, R318). -/
theorem granuleCopied_of_unmirrored {s u w : State} {m : Migration} {d src : Nat} (l : List (Nat × Nat))
    (passed : u = s.passFree 9217) (migrating : u.pool.migration = some m) (more : m.next ≠ 9216)
    (source : src = m.rank * 9216 + m.next) (place : u.migrationPlace m = some d) (goes : u.copyHeld m d = false)
    (unmirrored : ∀ e, (u.gran src).use ≠ .extent e)
    (copied : w = (u.moveGranule src d l).invalidate (.phys [src]) (.migrate src d)) :
    s.granuleCopied l = (({ w with pool.migration := some { m with
      next := m.next + 1, copied := m.copied + 1, stalled := false } } : State).passFree 9217).migrationCheck := by
  subst passed source copied
  simp only [State.granuleCopied, migrating, beq_iff_eq, more, if_false]
  split
  case h_1 nowhere => exact absurd (place.symm.trans nowhere) (Option.some_ne_none d)
  case h_2 d' there =>
    obtain rfl : d = d' := Option.some.inj (place.symm.trans there)
    exact if_neg (by simp [goes])

/-- Settles O44: each row is what its event does and what follows; a lone access goes at once and is carried out, and the lemmas
above say which branch each event takes. -/
theorem sectorEvents : Obligations.SectorEvents := by
  refine ⟨?read, ?write, ?fetching, ?readOut, ?writeOut, ?parity, ?age, ?sweep, ?timeout, ?window, ?migration⟩
  case read =>
    intro s k m e₁ e₂ live hk ready unentered inside
    rw [exec_sectorReadDone m e₁ e₂ live hk]
    refine ⟨fun blank => ?_, fun written => ?_⟩
    · rw [sectorRead_of_unwritten ready unentered inside e₁ e₂ blank]
    · rw [sectorRead_of_written ready unentered inside e₁ e₂ written]
  case write =>
    intro s k m o b live hk ready unentered inside fits nonempty
    rw [exec_sectorWriteDone m o b live hk, sectorWrite_of_fits ready unentered inside fits nonempty]
  case fetching =>
    intro s k m op v live hk lone fetching
    refine ⟨?_, ?_⟩
    · rintro e₁ e₂ rfl written
      rw [exec_sectorReadDone m e₁ e₂ live hk, sectorRead_of_lone lone written, carryOut_read_of_fetching e₁ e₂ fetching]
    · rintro o b rfl fits nonempty
      rw [exec_sectorWriteDone m o b live hk, sectorWrite_of_lone lone fits nonempty, carryOut_write_of_fetching o b fetching]
  case readOut =>
    rintro s k m e₁ e₂ n v u w live hk lone rfl written clear reported marked
    rw [exec_sectorReadDone m e₁ e₂ live hk, sectorRead_of_lone lone written, carryOut_read_of_clear e₁ e₂ clear, ← reported]
    refine ⟨fun unasked => ?_, fun unc wanted => ?_⟩
    · rw [readNow_of_unasked (unasked.imp_right fun unwanted => by rw [askMirror_of_unwanted marked unwanted])]
    · have asked := askMirror_of_wanted marked wanted
      rw [readNow_of_asked unc (by rw [asked]), asked]
  case writeOut =>
    rintro s k m o b n v w live hk lone rfl fits nonempty clear rfl
    rw [exec_sectorWriteDone m o b live hk, sectorWrite_of_lone lone fits nonempty, carryOut_write_of_clear o b clear]
    refine ⟨fun unasked => ⟨fun unmirrored => ?_, fun t e i named sound mirrored => ?_⟩, fun part unc asked => ?_⟩
    · rw [writeNow_of_unmirrored unasked unmirrored]
    · rw [writeNow_of_mirrored unasked named sound mirrored]
    · rw [writeNow_of_asked part unc asked]
  case parity =>
    rintro s k r u live hk hr rfl
    rw [exec_caParityError live hk hr]
    refine ⟨fun confirmed => ?_, fun v reissued => ?_⟩
    · rw [parityError_of_reissue (fun _ _ => rfl) rfl, confirmed, List.foldl_nil]
    · rw [parityError_of_reissue (fun y a => ?_) reissued]
      obtain ⟨sector, sub, since, op⟩ := a
      cases op <;> rfl
  case age =>
    intro s k p a rest live hk hp serves free oldest late
    rw [exec_accessAgeLimit live hk hp, ageLimit_of_late serves free oldest late]
  case sweep =>
    intro s k e₁ e₂ live hk serves sweeping
    rw [exec_mowRead e₁ e₂ live hk]
    refine ⟨fun n u next slot => ?_, fun m u none_old next slot => ?_, fun m u none_old past first slot => ?_⟩
    · rw [mowRead_of_rewrite e₁ e₂ serves sweeping next slot]
    · rw [mowRead_of_next e₁ e₂ serves sweeping none_old next slot]
    · rw [mowRead_of_wrap e₁ e₂ serves sweeping none_old past first slot]
  case timeout =>
    rintro s k m n f u live hk rfl found due dropped unc
    rw [exec_mirrorFetchTimeout m live hk, fetchTimeout_of_due found due dropped unc]
  case window =>
    intro s live
    rw [exec_rankErrorWindowEnd live]
    refine ⟨fun past => ?_, fun present => ?_⟩
    · rw [rankNow_of_past past]
    · rw [rankNow_of_present present]
  case migration =>
    intro s l u m src d w live passed migrating more source place goes unmirrored copied
    have placed : u.migrationPlace m = some d :=
      place.elim (fun like => migrationPlace_of_rank like.1 like.2) fun free => migrationPlace_of_scattered free.1 free.2
    rw [exec_migrationGranuleCopied l live,
      granuleCopied_of_unmirrored l passed migrating more source placed goes unmirrored copied]

end Sys2Proof.Machine

namespace Sys2Proof.Machine

/-! Stacks by the clock (10 R283 to R293; 11 R305; 15 R419). -/

theorem exec_refreshDue {s : State} {k p r b : Nat} (live : Live s) (hk : k < 16) (hp : p < 64) (hr : r < 4) (hb : b < 16) :
    exec (.refreshDue k p r b) s = .next (s.refreshBank k p r b).settle :=
  effect_of_live _ (fun s => s.refreshBank k p r b) live (by simp [hk, hp, hr, hb])

theorem exec_stackTemperatureRead {s : State} {k : Nat} (c : Int) (live : Live s) (hk : k < 16) :
    exec (.stackTemperatureRead k c) s = .next (s.stackTemp k c).settle :=
  effect_of_live _ (fun s => s.stackTemp k c) live (decide_eq_true hk)

theorem exec_stackSelfRefreshEntry {s : State} {k : Nat} (live : Live s) (hk : k < 16) :
    exec (.stackSelfRefreshEntry k) s = .next (s.selfEntry k).settle :=
  effect_of_live _ (fun s => s.selfEntry k) live (decide_eq_true hk)

theorem exec_stackSelfRefreshExit {s : State} {k : Nat} (c : Int) (live : Live s) (hk : k < 16) :
    exec (.stackSelfRefreshExit k c) s = .next (s.selfExit k c).settle :=
  effect_of_live _ (fun s => s.selfExit k c) live (decide_eq_true hk)

theorem exec_trainingStepDone {s : State} {k : Nat} (ok : Bool) (m : Nat) (live : Live s) (hk : k < 16) :
    exec (.trainingStepDone k ok m) s = .next (s.trainStep k ok m).settle :=
  effect_of_live _ (fun s => s.trainStep k ok m) live (decide_eq_true hk)

theorem exec_stackInitDone {s : State} {k : Nat} (live : Live s) (hk : k < 16) :
    exec (.stackInitDone k) s = .next (s.stackInit k).settle :=
  effect_of_live _ (fun s => s.stackInit k) live (decide_eq_true hk)

theorem exec_pgenRunDone {s : State} {k p : Nat} (l : List Nat) (live : Live s) (hk : k < 16) (hp : p < 64) :
    exec (.pgenRunDone k p l) s = .next (s.pgenDone k p l).settle :=
  effect_of_live _ (fun s => s.pgenDone k p l) live (by simp [hk, hp])

theorem exec_readTracking {s : State} {k p : Nat} (l : List PinEye) (live : Live s) (hk : k < 16) (hp : p < 64) :
    exec (.readTracking k p l) s = .next (s.track k p l).settle :=
  effect_of_live _ (fun s => s.track k p l) live (by simp [hk, hp])

theorem exec_retrainSliceTimer {s : State} {k p : Nat} (starts passed : Bool) (l : List PinEye) (live : Live s)
    (hk : k < 16) (hp : p < 64) :
    exec (.retrainSliceTimer k p starts passed l) s = .next (s.retrainSlice k p starts passed l).settle :=
  effect_of_live _ (fun s => s.retrainSlice k p starts passed l) live (by simp [hk, hp])

/-! Refresh and temperature (R283 to R285; 15 R419). -/

section Refresh

variable {s : State} {k p r b : Nat} {x : Stack} {q : Pch} {y : DramBank} (here : x = s.stack k)
  (awake : x.selfRef ≠ .entered) (channel : q = x.pch p) (cell : y = q.banks.findD (bankKey r b) {})

include here awake channel cell

theorem refreshBank_of_waiting (waits : s.bankWaits k p r b = true) (free : x.holds p = false) (few : y.postponed < 8) :
    s.refreshBank k p r b = s.putStack k { x with pchs := x.pchs.put p { q with
      banks := q.banks.put (bankKey r b) { y with postponed := y.postponed + 1 } } } := by
  subst here channel cell
  simp [State.refreshBank, awake, waits, free, few]

/-- A refresh that nothing postpones goes with those postponed before it, and takes a threshold's worth off the count for
each (R284, R285). -/
theorem refreshBank_of_due (due : s.bankWaits k p r b = false ∨ x.holds p = true ∨ 8 ≤ y.postponed) :
    s.refreshBank k p r b = s.putStack k { x with pchs := x.pchs.put p { q with
      last := [.refresh r b (y.postponed + 1)]
      banks := q.banks.put (bankKey r b) { y with
        postponed := 0, refreshed := y.refreshed + (y.postponed + 1)
        activates := y.activates - (y.postponed + 1) * Config.refreshThreshold k } } } := by
  have goes : (s.bankWaits k p r b && !x.holds p && decide (y.postponed < 8)) = false := by
    obtain idle | held | full := due
    · simp [idle]
    · simp [held]
    · simp [Nat.not_lt.mpr full]
  subst here channel cell
  simp [State.refreshBank, awake, goes, DramBank.refresh]

end Refresh

/-- A stack after a temperature reading: the refresh window and the access-rate limit follow it (R283, 15 R419). -/
def Stack.atTemperature (x : Stack) (c : Int) : Stack :=
  let low := if x.shortWin && c ≤ 83 then x.lowReads + 1 else 0
  let short := if 85 < c then true else x.shortWin && low < 2
  { x with temp := c, shortWin := short, lowReads := if short then low else 0, hot := if 95 < c then true else x.hot && 90 < c }

theorem stackTemp_of_safe {s : State} {k : Nat} {c : Int} (safe : c ≤ 105) :
    s.stackTemp k c = s.putStack k ((s.stack k).atTemperature c) :=
  if_neg (by omega)

theorem stackTemp_of_overheated {s : State} {k : Nat} {c : Int} (hot : 105 < c) :
    s.stackTemp k c = (s.putStack k ((s.stack k).atTemperature c)).halt 1 :=
  if_pos hot

section Bands

variable {x : Stack} {c : Int}

/-- The second reading in a row at or below 83 degrees ends the short window. -/
theorem atTemperature_of_cool (cool : c ≤ 83) : x.atTemperature c = { x with
    temp := c, shortWin := x.shortWin && decide (x.lowReads + 1 < 2), hot := false
    lowReads := if x.shortWin && decide (x.lowReads + 1 < 2) then x.lowReads + 1 else 0 } := by
  have below : ¬ 85 < c ∧ ¬ 90 < c ∧ ¬ 95 < c := by omega
  cases short : x.shortWin <;> simp [Stack.atTemperature, cool, below, short]

theorem atTemperature_of_mild (low : 83 < c) (high : c ≤ 85) :
    x.atTemperature c = { x with temp := c, lowReads := 0, hot := false } := by
  have below : ¬ c ≤ 83 ∧ ¬ 85 < c ∧ ¬ 90 < c ∧ ¬ 95 < c := by omega
  simp [Stack.atTemperature, below]

theorem atTemperature_of_warm (low : 85 < c) (high : c ≤ 90) :
    x.atTemperature c = { x with temp := c, shortWin := true, lowReads := 0, hot := false } := by
  have below : ¬ c ≤ 83 ∧ ¬ 90 < c ∧ ¬ 95 < c := by omega
  simp [Stack.atTemperature, below, low]

/-- Between 90 and 95 degrees the access-rate limit stays as it is (15 R419). -/
theorem atTemperature_of_warmer (low : 90 < c) (high : c ≤ 95) :
    x.atTemperature c = { x with temp := c, shortWin := true, lowReads := 0 } := by
  have below : ¬ c ≤ 83 ∧ 85 < c ∧ ¬ 95 < c := by omega
  simp [Stack.atTemperature, below, low]

theorem atTemperature_of_hot (hot : 95 < c) :
    x.atTemperature c = { x with temp := c, shortWin := true, lowReads := 0, hot := true } := by
  have below : ¬ c ≤ 83 ∧ 85 < c := by omega
  simp [Stack.atTemperature, below, hot]

end Bands

/-! Self-refresh (R286, R293). -/

section Entry

variable {s u : State} {k : Nat} (entering : (s.stack k).selfRef = .entering) (free : (s.stack k).held = false)
  (asleep : s.pwr.sleep ≠ .waking ∨ s.dev.halt ≠ none)

include entering free asleep

theorem selfEntry_goes : ((s.stack k).selfRef != .entering || (s.stack k).held ||
    (s.pwr.sleep == .waking && s.dev.halt.isNone)) = false := by
  obtain still | halted := asleep
  · simp [entering, free, still]
  · simp [entering, free, Option.isNone_eq_false_iff.mpr (Option.isSome_iff_ne_none.mpr halted)]

variable (run : u = (s.modStack k fun x => { x with selfRef := .none }).runStack k)

include run

theorem selfEntry_of_emptied (emptied : ∀ q ∈ (u.stack k).pchs, q.2.queue = []) :
    s.selfEntry k = u.putStack k { (u.stack k).refreshAll (Config.refreshThreshold k) with
      selfRef := .entered, entryTemp := (u.stack k).temp, mowPaused := true } := by
  have none_left : ((u.stack k).pchs.any fun q => !q.2.queue.isEmpty) = false := by simpa using emptied
  subst run
  simp only [State.selfEntry, selfEntry_goes entering free asleep, none_left, Bool.false_eq_true, if_false]

theorem selfEntry_of_queued (queued : ∃ q ∈ (u.stack k).pchs, q.2.queue ≠ []) :
    s.selfEntry k = u.putStack k { u.stack k with selfRef := .entering } := by
  have some_left : ((u.stack k).pchs.any fun q => !q.2.queue.isEmpty) = true := by simpa using queued
  subst run
  simp only [State.selfEntry, selfEntry_goes entering free asleep, some_left, Bool.false_eq_true, if_false, if_true]

end Entry

/-- Self-refresh is left with every refresh and tracking due, and a full retrain where the temperature has moved far (R286,
R293). -/
theorem selfExit_of_waking {s : State} {k : Nat} {c : Int} {x : Stack} {far : Bool} (here : x = s.stack k)
    (entered : x.selfRef = .entered) (waking : s.pwr.sleep = .waking) (running : s.dev.halt = none)
    (moved : far = decide (c - x.entryTemp > 10 ∨ x.entryTemp - c > 10)) :
    s.selfExit k c = s.putStack k { x with
      selfRef := .none, temp := c, dueAll := true, mowPaused := false
      pchs := (List.range 64).foldl (fun (t : Tbl Pch) p => t.put p { x.pch p with
        trkDue := true, fullDue := far
        retrain := if far then none else (x.pch p).retrain.map fun r => { r with since := s.dev.tick }
        banks := (x.pch p).banks.each fun _ b => { b with refreshed := 0 } }) x.pchs } := by
  subst here moved
  simp [State.selfExit, entered, waking, running]

/-! Training (R288, R289; 11 R305). -/

section Passed

variable {s : State} {k : Nat} {x : Stack} {d : Nat × State} (m : Nat) (here : x = s.stack k) (drawn : d = s.draw 64)

include here

theorem stepPassed_of_early (early : x.step < 5) : s.stepPassed k m = s.putStack k { x with step := x.step + 1 } := by
  subst here
  rw [State.stepPassed]
  split
  case h_1 step | h_2 step | h_3 step | h_4 step => omega
  case h_5 => rfl

theorem stepPassed_of_remap (step : x.step = 7) : s.stepPassed k m =
    ({ s with
      stk.lanes := if x.badPins == 0 then s.stk.lanes
        else s.stk.lanes.put k (Nat.lor (s.stk.lanes.findD k 0) x.badPins) } : State).putStack k
      { x with step := 8, badPins := 0 } := by
  subst here
  simp only [State.stepPassed, step]

include drawn

theorem stepPassed_of_readTraining (step : x.step = 5) :
    s.stepPassed k m = d.2.putStack k { x with step := 6, readSet := some d.1, badPins := m } := by
  subst here drawn
  simp only [State.stepPassed, step]

theorem stepPassed_of_writeTraining (step : x.step = 6) :
    s.stepPassed k m = d.2.putStack k { x with step := 7, writeSet := some d.1, badPins := Nat.lor x.badPins m } := by
  subst here drawn
  simp only [State.stepPassed, step]

theorem stepPassed_of_eyes (step : x.step = 8) :
    s.stepPassed k m = d.2.putStack k { x with step := 9, eyeSet := some d.1 } := by
  subst here drawn
  simp only [State.stepPassed, step]

end Passed

/-- A step fails by itself, or step 7 by more pins than it can remap. -/
theorem step_fails {s : State} {k : Nat} {x : Stack} {ok : Bool}
    (failed : ok = false ∨ x.step = 7 ∧ s.repairs k x.badPins = false) :
    (ok && (x.step != 7 || s.repairs k x.badPins)) = false := by
  obtain rfl | ⟨remap, unrepaired⟩ := failed
  · rfl
  · simp [remap, unrepaired]

section Training

variable {s : State} {k m : Nat} {x : Stack} (here : x = s.stack k) (running : s.dev.phase = .running)
  (sound : x.failed = false) (training : x.step < 9) (narrow : m < 2 ^ 2304)

include here running sound training narrow

theorem trainStep_of_passed (passed : x.step = 7 → s.repairs k x.badPins = true) :
    s.trainStep k true m = s.stepPassed k m := by
  subst here
  have ok : (true && ((s.stack k).step != 7 || s.repairs k (s.stack k).badPins)) = true := by
    by_cases remap : (s.stack k).step = 7
    · simp [passed remap]
    · simp [remap]
  simp only [State.trainStep, running, sound, Nat.mod_eq_of_lt narrow, ok, Nat.not_le.mpr training]
  simp

variable {ok : Bool} (failed : ok = false ∨ x.step = 7 ∧ s.repairs k x.badPins = false)

include failed

omit narrow in
theorem trainStep_of_retry (again : x.attempt < 3) :
    s.trainStep k ok m = s.putStack k { x with
      step := 1, attempt := x.attempt + 1, badPins := 0, readSet := none, writeSet := none } := by
  subst here
  simp only [State.trainStep, running, sound, step_fails failed, Nat.not_le.mpr training, again]
  simp

/-- The third attempt that fails costs the stack; the event names the pins (R289). -/
theorem trainStep_of_last (last : 3 ≤ x.attempt) :
    s.trainStep k ok m = s.failStack k x.step ((List.range 64).foldl (fun n p =>
      Nat.lor n (pinsIn (if x.step = 7 then Nat.lor m x.badPins else m) p)) 0) := by
  subst here
  simp only [State.trainStep, running, sound, Nat.mod_eq_of_lt narrow, step_fails failed,
    Nat.not_le.mpr training, Nat.not_lt.mpr last]
  simp

end Training

/-- The end of training makes a stack ready, and zeroed without a set map bit (R288, 11 R305). -/
theorem stackInit_of_trained {s u : State} {k : Nat} (running : s.dev.phase = .running) (sound : (s.stack k).failed = false)
    (trained : (s.stack k).step = 9) (done : u = s.putStack k { s.stack k with step := 10 }) :
    s.stackInit k = { u with
      pool.mem := memZero u.pool.mem (k * 36864 * 2097152) (36864 * 2097152)
      pool.sectors := u.pool.sectors.keep fun n _ => n / stackSectors != k
      pool.wmap := u.pool.wmap.filter fun p => p / (36864 * 32) != k
      ready.stack := setBit u.ready.stack k true } := by
  subst done
  simp [State.stackInit, running, sound, trained]

/-! The pattern generator (R287). -/

section PatternRun

variable {s u v : State} {k p : Nat} {l : List Nat} {q : Pch} (here : q = s.pch k p) (started : bit q.ctl 0 = true)
  (counted : u = if bits q.ctl 7 6 = 2 then s else (l.take 36).zipIdx.foldl (fun y m => if m.1 = 0 then y else
    y.putPin k p m.2 { y.pinOf k p m.2 with cmp := min 65535 ((y.pinOf k p m.2).cmp + m.1) }) s)
  (ended : v = u.modPch k p fun y => { y with
    ctl := setBit y.ctl 0 false, running := none
    beats := if bits q.ctl 7 6 = 2 then y.beats else (y.beats + bits y.ctl 63 48 * 1024 * 8) % 2 ^ 48
    training := if bits q.ctl 7 6 = 1 then y.training else some (y.ctl, y.user) })

include here started counted ended

theorem pgenDone_of_unasked (unasked : q.running = none) : s.pgenDone k p l = v.runStack k := by
  subst here counted ended
  simp only [State.pgenDone, started, unasked, beq_iff_eq, Bool.not_true, Bool.false_eq_true, if_false]

/-- The command that started the run is answered (18 R473). -/
theorem pgenDone_of_asked {c : CmdRef} (asked : q.running = some c) : s.pgenDone k p l = (v.respondOk c).runStack k := by
  subst here counted ended
  simp only [State.pgenDone, started, asked, beq_iff_eq, Bool.not_true, Bool.false_eq_true, if_false]

end PatternRun

/-! Tracking and retraining (R291 to R293). -/

section Tracking

variable {s u : State} {k p : Nat} {l es : List PinEye} (serves : s.stackServes k = true) (due : s.trackDue k p = true)
  (eyes : es = l.filter (·.pin < 36)) (tracked : u = es.foldl (fun u e => u.trackPin k p e) s)

include serves due eyes tracked

/-- Tracking ends and asks for no retrain: the eyes are wide, or one is under way here, or due here anyway (R291, R293). -/
theorem track_of_unasking (unasking : es.any (·.read < 16) = false ∨ (u.pch k p).retrain.isSome = true ∨
      ((u.stack k).pchs.any fun q => q.2.retrain.isSome) = false ∧ (u.pch k p).fullDue = true) :
    s.track k p l = (u.modPch k p fun q => { q with
      trkDue := false, lastTrk := u.dev.tick, trkTemp := (u.stack k).temp, sinceTrk := 0 }).runStack k := by
  have goes : ¬ (es.any (·.read < 16) && ((u.stack k).pchs.any fun q => q.2.retrain.isSome) &&
      !(u.pch k p).retrain.isSome) = true := by
    obtain wide | going | ⟨idle, -⟩ := unasking
    · simp [wide]
    · simp [going]
    · simp [idle]
  have keeps : ¬ (es.any (·.read < 16) && !(u.pch k p).fullDue && (u.pch k p).retrain.isNone) = true := by
    obtain wide | going | ⟨-, full⟩ := unasking
    · simp [wide]
    · simp [← Option.not_isSome, going]
    · simp [full]
  subst eyes tracked
  simp only [State.track, serves, due, Bool.not_true, Bool.or_self, Bool.false_eq_true, if_false]
  rw [if_neg goes, modPch_congr]
  rw [if_neg keeps]

variable (narrow : es.any (·.read < 16) = true) (alone : (u.pch k p).retrain = none)

include narrow alone

/-- A narrow eye asks for a full retrain where the stack has none (R291). -/
theorem track_of_asking (idle : ((u.stack k).pchs.any fun q => q.2.retrain.isSome) = false)
    (undue : (u.pch k p).fullDue = false) :
    s.track k p l = (u.modPch k p fun q => { q with
      trkDue := false, lastTrk := u.dev.tick, trkTemp := (u.stack k).temp, sinceTrk := 0
      retrain := some { since := u.dev.tick, inSlice := false } }).runStack k := by
  subst eyes tracked
  simp only [State.track, serves, due, narrow, idle, alone, undue, Bool.not_true, Bool.or_self, Bool.false_eq_true, if_false,
    Bool.and_false, Bool.false_and]
  rw [modPch_congr]
  simp [alone]

theorem track_of_busy (busy : ((u.stack k).pchs.any fun q => q.2.retrain.isSome) = true) : s.track k p l = u := by
  subst eyes tracked
  simp [State.track, serves, due, narrow, busy, alone]

end Tracking

section Retraining

variable {s v : State} {k p : Nat} {ok : Bool} {l es : List PinEye}

/-- A slice starts: the first one at once, a later one after its gap (R292). -/
theorem retrainSlice_of_start {r : Retrain} (retraining : (s.pch k p).retrain = some r) (outside : r.inSlice = false)
    (serves : s.stackServes k = true) (rested : r.first = none ∨ r.since + 313 ≤ s.dev.tick) :
    s.retrainSlice k p true ok l = s.modPch k p fun q => { q with
      retrain := some { since := s.dev.tick, inSlice := true, first := some (r.first.getD s.dev.tick) } } := by
  have late : (r.first.isSome && decide (s.dev.tick < r.since + 313)) = false := by
    obtain first | gap := rested
    · simp [first]
    · simp [Nat.not_lt.mpr gap]
  simp [State.retrainSlice, retraining, outside, serves, late]

variable (eyes : es = l.filter (·.pin < 36))

include eyes

/-- The last slice ends a retrain, and so does the one hold after self-refresh (R292, R293). -/
theorem retrainSlice_of_end (ends : (∃ r, (s.pch k p).retrain = some r ∧ r.inSlice = true ∧ (ok = true ∨ es ≠ [])) ∨
      (s.pch k p).retrain = none ∧ (s.pch k p).fullDue = true ∧ s.stackServes k = true) :
    s.retrainSlice k p false ok l = s.retrainEnd k p ok es := by
  subst eyes
  obtain ⟨r, retraining, inside, last⟩ | ⟨alone, full, serves⟩ := ends
  · have measured : (ok || !(l.filter (·.pin < 36)).isEmpty) = true := by
      simpa only [Bool.or_eq_true, Bool.not_eq_true', List.isEmpty_eq_false_iff] using last
    simp only [State.retrainSlice, retraining, inside, measured, Bool.not_true, Bool.false_eq_true, if_false, if_true]
  · simp [State.retrainSlice, alone, full, serves]

theorem retrainSlice_of_gap {r : Retrain} (retraining : (s.pch k p).retrain = some r) (inside : r.inSlice = true)
    (unmeasured : es = []) :
    s.retrainSlice k p false false l = (s.modPch k p fun q => { q with
      retrain := some { r with since := s.dev.tick, inSlice := false } }).runStack k := by
  rw [eyes] at unmeasured
  simp only [State.retrainSlice, retraining, inside, unmeasured, List.isEmpty_nil, Bool.not_true, Bool.or_self,
    Bool.false_eq_true, if_false]

omit eyes

variable (measured : v = es.foldl (fun u e => u.putPin k p e.pin { u.pinOf k p e.pin with
    eyeR := e.read, eyeW := e.write, eyeV := e.vref })
  (s.modPch k p fun q => { q with retrain := none, fullDue := false, training := none }))

include measured

theorem retrainEnd_of_wide (wide : es.any PinEye.small = false) :
    s.retrainEnd k p true es = (es.foldl (fun u e => u.retrainPin k p e) v).runStack k := by
  subst measured
  simp [State.retrainEnd, wide]

/-- A retrain that has failed is recorded with the pins whose eyes are small, and no setting changes (R292). -/
theorem retrainEnd_of_failed (failed : ok = false ∨ es.any PinEye.small = true) :
    s.retrainEnd k p ok es = (v.recOp 0x020C 7 k (maskOf ((es.filter PinEye.small).map (·.pin))) p).runStack k := by
  have keeps : ¬ (ok && !es.any PinEye.small) = true := by
    obtain rfl | small := failed
    · simp
    · simp [small]
  subst measured
  simp only [State.retrainEnd, if_neg keeps]

end Retraining

/-- Settles O45: each row is what its event does and what follows; the lemmas above say, event by event, which branch the state
takes. -/
theorem stackEvents : Obligations.StackEvents := by
  refine ⟨?refresh, ?temperature, ?entry, ?exit, ?training, ?init, ?pattern, ?tracking, ?retraining⟩
  case refresh =>
    intro s k p r b x q y live hk hp hr hb here awake channel cell
    rw [exec_refreshDue live hk hp hr hb]
    refine ⟨fun waits free few => ?_, fun due => ?_⟩
    · rw [refreshBank_of_waiting here awake channel cell waits free few]
    · rw [refreshBank_of_due here awake channel cell due]
  case temperature =>
    rintro s k c x live hk rfl
    rw [exec_stackTemperatureRead c live hk]
    refine ⟨fun cool => ?_, fun low high => ?_, fun low high => ?_, fun low high => ?_, fun hot safe => ?_, fun hot => ?_⟩
    · rw [stackTemp_of_safe (by omega), atTemperature_of_cool cool]
    · rw [stackTemp_of_safe (by omega), atTemperature_of_mild low high]
    · rw [stackTemp_of_safe (by omega), atTemperature_of_warm low high]
    · rw [stackTemp_of_safe (by omega), atTemperature_of_warmer low high]
    · rw [stackTemp_of_safe safe, atTemperature_of_hot hot]
    · rw [stackTemp_of_overheated hot, atTemperature_of_hot (by omega)]
  case entry =>
    intro s k u live hk entering free asleep run
    rw [exec_stackSelfRefreshEntry live hk]
    refine ⟨fun emptied => ?_, fun queued => ?_⟩
    · rw [selfEntry_of_emptied entering free asleep run emptied]
    · rw [selfEntry_of_queued entering free asleep run queued]
  case exit =>
    intro s k c x far live hk here entered waking running moved
    rw [exec_stackSelfRefreshExit c live hk, selfExit_of_waking here entered waking running moved]
  case training =>
    intro s k ok m x d live hk here running sound training narrow drawn
    rw [exec_trainingStepDone ok m live hk]
    refine ⟨?_, fun failed => ⟨fun again => ?_, fun last => ?_⟩⟩
    · rintro rfl
      have passes := trainStep_of_passed here running sound training narrow
      refine ⟨fun early => ?_, fun step => ?_, fun step => ?_, fun step repaired => ?_, fun step => ?_⟩
      · rw [passes (by omega), stepPassed_of_early m here early]
      · rw [passes (by omega), stepPassed_of_readTraining m here drawn step]
      · rw [passes (by omega), stepPassed_of_writeTraining m here drawn step]
      · rw [passes fun _ => repaired, stepPassed_of_remap m here step]
        refine ⟨fun whole => ?_, fun bad => ?_⟩
        · simp [whole]
        · simp [bad]
      · rw [passes (by omega), stepPassed_of_eyes m here drawn step]
    · rw [trainStep_of_retry here running sound training failed again]
    · rw [trainStep_of_last here running sound training narrow failed last]
  case init =>
    intro s k u live hk running sound trained done
    rw [exec_stackInitDone live hk, stackInit_of_trained running sound trained done]
  case pattern =>
    intro s k p l q u v live hk hp here started counted ended
    rw [exec_pgenRunDone l live hk hp]
    refine ⟨fun unasked => ?_, fun c asked => ?_⟩
    · rw [pgenDone_of_unasked here started counted ended unasked]
    · rw [pgenDone_of_asked here started counted ended asked]
  case tracking =>
    intro s k p l es u live hk hp serves due eyes tracked
    rw [exec_readTracking l live hk hp]
    refine ⟨fun unasking => ?_, fun narrow idle alone undue => ?_, fun narrow busy alone => ?_⟩
    · rw [track_of_unasking serves due eyes tracked unasking]
    · rw [track_of_asking serves due eyes tracked narrow alone idle undue]
    · rw [track_of_busy serves due eyes tracked narrow alone busy]
  case retraining =>
    intro s k p ok l es v live hk hp eyes measured
    refine ⟨fun r retraining outside serves rested => ?_, fun ends => ?_, ?_⟩
    · rw [exec_retrainSliceTimer true ok l live hk hp, retrainSlice_of_start retraining outside serves rested]
    · rw [exec_retrainSliceTimer false ok l live hk hp, retrainSlice_of_end eyes ends]
      refine ⟨?_, fun failed => ?_⟩
      · rintro rfl wide
        rw [retrainEnd_of_wide measured wide]
      · rw [retrainEnd_of_failed measured failed]
    · rintro r retraining inside rfl unmeasured
      rw [exec_retrainSliceTimer false false l live hk hp, retrainSlice_of_gap eyes retraining inside unmeasured]

end Sys2Proof.Machine

namespace Sys2Proof.Machine

/-! The bodies of the configuration, event and counter commands (19 R494; 20 R506, R507), where nothing refuses them. -/

section RecordBodies

variable {x : CcpCtx} {t : State} {item : Nat}

section Item

variable {fits : Bool} (named : item = bits x.block 15 0) (listed : itemFits item (bits x.block 47 32) = some fits)
  (others : itemOfDevice item = false)

include named listed others

theorem bodyConfigSet_of_empty (empty : bits x.block 47 32 = 0) :
    bodyConfigSet x t = okBytes { t with fw.config := t.fw.config.del item } [] := by
  subst named
  rw [empty] at listed
  simp [bodyConfigSet, okEmpty, listed, others, empty]

theorem bodyConfigSet_of_fitting (fitting : fits = true) (nonempty : bits x.block 47 32 ≠ 0) (short : bits x.block 47 32 ≤ 4096) :
    bodyConfigSet x t =
      okBytes { t with fw.config := t.fw.config.put item ((leBytes x.block x.total).drop 8) } [] := by
  subst named fitting
  simp [bodyConfigSet, okEmpty, listed, others, nonempty, Nat.not_lt.mpr short]

end Item

theorem bodyConfigQuery_of_stored {v : List Byte} (object : x.object = item) (listed : itemFits item 0 ≠ none)
    (stored : t.fw.config.find item = some v) : bodyConfigQuery x t = okBytes t v := by
  obtain ⟨fits, listed⟩ := Option.ne_none_iff_exists'.mp listed
  simp only [bodyConfigQuery, object, listed, stored]

/-- The events that a reader gets of its queue: how many there are, and the oldest ones (R506). -/
def readOf (b : Nat) (q : EvQueue) : List Byte :=
  leBytes q.recs.length 8 ++ (q.recs.take (bits b 7 0 + 1)).flatMap fun r => leBytes r.word 32

/-- A queue from which a reader has dropped what it acknowledges (R506). -/
def EvQueue.acked (q : EvQueue) (b : Nat) : EvQueue := if bit b 8 then q.ackTo (bits b 63 32) else q

theorem bodyEventRead_of_operator (operator : x.isOp = true) :
    bodyEventRead x t = okBytes { t with log.op := t.log.op.acked x.block } (readOf x.block (t.log.op.acked x.block)) := by
  simp only [bodyEventRead, operator, if_true]
  rfl

theorem bodyEventRead_of_tenant {q : EvQueue} (other : x.isOp = false) (found : t.log.ten.find x.tenant = some q) :
    bodyEventRead x t =
      okBytes { t with log.ten := t.log.ten.put x.tenant (q.acked x.block) } (readOf x.block (q.acked x.block)) := by
  simp only [bodyEventRead, other, found, Bool.false_eq_true, if_false]
  rfl

/-- The counters of the device are an operator's to read (R507). -/
theorem bodyStatsQuery_of_device (operator : x.isOp = true) (device : bits x.block 63 48 = 0) (set : bits x.block 41 40 = 3)
    (whole : bits x.block 39 24 = 0) :
    bodyStatsQuery x t = okBytes (if bit x.block 8 then { t with stats.dev := List.replicate 12 0 } else t)
      (t.stats.dev.flatMap fun n => leBytes n 8) := by
  simp [bodyStatsQuery, statsSender, operator, device, set, whole]

end RecordBodies

/-- Settles O21: each command reaches its body, and the lemmas above say what the body answers. -/
theorem recordCommands : Obligations.RecordCommands := by
  refine ⟨?set, ?query, ?events, ?counters⟩
  case set =>
    rintro c s x t item len reached named rfl others short
    rw [← (taken_block reached.1).1] at named short ⊢
    rw [← (taken_block reached.1).2]
    refine ⟨fun empty listed => ?_, fun nonempty fits => ?_⟩
    · obtain ⟨fits, listed⟩ := Option.ne_none_iff_exists'.mp listed
      exact reaches_answers reached (bodyConfigSet_of_empty named listed others empty)
    · exact reaches_answers reached (bodyConfigSet_of_fitting named fits others rfl nonempty short)
  case query =>
    intro c s x t v reached listed stored
    exact reaches_answers reached (bodyConfigQuery_of_stored (reaches_object reached) listed stored)
  case events =>
    intro c s x t reached
    rw [← (taken_block reached.1).1]
    refine ⟨?_, ?_⟩
    · rintro operator q rfl
      exact reaches_answers reached (bodyEventRead_of_operator operator)
    · rintro other q₀ q found rfl
      exact reaches_answers reached (bodyEventRead_of_tenant other found)
  case counters =>
    intro c s x t reached operator device set whole
    rw [← (taken_block reached.1).1] at device set whole ⊢
    exact reaches_answers reached (bodyStatsQuery_of_device operator device set whole)

end Sys2Proof.Machine

namespace Sys2Proof.Machine

/-! The bodies of the session and control commands (17 R453, R456; 18 R474, R475; 19 R479, R481; 03 R529), where nothing refuses
them. -/

/-- A command that is answered, and after whose answer something goes on at once. -/
theorem reaches_answers_then {spec : CcpSpec} {c : CcpCmd} {a b : Bool} {s t u : State} {x : CcpCtx} {body : CcpBody}
    {f : State → State} {r : Reply} (h : Reaches spec c a b s x t) (hbody : body x t = { s := u, reply := some r, after := f }) :
    ccpRowOf spec body c a b s = .next (f (u.respond x.ref r)).settle := by
  rw [reaches_serve body h, hbody]

@[simp] theorem leBytes_length (v n : Nat) : (leBytes v n).length = n := by
  induction n generalizing v with
  | zero => rfl
  | succ n ih => rw [leBytes, List.length_cons, ih]

section ControlBodies

variable {x : CcpCtx} {t : State} {target : Nat}

section DeviceReset

variable (idle : t.fw.activate = none)

include idle

theorem bodyDeviceReset_of_cold (kind : bits x.block 1 0 = 0) (whole : bits x.block 13 8 = 0) :
    bodyDeviceReset x t = { s := t, reply := some ⟨0, 0, []⟩, after := State.startBoot } := by
  simp only [bodyDeviceReset, kind]
  exact checked_of_passed _ _ (firstRefuse_of_passed (by simp [whole, idle]))

theorem bodyDeviceReset_of_mgmt (kind : bits x.block 1 0 = 1) (whole : bits x.block 13 8 = 0) :
    bodyDeviceReset x t = { s := t, reply := some ⟨0, 0, []⟩, after := fun s => s.beginMgmtReset 0 } := by
  simp only [bodyDeviceReset, kind]
  exact checked_of_passed _ _ (firstRefuse_of_passed (by simp [whole, idle]))

theorem bodyDeviceReset_of_field (kind : bits x.block 1 0 = 2) (named : target = bits x.block 13 8) (field : target < 16)
    (steady : bit t.dev.fieldReset target = false) (ready : bit t.ready.field target = true) :
    bodyDeviceReset x t = { s := t, reply := some ⟨0, 0, []⟩, after := fun s => s.beginFieldReset target } := by
  subst named
  simp only [bodyDeviceReset, kind]
  exact checked_of_passed _ _ (firstRefuse_of_passed (by simp [idle, field, steady, ready]))

theorem bodyDeviceReset_of_port (kind : bits x.block 1 0 = 3) :
    bodyDeviceReset x t = { s := t, reply := some ⟨0, 0, []⟩, after := fun s => s.portReset (bits x.block 13 8) } := by
  simp only [bodyDeviceReset, kind]
  exact checked_of_passed _ _ (firstRefuse_of_passed (by simp [idle]))

end DeviceReset

theorem bodyCcpClose_eq : bodyCcpClose x t = { s := t, reply := some ⟨0, 0, []⟩, after := fun s => s.endSession x.sid } := rfl

theorem bodyMbxDrop_of_incomplete {mb : Nat} {m : Mailbox} (found : t.mailboxOf x.sid (bits x.block 15 0) = some (mb, m))
    (incomplete : m.running = false) : bodyMbxDrop x t = okBytes (t.dropMailbox mb m) [] := by
  simp only [bodyMbxDrop, found, incomplete, Bool.false_eq_true, if_false]
  rfl

theorem bodyEthSet_of_ranges {hi lo : Nat} (high : hi = if bits x.block 71 67 = 0 then 24 else bits x.block 71 67)
    (low : lo = if bits x.block 66 62 = 0 then 8 else bits x.block 66 62) (tag : bits x.block 111 100 ≠ 4095) (marks : 2 ≤ hi)
    (room : lo ≤ 30) (apart : lo < hi) :
    bodyEthSet x t = okBytes (t.putEth (bits x.block 0 0) { t.eth (bits x.block 0 0) with
      udpPort := if bits x.block 127 112 = 0 then 48620 else bits x.block 127 112
      vlan := bits x.block 111 100
      idleUnits := if bits x.block 95 80 = 0 then 894 else bits x.block 95 80
      hiMark := hi
      loMark := lo
      pfcOff := bit x.block 1 }) [] := by
  subst high low
  simp only [bodyEthSet, beq_iff_eq]
  exact checked_of_passed _ _ (firstRefuse_of_passed (by
    simp only [List.forall_mem_cons, List.not_mem_nil, false_imp_iff, implies_true, and_true]
    simp [tag, Nat.not_lt.mpr marks, Nat.not_lt.mpr room, Nat.not_le.mpr apart]))

/-- What CAPABILITY_QUERY answers behind its first word (Tables 18-5, 18-6a, 18-6b). -/
def State.capabilityRest (s : State) : List Byte :=
  ((List.range 16).flatMap fun f => leBytes (s.stationMap f) 8) ++
    ((List.range 5).flatMap fun l => leBytes (curveEntry l) 4) ++ leBytes 0 4 ++ leBytes s.fw.thermal 8 ++
    leBytes Config.identityHash.toNat 48 ++ leBytes (s.boundCount * 1792 * 2 ^ 32 + s.boundCount * 112 * 2 ^ 16 +
      s.pool.fallowF * 2 ^ 12 + b2n s.dev.initMode * 2 ^ 8 + 3) 8 ++ leBytes 0 32

theorem capabilityRest_length (s : State) : s.capabilityRest.length = 248 := by
  simp only [State.capabilityRest, List.length_append, List.length_flatMap, leBytes_length]
  rfl

theorem bodyCapabilityQuery_eq : bodyCapabilityQuery x t = okBytes t
    (leBytes ((t.fab.nodeId.getD 0) * 2 ^ 48 + t.fab.ngen * 2 ^ 44 + t.boundCount * 2 ^ 32 + t.ctl.expActive * 2 ^ 16 +
      t.ctl.expStaged) 8 ++ t.capabilityRest) := by
  simp only [bodyCapabilityQuery, State.capabilityRest, List.append_assoc]

theorem expBytes_length : expBytes.length = 1024 := by
  decide +kernel

theorem bodyExpTableQuery_eq : bodyExpTableQuery x t =
    okBytes t (leBytes (t.ctl.expActive + t.ctl.expStaged * 2 ^ 16) 8 ++ (expBytes ++ expBytes)) := by
  rw [bodyExpTableQuery, List.append_assoc]
end ControlBodies

/-- Settles O3: each command reaches its body, which lets its reset go on once its response has left. -/
theorem deviceResets : Obligations.DeviceResets := by
  refine ⟨?cold, ?mgmt, ?field, ?port⟩
  case cold =>
    intro c s x t reached kind whole idle
    rw [← (taken_block reached.1).1] at kind whole
    have row := reaches_answers_then reached (bodyDeviceReset_of_cold idle kind whole)
    exact row
  case mgmt =>
    intro c s x t reached kind whole idle
    rw [← (taken_block reached.1).1] at kind whole
    have row := reaches_answers_then reached (bodyDeviceReset_of_mgmt idle kind whole)
    exact row
  case field =>
    intro c s x t reached kind field idle steady ready
    rw [← (taken_block reached.1).1] at kind field steady ready ⊢
    have row := reaches_answers_then reached (bodyDeviceReset_of_field idle kind rfl field steady ready)
    exact row
  case port =>
    intro c s x t reached kind idle
    rw [← (taken_block reached.1).1] at kind ⊢
    have row := reaches_answers_then reached (bodyDeviceReset_of_port idle kind)
    exact row

/-- Settles O2: each command reaches its body, and the lemmas above say what the body answers. -/
theorem sessionCommands : Obligations.SessionCommands := by
  refine ⟨?close, ?drop, ?eth, ?capability, ?ready, ?table⟩
  case close =>
    intro c s x t reached
    rw [← taken_sid reached.1]
    have row := reaches_answers_then reached bodyCcpClose_eq
    exact row
  case drop =>
    intro c s x t mb m reached found incomplete
    rw [← taken_sid reached.1, ← (taken_block reached.1).1] at found
    exact reaches_answers reached (bodyMbxDrop_of_incomplete found incomplete)
  case eth =>
    intro c s x t reached tag marks room apart
    rw [← (taken_block reached.1).1] at tag marks room apart ⊢
    exact reaches_answers reached (bodyEthSet_of_ranges rfl rfl tag (by split <;> omega) (by split <;> omega) apart)
  case capability =>
    intro c s x t reached
    exact ⟨_, by rw [List.length_append, leBytes_length, capabilityRest_length],
      List.take_left' (leBytes_length _ _), reaches_answers reached bodyCapabilityQuery_eq⟩
  case ready =>
    intro c s x t reached
    exact reaches_answers reached rfl
  case table =>
    intro c s x t reached
    exact ⟨_, by rw [List.length_append, leBytes_length, List.length_append, expBytes_length],
      List.take_left' (leBytes_length _ _), reaches_answers reached bodyExpTableQuery_eq⟩

/-! The handshake of a session (17 R447, Table 17-3). -/

section Handshake

variable {s : State}

@[simp] theorem wakeByFrame_fw : s.wakeByFrame.fw = s.fw := by unfold State.wakeByFrame; split <;> rfl

@[simp] theorem wakeByFrame_out : s.wakeByFrame.out = s.out := by unfold State.wakeByFrame; split <;> rfl

theorem intakeHolds_of_managed (managed : s.ready.mgmt = true) : s.intakeHolds = false := by
  simp [State.intakeHolds, managed]

/-- A device with management up takes a message at once. -/
theorem whole_of_managed {port : Nat} {held : List CcpFrame} {go : State → State} (answers : s.ccpAnswers port = true)
    (managed : s.ready.mgmt = true) : s.whole port held go = go s.wakeByFrame := by
  rw [State.whole, answers, intakeHolds_of_managed managed]
  rfl

theorem intakeBars_of_steady (running : s.dev.halt = none) (steady : s.dev.mgmtReset = none) : s.intakeBars = none := by
  simp [State.intakeBars, running, steady]

theorem ccpHello_of_free {port ver tenant keyHash sid : Nat} {role : Role} (unbarred : s.intakeBars = none) (low : 1 ≤ ver)
    (high : ver ≤ 3) (room : s.ctl.handshakes.length < 16)
    (free : cyclicFree (fun i => s.ctl.sessions.has i || s.ctl.handshakes.has i) s.ctl.lastSession 1 0xFFFF = some sid) :
    s.ccpHello port ver role tenant keyHash = { s with
      ctl.handshakes := s.ctl.handshakes.put sid { ver, role, tenant, keyHash, due := s.dev.tick + 4194304 }
      ctl.lastSession := some sid
      out := .helloReply port sid :: s.out } := by
  have known : (ver == 0 || decide (3 < ver)) = false := by simp; omega
  rw [State.ccpHello, known, unbarred, free]
  simp only [Nat.not_le.mpr room, Bool.false_eq_true, if_false]
  rfl

/-- An operator is admitted by one of the device's operator keys, while there is room (Table 17-3 step 4). -/
theorem admitSession_of_operator {h : Handshake} (role : h.role = .operator) (room : s.ctl.sessions.length < 256)
    (few : s.ctl.sessions.count (fun v => v.role == .operator) < 16) (key : s.operatorKey h.keyHash = true) :
    s.admitSession h true = .ok s := by
  simp only [State.admitSession, role, beq_self_eq_true, Bool.true_or, Bool.and_true, key, Nat.not_le.mpr room,
    Nat.not_le.mpr few, Bool.not_true, Bool.or_self, if_false, Bool.false_eq_true]

theorem ccpFinish_of_admitted {port sid : Nat} {h : Handshake} {sigOk : Bool} {u : State} (unbarred : s.intakeBars = none)
    (found : s.ctl.handshakes.find sid = some h) (timely : s.dev.tick ≤ h.due)
    (admitted : ({ s with ctl.handshakes := s.ctl.handshakes.del sid } : State).admitSession h sigOk = .ok u) :
    s.ccpFinish port sid sigOk = (u.putSession sid
      { ver := h.ver, role := h.role, tenant := h.tenant, port, rxTop := some 0, txSeq := 1,
        idleDue := u.dev.tick + (u.eth port).idleUnits * 2 ^ 20 }).emit (.ccpResponse port 0 sid 2 0 0 ⟨0, 0, []⟩) := by
  simp only [State.ccpFinish, found, Nat.not_lt.mpr timely, if_false, unbarred, admitted]

end Handshake

theorem exec_ccpHello {s : State} {port : Nat} (ver : Nat) (role : Role) (tenant keyHash : Nat) (live : Live s) (hp : port < 2) :
    exec (.ccpHello port ver role tenant keyHash) s = .next (s.helloWhole port ver role tenant keyHash).settle :=
  effect_of_live _ (fun s => s.helloWhole port ver role tenant keyHash) live (decide_eq_true hp)

theorem exec_ccpFinish {s : State} {port : Nat} (sid : Nat) (sigOk : Bool) (live : Live s) (hp : port < 2) :
    exec (.ccpFinish port sid sigOk) s = .next (s.finishWhole port sid sigOk).settle :=
  effect_of_live _ (fun s => s.finishWhole port sid sigOk) live (decide_eq_true hp)

/-- Settles O1: with management and the key engine up each message is taken at once, and the lemmas above say what it does. -/
theorem sessionsOpen : Obligations.SessionsOpen := by
  refine ⟨?hello, ?finish⟩
  case hello =>
    intro port ver keyHash tenant sid role s hp answers managed running steady keys low high room free
    have opens := ccpHello_of_free (s := s.wakeByFrame) (port := port) (role := role) (tenant := tenant) (keyHash := keyHash)
      (intakeBars_of_steady (by rw [wakeByFrame_dev, running]) (by rw [wakeByFrame_dev, steady])) low high
      (by rw [wakeByFrame_ctl]; exact room) (by rw [wakeByFrame_ctl]; exact free)
    rw [exec_ccpHello ver role tenant keyHash (live_of_ccpAnswers answers) hp, State.helloWhole,
      whole_of_managed answers managed, wakeByFrame_ready, if_pos keys, opens]
    simp only [wakeByFrame_ctl, wakeByFrame_dev, wakeByFrame_out]
  case finish =>
    intro port sid h s hp answers managed running steady keys found timely operator room few key
    have ends := ccpFinish_of_admitted (s := s.wakeByFrame) (port := port) (h := h) (sigOk := true)
      (intakeBars_of_steady (by rw [wakeByFrame_dev, running]) (by rw [wakeByFrame_dev, steady]))
      (by rw [wakeByFrame_ctl, found]) (by rw [wakeByFrame_dev]; exact timely)
      (admitSession_of_operator operator (by rw [wakeByFrame_ctl]; exact room) (by rw [wakeByFrame_ctl]; exact few)
        (by rw [← key]; simp only [State.operatorKey, wakeByFrame_fw]))
    rw [exec_ccpFinish sid true (live_of_ccpAnswers answers) hp, State.finishWhole,
      whole_of_managed answers managed, wakeByFrame_ready, if_pos keys, ends]
    simp only [State.emit, State.putSession, State.eth, wakeByFrame_ctl, wakeByFrame_dev, wakeByFrame_out, operator]

end Sys2Proof.Machine

namespace Sys2Proof.Machine

/-! The bodies of the firmware commands (19 R487, R490, R493; 09 R236), where nothing refuses them. -/

section FirmwareBodies

variable {x : CcpCtx} {t : State} {n : Nat}

/-- A stage begins in the slot that is not in use. -/
def State.beginStage (s : State) (n : Nat) (channel : Option Nat) (cmd : CmdRef) : State :=
  { s.setSlot n { s.fw.slot n with state := .staging } with
    fw.staging := some { channel, cmd := some cmd, target := n, due := s.dev.tick + 1875000000 }
    fw.fresh := false }

@[simp] theorem setSlot_dev (s : State) (n : Nat) (v : Slot) : (s.setSlot n v).dev = s.dev := by
  unfold State.setSlot
  split <;> rfl

section Stage

variable (spare : t.fw.spareSlot = some n) (no_trial : t.fw.trial = none) (no_stage : t.fw.staging = none)
  (no_activation : t.fw.activate = none)

include spare no_trial no_stage no_activation

theorem bodyFwStage_of_card (card : bit x.block 8 = false) (channel : bits x.block 20 16 = 0) (there : t.fw.cardIn = true)
    (file : t.fw.cardFile = true) : bodyFwStage x t = heldCmd (t.beginStage n none x.ref) := by
  simp only [bodyFwStage, State.beginStage, spare, no_trial, no_stage, no_activation, card, channel, there, file, setSlot_dev,
    Option.isSome_none, Bool.or_self, Bool.not_false, Bool.and_self, bne_self_eq_false, Bool.and_false, Bool.false_eq_true,
    if_true, if_false]

theorem bodyFwStage_of_channel {k : Bulk} (chosen : bit x.block 8 = true)
    (found : t.ctl.bulk.find (bits x.block 20 16) = some k) (own : k.session = x.sid) (free : k.consumer = none) :
    bodyFwStage x t = heldCmd ((t.putBulk (bits x.block 20 16) { k with consumer := some .stage, buffer := [] }).beginStage n
      (some (bits x.block 20 16)) x.ref) := by
  simp only [bodyFwStage, State.beginStage, spare, no_trial, no_stage, no_activation, chosen, found, own, free, setSlot_dev,
    Option.isSome_none, Bool.or_self, Bool.not_true, Bool.false_and, bne_self_eq_false, Bool.false_eq_true, if_false]

end Stage

section Activate

variable (no_trial : t.fw.trial = none) (no_stage : t.fw.staging = none) (no_activation : t.fw.activate = none)

include no_trial no_stage no_activation

theorem bodyFwActivate_of_mgmt (op : bits x.block 1 0 = 0) (spare : t.fw.spareSlot = some n) (staged : t.fw.bootable n = true) :
    bodyFwActivate x t = { s := t, reply := some ⟨0, 0, []⟩, after := fun s => s.activateMgmt n } := by
  simp [bodyFwActivate, no_trial, no_stage, no_activation, op, spare, staged]

section KeyEngine

variable (keys : bits x.block 1 0 = 1 ∨ bits x.block 1 0 = 2) (target : t.fw.keTarget = some n)
  (free : t.keRefusal (bit x.block 8) = none)

include keys target free

theorem bodyFwActivate_of_alone (alone : t.pair.enabled = false ∨ t.pair.role ≠ .active) :
    bodyFwActivate x t = { s := { t with fw.activate := some (bits x.block 1 0, n, x.ref) }, reply := some ⟨0, 0, []⟩,
                           after := fun s => s.restartKeys n } := by
  have waits : (t.pair.enabled && t.pair.role == .active) = false := by
    obtain off | other := alone
    · simp [off]
    · simp [other]
  obtain op | op := keys <;> simp [bodyFwActivate, no_trial, no_stage, no_activation, op, target, free, waits]

/-- The active unit of a pair fences itself and waits for its peer (R491). -/
theorem bodyFwActivate_of_active (paired : t.pair.enabled = true) (active : t.pair.role = .active) :
    bodyFwActivate x t = heldCmd { ({ t with fw.activate := some (bits x.block 1 0, n, x.ref) } : State).fenceUnit with
      pair.handover := true, pair.peerTook := false } := by
  obtain op | op := keys <;> simp [bodyFwActivate, no_trial, no_stage, no_activation, op, target, free, paired, active]

end KeyEngine

section Commit

variable (op : bits x.block 1 0 = 3) (one_slot : t.fw.mgmtSlot = t.fw.keSlot) (version : n = (t.fw.slot t.fw.mgmtSlot).secVer)
  (newer : t.fw.fusedSec < n)

include op one_slot version newer

theorem bodyFwActivate_of_commit (allowed : (t.fw.slot (1 - t.fw.mgmtSlot)).state ≠ .bootable ∨
      n ≤ (t.fw.slot (1 - t.fw.mgmtSlot)).secVer) :
    bodyFwActivate x t = okBytes { t with fw.fusedSec := n } [] := by
  subst version
  have stays : ((t.fw.slot (1 - t.fw.mgmtSlot)).state == .bootable &&
      decide ((t.fw.slot (1 - t.fw.mgmtSlot)).secVer < (t.fw.slot t.fw.mgmtSlot).secVer)) = false := by
    obtain other | current := allowed
    · simp [other]
    · simp [Nat.not_lt.mpr current]
  simp only [bodyFwActivate, no_trial, no_stage, no_activation, op, stays]
  simp [okEmpty, one_slot.symm, Nat.not_le.mpr newer]

/-- An image below the security version that is committed fails (R490). -/
theorem bodyFwActivate_of_outdated (bootable : (t.fw.slot (1 - t.fw.mgmtSlot)).state = .bootable)
    (old : (t.fw.slot (1 - t.fw.mgmtSlot)).secVer < n) :
    bodyFwActivate x t = okBytes (({ t with fw.fusedSec := n } : State).setSlot (1 - t.fw.mgmtSlot)
      { t.fw.slot (1 - t.fw.mgmtSlot) with state := .failed }) [] := by
  subst version
  have fails : ((t.fw.slot (1 - t.fw.mgmtSlot)).state == .bootable &&
      decide ((t.fw.slot (1 - t.fw.mgmtSlot)).secVer < (t.fw.slot t.fw.mgmtSlot).secVer)) = true := by simp [bootable, old]
  simp only [bodyFwActivate, no_trial, no_stage, no_activation, op, fails]
  simp [okEmpty, one_slot.symm, Nat.not_le.mpr newer]

end Commit

end Activate

theorem bodyDebugUnlock_of_valid (signed : x.sigOk = true) (named : x.auxOk = true) :
    bodyDebugUnlock x t = okBytes { t with fw.token := true } [] := by
  simp [bodyDebugUnlock, okEmpty, signed, named]

/-- What FW_QUERY answers behind its first word (Table 19-12). -/
def Fw.images (f : Fw) : List Byte :=
  leBytes (f.slotA.imgVer * 2 ^ 8 + f.slotA.secVer) 4 ++ leBytes (f.slotB.imgVer * 2 ^ 8 + f.slotB.secVer) 4 ++
    List.replicate 20 0#8 ++ leBytes f.slotA.digest 48 ++ leBytes f.slotB.digest 48

theorem bodyFwQuery_eq : bodyFwQuery x t = okBytes t (leBytes (t.fw.fusedSec * 2 ^ 24 + t.fw.slotA.state.num * 2 ^ 16 +
    t.fw.slotB.state.num * 2 ^ 8 + b2n t.fw.trial.isSome * 4 + t.fw.keSlot * 2 + t.fw.mgmtSlot) 4 ++ t.fw.images) := by
  simp only [bodyFwQuery, Fw.images, List.append_assoc]

end FirmwareBodies

theorem taken_verdicts {spec c a b s x t} (h : Taken spec c a b s x t) : x.sigOk = a ∧ x.auxOk = b := by
  obtain ⟨-, -, -, -, -, v, mb, -, -, -, rfl, -⟩ := h
  exact ⟨rfl, rfl⟩

/-- Settles O20: each command reaches its body, and the lemmas above say what the body answers, holds or lets go on. -/
theorem firmwareCommands : Obligations.FirmwareCommands := by
  refine ⟨?card, ?channel, ?activate, ?query, ?unlock⟩
  case card =>
    intro c s x t n reached spare card channel no_trial no_stage no_activation there file
    rw [← (taken_block reached.1).1] at card channel
    exact reaches_holds reached (bodyFwStage_of_card spare no_trial no_stage no_activation card channel there file)
  case channel =>
    rintro c s x t n k reached spare chosen no_trial no_stage no_activation found own free u rfl
    rw [← (taken_block reached.1).1] at chosen found ⊢
    rw [← taken_sid reached.1] at own
    exact reaches_holds reached (bodyFwStage_of_channel spare no_trial no_stage no_activation chosen found own free)
  case activate =>
    intro c s x t reached no_trial no_stage no_activation
    rw [← (taken_block reached.1).1]
    refine ⟨fun n op spare staged => ?_, fun n target free alone => ?_, ?active, ?commit, ?outdated⟩
    · have row := reaches_answers_then reached (bodyFwActivate_of_mgmt no_trial no_stage no_activation op spare staged)
      exact row
    · have row keys := reaches_answers_then reached
        (bodyFwActivate_of_alone no_trial no_stage no_activation keys target free alone)
      refine ⟨fun op => ?_, fun op => ?_⟩
      · rw [← op]
        exact row (.inl op)
      · rw [← op]
        exact row (.inr op)
    case active =>
      rintro n u target free paired active rfl
      exact ⟨fun op => reaches_holds reached
          (bodyFwActivate_of_active no_trial no_stage no_activation (.inl op) target free paired active),
        fun op => reaches_holds reached
          (bodyFwActivate_of_active no_trial no_stage no_activation (.inr op) target free paired active)⟩
    case commit =>
      intro op one_slot newer other
      exact reaches_answers reached
        (bodyFwActivate_of_commit no_trial no_stage no_activation op one_slot rfl newer (.inl other))
    case outdated =>
      rintro n y op one_slot version newer rfl bootable
      exact ⟨fun current => reaches_answers reached
          (bodyFwActivate_of_commit no_trial no_stage no_activation op one_slot version newer (.inr current)),
        fun old => reaches_answers reached
          (bodyFwActivate_of_outdated no_trial no_stage no_activation op one_slot version newer bootable old)⟩
  case query =>
    intro c s x t reached
    exact ⟨t.fw.images, reaches_answers reached bodyFwQuery_eq⟩
  case unlock =>
    intro c s x t reached
    obtain ⟨signed, named⟩ := taken_verdicts reached.1
    exact reaches_answers reached (bodyDebugUnlock_of_valid signed named)

end Sys2Proof.Machine

namespace Sys2Proof.Machine

/-! The bodies of the port and routing commands (12 R346; 13 R370, R372), where nothing refuses them. -/

@[simp] theorem port_putPort (s : State) (p : Nat) (q : Port) : (s.putPort p q).port p = q := by
  simp [State.port, State.putPort, Tbl.findD]

@[simp] theorem port_modPort (s : State) (p : Nat) (f : Port → Port) : (s.modPort p f).port p = f (s.port p) :=
  port_putPort ..

theorem modPort_congr {s : State} {p : Nat} {f g : Port → Port} (same : f (s.port p) = g (s.port p)) :
    s.modPort p f = s.modPort p g := by
  rw [State.modPort, State.modPort, same]

section Lowering

variable {s : State} {p : Nat}

theorem lowerW_of_fitting (fits : (s.port p).st = .up → (s.port p).w ≤ (s.port p).wMax) (steady : (s.port p).st ≠ .retrain) :
    s.lowerW p = s := by
  have narrow : ((s.port p).st == .up && decide ((s.port p).wMax < (s.port p).w)) = false := by
    simpa using fits
  simp [State.lowerW, narrow, steady]

/-- A port that retrains comes back with no more lanes than it may have (log 199). -/
theorem lowerW_of_retraining {lanes : Nat} (retraining : (s.port p).st = .retrain) (most : (s.port p).wMax = lanes) :
    s.lowerW p = s.modPort p fun q => { q with nextW := some (min lanes (q.nextW.getD q.w)) } := by
  subst most
  simp only [State.lowerW, retraining, show (PortSt.retrain == .up) = false from rfl, Bool.false_and, Bool.false_eq_true,
    if_false, beq_self_eq_true, if_true]
  exact modPort_congr rfl

theorem lowerW_of_wide (up : (s.port p).st = .up) (wide : (s.port p).wMax < (s.port p).w) :
    s.lowerW p = s.retrain p (s.port p).wMax false := by
  simp [State.lowerW, up, wide]

end Lowering

/-- What PORT_SET writes into a port (Table 12-8), where `top` is the most lanes of the mode. -/
def Port.set (b top : Nat) (q : Port) : Port := { q with
  replayTo := orDefault (bits b 63 56) 20, ackTimer := orDefault (bits b 55 48) 20
  ackEvery := orDefault (bits b 45 36) 64, replayLim := orDefault (bits b 35 32) 4
  wMax := orDefault (bits b 31 28) top, mode := bits b 17 16, enable := bit b 8 }

section PortBodies

variable {x : CcpCtx} {t : State} {p top : Nat}

section Set

variable (named : p = bits x.block 5 0) (known : bits x.block 17 16 < 2) (acks : bits x.block 45 36 ≤ 512)
  (lanes : top = if bits x.block 17 16 = 0 then 8 else 4) (fits : bits x.block 31 28 ≤ top)

include named known acks lanes fits

theorem bodyPortSet_of_ranges : bodyPortSet x t = okBytes
    (if bits x.block 17 16 != (t.port p).mode || bit x.block 8 != (t.port p).enable then
      if bit x.block 8 then (((t.portDown p 4).modPort p (Port.set x.block top)).modPort p fun q => { q with st := .down }).darkNow p
      else ((t.portDown p 4).modPort p (Port.set x.block top)).modPort p fun q => { q with st := .down }
    else (t.modPort p (Port.set x.block top)).lowerW p) [] := by
  subst named lanes
  have eight : bits x.block 31 28 ≤ 8 := by split at fits <;> omega
  simp only [bodyPortSet, beq_iff_eq]
  refine checked_of_passed _ _ (firstRefuse_of_passed ?_)
  simp [Nat.not_lt.mpr acks, Nat.not_lt.mpr eight, Nat.not_le.mpr known, Nat.not_lt.mpr fits]

theorem bodyPortSet_of_same (mode : bits x.block 17 16 = (t.port p).mode) (enable : bit x.block 8 = (t.port p).enable) :
    bodyPortSet x t = okBytes ((t.modPort p (Port.set x.block top)).lowerW p) [] := by
  rw [bodyPortSet_of_ranges named known acks lanes fits]
  simp [mode, enable]

section Changed

variable (changed : bits x.block 17 16 ≠ (t.port p).mode ∨ bit x.block 8 ≠ (t.port p).enable)

include changed

theorem bodyPortSet_of_disabling (off : bit x.block 8 = false) : bodyPortSet x t = okBytes
    (((t.portDown p 4).modPort p (Port.set x.block top)).modPort p fun q => { q with st := .down }) [] := by
  have differs : (bits x.block 17 16 != (t.port p).mode || bit x.block 8 != (t.port p).enable) = true := by simpa using changed
  rw [bodyPortSet_of_ranges named known acks lanes fits, differs, off]
  rfl

theorem bodyPortSet_of_enabling (on : bit x.block 8 = true) : bodyPortSet x t = okBytes
    ((((t.portDown p 4).modPort p (Port.set x.block top)).modPort p fun q => { q with st := .down }).darkNow p) [] := by
  have differs : (bits x.block 17 16 != (t.port p).mode || bit x.block 8 != (t.port p).enable) = true := by simpa using changed
  rw [bodyPortSet_of_ranges named known acks lanes fits, differs, on]
  rfl

end Changed

end Set

/-- What PORT_QUERY answers behind the state and the lanes of a port (R346, log 29). -/
def Port.counts (q : Port) (refused : Nat) : List Byte :=
  ([q.tNs, q.crcFails, q.replayN, q.retrains] ++ (q.downs.drop 1).take 6 ++ [q.security, q.idleDisc] ++ q.fec ++
    [refused]).flatMap fun n => leBytes n 8

theorem bodyPortQuery_of_port (object : x.object = p) (port : p < 64) : bodyPortQuery x t = okBytes t
    (leBytes (t.port p).st.code 8 ++ leBytes (t.port p).w 8 ++ (t.port p).counts (t.stats.portRef.findD p 0)) := by
  subst object
  have found : firstRefuse [(decide (63 < x.object), rObject)] = none := firstRefuse_of_passed (by simp; omega)
  rw [bodyPortQuery, checked_of_passed _ _ found]
  simp [Port.counts]

end PortBodies

/-- Settles O16: each command reaches its body, and the lemmas above say what the body answers. -/
theorem portCommands : Obligations.PortCommands := by
  refine ⟨?set, ?query⟩
  case set =>
    rintro c s x t p q top new reached named rfl known acks lanes fits rfl
    rw [← (taken_block reached.1).1] at named known acks lanes fits ⊢
    refine ⟨fun mode enable => ?_, fun changed => ⟨fun off => ?_, fun on => ?_⟩⟩
    · have body := bodyPortSet_of_same named known acks lanes fits mode enable
      refine ⟨fun fitting => ?_, fun retraining => ?_, fun up wide => ?_⟩
      · rw [lowerW_of_fitting (by rw [port_modPort]; rintro (up : (t.port p).st = .up); exact (fitting.resolve_left (by simp [up])).2)
          (by rw [port_modPort]; rintro (re : (t.port p).st = .retrain); simp [re] at fitting)] at body
        exact reaches_answers reached body
      · rw [lowerW_of_retraining (by rw [port_modPort]; exact retraining) (by rw [port_modPort])] at body
        exact reaches_answers reached body
      · rw [lowerW_of_wide (by rw [port_modPort]; exact up) (by rw [port_modPort]; exact wide), port_modPort] at body
        exact reaches_answers reached body
    · exact reaches_answers reached (bodyPortSet_of_disabling named known acks lanes fits changed off)
    · exact reaches_answers reached (bodyPortSet_of_enabling named known acks lanes fits changed on)
  case query =>
    intro c s x t reached port
    exact ⟨_, reaches_answers reached (bodyPortQuery_of_port (reaches_object reached) port)⟩

section RouteBodies

variable {x : CcpCtx} {t : State} {n first bk : Nat} {es : List Nat}

/-- The entries of a bank once ROUTE_SET has put its own from a node on (R370); one without candidates is taken out. -/
def putRoutes (first : Nat) (es : List Nat) (entries : Tbl Nat) : Tbl Nat :=
  es.zipIdx.foldl (fun (tb : Tbl Nat) (y : Nat × Nat) =>
    if bits y.1 30 28 == 0 then tb.del (first + y.2) else tb.put (first + y.2) y.1) entries

theorem bodyRouteSet_of_quiet (count : n = bits x.block 39 32 + 1) (from_node : first = bits x.block 63 48)
    (bank : bk = x.block % 2) (entries : es = (List.range n).map fun i => bits x.block (32 * i + 95) (32 * i + 64))
    (legal : ∀ e ∈ es, bit e 31 = false ∧ bits e 30 28 ≤ 4 ∧ (bits e 30 28 = 0 ∨ bit e 6 = true)) (inside : first + n ≤ 65536)
    (free : (t.bank bk).quiet = true ∨ (t.bank bk).opened = true) :
    bodyRouteSet x t = okBytes (t.putBank bk { t.bank bk with
      opened := true, quiet := false, entries := putRoutes first es (t.bank bk).entries }) [] := by
  subst count from_node bank entries
  have zeros : (((List.range (bits x.block 39 32 + 1)).map fun i => bits x.block (32 * i + 95) (32 * i + 64)).any (bit · 31)) =
      false := by
    rw [List.any_eq_false]
    intro e he
    simp [(legal e he).1]
  have ranges : (((List.range (bits x.block 39 32 + 1)).map fun i => bits x.block (32 * i + 95) (32 * i + 64)).any
      fun e => decide (4 < bits e 30 28) || (bits e 30 28 != 0 && !bit e 6)) = false := by
    rw [List.any_eq_false]
    intro e he
    obtain ⟨-, few, chosen⟩ := legal e he
    simpa [Nat.not_lt.mpr few] using fun h => chosen.resolve_left h
  have last : ¬ 65535 < bits x.block 63 48 + (bits x.block 39 32 + 1) - 1 := by omega
  have unbarred : ((t.bank (x.block % 2)).quiet || (t.bank (x.block % 2)).opened) = true := by simpa using free
  refine checked_of_passed _ _ (firstRefuse_of_passed ?_)
  simp only [List.forall_mem_cons, zeros, ranges, last, unbarred, decide_false, Bool.or_self, Bool.not_true,
    List.not_mem_nil, false_imp_iff, implies_true, and_self]

theorem bodyRouteEpoch_of_other {e : Nat} {u v w : State} (named : e = x.block % 2) (other : e ≠ t.fab.epoch)
    (timed : u = { t with fab.escWait := orDefault (bits x.block 15 8) 100 })
    (left : v = u.putBank u.fab.epoch { u.bank u.fab.epoch with lastUse := t.dev.tick, quiet := false })
    (turned : w = { v with fab.epoch := e }) :
    bodyRouteEpoch x t = okBytes (w.putBank e { w.bank e with opened := false, quiet := false }) [] := by
  subst named timed left turned
  simp [bodyRouteEpoch, okEmpty, other]

end RouteBodies

/-- Settles O17: each command reaches its body, and the lemmas above say what the body answers. -/
theorem routeCommands : Obligations.RouteCommands := by
  refine ⟨?set, ?epoch, ?query, ?group⟩
  case set =>
    intro c s x t n first bk es reached count from_node bank entries legal inside free
    rw [← (taken_block reached.1).1] at count from_node bank entries
    exact reaches_answers reached (bodyRouteSet_of_quiet count from_node bank entries legal inside free)
  case epoch =>
    intro c s x t e reached named other u timed v left w turned
    rw [← (taken_block reached.1).1] at named timed
    exact reaches_answers reached (bodyRouteEpoch_of_other named other timed left turned)
  case query =>
    intro c s x t reached
    exact ⟨_, reaches_answers reached (by rw [bodyRouteQuery, List.flatMap_cons])⟩
  case group =>
    intro c s x t reached
    rw [← (taken_block reached.1).1]
    exact reaches_answers reached rfl

end Sys2Proof.Machine

namespace Sys2Proof.Machine

/-! The bodies of the power, sleep and pair commands (15 R409, R422; 16 R425), where nothing refuses them. -/

section PowerBodies

variable {x : CcpCtx} {t : State}

theorem bodyPowerSet_of_ranges (cap : bits x.block 127 117 = 0 ∨ 600 ≤ bits x.block 127 117 ∧ bits x.block 127 117 ≤ 1400)
    (share : bits x.block 78 72 ≤ 100) (issue : bits x.block 70 64 ≤ 64) (memory : bits x.block 63 57 ≤ 64)
    (order : bits x.block 56 54 ≤ 5) (level : bits x.block 53 51 ≤ 4)
    (floors : pbFloorC x.block + pbFloorM x.block + pbFloorL x.block + 80 ≤ pbCap x.block) :
    bodyPowerSet x t = okBytes ((({ t with
      pwr.next := some x.block, pwr.plMax := bits x.block 53 51, pwr.droopLvl := 0, pwr.persisted := false,
      pwr.fault := false } : State).sendMeta (.power x.block)).relevel) [] := by
  have inside : (bits x.block 127 117 != 0 && (decide (bits x.block 127 117 < 600) || decide (1400 < bits x.block 127 117))) =
      false := by
    simp only [Bool.and_eq_false_iff, bne_eq_false_iff_eq, Bool.or_eq_false_iff, decide_eq_false_iff_not]
    omega
  refine checked_of_passed _ _ (firstRefuse_of_passed ?_)
  simp only [List.forall_mem_cons, inside, decide_eq_false (Nat.not_lt.mpr share), decide_eq_false (Nat.not_lt.mpr issue),
    decide_eq_false (Nat.not_lt.mpr memory), decide_eq_false (Nat.not_lt.mpr order), decide_eq_false (Nat.not_lt.mpr level),
    decide_eq_false (Nat.not_lt.mpr floors), Bool.or_self, List.not_mem_nil, false_imp_iff, implies_true, and_self]

/-- What POWER_QUERY answers behind the level and its bound (R409). -/
def State.powerRest (s : State) : List Byte :=
  ([b2n s.pwr.fault, pbCap s.pwr.block] ++ s.pwr.budgets ++ [s.pwr.ests.getD 3 0] ++ s.pwr.ests.take 3 ++
    (s.pwr.rails.flatMap fun r => [r.2.k, r.2.m, b2n r.2.frozen]) ++ [s.pwr.issue] ++ ((List.range 16).map s.stackRate) ++
    ((List.range 64).map fun p => (s.port p).w) ++ [s.pwr.droops, s.pwr.thermals, s.pwr.grazes, s.pwr.isoShorts]).flatMap
      fun n => leBytes n 8

theorem bodyPowerQuery_eq :
    bodyPowerQuery x t = okBytes t (leBytes t.pwr.level 8 ++ leBytes t.pwr.plMax 8 ++ t.powerRest) := by
  simp only [bodyPowerQuery, State.powerRest, List.cons_append, List.nil_append, List.flatMap_cons, List.append_assoc]

section Sleep

variable (unbarred : t.sleepBarred = false) (awake : t.pwr.sleep = .active)

include unbarred awake

/-- A device that nothing keeps awake answers, and then sleeps (R422). -/
theorem bodySleepEnter_of_active (four : Bool) (kind : bits x.block 2 0 = if four then 4 else 3) :
    bodySleepEnter x t = { s := t, reply := some ⟨0, 0, []⟩, after := fun s => s.goSleep four } := by
  cases four <;>
  · simp only [bodySleepEnter, kind, if_true, if_false, Bool.false_eq_true]
    exact checked_of_passed _ _ (firstRefuse_of_passed (by simp [unbarred, awake]))

end Sleep

theorem bodySleepEnter_of_waking (kind : bits x.block 2 0 = 0) (asleep : t.pwr.sleep ≠ .active) :
    bodySleepEnter x t = okBytes t [] := by
  simp [bodySleepEnter, kind, asleep, okEmpty]

section PairSet

variable {ports : Nat} (named : ports = bits x.block 255 192) (some_port : 1 ≤ popcount ports 64) (few : popcount ports 64 ≤ 4)
  (witness : bits x.block 159 144 ≠ 0) (long : bits x.block 127 112 ≠ 1) (short : bits x.block 127 112 ≤ 64)
  (unrouted : ∀ k, k = t.fab.bank0 ∨ k = t.fab.bank1 →
    (k.entries.any fun e => (entryCands e.2).any fun y => bit ports y.2) = false)
  (ungrouped : (t.fab.groups.any fun g => g.2.2 && (List.range 64).any fun p => bit g.2.1 p && bit ports p) = false)

/-- A unit with the stored block in force, that waits for an active peer (R425, log 98). -/
def State.withPair (s : State) (b : Nat) : State :=
  ({ s with
      pair.block := b, pair.enabled := true, pair.waitDue := some (s.dev.tick + 1562500)
      fw.config := s.fw.config.put 0x40 (leBytes b 128) } : State).setPortReady 0 (bit s.ready.port 0)

/-- A unit whose pair has ended, with its block stored (R425). -/
def State.withoutPair (s : State) (b : Nat) : State :=
  ({ s with pair := { block := b }, fw.config := s.fw.config.put 0x40 (leBytes b 128) } : State).setPortReady 0
    (bit s.ready.port 0)

include named some_port few witness long short unrouted ungrouped

theorem bodyPairSet_of_ranges (allowed : ((bit x.block 0 && t.pair.enabled) || (!bit x.block 0 && t.pair.role == .active &&
      t.pool.extents.any fun e => e.2.state == .enabled && bit e.2.desc 8)) = false) :
    bodyPairSet x t = okBytes
      (if bit x.block 0 then
        if bit x.block 2 then ({ t.withPair x.block with pair.waitDue := none } : State).claimLease else t.withPair x.block
       else if !t.pair.enabled then t
       else ((t.pairSend .fence 0x75).2.releaseMirrors true).withoutPair x.block) [] := by
  subst named
  have some_bit : (popcount (bits x.block 255 192) 64 == 0) = false := beq_false_of_ne (by omega)
  refine (checked_of_passed _ _ (firstRefuse_of_passed ?_)).trans ?_
  · simp only [List.forall_mem_cons, some_bit, decide_eq_false (Nat.not_lt.mpr few), beq_false_of_ne witness,
      beq_false_of_ne long, decide_eq_false (Nat.not_lt.mpr short), unrouted t.fab.bank0 (.inl rfl),
      unrouted t.fab.bank1 (.inr rfl), ungrouped, allowed, Bool.or_self, List.not_mem_nil, false_imp_iff, implies_true,
      and_self]
  · split
    · rfl
    · split
      · rfl
      · generalize (t.pairSend .fence 0x75).2.releaseMirrors true = left
        rfl

end PairSet

/-- A unit that is not the active one, or mirrors no extent, may leave its pair (R425). -/
theorem stays_mirrored_eq_false (t : State) (free : t.pair.role ≠ .active ∨
      (t.pool.extents.any fun e => e.2.state == .enabled && bit e.2.desc 8) = false) :
    (t.pair.role == .active && t.pool.extents.any fun e => e.2.state == .enabled && bit e.2.desc 8) = false := by
  obtain other | unmirrored := free
  · simp [other]
  · rw [unmirrored, Bool.and_false]

end PowerBodies

/-- Settles O19: each command reaches its body, and the lemmas above say what the body answers or lets go on. -/
theorem powerCommands : Obligations.PowerCommands := by
  refine ⟨?set, ?query, ?sleepSet, ?sl3, ?sl4, ?wake, ?pairQuery, ?pairSet⟩
  case set =>
    intro c s x t reached cap share issue memory order level floors
    rw [← (taken_block reached.1).1] at cap share issue memory order level floors ⊢
    exact reaches_answers reached (bodyPowerSet_of_ranges cap share issue memory order level floors)
  case query =>
    intro c s x t reached
    exact ⟨t.powerRest, reaches_answers reached bodyPowerQuery_eq⟩
  case sleepSet =>
    intro c s x t reached
    rw [← (taken_block reached.1).1]
    exact reaches_answers reached rfl
  case sl3 =>
    intro c s x t reached kind unbarred awake
    rw [← (taken_block reached.1).1] at kind
    have row := reaches_answers_then reached (bodySleepEnter_of_active unbarred awake false kind)
    exact row
  case sl4 =>
    intro c s x t reached kind unbarred awake
    rw [← (taken_block reached.1).1] at kind
    have row := reaches_answers_then reached (bodySleepEnter_of_active unbarred awake true kind)
    exact row
  case wake =>
    intro c s x t reached kind asleep
    rw [← (taken_block reached.1).1] at kind
    exact reaches_answers reached (bodySleepEnter_of_waking kind asleep)
  case pairQuery =>
    intro c s x t reached
    exact reaches_answers reached rfl
  case pairSet =>
    intro c s x t ports reached named some_port few witness long short unrouted ungrouped
    rw [← (taken_block reached.1).1] at named witness long short ⊢
    have body := bodyPairSet_of_ranges named some_port few witness long short unrouted ungrouped
    refine ⟨?_, fun off unpaired free => ?_, ?_⟩
    · rintro u on unpaired rfl
      have enables := body (by rw [unpaired, on]; rfl)
      rw [on, if_pos rfl] at enables
      refine ⟨fun waits => ?_, fun claims => ?_⟩
      · rw [waits] at enables
        exact reaches_answers reached enables
      · rw [claims] at enables
        exact reaches_answers reached enables
    · have stays := body (by rw [off, Bool.not_false, Bool.true_and, stays_mirrored_eq_false t free]; rfl)
      rw [off, unpaired] at stays
      exact reaches_answers reached stays
    · intro u v off paired free left ended
      have ends := body (by rw [off, Bool.not_false, Bool.true_and, stays_mirrored_eq_false t free]; rfl)
      rw [off, paired, if_neg Bool.false_ne_true, Bool.not_true, if_neg Bool.false_ne_true, ← left] at ends
      rw [ended]
      exact reaches_answers reached ends

end Sys2Proof.Machine

namespace Sys2Proof.Machine

/-! The state after reset (19 Table 19-4). -/

theorem reset_sane : Sane State.reset :=
  ⟨nofun, Memory.wf_nil, ⟨Nat.zero_le _, nofun⟩, Nat.zero_le _, Nat.zero_le _, by decide⟩

theorem reset_quiet : Quiet State.reset := ⟨rfl, by decide +kernel⟩

/-- Settles O56: what reset leaves is written in `State.reset`, and nothing in it is left to follow. -/
theorem resetState : Obligations.ResetState :=
  ⟨reset_sane, reset_quiet, rfl, rfl, rfl, rfl, rfl, rfl, rfl, rfl, rfl, rfl, rfl, rfl, rfl, rfl, rfl, fun _ => rfl, rfl, rfl, rfl, rfl⟩

end Sys2Proof.Machine

namespace Sys2Proof.Machine

/-! Every row of the table (18 Table 18-6, 13 Table 13-1; 21 R517, log 19): what a well-formed command does is an effect on a unit
that the device has. -/

section Units

/-- What a command does is an effect of the device, which a dead one leaves out. -/
def Acts (i : Instr) : Prop := ∃ f : State → State, ∀ s, exec i s = effect true f s

theorem acts_of_unit {i : Instr} {ok : Bool} {f : State → State} (row : ∀ s, exec i s = effect ok f s) (there : ok = true) :
    Acts i :=
  ⟨f, there ▸ row⟩

/-- What a check finds of a command and then of more it finds of the command (00 R7). -/
theorem left_wf {a b : Bool} (wf : (a && b) = true) : a = true := (Bool.and_eq_true_iff.mp wf).left

theorem command_port {c : CcpCmd} (wf : c.wf = true) : decide (c.port < 2) = true := by
  simp only [CcpCmd.wf, Bool.and_eq_true, and_assoc] at wf
  exact wf.left

theorem packet_port {p : Packet} (wf : p.wf = true) : decide (p.port < 64) = true := by
  simp only [Packet.wf, Bool.and_eq_true, and_assoc] at wf
  exact wf.left

theorem frame_port {f : CcpFrame} (wf : f.wf = true) : decide (f.port < 2) = true := by
  simp only [CcpFrame.wf, Bool.and_eq_true, and_assoc] at wf
  exact wf.left

/-- The unit that a well-formed command names is one of the device's (00 Table 0-1). -/
theorem acts_of_wf {i : Instr} (wf : i.wf = true) (reset : i ≠ .resetNAssert) (boot : ∀ b, i ≠ .coldBoot b)
    (loss : i ≠ .vddAonLoss) (card : i ≠ .sdCardRemoval) : Acts i := by
  cases i with
  -- The table of commands (18 Table 18-6): a command fits its frame, and some the operand of their row too.
  | ccpClose | mbxDrop | ethSet | capabilityQuery | readyQuery | expTableQuery | tenantCreate | tenantDelete |
    tenantSessionEnd | tenantEvict | keyRotate | setLoad | setDelete | weightImportBegin | weightImportEnd |
    weightImportBind | reserveSet | capacityQuery | spaceCreate | spaceDelete | extentCreate | extentEnable |
    extentDelete | extentQuery | extentReclaim | extentMap | extentUnmap | l2Partition | commonCreate | commonEnable |
    commonDelete | dirPartition | streamCreate | streamCloseCcp | streamAbortCcp | streamPriority | formatLoad |
    vectorProgLoad | windowCreate | windowEnable | windowAbort | windowRetire | windowDelete | windowQuery | seqCreate |
    seqEnable | seqTruncate | seqDisable | seqDelete | seqQuery | portSet | portQuery | routeSet | routeEpoch |
    routeQuery | mcastSet | schedSet | arbSet | cadenceSet | histQuery | powerSet | powerQuery | sleepSet | pairQuery |
    fwStage | fwQuery | configSet | configQuery | debugUnlock | eventRead | statsQuery | memErrLog | mowSet | bulkOpen |
    bulkClose | bulkStatus =>
    exact acts_of_unit (fun _ => rfl) (command_port wf)
  | deviceResetCold | deviceResetMgmt | deviceResetField | deviceResetPort | spdmGetVersion | spdmGetCapabilities |
    spdmNegotiateAlgorithms | spdmGetDigests | spdmGetCertificate | spdmChallenge | spdmGetMeasurements | admitIdentity
    | admitWithdraw | policeSetMeter | policeSetProfile | isolateSetEnable | isolateSetDisable | sleepEnterSl3 |
    sleepEnterSl4 | sleepEnterWake | pairSetEnable | pairSetDisable | fwActivateMgmt | fwActivateKe | fwActivateBoth |
    fwActivateCommitSec | checkerTestArm | checkerTestWrite | checkerTestRead | checkerTestRelease | rankRetireNow |
    rankRetireClear | stackDiagRead | stackDiagRun | stackDiagReadClear =>
    exact acts_of_unit (fun _ => rfl) (command_port (left_wf wf))
  -- Packets (13 Table 13-1), with what some carry.
  | streamOpen | streamClose | streamAbort | tile | resultRead | pageFetch | pageStore | pageCheckout | pageCheckin |
    versionOpen | versionDraft | versionClose | versionCommit | versionDiscard | lineReadS | lineReadX | lineUpgrade |
    lineWriteback | snpData | snpClean | snpNotPresent | completion | linkSessionClose | mcastWrite | leaseCompletion =>
    exact acts_of_unit (fun _ => rfl) (packet_port wf)
  | fetchAdd | fetchFaddx | cas | swap | fetchMin | fetchMax | fetchUmin | fetchUmax | barrierArrive | lockAcquire |
    lockRelease | linkSessionOpen | pairMirror | pairFence =>
    exact acts_of_unit (fun _ => rfl) (packet_port (left_wf wf))
  | pairMeta | pairBeat =>
    exact acts_of_unit (fun _ => rfl) (packet_port (left_wf (left_wf wf)))
  | pairFetch | pairCopy =>
    exact acts_of_unit (fun _ => rfl) (packet_port (left_wf (left_wf (left_wf wf))))
  | packetForward => exact acts_of_unit (fun _ => rfl) (packet_port ((Bool.and_eq_true_iff.mp wf).right))
  -- Events that name no unit.
  | leaseRenewTimer | leaseLapse | pairSilence | pairBeatSend | mirrorTimeout | pairPeerWaitExpiry | resyncCopyDone |
    packetAgeOut | fenceHoldAgeOut | escapeWaitExpiry | reachabilityTimeout | tileFinalWriteDone | extentTileIssue |
    streamIdleTimeout | streamReleaseTimeout | ledgerContribution | ledgerFinalWriteDone | windowIdleTimeout |
    queryScoreRelease | splitFinish | seqHoldRelease | cadencePeriodEnd | recallTimeout | draftWritesDrained |
    refusalMarkInForce | revocationSlowExpiry | snoopTimeout | writebackRecordExpiry | lostHolderSweep |
    identInvalidationInForce | populationDone | populationWaitExpiry | keySlotErase | sessionEndSlowExpiry |
    rotationRewriteDone | weightChunk | sessionIdBarExpiry | rankErrorWindowEnd | migrationGranuleCopied | policeRefill
    | histDepthSample | powerPeriod | linkPowerDecision | pmbusTelemetry | droopClampLift | droopWindowEnd |
    thermalReading | pllLock | regulatorVdone | regulatorAckTimeout | pfcPauseExpiry | handshakeTimeout |
    fragmentTimeout | bulkChannelIdle | ccpSessionIdle | eventNoticeSend | keyEngineBootDone | mgmtStart |
    mgmtRestartDone | keyEngineWatchdog | refclkLoss | fwStageDone | fwStageTimeout | mgmtRunningReport | fwTrialTimeout
    | keActivationDone | pmbAlertEdge | leaseClaimRetry =>
    exact acts_of_unit (fun _ => rfl) rfl
  -- Events of a unit: its number comes first.
  | portLightDetect | portTrainingTimeout | psKem | psFinish | portSessionTimeout | flitSend | ackTimerExpiry |
    replayTimeout | retrainDone | retrainTimeout | rekeyStart | keyNext | keyNextKem | downPatternRx | alignmentLoss |
    laserFaultAlarm | laserLightLoss | portDownHoldExpiry | bankQuiet | stepWatchdogExpiry | fenceStateMoved |
    granuleZeroed | caParityError | accessAgeLimit | refreshDue | stackTemperatureRead | stackSelfRefreshEntry |
    stackSelfRefreshExit | stackInitDone | pgenRunDone | readTracking | retrainSliceTimer | droopTrip | stationSl1Idle |
    fieldSl2Idle | domainWakeReady | wakeEvent | intakeFifoRead | pfcRepeatTimer | ethLinkUp | mgmtWatchdogExpiry |
    pmbusClockTimeout | ethLinkDown =>
    exact acts_of_unit (fun _ => rfl) wf
  | ccpFinish | portTrainingDone | psHello | dataFlitRx | idleFlitRx | downNotice | trainingStepDone |
    mirrorFetchTimeout | stationCeilingUpdate | ethFrameRx | stationTestDone | fieldResetDone =>
    exact acts_of_unit (fun _ => rfl) (left_wf wf)
  | linkParams | translationWalkDone | mowRead =>
    exact acts_of_unit (fun _ => rfl) (left_wf (left_wf wf))
  | ccpHello | outstandingEntryExpiry | tileStepEnd | sectorReadDone | sectorWriteDone =>
    exact acts_of_unit (fun _ => rfl) (left_wf (left_wf (left_wf wf)))
  | rangeInvalidationAck => exact acts_of_unit (fun _ => rfl) ((Bool.and_eq_true_iff.mp wf).right)
  | ccpFragment | bulkFrame => exact acts_of_unit (fun _ => rfl) (frame_port wf)
  -- What also acts on a dead device (log 19).
  | resetNAssert => exact absurd rfl reset
  | coldBoot b => exact absurd rfl (boot b)
  | vddAonLoss => exact absurd rfl loss
  | sdCardRemoval => exact absurd rfl card

/-- An effect completes, and a dead device leaves it out. -/
theorem acts_completes {i : Instr} (acts : Acts i) (s : State) :
    (∃ t, exec i s = .next t) ∧ (s.dead = true → exec i s = .next s) := by
  obtain ⟨f, row⟩ := acts
  rw [row s]
  exact ⟨⟨s.after f, rfl⟩, fun dead => by simp [effect, State.after, dead]⟩

end Units

/-- Settles O53: four commands act on a dead device too, and complete; every other is an effect. -/
theorem everyCommandCompletes : Obligations.EveryCommandCompletes := by
  refine ⟨fun i s wf => ?completes, fun i s wf dead reset boot loss card =>
    (acts_completes (acts_of_wf wf reset boot loss card) s).2 dead⟩
  by_cases reset : i = .resetNAssert
  · subst reset
    exact ⟨_, rfl⟩
  by_cases boot : ∃ b, i = .coldBoot b
  · obtain ⟨b, rfl⟩ := boot
    exact ⟨_, rfl⟩
  by_cases loss : i = .vddAonLoss
  · subst loss
    exact ⟨_, rfl⟩
  by_cases card : i = .sdCardRemoval
  · subst card
    exact ⟨_, rfl⟩
  · exact (acts_completes (acts_of_wf wf reset (fun b same => boot ⟨b, same⟩) loss card) s).1

end Sys2Proof.Machine

namespace Sys2Proof.Machine

/-! Power and policing by the clock (14 R383, R400; 15 R407, R410, R412, R416 to R418; 21 R522). -/

/-- A row of a unit that the device has leaves what its event does, and what follows from it. -/
theorem event_leaves {i : Instr} {s t : State} {ok : Bool} {f : State → State} (live : Live s) (row : exec i s = effect ok f s)
    (there : ok = true) (does : f s = t) : exec i s = .next t.settle := by
  rw [row, effect_of_live ok f live there, does]

section PowerPeriod

variable {s : State} {m : PowerSample} {b cap fixed ex d issue mean fl₂ : Nat} {fl bud₀ bud compute : List Nat} {rails : Tbl Rail}

/-- A period in which no tenant is isolated, the floors fit under the cap, and a domain gives what the links use above their
budget (R410, R411, R415). -/
theorem powerPeriod_of_giver (block : b = s.pwr.next.getD s.pwr.block) (bound : cap = 1000 * pbCap b) (floors : fl = pbFloors b)
    (estimated : rails = s.pwr.rails.zipIdx.map fun x =>
      (x.1.1, { x.1.2 with ests := (m.rails.getD x.2 0 :: x.1.2.ests).take 100 }))
    (fixes : fixed = m.fixed + sumOf (rails.zipIdx.map fun x => railExtra cap x.1.2 (m.rails.getD x.2 0)))
    (together : s.sch.iso = []) (fits : fixed + sumOf fl ≤ cap)
    (divided : bud₀ = divide (pbOrder b) fl m.demand (cap - fixed - sumOf fl))
    (excess : ex = m.estimate.getD 0 0 - bud₀.getD 0 0)
    (giver : (pbOrder b).reverse.find? (fun d => d != 0 && decide (fl.getD d 0 < bud₀.getD d 0)) = some d)
    (budgets : bud = listSet bud₀ d (max (fl.getD d 0) (bud₀.getD d 0 - ex)))
    (issues : issue = largestFit (fun n => computeAt m n ≤ bud.getD 2 0) 64)
    (computes : compute = (m.estimate.getD 2 0 :: s.pwr.compute).take 10) (average : mean = sumOf compute / compute.length)
    (floor : fl₂ = if pbGrazeOff b then 0 else
      min (bud.getD 2 0) (max (pbPct b * mean / 100) (m.estimate.getD 2 0 - 1000 * pbSlope b))) :
    s.powerPeriod m = { s with
      pwr.block := b, pwr.next := none, pwr.rails := rails, pwr.ests := m.estimate ++ [m.fixed], pwr.budgets := bud
      pwr.issue := issue, pwr.rate := largestFit (fun n => m.demand.getD 1 0 * n / 64 ≤ bud.getD 1 0) 64
      pwr.compute := compute, pwr.floor := fl₂, pwr.isoShort := false
      pwr.grazes := if m.idle ≤ fl₂ ∧ computeAt m issue < fl₂ then s.pwr.grazes + 1 else s.pwr.grazes } := by
  have low : decide (cap < fixed + sumOf fl) = false := decide_eq_false (Nat.not_lt.mpr fits)
  subst floor average computes issues budgets
  simp only [State.powerPeriod, together, List.isEmpty_nil, Bool.not_true, Bool.false_and, Bool.not_false, Bool.true_or,
    Bool.true_and, Bool.false_eq_true, if_false, ← block, ← bound, ← floors, ← estimated, ← fixes, low, ← divided, ← excess, giver,
    Bool.and_eq_true, decide_eq_true_eq]

end PowerPeriod

section Links

variable {s u : State} {est tot bud : Nat} {l : List Nat} (together : s.sch.iso = []) (drawn : est ≠ 0) (order : l = s.byFlits)
  (total : tot = sumOf (l.map fun p => (s.port p).w)) (budget : bud = s.pwr.budgets.getD 0 0)
  (counted : u = { s with ports := s.ports.each fun _ q => { q with flitsMs := 0 } })

include together drawn order total budget counted

theorem linkDecision_of_excess (above : bud < est) :
    s.linkDecision est = ((l.filter fun p => decide (1 < (s.port p).w)).take (ceilDiv ((est - bud) * tot) est)).foldl
      (fun u p => u.retrain p ((u.port p).w - 1) false) u := by
  have decides : (!s.sch.iso.isEmpty || est == 0) = false := by simp [together, drawn]
  subst order total budget counted
  simp only [State.linkDecision, decides, above, if_true, if_false, Bool.false_eq_true]

theorem linkDecision_of_room (under : est ≤ bud) :
    s.linkDecision est = ((l.reverse.filter fun p => decide ((s.port p).w < reachW (s.port p).mode (s.port p).wMax (s.port p).tNs
      ((s.port p).ackTimer * 10))).take ((bud - est) * tot / est)).foldl
        (fun u p => u.retrain p ((u.port p).w + 1) false) u := by
  have decides : (!s.sch.iso.isEmpty || est == 0) = false := by simp [together, drawn]
  subst order total budget counted
  simp only [State.linkDecision, decides, Nat.not_lt.mpr under, if_false, Bool.false_eq_true]

end Links

section Rails

variable {s : State} {i : Nat} {r : Rail} (found : s.pwr.rails.find i = some r) (trusted : r.frozen = false)

include found trusted

/-- A read that fails leaves the reading as it is and counts as one that disagrees (R407, R522). -/
theorem railRead_of_failure (few : r.disagree + 1 < 100) :
    s.railRead i none = { s with pwr.rails := s.pwr.rails.put i { r with disagree := r.disagree + 1, agree := 0 } } := by
  simp [State.railRead, found, trusted, Nat.not_le.mpr few]

theorem railRead_of_last_failure (many : 100 ≤ r.disagree + 1) :
    s.railRead i none = ({ s with
      pwr.rails := s.pwr.rails.put i { r with disagree := r.disagree + 1, agree := 0, frozen := true } } : State).recOp
        0x0702 12 i (r.m / 1000) 1 := by
  simp [State.railRead, found, trusted, many]

end Rails

section Droop

variable {s u : State}

theorem ceilingUpdate_eq {n k c : Nat} (limit : c = min (s.capRate n) (min 64 (ceilDiv k 8 * 8 + 8))) :
    s.ceilingUpdate n k = s.putStation n { s.station n with ceiling := if s.pwr.clamp = 0 then c else min 16 c } := by
  subst limit
  simp only [State.ceilingUpdate, State.modStation, beq_iff_eq]

theorem droopWindow_of_few (few : s.pwr.window ≤ 8) : s.droopWindow = { s with pwr.window := 0 } := by
  rw [State.droopWindow, if_pos few]

/-- More than eight droops in a window lower the level by one (R417). -/
theorem droopWindow_of_many (many : 8 < s.pwr.window)
    (lowered : u = { s with pwr.window := 0, pwr.droopLvl := min 4 (s.pwr.level + 1), pwr.persisted := true }) :
    s.droopWindow = (u.recAll 0x0703 0 0 0 u.wantLevel 0 0 0 u.wantLevel).relevel := by
  subst lowered
  rw [State.droopWindow, if_neg (Nat.not_le.mpr many)]

end Droop

section Heat

variable {s u : State} {c : Int} {n : Nat → Nat}

/-- The readings of each level, after one more, that are at least 3 °C below its limit (R418). -/
def State.coolCount (s : State) (c : Int) (p : Nat) : Nat :=
  if p < 4 ∧ c ≤ s.levelLimit p - 3 then min 10 (s.pwr.coolReads.getD p 0 + 1) else 0

theorem coolNext_eq (s : State) (c : Int) :
    s.coolNext c = [s.coolCount c 0, s.coolCount c 1, s.coolCount c 2, s.coolCount c 3] := by
  simp [State.coolNext, State.coolCount, List.range_succ]

/-- Above level 3 there is nothing to count. -/
theorem coolCounts_getD (s : State) (c : Int) (j : Nat) :
    [s.coolCount c 0, s.coolCount c 1, s.coolCount c 2, s.coolCount c 3].getD j 0 = s.coolCount c j := by
  match j with
  | 0 | 1 | 2 | 3 => rfl
  | j + 4 => exact (if_neg fun low => absurd low.left (by omega)).symm

/-- Whether a level and all down to the present limit have had their ten readings. -/
theorem all_cool_iff (s : State) (p : Nat) :
    ((List.range s.pwr.thermal).all fun j => decide (j < p) || decide (10 ≤ s.pwr.coolReads.getD j 0)) = true ↔
      ∀ j, p ≤ j → j < s.pwr.thermal → 10 ≤ s.pwr.coolReads.getD j 0 := by
  simp only [List.all_eq_true, List.mem_range, Bool.or_eq_true, decide_eq_true_eq]
  exact ⟨fun h j low high => (h j high).resolve_left (Nat.not_lt.mpr low),
    fun h j high => (Nat.lt_or_ge j p).imp id fun low => h j low high⟩

theorem coolLevel_of_first {l : Nat} (low : l < s.pwr.thermal)
    (cool : ∀ j, l ≤ j → j < s.pwr.thermal → 10 ≤ s.pwr.coolReads.getD j 0)
    (warm : 0 < l → s.pwr.coolReads.getD (l - 1) 0 < 10) : s.coolLevel = l := by
  have found : ((List.range s.pwr.thermal).find? fun p =>
      (List.range s.pwr.thermal).all fun j => decide (j < p) || decide (10 ≤ s.pwr.coolReads.getD j 0)) = some l := by
    rw [List.find?_range_eq_some]
    refine ⟨(all_cool_iff s l).mpr cool, List.mem_range.mpr low, fun j below => ?_⟩
    rw [Bool.not_eq_true', Bool.eq_false_iff]
    intro earlier
    have last := (all_cool_iff s j).mp earlier (l - 1) (by omega) (by omega)
    have above := warm (by omega)
    omega
  rw [State.coolLevel, found, Option.getD_some]

theorem coolLevel_of_none (warm : s.pwr.thermal = 0 ∨ s.pwr.coolReads.getD (s.pwr.thermal - 1) 0 < 10) :
    s.coolLevel = s.pwr.thermal := by
  have missing : ((List.range s.pwr.thermal).find? fun p =>
      (List.range s.pwr.thermal).all fun j => decide (j < p) || decide (10 ≤ s.pwr.coolReads.getD j 0)) = none := by
    refine List.find?_eq_none.mpr fun p hp cool => ?_
    have below : p < s.pwr.thermal := List.mem_range.mp hp
    have last := (all_cool_iff s p).mp cool (s.pwr.thermal - 1) (by omega) (by omega)
    omega
  rw [State.coolLevel, missing, Option.getD_none]

/-- What a reading at or below the highest limit leaves (R418). -/
theorem thermalReading_of_safe (safe : c ≤ ((bits s.fw.thermal 63 56 : Nat) : Int)) (counts : u = { s with
      pwr.coolReads := [s.coolCount c 0, s.coolCount c 1, s.coolCount c 2, s.coolCount c 3] }) :
    s.thermalReading c = if s.pwr.thermal < s.allowed c then u.setThermal (s.allowed c) c
      else if u.coolLevel < s.pwr.thermal then u.setThermal u.coolLevel c else u := by
  subst counts
  rw [State.thermalReading, if_neg (Int.not_lt.mpr safe), coolNext_eq]

end Heat

/-- Settles O46: each row is what its event does and what follows; the lemmas above say, event by event, which branch the state
takes. -/
theorem powerEvents : Obligations.PowerEvents := by
  refine ⟨?refill, ?depths, ?period, ?links, ?telemetry, ?rail, ?ceiling, ?trip, ?lift, ?window, ?heat, ?alert⟩
  case refill => exact fun s live => event_leaves live rfl rfl rfl
  case depths =>
    rintro s one live rfl
    exact event_leaves live rfl rfl rfl
  case period =>
    intro s m b cap fl rails fixed bud₀ ex d bud issue compute mean fl₂ live block bound floors estimated fixes together fits
      divided excess giver budgets issues computes average floor
    exact event_leaves live rfl rfl (powerPeriod_of_giver block bound floors estimated fixes together fits divided excess giver
      budgets issues computes average floor)
  case links =>
    intro s est l tot bud u live together drawn order total budget counted
    exact ⟨fun above => event_leaves live rfl rfl (linkDecision_of_excess together drawn order total budget counted above),
      fun under => event_leaves live rfl rfl (linkDecision_of_room together drawn order total budget counted under)⟩
  case telemetry => exact fun s l live => event_leaves live rfl rfl rfl
  case rail =>
    intro s i r live hi found
    exact ⟨fun trusted few => event_leaves live rfl (decide_eq_true hi) (railRead_of_failure found trusted few),
      fun trusted many => event_leaves live rfl (decide_eq_true hi) (railRead_of_last_failure found trusted many)⟩
  case ceiling =>
    intro s n k c live hn limit
    exact event_leaves live rfl (decide_eq_true hn) (ceilingUpdate_eq limit)
  case trip => exact fun s f live hf => event_leaves live rfl (decide_eq_true hf) rfl
  case lift => exact fun s live => event_leaves live rfl rfl rfl
  case window =>
    intro s u live
    exact ⟨fun few => event_leaves live rfl rfl (droopWindow_of_few few),
      fun many lowered => event_leaves live rfl rfl (droopWindow_of_many many lowered)⟩
  case heat =>
    intro s c live
    refine ⟨fun hot => event_leaves live rfl rfl (by rw [State.thermalReading, if_pos hot]), ?_⟩
    intro safe n u counted counts
    obtain rfl : n = s.coolCount c := counted
    have reading := thermalReading_of_safe safe counts
    have reads j : u.pwr.coolReads.getD j 0 = s.coolCount c j := by rw [counts]; exact coolCounts_getD s c j
    have limit : u.pwr.thermal = s.pwr.thermal := by rw [counts]
    refine ⟨fun above => ?_, fun under l low cool warm => ?_, fun under warm => ?_⟩
    · rw [if_pos above] at reading
      exact event_leaves live rfl rfl reading
    · have first : u.coolLevel = l := coolLevel_of_first (by rwa [limit])
        (fun j above below => by rw [reads]; exact cool j above (limit ▸ below)) (fun some_below => by rw [reads]; exact warm some_below)
      rw [if_neg (Nat.not_lt.mpr under), first, if_pos low] at reading
      exact event_leaves live rfl rfl reading
    · have none_cool : u.coolLevel = s.pwr.thermal := limit ▸ coolLevel_of_none (by rw [limit, reads]; exact warm)
      rw [if_neg (Nat.not_lt.mpr under), none_cool, if_neg (Nat.lt_irrefl _)] at reading
      exact event_leaves live rfl rfl reading
  case alert => exact fun s live => event_leaves live rfl rfl rfl

end Sys2Proof.Machine

namespace Sys2Proof.Machine

/-! Levels and sleep by the clock (15 R404, R405, R420 to R423). -/

section Levels

variable {s u : State} {c : LevelChange} (changing : s.pwr.change = some c)

include changing

section Locks

variable (unlocked : c.locked = false)

include unlocked

theorem pllLock_of_lowering (lower : s.pwr.level < c.target) (answers : s.pwr.fault = false) :
    s.pllLock = ({ s with pwr.level := c.target } : State).writeVolt { c with locked := true } := by
  simp [State.pllLock, changing, unlocked, lower, answers]

/-- With a regulator at fault the voltage stays as it is (R405). -/
theorem pllLock_of_fault (lower : s.pwr.level < c.target) (fault : s.pwr.fault = true) :
    s.pllLock = ({ s with pwr.level := c.target } : State).levelDone := by
  simp [State.pllLock, changing, unlocked, lower, fault]

theorem pllLock_of_raising (higher : c.target ≤ s.pwr.level) : s.pllLock = s.raise { c with locked := true } := by
  simp [State.pllLock, changing, unlocked, Nat.not_lt.mpr higher]

end Locks

section Writes

variable (written : c.written = true)

include written

theorem vdone_of_lowered (holds : u = { s with pwr.held := voltOf c.target }) (there : s.pwr.level = c.target) :
    s.vdone = u.levelDone := by
  subst holds
  simp [State.vdone, changing, written, there]

theorem vdone_of_raising (holds : u = { s with pwr.held := voltOf c.target }) (elsewhere : s.pwr.level ≠ c.target) :
    s.vdone = u.raise { c with written := false, acked := true } := by
  subst holds
  simp [State.vdone, changing, written, elsewhere]

theorem ackTimeout_of_few (few : c.tries < 3) : s.ackTimeout = s.writeVolt c := by
  simp [State.ackTimeout, changing, written, few]

theorem ackTimeout_of_many (many : 3 ≤ c.tries) :
    s.ackTimeout = (({ s with pwr.fault := true, pwr.change := none } : State).recOp 0x0701 12 0 s.pwr.held
      (voltOf c.target)).relevel := by
  simp [State.ackTimeout, changing, written, Nat.not_lt.mpr many]

end Writes

end Levels

section Idle

variable {s u : State} {n f : Nat}

theorem sl1Idle_of_idle {x : Station} (here : x = s.station n) (allowed : bit s.pwr.sleepSet 0 = false)
    (serving : s.inService n = true) (ungranted : x.granted = none) (free : x.run = none) (awake : x.sl1 = false)
    (asleep : u = s.putStation n { x with sl1 := true, waking := !x.work.isEmpty }) :
    s.sl1Idle n = if (List.range 9).all (fun i => !u.inService (9 * (n / 9) + i) || (u.station (9 * (n / 9) + i)).sl1) = true then
      { u with stn.fieldIdle := u.stn.fieldIdle.put (n / 9) s.dev.tick } else u := by
  subst here asleep
  have sleeps : (bit s.pwr.sleepSet 0 || !s.inService n || (s.station n).granted.isSome || (s.station n).run.isSome ||
      (s.station n).sl1) = false := by
    simp [allowed, serving, ungranted, free, awake]
  simp only [State.sl1Idle, sleeps, Bool.false_eq_true, if_false]
  rfl

theorem sl2Idle_of_idle {d : Nat} (allowed : bit s.pwr.sleepSet 1 = false) (unclamped : s.pwr.clamp = 0)
    (awake : bit s.stn.sl2 f = false)
    (stations : ∀ i < 9, s.inService (9 * f + i) = true →
      (s.station (9 * f + i)).sl1 = true ∧ (s.station (9 * f + i)).waking = false)
    (since : s.stn.fieldIdle.find f = some d)
    (due : 2 * d + 3125 * orDefault (bits s.pwr.sleepSet 31 24) 1 ≤ 2 * s.dev.tick) :
    s.sl2Idle f = { s with stn.sl2 := setBit s.stn.sl2 f true } := by
  have all_sleep : ((List.range 9).all fun i => !s.inService (9 * f + i) ||
      ((s.station (9 * f + i)).sl1 && !(s.station (9 * f + i)).waking)) = true := by
    rw [List.all_eq_true]
    intro i hi
    cases serving : s.inService (9 * f + i) with
    | false => rfl
    | true => simp [stations i (List.mem_range.mp hi) serving]
  simp [State.sl2Idle, allowed, unclamped, awake, all_sleep, since, due]

theorem wakeStation_of_waking (asleep : (s.station n).sl1 = true) (waking : (s.station n).waking = true)
    (field : bit s.stn.sl2 (n / 9) = false) :
    s.wakeStation n = { s.stationReady n with stn.fieldIdle := s.stn.fieldIdle.del (n / 9) } := by
  simp [State.wakeStation, asleep, waking, field]

theorem wakeField_of_waking (asleep : bit s.stn.sl2 f = true) (waking : bit s.stn.waking f = true) :
    s.wakeField f = (List.range 9).foldl (fun (u : State) i => u.stationReady (9 * f + i))
      { s with stn.sl2 := setBit s.stn.sl2 f false, stn.waking := setBit s.stn.waking f false
               stn.fieldIdle := s.stn.fieldIdle.del f } := by
  simp [State.wakeField, asleep, waking]

section Device

theorem none_wakes (left : ∀ x ∈ s.stk.units, x.2.selfRef = .none ∧ ∀ q ∈ x.2.pchs, q.2.fullDue = false) :
    (s.stk.units.any fun x => x.2.wakes) = false := by
  rw [List.any_eq_false]
  intro x hx
  obtain ⟨awake, trained⟩ := left x hx
  simpa [Stack.wakes, awake] using fun a q hq => trained (a, q) hq

variable (waking : s.pwr.sleep = .waking) (running : s.dev.halt = none)
  (left : ∀ x ∈ s.stk.units, x.2.selfRef = .none ∧ ∀ q ∈ x.2.pchs, q.2.fullDue = false)

include waking running left

theorem wakeDevice_of_managed (managed : s.ready.mgmt = true) :
    s.wakeDevice = ({ s with pwr.sleep := .active } : State).releaseWaiting := by
  simp only [State.wakeDevice, waking, running, none_wakes left, managed, Option.isSome_none, bne_self_eq_false, Bool.or_self,
    Bool.not_true, Bool.false_and, Bool.or_false, Bool.false_eq_true, if_false]
  rw [← managed]

/-- From SL4 management starts again, without the segments that were not retained (R424, 10 R296). -/
theorem wakeDevice_of_unmanaged (unmanaged : s.ready.mgmt = false) (steady : s.dev.mgmtReset = none) :
    s.wakeDevice = ({ s.dropSegments with pwr.sleep := .active, ready.mgmt := true } : State).releaseWaiting := by
  simp only [State.wakeDevice, waking, running, none_wakes left, unmanaged, steady, Option.isSome_none, Option.isNone_none,
    bne_self_eq_false, Bool.or_self, Bool.not_false, Bool.and_self, Bool.or_true, Bool.false_eq_true, if_false, if_true]

end Device

theorem wakeByFrame_of_halted (halted : s.dev.halt ≠ none) : s.wakeByFrame = s := by
  simp [State.wakeByFrame, Option.isSome_iff_ne_none.mpr halted]

theorem wakeByFrame_of_asleep (asleep : s.pwr.sleep = .sl3 ∨ s.pwr.sleep = .sl4) (running : s.dev.halt = none) :
    s.wakeByFrame = { s with
      pwr.sleep := .waking, pwr.wakeTick := s.dev.tick
      stk.units := s.stk.units.each fun _ (x : Stack) =>
        if x.selfRef == SelfRefresh.entering then { x with selfRef := .none } else x } := by
  have sleeps : (s.dev.halt.isSome || (s.pwr.sleep != .sl3 && s.pwr.sleep != .sl4)) = false := by
    obtain three | four := asleep
    · simp [running, three]
    · simp [running, four]
  rw [State.wakeByFrame, sleeps]
  rfl

end Idle

/-- Settles O47: each row is what its event does and what follows; the lemmas above say, event by event, which branch the state
takes. -/
theorem levelEvents : Obligations.LevelEvents := by
  refine ⟨?lock, ?regulator, ?station, ?field, ?stationWakes, ?fieldWakes, ?device, ?halted, ?source⟩
  case lock =>
    intro s c live changing unlocked
    exact ⟨fun lower answers => event_leaves live rfl rfl (pllLock_of_lowering changing unlocked lower answers),
      fun lower fault => event_leaves live rfl rfl (pllLock_of_fault changing unlocked lower fault),
      fun higher => event_leaves live rfl rfl (pllLock_of_raising changing unlocked higher)⟩
  case regulator =>
    intro s c u live changing written holds
    exact ⟨fun there => event_leaves live rfl rfl (vdone_of_lowered changing written holds there),
      fun elsewhere => event_leaves live rfl rfl (vdone_of_raising changing written holds elsewhere),
      fun few => event_leaves live rfl rfl (ackTimeout_of_few changing written few),
      fun many => event_leaves live rfl rfl (ackTimeout_of_many changing written many)⟩
  case station =>
    intro s n x u live hn here allowed serving ungranted free awake asleep
    exact event_leaves live rfl (decide_eq_true hn) (sl1Idle_of_idle here allowed serving ungranted free awake asleep)
  case field =>
    intro s f d live hf allowed unclamped awake stations since due
    exact event_leaves live rfl (decide_eq_true hf) (sl2Idle_of_idle allowed unclamped awake stations since due)
  case stationWakes =>
    intro s n live hn asleep waking field
    exact event_leaves live rfl (decide_eq_true hn) (wakeStation_of_waking asleep waking field)
  case fieldWakes =>
    intro s f live hf asleep waking
    exact event_leaves live rfl (decide_eq_true hf) (wakeField_of_waking asleep waking)
  case device =>
    intro s live waking running left
    exact ⟨fun managed => event_leaves live rfl rfl (wakeDevice_of_managed waking running left managed),
      fun unmanaged steady => event_leaves live rfl rfl (wakeDevice_of_unmanaged waking running left unmanaged steady)⟩
  case halted =>
    intro s p live halted
    have stays := wakeByFrame_of_halted halted
    refine ⟨fun hp => event_leaves live rfl (decide_eq_true hp) stays, fun hp => event_leaves live rfl (decide_eq_true hp) ?_⟩
    exact (ite_congr rfl (fun _ => stays) fun _ => rfl).trans (ite_self _)
  case source =>
    intro s p u live asleep running woken
    have wakes := wakeByFrame_of_asleep asleep running
    rw [← woken] at wakes
    refine ⟨fun hp light => ?_, fun hp => event_leaves live rfl (decide_eq_true hp) wakes, fun hp up => ?_⟩
    · refine event_leaves live rfl (decide_eq_true hp) ((if_pos light).trans ?_)
      rw [wakes, woken]
      rfl
    · exact event_leaves live rfl (decide_eq_true hp) ((if_pos up).trans wakes)

end Sys2Proof.Machine

namespace Sys2Proof.Machine

/-! Frames (17 R442, R443, R446, R450, R454, R455, R458; 19 R479): an Ethernet frame, what is taken from the intake FIFO, fragments
and bulk bytes. -/

section Ethernet

variable {s u : State} {p : Nat} {f : EthFrame} {e : EthPort}

@[simp] theorem eth_wakeByFrame (s : State) (p : Nat) : s.wakeByFrame.eth p = s.eth p := by
  simp only [State.eth, wakeByFrame_ctl]

/-- Whether a frame is an attestation request that finds management down (15 R424). -/
def State.findsBusy (s : State) (f : EthFrame) : Bool :=
  s.attestBusy f.ccp.opcode && (f.ccp.ftype == 0 || (f.ccp.ftype == 2 && f.ccp.tagOk &&
    (s.ctl.sessions.find f.ccp.session).any (·.ver == f.ccp.ccpVer)))

theorem ethFrame_of_own (here : e = s.eth p) (up : e.up = true) (udp : f.kind = 0) (sound : f.fcsOk = true) (tag : f.vlan = e.vlan)
    (address : f.dstIp ∈ e.ips) (mac : f.dstMac = e.mac) (port : f.udpPort = e.udpPort) (long : 32 ≤ f.udpLen)
    (woken : u = s.wakeByFrame) :
    s.ethFrame p f = if u.findsBusy f then
      if f.ccp.frag = 0 then u.intakeAnswer p f.pcp f.ccp.session f.ccp.opcode f.ccp.cmdId 0x0603 else u
      else u.fifoIn p f := by
  subst here woken
  simp [State.ethFrame, State.findsBusy, up, udp, sound, tag, address, mac, port, long]

theorem fifoIn_of_room (here : e = u.eth p) (room : e.fifo.length < 32) :
    u.fifoIn p f = (u.putEth p { e with fifo := e.fifo ++ [{ f.ccp with
      port := p, cls := f.pcp, rsvd := if f.udpLen = ccpLen f.ccp then f.ccp.rsvd else 1 }] }).fifoMarks p := by
  subst here
  simp only [State.fifoIn, Nat.not_le.mpr room, if_false, beq_iff_eq]

theorem fifoIn_of_full (full : 32 ≤ (u.eth p).fifo.length) : u.fifoIn p f = u.countDev 4 := by
  simp only [State.fifoIn, full, if_true]

theorem ethFrame_of_foreign (up : (s.eth p).up = true) (udp : f.kind = 0)
    (foreign : f.fcsOk = false ∨ f.vlan ≠ (s.eth p).vlan ∨ f.dstIp ∉ (s.eth p).ips ∨ f.dstMac ≠ (s.eth p).mac ∨
      f.udpPort ≠ (s.eth p).udpPort ∨ f.udpLen < 32) : s.ethFrame p f = s.countDev p := by
  have other : (true && (f.fcsOk && f.vlan == (s.eth p).vlan && (s.eth p).ips.contains f.dstIp) &&
      f.dstMac == (s.eth p).mac && f.udpPort == (s.eth p).udpPort && decide (32 ≤ f.udpLen)) = false := by
    rw [Bool.eq_false_iff]
    intro own
    simp only [Bool.and_eq_true, beq_iff_eq, List.contains_iff_mem, decide_eq_true_eq] at own
    obtain ⟨⟨⟨⟨-, ⟨sound, tag⟩, address⟩, mac⟩, port⟩, long⟩ := own
    simp only [sound, tag, address, mac, port, not_true_eq_false, ne_eq, Nat.not_lt.mpr long, or_self, Bool.true_eq_false] at foreign
  simp only [State.ethFrame, up, udp, Bool.not_true, Bool.false_eq_true, if_false, Nat.reduceBEq, Bool.or_self, other]

/-- ARP and neighbour requests for the port are answered (R442). -/
theorem ethFrame_of_request (up : (s.eth p).up = true) (kind : f.kind = 1 ∨ f.kind = 2) (sound : f.fcsOk = true)
    (tag : f.vlan = (s.eth p).vlan) (address : f.dstIp ∈ (s.eth p).ips) : s.ethFrame p f = s.emit (.ethAnswer p f.kind) := by
  obtain kind | kind := kind
  · simp [State.ethFrame, up, kind, sound, tag, address]
  · simp [State.ethFrame, up, kind, sound, tag, address]

theorem fifoRead_of_next {g : CcpFrame} (taken : s.intakeHolds = false) (next : nextFrame (s.eth p).fifo = some g) :
    s.fifoRead p = ((s.putEth p { s.eth p with fifo := (s.eth p).fifo.erase g }).fifoMarks p).takeCcp g := by
  simp only [State.fifoRead, taken, next, Bool.false_eq_true, if_false]

theorem ethUp_of_configured (running : s.dev.phase = .running) (configured : s.fw.live.has (0x10 + p) = true) :
    s.ethUp p = (s.putEth p { s.eth p with up := true }).setEthReady p (!(s.eth p).ips.isEmpty) := by
  simp [State.ethUp, running, configured]

end Ethernet

section Sessions

variable {s : State} {f : CcpFrame} {v w x : Session}

/-- A frame of a session that the window lets pass moves the window and the idle limit (R446, R448). -/
theorem takeCcp_of_session (answers : s.ccpAnswers f.port = true) (managed : s.ready.mgmt = true) (sound : frameBad f = false)
    (session : 2 ≤ f.ftype) (found : s.ctl.sessions.find f.session = some v) (version : f.ccpVer = v.ver)
    (tagged : f.tagOk = true) (next : seqIn v f.seq = some w) (early : f.seq ≠ 2 ^ 32 - 1)
    (touched : x = { w with port := f.port, idleDue := s.dev.tick + (s.eth f.port).idleUnits * 2 ^ 20 }) :
    s.takeCcp f = if f.ftype = 2 then (s.putSession f.session x).commandIn f x
      else if s.dev.mgmtReset.isSome then s.putSession f.session x
      else (s.putSession f.session x).bulkIn f := by
  have serves : s.takeCcp f = s.sessionIn f := by
    have free : (!s.ccpAnswers f.port || s.intakeHolds) = false := by simp [answers, intakeHolds_of_managed managed]
    simp only [State.takeCcp, free, sound, Bool.false_eq_true, if_false]
    split
    · omega
    · omega
    · rfl
  have valid : (f.ccpVer != v.ver || !f.tagOk) = false := by simp [version, tagged]
  have more : (f.seq == 2 ^ 32 - 1) = false := beq_false_of_ne early
  have touch : (s.putSession f.session w).touchSession f.session f.port = s.putSession f.session x := by
    simp only [State.touchSession, State.putSession, Tbl.find_put_same, Tbl.put_put, touched]
    rfl
  have there : (s.putSession f.session x).ctl.sessions.find f.session = some x := Tbl.find_put_same ..
  rw [serves, State.sessionIn, found]
  simp only [valid, next, more, Bool.false_eq_true, if_false, touch, there, beq_iff_eq]
  rfl

end Sessions

section Fragments

variable {s u : State} {f : CcpFrame} {x y : Session} {mb : Nat} {m n : Mailbox}

/-- A fragment that fits fills its mailbox, and the last one begins its command (R450, R452). -/
theorem fragIn_of_fitting (fits : fragFits f = true) (opcode : f.opcode = m.opcode) (total : f.total = m.total)
    (new : m.frags.has f.frag = false)
    (filled : n = { m with frags := m.frags.put f.frag f.body, port := f.port, cls := f.cls, due := s.dev.tick + 1048576 }) :
    s.fragIn f mb m x = if n.frags.length = max 1 (ceilDiv n.total 8192) then (s.putMailbox mb n).beginWhole mb n x
      else s.putMailbox mb n := by
  subst filled
  simp only [State.fragIn, fits, opcode, total, new, bne_self_eq_false, Bool.not_true, Bool.or_self, Bool.false_eq_true, if_false,
    beq_iff_eq]

section Commands

variable (unbarred : s.intakeBars = none)

include unbarred

theorem commandIn_of_begun (found : s.mailboxOf f.session f.cmdId = some (mb, m)) (open_box : m.running = false) :
    s.commandIn f x = s.fragIn f mb m x := by
  simp only [State.commandIn, unbarred, found, open_box, Bool.false_eq_true, if_false]

/-- The first fragment of a command takes a mailbox (R450). -/
theorem commandIn_of_new (none_yet : s.mailboxOf f.session f.cmdId = none)
    (new : isNewCmd x f.cmdId = true ∨ x.cmds.find f.cmdId = some .again) (free : s.freeMailbox f.session = some mb)
    (entered : y = { acceptCmd x f.cmdId with cmds := x.cmds.put f.cmdId .mailbox })
    (empty : m = { session := f.session, cmdId := f.cmdId, opcode := f.opcode, port := f.port, cls := f.cls, total := f.total }) :
    s.commandIn f x = ((s.putSession f.session y).putMailbox mb m).fragIn f mb m y := by
  have accepts : (isNewCmd x f.cmdId || x.cmds.find f.cmdId == some .again) = true := by simpa using new
  have keeps : (acceptCmd x f.cmdId).cmds = x.cmds := rfl
  subst entered empty
  simp only [State.commandIn, unbarred, none_yet, accepts, if_true, free, keeps]

end Commands

end Fragments

section Bulk

variable {s u : State} {f : CcpFrame} {k : Bulk} (found : s.ctl.bulk.find f.cmdId = some k) (own : k.session = f.session)

include found own

/-- Bulk bytes that fit are taken, by a stage at once, and acknowledged where enough have come (R458, R459). -/
theorem bulkIn_of_fitting {y : Nat} (first : f.first = true) (last : f.last = true) (whole : f.frag = 0) (some_bytes : 1 ≤ f.length)
    (offset : f.bulkOff = k.offset) (inside : k.offset + f.length ≤ k.bytes) (room : k.buffer.length + f.length ≤ 262144)
    (moved : y = k.offset + f.length)
    (taken : u = { s.putBulk f.cmdId { k with
        offset := y, buffer := if k.consumer = some .stage then [] else k.buffer ++ f.body
        sinceAck := (k.sinceAck + f.length) % 65536, due := s.dev.tick + 16777216 } with
      fw.staging := if k.consumer = some .stage then s.fw.staging.map (·.take f.body) else s.fw.staging }) :
    s.bulkIn f = State.setLoadGo (if 65536 ≤ k.sinceAck + f.length ∨ y = k.bytes then
      u.bulkAck f.port f.session f.cmdId y else u) f.cmdId := by
  have mine : ((s.ctl.bulk.find f.cmdId).filter fun k => k.session == f.session) = some k := by simp [found, own]
  have fits : (f.first && f.last && f.frag == 0 && decide (1 ≤ f.length) && f.bulkOff == k.offset &&
      decide (k.offset + f.length ≤ k.bytes) && decide (k.buffer.length + f.length ≤ 262144)) = true := by
    simp [first, last, whole, some_bytes, offset, inside, room]
  subst moved taken
  by_cases stage : k.consumer = some .stage <;>
    simp only [State.bulkIn, mine, fits, stage, if_true, if_false, beq_iff_eq, Bool.or_eq_true, decide_eq_true_eq] <;> rfl

/-- Others are discarded, and the offset that is wanted is told, but not too often (R459). -/
theorem bulkIn_of_discarded (wrong : f.first = false ∨ f.last = false ∨ f.frag ≠ 0 ∨ f.length = 0 ∨ f.bulkOff ≠ k.offset ∨
      k.bytes < k.offset + f.length ∨ 262144 < k.buffer.length + f.length) (counted : u = s.countDev (2 + f.port)) :
    s.bulkIn f = if k.nakTick.all fun t => t + 64 ≤ s.dev.tick then
      (u.putBulk f.cmdId { k with nakTick := some s.dev.tick }).bulkAck f.port f.session f.cmdId k.offset else u := by
  have mine : ((s.ctl.bulk.find f.cmdId).filter fun k => k.session == f.session) = some k := by simp [found, own]
  have misfits : (f.first && f.last && f.frag == 0 && decide (1 ≤ f.length) && f.bulkOff == k.offset &&
      decide (k.offset + f.length ≤ k.bytes) && decide (k.buffer.length + f.length ≤ 262144)) = false := by
    rw [Bool.eq_false_iff]
    intro fits
    simp only [Bool.and_eq_true, beq_iff_eq, decide_eq_true_eq] at fits
    obtain ⟨⟨⟨⟨⟨⟨first, last⟩, whole⟩, some_bytes⟩, offset⟩, inside⟩, room⟩ := fits
    simp only [first, last, whole, offset, ne_eq, not_true_eq_false, Bool.true_eq_false, false_or] at wrong
    omega
  subst counted
  simp only [State.bulkIn, mine, misfits, Bool.false_eq_true, if_false]
  rfl

end Bulk

/-- Whether a whole command has come is whether the payload fits one fragment (R450). -/
theorem one_fragment_iff (n : Nat) : 1 = max 1 (ceilDiv n 8192) ↔ n ≤ 8192 := by
  unfold ceilDiv
  omega

section Obligation

variable {s u : State} {f : CcpFrame} {x y : Session}

theorem commandIn_of_new_fitting {mb : Nat} {m : Mailbox} (unbarred : s.intakeBars = none)
    (none_yet : s.mailboxOf f.session f.cmdId = none)
    (new : isNewCmd x f.cmdId = true ∨ x.cmds.find f.cmdId = some .again) (free : s.freeMailbox f.session = some mb)
    (fits : fragFits f = true)
    (filled : m = { session := f.session, cmdId := f.cmdId, opcode := f.opcode, port := f.port, cls := f.cls, total := f.total
                    frags := [(f.frag, f.body)], due := s.dev.tick + 1048576 })
    (entered : y = { acceptCmd x f.cmdId with cmds := x.cmds.put f.cmdId .mailbox })
    (stored : u = (s.putSession f.session y).putMailbox mb m) :
    (s.putSession f.session x).commandIn f x = if f.total ≤ 8192 then u.beginWhole mb m y else u := by
  have twice : (((s.putSession f.session x).putSession f.session y).putMailbox mb
      { session := f.session, cmdId := f.cmdId, opcode := f.opcode, port := f.port, cls := f.cls, total := f.total }).putMailbox
        mb m = u := by
    simp only [stored, State.putSession, State.putMailbox, Tbl.put_put]
  rw [commandIn_of_new (s := s.putSession f.session x) unbarred none_yet new free entered rfl,
    fragIn_of_fitting fits rfl rfl rfl filled, twice]
  subst filled
  simp only [List.length_cons, List.length_nil, Nat.zero_add, one_fragment_iff]

/-- Settles O48: what a frame does is said once for each of its ways, from the port to the mailbox or channel that it fills. -/
theorem frameEvents : Obligations.FrameEvents := by
  refine ⟨?own, ?foreign, ?request, ?read, ?session, ?up, fun s p live port => event_leaves live rfl (decide_eq_true port) rfl⟩
  case own =>
    intro s p f e live port here up udp sound tag address mac udpPort long u busy woken whether
    have row := ethFrame_of_own here up udp sound tag address mac udpPort long woken
    have same : e = u.eth p := by rw [here, woken, eth_wakeByFrame]
    change busy = u.findsBusy f at whether
    rw [← whether] at row
    refine ⟨fun free room => ?_, fun free full => ?_, fun held => ?_⟩ <;>
      refine event_leaves live rfl (decide_eq_true port) (row.trans ?_)
    · rw [free, if_neg Bool.false_ne_true, fifoIn_of_room same room]
    · rw [free, if_neg Bool.false_ne_true, fifoIn_of_full (same ▸ full)]
    · rw [if_pos held]
  case foreign =>
    intro s p f live port up udp foreign
    exact event_leaves live rfl (decide_eq_true port) (ethFrame_of_foreign up udp foreign)
  case request =>
    intro s p f live port up kind sound tag address
    exact event_leaves live rfl (decide_eq_true port) (ethFrame_of_request up kind sound tag address)
  case read =>
    intro s p f live port taken next
    exact event_leaves live rfl (decide_eq_true port) (fifoRead_of_next taken next)
  case session =>
    intro s f v w x live port answers managed sound found version tagged next early touched
    have row (session : 2 ≤ f.ftype) := takeCcp_of_session answers managed sound session found version tagged next early touched
    have command (kind : f.ftype = 2) : s.takeCcp f = (s.putSession f.session x).commandIn f x := by
      rw [row (by omega), if_pos kind]
    have bulk (kind : f.ftype = 4) (steady : s.dev.mgmtReset = none) :
        s.takeCcp f = (s.putSession f.session x).bulkIn f := by
      rw [row (by omega), if_neg (by omega), steady, if_neg (by simp)]
    refine ⟨?new, ?begun, ?fitting, ?discarded⟩
    case new =>
      intro mb m y u kind unbarred none_yet new free fits filled entered stored
      have does := commandIn_of_new_fitting unbarred none_yet new free fits filled entered stored
      refine ⟨fun long => ?_, fun short => ?_⟩ <;>
        refine event_leaves live rfl (decide_eq_true port) ((command kind).trans (does.trans ?_))
      · rw [if_neg (by omega)]
      · rw [if_pos short]
    case begun =>
      intro mb m n kind unbarred found_box open_box fits opcode total new filled complete
      have same : n.total = m.total := by rw [filled]
      refine event_leaves live rfl (decide_eq_true port) ((command kind).trans ?_)
      rw [commandIn_of_begun (s := s.putSession f.session x) unbarred found_box open_box,
        fragIn_of_fitting (s := s.putSession f.session x) fits opcode total new filled, if_pos (same ▸ complete)]
    case fitting =>
      intro k y u kind steady channel own first last whole some_bytes offset inside room moved taken
      refine event_leaves live rfl (decide_eq_true port) ((bulk kind steady).trans ?_)
      exact bulkIn_of_fitting (s := s.putSession f.session x) channel own first last whole some_bytes offset inside room moved
        taken
    case discarded =>
      intro k u kind steady channel own wrong counted
      have does := bulkIn_of_discarded (s := s.putSession f.session x) channel own wrong counted
      refine ⟨fun due => ?_, fun t told recent => ?_⟩ <;>
        refine event_leaves live rfl (decide_eq_true port) ((bulk kind steady).trans (does.trans ?_))
      · have all : (k.nakTick.all fun t => t + 64 ≤ s.dev.tick) = true := by
          simpa only [Option.all_eq_true, decide_eq_true_eq] using due
        exact if_pos all
      · have not_all : ¬ (k.nakTick.all fun t => t + 64 ≤ s.dev.tick) = true := by
          simpa [told] using recent
        exact if_neg not_all
  case up =>
    intro s p live port running configured
    exact event_leaves live rfl (decide_eq_true port) (ethUp_of_configured running configured)

end Obligation

end Sys2Proof.Machine

namespace Sys2Proof.Machine

/-! CCP by the clock (17 R448, R455, R457, R462, R465): each wait of Table 17-6 and what its end does. -/

section ControlClock

variable {s : State} {n mb p : Nat} {m : Mailbox} {k : Bulk} {v : Session}

theorem pfcRepeat_of_due (full : (s.eth p).full = true) (used : (s.eth p).pfcOff = false) (due : (s.eth p).pfcDue ≤ s.dev.tick) :
    s.pfcRepeat p = (s.putEth p { s.eth p with pfcDue := s.dev.tick + 200 }).emit (.pfc p 0xFFFF) := by
  simp only [State.pfcRepeat, full, used, due, Bool.not_false, Bool.and_self, decide_true, if_true]

theorem handshakeTimeout_of_due {h : Handshake} (found : s.ctl.handshakes.find n = some h) (due : h.due ≤ s.dev.tick) :
    s.handshakeTimeout n = { s with ctl.handshakes := s.ctl.handshakes.del n } := by
  simp only [State.handshakeTimeout, found, due, if_true]

/-- A command that never became whole goes, with a kept ABORTED response (R453). -/
theorem fragmentTimeout_of_due (found : s.ctl.mailboxes.find mb = some m) (waits : m.running = false) (due : m.due ≤ s.dev.tick)
    (session : s.ctl.sessions.find m.session = some v) :
    s.fragmentTimeout mb = (s.delMailbox mb).putSession m.session { v with
      cmds := pruneCmds (v.high.getD 0) (v.cmds.put m.cmdId (.kept m.opcode mb ⟨Status.aborted.code, 0x0601, []⟩)) } := by
  have still : (s.delMailbox mb).ctl.sessions.find m.session = some v := session
  simp only [State.fragmentTimeout, found, waits, due, State.dropMailbox, still, Bool.not_false, Bool.true_and, decide_true, if_true]

section Idle

variable (found : s.ctl.bulk.find n = some k) (due : k.due ≤ s.dev.tick)

include found due

theorem channelIdle_of_due : s.channelIdle n = s.closeChannel n := by
  simp only [State.channelIdle, found, due, if_true]

theorem channelIdle_of_free (free : ∀ a b c, k.consumer ≠ some (.setLoad a b c)) : s.channelIdle n = s.delBulk n := by
  rw [channelIdle_of_due found due]
  simp only [State.closeChannel, found]

theorem channelIdle_of_load {a b : Nat} {c : Bool} (load : k.consumer = some (.setLoad a b c)) :
    s.channelIdle n = (s.delBulk n).respondBad ⟨a, b⟩ .aborted := by
  rw [channelIdle_of_due found due]
  simp only [State.closeChannel, found, load]

end Idle

theorem sessionIdle_of_due (found : s.ctl.sessions.find n = some v) (due : v.idleDue ≤ s.dev.tick) :
    s.sessionIdle n = s.endSession n := by
  simp only [State.sessionIdle, found, due, if_true]

theorem noticeSend_of_due (found : s.ctl.sessions.find n = some v) (wanted : v.noticeDue = true) (managed : s.mgmtUp = true)
    (rested : ∀ d, v.noticeTick = some d → d + 64 ≤ s.dev.tick) :
    s.noticeSend n = ((s.putSession n { v with noticeDue := false, noticeTick := some s.dev.tick }).emit
      (.notice v.port n (min (s.unread v) 0xFFFF))).numberFrames n 0 := by
  have quiet : (v.noticeTick.all fun t => t + 64 ≤ s.dev.tick) = true := by
    simpa only [Option.all_eq_true, decide_eq_true_eq] using rested
  simp only [State.noticeSend, found, wanted, managed, quiet, Bool.and_self, if_true]
  rfl

end ControlClock

/-- Settles O49: each timer's row by the lemma of its wait. -/
theorem controlTimers : Obligations.ControlTimers := by
  refine ⟨?pfc, ?pause, ?handshake, ?fragment, ?channel, ?session, ?notice⟩
  case pfc =>
    intro s p live port full used due
    exact event_leaves live rfl (decide_eq_true port) (pfcRepeat_of_due full used due)
  case pause =>
    intro s n c late live which
    subst which
    exact event_leaves live rfl rfl rfl
  case handshake =>
    intro s n h live found due
    exact event_leaves live rfl rfl (handshakeTimeout_of_due found due)
  case fragment =>
    intro s mb m v live found waits due session
    exact event_leaves live rfl rfl (fragmentTimeout_of_due found waits due session)
  case channel =>
    intro s n k live found due
    exact ⟨fun free => event_leaves live rfl rfl (channelIdle_of_free found due free),
      fun a b c load => event_leaves live rfl rfl (channelIdle_of_load found due load)⟩
  case session =>
    intro s n v live found due
    exact event_leaves live rfl rfl (sessionIdle_of_due found due)
  case notice =>
    intro s n v live found wanted managed rested
    exact event_leaves live rfl rfl (noticeSend_of_due found wanted managed rested)

end Sys2Proof.Machine

namespace Sys2Proof.Machine

/-! Firmware by events (19 R486 to R488, R491, R492; 21 R524): the ends of a stage, of a trial and of an activation. -/

section StageSteps

variable {s : State} {st : Stage}

/-- The status of a failing step of Table 19-9. -/
theorem stageStep_eq (n : Nat) (found : Bool) : stageStep n found =
    (if n = 1 ∨ (n = 2 ∧ found = false) then Status.denied else if n = 3 then .faultVersion else .integrity,
      reason (if n = 3 then .dependency else .policy) (0x80 + n)) := by
  match n with
  | 1 | 2 | 3 => cases found <;> rfl
  | 0 => rfl
  | k + 4 => simp [stageStep]

/-- The step that a package shows to fail has the status of that step. -/
theorem stageStep_of_pkgFault {total i : Nat} {x : Status} (fault : s.pkgFault st total = some (i, x)) :
    stageStep i false = (x, reason (if i = 3 then .dependency else .policy) (0x80 + i)) := by
  simp only [State.pkgFault] at fault
  (repeat' split at fault) <;> cases fault <;> rfl

end StageSteps

section Channel

variable {s : State} {st : Stage} {ch : Nat} {k : Bulk} (channel : st.channel = some ch) (bulk : s.ctl.bulk.find ch = some k)

include channel bulk

theorem stageSays_of_channel : s.stageSays st = some (s.pkgFault st k.bytes) := by
  simp only [State.stageSays, channel, bulk, Option.map_some, Option.elim_some]

theorem stageFull_of_channel (complete : k.offset = k.bytes) : s.stageFull st = true := by
  simp only [State.stageFull, channel, bulk, Option.any_some, complete, beq_self_eq_true]

end Channel

section StageDone

variable {s : State} {st : Stage} {ch v n d i j : Nat} {x : Status} {k : Bulk} {found : Bool} (staging : s.fw.staging = some st)

include staging

section Card

variable (card : st.channel = none)

include card

theorem stageDone_of_card (sound : s.fw.fusedSec ≤ n) :
    s.stageDone (.done v n d) = { s.stageEnd st ⟨.bootable, v, n, d⟩ ⟨0, 0, []⟩ with fw.fresh := true } := by
  simp only [State.stageDone, staging, State.stageSays, card, Option.map_none, Nat.not_lt.mpr sound, if_false]

theorem stageDone_of_card_old (old : n < s.fw.fusedSec) : s.stageDone (.done v n d) =
    s.stageEnd st { state := .failed } ⟨Status.denied.code, reason .policy 0x81, []⟩ := by
  simp only [State.stageDone, staging, State.stageSays, card, Option.map_none, old, if_true]
  rfl

end Card

section Channel

variable (channel : st.channel = some ch) (bulk : s.ctl.bulk.find ch = some k)

include channel bulk

theorem stageDone_of_sound (complete : k.offset = k.bytes) (sound : s.pkgFault st k.bytes = none) : s.stageDone (.done v n d) =
    { s.stageEnd st ⟨.bootable, (PkgHeader.read st.head).imgVer, (PkgHeader.read st.head).secVer, d⟩ ⟨0, 0, []⟩ with
      fw.fresh := true } := by
  have full := stageFull_of_channel channel bulk complete
  simp only [State.stageDone, staging, stageSays_of_channel channel bulk, sound, full, Bool.not_true, Bool.false_eq_true,
    if_false]

theorem stageDone_of_fault (complete : k.offset = k.bytes) (fault : s.pkgFault st k.bytes = some (i, x)) :
    s.stageDone (.done v n d) =
      s.stageEnd st { state := .failed } ⟨x.code, reason (if i = 3 then .dependency else .policy) (0x80 + i), []⟩ := by
  have full := stageFull_of_channel channel bulk complete
  simp only [State.stageDone, staging, stageSays_of_channel channel bulk, fault, full, Bool.not_true, Bool.false_eq_true,
    if_false, stageStep_of_pkgFault fault, State.stageFail]

/-- A step that the package shows to fail comes before a later one that the device reports. -/
theorem stageDone_of_earlier_fault (head : st.hasHead = true) (fault : s.pkgFault st k.bytes = some (j, x)) (earlier : j < i) :
    s.stageDone (.failed i found) =
      s.stageEnd st { state := .failed } ⟨x.code, reason (if j = 3 then .dependency else .policy) (0x80 + j), []⟩ := by
  simp only [State.stageDone, staging, stageSays_of_channel channel bulk, fault, head, if_true, Option.bind_some, id,
    earlier, stageStep_of_pkgFault fault, State.stageFail]

end Channel

theorem stageDone_of_failed (first : ∀ j x, s.stageSays st = some (some (j, x)) → st.hasHead = true → i ≤ j) :
    s.stageDone (.failed i found) = s.stageEnd st { state := .failed }
      ⟨(if i = 1 ∨ (i = 2 ∧ found = false) then Status.denied else if i = 3 then .faultVersion else .integrity).code,
        reason (if i = 3 then .dependency else .policy) (0x80 + i), []⟩ := by
  have fails : s.stageDone (.failed i found) = s.stageFail st (stageStep i found).1 (stageStep i found).2 := by
    simp only [State.stageDone, staging]
    split
    next j x told =>
      have later : ¬ j < i := by
        cases head : st.hasHead with
        | false => simp [head] at told
        | true => exact Nat.not_lt.mpr (first j x (by simpa [head, Option.bind_eq_some_iff] using told) head)
      rw [if_neg later]
    next => rfl
  rw [fails, stageStep_eq]
  rfl

theorem stageTimeout_of_due (due : st.due ≤ s.dev.tick) :
    s.stageTimeout = s.stageEnd st { state := .failed } ⟨Status.timeout.code, 0x0601, []⟩ := by
  simp only [State.stageTimeout, staging, due, if_true]
  rfl

end StageDone

section Trial

variable {s : State} {n : Nat} (trial : s.fw.trial = some n)

include trial

theorem runningReport_of_trial (running : s.dev.phase = .running) :
    s.runningReport = ({ s with fw.trial := none } : State).writeSlots := by
  simp only [State.runningReport, trial, running, Option.isSome_some, beq_self_eq_true, Bool.and_self, if_true]

theorem trialTimeout_of_due (due : s.fw.trialDue ≤ s.dev.tick) :
    s.trialTimeout = ((({ s with fw.trial := none, fw.mgmtSlot := n, fw.runMgmt := n } : State).writeSlots.beginMgmtReset
      2).recOp 0x0901 0 0 0 n) := by
  simp only [State.trialTimeout, trial, Nat.not_lt.mpr due, if_false]

end Trial

section KeyEngine

variable {s : State} {op n : Nat} {r : CmdRef} (restart : s.dev.keRestart = true) (asked : s.fw.activate = some (op, n, r))

include restart asked

theorem keDone_of_restart : s.keDone =
    if op = 2 then
      ({ s with dev.keRestart := false, ready.keyEngine := true, fw.activate := none } : State).activateMgmt n
    else { s with dev.keRestart := false, ready.keyEngine := true, fw.activate := none } := by
  simp only [State.keDone, restart, asked, Bool.not_true, Bool.false_eq_true, if_false, beq_iff_eq]

end KeyEngine

section Card

variable {s : State} {st : Stage}

/-- The card leaves: its bits fall, and a stage that read from it ends (21 R524). -/
theorem cardOut_of_idle (idle : s.fw.staging = none) : s.cardOut = { s with fw.cardIn := false, fw.cardFile := false } := by
  simp only [State.cardOut, idle]

variable (staging : s.fw.staging = some st)

include staging

theorem cardOut_of_card (card : st.channel = none) :
    s.cardOut = ({ s with fw.cardIn := false, fw.cardFile := false } : State).stageEnd st { state := .failed }
      ⟨Status.notReady.code, 0x0401, []⟩ := by
  simp only [State.cardOut, staging, card, Option.isNone_none, if_true]
  rfl

theorem cardOut_of_channel {ch : Nat} (channel : st.channel = some ch) :
    s.cardOut = { s with fw.cardIn := false, fw.cardFile := false } := by
  simp only [State.cardOut, staging, channel, Option.isNone_some, Bool.false_eq_true, if_false]

end Card

/-- Settles O51: a stage's end is told by the first step that fails; the other events each by the lemma of their row. -/
theorem firmwareEvents : Obligations.FirmwareEvents := by
  refine ⟨?card, ?channel, ?failed, ?earlier, ?timeout, ?confirmed, ?trial, ?engine, ?removal⟩
  case card =>
    intro s st v n d live staging card
    exact ⟨fun sound => event_leaves live rfl rfl (stageDone_of_card staging card sound),
      fun old => event_leaves live rfl rfl (stageDone_of_card_old staging card old)⟩
  case channel =>
    intro s st ch k v n d live staging channel bulk complete
    exact ⟨fun sound => event_leaves live rfl rfl (stageDone_of_sound staging channel bulk complete sound),
      fun i x fault => event_leaves live rfl rfl (stageDone_of_fault staging channel bulk complete fault)⟩
  case failed =>
    intro s st i found live staging first
    exact event_leaves live rfl rfl (stageDone_of_failed staging first)
  case earlier =>
    intro s st ch k i j x found live staging channel bulk head fault earlier
    exact event_leaves live rfl rfl (stageDone_of_earlier_fault staging channel bulk head fault earlier)
  case timeout =>
    intro s st live staging due
    exact event_leaves live rfl rfl (stageTimeout_of_due staging due)
  case confirmed =>
    intro s n live trial running
    exact event_leaves live rfl rfl (runningReport_of_trial trial running)
  case trial =>
    intro s n live trial due
    exact event_leaves live rfl rfl (trialTimeout_of_due trial due)
  case engine =>
    intro s u live restart back
    subst back
    exact ⟨fun n r asked => event_leaves live rfl rfl (keDone_of_restart restart asked),
      fun n r asked => event_leaves live rfl rfl (keDone_of_restart restart asked)⟩
  case removal =>
    intro s u out
    subst out
    have row {t : State} (does : s.cardOut = t) : exec .sdCardRemoval s = .next t.settle := by rw [← does]; rfl
    exact ⟨fun idle => row (cardOut_of_idle idle), fun st staging card => row (cardOut_of_card staging card),
      fun st ch staging channel => row (cardOut_of_channel staging channel)⟩

end Sys2Proof.Machine

namespace Sys2Proof.Machine

/-! The fabric's clocks (13 R343, R358, R361, R365, R369, R375): what each does when its time has come. -/

section FabricClock

variable {s u : State} {id n g b d k : Nat} {x : Transit} {h : HeldFence} {f : Fence} {v : NodeRec}

theorem ageOut_of_aged (found : s.fab.transit.find id = some x) (aged : 16000 ≤ ageAfter x.p.age (s.dev.tick - x.since)) :
    s.ageOut id = ({ s with fab.transit := s.fab.transit.del id, fab.aged := s.fab.aged + 1 } : State).countDev 7 := by
  simp only [State.ageOut, found, aged, if_true]

theorem fenceAgeOut_of_aged (found : s.fab.held.find? (fun h => h.r.p.src == n && h.r.p.tag == g &&
      decide (16000 ≤ ageAfter h.r.p.age (s.dev.tick - h.since))) = some h) (fence : f = s.fab.fences.findD n {})
    (passed : k = (h.r.p.fnum + 16 - f.x) % 16 + 1)
    (past : u = { s with fab.fences := s.fab.fences.put n { x := (f.x + k) % 16, counts := f.counts.drop k ++ List.replicate (min k 8) 0 }
                         fab.held := s.fab.held.filter (· != h), fab.aged := s.fab.aged + 1
                         fab.tags := s.fab.tags.adjust (tagKey n g) fun t =>
                           if t.tgen == h.r.p.tgen then { t with st := .free, dups := [] } else t }) :
    s.fenceAgeOut n g = (u.countDev 7).releaseFences n 1024 := by
  subst past passed fence
  simp only [State.fenceAgeOut, found]

theorem escapeWait_of_request (found : s.fab.transit.find id = some x) (request : channelOf x.opcode = 0)
    (stays : x.p.escape = false) : s.escapeWait id = { s with
      fab.transit := s.fab.transit.put id { x with p := { x.p with escape := true } }
      fab.escaped := s.fab.escaped + 1 } := by
  simp only [State.escapeWait, found, request, stays, beq_self_eq_true, Bool.not_false, Bool.and_self, if_true]

theorem reachTimeout_of_lost (record : v = s.nodeRec n) (since : v.noRoute = some d) (late : d + 64 ≤ s.dev.tick)
    (cut : s.hasRoute n = false) (was : v.reachable = true) : s.reachTimeout n =
      ((s.putNodeRec n { v with reachable := false, noRoute := none, loss := v.loss + 1 }).sendMeta
        (.node n v.gen (v.loss + 1))).later [.gone n] := by
  subst record
  simp only [State.reachTimeout, since, Option.any_some, late, cut, decide_true, Bool.not_false, Bool.and_self, if_true,
    State.nodeLost, was]

theorem bankQuiet_of_closed {v : Bank} (bank : v = s.bank b) (unused : b ≠ s.fab.epoch) (closed : v.opened = false)
    (drained : s.drainOf b = 0) (late : v.lastUse + 400 ≤ s.dev.tick) : s.bankQuiet b = s.putBank b { v with quiet := true } := by
  subst bank
  simp only [State.bankQuiet, bne_iff_ne.mpr unused, closed, drained, late, beq_self_eq_true, decide_true, Bool.not_false,
    Bool.and_self, if_true]

end FabricClock

/-- Settles O37: each of the fabric's timers by the lemma of its row. -/
theorem fabricTimers : Obligations.FabricTimers := by
  refine ⟨?entry, ?packet, ?fence, ?escape, ?node, ?bank⟩
  case entry =>
    intro s p q n g k live port here
    subst here
    exact event_leaves live rfl (decide_eq_true port) rfl
  case packet =>
    intro s id x live found aged
    exact event_leaves live rfl rfl (ageOut_of_aged found aged)
  case fence =>
    intro s n g h f k u live found fence passed past
    exact event_leaves live rfl rfl (fenceAgeOut_of_aged found fence passed past)
  case escape =>
    intro s id x live found request stays
    exact event_leaves live rfl rfl (escapeWait_of_request found request stays)
  case node =>
    intro s n v d live record since late cut was
    exact event_leaves live rfl rfl (reachTimeout_of_lost record since late cut was)
  case bank =>
    intro s b v live two bank unused closed drained late
    exact event_leaves live rfl (decide_eq_true two) (bankQuiet_of_closed bank unused closed drained late)

end Sys2Proof.Machine

namespace Sys2Proof.Machine

/-! A port goes down (12 R324, R337, R341; 09 R254), and the rows that take it down. -/

@[simp] theorem putPort_putPort (s : State) (p : Nat) (q r : Port) : (s.putPort p q).putPort p r = s.putPort p r := by
  simp only [State.putPort, Tbl.put_put]

theorem mute_eq_false_iff (q : Port) : q.mute = false ↔ (q.sess.finishSent = true → q.keys.getD 0 0 ≠ 0) := by
  cases sent : q.sess.finishSent <;> simp [Port.mute, sent]

theorem recOp_dev (s : State) (code kind subject arg0 arg1 : Nat) : (s.recOp code kind subject arg0 arg1).dev = s.dev := by
  simp only [State.recOp, State.record]
  split
  · rfl
  · split <;> rfl

section Down

variable {s u v : State} {p r e : Nat} {q : Port}

/-- With a reason of Table 12-5 the notice says why, where the port still may speak and its key still may. -/
theorem portDown_of_reason (here : q = s.port p) (lit : q.st ≠ .dark) (used : q.st ≠ .down) (why : 1 ≤ r)
    (notice : u = if (q.st = .up ∨ q.st = .session) ∧ q.unacked.length < 1024 ∧ q.keyFlits < 2 ^ 31 ∧
        (q.sess.finishSent = true → q.keys.getD 0 0 ≠ 0) then
      s.emit (.flit p (q.sendNew true 0 true true [7#8, BitVec.ofNat 8 r]).1) else s)
    (fell : v = (((u.emit (.downPattern p)).recOp 0x0501 6 p q.ackedUp r).putPort p
      { q.cleared (s.dev.tick + 1048576) with downs := listMod q.downs r (sat32 · 1) }).setPortReady p false) :
    s.portDown p r = q.outst.foldl (fun t o => t.lostEntry p o)
      { v with fab.owed := v.fab.owed.filter fun c => c.port != p } := by
  have speaks : (((q.st == .up || q.st == .session) && decide (q.unacked.length < 1024) && decide (q.keyFlits < 2 ^ 31) &&
      !q.mute) = true) = ((q.st = .up ∨ q.st = .session) ∧ q.unacked.length < 1024 ∧ q.keyFlits < 2 ^ 31 ∧
        (q.sess.finishSent = true → q.keys.getD 0 0 ≠ 0)) := by
    simp only [Bool.and_eq_true, Bool.or_eq_true, beq_iff_eq, decide_eq_true_eq, Bool.not_eq_true', mute_eq_false_iff, and_assoc]
  have named (t : State) (w : Nat) : t.downCode r w = (r, t) := by
    simp only [State.downCode, beq_iff_eq, Nat.ne_of_gt why, if_false]
  have in_use : (q.st == .dark || q.st == .down) = false := by simp [lit, used]
  have tick : ((u.emit (.downPattern p)).recOp 0x0501 6 p q.ackedUp r).dev.tick = s.dev.tick := by
    rw [recOp_dev, State.emit_dev, notice]
    split <;> rfl
  subst here
  simp only [State.portDown, in_use, named, Bool.false_eq_true, if_false, speaks, ← notice, tick, ← fell]

end Down

section Rows

variable {s : State} {p e : Nat} {q : Port}

theorem alignLoss_of_flits (flits : (s.port p).st = .up ∨ (s.port p).st = .session) : s.alignLoss p = s.portDown p 0 := by
  have hears : ((s.port p).st == .up || (s.port p).st == .session) = true := by simpa using flits
  simp only [State.alignLoss, hears, if_true]

theorem retrainTimeout_of_retraining (retrains : (s.port p).st = .retrain) :
    s.retrainTimeout p = s.portDown p (if (s.port p).counted then 1 else 0) := by
  simp only [State.retrainTimeout, retrains, beq_self_eq_true, if_true]

/-- The reason of a notice is kept where Table 12-5 has it. -/
theorem peerDown_of_used {r : Nat} (used : (s.port p).st = .up ∨ (s.port p).st = .session ∨ (s.port p).st = .retrain) :
    s.peerDown p r = s.portDown p (if 1 ≤ r ∧ r ≤ 6 then r else 0) := by
  have listens : ((s.port p).st == .up || (s.port p).st == .session || (s.port p).st == .retrain) = true := by
    simpa [or_assoc] using used
  simp only [State.peerDown, listens, if_true, Bool.and_eq_true, decide_eq_true_eq]

theorem holdOver_of_due (here : q = s.port p) (fallen : q.st = .down) (enabled : q.enable = true)
    (due : q.downDue ≤ s.dev.tick) : s.holdOver p = s.putPort p { q with st := .dark } := by
  subst here
  simp only [State.holdOver, fallen, enabled, due, beq_self_eq_true, decide_true, Bool.and_self, if_true]

/-- A failed light source takes its four fibres down (R324). -/
theorem laserFault_eq : s.laserFault e =
    (((s.portDown (4 * e) 6).portDown (4 * e + 1) 6).portDown (4 * e + 2) 6).portDown (4 * e + 3) 6 := by
  have fibres : List.range 4 = [0, 1, 2, 3] := rfl
  simp only [State.laserFault, fibres, List.foldl_cons, List.foldl_nil, Nat.add_zero]

end Rows

/-- Settles O35: the fall of a port once, and then the reason that each row gives. -/
theorem portsGoDown : Obligations.PortsGoDown := by
  refine ⟨?fall, ?align, ?peer, ?retrain, ?light, ?fault, ?hold⟩
  case fall =>
    intro s p r q u here lit used why notice v fell
    exact portDown_of_reason here lit used why notice fell
  case align =>
    intro s p live port flits
    exact event_leaves live rfl (decide_eq_true port) (alignLoss_of_flits flits)
  case peer =>
    intro s p live port used
    refine ⟨event_leaves live rfl (decide_eq_true port) (peerDown_of_used used), fun r => ⟨fun least most => ?_, fun other => ?_⟩⟩ <;>
      refine event_leaves live rfl (decide_eq_true port) ((peerDown_of_used used).trans ?_)
    · rw [if_pos ⟨least, most⟩]
    · rw [if_neg (by omega)]
  case retrain =>
    intro s p live port retrains
    exact event_leaves live rfl (decide_eq_true port) (retrainTimeout_of_retraining retrains)
  case light =>
    intro s e f live engine fibre
    exact event_leaves live rfl (by simp [engine, fibre]) rfl
  case fault =>
    intro s e live engine
    exact event_leaves live rfl (decide_eq_true engine) laserFault_eq
  case hold =>
    intro s p q live port here fallen enabled due
    exact event_leaves live rfl (decide_eq_true port) (holdOver_of_due here fallen enabled due)

end Sys2Proof.Machine

namespace Sys2Proof.Machine

/-! Flits (12 R328, R332 to R337, R340): what is received, what a slot carries, acknowledgement and replay, and rekeying. -/

section Receiving

variable {s u : State} {p d : Nat} {q r : Port} {f : Flit} (here : q = s.port p) (hears : q.hears = true)

include here hears

section Data

variable (data : f.ftype ≠ 0)

include data

section Good

variable (good : q.check f = .good)
  (taken : u = (s.putPort p (((q.addFec f).takeAck f).takeCredit f)).takeNak p f)

include good taken

theorem dataFlit_of_good : s.dataFlit p f =
    let d := (f.seq + 4096 - q.rxX % 4096) % 4096
    if (u.port p).hears = false then u
    else if d = 0 then
      (u.putPort p { (u.port p).switchRx f with
        rxX := ((u.port p).switchRx f).rxX + 1, nakSent := false, sinceAck := ((u.port p).switchRx f).sinceAck + 1
        ackDue := ((u.port p).switchRx f).ackDue ||
          decide (((u.port p).switchRx f).ackEvery ≤ ((u.port p).switchRx f).sinceAck + 1) }).gather p f
    else if d ≤ 1023 then u.putPort p { u.port p with
      nakDue := (u.port p).nakDue || !(u.port p).nakSent, nakSent := true }
    else if 3072 ≤ d then u.putPort p { u.port p with ackDue := true }
    else u.portDown p 3 := by
  have listens : (!q.hears || f.ftype == 0) = false := by simp [hears, data]
  have same : ((s.putPort p (q.addFec f)).modPort p fun q => (q.takeAck f).takeCredit f).takeNak p f = u := by
    rw [taken, State.modPort, port_putPort, putPort_putPort]
  subst here
  simp only [State.dataFlit, listens, good, same, Bool.false_eq_true, if_false, Bool.not_eq_true', beq_iff_eq]

end Good

theorem dataFlit_of_bad (bad : q.check f ≠ .good) : s.dataFlit p f = (s.putPort p (q.addFec f)).badFlit p (q.check f) := by
  have listens : (!q.hears || f.ftype == 0) = false := by simp [hears, data]
  subst here
  simp only [State.dataFlit, listens, Bool.false_eq_true, if_false]

end Data

section Idle

variable (idle : f.ftype = 0)

include idle

theorem idleFlit_of_bad (bad : q.check f ≠ .good) : s.idleFlit p f = (s.putPort p (q.addFec f)).badFlit p (q.check f) := by
  have listens : (!q.hears || f.ftype != 0) = false := by simp [hears, idle]
  subst here
  simp only [State.idleFlit, listens, Bool.false_eq_true, if_false]

/-- An idle flit whose count is new, or that comes with a new key, carries its reports; another is counted (R328). -/
theorem idleFlit_of_good (good : q.check f = .good) : s.idleFlit p f =
    if (q.sess.finishIn && f.keyPhase != q.rxPhase) = false ∧ q.rxIdle.any (f.idleCount ≤ ·) = true then
      s.putPort p { q.addFec f with idleDisc := sat32 (q.addFec f).idleDisc 1 }
    else (s.putPort p ((({ (q.addFec f).switchRx f with rxIdle := some f.idleCount }).takeAck f).takeCredit f)).takeNak p f := by
  have listens : (!q.hears || f.ftype != 0) = false := by simp [hears, idle]
  subst here
  simp only [State.idleFlit, listens, good, Bool.false_eq_true, if_false, State.modPort, port_putPort, putPort_putPort,
    Bool.and_eq_true, Bool.not_eq_true']

end Idle

end Receiving

/-- What a bad flit does: one that fails its CRC is counted, the others take the port down (R326, R334, R339). -/
theorem badFlit_crc (s : State) (p : Nat) (r : Port) : (s.putPort p r).badFlit p .crc =
    s.putPort p { r with crcFails := sat32 r.crcFails 1 } := by
  simp only [State.badFlit, State.modPort, port_putPort, putPort_putPort]

theorem badFlit_security (s : State) (p : Nat) (r : Port) : (s.putPort p r).badFlit p .security =
    ((s.putPort p { r with security := sat32 r.security 1 }).recOp 0x0502 6 p 0 0).portDown p 2 := by
  simp only [State.badFlit, State.modPort, port_putPort, putPort_putPort]

section Sending

variable {s u : State} {p i : Nat} {q : Port} {f : TxFlit} {m : List Byte} {rest : List (List Byte)} {y : Flit × Port}
  (switched : u = (s.dropAged p).modPort p Port.switchTx) (here : q = u.port p) (hears : q.hears = true)

include switched here hears

theorem flitSend_of_spent (spent : 2 ^ 31 ≤ q.keyFlits ∨ 2 ^ 55 ≤ q.txE) : s.flitSend p = u.portDown p 5 := by
  have used : (decide (2 ^ 31 ≤ q.keyFlits) || decide (2 ^ 55 ≤ q.txE)) = true := by simpa using spent
  subst here
  simp only [State.flitSend, ← switched, hears, used, Bool.not_true, Bool.false_eq_true, if_false, if_true]

variable (key : q.keyFlits < 2 ^ 31) (seq : q.txE < 2 ^ 55)

include key seq

section Replay

variable (replays : 0 < q.toReplay) (place : i = q.unacked.length - q.toReplay) (found : q.unacked[i]? = some f)

include replays place found

theorem flitSend_of_replay : s.flitSend p =
    if 255 ≤ f.txNum then u.portDown p 1
    else
      ((u.putPort p { (q.form (f.e % 4096) (if f.ctl then 2 else 1) f.vc f.first f.last f.payload (f.txNum + 1) 0).2 with
        toReplay := q.toReplay - 1, unacked := listSet q.unacked i { f with txNum := f.txNum + 1 } }).emit
          (.flit p (q.form (f.e % 4096) (if f.ctl then 2 else 1) f.vc f.first f.last f.payload (f.txNum + 1) 0).1)).frameTick p := by
  have fresh : (decide (2 ^ 31 ≤ q.keyFlits) || decide (2 ^ 55 ≤ q.txE)) = false := by
    simpa using ⟨key, seq⟩
  subst here place
  simp only [State.flitSend, ← switched, hears, fresh, replays, found, Bool.not_true, Bool.false_eq_true, if_false, if_true]

end Replay

section NoReplay

variable (none_again : q.toReplay = 0)

include none_again

/-- A control flit takes a slot that belongs to no isolated tenant (R332). -/
theorem flitSend_of_control (room : q.unacked.length < 1024) (queued : q.ctlQueue = m :: rest) (free : u.slotOwner q.slot = none)
    (formed : y = q.sendNew true 0 (!q.sess.ctlBegun) (m.length ≤ flitMax q.mode) (m.take (flitMax q.mode))) :
    s.flitSend p = ((u.putPort p { y.2 with
        ctlQueue := if m.length ≤ flitMax q.mode then rest else m.drop (flitMax q.mode) :: rest
        sess := { q.sess with
          ctlBegun := decide (flitMax q.mode < m.length)
          finishSent := q.sess.finishSent || (decide (m.length ≤ flitMax q.mode) && q.sess.finishOut && finishLeft rest)
          } }).emit (.flit p y.1)).frameTick p := by
  have fresh : (decide (2 ^ 31 ≤ q.keyFlits) || decide (2 ^ 55 ≤ q.txE)) = false := by
    simpa using ⟨key, seq⟩
  subst here formed
  simp only [State.flitSend, ← switched, hears, fresh, none_again, queued, room, free, Bool.not_true, Bool.false_eq_true, if_false,
    Nat.lt_irrefl, Option.isSome_none, decide_true, Bool.not_false, Bool.and_self, if_true]

theorem flitSend_of_data {c : Nat} {x : TxPkt} (room : q.unacked.length < 1024) (nothing : q.ctlQueue = []) (up : q.st = .up)
    (next : u.nextData p = some (c, x, i)) : s.flitSend p = u.sendData p c i x := by
  have fresh : (decide (2 ^ 31 ≤ q.keyFlits) || decide (2 ^ 55 ≤ q.txE)) = false := by
    simpa using ⟨key, seq⟩
  subst here
  simp only [State.flitSend, ← switched, hears, fresh, none_again, nothing, room, up, next, Bool.not_true, Bool.false_eq_true, if_false,
    Nat.lt_irrefl, beq_self_eq_true, decide_true, Bool.and_self, if_true]

/-- A slot that nothing may take carries an idle flit, unless the end may protect none yet (R328). -/
theorem flitSend_of_idle (formed : y = q.form (q.txE % 4096) 0 0 false false [] 0 q.idleCount)
    (free : q.ctlQueue = [] ∧ (q.st ≠ .up ∨ 1024 ≤ q.unacked.length ∨ u.nextData p = none) ∨
      q.ctlQueue ≠ [] ∧ (1024 ≤ q.unacked.length ∨ u.slotOwner q.slot ≠ none)) :
    s.flitSend p = if q.mute then u else
      ((u.putPort p { y.2 with idleCount := q.idleCount + 1, keyFlits := q.keyFlits + b2n y.1.tagged }).emit
        (.flit p y.1)).frameTick p := by
  have fresh : (decide (2 ^ 31 ≤ q.keyFlits) || decide (2 ^ 55 ≤ q.txE)) = false := by
    simpa using ⟨key, seq⟩
  subst here formed
  simp only [State.flitSend, ← switched, hears, fresh, none_again, Bool.not_true, Bool.false_eq_true, if_false, Nat.lt_irrefl]
  obtain ⟨nothing, unused⟩ | ⟨queued, barred⟩ := free
  · simp only [nothing]
    split
    next up_room =>
      obtain ⟨up, room⟩ := by simpa using up_room
      have no_data : u.nextData p = none := by
        obtain other | full | no_data := unused
        · exact absurd up other
        · omega
        · exact no_data
      simp only [no_data]
    next => rfl
  · split
    next m rest _ =>
      have not_now : (decide ((u.port p).unacked.length < 1024) && !(u.slotOwner (u.port p).slot).isSome) = false := by
        obtain full | owned := barred
        · simp [Nat.not_lt.mpr full]
        · simp [Option.isSome_iff_ne_none.mpr owned]
      simp only [not_now, Bool.false_eq_true, if_false]
    next nothing => exact absurd nothing queued

end NoReplay

end Sending

section Acknowledging

variable {s : State} {p : Nat} {q : Port} (here : q = s.port p)

include here

theorem ackTimer_of_waiting (hears : q.hears = true) (waits : 0 < q.sinceAck) :
    s.ackTimer p = s.putPort p { q with ackDue := true } := by
  subst here
  simp only [State.ackTimer, State.modPort, hears, waits, decide_true, Bool.and_self, Bool.or_true]

section Replaying

variable (hears : q.hears = true) (still : q.toReplay = 0) (unacked : q.unacked ≠ [])

include hears still unacked

theorem replayTimeout_eq : s.replayTimeout p =
    if q.replayLim < q.replays + 1 ∧ q.st = .up then
      if q.ran = true ∧ q.acked < 1048576 then s.portDown p 1 else s.retrain p q.w true
    else s.putPort p { q with replays := q.replays + 1, toReplay := q.unacked.length, replayN := sat32 q.replayN 1 } := by
  have listens : ((q.st == .up || q.st == .session) && q.toReplay == 0) = true := by
    rw [still]
    simpa [Port.hears] using hears
  have some_left : q.unacked.isEmpty = false := by simpa using unacked
  subst here
  simp only [State.replayTimeout, listens, State.replay, some_left, if_true, Bool.false_eq_true, if_false, Bool.and_eq_true,
    decide_eq_true_eq, beq_iff_eq]

end Replaying

theorem retrainDone_of_retraining (retrains : q.st = .retrain) : s.retrainDone p = s.putPort p { q with
      st := .up, w := q.nextW.getD q.w, nextW := none, toReplay := q.unacked.length
      replays := if q.unacked = [] then q.replays else q.replays + 1
      replayN := if q.unacked = [] then q.replayN else sat32 q.replayN 1
      ran := q.ran || q.counted, acked := if q.counted then 0 else q.acked, counted := false } := by
  subst here
  simp only [State.retrainDone, retrains, bne_self_eq_false, Bool.false_eq_true, if_false, beq_iff_eq, List.length_eq_zero_iff]

end Acknowledging

section Rekeying

variable {s : State} {p : Nat} {q : Port} (here : q = s.port p)

include here

theorem keyNextOut_of_first (first : q.sess.rekeyOut = false) :
    s.keyNextOut p = (s.putPort p { q with sess := { q.sess with rekeyOut := true } }).sayFree p 0x05 := by
  subst here
  simp only [State.keyNextOut, first, Bool.false_eq_true, if_false]
  rfl

theorem keyNextOut_of_sent (sent : q.sess.rekeyOut = true) : s.keyNextOut p = s := by
  subst here
  simp only [State.keyNextOut, sent, if_true]

variable (up : q.st = .up)

include up

theorem rekeyStart_of_worn (worn : 2 ^ 30 ≤ q.keyFlits) : s.rekeyStart p = s.keyNextOut p := by
  subst here
  simp only [State.rekeyStart, up, worn, beq_self_eq_true, decide_true, Bool.and_self, if_true]

theorem keyNext_of_first (new : q.sess.rekeyIn = false) : s.keyNext p =
    if q.sess.higher then ((((s.keyNextOut p).modSess p fun x => { x with rekeyIn := true }).sayFree p 0x06).loadNext p)
    else (s.keyNextOut p).modSess p fun x => { x with rekeyIn := true } := by
  subst here
  simp only [State.keyNext, up, new, bne_self_eq_false, Bool.or_self, Bool.false_eq_true, if_false]

theorem keyNextKem_of_lower (sent : q.sess.rekeyOut = true) (had : q.sess.rekeyIn = true) (lower : q.sess.higher = false)
    (new : q.sess.nextReady = false) : s.keyNextKem p = s.loadNext p := by
  subst here
  simp only [State.keyNextKem, up, sent, had, lower, new, bne_self_eq_false, Bool.not_true, Bool.or_self, Bool.false_eq_true,
    if_false]

end Rekeying

/-- Settles O36: what comes in, what a slot carries, and the timers and messages of the link layer, each by its own lemma. -/
theorem portFlits : Obligations.PortFlits := by
  refine ⟨?data, ?bad, ?idle, ?spent, ?slot, ?ack, ?replay, ?retrained, ?rekey⟩
  case data =>
    intro s p q f u d live port here hears data good taken
    have row := dataFlit_of_good here hears data good taken
    refine ⟨fun deaf => ?_, fun listens place => ?_⟩
    · exact event_leaves live rfl (decide_eq_true port) (row.trans (if_pos deaf))
    · rw [← place] at row
      replace row := row.trans (if_neg (by simp [listens]))
      refine ⟨fun inOrder r switched => ?_, fun gap near => ?_, fun far_ahead far_back => ?_, fun old => ?_⟩ <;>
        refine event_leaves live rfl (decide_eq_true port) (row.trans ?_)
      · rw [if_pos inOrder, switched]
      · rw [if_neg (by omega), if_pos near]
      · rw [if_neg (by omega), if_neg (by omega), if_neg (by omega)]
      · rw [if_neg (by omega), if_neg (by omega), if_pos old]
  case bad =>
    intro s p q f i live port here hears which
    have row (bad : q.check f ≠ .good) :
        exec i s = .next ((s.putPort p (q.addFec f)).badFlit p (q.check f)).settle := by
      obtain ⟨data, rfl⟩ | ⟨idle, rfl⟩ := which
      · exact event_leaves live rfl (decide_eq_true port) (dataFlit_of_bad here hears data bad)
      · exact event_leaves live rfl (decide_eq_true port) (idleFlit_of_bad here hears idle bad)
    refine ⟨fun crc => ?_, fun security => ?_, fun protocol => ?_⟩
    · rw [row (by simp [crc]), crc, badFlit_crc]
    · rw [row (by simp [security]), security, badFlit_security]
    · rw [row (by simp [protocol]), protocol]
      rfl
  case idle =>
    intro s p q f live port here hears idle good
    have row := idleFlit_of_good here hears idle good
    refine ⟨fun new => ?_, fun n last old same => ?_⟩ <;>
      refine event_leaves live rfl (decide_eq_true port) (row.trans ?_)
    · refine if_neg fun stale => ?_
      obtain ⟨same, any⟩ := stale
      obtain count | ⟨keyed, switched⟩ := new
      · obtain ⟨n, last, old⟩ := (Option.any_eq_true _ _).mp any
        have := count n last
        have := of_decide_eq_true old
        omega
      · simp [keyed, switched] at same
    · refine if_pos ⟨?_, by simp [last, old]⟩
      obtain unkeyed | same := same
      · simp [unkeyed]
      · simp [same]
  case spent =>
    intro s p u q live port switched here hears spent
    exact event_leaves live rfl (decide_eq_true port) (flitSend_of_spent switched here hears spent)
  case slot =>
    intro s p u q live port switched here hears key seq
    refine ⟨?again, ?control, ?worn, ?data, ?idle⟩
    case again =>
      intro f i replays place found few y formed
      subst formed
      exact event_leaves live rfl (decide_eq_true port)
        ((flitSend_of_replay switched here hears key seq replays place found).trans (if_neg (by omega)))
    case control =>
      intro still room m rest y queued free formed
      exact event_leaves live rfl (decide_eq_true port)
        (flitSend_of_control switched here hears key seq still room queued free formed)
    case worn =>
      intro f i replays place found many
      exact event_leaves live rfl (decide_eq_true port)
        ((flitSend_of_replay switched here hears key seq replays place found).trans (if_pos many))
    case data =>
      intro c x i still room nothing up next
      exact event_leaves live rfl (decide_eq_true port) (flitSend_of_data switched here hears key seq still room nothing up next)
    case idle =>
      intro y still formed free
      have row := flitSend_of_idle switched here hears key seq still formed free
      refine ⟨fun keyed => ?_, fun sent unkeyed => ?_⟩ <;>
        refine event_leaves live rfl (decide_eq_true port) (row.trans ?_)
      · rw [(mute_eq_false_iff q).mpr keyed, if_neg Bool.false_ne_true]
      · exact if_pos (by simp only [Port.mute, sent, unkeyed, beq_self_eq_true, Bool.and_self])
  case ack =>
    intro s p q live port here hears waits
    exact event_leaves live rfl (decide_eq_true port) (ackTimer_of_waiting here hears waits)
  case replay =>
    intro s p q live port here hears still unacked
    have row := replayTimeout_eq here hears still unacked
    refine ⟨fun again => ?_, fun limit up ran few => ?_, fun limit up rested => ?_⟩ <;>
      refine event_leaves live rfl (decide_eq_true port) (row.trans ?_)
    · refine if_neg fun met => ?_
      obtain ⟨limit, up⟩ := met
      obtain few | session := again
      · omega
      · simp [up] at session
    · rw [if_pos ⟨by omega, up⟩, if_pos ⟨ran, few⟩]
    · rw [if_pos ⟨by omega, up⟩, if_neg (by grind), here]
      rfl
  case retrained =>
    intro s p q live port here retrains
    exact event_leaves live rfl (decide_eq_true port) (retrainDone_of_retraining here retrains)
  case rekey =>
    intro s p q live port here up
    have row (new : q.sess.rekeyIn = false) := keyNext_of_first here up new
    refine ⟨fun first worn => ?_, fun sent new lower => ?_, fun sent new higher => ?_, fun first new lower => ?_,
      fun first new higher => ?_, fun sent had lower new => ?_⟩
    · exact event_leaves live rfl (decide_eq_true port) ((rekeyStart_of_worn here up worn).trans (keyNextOut_of_first here first))
    · refine event_leaves live rfl (decide_eq_true port) ((row new).trans ?_)
      rw [keyNextOut_of_sent here sent, if_neg (by simp [lower]), here]
      rfl
    · refine event_leaves live rfl (decide_eq_true port) ((row new).trans ?_)
      rw [keyNextOut_of_sent here sent, if_pos higher, here]
      rfl
    · refine event_leaves live rfl (decide_eq_true port) ((row new).trans ?_)
      rw [keyNextOut_of_first here first, if_neg (by simp [lower])]
    · refine event_leaves live rfl (decide_eq_true port) ((row new).trans ?_)
      rw [keyNextOut_of_first here first, if_pos higher]
    · refine event_leaves live rfl (decide_eq_true port) ((keyNextKem_of_lower here up sent had lower new).trans ?_)
      rw [here]
      rfl

end Sys2Proof.Machine

namespace Sys2Proof.Machine

/-! The pair's timers (16 R428, R431 to R434, R440): each in its role and time, and out of them. -/

/-- A renewal that tells the witness that the standby is out (R434). -/
def asksOut (w : IssuedFor) : Bool := match w with
  | .renew _ true _ => true
  | _ => false

theorem asksOut_iff (w : IssuedFor) : asksOut w = true ↔ ∃ n b, w = .renew n true b := by
  cases w with
  | renew n out b => cases out <;> simp [asksOut]
  | _ => simp [asksOut]

/-- What keeps a copy from its end: a sector or record on its way, or the renewal that ends it (R440). -/
def keepsCopying (w : IssuedFor) : Bool := match w with
  | .copy _ _ => true
  | .metaRec => true
  | .renew _ _ true => true
  | _ => false

theorem keepsCopying_iff (w : IssuedFor) :
    keepsCopying w = true ↔ (∃ e o, w = .copy e o) ∨ w = .metaRec ∨ ∃ n b, w = .renew n b true := by
  cases w with
  | renew n out back => cases back <;> simp [keepsCopying]
  | _ => simp [keepsCopying]

section Renewal

variable {s : State}

theorem renewTimer_eq : s.renewTimer = if (s.pair.role = .active ∨ s.pair.role = .takeover) ∧ s.pair.renewDue ≤ s.dev.tick then
    ({ s with pair.renewDue := s.dev.tick + s.leaseTicks / 4 } : State).renew (s.pair.role == .takeover) false else s := by
  simp only [State.renewTimer, Bool.and_eq_true, Bool.or_eq_true, beq_iff_eq, decide_eq_true_eq]

theorem leaseLapse_eq : s.leaseLapse =
    if s.pair.role = .active ∧ s.pair.leaseOk + s.leaseTicks ≤ s.dev.tick then s.fenceUnit else s := by
  simp only [State.leaseLapse, Bool.and_eq_true, beq_iff_eq, decide_eq_true_eq]

theorem beatSend_eq : s.beatSend =
    if s.pair.role = .active ∧ s.pair.enabled = true ∧ s.pair.lastTx + 64 ≤ s.dev.tick then
      (s.pairSend .beat 0x72).2 else s := by
  simp only [State.beatSend, Bool.and_eq_true, beq_iff_eq, decide_eq_true_eq, and_assoc]

end Renewal

section Silence

variable {s : State} (silent : s.pair.lastRx + 1024 ≤ s.dev.tick)

include silent

theorem pairSilence_of_standby (role : s.pair.role = .standby) : s.pairSilence = s.standbyClaims := by
  simp only [State.pairSilence, Nat.not_lt.mpr silent, if_false, role]

theorem pairSilence_of_syncing (role : s.pair.role = .syncing) : s.pairSilence = s.becomeOut := by
  simp only [State.pairSilence, Nat.not_lt.mpr silent, if_false, role]

end Silence

theorem pairSilence_of_other {s : State}
    (other : s.dev.tick < s.pair.lastRx + 1024 ∨ s.pair.role ≠ .standby ∧ s.pair.role ≠ .syncing) : s.pairSilence = s := by
  simp only [State.pairSilence]
  split
  · rfl
  · obtain early | ⟨no_standby, no_copy⟩ := other
    · contradiction
    · split
      next standby => exact absurd standby no_standby
      next copying => exact absurd copying no_copy
      next => rfl

theorem standbyClaims_of_free {s : State} (free : s.pair.claiming = false ∧ s.pair.retryDue = none) :
    s.standbyClaims = ({ s with pair.noAck := true } : State).claimLease := by
  obtain ⟨idle, unset⟩ := free
  have may : (s.pair.claiming || s.pair.retryDue.isSome) = false := by simp [idle, unset]
  simp only [State.standbyClaims, may, Bool.false_eq_true, if_false]

theorem standbyClaims_of_claiming {s : State} (busy : s.pair.claiming = true ∨ s.pair.retryDue ≠ none) :
    s.standbyClaims = { s with pair.noAck := true } := by
  have may : (s.pair.claiming || s.pair.retryDue.isSome) = true := by
    simpa [Option.isSome_iff_ne_none] using busy
  simp only [State.standbyClaims, may, if_true]

section Mirror

variable {s : State} {tag due : Nat} {w : MirrorWait}

theorem mirrorTimeout_of_waiting (found : s.pair.mirror.find tag = some (due, w)) : s.mirrorTimeout tag =
    if s.pair.role = .active ∧ due ≤ s.dev.tick ∧ (s.fab.issued.any fun x => asksOut x.2.what) = false then s.renew true false
    else s := by
  have row : s.mirrorTimeout tag =
      if s.pair.role == .active && decide (due ≤ s.dev.tick) && !(s.fab.issued.any fun x => asksOut x.2.what) then
        s.renew true false else s := by
    simp only [State.mirrorTimeout, found]
    rfl
  simp only [row, Bool.and_eq_true, beq_iff_eq, decide_eq_true_eq, Bool.not_eq_true', and_assoc]

theorem mirrorTimeout_of_gone (gone : s.pair.mirror.find tag = none) : s.mirrorTimeout tag = s := by
  simp only [State.mirrorTimeout, gone]

theorem no_asksOut_iff : (s.fab.issued.any fun x => asksOut x.2.what) = false ↔
    ∀ x ∈ s.fab.issued, ∀ n b, x.2.what ≠ .renew n true b := by
  simp only [List.any_eq_false, asksOut_iff, not_exists, ne_eq]

end Mirror

section Claims

variable {s : State} {d : Nat}

theorem peerWait_of_due (role : s.pair.role = .unpaired) (on : s.pair.enabled = true) (waits : s.pair.waitDue = some d)
    (due : d ≤ s.dev.tick) : s.peerWait = ({ s with pair.waitDue := none } : State).claimLease := by
  simp only [State.peerWait, role, on, waits, Option.any_some, due, beq_self_eq_true, decide_true, Bool.and_self, if_true]

theorem peerWait_of_other
    (other : s.pair.role ≠ .unpaired ∨ s.pair.enabled = false ∨ ∀ d, s.pair.waitDue = some d → s.dev.tick < d) :
    s.peerWait = s := by
  refine if_neg ?_
  simp only [Bool.and_eq_true, beq_iff_eq, Option.any_eq_true, decide_eq_true_eq]
  rintro ⟨⟨role, on⟩, d, waits, due⟩
  obtain other | off | early := other
  · exact other role
  · simp [on] at off
  · exact Nat.not_lt.mpr due (early d waits)

theorem claimRetry_of_due (may : s.pair.role = .standby ∨ s.pair.role = .unpaired ∧ s.pair.enabled = true)
    (again : s.pair.retryDue = some d) (due : d ≤ s.dev.tick) : s.claimRetry = s.claimLease := by
  have open_to : (s.pair.role == .standby || (s.pair.role == .unpaired && s.pair.enabled)) = true := by simpa using may
  simp only [State.claimRetry, open_to, again, Option.any_some, due, decide_true, Bool.and_self, if_true]

theorem claimRetry_of_early (early : ∀ d, s.pair.retryDue = some d → s.dev.tick < d) : s.claimRetry = s := by
  refine if_neg ?_
  simp only [Bool.and_eq_true, Option.any_eq_true, decide_eq_true_eq]
  rintro ⟨-, d, again, due⟩
  exact Nat.not_lt.mpr due (early d again)

end Claims

section Resync

variable {s : State}

theorem copyDone_eq : s.copyDone = if s.pair.role != .active || !s.pair.syncing || s.nextCopy.isSome ||
      s.fab.issued.any (fun x => keepsCopying x.2.what) then s
    else ({ s.pair.copyTen.foldl (fun u n => u.sendMeta (.synced n)) s with pair.copyTen := [] } : State).renew false true := rfl

theorem copyDone_of_end (role : s.pair.role = .active) (syncing : s.pair.syncing = true) (last : s.nextCopy = none)
    (answered : ∀ x ∈ s.fab.issued, (∀ e o, x.2.what ≠ .copy e o) ∧ x.2.what ≠ .metaRec ∧ ∀ n b, x.2.what ≠ .renew n b true) :
    s.copyDone =
      ({ s.pair.copyTen.foldl (fun u n => u.sendMeta (.synced n)) s with pair.copyTen := [] } : State).renew false true := by
  have none_left : s.fab.issued.any (fun x => keepsCopying x.2.what) = false := by
    simpa only [List.any_eq_false, keepsCopying_iff, not_or, not_exists] using answered
  rw [copyDone_eq, none_left, role, syncing, last]
  rfl

theorem copyDone_of_other (other : s.pair.role ≠ .active ∨ s.pair.syncing = false ∨ s.nextCopy ≠ none) : s.copyDone = s := by
  refine copyDone_eq.trans (if_pos ?_)
  simp only [Bool.or_eq_true, bne_iff_ne, Bool.not_eq_true', Option.isSome_iff_ne_none]
  obtain idle | still | going := other
  · exact .inl (.inl (.inl idle))
  · exact .inl (.inl (.inr still))
  · exact .inl (.inr going)

end Resync

/-- Settles O33: each timer in its role and time by its own lemma, and otherwise nothing of its own. -/
theorem pairTimers : Obligations.PairTimers := by
  refine ⟨?renew, ?lapse, ?silence, ?beat, ?mirror, ?peer, ?copy, ?retry⟩
  case renew =>
    intro s live
    refine ⟨fun due => ⟨fun active => ?_, fun takes => ?_⟩, fun other => ?_⟩ <;>
      refine event_leaves live rfl rfl (renewTimer_eq.trans ?_)
    · rw [if_pos ⟨.inl active, due⟩, active]
      rfl
    · rw [if_pos ⟨.inr takes, due⟩, takes]
      rfl
    · refine if_neg fun now => ?_
      obtain ⟨role, due⟩ := now
      obtain early | ⟨idle, no_takeover⟩ := other
      · omega
      · exact role.elim idle no_takeover
  case lapse =>
    intro s live
    refine ⟨fun u active lapsed fenced => ?_, fun other => ?_⟩
    · have row (t : State) (sent : (if u.ready.pairLink then (u.pairSend .fence 0x75).2 else u) = t) :
          exec .leaseLapse s = .next t.settle := by
        refine event_leaves live rfl rfl (leaseLapse_eq.trans ((if_pos ⟨active, lapsed⟩).trans ?_))
        rw [← sent, fenced]
        rfl
      exact ⟨fun linked => row _ (if_pos linked), fun cut => row _ (by rw [cut, if_neg Bool.false_ne_true])⟩
    · refine event_leaves live rfl rfl (leaseLapse_eq.trans (if_neg fun now => ?_))
      obtain ⟨active, lapsed⟩ := now
      obtain early | idle := other
      · omega
      · exact idle active
  case silence =>
    intro s live
    refine ⟨fun silent => ⟨fun standby free => ?_, fun standby busy => ?_, fun copying => ?_⟩, fun other => ?_⟩
    · refine event_leaves live rfl rfl ((pairSilence_of_standby silent standby).trans ?_)
      rw [standbyClaims_of_free free, State.claimLease]
    · exact event_leaves live rfl rfl ((pairSilence_of_standby silent standby).trans (standbyClaims_of_claiming busy))
    · exact event_leaves live rfl rfl (pairSilence_of_syncing silent copying)
    · exact event_leaves live rfl rfl (pairSilence_of_other other)
  case beat =>
    intro s live
    refine ⟨fun active on late => ?_, fun other => ?_⟩ <;> refine event_leaves live rfl rfl (beatSend_eq.trans ?_)
    · rw [if_pos ⟨active, on, late⟩]
      rfl
    · refine if_neg fun now => ?_
      obtain ⟨active, on, late⟩ := now
      obtain idle | off | early := other
      · exact idle active
      · simp [on] at off
      · omega
  case mirror =>
    intro s tag live
    refine ⟨fun due w found => ⟨fun active late first => ?_, fun other => ?_⟩, fun gone => ?_⟩
    · refine event_leaves live rfl rfl ((mirrorTimeout_of_waiting found).trans (if_pos ⟨active, late, no_asksOut_iff.mpr first⟩))
    · refine event_leaves live rfl rfl ((mirrorTimeout_of_waiting found).trans (if_neg fun now => ?_))
      obtain ⟨active, late, first⟩ := now
      obtain idle | early | ⟨x, sent, n, b, asked⟩ := other
      · exact idle active
      · omega
      · exact no_asksOut_iff.mp first x sent n b asked
    · exact event_leaves live rfl rfl (mirrorTimeout_of_gone gone)
  case peer =>
    intro s live
    refine ⟨fun d role on waits due => ?_, fun other => ?_⟩
    · refine event_leaves live rfl rfl ((peerWait_of_due role on waits due).trans ?_)
      rw [State.claimLease]
    · exact event_leaves live rfl rfl (peerWait_of_other other)
  case copy =>
    intro s live
    exact ⟨fun role syncing last answered => event_leaves live rfl rfl (copyDone_of_end role syncing last answered),
      fun other => event_leaves live rfl rfl (copyDone_of_other other)⟩
  case retry =>
    intro s live
    refine ⟨fun d may again due => ?_, fun early => event_leaves live rfl rfl (claimRetry_of_early early)⟩
    refine event_leaves live rfl rfl ((claimRetry_of_due may again due).trans ?_)
    rw [State.claimLease]

end Sys2Proof.Machine

namespace Sys2Proof.Machine

/-! Packets that come in whole (13 R349), and the pair's requests among them (16 R426, R428, R433, R437, R440; 11 R302). -/

section Arriving

variable {op : Nat} {p q : Packet} {x : Inner} {s a : State}

/-- What a packet row does follows from where its packet goes. -/
theorem kfpRow_of_up {t : State} (port : p.port < 64) (live : Live s) (up : (s.port p.port).st = .up)
    (goes : s.packetIn op p x = t) : kfpRow op p x s = .next t.settle := by
  have taken : s.packetOn op p x = t := by simp only [State.packetOn, up, beq_self_eq_true, if_true, goes]
  rw [kfpRow, effect_of_live _ _ live (decide_eq_true port), taken]

theorem kfpRow_of_arrives (arrives : Arrives op p s q a) : kfpRow op p x s = .next (a.deliverIn op q x).settle := by
  obtain ⟨port, live, up, here⟩ := arrives
  exact kfpRow_of_up port live up (by simp only [State.packetIn, here])

end Arriving

/-- What the pair hears once the pair's request has been let in: the unit no longer waits, and one that copies or is OUT follows
the term. -/
def State.pairHears (a : State) (term : Nat) : State :=
  { a with pair.lastRx := a.dev.tick, pair.term := if a.copies || a.pair.role == PairRole.out then term else a.pair.term }

/-- What the term and the role make of a pair request that has been let in (16 R432, R437). -/
def State.pairTaken (a : State) (r : Req) (term : Nat) (msg : PairMsg) : State :=
  if term < a.pair.term then a.answer r .denied
  else if a.pair.role == .fenced then (a.heardTaken msg).answer r .failover
  else
    let x := (a.pairHears term).pairDo msg
    match x.1 with
    | some (st, d) => x.2.answer r st d
    | none => x.2

section PairRows

variable {op term : Nat} {p q : Packet} {i : Instr} {msg : PairMsg} {s a : State} {r : Req}

/-- The rows of the pair's requests are packet rows, whose opcodes stand together (16 R432). -/
theorem exec_of_pairRow (row : PairRow op p term i msg) (s : State) :
    (0x70 ≤ op ∧ op ≤ 0x75) ∧ exec i s = kfpRow op p { pair := some (term, msg) } s := by
  obtain ⟨m, rfl, rfl, rfl, rfl⟩ | ⟨x, rfl, rfl, rfl⟩ | ⟨x, rfl, rfl, rfl⟩ | ⟨e, o, rfl, rfl, rfl⟩ | ⟨e, o, d, rfl, rfl, rfl⟩ |
    ⟨rfl, rfl, rfl⟩ := row <;> exact ⟨by decide, rfl⟩

/-- A pair request of the peer, on a pair port: the term decides, and then the role (16 R426, R437). -/
theorem pairIn_of_peer (own : 0x70 ≤ op ∧ op ≤ 0x75)
    (current : ∀ g, (a.nodeRec q.src).gen = some g → (q.ngen + 16 - g) % 16 < 8) (sound : headerBad op q = false)
    (version : q.hdrVer = 3) (peer : q.src = a.peerNode) (port : a.isPairPort q.port = true) (req : r = { opcode := op, p := q }) :
    a.pairIn op q (some (term, msg)) = a.pairTaken r term msg := by
  have present : ((a.nodeRec q.src).gen.any fun g => decide (8 ≤ (q.ngen + 16 - g) % 16)) = false := by
    rw [Bool.eq_false_iff]
    simp only [ne_eq, Option.any_eq_true, decide_eq_true_eq, not_exists, not_and, Nat.not_le]
    exact current
  have pair : (!isPairOp op || q.hdrVer == 2) = false := by simp [isPairOp, own, version]
  have heard : (q.src != a.peerNode || !a.isPairPort q.port) = false := by simp [peer, port]
  subst req
  simp only [State.pairIn, present, sound, pair, heard, Bool.false_eq_true, if_false]
  rfl

theorem pairTaken_of_past (past : term < a.pair.term) : a.pairTaken r term msg = a.answer r .denied := by
  simp only [State.pairTaken, past, if_true]

section Present

variable (present : a.pair.term ≤ term)

include present

theorem pairTaken_of_fenced (fenced : a.pair.role = .fenced) : a.pairTaken r term msg = (a.heardTaken msg).answer r .failover := by
  simp only [State.pairTaken, Nat.not_lt.mpr present, fenced, beq_self_eq_true, if_true, if_false]

variable (unfenced : a.pair.role ≠ .fenced)

include unfenced

theorem pairTaken_of_answer {st : Status} {d : List Byte} {t : State} (does : (a.pairHears term).pairDo msg = (some (st, d), t)) :
    a.pairTaken r term msg = t.answer r st d := by
  simp only [State.pairTaken, Nat.not_lt.mpr present, beq_eq_false_iff_ne.mpr unfenced, does, Bool.false_eq_true, if_false]

theorem pairTaken_of_silence {t : State} (does : (a.pairHears term).pairDo msg = (none, t)) : a.pairTaken r term msg = t := by
  simp only [State.pairTaken, Nat.not_lt.mpr present, beq_eq_false_iff_ne.mpr unfenced, does, Bool.false_eq_true, if_false]

end Present

theorem deliverIn_of_pair (own : 0x70 ≤ op ∧ op ≤ 0x75) {x : Inner} : a.deliverIn op q x = a.pairIn op q x.pair := by
  have pair : (decide (0x70 ≤ op) && decide (op ≤ 0x7F)) = true := by
    simp only [Bool.and_eq_true, decide_eq_true_eq]
    omega
  simp only [State.deliverIn, pair, if_true]

end PairRows

section PairWork

variable {b w : State} {m : MirrorMsg} {x : PairRec}

/-- A message of which a unit that takes no copies hears is answered FAILOVER (log 183). -/
theorem pairDo_mirror_of_other (other : b.copies = false) : b.pairDo (.mirror m) = (some (.failover, []), b) := by
  simp only [State.pairDo, other, Bool.not_false, if_true]

theorem pairDo_mirror_of_silent (copies : b.copies = true) (silent : b.pair.noAck = true) :
    b.pairDo (.mirror m) = (none, { b with pair.received := b.pair.received ++ [m] }) := by
  simp only [State.pairDo, copies, silent, Bool.not_true, Bool.false_eq_true, if_false, if_true]

theorem pairDo_mirror_of_copy (copies : b.copies = true) (speaks : b.pair.noAck = false) :
    b.pairDo (.mirror m) = (some (.ok, []), b.applyMirror m) := by
  simp only [State.pairDo, copies, speaks, Bool.not_true, Bool.false_eq_true, if_false]

theorem pairDo_metaRec_of_other (other : b.copies = false) : b.pairDo (.metaRec x) = (some (.failover, []), b) := by
  simp only [State.pairDo, other, Bool.not_false, if_true]

theorem pairDo_metaRec_of_copy {room : Bool} (copies : b.copies = true) (applied : b.applyRecord x = (room, w)) :
    b.pairDo (.metaRec x) = (some (if room then .ok else .busyRetry, []), w) := by
  simp only [State.pairDo, copies, applied, Bool.not_true, Bool.false_eq_true, if_false]
  cases room <;> rfl

variable {e off : Nat} {y : Extent} {st : Status} {d : List Byte}

theorem pairDo_fetch_of_standby (role : b.pair.role = .standby) (found : b.pool.extents.find e = some y)
    (inside : off < y.grans.length * 2097152)
    (read : b.readSector (b.framePage e (off / 65536) none * 256 + off % 65536 / 256) = (st, d, w)) :
    b.pairDo (.fetch e off) = (some (st, d), w) := by
  have there : ((b.pool.extents.find e).any fun x => decide (off < x.grans.length * 2097152)) = true := by
    rw [found, Option.any_some, decide_eq_true_eq]
    exact inside
  simp only [State.pairDo, role, there, read, bne_self_eq_false, Bool.not_true, Bool.false_eq_true, if_false]

theorem pairDo_fetch_of_other (other : b.pair.role ≠ .standby) : b.pairDo (.fetch e off) = (some (.failover, []), b) := by
  simp only [State.pairDo, bne_iff_ne.mpr other, if_true]

theorem pairDo_copy_of_copy (copies : b.copies = true) :
    b.pairDo (.copy e off d) = (some (.ok, []), (b.placeForCopy e).putCopy e off d) := by
  simp only [State.pairDo, copies, Bool.not_true, Bool.false_eq_true, if_false]

theorem pairDo_copy_of_other (other : b.copies = false) : b.pairDo (.copy e off d) = (some (.failover, []), b) := by
  simp only [State.pairDo, other, Bool.not_false, if_true]

theorem pairDo_fence : b.pairDo .fence = (some (.ok, []), if b.pair.role = .standby then b.standbyClaims else b) := by
  simp only [State.pairDo, beq_iff_eq]

end PairWork

/-- Settles O32: a pair request of the peer is decided by its term and this unit's role, and then its message does its work. -/
theorem pairPackets : Obligations.PairPackets := by
  intro op i p s q a term msg r row arrives current sound version peer port req
  obtain ⟨own, is_row⟩ := exec_of_pairRow row s
  have enters {t : State} (does : a.pairIn op q (some (term, msg)) = t) : exec i s = .next t.settle := by
    rw [is_row, kfpRow_of_arrives arrives, deliverIn_of_pair own, does]
  have decides := pairIn_of_peer (term := term) (msg := msg) own current sound version peer port req
  refine ⟨fun past => ?past, fun present fenced => ?fenced, fun b present unfenced taken => ?works⟩
  case past => exact enters (decides.trans (pairTaken_of_past past))
  case fenced => exact enters (decides.trans (pairTaken_of_fenced present fenced))
  case works =>
    have works {st : Status} {d : List Byte} {t : State} (does : b.pairDo msg = (some (st, d), t)) :
        exec i s = .next (t.answer r st d).settle := by
      rw [taken] at does
      exact enters (decides.trans (pairTaken_of_answer present unfenced does))
    refine ⟨fun m is => ?mirror, fun x is => ?record, fun x is => ?beat, fun e off is => ?fetch, fun e off d is => ?copy,
      fun is => ?fence⟩
    case mirror =>
      subst is
      refine ⟨fun copies speaks => works (pairDo_mirror_of_copy copies speaks), fun copies silent => ?_,
        fun other => works (pairDo_mirror_of_other other)⟩
      have does := pairDo_mirror_of_silent (m := m) copies silent
      rw [taken] at does ⊢
      exact enters (decides.trans (pairTaken_of_silence present unfenced does))
    case record =>
      subst is
      exact ⟨fun w copies applied => works (pairDo_metaRec_of_copy copies applied),
        fun w copies applied => works (pairDo_metaRec_of_copy copies applied), fun other => works (pairDo_metaRec_of_other other)⟩
    case beat =>
      subst is
      exact works rfl
    case fetch =>
      subst is
      exact ⟨fun y st d w role found inside read => works (pairDo_fetch_of_standby role found inside read),
        fun other => works (pairDo_fetch_of_other other)⟩
    case copy =>
      subst is
      exact ⟨fun copies => works (pairDo_copy_of_copy copies), fun other => works (pairDo_copy_of_other other)⟩
    case fence =>
      subst is
      refine ⟨fun role => works (pairDo_fence.trans ?_), fun other => works (pairDo_fence.trans ?_)⟩
      · rw [if_pos role]
      · rw [if_neg other]

end Sys2Proof.Machine

namespace Sys2Proof.Machine

/-! Packets of others (13 R362, R364, R372, R373, R376): copies of a multicast write, and a packet on its way. -/

section Transit

variable {op n mask : Nat} {p q : Packet} {a : State}

/-- A multicast packet is copied to every other port of its group that carries multicast (R373). -/
theorem mcastIn_of_group (group : a.fab.groups.find (q.dst % 4096) = some (mask, true)) : a.mcastIn op q =
    ((bitsOf mask 64).filter (· != q.port)).foldl (fun s n =>
      if (s.port n).st == .up && (s.port n).mode == 0 && !s.isPairPort n then s.commit n op q false 0 0xFFFF 7
      else s.countDev 9) a := by
  simp only [State.mcastIn, Tbl.findD, group, Option.getD_some, Bool.true_and]

/-- A packet of another node goes to the port that the router picks among its candidates (R364). -/
theorem transitIn_of_pick (bank : a.routeBank q.epoch = q.epoch)
    (reached : a.eligible ((a.bank q.epoch).entries.findD q.dst 0) (channelOf op) (some q.port) q.escape false ≠ [])
    (picked : a.pickPort (a.eligible ((a.bank q.epoch).entries.findD q.dst 0) (channelOf op) (some q.port) q.escape false)
      (if q.escape then 5 else channelOf op) (isRequest op) = some n) :
    a.transitIn op q = a.commit n op q false 0 0xFFFF 7 := by
  obtain ⟨c, l, cands⟩ := List.exists_cons_of_ne_nil reached
  rw [cands] at picked
  simp only [State.transitIn, State.route, Bool.false_and, bank, bne_self_eq_false, Bool.false_eq_true, if_false, cands, picked,
    Nat.sub_self]

end Transit

/-- Settles O31: a multicast write and a packet for another node, each by what its arrival leads to. -/
theorem transitPackets : Obligations.TransitPackets := by
  refine ⟨?copies, ?forward⟩
  case copies =>
    intro p s q a mask port live up arrives group
    refine kfpRow_of_up port live up ?_
    simp only [State.packetIn, arrives, mcastIn_of_group group]
  case forward =>
    intro op p s q a n port live up arrives bank reached picked
    refine kfpRow_of_up port live up ?_
    simp only [State.packetIn, arrives, transitIn_of_pick bank reached picked]

end Sys2Proof.Machine

namespace Sys2Proof.Machine

/-! Completions, snoop responses and link sessions (13 R353; 07 R190; 16 R429, R431; 09 R256, R257). -/

section Completions

variable {q : Packet} {a b : State} {i : Issued}

theorem deliverIn_of_completion (x : Inner) :
    a.deliverIn 0x40 q x = if a.isLease q then a.leaseIn q x.sigOk else a.completionIn q := rfl

/-- A completion of a request that waits, and of no snoop, ends it (R353). -/
theorem completionIn_of_answered (heard : b = if q.synthetic then a else a.heard q.src) (waits : b.answered q = some i)
    (arrived : q.status ≠ Status.linkLost.code) (no_snoop : ∀ h n, i.what ≠ .snoop h n) :
    a.completionIn q = (b.delIssued q.tag).issuedDone q.tag i.what q.status q.payload := by
  subst heard
  simp only [State.completionIn, waits, beq_eq_false_iff_ne.mpr arrived, Bool.false_eq_true, if_false, Bool.not_false, Bool.and_true]

/-- The request that a completion answers is one that is out (R353). -/
theorem issued_of_answered (waits : a.answered q = some i) : a.fab.issued.find q.tag = some i :=
  (Option.filter_eq_some_iff.mp waits).1

variable {sent : Nat} (waits : a.answered q = some i) (renewal : i.what = .renew sent false false)

include waits renewal

theorem isLease_of_renewal : a.isLease q = true := by
  simp only [State.isLease, issued_of_answered waits, Option.any_some, renewal]

/-- A granted renewal moves the confirmed time of the lease on (R431). -/
theorem leaseIn_of_renewal (pair : bits (leNat (q.payload.take 16)) 63 48 = pairId a) (granted : q.status = 0)
    (heard : b = (a.heard q.src).delIssued q.tag) :
    a.leaseIn q true = { b with pair.leaseOk := max b.pair.leaseOk sent } := by
  subst heard
  have answered : (0 == Status.linkLost.code) = false := rfl
  have sound : (!true || bits (leNat (q.payload.take 16)) 63 48 != pairId a) = false := by rw [pair, bne_self_eq_false]; rfl
  simp only [State.leaseIn, waits, granted, answered, sound, renewal, Bool.false_eq_true, if_false]
  rfl

end Completions

section Snoops

variable {q : Packet} {b : State} {h n : Nat} {t : Trans} {y : Snoop} {told : SnoopSays}

/-- The response of the snooped node, in the session of the snoop, is its answer (R190). -/
theorem snoopResponse_of_snooped (asked : b.fab.issued.find q.tag = some ⟨q.tgen, q.src, .snoop h n⟩) (gen : q.ngen = b.fab.ngen)
    (line : b.com.trans.find h = some t) (snoop : t.snoops.find? (fun x => x.tag == q.tag) = some y)
    (session : y.session = q.session) : b.snoopResponse q told = b.snoopAnswer h y told q.wbPending := by
  simp only [State.snoopResponse, asked, gen, line, snoop, session, bne_self_eq_false, Bool.or_self, Bool.false_eq_true, if_false,
    Option.bind_some, beq_self_eq_true, if_true]

end Snoops

section LinkSessions

variable {s a b : State} {r : Req} {q : LinkOpen} {id : Nat}

theorem runRequest_linkOpen (link : r.opcode = 0x50) : s.runRequest r = s.runLinkOpen r := by
  simp [State.runRequest, link]

theorem runRequest_linkClose (link : r.opcode = 0x51) : s.runRequest r = s.runLinkClose r := by
  simp [State.runRequest, link]

/-- An open that is proved and admitted gets the next free identifier, and older generations' sessions end (R256). -/
theorem runLinkOpen_of_admitted (read : q = LinkOpen.ofBytes r.p.payload) (chain : s.accepts q.chain = true)
    (signed : q.sigOk = true) (opened : (s.tenantOf q.tenant).any (fun t => t.sess == .opened) = true)
    (admitted : s.ten.admissions.contains (q.tenant, q.identity) = true)
    (new : (s.ten.links.find? fun l => (l.2.node == r.p.src && l.2.tenant == q.tenant) && l.2.gen == q.gen) = none)
    (free : cyclicFree (fun i => s.ten.links.has i || s.ten.barred.has i) s.ten.lastLink 1 65535 = some id)
    (ended : a = (s.ten.links.keysWhere fun l => (l.node == r.p.src && l.tenant == q.tenant) &&
      decide (1 ≤ (q.gen + 16 - l.gen) % 16) && decide ((q.gen + 16 - l.gen) % 16 ≤ 7)).foldl State.endLink s)
    (put : b = (a.nodeGen r.p.src q.gen).putLink id
      { node := r.p.src, gen := q.gen, tenant := q.tenant, identity := q.identity }) :
    s.runLinkOpen r = (({ b with ten.lastLink := some id } : State).newBucket id q.tenant).complete r .ok none
      (some (linkAnswer r id)) := by
  have older : (s.ten.links.keysWhere fun l => (l.node == r.p.src && l.tenant == q.tenant) &&
      (decide (1 ≤ (q.gen + 16 - l.gen) % 16) && decide ((q.gen + 16 - l.gen) % 16 ≤ 7))).foldl State.endLink s = a := by
    rw [ended]
    simp only [Bool.and_assoc]
  subst read
  simp only [State.runLinkOpen, chain, signed, opened, admitted, new, free, older, ← put, Bool.and_self, Bool.not_true, Bool.or_self,
    Bool.false_eq_true, if_false]

end LinkSessions

/-- Settles O30: a completion, a lease's completion and each snoop response by what it answers, the link sessions by what their
request does. -/
theorem answerPackets : Obligations.AnswerPackets := by
  have snooped {op : Nat} {p q : Packet} {s a b : State} {h n : Nat} {t : Trans} {y : Snoop} {told : SnoopSays} {x : Inner}
      (arrives : Arrives op p s q a) (taken : a.deliverIn op q x = b.snoopResponse q told)
      (asked : b.fab.issued.find q.tag = some ⟨q.tgen, q.src, .snoop h n⟩) (gen : q.ngen = b.fab.ngen)
      (line : b.com.trans.find h = some t) (snoop : t.snoops.find? (fun x => x.tag == q.tag) = some y)
      (session : y.session = q.session) :
      kfpRow op p x s = .next (b.snoopAnswer h y told q.wbPending).settle := by
    rw [kfpRow_of_arrives arrives, taken, snoopResponse_of_snooped asked gen line snoop session]
  refine ⟨?completion, ?lease, ?data, ?clean, ?absent, ?opens, ?closes⟩
  case completion =>
    intro p s q a b i arrives no_lease heard waits arrived no_snoop
    refine (kfpRow_of_arrives arrives).trans ?_
    rw [deliverIn_of_completion, no_lease, if_neg Bool.false_ne_true, completionIn_of_answered heard waits arrived no_snoop]
  case lease =>
    intro p s q a i sent arrives waits renewal pair granted b heard
    refine (kfpRow_of_arrives arrives).trans ?_
    rw [deliverIn_of_completion, if_pos (isLease_of_renewal waits renewal), leaseIn_of_renewal waits renewal pair granted heard]
  case data =>
    intro p s q a b h n t y arrives heard asked gen line snoop session
    exact snooped arrives (by rw [heard]; rfl) asked gen line snoop session
  case clean =>
    intro p s q a b h n t y arrives heard asked gen line snoop session
    exact snooped arrives (by rw [heard]; rfl) asked gen line snoop session
  case absent =>
    intro p s q a b h n t y arrives heard asked gen line snoop session
    exact snooped arrives (by rw [heard]; rfl) asked gen line snoop session
  case opens =>
    intro p o s r u q id v runs read chain signed opened admitted new free a ended b put rests
    have link : r.opcode = 0x50 := runs.opcode
    refine kfpRow_of_runs runs ?_
    rwa [runRequest_linkOpen link, runLinkOpen_of_admitted read chain signed opened admitted new free ended put]
  case closes =>
    intro p s r u v runs rests
    have link : r.opcode = 0x51 := runs.opcode
    refine kfpRow_of_runs runs ?_
    rwa [runRequest_linkClose link]

end Sys2Proof.Machine

namespace Sys2Proof.Machine

/-! A new request (13 R349, R352, R359, R360; 14 R385, R388): the rows it passes, the tag table and the fence, and the hub queue. -/

section Passing

variable {op : Nat} {p q : Packet} {x : Inner} {s a b c d : State} {r : Req} {l : Link}

theorem touchBank_todo (s : State) (e : Nat) : (s.touchBank e).todo = s.todo := by
  simp only [State.touchBank, State.putBank]
  split <;> rfl

/-- What a packet's arrival does to the device leaves the agenda as it is. -/
theorem arrive_todo {w : Inbound} (arrives : s.arrive op p = (w, q, a)) : a.todo = s.todo := by
  have all : (s.arrive op p).2.2.todo = s.todo := by
    simp only [State.arrive]
    split
    · rfl
    · (repeat' split) <;> exact touchBank_todo s _
  rw [← all, arrives]

theorem heard_todo (n : Nat) : (s.heard n).todo = s.todo := by
  simp only [State.heard]
  split <;> rfl

/-- A request below 0x40 that comes to a device that is awake is classified (R356). -/
theorem deliverIn_of_request (low : op < 0x40) (awake : a.pwr.sleep = .active) : a.deliverIn op q x = a.classify op q := by
  have pair : (decide (0x70 ≤ op) && decide (op ≤ 0x7F)) = false := by
    simp only [Bool.and_eq_false_iff, decide_eq_false_iff_not]
    omega
  have other (n : Nat) (high : 0x40 ≤ n) : (op == n) = false := beq_false_of_ne (by omega)
  simp only [State.deliverIn, pair, other 0x40 (by omega), other 0x41 (by omega), other 0x42 (by omega), other 0x43 (by omega),
    other 0x50 (by omega), other 0x60 (by omega), awake, bne_self_eq_false, Bool.false_and, Bool.false_eq_true, if_false]

/-- The hedge and rows 1 to 4 of Table 13-5 let a request of the present generation pass. -/
theorem classify_of_passed (low : op < 0x40) (gen : (a.nodeRec q.src).gen = some q.ngen) (ready : a.notReady op = false)
    (hedge : a.hedge op q = none) (heard : b = a.heard q.src) (sound : row4 op q = none) (serves : b.passiveAnswer op = none) :
    a.classify op q = b.byTag { opcode := op, p := q } := by
  have present : ((a.nodeRec q.src).gen.any fun g => decide (8 ≤ (q.ngen + 16 - g) % 16)) = false := by
    simp [gen]
  have no_link : (op == 0x50) = false := beq_false_of_ne (by omega)
  subst heard
  simp only [State.classify, present, ready, hedge, no_link, sound, serves, Bool.false_eq_true, if_false]

theorem byTag_of_unused (unused : b.fab.tags.find (tagKey r.p.src r.p.tag) = none) :
    b.byTag r = (b.putTagRec (tagKey r.p.src r.p.tag) ⟨r.p.tgen, .executing, []⟩).newRequest r := by
  simp only [State.byTag, unused]

/-- Without a bucket and a meter nothing polices a request (14 R383). -/
theorem police_of_none {session tenant length draw : Nat} (bucket : c.sch.buckets.find session = none)
    (meter : c.sch.meters.find tenant = none) : c.police session tenant length draw = (some false, c) := by
  simp [State.police, Tbl.findD, bucket, meter, bit]

theorem channelOf_of_low (low : op < 0x40) : channelOf op = 2 ∨ channelOf op = 0 := by
  have response : (decide (0x40 ≤ op) && decide (op ≤ 0x43)) = false := by simp [Nat.not_le.mpr low]
  have other (n : Nat) (high : 0x40 ≤ n) : (op == n) = false := beq_false_of_ne (by omega)
  simp only [channelOf, response, other 0x50 (by omega), other 0x51 (by omega), other 0x60 (by omega), Bool.or_self,
    Bool.false_eq_true, if_false]
  split
  · exact .inl rfl
  · exact .inr rfl

theorem newRequest_of_unpoliced (low : r.opcode < 0x40) (link : c.ten.links.find r.p.session = some l)
    (bucket : c.sch.buckets.find r.p.session = none) (meter : c.sch.meters.find l.tenant = none) (green : r.yellow = false) :
    c.newRequest r = c.fenceIn r := by
  have no_control : (channelOf r.opcode == 3) = false := by
    obtain snoop | request := channelOf_of_low low
    · rw [snoop]; rfl
    · rw [request]; rfl
  have same : { r with yellow := false } = r := by rw [← green]
  simp only [State.newRequest, no_control, link, police_of_none bucket meter, Bool.false_eq_true, if_false, same]

theorem releaseFences_of_none (none_held : d.fab.held = []) (n fuel : Nat) : d.releaseFences n fuel = d := by
  cases fuel with
  | zero => rfl
  | succ fuel => simp only [State.releaseFences, none_held, List.find?_nil]

/-- A request without a fence counts in its fence number, and is accepted (R360). -/
theorem fenceIn_of_unfenced (unfenced : r.p.fence = false) (none_held : c.fab.held = [])
    (counted : d = if (r.p.fnum + 16 - (c.fab.fences.findD r.p.src {}).x) % 16 < 8 then
      { c with fab.fences := c.fab.fences.put r.p.src { c.fab.fences.findD r.p.src {} with
        counts := listMod (c.fab.fences.findD r.p.src {}).counts
          ((r.p.fnum + 16 - (c.fab.fences.findD r.p.src {}).x) % 16) (· + 1) } } else c) :
    c.fenceIn r = d.later [.accept r] := by
  have held : (d.later [.accept r]).fab.held = [] := by
    rw [counted]
    split <;> exact none_held
  simp only [State.fenceIn, unfenced, Bool.not_false, if_true, ← counted]
  exact releaseFences_of_none held _ _

end Passing

section Hub

variable {op : Nat} {p : Packet} {x : Inner} {s d z : State} {r : Req}

/-- A request that no sleeping station keeps waiting begins (15 R420). -/
theorem beginRequest_of_awake
    (awake : ∀ n, r.opcode = 0x28 → d.atomicStation r = some n → (d.station n).sl1 = false ∧ bit d.stn.sl2 (n / 9) = false) :
    d.beginRequest r = d.runRequest r := by
  simp only [State.beginRequest]
  split
  next => rfl
  next n waits =>
    rw [Option.ite_none_right_eq_some, beq_iff_eq] at waits
    obtain ⟨atomic, home⟩ := waits
    obtain ⟨station, field⟩ := awake n atomic home
    simp only [station, field, Bool.not_false, Bool.and_self, if_true]

/-- The entry of a request in the hub queue of its field, where no tenant is isolated. -/
def hubEntry (d : State) (r : Req) (f : Nat) : HubEntry :=
  let use : HubUse := ⟨f, (d.serviceOf r).1, (d.serviceOf r).2, ((d.hubSpan r).map (·.2.2)).getD 0⟩
  ⟨{ r with hub := some use }, use, d.dev.tick, d.sch.hubNext, []⟩

variable {f g : Nat}

theorem acceptRequest_of_page (page : d.hubPage r = some g) (field : f = granStack (pageGran g)) (shared : d.sch.iso = [])
    (alone : d.sch.hubs.findD f [] = []) : d.acceptRequest r =
      ({ d with sch.hubs := d.sch.hubs.put f [hubEntry d r f], sch.hubNext := d.sch.hubNext + 1 } : State).later [.hub f] := by
  have not_isolated (t : Nat) : d.isolated t = false := by simp [State.isolated, shared, Tbl.has, Tbl.find]
  subst field
  simp only [State.acceptRequest, page, not_isolated, alone, List.nil_append, Bool.false_eq_true, if_false]
  rfl

/-- Where one entry waits, no tenant is isolated and the shares let it, it leaves the queue and begins (R388). -/
theorem serveHub_of_lone {e : HubEntry} (shared : d.sch.iso = []) (lone : d.sch.hubs.findD f [] = [e])
    (picked : (d.pickEntry (256 + f) [e.entry]).map (·.id) = some e.order) :
    d.serveHub f = (({ d with sch.hubs := d.sch.hubs.del f } : State).leaveQueue 1 f e.use.sub e.since).beginRequest e.r := by
  have not_isolated (t : Nat) : d.isolated t = false := by simp [State.isolated, shared, Tbl.has, Tbl.find]
  obtain ⟨c, chosen, same⟩ := Option.map_eq_some_iff.mp picked
  have pick : d.pickHub f [e] = some e := by
    simp only [State.pickHub, List.map_cons, List.map_nil, chosen, Option.bind_some, same, List.find?_cons, beq_self_eq_true]
  simp only [State.serveHub, shared, lone, not_isolated, Bool.not_false, List.filter_cons, List.filter_nil, if_true, pick,
    List.map_nil, List.foldl_nil, State.startHub, bne_self_eq_false, Bool.false_eq_true, if_false, List.isEmpty_nil]

end Hub

section Running

variable {op : Nat} {p : Packet} {x : Inner} {s d : State} {r : Req} (empty : d.todo = [])
  (accepted : s.packetOn op p x = d.later [.accept r])

include empty accepted

theorem packetOn_todo_of_accepted : (s.packetOn op p x).todo = [.accept r] ∧ ({ s.packetOn op p x with todo := [] } : State) = d := by
  rw [accepted]
  refine ⟨by rw [State.later_todo, empty, List.nil_append], ?_⟩
  rw [← empty]
  rfl

variable (port : p.port < 64) (live : Live s) (is_op : r.opcode = op)

include port live is_op

theorem runs_of_accepted_unqueued (nowhere : d.hubPage r = none)
    (awake : ∀ n, r.opcode = 0x28 → d.atomicStation r = some n → (d.station n).sl1 = false ∧ bit d.stn.sl2 (n / 9) = false) :
    Runs op p x s r d := by
  obtain ⟨todo, rest⟩ := packetOn_todo_of_accepted empty accepted
  refine ⟨port, live, is_op, 0, Nat.zero_le _, .accept r, todo, ?_, empty⟩
  have direct : d.acceptRequest r = d.beginRequest r := by simp only [State.acceptRequest, nowhere]
  exact (congrArg (·.acceptRequest r) rest).trans (direct.trans (beginRequest_of_awake awake))

theorem runs_of_accepted_queued {f g : Nat} {e : HubEntry} {y z : State} (page : d.hubPage r = some g)
    (field : f = granStack (pageGran g)) (shared : d.sch.iso = []) (alone : d.sch.hubs.findD f [] = []) (entry : e = hubEntry d r f)
    (entered : y = { d with sch.hubs := d.sch.hubs.put f [e], sch.hubNext := d.sch.hubNext + 1 })
    (picked : (y.pickEntry (256 + f) [e.entry]).map (·.id) = some e.order)
    (left : z = ({ y with sch.hubs := y.sch.hubs.del f } : State).leaveQueue 1 f e.use.sub e.since)
    (awake : ∀ n, e.r.opcode = 0x28 → z.atomicStation e.r = some n → (z.station n).sl1 = false ∧ bit z.stn.sl2 (n / 9) = false) :
    Runs op p x s e.r z := by
  obtain ⟨todo, rest⟩ := packetOn_todo_of_accepted empty accepted
  have idle : y.todo = [] := by rw [entered]; exact empty
  have queues : (s.packetOn op p x).drain 1 = y.later [.hub f] := by
    rw [drain_of_next todo, State.drain, rest]
    refine (acceptRequest_of_page page field shared alone).trans ?_
    rw [entered, entry]
  have lone : y.sch.hubs.findD f [] = [e] := by
    rw [entered]
    simp [Tbl.findD]
  have same : ({ y.later [.hub f] with todo := [] } : State) = y := by
    rw [← idle]
    rfl
  refine ⟨port, live, by rw [entry]; exact is_op, 1, by decide, .hub f, ?_, ?_, ?_⟩
  · rw [queues, State.later_todo, idle, List.nil_append]
  · rw [queues, same]
    have serves := serveHub_of_lone (d := y) (by rw [entered]; exact shared) lone picked
    rw [← left] at serves
    exact serves.trans (beginRequest_of_awake awake)
  · rw [left]
    exact idle

end Running

/-- Settles O23: the rows let the request pass, the tag table and the fence take it, and it runs at once or out of its queue. -/
theorem newRequestRuns : Obligations.NewRequestRuns := by
  refine ⟨fun s t rests => ?settles, ?passes⟩
  case settles =>
    obtain ⟨n, few, ends, quiet⟩ := rests
    exact settle_of_drain (Nat.le_trans few (by decide)) ends quiet
  case passes =>
    intro op p q x l s a b c d r arrives nothing low awake gen ready hedge heard sound serves unused link bucket meter unfenced
      none_held tagged counted req
    obtain ⟨port, live, up, here⟩ := arrives
    have is_op : r.opcode = op := by rw [req]
    have packet : r.p = q := by rw [req]
    have empty : d.todo = [] := by
      have before : c.todo = [] := by rw [tagged, State.putTagRec_todo, heard, heard_todo, arrive_todo here, nothing]
      rw [counted]
      split <;> exact before
    have accepted : s.packetOn op p x = d.later [.accept r] := by
      have let_in : a.deliverIn op q x = b.byTag r := by
        rw [deliverIn_of_request low awake, classify_of_passed low gen ready hedge heard sound serves, req]
      simp only [State.packetOn, up, beq_self_eq_true, if_true, State.packetIn, here, let_in]
      subst packet
      rw [byTag_of_unused unused, ← tagged]
      have links : c.ten.links.find r.p.session = some l := by rw [tagged]; exact link
      have buckets : c.sch.buckets.find r.p.session = none := by rw [tagged]; exact bucket
      have meters : c.sch.meters.find l.tenant = none := by rw [tagged]; exact meter
      have held : c.fab.held = [] := by rw [tagged]; exact none_held
      rw [newRequest_of_unpoliced (is_op ▸ low) links buckets meters (by rw [req]), fenceIn_of_unfenced unfenced held counted]
    refine ⟨fun nowhere awake => ?_, fun g f use e y z page field shared alone uses entry entered picked left awake => ?_⟩
    · exact runs_of_accepted_unqueued empty accepted port live is_op nowhere (is_op ▸ awake)
    · have entry : e = hubEntry d r f := by rw [entry, uses]; rfl
      refine runs_of_accepted_queued empty accepted port live is_op page field shared alone entry entered picked ?_ ?_
      · rw [left, entry, uses]
        rfl
      · rw [entry] at awake ⊢
        exact fun n atomic => awake n (is_op ▸ atomic)

end Sys2Proof.Machine

namespace Sys2Proof.Machine

/-! A sector written whole (11 R298, R299, R303; 10 R277): what it then holds, and how it reads. -/

theorem mem_insertNum (l : List Nat) (n : Nat) : n ∈ insertNum l n := by
  induction l with
  | nil => simp [insertNum]
  | cons a l ih =>
    simp only [insertNum]
    split
    next => exact List.mem_cons_self
    next =>
      split
      next same => exact List.mem_cons.mpr (.inl (beq_iff_eq.mp same))
      next => exact List.mem_cons_of_mem a ih

section Pages

variable {s t : State} {p : Nat}

theorem openPage_wmap (closed : s.written p = false) : (s.openPage p).pool.wmap = insertNum s.pool.wmap p := by
  simp only [State.openPage, closed, Bool.false_eq_true, if_false]
  have touches (u : State) (mapped : u.pool.wmap = insertNum s.pool.wmap p) :
      ((List.range 256).foldl (fun s i => s.touch (p * 256 + i) true) u).pool.wmap = insertNum s.pool.wmap p :=
    foldl_keep (p := fun v : State => v.pool.wmap = insertNum s.pool.wmap p) (fun _ _ kept => kept) mapped
  split
  · rfl
  · split
    · exact touches _ rfl
    · exact foldl_keep (p := fun v : State => v.pool.wmap = insertNum s.pool.wmap p) (fun _ _ kept => kept) (touches _ rfl)

/-- The firmware's pages are where no contents change them. -/
theorem firmPage_of_contents (contents : OnlyContents s t) : t.firmPage p = s.firmPage p := by
  rw [contents]
  rfl

/-- A page is written once it is opened (R306). -/
theorem openPage_written : (s.openPage p).written p = true := by
  cases was : s.written p with
  | true => rw [State.openPage, if_pos was, was]
  | false => simp [State.written, openPage_wmap was, mem_insertNum]

theorem openPage_mem_of_open (open_page : s.dev.initMode = false ∨ s.written p = true) : (s.openPage p).pool.mem = s.pool.mem := by
  simp only [State.openPage]
  split
  · rfl
  · obtain first | opened := open_page
    · simp [first]
    · contradiction

end Pages

/-- What a sector holds beside its bytes once it has been written whole, with its owner's epoch and key (R303). -/
def SecMeta.wholeUnder (k : Nat × Nat) : SecMeta := { epoch := k.1, keyId := k.2, written := true }

theorem setSecMeta_whole (u : State) (n : Nat) (k : Nat × Nat) :
    u.setSecMeta n (.wholeUnder k) = u.putSector n (.wholeUnder k) := by
  have listed : (SecMeta.wholeUnder k == {}) = false := by simp [SecMeta.wholeUnder]
  rw [State.setSecMeta, listed, if_neg Bool.false_ne_true]

section Sector

variable {s t : State} {n : Nat} {b : List Byte} (whole : b.length = 256)

include whole

/-- A whole write opens its page, puts the bytes and the tag, and sends its bank a write (R299, R303). -/
theorem writeSector_of_whole : (s.writeSector n 0 b false).2 =
    (({ s.openPage (sectorPage n) with pool.mem := memWrite (s.openPage (sectorPage n)).pool.mem (sectorAddr n) b } : State).touch
      n true).putSector n (.wholeUnder ((s.openPage (sectorPage n)).writeKey (sectorGran n))) := by
  have full : decide (256 ≤ b.length) = true := decide_eq_true (Nat.le_of_eq whole.symm)
  have all : b.take (256 - 0) = b := List.take_of_length_le (Nat.le_of_eq whole)
  simp only [State.writeSector, full, beq_self_eq_true, Bool.and_self, if_true, State.readTouch, State.secEffect, all, Nat.add_zero]
  exact setSecMeta_whole ..

variable (wrote : t = (s.writeSector n 0 b false).2)

include wrote

theorem secMeta_of_whole : t.secMeta n = .wholeUnder ((s.openPage (sectorPage n)).writeKey (sectorGran n)) := by
  rw [wrote, writeSector_of_whole whole, State.secMeta, State.putSector, Tbl.findD, Tbl.find_put_same, Option.getD_some]

theorem mem_of_whole : t.pool.mem = memWrite (s.openPage (sectorPage n)).pool.mem (sectorAddr n) b := by
  rw [wrote, writeSector_of_whole whole]
  rfl

theorem written_of_whole : t.written (sectorPage n) = true := by
  have opened : (s.openPage (sectorPage n)).written (sectorPage n) = true := openPage_written
  rw [wrote, writeSector_of_whole whole]
  exact opened

theorem firmwareSector_of_whole : t.firmwareSector n = false := by
  have listed : t.pool.sectors.has n = true := by
    rw [wrote, writeSector_of_whole whole, State.putSector, Tbl.has, Tbl.find_put_same, Option.isSome_some]
  simp only [State.firmwareSector, listed, Bool.not_true, Bool.and_false]

end Sector

/-- A sector without an error decodes to itself (R297). -/
theorem decodeSector_nil : decodeSector (xorErr [] []) = some (false, []) := rfl

section Reading

variable {t : State} {n : Nat} {k : Nat × Nat}

/-- A sector of a written page whose tag names a key its owner holds, without error or mark, reads good (Table 11-3). -/
theorem secCond_of_whole (written : t.written (sectorPage n) = true) (tag : t.secMeta n = .wholeUnder k)
    (key : t.keyHeld n (t.secMeta n) = true) : t.secCond n [] [] = .good false none := by
  rw [tag] at key
  simp only [State.secCond, State.unwritten, written, tag, key, Bool.not_true, Bool.and_false, Bool.false_eq_true, if_false]
  rfl

end Reading

/-- Settles O58: the sector is open and tagged, so it reads good, and its bytes are the last written. -/
theorem sectorReadsBack : Obligations.SectorReadsBack := by
  intro s t n b whole wrote key
  have tag := secMeta_of_whole whole wrote
  have bytes := mem_of_whole whole wrote
  have good := secCond_of_whole (written_of_whole whole wrote) tag key
  refine ⟨?reads, fun open_page a outside => ?other⟩
  case reads =>
    have data : t.secData n (.good false none) = b := by
      simp only [State.secData, firmwareSector_of_whole whole wrote, Bool.false_eq_true, if_false, bytes]
      rw [← whole]
      exact memRead_write ..
    have sent : t.readTouch n [] (.good false none) = t.touch n false := by
      have plain : ((t.touch n false).secMeta n).rawErr = [] := congrArg SecMeta.rawErr tag
      simp only [State.readTouch, plain, decodeSector_nil]
      rfl
    simp only [State.readSector, good, data, sent]
    rfl
  case other =>
    rw [bytes, memAt_write _ _ _ _ (by omega), openPage_mem_of_open open_page]

end Sys2Proof.Machine
